-- ==== Sys2Proof/Word.lean ====
section
/-! DEFINITION. The word types of the XVHK-64: bytes, 64-bit words, 64-byte blocks, and the two dies.
Little-endian throughout (R9): byte `i` of a block is its bits [8i+7:8i] (R8). -/

namespace Sys2Proof

/-- One byte. -/
abbrev Byte := BitVec 8

/-- A 64-bit register or structure word (R10). -/
abbrev Word := BitVec 64

/-- A 64-byte block: a command block, an extension block or a flit slot (R30, R46, R283). -/
abbrev Block := BitVec 512

/-- The two compute dies (00_scope, The two dies). -/
inductive Die where
  | west | east
deriving DecidableEq, Repr, Inhabited

/-- West is coded 0 and East 1 wherever a die is coded (R475). -/
def Die.idx : Die → Nat
  | .west => 0
  | .east => 1

/-- The die that a code names: bit 0. -/
def Die.ofCode (n : Nat) : Die := if n % 2 = 0 then .west else .east

/-- The partner die. -/
def Die.other : Die → Die
  | .west => .east
  | .east => .west

/-- A sparse table: entries by rising key, none equal to the table's default. -/
abbrev Tab (α : Type) := List (Nat × α)

end Sys2Proof
end

