-- ==== Sys2Proof/Syntax.lean ====
section
/-! DEFINITION. The commands the block takes: one constructor of `Instr` per row of spec/opcode_table.json, and the
plain data their operands carry (packets, frames, host read outcomes, names of functions, masters and queues).
The table gives its rows no bits: the operands are what the spec says arrives with the event. -/

namespace Sys2Proof

/-- Why one part of a host read failed (R97, R339, R477). -/
inductive ReadFail where
  | timeout | poison | error   -- error: Unsupported Request or Completer Abort
deriving DecidableEq, Repr, Inhabited

/-- The outcome of reading one 64-byte ring entry or extension block. -/
inductive EntryRead where
  | ok (b : Block)
  | fail (f : ReadFail)
deriving DecidableEq, Repr

/-- The outcome of one 8-byte table-walk read (R335). -/
inductive WordRead where
  | ok (w : Word)
  | fail (f : ReadFail)
deriving DecidableEq, Repr

/-- One part of a host data read: its offset in the range and its bytes, or why it failed (R477). -/
structure ReadPart where
  off : Nat
  bytes : List Byte
  fail : Option ReadFail
deriving DecidableEq, Repr

/-- What the target's host memory gives an arriving read, atomic or pull: the bytes read before any failing part (R477). -/
structure TargetRead where
  bytes : List Byte
  fail : Option ReadFail
deriving DecidableEq, Repr

/-- The answer to an ATS Translation Request (R337): refused, or a page with its permissions. -/
inductive AtsAnswer where
  | refused
  | page (addr : Nat) (read write : Bool)
deriving DecidableEq, Repr

/-- One function of one host link (R314): device host port 0 to 7, link, and 0 for PF 0 or n for VF n. -/
structure FnId where
  port : Nat
  link : Nat
  fn : Nat
deriving DecidableEq, Repr, Inhabited

/-- The originator of a register or semaphore access (R342). -/
inductive Master where
  | host (f : FnId)
  | carrel (d : Die) (pair thread : Nat)
  | cp (d : Die) (core : Nat)
  | i3c
  | jtag
  | flume (router : Nat)
deriving DecidableEq, Repr, Inhabited

/-- Whose page or register a doorbell or head write names: the management function's of a die, or an instance's own. -/
inductive Requester where
  | mgmt (d : Die)
  | inst (i : Nat)
deriving DecidableEq, Repr, Inhabited

/-- Where a Taxia command comes from: a command ring of a die (ring 0 is the management ring, R76), the mailbox (R350),
or the Flume (R251: executed at die `d` for source router `src`). -/
inductive Issuer where
  | ring (d : Die) (n : Nat)
  | mailbox
  | flume (d : Die) (src reqDie reqSeq : Nat)
deriving DecidableEq, Repr, Inhabited

/-- The two die bridges (R303). -/
inductive Bridge where
  | north | south
deriving DecidableEq, Repr, Inhabited

/-- Where a packet or link flit was received: link k of the die (R278), or a bridge. -/
inductive Ingress where
  | link (k : Nat)
  | bridge (b : Bridge)
deriving DecidableEq, Repr, Inhabited

/-- An operation of a connection packet, as the initiator asks it of the target (R119 to R123, R157 to R160).
`total` is the whole range of the command or element, checked on its first packet (R126). -/
inductive ReqOp where
  /-- PUT, PUT_INLINE, ZERO (`data = none`: `len` zero bytes), GATHER, SCATTER. `elem`: the first packet of a SCATTER element,
  whose range of `total` bytes is written whole or not at all (R122). -/
  | write (rkey off len total : Nat) (data : Option (List Byte)) (tally : Option Nat) (elem : Bool)
  /-- One read request of a GET: `len` bytes at `off`, answered under `handle` at `dest` bytes into the command. -/
  | read (rkey off len total handle dest : Nat)
  /-- ATOMIC: OP 0 FETCH_ADD, 1 SWAP, 2 COMPARE_SWAP on `size` bytes. -/
  | atomic (rkey off size op operand compare : Nat)
  /-- First packet of an eager message: header and first payload bytes (R157). -/
  | msg (ctx tag len : Nat) (data : List Byte)
  /-- A later packet of an eager message. -/
  | more (data : List Byte)
  /-- Request-to-send of a rendezvous message (R159). -/
  | rts (ctx tag len handle : Nat)
  /-- Pull of `len` bytes at `off` of the rendezvous message with the sender's `handle` (R160). -/
  | pull (handle off len : Nat)
  /-- Finish packet: the pull handle, the byte count, and the code and sub-cause the receive met (R160, R161). -/
  | finish (handle bytes code sub : Nat)
deriving DecidableEq, Repr

/-- A packet that carries a PSN (R115, R128): from connection `peer` of the sender to connection `conn` of the receiver. -/
structure ReqPkt where
  conn : Nat
  peer : Nat
  srcInst : Nat
  dstInst : Nat
  psn : BitVec 32
  first : Bool
  last : Bool
  retx : Bool
  txTime : Nat
  /-- PSNs refused by an unbound station, which the receiving end passes over (R143 sub-cause 0x06). -/
  skip : List (BitVec 32)
  /-- Data of a management ring: it carries no instance for the weights (R240). -/
  mgmt : Bool := false
  op : ReqOp
deriving DecidableEq, Repr

/-- What a negative acknowledgement says of the refused PSN (R22, R126, R143, R166). -/
inductive NakKind where
  | refuse (code sub failIdx bytes : Nat)
  | notReady
  | resetting
  | unbound
  | absent
  | torn
deriving DecidableEq, Repr

/-- An acknowledgement or negative acknowledgement (R130). `result` carries an atomic's prior value and scope (R124),
`sat` the last PSNs of commands whose remote Tally increment saturated (R139), `refused` the outcomes of refusals repeated
after a lost negative acknowledgement. -/
structure AckPkt where
  conn : Nat
  peer : Nat
  cum : BitVec 32
  vis : BitVec 32
  sack : BitVec 128
  echo : Nat
  echoRetx : Bool
  nak : Option (BitVec 32 × NakKind)
  result : Option (BitVec 32 × Nat × Nat)
  sat : List (BitVec 32)
  refused : List (BitVec 32 × NakKind)
deriving DecidableEq, Repr

/-- A GET or pull response (R120, R160): no PSN. `pull` holds of pulled data, named by the sender's pull handle; a GET's
handle is the requester's own. `inst` is the responder's instance. -/
structure RespPkt where
  conn : Nat
  inst : Nat
  pull : Bool
  handle : Nat
  off : Nat
  data : List Byte
  fail : Option (Nat × Nat)
deriving DecidableEq, Repr

/-- Connection control packets (R112). -/
inductive CtlKind where
  | connect | connectAck | teardown | close
deriving DecidableEq, Repr, Inhabited

/-- The descriptor fields a CONNECT or CONNECT_ACK carries, as the sender holds them (R113). -/
structure CtlPkt where
  kind : CtlKind
  conn : Nat
  station : Nat
  peerConn : Nat
  inst : Nat
  remoteInst : Nat
  remoteStation : Nat
  tc : Nat
  mtu : Nat
  /-- The sender's first PSN, from which the receiving end counts EXPECTED. -/
  psn : BitVec 32
deriving DecidableEq, Repr

/-- The Flume fields of a header flit (R249) and the 64-byte second flit or the 32-byte record. -/
structure FlumePkt where
  ftype : Nat
  form : Nat
  relayPort : Nat
  part : Nat
  parts : Nat
  reqSeq : Nat
  reqDie : Nat
  blk : Block
deriving DecidableEq, Repr

/-- One element of a Bindery partial or result: a value with the four flags of R192. In exact mode `val` is the
accumulator; otherwise it is the element's bits. -/
structure BndElem where
  val : Int
  nan : Bool
  pinf : Bool
  ninf : Bool
  anz : Bool
deriving DecidableEq, Repr, Inhabited

/-- What the commands of one sequence must agree on (R183). -/
structure BndHead where
  opcode : Nat
  op : Nat
  ty : Nat
  exact : Bool
  count : Nat
  root : Nat
deriving DecidableEq, Repr, Inhabited

/-- The content of a Bindery packet (R196 to R201). `members` of a partial are the elements that a broadcast or an allgather
gathers, by the place of the first in the whole result. `overflow` reports an element that overflowed to infinity from
finite contributions (R187). An abort lists the sequences that it leaves their results (R202). -/
inductive BndBody where
  | partialUp (h : BndHead) (es : List BndElem) (members : List (Nat × List Nat))
  | result (h : BndHead) (raw : List Nat) (anyNan anyOver : Bool)
  | ackUp          -- acknowledges a contribution, sent down
  | ackDown        -- acknowledges a result, sent up
  | abort (sub : Nat) (kept : List Nat)
deriving DecidableEq, Repr

/-- A Bindery packet on a tree edge or a relay packet (R198): tag (seq, seg, child) and the record's GENERATION. -/
structure BndPkt where
  src : Nat
  dst : Nat
  relay : Bool
  /-- The backup parent that carries a relay packet (R198). -/
  via : Nat
  cctx : Nat
  gen : Nat
  seq : Nat
  seg : Nat
  child : Nat
  body : BndBody
deriving DecidableEq, Repr

/-- What a packet carries beyond its routing fields. -/
inductive Body where
  | req (r : ReqPkt)
  | ack (a : AckPkt)
  | resp (r : RespPkt)
  | ctl (c : CtlPkt)
  | notice (src tc : Nat)
  | flume (f : FlumePkt)
  | bnd (p : BndPkt)
  | raw (flits : List Block)
deriving DecidableEq, Repr, Inhabited

/-- A packet: the routing fields of its header flit (R205) and its body. `chan16` holds of packets on channel 16. -/
structure Pkt where
  dst : Nat
  src : Nat
  tc : Nat
  level : Nat
  leg : Bool
  lhop : Bool
  ord : Bool
  start : Bool
  viaGroup : Nat
  gwRouter : Nat
  gwPort : Nat
  len : Nat
  kind : Nat
  det : Bool
  viaRouter : Nat
  rsv : Nat
  fseq : Nat
  chan16 : Bool
  body : Body
deriving DecidableEq, Repr

/-- What asks for power tokens (R433). -/
inductive TokenUnit where
  | bndBurst (cctx : Nat)
  | scrub
  | adapt (k : Nat)
  | carrel (op : Nat)
deriving DecidableEq, Repr

/-- A flow at its source router: (SRC, TC, destination router) (R226). -/
structure FlowId where
  src : Nat
  tc : Nat
  dstRouter : Nat
deriving DecidableEq, Repr, Inhabited

/-- A leaf queue of an egress (R235) or an injection queue of a host port (R240). `who` is the share group, or the
instance; 1,024 names the management function's injection queue. -/
structure QueueId where
  inj : Bool
  at_ : Nat
  tc : Nat
  who : Nat
deriving DecidableEq, Repr, Inhabited

/-- One entry of a neighbour summary (R259): four occupancy codes, TC0 first. -/
structure SumEntry where
  port : Nat
  die : Nat
  st : Nat
  occ : List Nat
deriving DecidableEq, Repr

/-- A neighbour summary (R259). -/
structure Summary where
  router : Nat
  northUp : Bool
  southUp : Bool
  split : Bool
  seq : Nat
  entries : List SumEntry
deriving DecidableEq, Repr

/-- A link frame (R284): the frame control, and 80 slots with their flags; `bad` are its slices with an uncorrectable codeword;
`corrSym` the FEC-corrected symbols. -/
structure Frame where
  bad : List Nat
  corrSym : Nat
  crc : BitVec 32
  fsn : Nat
  ackFsn : Nat
  nakMap : BitVec 8
  retx : Bool
  empty : Bool
  crCh : Nat
  crCount : Nat
  slots : List (Bool × Block)
deriving DecidableEq, Repr

/-- A frame is bad when a codeword of it is uncorrectable (R289). -/
def Frame.uncorr (f : Frame) : Bool := !f.bad.isEmpty

/-- An IDENT link flit (R287). -/
structure Ident where
  addr : Nat
  port : Nat
  rate : Nat
  split : Bool
  forerunner : Bool
  upper : Bool
  credit : Nat
  txTs : Nat
  echoTs : Nat
  hold : Nat
deriving DecidableEq, Repr

/-- A SHELF link flit (R392). -/
structure ShelfFlit where
  dom : Nat
  pending : Bool
  epoch : Nat
  digest : Nat
  tag : Nat
  actTime : Nat
  pendEpoch : Nat
deriving DecidableEq, Repr

/-- A TIME link flit (R398); `arrival` is the receiver's stamp, `retx` whether its frame was a retransmission. -/
structure TimeFlit where
  st : Nat
  set : Bool
  stratum : Nat
  gm : Nat
  tTx : Nat
  tEcho : Nat
  tRx : Nat
  estErr : Nat
  arrival : Nat
  retx : Bool
deriving DecidableEq, Repr

/-- What training found of one logical lane (R281). -/
structure LaneMap where
  phys : Nat
  inv : Bool
deriving DecidableEq, Repr

/-- What steps 5 to 7 of a link's bring-up find (R279, R281, R300): the adapted receiver asks for precoding, the partner's
receiver asks for it, and the order and polarity of the lanes. -/
structure RxReady where
  dfeHigh : Bool
  asked : Bool
  lanes : List LaneMap
deriving DecidableEq, Repr

/-- A poll of a block with a broken wire (R418), and whether its wires agree. -/
structure WirePoll where
  blk : Nat
  agree : Bool
deriving DecidableEq, Repr

/-- A memory unit of a die: an HBM unit or an SRAM word by its address in 64-byte units (R362). -/
structure MemUnit where
  sram : Bool
  addr : Nat
  owner : Option Nat   -- owning instance; none: the device
deriving DecidableEq, Repr

/-- A request on a host link that is no memory read or write: a configuration read or write of the settings that rules of the spec
read (R312, R314, R337, R375), or an AtomicOp aimed at a BAR (R311). `fn` is PF 0 or a VF of the link. -/
inductive HostReq where
  | read
  /-- SR-IOV: NumVFs with VF Enable set; 0 clears VF Enable. -/
  | numVfs (n : Nat)
  | atsEnable (fn : Nat) (on : Bool)
  | msixEnable (fn : Nat) (on : Bool)
  /-- Device Control 2 of PF 0: the completion timeout in ns, and Completion Timeout Disable. -/
  | cplTimeout (ns : Nat) (off : Bool)
  | atomicToBar
deriving DecidableEq, Repr

/-- A request on a link of a host port. -/
structure HostCfg where
  link : Nat
  what : HostReq
deriving DecidableEq, Repr

/-- Where the packet stands whose packet-buffer cell goes bad (R364): an injection or egress queue by key and place, or it
is leaving an egress on a channel. -/
inductive InFlight where
  | injected (key idx : Nat)
  | queued (key idx : Nat)
  | leaving (eg chan : Nat)
deriving DecidableEq, Repr

/-- What the scrubber or a demand read finds in a unit (R363), and, where a spec structure lives in the unit, what it is
(R364): a receive's match fields, an unexpected message's payload or header, a connection context, a held packet,
a packet in flight, one or both copies of a command's state. -/
inductive UnitHolds where
  | plain
  | posted (inst ctx idx : Nat)
  | postedControl
  | unexpPayload (inst ctx idx : Nat)
  | unexpHeader (inst ctx idx : Nat)
  | connCtx (c : Nat)
  | heldPkt (c : Nat) (psn : BitVec 32)
  | flight (f : InFlight)
  | cmdState (op : Nat) (both : Bool)
deriving DecidableEq, Repr

/-- The error found: none, correctable, or uncorrectable with what the unit holds. -/
inductive UnitError where
  | clean
  | correctable
  | uncorrectable (h : UnitHolds)
deriving DecidableEq, Repr

/-- Fault classes (R420), coded 1 to 4. -/
inductive FaultClass where
  | corrected | deferred | blockFatal | deviceFatal
deriving DecidableEq, Repr, Inhabited

/-- Which band of R435 a voltage lies in. -/
inductive MonBand where
  | normal | alarm | fault
deriving DecidableEq, Repr, Inhabited

/-- A lane that EXTEST names (R461): a network lane of link k, or a host lane of a port's link. -/
inductive TapLane where
  | network (d : Die) (k : Nat)
  | host (port link : Nat)
deriving DecidableEq, Repr

/-- The commands of the block, one per row of spec/opcode_table.json. A Taxia command row carries its issuer, its
64-byte block and the blocks of its chain already fetched (R30, R46); the row fixes the opcode and the action it names. [log DESIGN CHOICE 9] -/
inductive Instr where
  /-- PUT (R119): Copies LENGTH bytes from local memory to a remote window over a connection, in resumable strides. -/
  | put (iss : Issuer) (blk : Block) (chain : List Block)
  /-- PUT_INLINE (R119): Writes 1 to 32 bytes carried in the command block to a remote window in one single-flit packet. -/
  | putInline (iss : Issuer) (blk : Block) (chain : List Block)
  /-- GET (R120): Reads LENGTH bytes from a remote window into local memory as read requests of up to 64 KiB. -/
  | get (iss : Issuer) (blk : Block) (chain : List Block)
  /-- GATHER (R122): Reads up to 16 local elements and writes them contiguously at the target, element by element. -/
  | gather (iss : Issuer) (blk : Block) (chain : List Block)
  /-- SCATTER (R122): Reads a contiguous local source and writes each element to its own remote offset and key. -/
  | scatter (iss : Issuer) (blk : Block) (chain : List Block)
  /-- ZERO (R119): Writes LENGTH zero bytes at a remote address using payload-less packets. -/
  | zero (iss : Issuer) (blk : Block) (chain : List Block)
  /-- SEND (R156): Sends a tagged message on a connection, eager or rendezvous according to EAGER_MAX. -/
  | send (iss : Issuer) (blk : Block) (chain : List Block)
  /-- SEND_INLINE (R156): Sends an eager message of 0 to 32 bytes carried in the command block. -/
  | sendInline (iss : Issuer) (blk : Block) (chain : List Block)
  /-- RECV_POST (R152): Searches the unexpected store for a match and otherwise appends a receive to the posting order. -/
  | recvPost (iss : Issuer) (blk : Block) (chain : List Block)
  /-- RECV_CANCEL (R167): Removes the earliest posted receive with the given cookie in a context. -/
  | recvCancel (iss : Issuer) (blk : Block) (chain : List Block)
  /-- CTX_OPEN (R146): Opens a communicator context if the die limit allows. -/
  | ctxOpen (iss : Issuer) (blk : Block) (chain : List Block)
  /-- CTX_DRAIN (R146): Moves a context to DRAINING and refuses later local sends and posts. -/
  | ctxDrain (iss : Issuer) (blk : Block) (chain : List Block)
  /-- CTX_CLOSE (R146): Closes a draining context, cancelling posted receives and discarding unexpected messages. -/
  | ctxClose (iss : Issuer) (blk : Block) (chain : List Block)
  /-- COLL_BARRIER (R185): Joins a barrier that completes when every member has issued its command of the sequence. -/
  | collBarrier (iss : Issuer) (blk : Block) (chain : List Block)
  /-- COLL_BCAST (R185): Broadcasts the root member's source elements to every member's destination. -/
  | collBcast (iss : Issuer) (blk : Block) (chain : List Block)
  /-- COLL_REDUCE (R185): Reduces every member's source elementwise and writes the result at the root member. -/
  | collReduce (iss : Issuer) (blk : Block) (chain : List Block)
  /-- COLL_ALLREDUCE (R185): Reduces every member's source elementwise and writes the result at every member. -/
  | collAllreduce (iss : Issuer) (blk : Block) (chain : List Block)
  /-- COLL_ALLGATHER (R185): Writes each member's small block at every member's destination in member order. -/
  | collAllgather (iss : Issuer) (blk : Block) (chain : List Block)
  /-- NOP (R58): Does nothing and completes, serving as a standalone fence when FENCE is set. -/
  | nop (iss : Issuer) (blk : Block) (chain : List Block)
  /-- ATOMIC (R123): Performs FETCH_ADD, SWAP or COMPARE_SWAP on an 8 or 16 byte remote value and returns the prior value. -/
  | atomic (iss : Issuer) (blk : Block) (chain : List Block)
  /-- TALLY_WRITE (R64): Sets a Tally's value, clears saturation and evaluates the triggers armed on it. -/
  | tallyWrite (iss : Issuer) (blk : Block) (chain : List Block)
  /-- TALLY_READ (R140): Returns a Tally's value and saturation flag in RESULT. -/
  | tallyRead (iss : Issuer) (blk : Block) (chain : List Block)
  /-- RING_RESET (R102): Resets another command ring of the issuing instance and completes when it reaches IDLE. -/
  | ringReset (iss : Issuer) (blk : Block) (chain : List Block)
  /-- TRIG_ARM (R61): Fetches and checks a deferred command and arms a trigger on a Tally threshold. -/
  | trigArm (iss : Issuer) (blk : Block) (chain : List Block)
  /-- TRIG_DISARM (R65): Removes the earliest armed trigger with the given tag on a Tally. -/
  | trigDisarm (iss : Issuer) (blk : Block) (chain : List Block)
  /-- MG_IDENTITY_SET (R17): Assigns, changes or withdraws the device identity (g, d) on both dies. -/
  | mgIdentitySet (iss : Issuer) (blk : Block) (chain : List Block)
  /-- PORT_ENABLE (R298): MG_PORT_CTL ENABLE: sets ADMIN_EN and starts training of a link or bridge. -/
  | portEnable (iss : Issuer) (blk : Block) (chain : List Block)
  /-- PORT_DISABLE (R298): MG_PORT_CTL DISABLE: takes a link or bridge to DOWN and clears ADMIN_EN and HOLD. -/
  | portDisable (iss : Issuer) (blk : Block) (chain : List Block)
  /-- PORT_DRAIN (R298): MG_PORT_CTL DRAIN: moves an UP link to DRAINING. -/
  | portDrain (iss : Issuer) (blk : Block) (chain : List Block)
  /-- PORT_RETRAIN (R298): MG_PORT_CTL RETRAIN: sends an UP or quarantined link back to TRAINING and clears HOLD. -/
  | portRetrain (iss : Issuer) (blk : Block) (chain : List Block)
  /-- PORT_RELEASE (R298): MG_PORT_CTL RELEASE: returns a FAILED link or bridge to DOWN and clears its recovery count. -/
  | portRelease (iss : Issuer) (blk : Block) (chain : List Block)
  /-- PORT_CONFIGURE (R299): MG_PORT_CTL CONFIGURE: sets a port's rate, split, forerunner mode and credit while all its links are DOWN. -/
  | portConfigure (iss : Issuer) (blk : Block) (chain : List Block)
  /-- EPOCH_WRITE_CLEAR (R383): MG_EPOCH_WRITE CLEAR: empties the inactive bank of a domain and sets STAGED_VALID. -/
  | epochWriteClear (iss : Issuer) (blk : Block) (chain : List Block)
  /-- EPOCH_WRITE_COPY_ACTIVE (R383): MG_EPOCH_WRITE COPY_ACTIVE: copies the active bank into the inactive bank. -/
  | epochWriteCopyActive (iss : Issuer) (blk : Block) (chain : List Block)
  /-- EPOCH_WRITE_PUT (R383): MG_EPOCH_WRITE PUT: adds or replaces staged records from a record stream. -/
  | epochWritePut (iss : Issuer) (blk : Block) (chain : List Block)
  /-- EPOCH_WRITE_REMOVE (R383): MG_EPOCH_WRITE REMOVE: deletes the staged records named by a stream of headers. -/
  | epochWriteRemove (iss : Issuer) (blk : Block) (chain : List Block)
  /-- EPOCH_ACTIVATE (R387): MG_EPOCH_ACTIVATE ACTIVATE: validates the staged bank and makes its activation pending at ACT_TIME. -/
  | epochActivate (iss : Issuer) (blk : Block) (chain : List Block)
  /-- EPOCH_WITHDRAW (R387): MG_EPOCH_ACTIVATE WITHDRAW: removes a pending domain activation. -/
  | epochWithdraw (iss : Issuer) (blk : Block) (chain : List Block)
  /-- MG_GATE_STAGE (R244): Writes a gate control list into the inactive bank of one egress. -/
  | mgGateStage (iss : Issuer) (blk : Block) (chain : List Block)
  /-- GATE_ACTIVATE (R245): MG_GATE_ACTIVATE ACTIVATE: makes the staged gate list pending from ACT_TIME. -/
  | gateActivate (iss : Issuer) (blk : Block) (chain : List Block)
  /-- GATE_WITHDRAW (R245): MG_GATE_ACTIVATE WITHDRAW: removes a pending gate activation. -/
  | gateWithdraw (iss : Issuer) (blk : Block) (chain : List Block)
  /-- GATE_CLEAR (R245): MG_GATE_ACTIVATE CLEAR: makes an all-open gate state pending from ACT_TIME. -/
  | gateClear (iss : Issuer) (blk : Block) (chain : List Block)
  /-- INSTANCE_CREATE (R319): MG_INSTANCE_CTL CREATE: binds a function to an instance number, generates its key and loads its limits. -/
  | instanceCreate (iss : Issuer) (blk : Block) (chain : List Block)
  /-- INSTANCE_START (R319): MG_INSTANCE_CTL START: moves a CONFIGURING instance to RUNNING. -/
  | instanceStart (iss : Issuer) (blk : Block) (chain : List Block)
  /-- INSTANCE_QUIESCE (R320): MG_INSTANCE_CTL QUIESCE: pauses the instance's rings, cancels its long work and closes its contexts. -/
  | instanceQuiesce (iss : Issuer) (blk : Block) (chain : List Block)
  /-- INSTANCE_RESUME (R319): MG_INSTANCE_CTL RESUME: returns a QUIESCED instance to RUNNING and resumes its rings. -/
  | instanceResume (iss : Issuer) (blk : Block) (chain : List Block)
  /-- INSTANCE_RESIZE (R322): MG_INSTANCE_CTL RESIZE: loads a new limits descriptor for a QUIESCED instance. -/
  | instanceResize (iss : Issuer) (blk : Block) (chain : List Block)
  /-- INSTANCE_REMOVE (R321): MG_INSTANCE_CTL REMOVE: erases a QUIESCED instance, its grants and its key. -/
  | instanceRemove (iss : Issuer) (blk : Block) (chain : List Block)
  /-- GRANT_CONNECTION (R112): MG_GRANT CONNECTION: loads a connection descriptor, moves the end to PENDING and sends CONNECT. -/
  | grantConnection (iss : Issuer) (blk : Block) (chain : List Block)
  /-- REVOKE_CONNECTION (R112): MG_GRANT CONNECTION with REVOKE: moves a connection end to DRAINING, or erases a FAILED end. -/
  | revokeConnection (iss : Issuer) (blk : Block) (chain : List Block)
  /-- GRANT_MATCHING (R149): MG_GRANT MATCHING: sets an instance's matching quotas within die capacity. -/
  | grantMatching (iss : Issuer) (blk : Block) (chain : List Block)
  /-- GRANT_COLLECTIVE (R179): MG_GRANT COLLECTIVE: grants an instance membership of a collective context. -/
  | grantCollective (iss : Issuer) (blk : Block) (chain : List Block)
  /-- REVOKE_COLLECTIVE (R179): MG_GRANT COLLECTIVE with REVOKE: removes membership, making a pending member lost. -/
  | revokeCollective (iss : Issuer) (blk : Block) (chain : List Block)
  /-- GRANT_COUNTER (R274): MG_GRANT COUNTER: exposes an event counter in an instance's capability slot. -/
  | grantCounter (iss : Issuer) (blk : Block) (chain : List Block)
  /-- REVOKE_COUNTER (R274): MG_GRANT COUNTER with REVOKE: empties a counter slot. -/
  | revokeCounter (iss : Issuer) (blk : Block) (chain : List Block)
  /-- GRANT_TALLY (R326): MG_GRANT TALLY: grants a range of Tallies, starting at 0 and unsaturated. -/
  | grantTally (iss : Issuer) (blk : Block) (chain : List Block)
  /-- REVOKE_TALLY (R326): MG_GRANT TALLY with REVOKE: removes a granted range and cancels its armed triggers. -/
  | revokeTally (iss : Issuer) (blk : Block) (chain : List Block)
  /-- GRANT_VSTATION (R326): MG_GRANT VSTATION: grants a virtual station as a source to an instance. -/
  | grantVstation (iss : Issuer) (blk : Block) (chain : List Block)
  /-- REVOKE_VSTATION (R326): MG_GRANT VSTATION with REVOKE: withdraws a virtual station grant. -/
  | revokeVstation (iss : Issuer) (blk : Block) (chain : List Block)
  /-- GRANT_WINDOW (R330): MG_GRANT WINDOW: programs or removes a translation window and advances its nonce. -/
  | grantWindow (iss : Issuer) (blk : Block) (chain : List Block)
  /-- MODE_SET_DRAIN (R410): MG_MODE_SET DRAIN: enters Drain and pauses every running instance command ring. -/
  | modeSetDrain (iss : Issuer) (blk : Block) (chain : List Block)
  /-- MODE_SET_RESUME (R410): MG_MODE_SET RESUME: leaves Drain and resumes the rings Drain paused. -/
  | modeSetResume (iss : Issuer) (blk : Block) (chain : List Block)
  /-- MODE_SET_STANDBY (R437): MG_MODE_SET STANDBY: checks the Standby conditions and begins entry to Standby. -/
  | modeSetStandby (iss : Issuer) (blk : Block) (chain : List Block)
  /-- MODE_SET_RESET (R409): MG_MODE_SET RESET: schedules an internal device reset 1 ms after the completion record. -/
  | modeSetReset (iss : Issuer) (blk : Block) (chain : List Block)
  /-- MODE_SET_FORENSIC (R427): MG_MODE_SET FORENSIC: forces the device into Forensic mode. -/
  | modeSetForensic (iss : Issuer) (blk : Block) (chain : List Block)
  /-- MG_REG_READ (R472): Reads a 4 or 8 byte register at a register-space offset and returns it in RESULT. -/
  | mgRegRead (iss : Issuer) (blk : Block) (chain : List Block)
  /-- MG_REG_WRITE (R472): Writes a 4 or 8 byte register at a register-space offset as one access. -/
  | mgRegWrite (iss : Issuer) (blk : Block) (chain : List Block)
  /-- CRUISE_PUSH_NOW (R266): MG_CRUISE_COLLECT PUSH_NOW: sends one congestion map at once. -/
  | cruisePushNow (iss : Issuer) (blk : Block) (chain : List Block)
  /-- CRUISE_SET_PUSH (R266): MG_CRUISE_COLLECT SET_PUSH: sets the map destination and push period. -/
  | cruiseSetPush (iss : Issuer) (blk : Block) (chain : List Block)
  /-- CRUISE_SET_RECEIVE (R266): MG_CRUISE_COLLECT SET_RECEIVE: sets the collector slot base and accepted source groups. -/
  | cruiseSetReceive (iss : Issuer) (blk : Block) (chain : List Block)
  /-- MG_SHELF_COLLECT (R394): Returns a domain's active digest, MACHINE_TAG, staged digest or epoch flags. -/
  | mgShelfCollect (iss : Issuer) (blk : Block) (chain : List Block)
  /-- MG_FAULT_RELEASE (R425): Releases a HELD_FAILED unit, clears its recoveries and starts its self-test. -/
  | mgFaultRelease (iss : Issuer) (blk : Block) (chain : List Block)
  /-- MG_SEM_BANK_RESET (R372): Frees every semaphore of an idle bank and notifies their waiters. -/
  | mgSemBankReset (iss : Issuer) (blk : Block) (chain : List Block)
  /-- TIME_CTL_SET (R407): MG_TIME_CTL SET: loads device time at the next PPS_IN edge or at once. -/
  | timeCtlSet (iss : Issuer) (blk : Block) (chain : List Block)
  /-- TIME_CTL_STEP (R407): MG_TIME_CTL STEP: schedules a step of device time at the next whole second. -/
  | timeCtlStep (iss : Issuer) (blk : Block) (chain : List Block)
  /-- TIME_CTL_RESELECT (R407): MG_TIME_CTL RESELECT: drops the present time source and chooses again. -/
  | timeCtlReselect (iss : Issuer) (blk : Block) (chain : List Block)
  /-- ARCHIVE_DESIGNATE (R431): MG_ARCHIVE_CTL DESIGNATE: names a 512 MiB host buffer for the Archive copy. -/
  | archiveDesignate (iss : Issuer) (blk : Block) (chain : List Block)
  /-- ARCHIVE_CLEAR (R431): MG_ARCHIVE_CTL CLEAR: removes the Archive designation. -/
  | archiveClear (iss : Issuer) (blk : Block) (chain : List Block)
  /-- ARCHIVE_COPY (R431): MG_ARCHIVE_CTL COPY: copies a valid Archive to the designated buffer now. -/
  | archiveCopy (iss : Issuer) (blk : Block) (chain : List Block)
  /-- RING_CONFIGURE_CMD (R100): MG_RING_CTL CONFIGURE_CMD: loads a command ring's configuration, binds it and reserves its halt slot. -/
  | ringConfigureCmd (iss : Issuer) (blk : Block) (chain : List Block)
  /-- RING_CONFIGURE_CQ (R104): MG_RING_CTL CONFIGURE_CQ: configures a completion ring. -/
  | ringConfigureCq (iss : Issuer) (blk : Block) (chain : List Block)
  /-- RING_PAUSE (R100): MG_RING_CTL PAUSE: stops consumption and dispatch on a command ring. -/
  | ringPause (iss : Issuer) (blk : Block) (chain : List Block)
  /-- RING_RESUME (R100): MG_RING_CTL RESUME: leaves PAUSED, scanning if a doorbell was latched. -/
  | ringResume (iss : Issuer) (blk : Block) (chain : List Block)
  /-- RING_CTL_RESET (R101): MG_RING_CTL RESET: moves a command ring to RESET and cancels its work. -/
  | ringCtlReset (iss : Issuer) (blk : Block) (chain : List Block)
  /-- RING_RELEASE_CMD (R100): MG_RING_CTL RELEASE_CMD: cancels and unconfigures a command ring and unbinds it. -/
  | ringReleaseCmd (iss : Issuer) (blk : Block) (chain : List Block)
  /-- RING_RELEASE_CQ (R104): MG_RING_CTL RELEASE_CQ: unconfigures an unbound, drained completion ring. -/
  | ringReleaseCq (iss : Issuer) (blk : Block) (chain : List Block)
  /-- DOORBELL (R83): A write to a doorbell page makes an IDLE ring scan, sets the rescan flag, or latches in PAUSED. -/
  | doorbell (who : Requester) (idx : Nat)
  /-- RING_ENTRY_FETCH (R84): A read of the entry at the fetch point completes and the entry is consumed, ends the scan or halts the ring. -/
  | ringEntryFetch (d : Die) (n : Nat) (parts : List ReadPart)
  /-- RING_CONSUME_RETRY (R92): A waiting owned entry is consumed once a completion slot frees or undispatched room appears. -/
  | ringConsumeRetry (d : Die) (n : Nat) (parts : List ReadPart)
  /-- RING_RESET_DONE (R100): A ring in RESET whose consumed commands all have records reserves a halt slot and enters IDLE. -/
  | ringResetDone (d : Die) (n : Nat)
  /-- RING_RESET_SLOT_TIMEOUT (R102): After 10 ms without a halt slot, RING_RESET completes with CC_RESOURCE while the ring stays in RESET. -/
  | ringResetSlotTimeout (d : Die) (n : Nat)
  /-- SHADOW_TIMER (R86): The 2 µs shadow deadline expires and the status word is written to the shadow address. -/
  | shadowTimer (d : Die) (n : Nat)
  /-- COMMAND_DISPATCH (R106): A free engine thread takes the next dispatchable command by management, priority level and WFQ rounds. -/
  | commandDispatch (d : Die)
  /-- RING_AGE_EXPIRY (R108): A lower-level ring waits past RNG_PRIO_AGE and dispatches one command ahead of level 3. -/
  | ringAgeExpiry (d : Die) (n : Nat)
  /-- CQ_HEAD_WRITE (R93): A completion head write returns slots and may arm an interrupt, or is refused with EV_CQ_HEAD_BAD. -/
  | cqHeadWrite (who : Requester) (idx : Nat) (val : BitVec 32)
  /-- EXT_BLOCK_FETCH (R48): An extension block fetch completes and the chain is followed or checked. -/
  | extBlockFetch (op : Nat) (parts : List ReadPart)
  /-- TRIG_SLOT_TIMEOUT (R66): A TRIG_ARM waiting 10 ms for a trigger slot completes with CC_RESOURCE, SUBCAUSE 0x06. -/
  | trigSlotTimeout (op : Nat)
  /-- CONN_CACHE_WAIT_TIMEOUT (R114): A command waiting 10 ms for a free connection-cache entry completes with CC_RESOURCE, SUBCAUSE 0x07. -/
  | connCacheWaitTimeout (op : Nat)
  /-- OPS_SLOT_WAIT_TIMEOUT (R114): A command waiting 10 ms for an outstanding-operation slot completes with CC_RESOURCE, SUBCAUSE 0x08. -/
  | opsSlotWaitTimeout (op : Nat)
  /-- MAX_OPS_WAIT_TIMEOUT (R318): A command waiting 10 ms under its instance's MAX_OPS completes with CC_RESOURCE, SUBCAUSE 0x05. -/
  | maxOpsWaitTimeout (op : Nat)
  /-- CTX_OPEN_WAIT_TIMEOUT (R146): A CTX_OPEN waiting 10 ms at the die context limit completes with CC_RESOURCE, SUBCAUSE 0x03. -/
  | ctxOpenWaitTimeout (op : Nat)
  /-- RECV_POST_WAIT_TIMEOUT (R165): A RECV_POST waiting 10 ms for posted-receive room completes with CC_RESOURCE, SUBCAUSE 0x01. -/
  | recvPostWaitTimeout (op : Nat)
  /-- STRIDE_BOUNDARY (R69): A long command finishes staging a stride, writes its resume record and continues, suspends or cancels. -/
  | strideBoundary (op : Nat)
  /-- LONG_COMMAND_RESUME (R72): A suspended long command resumes at NEXT_STRIDE when an engine frees of higher-priority work. -/
  | longCommandResume (op : Nat)
  /-- DATA_PACKET_ARRIVE (R126): A connection packet reaches the target's station layer, is checked and applied in PSN order or held. -/
  | dataPacketArrive (d : Die) (p : Pkt) (hr : TargetRead)
  /-- ACK_TIMER (R130): 2 µs after the first unacknowledged application, the receiver sends an acknowledgement. -/
  | ackTimer (d : Die) (c : Nat)
  /-- ACK_RECEIVE (R131): An acknowledgement or negative acknowledgement updates delivery, window and retransmission at the initiator. -/
  | ackReceive (d : Die) (p : Pkt)
  /-- FLUSH_TIMER (R131): Every 8 µs with unflushed writes, the target issues a zero-length flush read. -/
  | flushTimer (d : Die) (c : Nat)
  /-- FLUSH_COMPLETE (R131): A flush read completes and VIS_PSN advances past the writes it covers. -/
  | flushComplete (d : Die) (c : Nat) (fail : Option ReadFail)
  /-- RTO_EXPIRY (R132): A packet unacknowledged for the retransmission timeout is resent and the timeout doubles. -/
  | rtoExpiry (d : Die) (c : Nat)
  /-- GET_RESPONSE_ARRIVE (R120): A GET or pull response arrives and is placed in local memory. -/
  | getResponseArrive (d : Die) (p : Pkt)
  /-- PACED_SEND (R136): A connection whose window is smaller than its next packet sends it after the pacing interval. -/
  | pacedSend (d : Die) (c : Nat)
  /-- CONNECT_RECEIVE (R112): A CONNECT or CONNECT_ACK arrives and establishes a mirroring PENDING end or reports a mismatch. -/
  | connectReceive (d : Die) (p : Pkt)
  /-- CONNECT_RESEND (R112): A PENDING end resends CONNECT 1 ms after the last one. -/
  | connectResend (d : Die) (c : Nat)
  /-- TEARDOWN_RECEIVE (R112): A TEARDOWN or CLOSE from the peer moves the end to FAILED and completes its pending commands. -/
  | teardownReceive (d : Die) (p : Pkt)
  /-- CONN_DRAIN_DONE (R112): A DRAINING or revoked FAILED end whose commands all have records sends CLOSE if due and erases its context. -/
  | connDrainDone (d : Die) (c : Nat)
  /-- PROGRESS_TIMEOUT (R144): 2 s without progress fails the connection with CC_UNREACHABLE, SUBCAUSE 0x03 or 0x04. -/
  | progressTimeout (d : Die) (c : Nat)
  /-- RNR_RESEND (R166): After CAT_RNR_CFG.INTERVAL the sender resends a header answered receiver-not-ready. -/
  | rnrResend (d : Die) (c : Nat)
  /-- RNR_LIMIT_EXPIRY (R166): 10 ms after the first receiver-not-ready answer the message is refused with CC_RESOURCE, SUBCAUSE 0x02. -/
  | rnrLimitExpiry (d : Die) (c : Nat)
  /-- PULL_REQUEST (R160): A rendezvous pull request reaches the sender and is served from the SEND's local buffer. -/
  | pullRequest (d : Die) (p : Pkt) (hr : TargetRead)
  /-- FINISH_PACKET (R160): A rendezvous finish packet is applied and the SEND completes with its byte count. -/
  | finishPacket (d : Die) (p : Pkt)
  /-- CTX_DRAIN_DONE (R146): A CTX_DRAIN or CTX_CLOSE completes once its awaited records are all written. -/
  | ctxDrainDone (op : Nat)
  /-- BND_CONTRIBUTION (R196): A tagged contribution arrives at a node, is folded or discarded as duplicate, and is acknowledged. -/
  | bndContribution (d : Die) (p : BndPkt)
  /-- BND_RESULT (R197): A result segment arrives from the parent, is passed down and written at member dies. -/
  | bndResult (d : Die) (p : BndPkt)
  /-- BND_ACK (R197): A parent's or child's acknowledgement releases a held partial or result. -/
  | bndAck (d : Die) (p : BndPkt)
  /-- BND_RESEND (R197): A partial unacknowledged for BND_CTL.RESEND is resent on the same path. -/
  | bndResend (d : Die) (cctx seq seg : Nat)
  /-- BND_RELAY_PACKET (R198): A backup parent relays a partial, acknowledgement or result between child and parent. -/
  | bndRelayPacket (d : Die) (p : BndPkt)
  /-- BND_ABORT_RECEIVE (R201): An abort of matching generation is propagated, held data discarded and the context aborted. -/
  | bndAbortReceive (d : Die) (p : BndPkt)
  /-- BND_BACKUP_TIMEOUT (R200): A backup parent or its route stays unavailable for 2 s and the collective aborts, SUBCAUSE 0x04. -/
  | bndBackupTimeout (d : Die) (cctx : Nat)
  /-- TOKEN_REQUEST (R433): A unit asks its die's power manager for power tokens and waits in arrival order. -/
  | tokenRequest (d : Die) (u : TokenUnit)
  /-- TOKEN_GRANT (R433): The head token request is granted when the budget allows. -/
  | tokenGrant (d : Die)
  /-- TOKEN_RELEASE (R433): Work finishes and releases its granted tokens. -/
  | tokenRelease (d : Die) (u : TokenUnit)
  /-- PACKET_ROUTE_SOURCE (R217): The source router chooses a path for a packet by weighted candidates or the deterministic rule. -/
  | packetRouteSource (d : Die) (p : Pkt)
  /-- PACKET_FORWARD (R215): A router forwards a received packet by next_hop, or drops it when no egress is usable. -/
  | packetForward (d : Die) (from_ : Ingress) (p : Pkt)
  /-- BOOM_ARRIVAL (R229): An ORD = 1 packet reaches the Boom and is delivered, held, dropped or delivered late. -/
  | boomArrival (d : Die) (p : Pkt)
  /-- BOOM_HOLD_TIMEOUT (R230): A flow's oldest held packet reaches 64 µs, the Boom skips ahead, delivers and sends a notice. -/
  | boomHoldTimeout (d : Die) (src tc : Nat)
  /-- BOOM_ENTRY_IDLE (R231): A SYNCED entry with nothing held and no arrival for 512 µs is freed. -/
  | boomEntryIdle (d : Die) (src tc : Nat)
  /-- BOOM_NOTICE_RECEIVE (R233): A Boom notice places its flow in cooldown for 1 ms at the source router. -/
  | boomNoticeReceive (d : Die) (p : Pkt)
  /-- COOLDOWN_EXPIRY (R233): A flow's 1 ms cooldown ends and spraying resumes. -/
  | cooldownExpiry (d : Die) (f : FlowId)
  /-- FLOW_STATE_RETIRE (R227): A source flow state idle for 256 µs and not in cooldown is retired. -/
  | flowStateRetire (d : Die) (f : FlowId)
  /-- EGRESS_SERVE (R235): An egress scheduler picks the next packet by tier, WFQ and level, and charges finish tags. -/
  | egressServe (d : Die) (eg : Nat)
  /-- INJECTION_SERVE (R240): A host port's injection scheduler picks the next staged packet among instances by WFQ. -/
  | injectionServe (d : Die) (port : Nat)
  /-- AGE_PROMOTION (R239): A leaf queue eligible unserved for AGE_LIMIT has its head packet promoted to the urgent tier. -/
  | agePromotion (d : Die) (q : QueueId)
  /-- SEM_BOOST_APPLY (R241): A reported semaphore boost takes effect or is withdrawn at the scheduler within 1 µs. -/
  | semBoostApply (d : Die) (n : Nat)
  /-- GATE_ENTRY_BOUNDARY (R242): Device time crosses a gate list entry boundary and the egress channel mask changes. -/
  | gateEntryBoundary (d : Die) (port : Nat)
  /-- GATE_ACTIVATION (R246): A pending gate activation takes effect at ACT_TIME, swapping banks and posting EV_GATE_ACTIVE. -/
  | gateActivation (d : Die) (port : Nat)
  /-- FLUME_REQUEST (R251): A complete Flume request at its target is policed, deduplicated, checked and executed. -/
  | flumeRequest (d : Die) (from_ : Ingress) (p : Pkt)
  /-- FLUME_PARTIAL_DISCARD (R251): An incomplete Flume request is discarded 1 ms after its first part. -/
  | flumePartialDiscard (d : Die) (src reqDie reqSeq : Nat)
  /-- FLUME_RESEND (R252): An unanswered VIA_FLUME request is resent whole every SCH_FLUME_CFG.RESEND. -/
  | flumeResend (op : Nat)
  /-- FLUME_ANSWER_TIMEOUT (R252): ANSWER_LIMIT passes without an answer and the command completes with CC_UNREACHABLE, SUBCAUSE 0x01. -/
  | flumeAnswerTimeout (op : Nat)
  /-- FLUME_ANSWER (R45): A Flume answer arrives and completes the issuing management command with the remote outcome. -/
  | flumeAnswer (d : Die) (p : Pkt)
  /-- FLUME_RELAY (R250): A FORM 1 packet is sent by the relay router out of RELAY_PORT as FORM 2, or an answer is relayed back. -/
  | flumeRelay (d : Die) (from_ : Ingress) (p : Pkt)
  /-- FLUME_EVENT_RECEIVE (R328): A forwarded event record arrives and is written to the collector die's management event ring. -/
  | flumeEventReceive (d : Die) (p : Pkt)
  /-- CRUISE_SAMPLE (R256): Every 1 µs the die captures the occupancy of every egress channel and queue. -/
  | cruiseSample (d : Die)
  /-- SUMMARY_SEND (R259): Every 2 µs the die sends a neighbour summary on every UP link and both bridges. -/
  | summarySend (d : Die)
  /-- SUMMARY_RECEIVE (R260): A neighbour summary updates the group view if its SEQ is newer. -/
  | summaryReceive (d : Die) (from_ : Ingress) (m : Summary)
  /-- SUMMARY_FORWARD (R260): Every 2 µs the die forwards to its partner the summaries received on local links. -/
  | summaryForward (d : Die)
  /-- SUMMARY_STALE (R261): A group-view record passes CRZ_CFG.STALE and its gateways become unusable. -/
  | summaryStale (d : Die) (r : Nat)
  /-- MAP_PUSH (R262): At each PERIOD multiple the die samples and sends a congestion map to DEST. -/
  | mapPush (d : Die)
  /-- MAP_PART_RECEIVE (R265): A collector die writes an arriving map part into its source slot or drops it. -/
  | mapPartReceive (d : Die) (p : Pkt)
  /-- MAP_CLOSE_TIMEOUT (R265): 100 µs after a map's first part the collector closes the slot. -/
  | mapCloseTimeout (d : Die) (slot : Nat)
  /-- COUNTER_WRAP_SAMPLE (R272): A counter wrap with INT_EN captures PMC_SAMPLE and raises the sampling interrupt: `part` core
  cycles into the tick, with the firmware at `addr` (bits [25:2] of its instruction's address) at the counter's latest event. -/
  | counterWrapSample (d : Die) (i part : Nat) (addr : BitVec 24)
  /-- PMC_SNAP (R271): Writing PMC_CTL.SNAP copies all 768 counters of the die in one cycle. -/
  | pmcSnap (d : Die)
  /-- FRAME_RECEIVE (R292): A link frame arrives and is delivered in order, held, requested again or dropped, with its frame control applied. -/
  | frameReceive (d : Die) (k : Nat) (f : Frame)
  /-- LINK_RETX_TIMEOUT (R291): A frame unacknowledged for LNK_RETX_CFG.TIMEOUT is resent; eight in a row take the link DOWN. -/
  | linkRetxTimeout (d : Die) (k : Nat)
  /-- IDENT_RECEIVE (R298): An IDENT flit ends training with UP, QUARANTINE or DOWN, or takes a changed partner DOWN. -/
  | identReceive (d : Die) (k : Nat) (m : Ident)
  /-- IDENT_SEND (R287): Every 1 ms, or on any content change, the link sends an IDENT flit. -/
  | identSend (d : Die) (k : Nat)
  /-- SHELF_SEND (R392): Every 125 µs each link sends the SHELF flit of the next domain. -/
  | shelfSend (d : Die) (k : Nat)
  /-- SHELF_RECEIVE (R393): A SHELF flit is compared with the die's own epoch and tag and a mismatch marked or cleared. -/
  | shelfReceive (d : Die) (k : Nat) (m : ShelfFlit)
  /-- TIME_SEND (R398): Every 100 µs each UP link sends a TIME flit. -/
  | timeSend (d : Die) (k : Nat)
  /-- TIME_RECEIVE (R399): A TIME flit from the source yields an offset and delay that drive the time-state machine. -/
  | timeReceive (d : Die) (k : Nat) (m : TimeFlit)
  /-- ONOFF_RECEIVE (R302): An ONOFF flit on a forerunner port turns channels off or on for new packets. -/
  | onoffReceive (d : Die) (k mask : Nat)
  /-- ONOFF_SEND (R302): A forerunner receiver sends ONOFF at every change and every 1 µs; `waits` are the flits of each channel
  that it has handed to the router and that still stand in its buffer. -/
  | onoffSend (d : Die) (k : Nat) (waits : List Nat)
  /-- LANE_SIGNAL_LOSS (R282): Loss of signal or lock on a lane for over 1 µs takes the link DOWN with LOS or LOL. -/
  | laneSignalLoss (d : Die) (k lane : Nat) (lock : Bool)
  /-- LANE_SIGNAL_DETECT (R300): Signal is detected on every lane of a training link and adaptation begins. -/
  | laneSignalDetect (d : Die) (k : Nat)
  /-- LINK_RX_READY (R300): Both ends are RX_READY and the alignment countdown begins. -/
  | linkRxReady (d : Die) (k : Nat) (r : RxReady)
  /-- LINK_ALIGN_DONE (R300): The countdown ends, codeword streams start and lanes are deskewed: `starts` is when each lane's
  stream begins at the receiver, in ns. -/
  | linkAlignDone (d : Die) (k : Nat) (starts : List Nat)
  /-- TRAIN_TIMEOUT (R298): Training unfinished 500 ms after signal detect takes the link DOWN with TRAIN_FAIL. -/
  | trainTimeout (d : Die) (k : Nat)
  /-- NO_SIGNAL_TIMEOUT (R298): No signal 1 s after transmit start takes the link DOWN with NO_SIGNAL. -/
  | noSignalTimeout (d : Die) (k : Nat)
  /-- NO_SIGNAL_RETRY (R298): A link DOWN for NO_SIGNAL with ADMIN_EN retries training after 1 s. -/
  | noSignalRetry (d : Die) (k : Nat)
  /-- LINK_QUIET_END (R298): The quiet period after a fault ends and an enabled link retrains. -/
  | linkQuietEnd (d : Die) (k : Nat)
  /-- LINK_DRAIN_END (R298): A DRAINING link empties or reaches 1 ms and moves to QUARANTINE, discarding the rest. -/
  | linkDrainEnd (d : Die) (k : Nat)
  /-- BRIDGE_PARITY_ERROR (R304): A bridge parity error takes the bridge DOWN and stops its forwarded clocks. -/
  | bridgeParityError (d : Die) (b : Bridge) (ew : Bool) (lane : Nat)
  /-- BRIDGE_CLOCK_LOSS (R304): A die sees its partner's forwarded clock stop and declares the bridge DOWN. -/
  | bridgeClockLoss (d : Die) (b : Bridge)
  /-- BRIDGE_TRAIN_DONE (R305): Bridge lane test and credit exchange finish and the bridge enters UP or DOWN. -/
  | bridgeTrainDone (b : Bridge) (we ew : List Nat)
  /-- BRIDGE_QUIET_END (R305): Both dies' quiet periods end and the bridge enters TRAINING. -/
  | bridgeQuietEnd (b : Bridge)
  /-- FLR (R323): A Function Level Reset silences the function and moves its instance or management rings to reset. -/
  | flr (f : FnId)
  /-- HOST_LINK_RESET (R323): A hot reset, link-down or disable of a host link resets every instance on it. -/
  | hostLinkReset (port link : Nat)
  /-- PERST_N_ASSERT (R451): PERST_N of a host port asserts and holds the port's links and instances in reset. -/
  | perstNAssert (port : Nat)
  /-- PERST_N_DEASSERT (R451): PERST_N rises, the port trains, and in Standby raises its always-on source. -/
  | perstNDeassert (port : Nat)
  /-- D3HOT_ENTRY (R323): A function enters D3hot and its instance moves to RESETTING. -/
  | d3hotEntry (f : FnId)
  /-- INSTANCE_RESET_DONE (R319): The reset drain finishes with the function back in D0 and the instance leaves RESETTING. -/
  | instanceResetDone (i : Nat)
  /-- INSTANCE_QUIESCE_DONE (R319): Every dispatched command of a QUIESCING instance has its record and QUIESCE completes. -/
  | instanceQuiesceDone (i : Nat)
  /-- HOST_READ_COMPLETE (R477): A host read completes or times out and one outcome is reported for it. -/
  | hostReadComplete (op : Nat) (parts : List ReadPart)
  /-- TABLE_WALK_COMPLETE (R335): An extension-table walk read completes and the TLB is filled or a fault reported. -/
  | tableWalkComplete (d : Die) (walk : Nat) (r : WordRead)
  /-- ATS_TRANSLATION_COMPLETE (R337): An ATS Translation Request returns and its answer is cached and used. -/
  | atsTranslationComplete (d : Die) (walk : Nat) (ans : AtsAnswer)
  /-- ATS_INVALIDATION (R337): An Invalidation Request removes matching TLB entries and is completed after their accesses drain. -/
  | atsInvalidation (f : FnId) (addr len : Nat)
  /-- HOST_CONFIG_REQUEST (R415): A configuration request before bring-up step 9 is answered with Retry Status. -/
  | hostConfigRequest (port : Nat) (r : HostCfg)
  /-- MBX_GO (R349): A write to MBX_GO offers MBX_BLOCK and is accepted or counted in REJECTS. -/
  | mbxGo (val : BitVec 32)
  /-- MBX_COMMAND_DONE (R350): An accepted mailbox command finishes, writes MBX_RESULT, clears BUSY and raises vector 0. -/
  | mbxCommandDone
  /-- LOCKSTEP_MISMATCH (R359): A Carrel pair's lockstep mismatch kills it and its lines and semaphores are reclaimed. -/
  | lockstepMismatch (d : Die) (pair : Nat)
  /-- PAIR_REEXECUTE (R360): A spare or free pair re-executes a dead pair's commands from their records. -/
  | pairReexecute (d : Die) (pair : Nat)
  /-- PAIR_RETEST (R361): After the quiet period a dead pair is self-tested and becomes SPARE or stays FAILED. -/
  | pairRetest (d : Die) (pair : Nat) (pass : Bool)
  /-- CACHE_READ (R356): A pair reads a line, causing a miss or a snoop transition under the directory. -/
  | cacheRead (d : Die) (pair : Nat) (home : Die) (line : Nat)
  /-- CACHE_WRITE (R356): A pair writes a line, taking it to M and invalidating other copies. -/
  | cacheWrite (d : Die) (pair : Nat) (home : Die) (line : Nat)
  /-- CACHE_EVICT (R356): A pair evicts a line, writing back M or O data or notifying the directory. -/
  | cacheEvict (d : Die) (pair : Nat) (home : Die) (line : Nat)
  /-- DIRECTORY_EVICT (R356): The directory evicts an entry and every copy of its line is invalidated. -/
  | directoryEvict (home : Die) (line : Nat)
  /-- SCRUB_UNIT (R363): The scrubber reads a memory unit, corrects it or poisons it and logs an uncorrectable error. -/
  | scrubUnit (d : Die) (u : MemUnit) (e : UnitError)
  /-- SCRUB_FULL (R363): Writing HBM_SCRUB_CFG.FULL starts a full-rate scrub pass. -/
  | scrubFull (d : Die)
  /-- SEM_ACQUIRE (R366): An aligned 64-bit read of a semaphore acquires it if free or returns the holder word. -/
  | semAcquire (m : Master) (d : Die) (n : Nat)
  /-- SEM_RELEASE (R367): SEM_CTL OP RELEASE from the holder frees the semaphore and notifies its waiters. -/
  | semRelease (m : Master) (d : Die) (n : Nat)
  /-- SEM_ARM (R367): SEM_CTL OP ARM arms notify-on-free for the writer with a level and source. -/
  | semArm (m : Master) (d : Die) (n level source : Nat)
  /-- SEM_DISARM (R367): SEM_CTL OP DISARM removes the writer's own arm. -/
  | semDisarm (m : Master) (d : Die) (n : Nat)
  /-- INT_SOURCE_RAISE (R376): A source is raised or a level asserted and it becomes PENDING or ACTIVE_PENDING. -/
  | intSourceRaise (d : Die) (s : Nat)
  /-- INT_RAISE_WRITE (R376): Writing INT_SRC_CFG.RAISE raises the source. -/
  | intRaiseWrite (d : Die) (s : Nat)
  /-- INT_DELIVERY (R375): A PENDING source is delivered to its next eligible target and its group timer starts. -/
  | intDelivery (d : Die) (s : Nat)
  /-- MSIX_MESSAGE_WRITTEN (R376): A source's MSI-X message is written, on unmask if it waited, and the source leaves ACTIVE. -/
  | msixMessageWritten (d : Die) (s : Nat)
  /-- INT_CLAIM (R377): A full-width read of INT_CLAIM_c claims the core's highest-priority active source. -/
  | intClaim (d : Die) (c : Nat)
  /-- INT_COMPLETE (R377): A write to INT_COMPLETE_c completes a claimed source. -/
  | intComplete (d : Die) (c : Nat) (val : BitVec 32)
  /-- HOLDOFF_EXPIRY (R379): A group's hold-off timer expires and its pending sources are delivered together. -/
  | holdoffExpiry (d : Die) (g : Nat)
  /-- EPOCH_ACTIVATION (R389): A pending domain activation takes effect at ACT_TIME, swapping banks and posting EV_EPOCH_ACTIVE. -/
  | epochActivation (d : Die) (dom : Nat)
  /-- TIME_SOURCE_TIMEOUT (R400): No TIME flit for 500 µs, or no PPS edge for 1.1 s, loses the time source. -/
  | timeSourceTimeout
  /-- PPS_IN_EDGE (R455): A PPS_IN rising edge gives a grandmaster's offset or is ignored as out of tolerance. -/
  | ppsInEdge
  /-- HOLDOVER_EXPIRY (R401): 300 s in HOLDOVER, or EST_ERR above 1 µs, moves time to FREE-RUN. -/
  | holdoverExpiry
  /-- TIME_STEP_APPLY (R405): A due step is applied at the whole second and EV_TIME_STEP posted. -/
  | timeStepApply
  /-- SYS_RESET_ASSERT (R449): SYS_RESET_N low for 1 µs holds the device in reset. -/
  | sysResetAssert (lowNs : Nat)
  /-- RESET_RELEASE (R449): The internal reset releases, straps are sampled and bring-up step 1 begins. -/
  | resetRelease (straps : BitVec 32)
  /-- PWRGOOD_ASSERT (R447): PWRGOOD asserts, starting the 10 ms before reset can release. -/
  | pwrgoodAssert
  /-- PWRGOOD_DEASSERT (R449): PWRGOOD low for 100 ns resets the device and clears the THERMTRIP_N latch. -/
  | pwrgoodDeassert (lowNs : Nat)
  /-- INTERNAL_DEVICE_RESET (R450): 1 ms after its record, MG_MODE_SET RESET resets the device, keeping HBM, Archive and mailbox. -/
  | internalDeviceReset
  /-- IMAGE_AUTHENTICATED (R413): Both ROMs finish checking an image slot and firmware runs or the device holds with AUTH_FAIL. -/
  | imageAuthenticated (slot : Nat) (westOk eastOk : Bool) (sha : List Byte)
  /-- BRINGUP_COMPLETE (R414): Bring-up step 9 arms the Lookout and enters Service or Degraded. -/
  | bringupComplete
  /-- ARCHIVE_COMPLETE (R429): Firmware finishes writing the Archive and sets ARCHIVE_VALID. -/
  | archiveComplete
  /-- ARCHIVE_HOST_COPY_DONE (R432): The Archive copy to the designated host buffer completes and ARCHIVE_COPIED is set. -/
  | archiveHostCopyDone
  /-- STANDBY_ENTRY (R437): Firmware saves settings, HBM enters self-refresh and the core and PHYs are power-gated. -/
  | standbyEntry
  /-- STANDBY_WAKE (R439): A watched always-on source wakes the device through the wake sequence. -/
  | standbyWake (src : Nat)
  /-- WAKE_TIMER_EXPIRY (R439): The always-on timer MGT_WAKE.TIMER expires and raises source 1,991. -/
  | wakeTimerExpiry
  /-- MGT_WAKE_WRITE (R439): Writing 1 to MGT_WAKE.WAKE raises always-on source 1,984. -/
  | mgtWakeWrite
  /-- LOOKOUT_REPORT (R417): A block reports a fault, the Lookout logs it and applies the class reaction. -/
  | lookoutReport (d : Die) (blk unit : Nat) (cls : FaultClass) (code : Nat)
  /-- LOOKOUT_WIRE_BROKEN (R418): Equal wires of an error pair for 8 cycles start 1 µs polling and EV_LKO_WIRE. -/
  | lookoutWireBroken (d : Die) (blk : Nat) (cls : FaultClass)
  /-- LOOKOUT_POLL (R418): Every 1 µs the Lookout reads the record of a block with a broken wire. -/
  | lookoutPoll (d : Die) (p : WirePoll)
  /-- FAULT_QUIET_END (R423): A unit's quiet period ends, it is self-tested and leaves FAULT, re-enters it or is HELD_FAILED. -/
  | faultQuietEnd (d : Die) (blk unit : Nat) (pass : Bool)
  /-- HEARTBEAT_MISSED (R426): No firmware check-in for 4 ms drops HEARTBEAT and is a DEVICE-FATAL fault. -/
  | heartbeatMissed (d : Die)
  /-- THERMAL_SAMPLE (R435): A thermal sample crosses WARN, THROTTLE, CRITICAL or the trip limit. -/
  | thermalSample (d : Die) (sensor val : Nat)
  /-- VOLTAGE_SAMPLE (R435): A voltage sample leaves its ALARM or FAULT band. -/
  | voltageSample (d : Die) (mon mv : Nat) (band : MonBand)
  /-- THROTTLE_STEP (R434): Every 20 µs a die removes or restores one eighth of its issue slots. -/
  | throttleStep (d : Die)
  /-- AVS_REQUEST_CHANGE (R436): A new VDD_CORE request is published in PWR_AVS with an I3C in-band interrupt. -/
  | avsRequestChange (westMv eastMv : Nat)
  /-- I3C_REG_READ (R459): I3C REG_READ reads a register under class I3C. -/
  | i3cRegRead (addr size : Nat)
  /-- I3C_REG_WRITE (R459): I3C REG_WRITE writes a register under class I3C. -/
  | i3cRegWrite (addr size : Nat) (data : Word)
  /-- I3C_FLASH_READ (R459): I3C FLASH_READ reads up to 256 flash bytes. -/
  | i3cFlashRead (addr len : Nat)
  /-- I3C_FLASH_ERASE (R459): I3C FLASH_ERASE erases the 64 KiB sector holding ADDR. -/
  | i3cFlashErase (addr : Nat)
  /-- I3C_FLASH_PROGRAM (R459): I3C FLASH_PROGRAM programs up to 256 bytes within one page. -/
  | i3cFlashProgram (addr : Nat) (data : List Byte)
  /-- I3C_STATUS_READ (R459): An I3C private read returns STATUS and any data of the last request. -/
  | i3cStatusRead
  /-- I3C_ENTDAA (R458): ENTDAA assigns the I3C dynamic address. -/
  | i3cEntdaa (addr : Nat)
  /-- I3C_BUS_RESET (R371): An I3C bus reset or RSTDAA kills I3C as semaphore holder. -/
  | i3cBusReset (rstdaa : Bool)
  /-- JTAG_REG_ACCESS (R461): A TAP private instruction reads or writes a register under class JTAG. -/
  | jtagRegAccess (write : Bool) (addr size : Nat) (data : Word)
  /-- TAP_RESET (R371): The TAP enters Test-Logic-Reset and JTAG holders die. -/
  | tapReset
  /-- EVENT_HEAD_WRITE (R327): A write to the event head register returns event records and may arm an interrupt. -/
  | eventHeadWrite (i : Nat) (val : BitVec 32)
  /-- MGT_EVT_HEAD_WRITE (R328): A write to MGT_EVT_HEAD returns management event records and may arm an interrupt. -/
  | mgtEvtHeadWrite (d : Die) (val : BitVec 32)
  /-- MGT_EVT_ENABLE (R328): Setting MGT_EVT_CFG.EN starts the management event ring at position 0. -/
  | mgtEvtEnable (d : Die)
  /-- CAT_SPEC_FLUSH (R173): Writing CAT_SPEC_CTL.FLUSH sets every predictor entry to confidence 0. -/
  | catSpecFlush (d : Die)
  /-- ACL_REGION_WRITE (R343): A control-processor write to an ACL region updates both dies and may post EV_ACL_OVERLAP. -/
  | aclRegionWrite (n : Nat) (val : Word)
  /-- GLOBAL_IMAGE_WRITE (R467): A write to the device-global image is applied at West then East. -/
  | globalImageWrite (m : Master) (off size : Nat) (data : Word)
  /-- LOW_HALF_READ_LATCH (R273): A 4-byte read of a 64-bit register's low half latches the high half for that master. -/
  | lowHalfReadLatch (m : Master) (off : Nat)
  /-- LOW_HALF_WRITE_HOLD (R470): A 4-byte low-half write is held until the master's high-half write applies all 64 bits. -/
  | lowHalfWriteHold (m : Master) (off : Nat) (data : BitVec 32)
  /-- VIEW_SNAPSHOT_READ (R273): A read of a view register (XLT_CONN_VIEW0, BND_CTX_VIEW0, EPC_VIEW, TIM_NOW_NS) latches its companions. -/
  | viewSnapshotRead (m : Master) (off : Nat)
  /-- CRZ_Q_VIEW_READ (R258): A read of CRZ_Q_VIEW latches CRZ_Q_DELAY and clears the queue maxima. -/
  | crzQViewRead (m : Master) (d : Die)
  /-- REGISTER_WRITE (R468): A write to a register with no row of its own sets its fields by access type. -/
  | registerWrite (m : Master) (off size : Nat) (data : Word)
  /-- HOST_LINK_TRAINED (R310): A host link finishes training, releasing WAKE_HSTn_N and letting a pending Archive host copy begin. -/
  | hostLinkTrained (port link : Nat)
  /-- MSIX_ENABLE_CLEARED (R375): The host clears MSI-X Enable of a function, so a message waiting in the PBA is discarded and its source returns to PENDING. -/
  | msixEnableCleared (f : FnId)
  /-- EXTEST (R461): An EXTEST instruction on a network or host lane takes that lane's link down. -/
  | extest (lane : TapLane)deriving DecidableEq, Repr

end Sys2Proof
end

