-- ==== Sys2Proof/WellFormed.lean ====
section
/-! DEFINITION. Which operands of a command name something that the device has: dies' rings, connections, links, semaphores,
sources and the fields of packets within their widths. -/

namespace Sys2Proof

/-- Host ports 0 to 7, links 0 to 3, PF 0 and VFs 1 to 256 (R309, R314). -/
def FnId.wf (f : FnId) : Bool := decide (f.port < 8 ∧ f.link < 4 ∧ f.fn ≤ 256)

/-- A master: a function, a thread of a pair, a core, a source router (R342, R352). -/
def Master.wf : Master → Bool
  | .host f => f.wf
  | .carrel _ pair thread => decide (pair < 32 ∧ thread < 4)
  | .cp _ core => decide (core < 2)
  | .i3c => true
  | .jtag => true
  | .flume router => decide (router < 2 ^ 16)

/-- An instance number (R316). -/
def Requester.wf : Requester → Bool
  | .mgmt _ => true
  | .inst i => decide (i < 1024)

/-- A command ring (R76), the mailbox, or a Flume request's names (R251). -/
def Issuer.wf : Issuer → Bool
  | .ring _ n => decide (n < 8192)
  | .mailbox => true
  | .flume _ src reqDie reqSeq => decide (src < 2 ^ 20 ∧ reqDie < 2 ∧ reqSeq < 2 ^ 24)

/-- One of the 64 links of a die, or a bridge. -/
def Ingress.wf : Ingress → Bool
  | .link k => decide (k < 64)
  | .bridge _ => true

/-- Routing fields within their widths (R205). -/
def Pkt.wf (p : Pkt) : Bool := decide (p.dst < 2 ^ 20 ∧ p.src < 2 ^ 20 ∧ p.tc < 4)

/-- A Bindery packet of one of the 4,096 contexts. -/
def BndPkt.wf (p : BndPkt) : Bool := decide (p.src < 2 ^ 20 ∧ p.dst < 2 ^ 20 ∧ p.cctx < 4096)

def TokenUnit.wf : TokenUnit → Bool
  | .bndBurst cctx => decide (cctx < 4096)
  | .scrub => true
  | .adapt k => decide (k < 64)
  | .carrel _ => true

def QueueId.wf (q : QueueId) : Bool := decide (q.tc < 4 ∧ q.who ≤ 1024) && (if q.inj then decide (q.at_ < 4) else decide (q.at_ < 128))

def FlowId.wf (f : FlowId) : Bool := decide (f.src < 2 ^ 20 ∧ f.tc < 4 ∧ f.dstRouter < 2 ^ 20)

def TapLane.wf : TapLane → Bool
  | .network _ k => decide (k < 64)
  | .host port link => decide (port < 8 ∧ link < 4)

/-- A 64-byte unit that the die has: 24 GiB of HBM, or 168 MiB of SRAM (R7). -/
def unitThere (sram : Bool) (addr : Nat) : Bool := decide (addr < if sram then 2752512 else 402653184)

/-- A memory unit and its owning instance. -/
def MemUnit.wf (u : MemUnit) : Bool :=
  unitThere u.sram u.addr && match u.owner with
  | some i => decide (i < 1024)
  | none => true

/-- A connection number homed on the die (R110). -/
def connHere (d : Die) (c : Nat) : Bool := decide (c < 2 ^ 20 ∧ c / 2 ^ 19 = d.idx)

/-- The command names nothing that the device does not have. -/
def Instr.wf (i : Instr) : Bool :=
  match i with
  | .put iss _ chain => iss.wf && decide (chain.length ≤ 64)
  | .putInline iss _ chain => iss.wf && decide (chain.length ≤ 64)
  | .get iss _ chain => iss.wf && decide (chain.length ≤ 64)
  | .gather iss _ chain => iss.wf && decide (chain.length ≤ 64)
  | .scatter iss _ chain => iss.wf && decide (chain.length ≤ 64)
  | .zero iss _ chain => iss.wf && decide (chain.length ≤ 64)
  | .send iss _ chain => iss.wf && decide (chain.length ≤ 64)
  | .sendInline iss _ chain => iss.wf && decide (chain.length ≤ 64)
  | .recvPost iss _ chain => iss.wf && decide (chain.length ≤ 64)
  | .recvCancel iss _ chain => iss.wf && decide (chain.length ≤ 64)
  | .ctxOpen iss _ chain => iss.wf && decide (chain.length ≤ 64)
  | .ctxDrain iss _ chain => iss.wf && decide (chain.length ≤ 64)
  | .ctxClose iss _ chain => iss.wf && decide (chain.length ≤ 64)
  | .collBarrier iss _ chain => iss.wf && decide (chain.length ≤ 64)
  | .collBcast iss _ chain => iss.wf && decide (chain.length ≤ 64)
  | .collReduce iss _ chain => iss.wf && decide (chain.length ≤ 64)
  | .collAllreduce iss _ chain => iss.wf && decide (chain.length ≤ 64)
  | .collAllgather iss _ chain => iss.wf && decide (chain.length ≤ 64)
  | .nop iss _ chain => iss.wf && decide (chain.length ≤ 64)
  | .atomic iss _ chain => iss.wf && decide (chain.length ≤ 64)
  | .tallyWrite iss _ chain => iss.wf && decide (chain.length ≤ 64)
  | .tallyRead iss _ chain => iss.wf && decide (chain.length ≤ 64)
  | .ringReset iss _ chain => iss.wf && decide (chain.length ≤ 64)
  | .trigArm iss _ chain => iss.wf && decide (chain.length ≤ 64)
  | .trigDisarm iss _ chain => iss.wf && decide (chain.length ≤ 64)
  | .mgIdentitySet iss _ chain => iss.wf && decide (chain.length ≤ 64)
  | .portEnable iss _ chain => iss.wf && decide (chain.length ≤ 64)
  | .portDisable iss _ chain => iss.wf && decide (chain.length ≤ 64)
  | .portDrain iss _ chain => iss.wf && decide (chain.length ≤ 64)
  | .portRetrain iss _ chain => iss.wf && decide (chain.length ≤ 64)
  | .portRelease iss _ chain => iss.wf && decide (chain.length ≤ 64)
  | .portConfigure iss _ chain => iss.wf && decide (chain.length ≤ 64)
  | .epochWriteClear iss _ chain => iss.wf && decide (chain.length ≤ 64)
  | .epochWriteCopyActive iss _ chain => iss.wf && decide (chain.length ≤ 64)
  | .epochWritePut iss _ chain => iss.wf && decide (chain.length ≤ 64)
  | .epochWriteRemove iss _ chain => iss.wf && decide (chain.length ≤ 64)
  | .epochActivate iss _ chain => iss.wf && decide (chain.length ≤ 64)
  | .epochWithdraw iss _ chain => iss.wf && decide (chain.length ≤ 64)
  | .mgGateStage iss _ chain => iss.wf && decide (chain.length ≤ 64)
  | .gateActivate iss _ chain => iss.wf && decide (chain.length ≤ 64)
  | .gateWithdraw iss _ chain => iss.wf && decide (chain.length ≤ 64)
  | .gateClear iss _ chain => iss.wf && decide (chain.length ≤ 64)
  | .instanceCreate iss _ chain => iss.wf && decide (chain.length ≤ 64)
  | .instanceStart iss _ chain => iss.wf && decide (chain.length ≤ 64)
  | .instanceQuiesce iss _ chain => iss.wf && decide (chain.length ≤ 64)
  | .instanceResume iss _ chain => iss.wf && decide (chain.length ≤ 64)
  | .instanceResize iss _ chain => iss.wf && decide (chain.length ≤ 64)
  | .instanceRemove iss _ chain => iss.wf && decide (chain.length ≤ 64)
  | .grantConnection iss _ chain => iss.wf && decide (chain.length ≤ 64)
  | .revokeConnection iss _ chain => iss.wf && decide (chain.length ≤ 64)
  | .grantMatching iss _ chain => iss.wf && decide (chain.length ≤ 64)
  | .grantCollective iss _ chain => iss.wf && decide (chain.length ≤ 64)
  | .revokeCollective iss _ chain => iss.wf && decide (chain.length ≤ 64)
  | .grantCounter iss _ chain => iss.wf && decide (chain.length ≤ 64)
  | .revokeCounter iss _ chain => iss.wf && decide (chain.length ≤ 64)
  | .grantTally iss _ chain => iss.wf && decide (chain.length ≤ 64)
  | .revokeTally iss _ chain => iss.wf && decide (chain.length ≤ 64)
  | .grantVstation iss _ chain => iss.wf && decide (chain.length ≤ 64)
  | .revokeVstation iss _ chain => iss.wf && decide (chain.length ≤ 64)
  | .grantWindow iss _ chain => iss.wf && decide (chain.length ≤ 64)
  | .modeSetDrain iss _ chain => iss.wf && decide (chain.length ≤ 64)
  | .modeSetResume iss _ chain => iss.wf && decide (chain.length ≤ 64)
  | .modeSetStandby iss _ chain => iss.wf && decide (chain.length ≤ 64)
  | .modeSetReset iss _ chain => iss.wf && decide (chain.length ≤ 64)
  | .modeSetForensic iss _ chain => iss.wf && decide (chain.length ≤ 64)
  | .mgRegRead iss _ chain => iss.wf && decide (chain.length ≤ 64)
  | .mgRegWrite iss _ chain => iss.wf && decide (chain.length ≤ 64)
  | .cruisePushNow iss _ chain => iss.wf && decide (chain.length ≤ 64)
  | .cruiseSetPush iss _ chain => iss.wf && decide (chain.length ≤ 64)
  | .cruiseSetReceive iss _ chain => iss.wf && decide (chain.length ≤ 64)
  | .mgShelfCollect iss _ chain => iss.wf && decide (chain.length ≤ 64)
  | .mgFaultRelease iss _ chain => iss.wf && decide (chain.length ≤ 64)
  | .mgSemBankReset iss _ chain => iss.wf && decide (chain.length ≤ 64)
  | .timeCtlSet iss _ chain => iss.wf && decide (chain.length ≤ 64)
  | .timeCtlStep iss _ chain => iss.wf && decide (chain.length ≤ 64)
  | .timeCtlReselect iss _ chain => iss.wf && decide (chain.length ≤ 64)
  | .archiveDesignate iss _ chain => iss.wf && decide (chain.length ≤ 64)
  | .archiveClear iss _ chain => iss.wf && decide (chain.length ≤ 64)
  | .archiveCopy iss _ chain => iss.wf && decide (chain.length ≤ 64)
  | .ringConfigureCmd iss _ chain => iss.wf && decide (chain.length ≤ 64)
  | .ringConfigureCq iss _ chain => iss.wf && decide (chain.length ≤ 64)
  | .ringPause iss _ chain => iss.wf && decide (chain.length ≤ 64)
  | .ringResume iss _ chain => iss.wf && decide (chain.length ≤ 64)
  | .ringCtlReset iss _ chain => iss.wf && decide (chain.length ≤ 64)
  | .ringReleaseCmd iss _ chain => iss.wf && decide (chain.length ≤ 64)
  | .ringReleaseCq iss _ chain => iss.wf && decide (chain.length ≤ 64)
  | .doorbell who idx => who.wf && decide (idx < 8192)
  | .ringEntryFetch _ n _ => decide (n < 8192)
  | .ringConsumeRetry _ n _ => decide (n < 8192)
  | .ringResetDone _ n => decide (n < 8192)
  | .ringResetSlotTimeout _ n => decide (n < 8192)
  | .shadowTimer _ n => decide (n < 8192)
  | .commandDispatch _ => true
  | .ringAgeExpiry _ n => decide (n < 8192)
  | .cqHeadWrite who idx _ => who.wf && decide (idx < 8192)
  | .extBlockFetch _ _ => true
  | .trigSlotTimeout _ => true
  | .connCacheWaitTimeout _ => true
  | .opsSlotWaitTimeout _ => true
  | .maxOpsWaitTimeout _ => true
  | .ctxOpenWaitTimeout _ => true
  | .recvPostWaitTimeout _ => true
  | .strideBoundary _ => true
  | .longCommandResume _ => true
  | .dataPacketArrive _ p _ => p.wf
  | .ackTimer d c => connHere d c
  | .ackReceive _ p => p.wf
  | .flushTimer d c => connHere d c
  | .flushComplete d c _ => connHere d c
  | .rtoExpiry d c => connHere d c
  | .getResponseArrive _ p => p.wf
  | .pacedSend d c => connHere d c
  | .connectReceive _ p => p.wf
  | .connectResend d c => connHere d c
  | .teardownReceive _ p => p.wf
  | .connDrainDone d c => connHere d c
  | .progressTimeout d c => connHere d c
  | .rnrResend d c => connHere d c
  | .rnrLimitExpiry d c => connHere d c
  | .pullRequest _ p _ => p.wf
  | .finishPacket _ p => p.wf
  | .ctxDrainDone _ => true
  | .bndContribution _ p => p.wf
  | .bndResult _ p => p.wf
  | .bndAck _ p => p.wf
  | .bndResend _ cctx _ _ => decide (cctx < 4096)
  | .bndRelayPacket _ p => p.wf
  | .bndAbortReceive _ p => p.wf
  | .bndBackupTimeout _ cctx => decide (cctx < 4096)
  | .tokenRequest _ u => u.wf
  | .tokenGrant _ => true
  | .tokenRelease _ u => u.wf
  | .packetRouteSource _ p => p.wf
  | .packetForward _ from_ p => from_.wf && p.wf
  | .boomArrival _ p => p.wf
  | .boomHoldTimeout _ src tc => decide (src < 2 ^ 20) && decide (tc < 4)
  | .boomEntryIdle _ src tc => decide (src < 2 ^ 20) && decide (tc < 4)
  | .boomNoticeReceive _ p => p.wf
  | .cooldownExpiry _ f => f.wf
  | .flowStateRetire _ f => f.wf
  | .egressServe _ eg => decide (eg < 128)
  | .injectionServe _ port => decide (port < 4)
  | .agePromotion _ q => q.wf
  | .semBoostApply _ n => decide (n < 256)
  | .gateEntryBoundary _ port => decide (port < 128)
  | .gateActivation _ port => decide (port < 128)
  | .flumeRequest _ from_ p => from_.wf && p.wf
  | .flumePartialDiscard _ src reqDie reqSeq => decide (src < 2 ^ 20) && decide (reqDie < 2) && decide (reqSeq < 2 ^ 24)
  | .flumeResend _ => true
  | .flumeAnswerTimeout _ => true
  | .flumeAnswer _ p => p.wf
  | .flumeRelay _ from_ p => from_.wf && p.wf
  | .flumeEventReceive _ p => p.wf
  | .cruiseSample _ => true
  | .summarySend _ => true
  | .summaryReceive _ from_ _ => from_.wf
  | .summaryForward _ => true
  | .summaryStale _ r => decide (r < 64)
  | .mapPush _ => true
  | .mapPartReceive _ p => p.wf
  | .mapCloseTimeout _ slot => decide (slot < 65536)
  | .counterWrapSample _ i part _ => decide (i < 768) && decide (part < 4)
  | .pmcSnap _ => true
  | .frameReceive _ k _ => decide (k < 64)
  | .linkRetxTimeout _ k => decide (k < 64)
  | .identReceive _ k _ => decide (k < 64)
  | .identSend _ k => decide (k < 64)
  | .shelfSend _ k => decide (k ≤ 64)
  | .shelfReceive _ k _ => decide (k ≤ 64)
  | .timeSend _ k => decide (k < 64)
  | .timeReceive _ k _ => decide (k < 64)
  | .onoffReceive _ k mask => decide (k < 64) && decide (mask < 2 ^ 17)
  | .onoffSend _ k waits => decide (k < 64) && decide (waits.length ≤ 17)
  | .laneSignalLoss _ k lane _ => decide (k < 64) && decide (lane < 8)
  | .laneSignalDetect _ k => decide (k < 64)
  | .linkRxReady _ k r => decide (k < 64) && decide (r.lanes.length ≤ 8)
  | .linkAlignDone _ k starts => decide (k < 64) && decide (starts.length ≤ 8)
  | .trainTimeout _ k => decide (k < 64)
  | .noSignalTimeout _ k => decide (k < 64)
  | .noSignalRetry _ k => decide (k < 64)
  | .linkQuietEnd _ k => decide (k < 64)
  | .linkDrainEnd _ k => decide (k < 64)
  | .bridgeParityError _ _ _ _ => true
  | .bridgeClockLoss _ _ => true
  | .bridgeTrainDone _ _ _ => true
  | .bridgeQuietEnd _ => true
  | .flr f => f.wf
  | .hostLinkReset port link => decide (port < 8) && decide (link < 4)
  | .perstNAssert port => decide (port < 8)
  | .perstNDeassert port => decide (port < 8)
  | .d3hotEntry f => f.wf
  | .instanceResetDone i => decide (i < 1024)
  | .instanceQuiesceDone i => decide (i < 1024)
  | .hostReadComplete _ _ => true
  | .tableWalkComplete _ _ _ => true
  | .atsTranslationComplete _ _ _ => true
  | .atsInvalidation f _ _ => f.wf
  | .hostConfigRequest port r => decide (port < 8) && decide (r.link < 4) && (match r.what with
    | .atsEnable f _ => decide (f < 512)
    | .msixEnable f _ => decide (f < 512)
    | _ => true)
  | .mbxGo _ => true
  | .mbxCommandDone => true
  | .lockstepMismatch _ pair => decide (pair < 32)
  | .pairReexecute _ pair => decide (pair < 32)
  | .pairRetest _ pair _ => decide (pair < 32)
  | .cacheRead _ pair _ line => decide (pair < 32) && unitThere (line % 2 == 1) (line / 2)
  | .cacheWrite _ pair _ line => decide (pair < 32) && unitThere (line % 2 == 1) (line / 2)
  | .cacheEvict _ pair _ line => decide (pair < 32) && unitThere (line % 2 == 1) (line / 2)
  | .directoryEvict _ line => unitThere (line % 2 == 1) (line / 2)
  | .scrubUnit _ u _ => u.wf
  | .scrubFull _ => true
  | .semAcquire m _ n => m.wf && decide (n < 256)
  | .semRelease m _ n => m.wf && decide (n < 256)
  | .semArm m _ n level source => m.wf && decide (n < 256) && decide (level < 4) && decide (source < 4096)
  | .semDisarm m _ n => m.wf && decide (n < 256)
  | .intSourceRaise _ s => decide (s < 2048)
  | .intRaiseWrite _ s => decide (s < 2048)
  | .intDelivery _ s => decide (s < 2048)
  | .msixMessageWritten _ s => decide (s < 2048)
  | .intClaim _ c => decide (c < 2)
  | .intComplete _ c _ => decide (c < 2)
  | .holdoffExpiry _ g => decide (g < 128)
  | .epochActivation _ dom => decide (dom < 8)
  | .timeSourceTimeout => true
  | .ppsInEdge => true
  | .holdoverExpiry => true
  | .timeStepApply => true
  | .sysResetAssert _ => true
  | .resetRelease _ => true
  | .pwrgoodAssert => true
  | .pwrgoodDeassert _ => true
  | .internalDeviceReset => true
  | .imageAuthenticated slot _ _ _ => decide (slot < 2)
  | .bringupComplete => true
  | .archiveComplete => true
  | .archiveHostCopyDone => true
  | .standbyEntry => true
  | .standbyWake src => decide (1984 ≤ src ∧ src < 2047)
  | .wakeTimerExpiry => true
  | .mgtWakeWrite => true
  | .lookoutReport _ blk _ _ code => decide (blk ≤ 0x18) && decide (code < 256)
  | .lookoutWireBroken _ blk _ => decide (blk ≤ 0x18)
  | .lookoutPoll _ p => decide (p.blk ≤ 0x18)
  | .faultQuietEnd _ blk _ _ => decide (blk ≤ 0x18)
  | .heartbeatMissed _ => true
  | .thermalSample _ sensor _ => decide (sensor < 32)
  | .voltageSample _ mon _ _ => decide (mon < 48)
  | .throttleStep _ => true
  | .avsRequestChange _ _ => true
  | .i3cRegRead addr _ => decide (addr < 2 ^ 32)
  | .i3cRegWrite addr _ _ => decide (addr < 2 ^ 32)
  | .i3cFlashRead addr _ => decide (addr < 2 ^ 32)
  | .i3cFlashErase addr => decide (addr < 2 ^ 32)
  | .i3cFlashProgram addr data => decide (addr < 2 ^ 32) && decide (data.length ≤ 256)
  | .i3cStatusRead => true
  | .i3cEntdaa addr => decide (addr < 128)
  | .i3cBusReset _ => true
  | .jtagRegAccess _ _ _ _ => true
  | .tapReset => true
  | .eventHeadWrite i _ => decide (i < 1024)
  | .mgtEvtHeadWrite _ _ => true
  | .mgtEvtEnable _ => true
  | .catSpecFlush _ => true
  | .aclRegionWrite n _ => decide (n < 64)
  | .globalImageWrite m _ _ _ => m.wf
  | .lowHalfReadLatch m _ => m.wf
  | .lowHalfWriteHold m _ _ => m.wf
  | .viewSnapshotRead m _ => m.wf
  | .crzQViewRead m _ => m.wf
  | .registerWrite m _ _ _ => m.wf
  | .hostLinkTrained port link => decide (port < 8) && decide (link < 4)
  | .msixEnableCleared f => f.wf
  | .extest lane => lane.wf

end Sys2Proof
end

