-- ==== Sys2Proof/Decode.lean ====
section
/-! DEFINITION. Commands spelled by words. The rows of spec/opcode_table.json give their commands no bits: a word spells none.
The 64-byte blocks that the Taxia rows carry are read in Machine/Operands.lean. -/

namespace Sys2Proof

/-- The command that a word of `nbits` bits spells: none. [log DESIGN CHOICE 3] -/
def decodeTableWord (_nbits _w : Nat) : Option Instr := none

end Sys2Proof
end

