-- ==== Sys2Proof/Config.lean ====
section
/-! DEFINITION. What the spec leaves open: constants without a body, so that no proof can use a value of one
(notes/assumptions). Each is applied to plain data. -/

namespace Sys2Proof

/-- Fresh values from the die's random source: initial PSNs (R128), spray generators, window nonces at first use.
Applied to `State.freeCtr`. [log DESIGN CHOICE 7] -/
opaque Config.freeValue : Nat → BitVec 64

/-- Bytes the spec leaves undefined, by `State.freeCtr` at the time and the place of the byte. [log DESIGN CHOICE 191] -/
opaque Config.openByte : Nat → Nat → Byte

/-- The predictor's index hash of (instance, CTX, local connection, TAG) (R171): the spec gives no hash. [log DESIGN CHOICE 73] -/
opaque Config.predictorIndex : Nat → Nat → Nat → Nat → Nat

/-- The 16-bit partial key of a predictor entry (R171), of the same four values. -/
opaque Config.predictorKey : Nat → Nat → Nat → Nat → Nat

/-- The next state of the source router's weighted-choice generator (R220): the spec gives its period and width, not
its polynomial. [log DESIGN CHOICE 88] -/
opaque Config.sprayNext : Nat → Nat

/-- Bytes 16 to 31 of a header flit, the transport header, whose layout the spec does not give, from the packet's fields. [log DESIGN CHOICE 104] -/
opaque Config.transportBytes : List Nat → BitVec 128

/-- What the flits of a data packet carry beyond the routing fields: the inverse of the same open layout. -/
opaque Config.bodyOf : List Block → Body

/-- Flits of credit beyond one packet of 65 that a bridge channel exchanges at training, by channel (R305): the spec gives no
amount for the data channels. [log DESIGN CHOICE 192] -/
opaque Config.bridgeRoom : Nat → Nat

/-- Flits of buffer that a forerunner receiver reserves for each channel beyond H + 65 (R302). [log DESIGN CHOICE 193] -/
opaque Config.foreRoom : Nat

/-- The parity symbol of a codeword, by place from 0 to 29, of its 514 data symbols: the spec names RS(544,514) over
GF(2^10) (R283) and gives neither field polynomial nor generator. [log DESIGN CHOICE 182] -/
opaque Config.fecParity : List Nat → Nat → Nat

/-- The Archive after its header: the directory and the sections (R430), which firmware writes from what the registers and
memories of the dies hold, in a form that the spec gives to the directory only. [log DESIGN CHOICE 162] -/
opaque Config.archiveBody : Nat → List Byte

/-- The Provisioned ID of the I3C target, fused and different for every device (R458). [log DESIGN CHOICE 176] -/
opaque Config.i3cPid : BitVec 48

end Sys2Proof
end

