-- ==== Sys2Proof/Machine/State.lean ====
section
/-! DEFINITION. Everything the spec gives the device, as plain data: per die, per device, and the model's own queue of
waiting commands, clock, free-value counter and record of what the device emitted.
Times are in nanoseconds of `State.now` unless a field says device time. -/

namespace Sys2Proof.Machine

/-! ## Rings (03_rings_and_doorbells) -/

/-- The states of a command ring (R85, R100). -/
inductive RingSt where
  | reset | idle | active | paused | halted
deriving DecidableEq, Repr, Inhabited

/-- A consumed, undispatched command of a ring (R84): its block and the number of its reserved completion slot (R92). -/
structure QEntry where
  blk : Block
  slot : Nat
deriving DecidableEq, Repr

/-- A command ring: its configuration (RNG_CMD_BASE, RNG_CMD_CFG, RNG_CMD_SHADOW), its status (R85), the commands it
has consumed, its fence memory (R58) and its place in arbitration (R107, R108). -/
structure CmdRing where
  configured : Bool := false
  base : Nat := 0
  log2 : Nat := 0
  instRing : Nat := 0
  inst : Nat := 0
  cq : Nat := 0
  burst : Nat := 0
  weight : Nat := 0
  prio : Nat := 0
  shadowAddr : Nat := 0
  shadowEn : Bool := false
  st : RingSt := .reset
  consIdx : Nat := 0
  consPhase : Bool := true
  consSeq : Nat := 0
  haltCause : Nat := 0
  /-- In PAUSED: a latched doorbell; in ACTIVE: the rescan flag (R85). -/
  dbLatched : Bool := false
  haltSlot : Bool := false
  /-- A read of the entry at the fetch point has been issued. -/
  reading : Bool := false
  /-- An owned entry waits for a slot or for undispatched room (R84, R92); it is read again then. -/
  waiting : Bool := false
  queue : List QEntry := []
  /-- Dispatched commands that count as not complete for a fence (R58, R59). -/
  outstanding : List Nat := []
  /-- Some command since the previous fence or reset ended with a code other than CC_OK or CC_TALLY_SAT (R58). -/
  bad : Bool := false
  credits : Nat := 0
  inRound : Bool := false
  served : Nat := 0
  readyAt : Option Nat := none
  advSince : Nat := 0
  shadowDue : Option Nat := none
  /-- RING_RESET commands (by operation number) waiting for the ring to reach IDLE, and since when (R102). -/
  resetOps : List Nat := []
  resetAt : Nat := 0
  /-- A RING_RESET has timed out for want of a halt slot: EV_RING_READY is due on IDLE (R102). -/
  resetLate : Bool := false
  releasing : Bool := false
  drainPaused : Bool := false
  /-- No shadow word is written until the first doorbell after a function reset (R323). -/
  silent : Bool := false
deriving DecidableEq, Repr

/-- A completion ring (R88 to R94): configuration, TAIL, HEAD, and the counts R, B and W of R90. -/
structure CqRing where
  configured : Bool := false
  base : Nat := 0
  log2 : Nat := 0
  instRing : Nat := 0
  inst : Nat := 0
  intEn : Bool := false
  intSource : Nat := 0
  tail : Nat := 0
  tailPhase : Bool := true
  head : Nat := 0
  lap : Bool := true
  arm : Bool := false
  reserved : Nat := 0
  haltHeld : Nat := 0
  written : Nat := 0
  bound : Nat := 0
  resvSeq : Nat := 0
deriving DecidableEq, Repr

/-- The rings of one die and the arbitration between them (R106 to R108). -/
structure Rings where
  cmd : Tab CmdRing := []
  cq : Tab CqRing := []
  /-- Last ring served, by 4 × port + level. -/
  lastRing : Tab Nat := []
  /-- Last host port served, by level. -/
  lastPort : Tab Nat := []
  /-- Aged rings in the order in which they aged (R108). -/
  aged : List Nat := []
deriving DecidableEq, Repr

/-- A translation window (R329). -/
structure Win where
  valid : Bool := false
  lr : Bool := false
  lw : Bool := false
  rr : Bool := false
  rw : Bool := false
  sideEffect : Bool := false
  tabled : Bool := false
  page2m : Bool := false
  ats : Bool := false
  base : Nat := 0
  size : Nat := 0
  target : Nat := 0
  nonce : Nat := 0
deriving DecidableEq, Repr

/-- A TLB entry (R338). -/
structure TlbEnt where
  inst : Nat
  win : Nat
  page : Nat
  bus : Nat
  noWrite : Bool
  /-- An ATS answer (R337): the translated address of that untranslated page, with its permissions. -/
  ats : Option (Bool × Bool)
  /-- The code of a walk that failed, kept for the access that started it alone; 0: a translation. -/
  fault : Nat := 0
  /-- The window as it was when a walk began that outlived its programming: the access goes on under it (R333). -/
  snap : Option Win := none
deriving DecidableEq, Repr

/-! ## Operations (02_taxia_command_set) -/

/-- Resume record state (R69). -/
inductive LongSt where
  | running | suspended | draining
deriving DecidableEq, Repr, Inhabited

/-- What an operation waits for, or does. -/
inductive Phase where
  /-- Chain fetch under way (R46 to R49): next block's address, blocks fetched are in `chain`. -/
  | fetching (addr hops : Nat)
  | waitTrig        -- R66
  | waitCache       -- R114, SUBCAUSE 0x07
  | waitSlots       -- R114, SUBCAUSE 0x08
  | waitMaxOps      -- R318
  | waitCtx         -- R146
  | waitPosted      -- R165
  | waitFlume       -- more than 64 VIA_FLUME commands (R252)
  | waitColl        -- a fifth collective of one context (R184)
  | waitAtomics     -- more than 256 atomics (R125)
  | waitRdv         -- more than 1,024 rendezvous SENDs (R159)
  | waitConn        -- behind a long command of its own connection (R115)
  | fence           -- held by its FENCE (R58)
  | long (st : LongSt)
  | reading         -- a host read of its source is outstanding (R157, R186)
  | sent            -- packets sent, delivery awaited (R131)
  | armed           -- TRIG_ARM armed (R62)
  | ready           -- a fired trigger's deferred command, waiting to be dispatched (R62)
  | translating     -- a table walk or ATS request of its own is in flight (R335)
  | posted          -- RECV_POST in the posting order (R151)
  | receiving       -- a matched receive being filled (R162)
  | rendezvous      -- SEND waiting for its finish packet (R159)
  | collective      -- COLL waiting for its result (R197)
  | flume           -- VIA_FLUME awaiting its answer (R45)
  | ctxDrain        -- CTX_DRAIN or CTX_CLOSE awaiting records (R146)
  | ringReset       -- RING_RESET awaiting IDLE (R102)
  | quiesce         -- QUIESCE awaiting records (R319)
  | winGrant        -- MG_GRANT of a window awaiting host accesses (R333)
  | mapPush         -- PUSH_NOW
  | archive         -- ARCHIVE_COPY
  | done
deriving DecidableEq, Repr, Inhabited

/-- The outcome of a finished host read held for the operation (R477). -/
structure ReadDone where
  bytes : List Byte
  fail : Option ReadFail
deriving DecidableEq, Repr

/-- A packet staged for an operation and not yet shown visible: its PSN, the byte offset of its first byte in the command, and
its element. -/
structure Staged where
  psn : BitVec 32
  off : Nat
  elem : Nat
deriving DecidableEq, Repr

/-- A consumed and dispatched command: its identity (R53), its device copy of block and chain, its resume or dispatch
record (R69, R353) and what it has done so far. -/
structure Op where
  iss : Issuer := .mailbox
  die : Die := .west
  inst : Option Nat := none
  /-- Die-local bound completion ring; the command ring is in `iss`. -/
  cq : Nat := 0
  slot : Nat := 0
  level : Nat := 0
  cookie : Nat := 0
  seq : Nat := 0
  blk : Block := 0
  chain : List Block := []
  phase : Phase := .done
  since : Nat := 0
  /-- Engine thread: pair and thread. -/
  thread : Option (Nat × Nat) := none
  dispatchedAt : Nat := 0
  cancel : Bool := false
  /-- The TRIG_ARM of which this is the deferred command (R62): it holds its arm's COOKIE and SEQ. -/
  deferred : Bool := false
  conn : Option Nat := none
  nextStride : Nat := 0
  strides : Nat := 0
  bytesStaged : Nat := 0
  bytesAcked : Nat := 0
  firstPsn : BitVec 32 := 0
  /-- One past the last PSN assigned; after a refusal, the refused PSN. Delivered when VIS_PSN reaches it. -/
  lastPsn : BitVec 32 := 0
  psnPerStride : Nat := 0
  /-- Its packets that VIS_PSN has not passed, in PSN order (R127, R141). -/
  tx : List Staged := []
  started : Bool := false
  read : Option ReadDone := none
  /-- A failure found locally, delivered when the elements or strides before it are (R127, R141): code, SUBCAUSE, FAIL_INDEX, BYTES. -/
  pendFail : Option (Nat × Nat × Nat × Nat) := none
  result : Nat := 0
  handle : Nat := 0
  srcStation : Nat := 0
  /-- GET responses placed: bytes placed so far, as (offset, length). -/
  placed : List (Nat × Nat) := []
  remoteSat : Bool := false
  collSeq : Nat := 0
  firstSend : Nat := 0
  lastSend : Nat := 0
  tokens : Nat := 0
  /-- Its place in the order of passing check 4 (R151); 0: it has not passed. -/
  order : Nat := 0
  preempt : Bool := false
  /-- The present stride has begun: its source is being read (R68). -/
  begun : Bool := false
  /-- Translations made for it: they stand when its window changes (R333). -/
  xl : List TlbEnt := []
  /-- Payload taken for it and not yet written to its buffer. -/
  stash : List Byte := []
deriving DecidableEq, Repr

/-- An armed trigger (R61, R62), in arming order in its die's list. -/
structure Trig where
  op : Nat
  inst : Option Nat
  ring : Nat
  tally : Nat
  threshold : Nat
  tag : Nat
deriving DecidableEq, Repr

/-- A Tally (R137). -/
structure Tally where
  val : Nat := 0
  sat : Bool := false
deriving DecidableEq, Repr

/-! ## Connections (04_remote_memory_access) -/

/-- States of a connection end (R112). -/
inductive ConnSt where
  | absent | pending | established | draining | failed
deriving DecidableEq, Repr, Inhabited

/-- A packet sent and not yet acknowledged (R132). -/
structure TxPkt where
  psn : BitVec 32
  req : ReqPkt
  flits : Nat
  bytes : Nat
  op : Nat
  /-- Byte offset within its command, element index, and whether it ends a stride. -/
  off : Nat
  elem : Nat
  strideEnd : Bool
  sentAt : Nat
  resentAt : Option Nat
  timeouts : Nat
  /-- An acknowledgement has shown it held at the receiver (SACK). -/
  sacked : Bool := false
deriving DecidableEq, Repr

/-- What became of the speculation on a held header (R172, R175): none, made, or abandoned because a write of it failed. -/
inductive SpecSt where
  | none | made | abandoned
deriving DecidableEq, Repr, Inhabited

/-- A packet held ahead of EXPECTED (R129). -/
structure HeldPkt where
  psn : BitVec 32
  pkt : Pkt
  poison : Bool
  /-- The receive a held eager header is proposed to (R172), and its speculation. -/
  proposal : Option Nat
  spec : SpecSt
  hr : TargetRead
  /-- KiB of Landing that its message holds (R174). -/
  landed : Nat := 0
  /-- Its place in the order of arrival (R130, ECHO_TS). -/
  arr : Nat := 0
  /-- The owner of its packet-buffer cells (R348), and the key that seals what is spilled to HBM (R346). -/
  owner : Option Nat := none
  sealedBy : Nat := 0
  /-- The packet buffer had no room: it stands in HBM (R129). -/
  spilled : Bool := false
deriving DecidableEq, Repr

/-- An eager message being received on a connection: where it goes. -/
inductive MsgDest where
  | none
  | recv (op : Nat) (off : Nat)
  | store (inst ctx id : Nat)
  | discard
deriving DecidableEq, Repr

/-- A packet to stage: its operation, length in flits, window bytes, place in its command. -/
structure Piece where
  op : ReqOp
  flits : Nat
  bytes : Nat
  off : Nat := 0
  elem : Nat := 0
  first : Bool := false
  last : Bool := false
  strideEnd : Bool := false
deriving DecidableEq, Repr

/-- Packets of a pull, a finish packet or requests made again, that wait their turn in issue order (R115, R160): the operation
they belong to (0: none), the packets, and the commands dispatched before them that have packets to stage. -/
structure SideJob where
  op : Nat
  pieces : List Piece
  behind : List Nat
deriving DecidableEq, Repr

/-- A connection end (R110, R112): the descriptor, the initiating side and the receiving side. -/
structure Conn where
  st : ConnSt := .absent
  fromDraining : Bool := false
  peerConn : Nat := 0
  localStation : Nat := 0
  inst : Nat := 0
  remoteInst : Nat := 0
  remoteStation : Nat := 0
  tc : Nat := 0
  mtu : Nat := 0
  cached : Bool := false
  /-- The key that seals its context in HBM (R346). -/
  sealedBy : Nat := 0
  connectAt : Nat := 0
  -- initiating side
  nextPsn : BitVec 32 := 0
  unacked : List TxPkt := []
  waitTx : List TxPkt := []       -- PSN assigned, not yet sent for want of window
  cumAcked : BitVec 32 := 0
  visAcked : BitVec 32 := 0
  cwnd : Nat := 0
  srtt : Nat := 0
  rttvar : Nat := 0
  lastCut : Nat := 0
  lastSent : Nat := 0
  progressAt : Option Nat := none
  nak4At : Option Nat := none
  longOp : Option Nat := none
  ops : List Nat := []            -- commands dispatched and not completed
  sides : List SideJob := []
  rdv : List Nat := []            -- rendezvous SENDs (operation numbers)
  nextHandle : Nat := 0
  rnrPsn : Option (BitVec 32) := none
  rnrResendAt : Nat := 0
  -- receiving side
  expected : BitVec 32 := 0
  expKnown : Bool := false
  held : List HeldPkt := []
  vis : BitVec 32 := 0
  sinceAck : Nat := 0
  ackAt : Option Nat := none
  unflushed : Bool := false
  flushDueAt : Option Nat := none
  flushCover : Option (BitVec 32) := none
  /-- Commands applied whose visibility is awaited: last PSN, Tally to increment, receive to complete. -/
  awaitVis : List (BitVec 32 × Option Nat × Option Nat) := []
  kept : List (BitVec 32 × Nat × Nat) := []     -- kept atomic results: PSN, value, scope
  skip : List (BitVec 32) := []                 -- initiator: PSNs refused as unbound (R143 sub-cause 0x06)
  /-- A command is being refused: its later packets, of this kind, are discarded up to the next command's first (R126). -/
  refusing : Option Nat := none
  refusals : List (BitVec 32 × NakKind) := []
  msg : MsgDest := .none
  /-- First PSN of the message being received: VIS_PSN does not pass it before the message is accepted (R158). -/
  msgPsn : BitVec 32 := 0
  /-- Last PSNs of commands whose remote Tally increment saturated (R139). -/
  sats : List (BitVec 32) := []
  rnrSince : Option Nat := none
  /-- The header answered receiver-not-ready (R166). -/
  rnrHead : Option ReqPkt := none
  lastEcho : Nat := 0
  lastEchoRetx : Bool := false
  /-- Packets accepted so far, and the number of the one that ECHO_TS echoes. -/
  arrCtr : Nat := 0
  echoArr : Nat := 0
  /-- Responses of reads of side-effect windows, held (R121). -/
  keptResp : List RespPkt := []
  respWait : List RespPkt := []
  /-- Translations made for the packet at EXPECTED (R333). -/
  xl : List TlbEnt := []
deriving DecidableEq, Repr

/-! ## Catalog (05_catalog_matching) -/

/-- Context states (R146). -/
inductive CtxSt where
  | closed | opened | draining
deriving DecidableEq, Repr, Inhabited

/-- A posted receive (R151, R176). -/
structure Recv where
  op : Nat
  cookie : Nat
  bufAddr : Nat
  bufLen : Nat
  srcConn : Nat
  tag : BitVec 64
  ignore : BitVec 64
deriving DecidableEq, Repr

/-- An unexpected message (R152, R164): an eager payload or a request-to-send with its handle. -/
structure Unexp where
  id : Nat
  conn : Nat
  tag : BitVec 64
  len : Nat
  eager : Bool
  handle : Nat
  data : List Byte
  complete : Bool
  poison : Bool
  /-- PSN of a request-to-send, named when it is refused later (R164). -/
  psn : BitVec 32
  /-- Its header was found uncorrectable (R177). -/
  headerBad : Bool
  /-- The Station Address of its sender, for the record (R162). -/
  station : Nat := 0
  /-- The key that seals its header and payload in HBM (R346). -/
  sealedBy : Nat := 0
deriving DecidableEq, Repr

/-- A matched receive being filled, in match order (R163): its operation, the connection it was matched from, the code
it ends with once its bytes are visible. -/
structure Matched where
  op : Nat
  conn : Nat
  len : Nat
  bufLen : Nat
  tag : Nat
  /-- Rendezvous: the peer's pull handle. -/
  handle : Option Nat
  placed : Nat
  ready : Option (Nat × Nat × Nat)    -- code, SUBCAUSE, BYTES
  station : Nat := 0
deriving DecidableEq, Repr

/-- A communicator context of one instance (R146). -/
structure Ctx where
  st : CtxSt := .closed
  posted : List Recv := []
  unexp : List Unexp := []
  matched : List Matched := []
deriving DecidableEq, Repr

/-- A predictor entry (R171). -/
structure Pred where
  conf : Nat := 0
  key : Nat := 0
deriving DecidableEq, Repr

/-- Catalog of one die. -/
structure Cat where
  ctxs : Tab Ctx := []           -- by 65,536 × instance + CTX
  pred : Tab Pred := []
  nextId : Nat := 0
deriving DecidableEq, Repr

/-! ## Bindery (06_bindery_collectives) -/

/-- Context states on a die (R182). -/
inductive BndSt where
  | uninstalled | ready | aborted
deriving DecidableEq, Repr, Inhabited

/-- A member's collective in flight at its die (R183, R184). -/
structure Coll where
  op : Nat
  seq : Nat
  memberIdx : Nat
  child : Nat
  head : BndHead
  /-- Source elements read, by their bits. -/
  src : List Nat
  srcRead : Bool
  segsDone : Nat
  /-- DST ranges written, as (offset, bytes). -/
  placed : List (Nat × Nat)
  nan : Bool
  spill : Bool
deriving DecidableEq, Repr

/-- One child's contribution held at a node for one segment. -/
structure Contrib where
  child : Nat
  es : List BndElem
  members : List (Nat × List Nat)
deriving DecidableEq, Repr

/-- One segment at a node (R196, R197). -/
structure Seg where
  seq : Nat
  seg : Nat
  head : BndHead
  held : List Contrib
  /-- Every child's contribution has been folded. -/
  formed : Bool
  /-- Own partial sent and unacknowledged, with the time of its latest sending. -/
  partialBody : Option BndBody
  sentAt : Nat
  /-- Result held, with the time of its latest sending and the children that have acknowledged it. -/
  result : Option BndBody
  resultAt : Nat
  acked : List Nat
deriving DecidableEq, Repr

/-- A child node that sends through its backup parent `via`, for its sequences below `below` (R198, R199). -/
structure RelayChild where
  child : Nat
  via : Nat
  below : Nat
deriving DecidableEq, Repr

/-- A collective context on a die (R182, BND_CTX_VIEW0). -/
structure BndCtx where
  st : BndSt := .uninstalled
  gen : Nat := 0
  abortCause : Nat := 0
  relaying : Bool := false
  /-- Sequences below it go through the backup although the edge to the parent is UP again (R199). -/
  relaySeq : Nat := 0
  /-- Since when the backup has not answered. -/
  backupDownAt : Option Nat := none
  /-- Child nodes whose edge is lost and that no relay has replaced: child index and since when. -/
  childDown : List (Nat × Nat) := []
  /-- Exact-mode segments that the present token grant still covers (R204). -/
  burst : Nat := 0
  nextSeq : Nat := 0
  /-- Next sequence of each member, by member index. -/
  memberSeq : Tab Nat := []
  colls : List Coll := []
  segs : List Seg := []
  /-- Children reached through a backup parent (R198, R199). -/
  relayChild : List RelayChild := []
deriving DecidableEq, Repr

/-! ## Routing and the Boom (07_routing_spray_boom) -/

/-- Source flow state (R227). -/
structure Flow where
  nextFseq : Nat := 0
  live : Bool := false
  cooldownTill : Option Nat := none
  lastInject : Nat := 0
deriving DecidableEq, Repr

/-- Flow-entry states (R231). -/
inductive BoomSt where
  | absent | unsynced | synced
deriving DecidableEq, Repr, Inhabited

/-- A flow entry of the Boom (R226, R231): held packets by FSEQ with the time each was held. -/
structure BoomFlow where
  st : BoomSt := .absent
  next : Nat := 0
  held : List (Nat × Nat × Pkt) := []     -- FSEQ, time held, packet
  lastUse : Nat := 0
deriving DecidableEq, Repr

/-- Router and Boom of one die. -/
structure Router where
  flows : Tab Flow := []                  -- by SRC + 2^20 × TC + 2^22 × destination router
  lfsr : Nat := 0
  boom : Tab BoomFlow := []               -- by SRC + 2^20 × TC
  /-- When the last notice of a flow was sent, of the last 100 µs (R232); by SRC + 2^20 × TC. -/
  notices : Tab (Option Nat) := []
  nopathAt : Option Nat := none
deriving DecidableEq, Repr

/-! ## Scheduling, gates and the Flume (08_scheduling_flume) -/

/-- A queued packet and the time it was queued. -/
structure QPkt where
  pkt : Pkt
  chan : Nat            -- data channel 4 × TC + LEVEL, or 16; bridges: stage in `stage`
  stage : Nat
  at_ : Nat
  inst : Option Nat
  /-- The instance that owns its packet-buffer cells; none: the device (R348). -/
  owner : Option Nat := none
deriving DecidableEq, Repr

/-- A leaf or injection queue (R235, R240) with its finish tag, age and sampled maxima (R237, R239, R258). -/
structure Queue where
  pkts : List QPkt := []
  finish : Nat := 0
  /-- For how long its head has been eligible without being served, in ns (R239). -/
  age : Nat := 0
  promoted : Bool := false
  depth : Nat := 0
  maxDepth : Nat := 0
  delay : Nat := 0
  maxDelay : Nat := 0
  /-- Maxima since the previous map push (R258). -/
  mapDepth : Nat := 0
  mapDelay : Nat := 0
deriving DecidableEq, Repr

/-- A granted packet in the transmit stage of an egress (R248): the slots still to be sent, and whether part of it has been. -/
structure Granted where
  q : QPkt
  slots : List (Bool × Block)
  begun : Bool
  /-- These are the packet's last flits. -/
  last : Bool
deriving DecidableEq, Repr

/-- A scheduler: virtual times and class finish tags, urgent tier in order of promotion, Flume queue (R235 to R239).
`vtClass` is the virtual time of the class level, `vtGroup` of each class's second level. -/
structure Sched where
  vtClass : Nat := 0
  classFinish : List Nat := [0, 0, 0, 0]
  vtGroup : List Nat := [0, 0, 0, 0]
  urgent : List (Nat × Nat × QPkt) := [] -- (TC, group or instance, the promoted packet)
  flume : List QPkt := []
  stage : List Granted := []
deriving DecidableEq, Repr

/-- A gate list entry (R242). -/
structure GateEntry where
  dur : Nat
  mask : BitVec 17
deriving DecidableEq, Repr

/-- The gate state of one egress (R242 to R246): active and staged lists and the pending activation. -/
structure Gate where
  active : List GateEntry := []
  guard_ : Bool := false
  actTime : Nat := 0
  staged : List GateEntry := []
  stagedGuard : Bool := false
  stagedValid : Bool := false
  pending : Bool := false
  pendClear : Bool := false
  pendTime : Nat := 0
  entry : Nat := 0
deriving DecidableEq, Repr

/-- A Flume request collecting its parts, or executing, at its target (R251, R252). -/
structure FlumeReq where
  src : Nat
  reqDie : Nat
  reqSeq : Nat
  firstAt : Nat
  parts : Nat
  got : List (Nat × Block)
  executing : Bool
  /-- FORM 2 requests are answered out of the port they came in by (R250). -/
  via : Option Nat
deriving DecidableEq, Repr

/-- A kept Flume answer (R252). -/
structure FlumeAns where
  src : Nat
  reqDie : Nat
  reqSeq : Nat
  answer : Block
  at_ : Nat
deriving DecidableEq, Repr

/-- A police bucket (R253): packets left, last refill, last use. -/
structure Bucket where
  src : Nat
  level : Nat
  refillAt : Nat
  usedAt : Nat
deriving DecidableEq, Repr

/-- A boost as the semaphore block reports it (R241, R370): holder, level, semaphore, and whether it is in force. -/
structure Boost where
  sem : Nat
  holder : Master
  level : Nat
  inForce : Bool
  withdrawn : Bool
deriving DecidableEq, Repr

/-- Schedulers, gates and Flume of one die. -/
structure Sch where
  egress : Tab Sched := []
  inject : Tab Sched := []
  egq : Tab Queue := []           -- by 64 × egress + 16 × TC + share group
  injq : Tab Queue := []          -- by 8192 × port + 2048 × TC + instance (1,024: management function)
  gates : Tab Gate := []
  boosts : List Boost := []
  flumeReqs : List FlumeReq := []
  flumeAns : List FlumeAns := []
  buckets : List Bucket := []
  sharedBucket : Option Bucket := none
  policeAt : Option Nat := none
deriving DecidableEq, Repr

/-! ## Cruise (09_cruise_and_counters) -/

/-- A group-view record (R260): the latest summary of a router and when it came. -/
structure NbrRec where
  sum : Summary
  at_ : Nat
  /-- Received on a local link or from the partner: used by R218 and R219. -/
  usable : Bool
  forwarded : Bool
deriving DecidableEq, Repr

/-- A collector's open map (R265). -/
structure MapSlot where
  seq : Nat := 0
  known : Bool := false
  open_ : Bool := false
  firstAt : Nat := 0
  parts : Nat := 0
  got : List Nat := []
deriving DecidableEq, Repr

/-- Cruise of one die: samples, summaries, maps. -/
structure Cruise where
  /-- Number of the latest 1 µs tick sampled, and of the 2 µs ticks of the latest summary and forward (R256, R259, R260). -/
  sampleTick : Nat := 0
  sumTick : Nat := 0
  fwdTick : Nat := 0
  sample : Tab Nat := []            -- by 64 × egress + channel
  peak : Tab Nat := []
  sumSeq : Nat := 0
  view : Tab (Option NbrRec) := []  -- by router of the own group
  partnerGlobal : List SumEntry := []
  mapSeq : Nat := 0
  mapEn : Bool := false
  mapDest : Nat := 0
  mapPeriod : Nat := 1000
  mapAt : Option Nat := none
  mapMultiple : Nat := 0
  rxBase : Nat := 0
  rxFirst : Nat := 0
  rxGroups : Nat := 0
  rx : Tab MapSlot := []
  /-- Counters with INT_EN that have wrapped and not been captured, and when (R272). -/
  wraps : List (Nat × Nat) := []
  /-- CONTEXT of the most recent event of a counter, by counter (R272). -/
  events : Tab Nat := []
deriving DecidableEq, Repr

/-! ## Links and bridges (10_lanes_links_bridges) -/

/-- Link states (R298). -/
inductive LinkSt where
  | down | training | quarantine | up | draining | failed
deriving DecidableEq, Repr, Inhabited

/-- How far training has come (R300). -/
inductive TrainSt where
  | waitSignal | adapting | countdown | ident
deriving DecidableEq, Repr, Inhabited

/-- A held transmit frame (R290, R291). -/
structure TxFrame where
  fsn : Nat
  /-- The channel of its last packet flit. -/
  chan : Nat
  slots : List (Bool × Block)
  sentAt : Nat
  timeouts : Nat
deriving DecidableEq, Repr

/-- A good frame held beyond a missing one (R292): whether it was a retransmission, and the device time of its start. -/
structure RxFrame where
  fsn : Nat
  retx : Bool
  at_ : Nat
  slots : List (Bool × Block)
deriving DecidableEq, Repr

/-- A packet being received on a channel (R285): its flits so far and how many are due. -/
structure RxPkt where
  chan : Nat
  flits : List Block
  due : Nat
  /-- A flit of it came without credit: it is discarded when complete (R296). -/
  bad : Bool := false
deriving DecidableEq, Repr

/-- A link (R277, R278, R298): its state registers, port configuration, lanes, error window, transmit and receive sides. -/
structure Link where
  st : LinkSt := .down
  cause : Nat := 0
  hold : Bool := false
  adminEn : Bool := false
  precode : Bool := false
  /-- Precoding of the transmit direction, which follows the partner's receiver (R279). -/
  txPrecode : Bool := false
  partner : Nat := 0
  partnerPort : Nat := 0
  stAt : Nat := 0
  train : TrainSt := .waitSignal
  signalAt : Option Nat := none
  recoveries : List Nat := []
  offences : List Nat := []
  rate : Nat := 0
  split : Bool := false
  forerunner : Bool := false
  credit : Nat := 128
  lanes : List Nat := [3, 3, 3, 3, 3, 3, 3, 3]
  rtt : Nat := 0
  badFrames : List Nat := []
  corrSym : List (Nat × Nat) := []
  degradedAt : Option Nat := none
  -- transmit side
  nextFsn : Nat := 0
  txHeld : List TxFrame := []
  creditLeft : Tab Nat := []         -- flits of downstream credit used, by channel
  crSeen : Tab Nat := []             -- latest CR_COUNT seen, by channel
  partnerCredit : Nat := 0
  identSeenTs : Nat := 0
  identSeenAt : Nat := 0
  identAt : Option Nat := none
  offIn : Nat := 0                   -- channels the partner has turned OFF (R302)
  offOut : Nat := 0
  onoffAt : Option Nat := none
  timeAt : Option Nat := none
  shelfAt : Option Nat := none
  shelfDom : Nat := 0
  -- receive side
  expectFsn : Nat := 0
  rxHeld : List RxFrame := []
  /-- FSNs known to be missing, which NAK_MAP requests (R292, R293). -/
  missing : List Nat := []
  malformed : List Nat := []
  sel : Option Nat := none
  rxPkts : List RxPkt := []
  freed : Tab Nat := []              -- cumulative flits freed, by channel
  crSent : Tab Nat := []             -- of those, how many 4-flit units have been reported
  /-- Consecutive uncorrectable codewords of each lane (R282). -/
  badRun : List Nat := [0, 0, 0, 0, 0, 0, 0, 0]
  /-- SUMMARY flits of a summary that is still coming: part and flit (R287). -/
  sumParts : List (Nat × Block) := []
  /-- The channel that the partner's receiver has selected after what has been granted (R285). -/
  txSel : Option Nat := none
  /-- Wormhole packets begun and not finished for want of credit: channel and the flits still due (R224, R286). -/
  susp : List (Nat × List Block) := []
  /-- Link flits that wait for a frame (R286, R287, R290). -/
  ctlq : List Block := []
  timeTx : Nat := 0                  -- T_TX of the latest TIME flit from the partner
  timeRx : Nat := 0
  timeFlit : Option TimeFlit := none
  timeSeen : Nat := 0                -- when it came
deriving DecidableEq, Repr

/-- A wormhole packet partly over a bridge (R224, R303): its queue entry and the flits that have crossed. -/
structure Crossing where
  q : QPkt
  sent : Nat
deriving DecidableEq, Repr

/-- A die's view of a bridge (R305, BRG_STATUS). -/
structure Brg where
  st : LinkSt := .down
  cause : Nat := 0
  adminEn : Bool := false
  lane : Nat := 0
  dirEw : Bool := false
  recoveries : List Nat := []
  sparesWe : Nat := 0
  sparesEw : Nat := 0
  downAt : Nat := 0
  /-- Flits of credit that the partner's receiver gave each of the 33 channels at training, and of those in use (R303, R305). -/
  room : List Nat := []
  used : Tab Nat := []
  crossing : List Crossing := []
deriving DecidableEq, Repr

/-! ## Host ports, instances, translation (11_host_ports_instances) -/

/-- A host link (R309 to R312): whether it has trained and what its host negotiated. -/
structure HLink where
  up : Bool := false
  numVfs : Nat := 0
  cxlCache : Bool := false
  atomicOps : Nat := 0     -- bit 0 FetchAdd8, 1 Swap8, 2 CAS8, 3 CAS16
  cplTimeout : Nat := 50000000
  /-- Completion Timeout Disable: 64 s are used (R312). -/
  cplOff : Bool := false
deriving DecidableEq, Repr

/-- A function's configuration state that rules of the spec read (R314, R323, R337, R375). [log PRESUMED 115] -/
structure Fn where
  inst : Option Nat := none
  d3 : Bool := false
  inReset : Bool := false
  msixEn : Bool := false
  /-- MSI-X vectors whose mask bit is 0. -/
  unmasked : List Nat := []
  /-- MSI-X table words by 4 × vector + word: address low, address high, data. -/
  msixTab : Tab Nat := []
  atsEn : Bool := false
deriving DecidableEq, Repr

/-- An event ring in host memory (R327, R328). -/
structure EvtRing where
  tail : Nat := 0
  tailPhase : Bool := true
  head : Nat := 0
  lap : Bool := true
  arm : Bool := false
  written : Nat := 0
  lost : Nat := 0
deriving DecidableEq, Repr

/-- Instance states (R319). -/
inductive InstSt where
  | absent | configuring | running | quiescing | quiesced | resetting
deriving DecidableEq, Repr, Inhabited

/-- An instance (R316 to R323) with its grants (R325). -/
structure Inst where
  st : InstSt := .absent
  was : InstSt := .absent
  fn : FnId := default
  maxOps : Nat := 0
  maxTriggers : Nat := 0
  tcMask : Nat := 0
  evtBase : Nat := 0
  evtLog2 : Nat := 0
  evtIntSource : Nat := 0
  evtIntEn : Bool := false
  evt : EvtRing := {}
  wins : Tab Win := []
  maxCtx : Nat := 0
  maxPosted : Nat := 0
  maxUnexp : Nat := 0
  maxUnexpKib : Nat := 0
  tallies : List (Nat × Nat) := []         -- FIRST, COUNT
  colls : List (Nat × Nat) := []           -- CCTX, MEMBER_INDEX
  counters : Tab Nat := []                 -- slot ↦ COUNTER + 1
  vstations : List Nat := []
  quiesceOps : List Nat := []
  resetAt : Nat := 0
deriving DecidableEq, Repr

/-- Who waits for a table walk. -/
inductive WalkFor where
  | op (o : Nat)
  | target (conn : Nat)
deriving DecidableEq, Repr

/-- A table walk or ATS request in flight (R335, R337). -/
structure Walk where
  inst : Nat
  win : Nat
  page : Nat
  level : Nat          -- 1 or 2; 3: ATS Translation Request; 0: waiting for one of the 64 walks of the die
  addr : Nat
  e1 : Nat
  wr : Bool
  owner : WalkFor
  stale : Bool         -- its window changed meanwhile: no TLB fill (R333)
  snap : Win           -- its window when it began
deriving DecidableEq, Repr

/-- Who issued a host read: an operation, a command ring's fetch, a table walk, or the flush of a connection end. -/
inductive ReadOwner where
  | op (o : Nat)
  | ring (d : Die) (n : Nat)
  | walk (d : Die) (n : Nat)
  | flush (d : Die) (c : Nat)
deriving DecidableEq, Repr

/-- A non-posted host read, waiting for a tag of its port or outstanding with one (R254, R311). -/
structure HostRead where
  no : Nat
  owner : ReadOwner
  /-- The instance for whose address it is, or 1,024 for the management function. -/
  who : Nat
  port : Nat
  link : Nat
  addr : Nat
  len : Nat
  /-- The window of a data read, and whether that was programmed again or removed since (R333). -/
  win : Option Nat
  oldWin : Bool := false
  /-- Issued as translated by ATS, and whether an invalidation waits for it (R337). -/
  ats : Bool := false
  inv : Bool := false
  issued : Bool := false
  at_ : Nat := 0
  /-- Its function was reset, or its ring: the completion is discarded (R323). -/
  dead : Bool := false
deriving DecidableEq, Repr

/-- Host ports and translation of one die. -/
structure Hst where
  links : Tab HLink := []            -- by 4 × die-local port + link
  perst : List Nat := []             -- die-local ports whose PERST_N is asserted
  bifCodes : List Nat := [0, 0, 0, 0]
  adjusted : Bool := false
  wake : List Nat := []              -- ports whose WAKE_HSTn_N is asserted
  tlb : List TlbEnt := []
  walks : Tab (Option Walk) := []
  nextWalk : Nat := 0
  aclDeniedAt : Option Nat := none
deriving DecidableEq, Repr

/-! ## Engines, memory, semaphores, interrupts (12_engines_memory_sync) -/

/-- Carrel pair states (ENG_PAIR_STATUS). -/
inductive PairSt where
  | untested | active | spare | retesting | failed
deriving DecidableEq, Repr, Inhabited

/-- A Carrel pair (R352): its four threads hold operation numbers. -/
structure Pair where
  st : PairSt := .untested
  mismatches : Nat := 0
  threads : List (Option Nat) := [none, none, none, none]
  deadOps : List Nat := []
deriving DecidableEq, Repr

/-- Cache line states (R356). -/
inductive LineSt where
  | i | s | e | o | m
deriving DecidableEq, Repr, Inhabited

/-- A line in its home's directory (R355): the pairs (by die × 32 + pair) that hold it. -/
structure Line where
  holders : Tab LineSt := []
deriving DecidableEq, Repr

/-- An armed waiter (R367). -/
structure SemArm where
  who : Master
  level : Nat
  source : Nat
deriving DecidableEq, Repr

/-- A semaphore (R365 to R371). -/
structure Sem where
  holder : Option Master := none
  orphaned : Bool := false
  boosted : Bool := false
  arms : List SemArm := []
deriving DecidableEq, Repr

/-- Interrupt source states (R376). -/
inductive SrcSt where
  | idle | pending | active | activePending
deriving DecidableEq, Repr, Inhabited

/-- An interrupt source (R374 to R377); EN, GROUP, PRIO and the targets are registers. -/
structure Src where
  st : SrcSt := .idle
  level : Bool := false      -- condition of a level source stands
  lastTgt : Option Nat := none
  cur : Option Nat := none   -- target of the present delivery
  claimed : Bool := false
  inPba : Bool := false
deriving DecidableEq, Repr

/-- Engines, memory, semaphores, interrupt controller of one die. -/
structure Eng where
  pairs : Tab Pair := []
  lines : Tab Line := []          -- by 2 × address in 64-byte units + (1 for SRAM)
  poison : Tab Nat := []          -- by 2 × address + (1 for SRAM): poison kind (R362)
  scrubFull : Bool := false
  sems : Tab Sem := []
  semBadAt : Option Nat := none
  srcs : Tab Src := []
  groupTill : Tab Nat := []       -- end of the hold-off timer + 1; 0: idle
  intWatch : Nat := 0
deriving DecidableEq, Repr

/-! ## Epochs, Shelf-read (13_fabric_epochs_time) -/

/-- A configuration record (R384): content as bytes. -/
structure CfgRec where
  ty : Nat
  index : Nat
  content : List Byte
deriving DecidableEq, Repr

/-- A pending domain activation (R386). -/
structure Pend where
  actTime : Nat
  epoch : Nat
  tag : Nat
  requireLock : Bool
deriving DecidableEq, Repr

/-- A configuration domain of a die (R381, R382). -/
structure Dom where
  epoch : Nat := 0
  tag : Nat := 0
  active : List CfgRec := []
  staged : List CfgRec := []
  stagedValid : Bool := false
  pend : Option Pend := none
  actAt : Option Nat := none       -- `now` of the last activation (R393)
deriving DecidableEq, Repr

/-- Shelf-read comparison on one link (or the bridge) for one domain (R393). -/
structure Mark where
  last : Bool := false      -- the previous flit mismatched
  marked : Bool := false
  postedAt : Option Nat := none
deriving DecidableEq, Repr

structure Epc where
  doms : Tab Dom := []
  marks : Tab Mark := []        -- by 8 × (k, or 64 for the bridge) + domain
  /-- The bridges' control stream: when its latest SHELF flit went, and the next domain (R392). -/
  brgShelfAt : Option Nat := none
  brgShelfDom : Nat := 0
deriving DecidableEq, Repr

/-! ## Lookout, power (14_modes_faults_power) -/

/-- The state of a unit (R423). -/
inductive UnitSt where
  | ok | fault | heldFailed
deriving DecidableEq, Repr, Inhabited

structure FaultUnit where
  st : UnitSt := .ok
  /-- End of its quiet period (R423). -/
  quietEnd : Nat := 0
  recoveries : List Nat := []
deriving DecidableEq, Repr

/-- A block's error record (ERR_STATUS, R416) besides its unit's state. -/
structure ErrRec where
  pending : Bool := false
  cls : Nat := 0
  corrCount : Nat := 0
  code : Nat := 0
  unit : Nat := 0
  evAt : Option Nat := none
  wireBroken : List Nat := []
  /-- Time + 1 of the last EV_LKO_WIRE of each pair, by class. -/
  wireEvAt : Tab Nat := []
  /-- The latest poll of the record (R418). -/
  pollAt : Nat := 0
deriving DecidableEq, Repr

/-- A fault log entry (R417, LKO_LOG_VIEW). -/
structure LogEnt where
  blk : Nat
  record : Nat
deriving DecidableEq, Repr

structure Lko where
  errs : Tab ErrRec := []              -- by block number
  units : Tab FaultUnit := []          -- by 65,536 × block + unit
  log : List LogEnt := []              -- newest first
deriving DecidableEq, Repr

/-- A power-token request or grant (R433). -/
structure Token where
  unit : TokenUnit
  n : Nat
  /-- When it was asked for, then when it was granted. -/
  at_ : Nat
deriving DecidableEq, Repr

structure Pwr where
  est : Nat := 0
  queue : List Token := []
  granted : List Token := []
  eighths : Nat := 0
  overSince : Option Nat := none
  throttleAt : Nat := 0
  thermal : Tab Nat := []              -- by sensor, 0.125 °C units
  critSince : Tab Nat := []            -- time + 1 since above CRITICAL
  volts : Tab Nat := []
  voltBand : Tab Nat := []             -- 0 normal, 1 ALARM, 2 FAULT
  bandSince : Tab Nat := []            -- time + 1, by 2 × monitor + (1 for FAULT)
  thermEvAt : Option Nat := none
  voltEvAt : Tab Nat := []
  avsWant : Nat := 720
  appliedMv : Nat := 720
deriving DecidableEq, Repr

/-! ## The die and the device -/

/-- The state of one die. -/
structure DieState where
  rings : Rings := {}
  trigs : List Trig := []
  conns : Tab Conn := []
  tallies : Tab Tally := []
  cat : Cat := {}
  bnd : Tab BndCtx := []
  rtr : Router := {}
  sch : Sch := {}
  crz : Cruise := {}
  links : Tab Link := []
  north : Brg := {}
  south : Brg := {}
  hst : Hst := {}
  eng : Eng := {}
  epc : Epc := {}
  lko : Lko := {}
  pwr : Pwr := {}
  evt : EvtRing := {}
  /-- The key store: the key of each instance, by the number of its drawing; unlisted: none (R346). -/
  keys : Tab Nat := []
  /-- The last 4,096 events of the die, newest first, as 32-byte records (R430). -/
  evHist : List Nat := []
deriving DecidableEq, Repr

/-- Operating modes (R408). -/
inductive Mode where
  | bringup | service | degraded | drain | standby | forensic
deriving DecidableEq, Repr, Inhabited

/-- HEARTBEAT (R426). -/
inductive Beat where
  | low | hz500 | hz1
deriving DecidableEq, Repr, Inhabited

/-- Time states (R401). -/
inductive TimeSt where
  | acquiring | locked | holdover | freeRun
deriving DecidableEq, Repr, Inhabited

/-- Time source (R400). -/
inductive TimeSrc where
  | none
  | pps
  | link (d : Die) (k : Nat)
deriving DecidableEq, Repr, Inhabited

/-- Device time and its discipline (R397 to R407). Device time in whole ns and 2^−32 ns. -/
structure Time where
  ns : Nat := 0
  frac : Nat := 0
  st : TimeSt := .acquiring
  set : Bool := false
  far : Bool := false
  estErr : Nat := 0xFFFFFF
  gm : Nat := 0
  stratum : Nat := 15
  src : TimeSrc := .none
  lastOffset : Int := 0
  inThresh : Nat := 0
  slew : Int := 0                     -- offset still to be slewed
  /-- The discipline's frequency estimate: what it adds to a tick, in units of 2^−32 ns (R397, R402). -/
  freq : Int := 0
  step : Option (Nat × Int) := none   -- B and Δ
  ppsNext : Nat := 0                  -- the next whole second that PPS_OUT pulses
  ppsFall : Option Nat := none        -- end of the PPS_OUT pulse
  setAtPps : Option Nat := none       -- SET waiting for the next PPS_IN edge
  holdSince : Nat := 0
  holdErr : Nat := 0
  sourceAt : Nat := 0                 -- latest TIME flit or PPS edge
  ppsAt : Option Nat := none
  refusedStep : Bool := false
deriving DecidableEq, Repr

/-- The mailbox (R349 to R351). -/
structure Mbx where
  block : Block := 0
  result : BitVec 256 := 0
  lastSeq : Nat := 0
  busy : Bool := false
  valid : Bool := false
  rejects : Nat := 0
  copy : Block := 0
  op : Option Nat := none
  /-- The record of the command, written when it finishes. -/
  resultDue : Option (BitVec 256) := none
  /-- Vector 0 waits in the PBA under its mask. -/
  irq : Bool := false
deriving DecidableEq, Repr

/-- The I3C target (R458, R459). -/
structure I3c where
  dynAddr : Nat := 0
  status : Nat := 0
  data : List Byte := []
deriving DecidableEq, Repr

/-- The Archive (R427 to R432). -/
structure Archive where
  valid : Bool := false
  copied : Bool := false
  dest : Option Nat := none
  copying : Bool := false
  copyOps : List Nat := []
  cause : Option Nat := none
  modeBefore : Nat := 0
  /-- When Forensic was entered, by the timers. -/
  enteredAt : Nat := 0
  timeAt : Nat := 0
  router : Nat := 0
  sha : List Byte := []
  /-- The free value taken when firmware has written the Archive: its low 16 bits are the number of directory entries, and
  the directory and sections are the bytes `Config.archiveBody` gives for it. -/
  image : Nat := 0
  /-- Dies whose stack was lost at entry. -/
  lost : List Nat := []
deriving DecidableEq, Repr

/-- Mode, bring-up, reset and pins (14, 15). -/
structure Sys where
  mode : Mode := .bringup
  bootStage : Nat := 0
  bootStatus : Nat := 0
  wakeSource : Nat := 0
  armed : Bool := false               -- the Lookout's collector is armed
  hbmLost : List Nat := []            -- dies (by code) whose stack is lost
  inReset : Bool := true
  pwrgood : Bool := false
  pwrgoodAt : Nat := 0
  resetDue : Option Nat := none       -- internal device reset (R409)
  standbyDue : Option Nat := none
  thermtrip : Bool := false
  heartbeat : Beat := .low
  straps : Nat := 0
  imageSha : List Byte := []
  bootSlot : Nat := 0
  wakeAt : Option Nat := none         -- expiry of MGT_WAKE.TIMER
  mgmt : FnId := default
  wakeLinks : Bool := false           -- links with ADMIN_EN wait to train after a wake (R439 step 8)
deriving DecidableEq, Repr

/-- Identity (R14 to R17). -/
structure Identity where
  valid : Bool := false
  group : Nat := 0
  place : Nat := 0
  split : Bool := false
deriving DecidableEq, Repr

/-- A half of a 64-bit register held for a master (R273, R470). -/
structure Half where
  who : Master
  off : Nat
  val : Nat
deriving DecidableEq, Repr

/-- What the device emits at its pins and links. [log DESIGN CHOICE 8] -/
inductive Out where
  /-- A posted write to host memory on a link, bytes from the address up; one that is a payload write that a later flush covers
  carries Relaxed Ordering (R311). -/
  | hostWrite (port link : Nat) (addr : Nat) (bytes : List Byte)
  | payloadWrite (port link : Nat) (addr : Nat) (bytes : List Byte)
  /-- A host read request: what for, address, length. -/
  | hostRead (port link : Nat) (addr len : Nat)
  /-- A PCIe AtomicOp: FetchAdd, Swap or CAS (0 to 2) of that size (R124). -/
  | atomicOp (port link : Nat) (addr size op operand compare : Nat)
  /-- CXL.cache: a host line taken exclusive, and released (R124). -/
  | cxlTake (port link line : Nat)
  | cxlRelease (port link line : Nat)
  | atsRequest (port link : Nat) (addr : Nat)
  | atsInvDone (f : FnId)
  | cfgRetry (port link : Nat)
  | cfgDone (port link : Nat)
  | unsupported (port link : Nat)
  /-- An MSI-X message: the host's address and data of that vector's table entry. -/
  | msix (f : FnId) (vector addr data : Nat)
  | toCore (d : Die) (core src : Nat)
  /-- A packet handed to the die's routing stage, Boom or stations (the hand-offs inside a die). -/
  | toRoute (d : Die) (p : Pkt)
  | toBoom (d : Die) (p : Pkt)
  | toStation (d : Die) (p : Pkt)
  /-- A whole packet received, handed to the router. -/
  | received (d : Die) (at_ : Ingress) (p : Pkt)
  | frame (d : Die) (k : Nat) (fsn : Nat) (retx empty : Bool) (ack : Nat) (nak : BitVec 8) (crCh crCount : Nat) (slots : List (Bool × Block))
  | onBridge (d : Die) (b : Bridge) (stage chan : Nat) (p : Pkt)
  /-- Link flits received on link k, handed to their blocks (R287). -/
  | ident (d : Die) (k : Nat) (m : Ident)
  | shelf (d : Die) (k : Nat) (m : ShelfFlit)
  | time (d : Die) (k : Nat) (m : TimeFlit)
  | onoff (d : Die) (k mask : Nat)
  | summary (d : Die) (k : Nat) (m : Summary)
  /-- What the control stream of a bridge carries to the partner die (R303). -/
  | bridgeSummary (d : Die) (b : Bridge) (m : Summary)
  | bridgeShelf (d : Die) (m : ShelfFlit)
  | linkIdle (d : Die) (k : Nat)
  | linkTrain (d : Die) (k : Nat)
  | rxReady (d : Die) (k : Nat)
  | clockStop (d : Die) (b : Bridge)
  /-- A Bindery packet reaches the Bindery of a die. -/
  | bnd (d : Die) (p : BndPkt)
  | regData (m : Master) (off : Nat) (val : Nat)
  | regDenied (m : Master) (off : Nat) (write : Bool)
  | i3cRead (bytes : List Byte)
  | ibi (bytes : List Byte)
  | pin (name : String) (level : Nat)
  | exception (d : Die) (pair : Nat)
deriving DecidableEq, Repr

/-- The whole machine. -/
structure State where
  /-- Commands waiting, first in first out (the block's queue). -/
  pending : List Instr := []
  /-- Nanoseconds since reset: the clock of the device's timers. [log DESIGN CHOICE 6] -/
  now : Nat := 0
  /-- How many free values have been taken. -/
  freeCtr : Nat := 0
  /-- How many keys the random source has given (R346). -/
  keyCtr : Nat := 0
  /-- Host reads that wait for a tag or are outstanding, oldest first (R254). -/
  reads : List HostRead := []
  nextRead : Nat := 0
  /-- Connection ends whose packet waits for read tags. -/
  tagWait : List (Die × Nat) := []
  /-- Functions whose ATS invalidation awaits accesses already issued (R337). -/
  atsInvs : List FnId := []
  /-- What the device has emitted, newest first. -/
  out : List Out := []
  west : DieState := {}
  east : DieState := {}
  ident : Identity := {}
  sys : Sys := {}
  time : Time := {}
  mbx : Mbx := {}
  arch : Archive := {}
  i3c : I3c := {}
  flash : Tab Byte := []
  /-- Register file: registers that hold what was last written, by register-space offset; unlisted: the reset value. -/
  regs : Tab Nat := []
  latches : List Half := []      -- latched high halves (R273)
  holds : List Half := []        -- held low halves (R470)
  views : Tab Nat := []          -- companions latched by a view read
  insts : Tab Inst := []
  fns : Tab Fn := []             -- by 2048 × port + 512 × link + function
  ops : Tab Op := []
  /-- The number of the next operation; 0 names none. -/
  nextOp : Nat := 1
deriving DecidableEq, Repr

/-- Why the machine stops. No rule of the spec stops the block: no meaning raises one. -/
inductive Fault where
  /-- Raised by nothing: the block has no fault that stops it. Safe. -/
  | none
deriving DecidableEq, Repr

/-- Why a command is refused. -/
inductive Refusal where
  /-- A command with no meaning yet, by its mnemonic: raised only by an arm of Machine/Dispatch.lean. Safe. -/
  | notModelled (mnemonic : String)
deriving DecidableEq, Repr

/-- The machine as its power comes up, before SYS_RESET_N is released (R449): held in reset, every structure empty.
[log DESIGN CHOICE 4, DESIGN CHOICE 5] -/
def State.reset : State := {}

end Sys2Proof.Machine
end

