-- ==== Sys2Proof/Machine/Tab.lean ====
section
/-! DEFINITION. Sparse tables: lists of (key, value) pairs by rising key with no entry equal to the table's default, so that
equal tables are equal data. Every large array of the spec (rings, connections, Tallies, registers, flash) is one. -/

namespace Sys2Proof

/-- The value at key `k`: the default where no entry names it. -/
def tget {α : Type} (dflt : α) : Tab α → Nat → α
  | [], _ => dflt
  | (j, v) :: t, k => if j = k then v else if k < j then dflt else tget dflt t k

/-- Remove the entry at `k`. -/
def tdel {α : Type} : Tab α → Nat → Tab α
  | [], _ => []
  | (j, v) :: t, k => if j = k then t else if k < j then (j, v) :: t else (j, v) :: tdel t k

/-- Put `v` at `k`, keeping keys rising. -/
def tput {α : Type} : Tab α → Nat → α → Tab α
  | [], k, v => [(k, v)]
  | (j, w) :: t, k, v => if j = k then (k, v) :: t else if k < j then (k, v) :: (j, w) :: t else (j, w) :: tput t k v

/-- Write `v` at `k`: writing the default removes the entry. -/
def tset {α : Type} [DecidableEq α] (dflt : α) (t : Tab α) (k : Nat) (v : α) : Tab α :=
  if v = dflt then tdel t k else tput t k v

/-- Change the value at `k` by `f`. -/
def tmod {α : Type} [DecidableEq α] (dflt : α) (t : Tab α) (k : Nat) (f : α → α) : Tab α :=
  tset dflt t k (f (tget dflt t k))

/-- Insert `x` before the first element that it may stand before. -/
def insBy {α : Type} (le : α → α → Bool) (x : α) : List α → List α
  | [] => [x]
  | y :: t => if le x y then x :: y :: t else y :: insBy le x t

/-- A list in the order `le`, equals in the order in which they stand. -/
def sortBy {α : Type} (le : α → α → Bool) : List α → List α
  | [] => []
  | x :: t => insBy le x (sortBy le t)

/-- Every key from `k` on is above it, and no value is the default. -/
def twfFrom {α : Type} [DecidableEq α] (dflt : α) : Nat → Tab α → Bool
  | _, [] => true
  | lo, (j, v) :: t => decide (lo ≤ j) && decide (v ≠ dflt) && twfFrom dflt (j + 1) t

/-- The canonical form: keys strictly rising, no default listed. -/
def twf {α : Type} [DecidableEq α] (dflt : α) (t : Tab α) : Bool := twfFrom dflt 0 t

/-- The keys of a table in rising order. -/
def tkeys {α : Type} (t : Tab α) : List Nat := t.map (·.1)

/-- Change every listed value by `f`, dropping those that become the default. -/
def tmapv {α : Type} [DecidableEq α] (dflt : α) (t : Tab α) (f : Nat → α → α) : Tab α :=
  (t.map (fun (k, v) => (k, f k v))).filter (fun (_, v) => decide (v ≠ dflt))

end Sys2Proof
end

