-- ==== Sys2Proof/Machine/Ops.lean ====
section
/-! DEFINITION. The named operations over the machine's state: bit fields and little-endian bytes, access to a die's
structures, the register file, device time and identity, host writes, interrupts, events, completion records, Tallies
and the completion of an operation. -/

namespace Sys2Proof.Machine

open Sys2Proof

/-! ## Bits and bytes -/

/-- `n` bits of `w` from bit `lo`. -/
def bits (w lo n : Nat) : Nat := w / 2 ^ lo % 2 ^ n

/-- Bit `i` of `w`. -/
def bit (w i : Nat) : Bool := w / 2 ^ i % 2 == 1

/-- A flag as a number. -/
def b2n (b : Bool) : Nat := if b then 1 else 0

/-- `w` with its `n` bits from `lo` replaced by `v`. -/
def setBits (w lo n v : Nat) : Nat := w - bits w lo n * 2 ^ lo + v % 2 ^ n * 2 ^ lo

/-- The `n` low bytes of a number, least significant first (R9). -/
def leBytes : Nat → Nat → List Byte
  | 0, _ => []
  | n + 1, v => BitVec.ofNat 8 v :: leBytes n (v / 256)

/-- The number that little-endian bytes spell (R9). -/
def leNat : List Byte → Nat
  | [] => 0
  | b :: bs => b.toNat + 256 * leNat bs

/-- The number in bits [lo + n − 1:lo] of a block counted from byte `byte`. -/
def fld (b : Block) (byte lo n : Nat) : Nat := bits b.toNat (8 * byte + lo) n

/-- `len` bytes of a block from byte `at_`. -/
def blkBytes (b : Block) (at_ len : Nat) : List Byte := leBytes len (b.toNat / 2 ^ (8 * at_))

/-- A saturating increment to `2^n − 1`. -/
def satInc (n v : Nat) : Nat := if v + 1 < 2 ^ n then v + 1 else 2 ^ n - 1

/-- Drop the value `x` from a list. -/
def without {α : Type} [DecidableEq α] (l : List α) (x : α) : List α := l.filter (fun y => decide (y ≠ x))

/-- Add `x` at the end of a list that does not hold it. -/
def addNew {α : Type} [DecidableEq α] (l : List α) (x : α) : List α := if x ∈ l then l else l ++ [x]

/-- The value `v` at position `i` of a list. -/
def setAt {α : Type} : List α → Nat → α → List α
  | [], _, _ => []
  | _ :: t, 0, v => v :: t
  | x :: t, i + 1, v => x :: setAt t i v

/-! ## Dies and their tables -/

/-- A die's state. -/
def die (s : State) : Die → DieState
  | .west => s.west
  | .east => s.east

/-- Change a die's state. -/
def onDie (s : State) (d : Die) (f : DieState → DieState) : State :=
  match d with
  | .west => { s with west := f s.west }
  | .east => { s with east := f s.east }

/-- A fresh free value (AN UNDEFINED VALUE: nothing constrains it). -/
def takeFree (s : State) : BitVec 64 × State := (Config.freeValue s.freeCtr, { s with freeCtr := s.freeCtr + 1 })

def cmdRing (s : State) (d : Die) (n : Nat) : CmdRing := tget {} (die s d).rings.cmd n
def onRings (s : State) (d : Die) (f : Rings → Rings) : State := onDie s d fun x => { x with rings := f x.rings }
def modCmdRing (s : State) (d : Die) (n : Nat) (f : CmdRing → CmdRing) : State :=
  onRings s d fun r => { r with cmd := tmod {} r.cmd n f }
def cqRing (s : State) (d : Die) (m : Nat) : CqRing := tget {} (die s d).rings.cq m
def modCq (s : State) (d : Die) (m : Nat) (f : CqRing → CqRing) : State :=
  onRings s d fun r => { r with cq := tmod {} r.cq m f }

/-- Connection numbers 0x0_0000 to 0x7_FFFF are homed on West, the rest on East (R110). -/
def connDie (c : Nat) : Die := if c < 0x80000 then .west else .east
def conn (s : State) (d : Die) (c : Nat) : Conn := tget {} (die s d).conns c
def modConn (s : State) (d : Die) (c : Nat) (f : Conn → Conn) : State :=
  onDie s d fun x => { x with conns := tmod {} x.conns c f }

/-- Tallies 0x00_0000 to 0x1F_FFFF are on West, the rest on East (R137). -/
def tallyDie (n : Nat) : Die := if n < 0x200000 then .west else .east
def tally (s : State) (n : Nat) : Tally := tget {} (die s (tallyDie n)).tallies n
def setTally (s : State) (n : Nat) (t : Tally) : State :=
  onDie s (tallyDie n) fun x => { x with tallies := tset {} x.tallies n t }

def inst (s : State) (i : Nat) : Inst := tget {} s.insts i
def modInst (s : State) (i : Nat) (f : Inst → Inst) : State := { s with insts := tmod {} s.insts i f }

/-- An instance's die holds its function's host port (R316). [log DEDUCED 12] -/
def instDie (s : State) (i : Nat) : Die := if (inst s i).fn.port < 4 then .west else .east

/-- The key of a function: device host port, link, function. -/
def fnKey (f : FnId) : Nat := 2048 * f.port + 512 * f.link + f.fn
def fnOf (s : State) (f : FnId) : Fn := tget {} s.fns (fnKey f)
def modFn (s : State) (f : FnId) (g : Fn → Fn) : State := { s with fns := tmod {} s.fns (fnKey f) g }

/-- The die of a device host port, 0 to 7. -/
def portDie (p : Nat) : Die := if p < 4 then .west else .east

def opOf (s : State) (o : Nat) : Op := tget {} s.ops o
def modOp (s : State) (o : Nat) (f : Op → Op) : State := { s with ops := tmod {} s.ops o f }
def delOp (s : State) (o : Nat) : State := { s with ops := tdel s.ops o }
/-- An operation number names a live operation. -/
def liveOp (s : State) (o : Nat) : Bool := decide (opOf s o ≠ {})

def onCat (s : State) (d : Die) (f : Cat → Cat) : State := onDie s d fun x => { x with cat := f x.cat }
/-- The key of a context: 65,536 × instance + CTX. -/
def ctxKey (i c : Nat) : Nat := 65536 * i + c
def ctxOf (s : State) (d : Die) (i c : Nat) : Ctx := tget {} (die s d).cat.ctxs (ctxKey i c)
def modCtx (s : State) (d : Die) (i c : Nat) (f : Ctx → Ctx) : State :=
  onCat s d fun x => { x with ctxs := tmod {} x.ctxs (ctxKey i c) f }

def bndCtx (s : State) (d : Die) (c : Nat) : BndCtx := tget {} (die s d).bnd c
def modBnd (s : State) (d : Die) (c : Nat) (f : BndCtx → BndCtx) : State :=
  onDie s d fun x => { x with bnd := tmod {} x.bnd c f }

def onRtr (s : State) (d : Die) (f : Router → Router) : State := onDie s d fun x => { x with rtr := f x.rtr }
def onSch (s : State) (d : Die) (f : Sch → Sch) : State := onDie s d fun x => { x with sch := f x.sch }
def onCrz (s : State) (d : Die) (f : Cruise → Cruise) : State := onDie s d fun x => { x with crz := f x.crz }
def onHst (s : State) (d : Die) (f : Hst → Hst) : State := onDie s d fun x => { x with hst := f x.hst }
def onEng (s : State) (d : Die) (f : Eng → Eng) : State := onDie s d fun x => { x with eng := f x.eng }
def onLko (s : State) (d : Die) (f : Lko → Lko) : State := onDie s d fun x => { x with lko := f x.lko }
def onPwr (s : State) (d : Die) (f : Pwr → Pwr) : State := onDie s d fun x => { x with pwr := f x.pwr }
def onEpc (s : State) (d : Die) (f : Epc → Epc) : State := onDie s d fun x => { x with epc := f x.epc }

def link (s : State) (d : Die) (k : Nat) : Link := tget {} (die s d).links k
def modLink (s : State) (d : Die) (k : Nat) (f : Link → Link) : State :=
  onDie s d fun x => { x with links := tmod {} x.links k f }

/-- A die's view of a bridge. -/
def brg (s : State) (d : Die) : Bridge → Brg
  | .north => (die s d).north
  | .south => (die s d).south
def modBrg (s : State) (d : Die) (b : Bridge) (f : Brg → Brg) : State :=
  onDie s d fun x => match b with
    | .north => { x with north := f x.north }
    | .south => { x with south := f x.south }

def dom (s : State) (d : Die) (n : Nat) : Dom := tget {} (die s d).epc.doms n
def modDom (s : State) (d : Die) (n : Nat) (f : Dom → Dom) : State :=
  onEpc s d fun e => { e with doms := tmod {} e.doms n f }

/-! ## The register file -/

/-- A register of a die: West at offset 0, East at 0x0400_0000 (R465). -/
def regKey (d : Die) (off : Nat) : Nat := d.idx * 0x4000000 + off

/-- Reset values of the registers that do not reset to zero and hold what is written, by offset within the die (the
register maps of each chapter). -/
def regReset (off : Nat) : Nat :=
  if off = 0xA80000 then 100                        -- RNG_PRIO_AGE
  else if 0x980000 ≤ off ∧ off < 0x980020 ∧ off % 8 = 0 then 0x80CD001004B0   -- XLT_CC_TCn
  else if off = 0x980020 then 0x800004000001        -- XLT_CC_WIN
  else if off = 0x980028 then 0x1F400032            -- XLT_RTX_CFG
  else if off = 0xC00000 then 0x40                  -- CAT_CTL
  else if off = 0xC00008 then 0x9                   -- CAT_SPEC_CTL
  else if off = 0xC00010 then 0x8                   -- CAT_LANDING_CFG
  else if off = 0xC00018 then 0x1000                -- CAT_UNEXP_POOL
  else if off = 0xC00020 then 0x14                  -- CAT_RNR_CFG
  else if off = 0xD00000 then 0x400032              -- BND_CTL
  else if off = 0xF00000 then 0xF                   -- RTE_CTL
  else if off = 0xF00008 then 0x1040200F            -- RTE_SPRAY_CFG
  else if off = 0xE00000 then 0x20                  -- BOOM_CFG
  else if off = 0x1000000 then 0x10404020           -- SCH_TC_WEIGHT
  else if off = 0x1000008 then 0x14                 -- SCH_AGE
  else if 0x1000040 ≤ off ∧ off < 0x1000060 ∧ off % 8 = 0 then 0x1111111111111111  -- SCH_GROUP_WEIGHTn
  else if 0x2000000 ≤ off ∧ off < 0x2001000 then 0x10101010  -- SCH_INJ_WEIGHT, per instance (model's own key)
  else if off = 0x10000A0 then 0x8064001400C8       -- SCH_FLUME_CFG
  else if off = 0x1100000 then 0x10                 -- CRZ_CFG
  else if off = 0x1201000 then 0x10000004003E8      -- LNK_ERRWIN_CFG
  else if off = 0x1201008 then 0xC8                 -- LNK_RETX_CFG
  else if off = 0x1201010 then 0x320010             -- LNK_VIOL_CFG
  else if off = 0x1600000 then 0x18                 -- HBM_SCRUB_CFG
  else if off = 0x300020 then 0x320314              -- TIM_CFG
  else if off = 0x100000 then 0x32                  -- LKO_CFG
  else if off = 0x200000 then 0x6E645F000002EE      -- PWR_CFG
  else 0

/-- The value a register of the file holds. The table keeps it XOR its reset value, so that a register at its reset
value is unlisted. -/
def regVal (s : State) (d : Die) (off : Nat) : Nat := regReset off ^^^ tget 0 s.regs (regKey d off)

/-- Set a register of the file. -/
def setReg (s : State) (d : Die) (off v : Nat) : State :=
  { s with regs := tset 0 s.regs (regKey d off) (regReset off ^^^ v) }

/-- Registers that are neither RW nor a setting, but counts and records: those of CAT, BND, BOOM, RTE, SCH and CRZ, SEM_FAULT,
HBM_ERR_LOG and ACL_FAULT (R437, R473). -/
def countReg (off : Nat) : Bool :=
  decide (off ∈ [0xC00030, 0xC00038, 0xC00040, 0xD00020, 0xE00010, 0xE00018, 0xE00020, 0xE00028, 0xF00020, 0x10000A8, 0x1100028, 0x502000,
    0x1600008, 0x1800200])

/-- Add one to a 48-bit counter register that wraps (SCH, RTE, BOOM, CAT and BND counts). -/
def bumpReg (s : State) (d : Die) (off : Nat) : State := setReg s d off ((regVal s d off + 1) % 2 ^ 48)

/-! ## Event counters (R267 to R276) -/

/-- PMC_CNT_i and PMC_CFG_i. -/
def pmcCnt (i : Nat) : Nat := 0x600000 + 8 * i
def pmcCfg (i : Nat) : Nat := 0x602000 + 8 * i

/-- Add to a counter: a wrap sets OVF, may ask for a sample (R272), and drives a chained counter (R270). -/
def pmcAdd : Nat → State → Die → Nat → Nat → State
  | 0, s, _, _, _ => s
  | f + 1, s, d, i, n =>
    let v := regVal s d (pmcCnt i) + n
    let s := setReg s d (pmcCnt i) (v % 2 ^ 48)
    if v < 2 ^ 48 then s
    else
      let c := regVal s d (pmcCfg i)
      let s := setReg s d (pmcCfg i) (setBits c 2 1 1)
      let smp := regVal s d 0x606008
      let s :=
        if !(bit c 1) then s
        else if bit smp 11 then setReg s d 0x606008 (setBits smp 24 8 (satInc 8 (bits smp 24 8)))
        else onCrz s d fun x => { x with wraps := x.wraps ++ [(i, s.now)] }
      if bit c 0 && decide (i < 767) then pmcAdd f s d (i + 1) 1 else s

/-- An event of die-local counter `i` occurs `n` times: not counted by a counter that a chain drives, nor in Standby. -/
def pmc (s : State) (d : Die) (i n : Nat) : State :=
  if n = 0 ∨ s.sys.mode = .standby ∨ (i ≠ 0 ∧ bit (regVal s d (pmcCfg (i - 1))) 0 = true) then s else pmcAdd 768 s d i n

/-- An event of a counter with a CONTEXT (R272): egress and channel, or pair and thread. -/
def pmcAt (s : State) (d : Die) (i n ctx : Nat) : State :=
  pmc (if n = 0 then s else onCrz s d fun x => { x with events := tset 0 x.events i ctx }) d i n

/-- CONTEXT of an event of an egress, by its number, and a channel; and of an engine thread. -/
def egCtx (eg chan : Nat) : Nat := eg % 128 + chan % 32 * 256
def engCtx (pair thread : Nat) : Nat := pair % 64 + thread % 4 * 64

/-- A counter of a host port: at 384 + 16 × port. -/
def pmcHost (s : State) (port e n : Nat) : State := pmc s (portDie port) (384 + 16 * (port % 4) + e) n

/-- What the device emits to a host counts as requests and 64-byte units. -/
def countOut (s : State) : Out → State
  | .hostWrite port _ _ b => pmcHost s port 5 ((b.length + 63) / 64)
  | .payloadWrite port _ _ b => pmcHost s port 5 ((b.length + 63) / 64)
  | .hostRead port _ _ n => pmcHost (pmcHost s port 3 1) port 4 ((n + 63) / 64)
  | _ => s

/-- Something the device emits. -/
def emit (s : State) (o : Out) : State :=
  let s := countOut s o
  { s with out := o :: s.out }

/-- Emit several things in order. -/
def emits (s : State) (l : List Out) : State := l.foldl emit s

/-! ## Identity and time -/

/-- The router number of a die: 2d on West, 2d + 1 on East (R14). -/
def routerOf (s : State) (d : Die) : Nat := 2 * s.ident.place + d.idx

/-- The router's Station Address with station field 0 (R12). -/
def routerAddr (s : State) (d : Die) : Nat := 1024 * s.ident.group + 16 * routerOf s d

/-- The router part of a Station Address: its address with station field 0. -/
def routerPart (a : Nat) : Nat := a / 16 * 16

/-- MGT_ROUTER_ADDR of a die (register map of 01). [log DEDUCED 206] -/
def routerAddrReg (s : State) (d : Die) : Nat :=
  if s.ident.valid then 2 ^ 31 + b2n s.ident.split * 2 ^ 30 + routerAddr s d else b2n s.ident.split * 2 ^ 30

/-- Both bridges are out of UP: the device is split (R307). -/
def splitNow (s : State) : Bool := s.ident.split

/-- The function and link of the management function. -/
def mgmtFn (s : State) : FnId := s.sys.mgmt

/-- The management function is in reset (R323, R324). -/
def mgmtInReset (s : State) : Bool := (fnOf s (mgmtFn s)).inReset || (fnOf s (mgmtFn s)).d3

/-- The mask bit of an MSI-X vector. -/
def vecMasked (s : State) (f : FnId) (v : Nat) : Bool := !((fnOf s f).unmasked.contains v)

/-- The number that stands for the management function where an instance's would stand (R240). -/
def mgmtWho : Nat := 1024

/-- The function of an instance, or the management function. -/
def whoFn (s : State) (i : Nat) : FnId := if i = mgmtWho then mgmtFn s else (inst s i).fn

/-! ## Units of the Lookout (R423) -/

/-- The fault state of a unit of a block (R422, R423); 0xFFFF is the whole block. -/
def unitOf (s : State) (d : Die) (b u : Nat) : FaultUnit := tget {} (die s d).lko.units (65536 * b + u)

/-- The block as a whole is in FAULT or HELD_FAILED. -/
def blockDown (s : State) (d : Die) (b : Nat) : Bool := decide ((unitOf s d b 0xFFFF).st ≠ .ok)

/-- A unit, or its whole block, is in FAULT or HELD_FAILED. -/
def unitDown (s : State) (d : Die) (b u : Nat) : Bool := decide ((unitOf s d b u).st ≠ .ok) || blockDown s d b

/-- The device is in Forensic (R427): no record, event, interrupt or host request but the Archive's. -/
def forensic (s : State) : Bool := decide (s.sys.mode = .forensic)

/-- A function issues no host request: it is in reset (R323), or the device is in Forensic. -/
def hostSilent (s : State) (i : Nat) : Bool :=
  (if i = mgmtWho then mgmtInReset s else decide ((inst s i).st = .resetting)) || forensic s

/-! ## Host memory -/

/-- HST_LINK_CFG.SCV32 of a host link: records go out as one 32-byte write (R52). -/
def scv32 (s : State) (port link : Nat) : Bool :=
  bit (regVal s (portDie port) (0x800000 + 0x20 * (port % 4) + 8 * link)) 0

/-- Write a 32-byte record to host memory: one write, or W0 to W2 and then W3 (R52). -/
def writeRecord (s : State) (port link addr rec : Nat) : State :=
  if scv32 s port link then emit s (.hostWrite port link addr (leBytes 32 rec))
  else emit (emit s (.hostWrite port link addr (leBytes 24 rec))) (.hostWrite port link (addr + 24) (leBytes 8 (rec / 2 ^ 192)))

/-! ## Interrupts: raising a source (R374, R376) -/

def src (s : State) (d : Die) (n : Nat) : Src := tget {} (die s d).eng.srcs n
def modSrc (s : State) (d : Die) (n : Nat) (f : Src → Src) : State :=
  onEng s d fun e => { e with srcs := tmod {} e.srcs n f }

/-- The effect of a raise on a source's state (R376). -/
def raised : SrcSt → SrcSt
  | .idle => .pending
  | .pending => .pending
  | .active => .activePending
  | .activePending => .activePending

/-- Sources that nothing raises: 2,047 (R374) and 1,936 to 1,983 (R476). -/
def neverRaised (n : Nat) : Bool := n == 2047 || (1936 ≤ n && n ≤ 1983) || n ≥ 2048

/-- Raise die-local source `n` of die `d`. In Standby only the always-on sources are powered (R380). -/
def raiseLocal (s : State) (d : Die) (n : Nat) : State :=
  if neverRaised n || (decide (s.sys.mode = .standby) && decide (n < 1984)) then s else modSrc s d n fun x => { x with st := raised x.st }

/-- Raise device source `n` (die × 2,048 + s) from die `d`: dropped across the bridges while the device is split (R374). -/
def raiseSource (s : State) (d : Die) (n : Nat) : State :=
  if splitNow s && decide (Die.ofCode (n / 2048) ≠ d) then s else raiseLocal s (Die.ofCode (n / 2048)) (n % 2048)

/-- Target j of a source: 32 bits of INT_SRC_TGT01_s or INT_SRC_TGT23_s. -/
def srcTgt (s : State) (d : Die) (n j : Nat) : Nat :=
  bits (regVal s d (0x400008 + 32 * n + 8 * (j / 2))) (32 * (j % 2)) 32

/-- The core of a core target. -/
def tgtCore (v : Nat) : Option Nat := if bit v 30 then some (bits v 0 1) else none

/-- A delivery to a core that waits to be claimed. -/
def coreWaits (s : State) (d : Die) (n : Nat) (x : Src) : Bool :=
  !x.claimed && (match x.cur with
    | some j => (tgtCore (srcTgt s d n j)).isSome
    | none => false)

/-- A source whose level is withdrawn or whose EN is cleared (R376). -/
def srcWithdrawn (s : State) (d : Die) (n : Nat) (x : Src) : Src :=
  match x.st with
  | .pending => { x with st := .idle }
  | .active => if coreWaits s d n x then { x with st := .idle, cur := none } else x
  | _ => x

/-- A level source reads its condition as a state: IDLE while it stands becomes PENDING (R376). [log DEDUCED 132] -/
def levelAgain (x : Src) : Src := if x.level ∧ x.st = .idle then { x with st := .pending } else x

/-- A level source's condition changes (R376, R476). -/
def setLevel (s : State) (d : Die) (n : Nat) (on : Bool) : State :=
  modSrc s d n fun x => if on then levelAgain { x with level := true } else srcWithdrawn s d n { x with level := false }

/-! ## Events (R327, R328) -/

/-- Fields of an event ring after one record is written or dropped: where it goes and with what LOST and phase. -/
def evtPush (r : EvtRing) (k : Nat) : Option (Nat × Nat × Bool) × EvtRing :=
  if r.written ≥ 2 ^ k then (none, { r with lost := satInc 16 r.lost })
  else
    (some (r.tail, r.lost, r.tailPhase),
     { r with tail := (r.tail + 1) % 2 ^ k
              tailPhase := if r.tail + 1 = 2 ^ k then !r.tailPhase else r.tailPhase
              written := r.written + 1, lost := 0 })

/-- The 32-byte event record: device time, data (bytes 8 to 23), CODE, LOST, SOURCE, PHASE. -/
def evtRecord (time data code lost source : Nat) (phase : Bool) : Nat :=
  time % 2 ^ 64 + data % 2 ^ 128 * 2 ^ 64 + code % 2 ^ 16 * 2 ^ 192 + lost % 2 ^ 16 * 2 ^ 208 + source % 2 ^ 20 * 2 ^ 224
    + b2n phase * 2 ^ 255

/-- Post an event to an instance's event ring (R327): dropped without a ring, and while the function is silent (R323). -/
def postInst (s : State) (i code data : Nat) : State :=
  let x := inst s i
  if x.evtBase = 0 ∨ x.st = .resetting ∨ x.st = .absent ∨ forensic s = true then s
  else
    match evtPush x.evt x.evtLog2 with
    | (none, e) => modInst s i fun x => { x with evt := e }
    | (some (pos, lost, ph), e) =>
      let fire := e.arm && x.evtIntEn
      let s := modInst s i fun x => { x with evt := { e with arm := e.arm && !fire } }
      let s := writeRecord s x.fn.port x.fn.link (x.evtBase + 32 * pos) (evtRecord s.time.ns data code lost 0 ph)
      if fire then raiseSource s (instDie s i) x.evtIntSource else s

/-- Write a record into a die's management event ring, or drop it into LOST (R328). -/
def mgmtRing (s : State) (d : Die) (time data code source : Nat) : State :=
  let cfg := regVal s d 0x308
  let x := (die s d).evt
  let put (e : EvtRing) (s : State) := onDie s d fun x => { x with evt := e }
  if bit cfg 31 = false ∨ mgmtInReset s = true ∨ forensic s = true then put { x with lost := satInc 16 x.lost } s
  else
    match evtPush x (bits cfg 0 5) with
    | (none, e) => put e s
    | (some (pos, lost, ph), e) =>
      let fire := e.arm && bit cfg 30
      let s := put { e with arm := e.arm && !fire } s
      let s := writeRecord s (mgmtFn s).port (mgmtFn s).link (bits (regVal s d 0x300) 12 52 * 4096 + 32 * pos)
        (evtRecord time data code lost source ph)
      if fire then raiseSource s d (bits cfg 12 12) else s

/-- The Flume fields of a packet on channel 16, read from its flits (R249). -/
def flumeBody : List Block → Body
  | h :: t =>
    let ft := fld h 16 0 3
    .flume { ftype := ft, form := fld h 16 3 2, relayPort := fld h 17 0 7, part := fld h 18 0 7, parts := fld h 19 0 7
             reqSeq := fld h 20 0 24, reqDie := fld h 23 0 1
             blk := if ft = 2 ∨ ft = 4 then BitVec.ofNat 512 (h.toNat / 2 ^ 256 * 2 ^ 256) else t.headD 0 }
  | [] => .raw []

/-- What a packet carries beyond its routing fields: read from its flits where it came over a link. -/
def bodyOf (p : Pkt) : Body :=
  match p.body with
  | .raw fs => if p.chan16 then flumeBody fs else Config.bodyOf fs
  | b => b

/-- The Flume fields of a packet. -/
def flumeOf (p : Pkt) : Option FlumePkt :=
  match bodyOf p with
  | .flume f => some f
  | _ => none

/-- A Flume packet of the die to a control endpoint (R249): single or two flits on channel 16. -/
def flumePkt (s : State) (d : Die) (dst : Nat) (f : FlumePkt) : Pkt :=
  { dst := dst, src := routerAddr s d, tc := 0, level := 0, leg := false, lhop := false, ord := false, start := false,
    viaGroup := 0, gwRouter := 0, gwPort := 0, len := if f.ftype = 2 ∨ f.ftype = 4 then 0 else 1, kind := 0, det := true, viaRouter := 0,
    rsv := 0, fseq := 0, chan16 := true, body := .flume f }

/-- Post an event of a die to the fabric manager (R328): its own ring, and forwarded when MGT_EVT_FWD.EN is 1. The
Archive keeps the last 4,096 (R430). -/
def postMgmt (s : State) (d : Die) (code data : Nat) : State :=
  let t := s.time.ns
  let s := onDie s d fun x => { x with evHist := (evtRecord t data code 0 0 false :: x.evHist).take 4096 }
  let s := mgmtRing s d t data code 0
  let fwd := regVal s d 0x318
  if bit fwd 31 && s.ident.valid && !(forensic s) then
    emit s (.toRoute d (flumePkt s d (bits fwd 0 20)
      { ftype := 4, form := 0, relayPort := 0, part := 0, parts := 0, reqSeq := 0, reqDie := d.idx,
        blk := BitVec.ofNat 512 (evtRecord t data code 0 0 false * 2 ^ 256) }))
  else s

/-- Post a whole-device event from each die (R328). -/
def postBoth (s : State) (code data : Nat) : State := postMgmt (postMgmt s .west code data) .east code data

/-- Event data: a number placed at byte `at_` of the record (R475), the data field starting at byte 8. -/
def evb (at_ v : Nat) : Nat := v * 2 ^ (8 * (at_ - 8))

/-! ## Instances: state changes are announced (R319, R475) -/

/-- CAP_ID.STATE codes. -/
def instStCode : InstSt → Nat
  | .absent => 0 | .configuring => 1 | .running => 2 | .quiescing => 3 | .quiesced => 4 | .resetting => 5

/-- Move an instance and post EV_INST_STATE with its cause. -/
def setInstSt (s : State) (i : Nat) (st : InstSt) (cause : Nat) : State :=
  let d := instDie s i
  postMgmt (modInst s i fun x => { x with st := st }) d 0x13 (evb 8 i + evb 10 (instStCode st) + evb 11 cause)

/-! ## Completion rings (R88 to R94) -/

/-- The free slots of a completion ring (R90). -/
def cqFree (q : CqRing) : Nat := 2 ^ q.log2 - (q.haltHeld + q.reserved + q.written)

/-- The function that a completion ring's records go to is silent: its instance is RESETTING (R323), or the management
function is in reset (R324). -/
def cqSilent (s : State) (d : Die) (m : Nat) : Bool :=
  if forensic s then true else if m = 0 then mgmtInReset s else decide ((inst s (cqRing s d m).inst).st = .resetting)

/-- The host link of a completion ring's or command ring's owner. -/
def ringLink (s : State) (ringNo instNo : Nat) : Nat × Nat :=
  if ringNo = 0 then ((mgmtFn s).port, (mgmtFn s).link) else ((inst s instNo).fn.port, (inst s instNo).fn.link)

/-- A completion record without its PHASE (R51). -/
def completionRecord (cookie bytes failIdx sub code result seq ring station : Nat) : Nat :=
  cookie % 2 ^ 64 + (bytes % 2 ^ 40 + failIdx % 2 ^ 5 * 2 ^ 40 + sub % 2 ^ 8 * 2 ^ 48 + code % 2 ^ 8 * 2 ^ 56) * 2 ^ 64
    + result % 2 ^ 64 * 2 ^ 128 + (seq % 2 ^ 24 + ring % 2 ^ 14 * 2 ^ 24 + station % 2 ^ 20 * 2 ^ 38) * 2 ^ 192

/-- Write a record at TAIL with TAIL_PHASE and advance (R88); an armed interrupt fires on it (R94). [log DEDUCED 39] -/
def cqWrite (s : State) (d : Die) (m rec : Nat) : State :=
  let q := cqRing s d m
  let fire := q.arm && q.intEn
  let s' := modCq s d m fun q =>
    { q with tail := (q.tail + 1) % 2 ^ q.log2
             tailPhase := if q.tail + 1 = 2 ^ q.log2 then !q.tailPhase else q.tailPhase
             written := q.written + 1, arm := q.arm && !fire }
  let lk := ringLink s m q.inst
  let s' := pmcHost s' lk.1 2 1
  let s' := writeRecord s' lk.1 lk.2 (q.base + 32 * q.tail) (rec + b2n q.tailPhase * 2 ^ 255)
  if fire then raiseSource s' d q.intSource else s'

/-- Write a record into a reserved slot (R92), or discard it while its function is silent (R323). -/
def postRecord (s : State) (d : Die) (m rec : Nat) : State :=
  let silent := cqSilent s d m
  let s := modCq s d m fun q => { q with reserved := q.reserved - 1 }
  if silent || !(cqRing s d m).configured then s else cqWrite s d m rec

/-! ## Tallies and triggers (R62, R64, R137 to R140) -/

/-- The Tally fires its triggers: value at least THRESHOLD, not saturated (R62). -/
def trigFires (t : Tally) (g : Trig) : Bool := !t.sat && decide (t.val ≥ g.threshold)

/-- Evaluate the triggers armed on a Tally: each eligible one sends its deferred command to dispatch, in arming order. -/
def fireTriggers (s : State) (n : Nat) : State :=
  let t := tally s n
  let hits := (die s (tallyDie n)).trigs.filter fun g => decide (g.tally = n) && trigFires t g
  let s := onDie s (tallyDie n) fun x => { x with trigs := x.trigs.filter fun g => !(decide (g.tally = n) && trigFires t g) }
  hits.foldl (fun s g => modOp s g.op fun o => { o with phase := .ready, deferred := true, since := s.now }) s

/-- The instance that holds a Tally, if any. -/
def tallyOwner (s : State) (n : Nat) : Option Nat :=
  (s.insts.find? fun (_, x) => x.tallies.any fun (f, c) => decide (f ≤ n ∧ n < f + c)).map (·.1)

/-- Increment a Tally (R138, R139): the new state, and whether the increment was refused by saturation. -/
def tallyInc (s : State) (n : Nat) : State × Bool :=
  let t := tally s n
  if t.sat then (s, true)
  else if t.val + 1 ≥ 2 ^ 48 then
    let s := setTally s n { t with sat := true }
    (match tallyOwner s n with
     | some i => postInst s i 0x23 (evb 8 n)
     | none => s, true)
  else (fireTriggers (setTally s n { t with val := t.val + 1 }) n, false)

/-! ## Completing an operation -/

/-- The `none` value of a Tally field in a command body (R137). -/
def noTally : Nat := 0xFFFFFF

/-- The command-ring status word (R85). -/
def ringStCode : RingSt → Nat
  | .reset => 0 | .idle => 1 | .active => 2 | .paused => 3 | .halted => 4

def cmdStatus (r : CmdRing) : Nat :=
  r.consIdx + b2n r.consPhase * 2 ^ 20 + ringStCode r.st * 2 ^ 21 + r.consSeq * 2 ^ 24 + r.haltCause * 2 ^ 48
    + b2n r.dbLatched * 2 ^ 52 + b2n r.configured * 2 ^ 53

/-- LOCAL_TALLY of a command's block: bytes 52 to 54 of the opcodes that have the field (R37, R42, R43), none for others. -/
def localTally (b : Block) : Nat :=
  let op := fld b 0 0 8
  if op ∈ [0x01, 0x03, 0x04, 0x05, 0x06, 0x20, 0x22, 0x40, 0x41, 0x42, 0x43, 0x44] then fld b 52 0 24 else noTally

/-- The command block that the operation runs: the deferred one for a fired trigger (R62). -/
def opBlk (o : Op) : Block := if o.deferred then (o.chain.headD 0) else o.blk
/-- The extension blocks of the command the operation runs. -/
def opChain (o : Op) : List Block := if o.deferred then o.chain.tail else o.chain
def opcode (o : Op) : Nat := fld (opBlk o) 0 0 8

/-- The operation waits before or at check 5: it holds its ring's dispatch (R56, R165, R184). -/
def opWaits : Phase → Bool
  | .fetching .. => true
  | .waitTrig => true
  | .waitCache => true
  | .waitSlots => true
  | .waitMaxOps => true
  | .waitCtx => true
  | .waitPosted => true
  | .waitFlume => true
  | .waitColl => true
  | .waitAtomics => true
  | .waitRdv => true
  | _ => false

/-- PUT, GATHER, SCATTER and ZERO: the long commands (R67). -/
def isLong (op : Nat) : Bool := op == 0x01 || op == 0x04 || op == 0x05 || op == 0x06

/-- Free the engine thread that runs an operation. -/
def freeThread (s : State) (o : Nat) : State :=
  let x := opOf s o
  match x.thread with
  | none => s
  | some (p, t) =>
    let s := onEng s x.die fun e => { e with pairs := tmod {} e.pairs p fun q => { q with threads := setAt q.threads t none } }
    modOp s o fun x => { x with thread := none }

/-- The outcome of a command. -/
structure Outcome where
  code : Nat
  sub : Nat := 0
  bytes : Nat := 0
  failIdx : Nat := 0x1F
  result : Nat := 0
  station : Nat := 0
deriving DecidableEq, Repr

/-- The ring that a command's record names (R51): instance-relative, 0 for a management ring, 0x3FFF for the mailbox. -/
def recordRing (s : State) (o : Op) : Nat :=
  match o.iss with
  | .ring d n => if n = 0 then 0 else (cmdRing s d n).instRing
  | .mailbox => 0x3FFF
  | .flume .. => 0

/-- The ring's next command carries a fence (R58). -/
def headFenced (r : CmdRing) : Bool :=
  match r.queue with
  | e :: _ => decide (1 ≤ fld e.blk 0 10 2 ∧ fld e.blk 0 10 2 ≤ 2)
  | [] => false

/-- Remove a finished operation from everything that counts it: its ring's fence memory (R58), its connection, its
thread, its armed trigger, its context. [log DEDUCED 19] -/
def retireOp (s : State) (o code : Nat) : State :=
  let x := opOf s o
  let s := match x.iss with
    | .ring d n => modCmdRing s d n fun r =>
        let left := without r.outstanding o
        { r with outstanding := left
                 bad := r.bad || (decide (o ∈ r.outstanding) && !(code == 0x00 || code == 0x0C))
                 readyAt := if left = [] ∧ r.outstanding ≠ [] ∧ headFenced r = true then some s.now else r.readyAt }
    | _ => s
  let s := match x.conn with
    | some c => modConn s x.die c fun k =>
        { k with ops := without k.ops o, rdv := without k.rdv o
                 longOp := if k.longOp = some o then none else k.longOp }
    | none => s
  let s := onDie s x.die fun y => { y with trigs := y.trigs.filter fun g => decide (g.op ≠ o) }
  let s := match x.inst with
    | some i =>
      if opcode x = 0x22 then
        modCtx s x.die i (fld (opBlk x) 48 0 16) fun y =>
          { y with posted := y.posted.filter fun r => decide (r.op ≠ o), matched := y.matched.filter fun m => decide (m.op ≠ o) }
      else s
    | none => s
  delOp (freeThread s o) o

/-- Deliver a command's outcome where it came from (R51, R45, R350): a completion record, MBX_RESULT, or a Flume answer. -/
def deliver (s : State) (x : Op) (rec : Nat) : State :=
  match x.iss with
  | .ring d _ => postRecord s d x.cq rec
  | .mailbox => { s with mbx := { s.mbx with resultDue := some (BitVec.ofNat 256 rec) } }
  | .flume d sr rd rq =>
    let via := ((die s d).sch.flumeReqs.find? fun r => decide (r.src = sr ∧ r.reqDie = rd ∧ r.reqSeq = rq)).bind (·.via)
    let s := onSch s d fun q =>
      { q with flumeReqs := q.flumeReqs.filter fun r => !(decide (r.src = sr ∧ r.reqDie = rd ∧ r.reqSeq = rq))
               flumeAns := ({ src := sr, reqDie := rd, reqSeq := rq, answer := BitVec.ofNat 512 rec, at_ := s.now } : FlumeAns) ::
                              q.flumeAns.take 262143 }
    emit s (.toRoute d (flumePkt s d sr
      { ftype := 2, form := if via.isSome then 2 else 0, relayPort := via.getD 0, part := 0, parts := 0, reqSeq := rq, reqDie := rd
        blk := BitVec.ofNat 512 (rec * 2 ^ 256) }))

/-- Complete an operation with its final outcome (R57, R63, R138): the local Tally first on success, then exactly one
record, then everything that counted it is released. -/
def completeOp (s : State) (o : Nat) (r : Outcome) : State :=
  let x := opOf s o
  let lt := localTally (opBlk x)
  let (s, sat) :=
    if (r.code = 0x00 ∨ r.code = 0x0C) ∧ lt ≠ noTally then tallyInc s lt else (s, false)
  let code := if r.code = 0x00 ∧ (sat = true ∨ x.remoteSat = true) then 0x0C else r.code
  let rec_ := completionRecord x.cookie r.bytes r.failIdx r.sub code r.result x.seq (recordRing s x) r.station
  let s := deliver s x rec_
  retireOp s o code

/-- Complete with a code and sub-cause and nothing else. -/
def failOp (s : State) (o code sub : Nat) : State := completeOp s o { code := code, sub := sub }

/-- Times within the last `span` ns. -/
def recent (s : State) (span : Nat) (l : List Nat) : List Nat := l.filter fun t => decide (s.now < t + span)

/-! ## Error records (R416) -/

def errRec (s : State) (d : Die) (b : Nat) : ErrRec := tget {} (die s d).lko.errs b
def modErr (s : State) (d : Die) (b : Nat) (f : ErrRec → ErrRec) : State := onLko s d fun l => { l with errs := tmod {} l.errs b f }
def modUnit (s : State) (d : Die) (b u : Nat) (f : FaultUnit → FaultUnit) : State :=
  onLko s d fun l => { l with units := tmod {} l.units (65536 * b + u) f }

/-- Classes, coded 1 to 4. -/
def classCode : FaultClass → Nat
  | .corrected => 1 | .deferred => 2 | .blockFatal => 3 | .deviceFatal => 4

/-- STATE of a unit. -/
def unitStCode : UnitSt → Nat
  | .ok => 0 | .fault => 1 | .heldFailed => 2

/-- ERR_STATUS of a block (register map of 14). -/
def errStatus (s : State) (d : Die) (b : Nat) : Nat :=
  let e := errRec s d b
  let u := unitOf s d b e.unit
  b2n e.pending * 2 ^ 63 + e.cls * 2 ^ 60 + min 255 (recent s 10000000000 u.recoveries).length * 2 ^ 52 + unitStCode u.st * 2 ^ 50
    + e.corrCount * 2 ^ 32 + e.code * 2 ^ 16 + e.unit

/-- The level source of a block's PENDING while the collector is armed (R476). -/
def errLevel (s : State) (d : Die) (b : Nat) : State := setLevel s d (1792 + b) ((errRec s d b).pending && s.sys.armed)

/-- A record that a fault of class `c` leaves as it is. -/
def keepsRec (e : ErrRec) (c : FaultClass) : Bool := e.pending && decide (e.cls ≥ classCode c)

/-- A record is made: the most severe class since PENDING was last cleared, the first of equals (R416). -/
def recordErr (s : State) (d : Die) (b u : Nat) (c : FaultClass) (code : Nat) : State :=
  errLevel (modErr s d b fun e =>
    let e := if c = .corrected then { e with corrCount := satInc 16 e.corrCount } else e
    if keepsRec e c then e else { e with pending := true, cls := classCode c, code := code, unit := u }) d b

/-- A log entry: the record as collected, with device time in µs in the places of RECOVERIES and CORR_COUNT (LKO_LOG_VIEW). -/
def logErr (s : State) (d : Die) (b : Nat) : State :=
  let us := s.time.ns / 1000 % 2 ^ 24
  let r := errStatus s d b % 2 ^ 63
  let r := setBits (setBits r 52 8 (us / 65536)) 32 16 (us % 65536)
  onLko s d fun l => { l with log := (({ blk := b, record := r } : LogEnt) :: l.log).take 1024 }

/-- The Lookout acts on reports: armed, in Service, Degraded or Drain. -/
def collecting (s : State) : Bool := s.sys.armed && decide (s.sys.mode = .service ∨ s.sys.mode = .degraded ∨ s.sys.mode = .drain)

/-- A unit of the block is in recovery: the collector does not act for it. -/
def recovering (s : State) (d : Die) (b : Nat) : Bool :=
  (die s d).lko.units.any fun (k, u) => decide (k / 65536 = b ∧ u.st = .fault)

/-- A block raises ERR_CTL.INT_SOURCE on a new record while the collector does not act for it (R419). -/
def ownInt (s : State) (d : Die) (b : Nat) (new : Bool) : State :=
  let ctl := regVal s d (b * 0x100000 + 0xFFF08)
  if new && bit ctl 31 then raiseSource s d (bits ctl 0 12) else s

/-- A DEFERRED fault of a block: recorded, and where the Lookout collects, logged and cleared (R417, R420). -/
def noteDeferred (s : State) (d : Die) (b u code : Nat) : State :=
  let new := !(keepsRec (errRec s d b) .deferred)
  let s := recordErr s d b u .deferred code
  if collecting s && !(recovering s d b) then
    let s := logErr s d b
    errLevel (modErr s d b fun e => { e with pending := false }) d b
  else ownInt s d b new

/-- EV_DEFERRED with HBM_ERR_LOG as recorded (R420). -/
def tellDeferred (s : State) (d : Die) : State := postMgmt s d 0x06 (evb 8 (regVal s d 0x1600008) + evb 18 (2 * d.idx))

/-- A block reads cells of the packet buffer on behalf of `reader` (none: the device): cells of another owner answer with poison,
a DEFERRED fault of the reading block (R348). [log DESIGN CHOICE 205] -/
def cellRead (s : State) (d : Die) (b : Nat) (owner reader : Option Nat) : Bool × State :=
  if owner = reader then (true, s)
  else
    let r := takeFree s
    let s := noteDeferred r.2 d b 0xFFFF (r.1.toNat % 65536)
    (false, if collecting s && !(recovering s d b) then tellDeferred s d else s)

/-! ## Keys of the data at rest (R346, R347) -/

/-- The key of an instance in its die's key store; 0: none. -/
def keyOf (s : State) (d : Die) (i : Nat) : Nat := tget 0 (die s d).keys i

/-- Data sealed under a key opens under the instance's present key only; under another its integrity check fails. -/
def opens (s : State) (d : Die) (i key : Nat) : Bool := decide (keyOf s d i = key)

end Sys2Proof.Machine
end

