-- ==== Sys2Proof/Machine/Flits.lean ====
section
/-! DEFINITION. Flits: the header flit and payload of a packet (R205, R249), and the link flits with the layouts of their
contents (R259, R287, R392, R398, R302). -/

namespace Sys2Proof.Machine

open Sys2Proof

/-! ## Packets on the wire (R205, R249, R289) -/

/-- The routing fields of a header flit, bytes 0 to 15 (R205). -/
def routingBits (p : Pkt) : Nat :=
  (p.dst + p.src * 2 ^ 20 + p.tc * 2 ^ 40 + p.level * 2 ^ 42 + b2n p.leg * 2 ^ 44 + b2n p.lhop * 2 ^ 45 + b2n p.ord * 2 ^ 46
    + b2n p.start * 2 ^ 47 + p.viaGroup * 2 ^ 48 + p.gwRouter * 2 ^ 58)
    + (p.gwPort + p.len * 2 ^ 7 + p.kind * 2 ^ 14 + b2n p.det * 2 ^ 16 + p.viaRouter * 2 ^ 17 + p.rsv * 2 ^ 23 + p.fseq * 2 ^ 32) * 2 ^ 64

/-- The Flume fields, bytes 16 to 31 (R249). -/
def flumeBits (f : FlumePkt) : Nat :=
  f.ftype + f.form * 8 + f.relayPort * 2 ^ 8 + f.part * 2 ^ 16 + f.parts * 2 ^ 24 + f.reqSeq * 2 ^ 32 + f.reqDie * 2 ^ 56

/-- The payload bytes of a packet body; an acknowledgement's as R130 lays it out. -/
def bodyPayload : Body → List Byte
  | .req r => (match r.op with
    | .write _ _ _ _ (some d) _ _ => d
    | .msg _ _ _ d => d
    | .more d => d
    | _ => [])
  | .ack a => leBytes 4 a.cum.toNat ++ leBytes 4 a.vis.toNat ++ leBytes 16 a.sack.toNat ++ leBytes 8 a.echo
  | .resp r => r.data
  | .flume f => leBytes 64 f.blk.toNat
  | _ => []

/-- The fields of a packet body that ride in the transport header. -/
def bodyFields : Body → List Nat
  | .req r => [r.conn, r.peer, r.srcInst, r.dstInst, r.psn.toNat, b2n r.first, b2n r.last, b2n r.retx, b2n r.mgmt, r.txTime]
  | .ack a => [a.conn, a.peer]
  | .resp r => [r.conn, r.inst, r.handle, r.off]
  | .ctl c => [c.conn, c.station, c.peerConn, c.inst, c.remoteInst, c.remoteStation, c.tc, c.mtu]
  | .notice s t => [s, t]
  | _ => []

/-- Cut bytes into flits. -/
def cutFlits : Nat → List Byte → List Block
  | 0, _ => []
  | n + 1, l => if l.isEmpty then [] else BitVec.ofNat 512 (leNat (l.take 64)) :: cutFlits n (l.drop 64)

/-- The flits of a packet: the header flit with up to 32 bytes of payload, or whole flits after it. -/
def pktFlits (p : Pkt) : List Block :=
  match p.body with
  | .raw (h :: t) => BitVec.ofNat 512 (h.toNat / 2 ^ 128 * 2 ^ 128 + routingBits p) :: t
  | .flume f =>
    if f.ftype = 2 ∨ f.ftype = 4 then [BitVec.ofNat 512 (routingBits p + flumeBits f * 2 ^ 128 + f.blk.toNat / 2 ^ 256 * 2 ^ 256)]
    else [BitVec.ofNat 512 (routingBits p + flumeBits f * 2 ^ 128), f.blk]
  | b =>
    let head := routingBits p + (Config.transportBytes (bodyFields b)).toNat * 2 ^ 128
    let data := bodyPayload b
    if data.length ≤ 32 then [BitVec.ofNat 512 (head + leNat data * 2 ^ 256)]
    else BitVec.ofNat 512 head :: cutFlits 64 data

/-- Read the routing fields of a header flit; the body stays raw. -/
def flitsPkt (chan16 : Bool) (flits : List Block) : Pkt :=
  let w := (flits.headD 0).toNat
  { dst := bits w 0 20, src := bits w 20 20, tc := bits w 40 2, level := bits w 42 2, leg := bit w 44, lhop := bit w 45
    ord := bit w 46, start := bit w 47, viaGroup := bits w 48 10, gwRouter := bits w 58 6, gwPort := bits w 64 7, len := bits w 71 7
    kind := bits w 78 2, det := bit w 80, viaRouter := bits w 81 6, rsv := bits w 87 9, fseq := bits w 96 32, chan16 := chan16
    body := .raw flits }

/-! ## Link flits (R287) -/

/-- A link flit of a type with its content, given as a number from byte 1 on. -/
def linkFlit (ty content : Nat) : Block := BitVec.ofNat 512 (ty + content * 2 ^ 8)

def flitType (b : Block) : Nat := fld b 0 0 8

/-- SELECT and ABORT of a channel, and ONOFF with the channels that are OFF. -/
def selectFlit (c : Nat) : Block := linkFlit 0x01 c
def abortFlit (c : Nat) : Block := linkFlit 0x07 c
def onoffFlit (mask : Nat) : Block := linkFlit 0x06 mask

/-- IDENT. -/
def identFlit (m : Ident) : Block :=
  linkFlit 0x02 (m.addr % 2 ^ 20 * 2 ^ 24 + m.port % 128 * 2 ^ 56
    + (m.rate % 4 + b2n m.split * 4 + b2n m.forerunner * 8 + b2n m.upper * 16) * 2 ^ 64 + m.credit % 2 ^ 16 * 2 ^ 72
    + m.txTs % 2 ^ 64 * 2 ^ 120 + m.echoTs % 2 ^ 64 * 2 ^ 184 + m.hold % 2 ^ 32 * 2 ^ 248)

def readIdent (b : Block) : Ident :=
  { addr := fld b 4 0 20, port := fld b 8 0 7, rate := fld b 9 0 2, split := bit (fld b 9 0 8) 2, forerunner := bit (fld b 9 0 8) 3
    upper := bit (fld b 9 0 8) 4, credit := fld b 10 0 16, txTs := fld b 16 0 64, echoTs := fld b 24 0 64, hold := fld b 32 0 32 }

/-- SHELF (R392). -/
def shelfFlit (m : ShelfFlit) : Block :=
  linkFlit 0x04 (m.dom % 8 + b2n m.pending * 8 + m.epoch % 2 ^ 32 * 2 ^ 24 + m.digest % 2 ^ 64 * 2 ^ 56 + m.tag % 2 ^ 64 * 2 ^ 120
    + m.actTime % 2 ^ 64 * 2 ^ 184 + m.pendEpoch % 2 ^ 32 * 2 ^ 248)

def readShelf (b : Block) : ShelfFlit :=
  { dom := fld b 1 0 3, pending := bit (fld b 1 0 8) 3, epoch := fld b 4 0 32, digest := fld b 8 0 64, tag := fld b 16 0 64
    actTime := fld b 24 0 64, pendEpoch := fld b 32 0 32 }

/-- TIME (R398). -/
def timeFlit (m : TimeFlit) : Block :=
  linkFlit 0x05 (m.st % 4 + b2n m.set * 4 + m.stratum % 16 * 16 + m.gm % 2 ^ 20 * 2 ^ 24 + m.tTx % 2 ^ 64 * 2 ^ 56
    + m.tEcho % 2 ^ 64 * 2 ^ 120 + m.tRx % 2 ^ 64 * 2 ^ 184 + min (2 ^ 32 - 1) m.estErr * 2 ^ 248)

def readTime (b : Block) (arrival : Nat) (retx : Bool) : TimeFlit :=
  { st := fld b 1 0 2, set := bit (fld b 1 0 8) 2, stratum := fld b 1 4 4, gm := fld b 4 0 20, tTx := fld b 8 0 64, tEcho := fld b 16 0 64
    tRx := fld b 24 0 64, estErr := fld b 32 0 32, arrival := arrival, retx := retx }

/-- A waiting flit as it is sent: an IDENT and a TIME flit carry the time at which their frame starts (R287, R398). -/
def stampFlit (now seenAt ns : Nat) (b : Block) : Block :=
  if flitType b = 0x02 then BitVec.ofNat 512 (setBits (setBits b.toNat 128 64 now) 256 32 (now - seenAt))
  else if flitType b = 0x05 then BitVec.ofNat 512 (setBits b.toNat 64 64 ns)
  else b

/-! ## Neighbour summaries on the wire (R259) -/

/-- The 8-byte header of a summary, and a 6-byte entry. -/
def sumHeader (m : Summary) : Nat :=
  m.router % 2 ^ 20 + b2n m.northUp * 2 ^ 20 + b2n m.southUp * 2 ^ 21 + b2n m.split * 2 ^ 22 + m.entries.length % 256 * 2 ^ 23
    + m.seq % 256 * 2 ^ 32
def sumEntryBits (e : SumEntry) : Nat :=
  e.port % 128 + e.die % 2 * 2 ^ 7 + e.st % 4 * 2 ^ 8
    + (e.occ.getD 0 0 % 256 + e.occ.getD 1 0 % 256 * 2 ^ 8 + e.occ.getD 2 0 % 256 * 2 ^ 16 + e.occ.getD 3 0 % 256 * 2 ^ 24) * 2 ^ 16

def summaryBytes (m : Summary) : List Byte := leBytes 8 (sumHeader m) ++ m.entries.flatMap fun e => leBytes 6 (sumEntryBits e)

def readEntry (v : Nat) : SumEntry :=
  { port := bits v 0 7, die := bits v 7 1, st := bits v 8 2, occ := [bits v 16 8, bits v 24 8, bits v 32 8, bits v 40 8] }

def readSummary (l : List Byte) : Summary :=
  let h := leNat (l.take 8)
  { router := bits h 0 20, northUp := bit h 20, southUp := bit h 21, split := bit h 22, seq := bits h 32 8
    entries := (List.range (bits h 23 8)).map fun i => readEntry (leNat ((l.drop (8 + 6 * i)).take 6)) }

/-- The SUMMARY flits of a summary: 62 bytes each, with the part and the last part. -/
def summaryFlits (m : Summary) : List Block :=
  let l := summaryBytes m
  let n := (l.length + 61) / 62
  (List.range n).map fun i => linkFlit 0x03 (i % 16 + (n - 1) % 16 * 16 + leNat ((l.drop (62 * i)).take 62) * 2 ^ 8)

/-- The bytes that SUMMARY flits carry. -/
def summaryOf (l : List Block) : Summary := readSummary (l.flatMap fun b => blkBytes b 2 62)

end Sys2Proof.Machine
end

