-- ==== Sys2Proof/Machine/Xlt.lean ====
section
/-! DEFINITION. Translation of instance addresses (R329 to R339): windows, remote keys, extension-table walks, ATS, the
TLB, and host reads and writes on an instance's link. -/

namespace Sys2Proof.Machine

open Sys2Proof

/-- What an access needs of its window (R331). -/
inductive Acc where
  | lr | lw | rr | rw
deriving DecidableEq, Repr

/-- The access writes. -/
def accWrites : Acc → Bool
  | .lw => true
  | .rw => true
  | _ => false

/-- The window grants the permission. -/
def winGrants (w : Win) : Acc → Bool
  | .lr => w.lr
  | .lw => w.lw
  | .rr => w.rr
  | .rw => w.rw

/-- A range lies in a valid window. -/
def winHolds (w : Win) (a len : Nat) : Bool :=
  w.valid && decide (w.base ≤ a ∧ a + len ≤ w.base + w.size * 65536)

/-- The window of an instance that holds the whole range (at most one, R330). [log DEDUCED 61] -/
def winHolding (x : Inst) (a len : Nat) : Option (Nat × Win) :=
  x.wins.find? fun (_, w) => winHolds w a len

/-- The remote key of a window: instance [31:22], window [21:17], nonce [16:0]; 0 while invalid or without RR and RW. -/
def rkeyOf (i w : Nat) (x : Win) : Nat :=
  if x.valid && (x.rr || x.rw) then i * 2 ^ 22 + w * 2 ^ 17 + x.nonce else 0

/-- The outcome of translating one address: the bus address, a completion code, or a walk that it needs first. -/
inductive Xl where
  | ok (bus : Nat)
  | fail (code : Nat)
  | walk (w : Walk)
deriving DecidableEq, Repr

/-- A bus address lies in an enabled device aperture of a host port (R336). -/
def inAperture (s : State) (port a : Nat) : Bool :=
  (List.range 16).any fun i =>
    let d := portDie port
    let base := regVal s d (0x801000 + 0x100 * (port % 4) + 16 * i)
    let last := regVal s d (0x801008 + 0x100 * (port % 4) + 16 * i)
    bit base 0 && decide (bits base 12 52 ≤ a / 4096 ∧ a / 4096 ≤ bits last 12 52)

/-- log2 of the page size of a window. -/
def pageShift (w : Win) : Nat := if w.page2m then 21 else 16

/-- Find a translation, of a page or an ATS answer. -/
def tlbFind (l : List TlbEnt) (i w page : Nat) (ats : Bool) : Option TlbEnt :=
  l.find? fun e => decide (e.inst = i ∧ e.win = w ∧ e.page = page) && (e.ats.isSome == ats)

/-- The ATS stage (R337): the data page's bus address is translated when the window and the function say so. -/
def atsStage (s : State) (l : List TlbEnt) (i w : Nat) (x : Win) (wr : Bool) (own : WalkFor) (off bus : Nat) : Xl :=
  if x.ats && (fnOf s (inst s i).fn).atsEn then
    match tlbFind l i w (off / 65536) true with
    | some e =>
      match e.ats with
      | some (r, wok) => if e.fault ≠ 0 then .fail e.fault else if (wr && !wok) || (!wr && !r) then .fail 0x04 else .ok (e.bus + off % 65536)
      | none => .fail 0x04
    | none => .walk { inst := i, win := w, page := off / 65536, level := 3, addr := bus / 65536 * 65536, e1 := 0,
                      wr := wr, owner := own, stale := false, snap := x }
  else .ok bus

/-- Translate one address of window `w` of instance `i` (xlt_page of R335). -/
def xltPage (s : State) (extra : List TlbEnt) (i w : Nat) (x : Win) (wr : Bool) (own : WalkFor) (a : Nat) : Xl :=
  let l := extra ++ (die s (instDie s i)).hst.tlb
  let off := a - x.base
  if !x.tabled then atsStage s l i w x wr own off (x.target + off)
  else
    let ps := pageShift x
    match tlbFind l i w (off / 2 ^ ps) false with
    | some e =>
      if e.fault ≠ 0 then .fail e.fault
      else if wr && e.noWrite then .fail 0x06
      else atsStage s l i w x wr own off (e.bus + off % 2 ^ ps)
    | none =>
      let a1 := x.target + 8 * (off / 2 ^ (ps + 13))
      if inAperture s (inst s i).fn.port a1 then .fail 0x05
      else .walk { inst := i, win := w, page := off / 2 ^ ps, level := 1, addr := a1, e1 := 0, wr := wr, owner := own,
                   stale := false, snap := x }

/-- The outcome of translating a range: its pieces of bus address and length, a code, or a walk. -/
inductive XlRange where
  | ok (pieces : List (Nat × Nat))
  | fail (code : Nat)
  | walk (w : Walk)
deriving DecidableEq, Repr

/-- Translate a range inside window `w` page by page; the first failure decides (R335). `fuel` bounds the pages. -/
def xltPieces (s : State) (extra : List TlbEnt) (i w : Nat) (x : Win) (wr : Bool) (own : WalkFor) : Nat → Nat → Nat → XlRange
  | 0, _, _ => .ok []
  | fuel + 1, a, len =>
    if len = 0 then .ok []
    else
      match xltPage s extra i w x wr own a with
      | .fail c => .fail c
      | .walk k => .walk k
      | .ok bus =>
        let page := if x.tabled && !x.ats then 2 ^ pageShift x else 65536
        let n := if x.tabled || x.ats then min len (page - (a - x.base) % page) else len
        match xltPieces s extra i w x wr own fuel (a + n) (len - n) with
        | .ok ps => .ok ((bus, n) :: ps)
        | r => r

/-- The old window under which an access goes on whose walk outlived it (R333). -/
def oldWin (extra : List TlbEnt) (i : Nat) : Option (Nat × Win) :=
  extra.findSome? fun e => if e.inst = i then e.snap.map fun x => (e.win, x) else none

/-- Translate a local range of an instance: a range of length 0 is not translated; one that no single window holds, or
whose window lacks the permission, is CC_ACCESS (R335). The management function's addresses are host bus addresses (R47). -/
def xltRange (s : State) (extra : List TlbEnt) (i : Nat) (acc : Acc) (own : WalkFor) (a len : Nat) : XlRange :=
  if len = 0 then .ok []
  else if i = mgmtWho then .ok [(a, len)]
  else
    match (oldWin extra i).orElse fun _ => winHolding (inst s i) a len with
    | none => .fail 0x06
    | some (w, x) =>
      if winGrants x acc then xltPieces s extra i w x (accWrites acc) own (len / 65536 + 2) a len else .fail 0x06

/-! ## Host reads and their tags (R254, R311, R312) -/

/-- Reads that hold a tag of a host port. -/
def readsOn (s : State) (port : Nat) : List HostRead := s.reads.filter fun r => r.issued && decide (r.port = port)

/-- A tag is free: the port has 3,200, and 64 of them serve the management function only. -/
def tagRoom (s : State) (port : Nat) (mgmt : Bool) : Bool :=
  let l := readsOn s port
  decide (l.length < 3200) && (mgmt || decide ((l.filter fun r => decide (r.who ≠ mgmtWho)).length < 3136))

/-- The read takes a tag and goes out; MGMT_RESERVE counts one that the reserve serves. -/
def sendRead (s : State) (r : HostRead) : State :=
  let s := if r.who = mgmtWho ∧ (readsOn s r.port).length ≥ 3136 then pmcHost s r.port 7 1 else s
  emit { s with reads := s.reads.map fun q => if q.no = r.no then { q with issued := true, at_ := s.now } else q } (.hostRead r.port r.link r.addr r.len)

/-- Waiting reads go out while tags are free: the management function's before the others, each in order. An ATS invalidation is
answered once no access issued with the entries it removed is outstanding (R337). -/
def issueWaiting (s : State) : State :=
  let waits (m : Bool) : List HostRead := s.reads.filter fun r => !r.issued && (decide (r.who = mgmtWho) == m)
  let s := (waits true ++ waits false).foldl (fun s r => if tagRoom s r.port (decide (r.who = mgmtWho)) then sendRead s r else s) s
  let done (f : FnId) : Bool := !(s.reads.any fun r => r.inv && decide (whoFn s r.who = f))
  emits { s with atsInvs := s.atsInvs.filter fun f => !(done f) } ((s.atsInvs.filter done).map .atsInvDone)

/-- Ask for host reads on a function's link; nothing while the function is silent (R323). -/
def askRead (s : State) (o : ReadOwner) (who : Nat) (win : Option Nat) (old ats : Bool) (addr len : Nat) : State :=
  if hostSilent s who then s
  else
    let f := whoFn s who
    issueWaiting { s with
      nextRead := s.nextRead + 1
      reads := s.reads ++ [{ no := s.nextRead, owner := o, who := who, port := f.port, link := f.link, addr := addr, len := len, win := win
                             oldWin := old, ats := ats }] }

/-- Cut a range into read requests of at most 4,096 bytes (R311). -/
def cutRequests : Nat → Nat → Nat → List (Nat × Nat)
  | 0, _, _ => []
  | n + 1, a, len => if len ≤ 4096 then [(a, len)] else (a, 4096) :: cutRequests n (a + 4096) (len - 4096)

/-- The completion timeout of a link (R312). -/
def cplTimeout (s : State) (port link : Nat) : Nat :=
  let h := tget {} (die s (portDie port)).hst.links (4 * (port % 4) + link)
  if h.cplOff then 64000000000 else h.cplTimeout

/-- The reads of an owner complete, the oldest first: their tags are free again. None while one still waits for its tag or where a
timeout is told before its time. The Bool says whether the outcome counts: that of a read issued before a reset is discarded (R323).
[log DESIGN CHOICE 203] -/
def takeReads (s : State) (o : ReadOwner) (timedOut : Bool) : Option (Bool × State) :=
  match s.reads.filter fun r => decide (r.owner = o) with
  | [] => some (true, s)
  | r :: l =>
    let gen := (r :: l).filter fun q => q.dead == r.dead
    if gen.any fun q => !q.issued || (timedOut && decide (s.now < q.at_ + cplTimeout s q.port q.link)) then none
    else
      let s := if timedOut then pmcHost s r.port 8 1 else s
      some (!r.dead, issueWaiting { s with reads := s.reads.filter fun q => !(gen.any fun g => decide (g.no = q.no)) })

/-- Reads are given up: those with a tag hold it until their completion, which is discarded; the others never go out. -/
def abandonReads (s : State) (p : HostRead → Bool) : State :=
  { s with reads := (s.reads.filter fun r => r.issued || !(p r)).map fun r => if p r then { r with dead := true } else r }

/-- Walks of a die that have a read or request in flight. -/
def walksBusy (h : Hst) : Nat := (h.walks.filter fun (_, w) => match w with | some w => decide (w.level ≠ 0) | none => false).length

/-- Issue the read or the Translation Request of a walk on the instance's own link, untranslated (R335, R337). -/
def issueWalk (s : State) (n : Nat) (w : Walk) : State :=
  let f := (inst s w.inst).fn
  let d := instDie s w.inst
  let s := if w.level = 1 then pmc s d 450 1 else s
  if hostSilent s w.inst then s
  else if w.level = 3 then emit s (.atsRequest f.port f.link w.addr) else askRead s (.walk d n) w.inst none false false w.addr 8

/-- Start a walk, or queue it while 64 walks of the die are in flight (R335). -/
def startWalk (s : State) (w : Walk) : State :=
  let d := instDie s w.inst
  let h := (die s d).hst
  let busy := decide (walksBusy h ≥ 64)
  let s := pmc s d 449 1
  let s := onHst s d fun h =>
    { h with walks := tset none h.walks h.nextWalk (some (if busy then { w with e1 := w.level, level := 0 } else w))
             nextWalk := h.nextWalk + 1 }
  if busy then s else issueWalk s h.nextWalk w

/-- After a walk ends, the oldest queued one starts. -/
def nextWalk (s : State) (d : Die) : State :=
  let h := (die s d).hst
  if walksBusy h ≥ 64 then s
  else
    match h.walks.find? fun (_, w) => match w with | some w => decide (w.level = 0) | none => false with
    | some (k, some w) =>
      let w := { w with level := w.e1, e1 := 0 }
      issueWalk (onHst s d fun h => { h with walks := tset none h.walks k (some w) }) k w
    | _ => s

/-- Enter a translation into the TLB, the least recently used of 8,192 leaving (R338). -/
def tlbFill (s : State) (d : Die) (e : TlbEnt) : State :=
  onHst s d fun h => { h with tlb := (e :: h.tlb.filter fun x =>
    !(decide (x.inst = e.inst ∧ x.win = e.win ∧ x.page = e.page) && (x.ats.isSome == e.ats.isSome))).take 8192 }

/-- Mark a translation as used: it becomes the most recent. -/
def tlbTouch (s : State) (d : Die) (i w page : Nat) (ats : Bool) : State :=
  match tlbFind (die s d).hst.tlb i w page ats with
  | some e => onHst s d fun h => { h with tlb := e :: h.tlb.filter fun x => decide (x ≠ e) }
  | none => s

/-- The pages of a range of a window. -/
def pagesOf (shift off len : Nat) : List Nat :=
  (List.range ((off + len - 1) / 2 ^ shift + 1 - off / 2 ^ shift)).map (off / 2 ^ shift + ·)

/-- An access uses the translations of its range (R338); those it did not have to walk for count as TLB_HIT. -/
def tlbUse (s : State) (xl : List TlbEnt) (i a len : Nat) : State :=
  match winHolding (inst s i) a len with
  | some (w, x) =>
    if len = 0 then s
    else
      let d := instDie s i
      let use (ats : Bool) (s : State) (p : Nat) : State :=
        let hit := (tlbFind (die s d).hst.tlb i w p ats).isSome && (tlbFind xl i w p ats).isNone
        tlbTouch (if hit then pmc s d 448 1 else s) d i w p ats
      let s := if x.tabled then (pagesOf (pageShift x) (a - x.base) len).foldl (use false) s else s
      if x.ats && (fnOf s (inst s i).fn).atsEn then (pagesOf 16 (a - x.base) len).foldl (use true) s else s
  | none => s

/-- Remove the TLB entries of one window, or of a whole instance (R338); walks in flight go stale (R333). -/
def tlbDrop (s : State) (d : Die) (i : Nat) (w : Option Nat) : State :=
  let hit := fun (ei ew : Nat) => decide (ei = i) && (match w with | some w => decide (ew = w) | none => true)
  onHst s d fun h =>
    { h with tlb := h.tlb.filter fun e => !(hit e.inst e.win)
             walks := tmapv none h.walks fun _ k => k.map fun k => if hit k.inst k.win then { k with stale := true } else k }

/-- Reads issued under a window that is programmed again or removed are of the old translation (R333). -/
def readsOld (s : State) (i : Nat) (w : Option Nat) : State :=
  { s with reads := s.reads.map fun r => if r.who = i ∧ r.win.isSome = true ∧ (w.isNone = true ∨ r.win = w) then { r with oldWin := true } else r }

/-- A host access issued under an old translation of a window is outstanding, or one whose walk is still in flight (R333). -/
def winBusy (s : State) (i w : Nat) : Bool :=
  (s.reads.any fun r => r.oldWin && r.issued && decide (r.who = i ∧ r.win = some w)) ||
    (die s (instDie s i)).hst.walks.any fun (_, k) => match k with
      | some k => k.stale && decide (k.inst = i ∧ k.win = w)
      | none => false

/-- Write bytes at bus pieces of the range at `a` on an instance's link; nothing leaves while the function is silent (R323).
`payload`: payload writes that a later flush covers. -/
def writePieces (s : State) (i a : Nat) (pieces : List (Nat × Nat)) (bytes : List Byte) (payload : Bool := false) : State :=
  if hostSilent s i then s
  else
    let f := whoFn s i
    let put (p : Nat) (b : List Byte) : Out := if payload then .payloadWrite f.port f.link p b else .hostWrite f.port f.link p b
    (pieces.foldl (fun (acc : State × List Byte) p => (emit acc.1 (put p.1 (acc.2.take p.2)), acc.2.drop p.2)) (tlbUse s [] i a bytes.length, bytes)).1

/-- The window that a range of an instance is read through, and whether it is an old one (R333). -/
def readWin (s : State) (xl : List TlbEnt) (i a len : Nat) : Option Nat × Bool × Bool :=
  match oldWin xl i with
  | some (w, x) => (some w, true, x.ats && (fnOf s (inst s i).fn).atsEn)
  | none => match winHolding (inst s i) a len with
    | some (w, x) => (some w, false, x.ats && (fnOf s (inst s i).fn).atsEn)
    | none => (none, false, false)

/-- The bytes of pieces. -/
def piecesLen (pieces : List (Nat × Nat)) : Nat := (pieces.map (·.2)).sum

/-- Ask for the host reads of bus pieces of the range at `a` on an instance's link. -/
def readPieces (s : State) (o : ReadOwner) (xl : List TlbEnt) (i a : Nat) (pieces : List (Nat × Nat)) : State :=
  let n := piecesLen pieces
  let w := readWin s xl i a n
  (pieces.flatMap fun p => cutRequests (p.2 / 4096 + 1) p.1 p.2).foldl (fun s p => askRead s o i w.1 w.2.1 w.2.2 p.1 p.2) (tlbUse s xl i a n)

/-- Host reads that complete within the command that issues them, as those of a target do (R121, R124, R160). -/
def readNow (s : State) (xl : List TlbEnt) (i a : Nat) (pieces : List (Nat × Nat)) : State :=
  if hostSilent s i then s
  else
    let f := whoFn s i
    (pieces.flatMap fun p => cutRequests (p.2 / 4096 + 1) p.1 p.2).foldl (fun s p => emit s (.hostRead f.port f.link p.1 p.2))
      (tlbUse s xl i a (piecesLen pieces))

/-- The tags for such reads are there: they wait behind earlier reads of the port. -/
def tagsNow (s : State) (i : Nat) : Bool :=
  let p := (whoFn s i).port
  tagRoom s p (decide (i = mgmtWho)) && !(s.reads.any fun r => !r.issued && decide (r.port = p))

/-- The one outcome of a host read (R477): the failing part at the lowest offset decides, and the bytes below it that
came without fault count as read. -/
def readOutcome (parts : List ReadPart) : ReadDone :=
  let sorted := sortBy (fun a b => decide (a.off ≤ b.off)) parts
  sorted.foldl (fun (r : ReadDone) p =>
    match r.fail with
    | some _ => r
    | none =>
      match p.fail with
      | some f => { r with fail := some f }
      | none => { r with bytes := r.bytes ++ p.bytes }) { bytes := [], fail := none }

/-- The read of a 64-byte ring entry or extension block, once every part has come or failed: its one outcome (R477); none while
bytes are still out. -/
def entryRead (parts : List ReadPart) : Option EntryRead :=
  let r := readOutcome parts
  match r.fail with
  | some f => some (.fail f)
  | none => if r.bytes.length = 64 then some (.ok (BitVec.ofNat 512 (leNat r.bytes))) else none

/-- A part of a read timed out. -/
def anyTimeout (parts : List ReadPart) : Bool := parts.any fun p => decide (p.fail = some .timeout)

/-- The completion code of a failed data read (R339). -/
def readFailCode : ReadFail → Nat
  | .timeout => 0x08
  | .poison => 0x07
  | .error => 0x06

/-- Where a remote key points at the target: window number and window, when the key's instance, window and nonce are
those of a valid window (R126 steps 3 and 4). -/
def rkeyInst (k : Nat) : Nat := bits k 22 10
def rkeyWin (k : Nat) : Nat := bits k 17 5
def rkeyNonce (k : Nat) : Nat := bits k 0 17

end Sys2Proof.Machine
end

