-- ==== Sys2Proof/Machine/Rings.lean ====
section
/-! DEFINITION. Command and completion rings (03_rings_and_doorbells): doorbells, the forward scan, halting, pause, reset,
the shadow word, completion heads, and MG_RING_CTL. -/

namespace Sys2Proof.Machine

open Sys2Proof

/-- The instance of a ring's owner: none for a management ring (index 0, R76). -/
def ringInst (r : CmdRing) (n : Nat) : Option Nat := if n = 0 then none else some r.inst

/-- The die-local command ring that a requester's page names: the management ring, or the instance's ring `idx` (R109). -/
def findCmdRing (s : State) (who : Requester) (idx : Nat) : Option (Die × Nat) :=
  match who with
  | .mgmt d => if (cmdRing s d 0).configured then some (d, 0) else none
  | .inst i =>
    let d := instDie s i
    match (die s d).rings.cmd.find? fun (n, r) => decide (n ≠ 0 ∧ r.inst = i ∧ r.instRing = idx) && r.configured with
    | some (n, _) => some (d, n)
    | none => none

/-- The die-local completion ring that a head register names (R109). -/
def findCqRing (s : State) (who : Requester) (idx : Nat) : Option (Die × Nat) :=
  match who with
  | .mgmt d => if (cqRing s d 0).configured then some (d, 0) else none
  | .inst i =>
    let d := instDie s i
    match (die s d).rings.cq.find? fun (n, r) => decide (n ≠ 0 ∧ r.inst = i ∧ r.instRing = idx) && r.configured with
    | some (n, _) => some (d, n)
    | none => none

/-- Whose function a ring's reads and writes leave by: its instance's, or the management function's (R254). -/
def ringWho (s : State) (d : Die) (n : Nat) : Nat := if n = 0 then mgmtWho else (cmdRing s d n).inst

/-- Write the shadow word (R86): nothing while shadows are silent after a function reset (R323). -/
def shadowWrite (s : State) (d : Die) (n : Nat) : State :=
  let r := cmdRing s d n
  let s := modCmdRing s d n fun r => { r with advSince := 0, shadowDue := none }
  if r.shadowEn && !r.silent && !(hostSilent s (ringWho s d n)) then
    let lk := ringLink s n r.inst
    emit s (.hostWrite lk.1 lk.2 r.shadowAddr (leBytes 8 (cmdStatus r)))
  else s

/-- STATE has changed, or the first unreported advance has come: a shadow write follows within 2 µs (R86). -/
def shadowLater (s : State) (d : Die) (n : Nat) : State :=
  modCmdRing s d n fun r =>
    { r with shadowDue := if r.shadowEn then (match r.shadowDue with | some t => some t | none => some (s.now + 2000)) else none }

/-- Move a command ring to a state. -/
def setRingSt (s : State) (d : Die) (n : Nat) (st : RingSt) : State :=
  shadowLater (modCmdRing s d n fun r => { r with st := st }) d n

/-- Issue a read of the entry at the fetch point. -/
def issueFetch (s : State) (d : Die) (n : Nat) : State :=
  let r := cmdRing s d n
  askRead (modCmdRing s d n fun r => { r with reading := true, waiting := false }) (.ring d n) (ringWho s d n) none false false
    (r.base + 64 * r.consIdx) 64

/-- The ring gives up the read that is out: its completion is discarded. -/
def dropFetch (s : State) (d : Die) (n : Nat) : State := abandonReads s fun r => decide (r.owner = .ring d n)

/-- The die's rings may fetch: neither RNG nor XLT is in FAULT (R422), and the device is not in Forensic (R427). -/
def canFetch (s : State) (d : Die) : Bool := !(blockDown s d 0x0A) && !(blockDown s d 0x09) && !(forensic s)

/-- Start or continue a scan unless a read is already out. While the die may not fetch the doorbell stays latched. -/
def scan (s : State) (d : Die) (n : Nat) : State :=
  if (cmdRing s d n).reading then s
  else if canFetch s d then issueFetch s d n
  else modCmdRing s d n fun r => { r with dbLatched := true }

/-- A doorbell of a configured ring (R83, R100). -/
def ringDoorbell (s : State) (d : Die) (n : Nat) : State :=
  let s := pmcHost (modCmdRing s d n fun r => { r with silent := false }) (ringLink s n (cmdRing s d n).inst).1 0 1
  match (cmdRing s d n).st with
  | .reset => s
  | .idle => if canFetch s d then scan (setRingSt s d n .active) d n else modCmdRing s d n fun r => { r with dbLatched := true }
  | .active => modCmdRing s d n fun r => { r with dbLatched := true }
  | .paused => modCmdRing s d n fun r => { r with dbLatched := true }
  | .halted => s

/-- DOORBELL: a write to a doorbell page (R82, R109); none is served in Forensic (R427). [log DEDUCED 48] -/
def execDoorbell (who : Requester) (idx : Nat) (s : State) : Host.Outcome State Fault Refusal :=
  match findCmdRing s who idx with
  | some (d, n) => .next (if forensic s then s else ringDoorbell s d n)
  | none => .next s

/-- The code of a halt record by HALT_CAUSE (R99). -/
def haltCode : Nat → Nat
  | 1 => 0x0D | 2 => 0x03 | 3 => 0x08 | 4 => 0x07 | _ => 0x06

/-- Halt a ring (R99): the halt record goes into the ring's halt slot, EV_RING_HALTED to its owner. -/
def ringHalt (s : State) (d : Die) (n cause word0 : Nat) : State :=
  let r := cmdRing s d n
  let s := modCmdRing (dropFetch s d n) d n fun r => { r with haltCause := cause, haltSlot := false, reading := false, waiting := false, dbLatched := false }
  let s := pmcHost (setRingSt s d n .halted) (ringLink s n r.inst).1 10 1
  let w0 := if cause ≤ 2 then word0 else 0
  let ring := if n = 0 then 0 else r.instRing
  let s := if r.haltSlot then
      let silent := cqSilent s d r.cq
      let s := modCq s d r.cq fun q => { q with haltHeld := q.haltHeld - 1 }
      if silent then s
      else cqWrite s d r.cq (completionRecord 0 0 0x1F (0xF0 + cause) (haltCode cause) w0 r.consSeq ring 0)
    else s
  let data := evb 8 ring + evb 10 cause + evb 12 r.consSeq + evb 16 w0
  match ringInst r n with
  | some i => postInst s i 0x10 data
  | none => postMgmt s d 0x10 data

/-- Consume the entry (R84, R92): reserve its slot, keep its block, advance the fetch point. -/
def ringConsume (s : State) (d : Die) (n : Nat) (b : Block) : State :=
  let r := cmdRing s d n
  let slot := (cqRing s d r.cq).resvSeq
  let s := modCq s d r.cq fun q => { q with reserved := q.reserved + 1, resvSeq := q.resvSeq + 1 }
  let wrap := decide (r.consIdx + 1 = 2 ^ r.log2)
  let s := modCmdRing s d n fun r =>
    { r with queue := r.queue ++ [{ blk := b, slot := slot }]
             consIdx := (r.consIdx + 1) % 2 ^ r.log2
             consPhase := if wrap then !r.consPhase else r.consPhase
             consSeq := (r.consSeq + 1) % 2 ^ 24
             advSince := r.advSince + 1
             waiting := false
             readyAt := match r.readyAt with | some t => some t | none => some s.now }
  let s := pmcHost s (ringLink s n r.inst).1 1 1
  if (cmdRing s d n).advSince ≥ 64 then shadowWrite s d n else shadowLater s d n

/-- A slot is free and fewer than 64 commands are consumed and undispatched (R84, R92). -/
def ringRoom (s : State) (d : Die) (r : CmdRing) : Bool :=
  decide (cqFree (cqRing s d r.cq) > 0 ∧ r.queue.length < 64)

/-- What the entry at the fetch point is (R79, R95, R96, R97). -/
inductive EntryKind where
  | owned (b : Block)
  | unowned
  | halt (cause : Nat) (word0 : Nat)
deriving DecidableEq, Repr

/-- Judge an entry read against the ring's expected phase and SEQ. -/
def judgeEntry (r : CmdRing) : EntryRead → EntryKind
  | .fail .timeout => .halt 3 0
  | .fail .poison => .halt 4 0
  | .fail .error => .halt 5 0
  | .ok b =>
    let ph := fld b 1 0 1 == 1
    let seq := fld b 2 0 24
    if ph = r.consPhase then
      if seq = r.consSeq then .owned b else .halt 2 (fld b 0 0 64)
    else if seq = (r.consSeq + 2 ^ r.log2) % 2 ^ 24 then .halt 1 (fld b 0 0 64)
    else .unowned

/-- The outcome of a ring-entry read (R83, R84, R100, with the pause rule below the table of R100). -/
def ringFetched (s : State) (d : Die) (n : Nat) (e : EntryRead) : State :=
  let r := cmdRing s d n
  let s := modCmdRing s d n fun r => { r with reading := false }
  if !(canFetch s d) then modCmdRing s d n fun r => { r with dbLatched := true }
  else
  match judgeEntry r e, r.st with
  | .halt c w, .active => ringHalt s d n c w
  | .halt c w, .paused => ringHalt s d n c w
  | .owned b, .active =>
    if ringRoom s d r then issueFetch (ringConsume s d n b) d n
    else modCmdRing s d n fun r => { r with waiting := true }
  | .owned b, .paused => if ringRoom s d r then ringConsume s d n b else s
  | .unowned, .active =>
    if r.dbLatched then issueFetch (modCmdRing s d n fun r => { r with dbLatched := false }) d n
    else setRingSt s d n .idle
  | _, _ => s

/-- RING_ENTRY_FETCH: a read of the entry at the fetch point completes. -/
def execRingEntryFetch (d : Die) (n : Nat) (parts : List ReadPart) (s : State) : Host.Outcome State Fault Refusal :=
  match entryRead parts, takeReads s (.ring d n) (anyTimeout parts) with
  | some e, some (true, s) => if (cmdRing s d n).reading then .next (ringFetched s d n e) else .next s
  | some _, some (false, s) => .next s
  | _, _ => .next s

/-- RING_CONSUME_RETRY: a waiting entry is read again and consumed once a slot or room appears (R92). -/
def execRingConsumeRetry (d : Die) (n : Nat) (parts : List ReadPart) (s : State) : Host.Outcome State Fault Refusal :=
  let r := cmdRing s d n
  match entryRead parts with
  | some e =>
    if r.waiting && decide (r.st = .active) && ringRoom s d r && canFetch s d then
      .next (ringFetched (modCmdRing s d n fun r => { r with waiting := false }) d n e)
    else .next s
  | none => .next s

/-- The die may fetch again: every ring with a latched doorbell that is IDLE, or ACTIVE with no read out, scans. -/
def rescanRings (s : State) (d : Die) : State :=
  (die s d).rings.cmd.foldl (fun s (n, r) =>
    match r.st with
    | .idle => if r.dbLatched then scan (modCmdRing (setRingSt s d n .active) d n fun r => { r with dbLatched := false }) d n else s
    | .active => if r.waiting || r.reading then s else scan (modCmdRing s d n fun r => { r with dbLatched := false }) d n
    | _ => s) s

/-- Pause a ring (R100): MG_RING_CTL PAUSE or instance quiesce. [log DEDUCED 40] -/
def ringPause (s : State) (d : Die) (n : Nat) : State :=
  match (cmdRing s d n).st with
  | .idle => modCmdRing (setRingSt s d n .paused) d n fun r => { r with dbLatched := false }
  | .active => modCmdRing (setRingSt s d n .paused) d n fun r => { r with dbLatched := true, waiting := false }
  | _ => s

/-- Resume a ring (R100): with DB_LATCHED it scans, otherwise it is IDLE. While a read from before the pause is still out, the latch
stands as the rescan flag and that read goes on as the scan. -/
def ringResume (s : State) (d : Die) (n : Nat) : State :=
  match (cmdRing s d n).st with
  | .paused =>
    if (cmdRing s d n).dbLatched then
      if (cmdRing s d n).reading then setRingSt s d n .active
      else scan (modCmdRing (setRingSt s d n .active) d n fun r => { r with dbLatched := false }) d n
    else setRingSt s d n .idle
  | _ => s

/-- The live operations of a ring: dispatched, record not yet written. -/
def ringOps (s : State) (d : Die) (n : Nat) : List Nat :=
  (s.ops.filter fun (_, o) => decide (o.iss = .ring d n)).map (·.1)

/-- The CC_CANCELLED record of a consumed, undispatched command (R101). -/
def cancelEntry (s : State) (d : Die) (n : Nat) (e : QEntry) : State :=
  let r := cmdRing s d n
  postRecord s d r.cq (completionRecord (fld e.blk 8 0 64) 0 0x1F 0 0x0E 0 (fld e.blk 2 0 24) (if n = 0 then 0 else r.instRing) 0)

/-- An operation that a reset, quiesce or FLR ends at once: an armed trigger, a TRIG_ARM waiting for a slot (R66), or a
long command that stands at a stride boundary (R74). -/
def cancelsNow (o : Op) : Bool :=
  match o.phase with
  | .armed => true
  | .waitTrig => true
  | .long .suspended => true
  | .waitConn => isLong (opcode o)
  | .ready => isLong (opcode o)
  | p => opWaits p && isLong (opcode o)

/-- Cancel one operation: at once, or at its next stride boundary (R66, R74, R101). -/
def cancelOp (s : State) (o : Nat) : State :=
  let x := opOf s o
  if cancelsNow x then completeOp s o { code := 0x0E, bytes := x.bytesAcked }
  else match x.phase with
    | .long .running => modOp s o fun x => { x with cancel := true }
    | _ => s

/-- The ring has nothing that could have aged (R108). -/
def unage (s : State) (d : Die) (n : Nat) : State := onRings s d fun y => { y with aged := without y.aged n }

/-- Enter RESET (R101): cancel the ring's work and return the fetch point. `except` is the operation asking for it. -/
def ringToReset (s : State) (d : Die) (n : Nat) : State :=
  let r := cmdRing s d n
  let s := r.queue.foldl (fun s e => cancelEntry s d n e) s
  let s := modCmdRing s d n fun r => { r with queue := [] }
  let s := (ringOps s d n).foldl cancelOp (dropFetch s d n)
  let s := modCmdRing s d n fun r =>
    { r with consIdx := 0, consPhase := true, consSeq := 0, haltCause := 0, dbLatched := false, reading := false,
             waiting := false, bad := false, outstanding := [], readyAt := none, resetAt := s.now, resetLate := false }
  setRingSt (unage s d n) d n .reset

/-- Every consumed command of a ring in RESET has its record (R100). -/
def ringQuiet (s : State) (d : Die) (n : Nat) : Bool :=
  decide ((cmdRing s d n).queue = []) && (ringOps s d n).isEmpty

/-- Clear a ring's configuration after a release (R100). -/
def ringClear (s : State) (d : Die) (n : Nat) : State :=
  let r := cmdRing s d n
  let s := modCq s d r.cq fun q => { q with bound := q.bound - 1, haltHeld := if r.haltSlot then q.haltHeld - 1 else q.haltHeld }
  let s := (r.resetOps).foldl (fun s o => completeOp s o { code := 0 }) s
  modCmdRing (unage s d n) d n fun _ => {}

/-- The reset work of a ring has finished (R100, R102): it takes a halt slot if it holds none and enters IDLE. -/
def ringResetDone (s : State) (d : Die) (n : Nat) : State :=
  let r := cmdRing s d n
  if r.releasing then ringClear s d n
  else if r.haltSlot || decide (cqFree (cqRing s d r.cq) > 0) then
    let s := if r.haltSlot then s else
      modCmdRing (modCq s d r.cq fun q => { q with haltHeld := q.haltHeld + 1 }) d n fun r => { r with haltSlot := true }
    let s := setRingSt s d n .idle
    let s := modCmdRing s d n fun r => { r with resetOps := [], resetLate := false }
    let s := r.resetOps.foldl (fun s o => completeOp s o { code := 0 }) s
    if r.resetLate then
      match ringInst r n with
      | some i => postInst s i 0x11 (evb 8 r.instRing)
      | none => postMgmt s d 0x11 0
    else s
  else s

/-- A ring in RESET that may leave it: configured, its owner not held in reset, every record written. -/
def ringMayLeaveReset (s : State) (d : Die) (n : Nat) : Bool :=
  let r := cmdRing s d n
  decide (r.st = .reset) && r.configured && ringQuiet s d n &&
    (if n = 0 then !(mgmtInReset s) else decide ((inst s r.inst).st ≠ .resetting))

/-- A host link is trained and its port's PERST_N high. -/
def hostLinkUp (s : State) (f : FnId) : Bool :=
  let h := (die s (portDie f.port)).hst
  (tget {} h.links (4 * (f.port % 4) + f.link)).up && !(h.perst.contains (f.port % 4))

/-- A completion ring as its configuration leaves it, with its halt slots held (R323). [log DEDUCED 43] -/
def cqRestart (s : State) (d : Die) (m : Nat) : State :=
  let held := ((die s d).rings.cmd.filter fun (_, r) => r.configured && decide (r.cq = m) && (r.haltSlot || !r.releasing)).length
  modCq s d m fun q => { q with tail := 0, tailPhase := true, head := 0, lap := true, arm := false, reserved := 0, written := 0, haltHeld := held }

/-- A command ring in IDLE with its configuration kept and no shadow word before its first doorbell (R323). -/
def ringRestart (s : State) (d : Die) (n : Nat) : State :=
  let r := cmdRing s d n
  let s := if r.releasing then ringClear s d n
    else modCmdRing s d n fun r =>
      { configured := true, base := r.base, log2 := r.log2, instRing := r.instRing, inst := r.inst, cq := r.cq, burst := r.burst
        weight := r.weight, prio := r.prio, shadowAddr := r.shadowAddr, shadowEn := r.shadowEn, st := .idle, haltSlot := true, silent := true }
  if r.releasing then s else r.resetOps.foldl (fun s o => if liveOp s o then completeOp s o { code := 0 } else s) s

/-- Both management rings have ended their work after a reset of the management function, whose link is up (R324). -/
def mgmtDrained (s : State) : Bool :=
  mgmtInReset s && hostLinkUp s (mgmtFn s) && ringQuiet s .west 0 && ringQuiet s .east 0

/-- The management function comes back from reset: its rings IDLE, its completion rings at their start (R323, R324). -/
def mgmtReturn (s : State) : State :=
  let f (s : State) (d : Die) :=
    if (cqRing s d 0).configured then
      let s := cqRestart s d 0
      if (cmdRing s d 0).configured then ringRestart s d 0 else s
    else s
  let s := f (f s .west) .east
  modFn s (mgmtFn s) fun x => { x with inReset := false, d3 := false }

/-- RING_RESET_DONE: a ring in RESET whose consumed commands all have records enters IDLE, or is cleared by a release. -/
def execRingResetDone (d : Die) (n : Nat) (s : State) : Host.Outcome State Fault Refusal :=
  if n = 0 ∧ mgmtDrained s = true then .next (mgmtReturn s)
  else if ringMayLeaveReset s d n then .next (ringResetDone s d n) else .next s

/-- RING_RESET_SLOT_TIMEOUT: no halt slot within 10 ms, the requests complete with CC_RESOURCE, SUBCAUSE 0x09 (R102).
[log DESIGN CHOICE 209, DESIGN CHOICE 210] -/
def execRingResetSlotTimeout (d : Die) (n : Nat) (s : State) : Host.Outcome State Fault Refusal :=
  let r := cmdRing s d n
  if ringMayLeaveReset s d n && !r.haltSlot && !r.releasing && !r.resetLate && decide (cqFree (cqRing s d r.cq) = 0)
      && decide (s.now ≥ r.resetAt + 10000000) then
    let s := modCmdRing s d n fun r => { r with resetOps := [], resetLate := true }
    .next (r.resetOps.foldl (fun s o => failOp s o 0x0F 0x09) s)
  else .next s

/-- SHADOW_TIMER: the 2 µs deadline expires and the status word is written (R86). -/
def execShadowTimer (d : Die) (n : Nat) (s : State) : Host.Outcome State Fault Refusal :=
  match (cmdRing s d n).shadowDue with
  | some t => if s.now ≥ t then .next (shadowWrite s d n) else .next s
  | none => .next s

/-- RNG_PRIO_AGE in ns. -/
def prioAgeNs (s : State) (d : Die) : Nat := 1000 * bits (regVal s d 0xA80000) 0 16

/-- RING_AGE_EXPIRY: a ring of level 0 to 2 holding a dispatchable command past RNG_PRIO_AGE becomes aged (R108). [log DEDUCED 44] -/
def execRingAgeExpiry (d : Die) (n : Nat) (s : State) : Host.Outcome State Fault Refusal :=
  let r := cmdRing s d n
  match r.readyAt with
  | some t =>
    if decide (n ≠ 0 ∧ r.prio < 3 ∧ r.queue ≠ [] ∧ s.now > t + prioAgeNs s d ∧ n ∉ (die s d).rings.aged)
        && decide (r.st ≠ .paused) && (!(headFenced r) || decide (r.outstanding = [])) then
      .next (onRings s d fun x => { x with aged := x.aged ++ [n] })
    else .next s
  | none => .next s

/-! ## Completion heads (R93, R94) -/

/-- The position of (LAP, HEAD) modulo 2^(k+1): LAP 1, HEAD 0 is position 0. -/
def headPos (k : Nat) (lap : Bool) (head : Nat) : Nat := (b2n (!lap) * 2 ^ k + head) % 2 ^ (k + 1)

/-- The records that a head write returns: the distance from the old position to the new one. -/
def headDist (k : Nat) (lap : Bool) (head : Nat) (lap' : Bool) (head' : Nat) : Nat :=
  (headPos k lap' head' + 2 ^ (k + 1) - headPos k lap head) % 2 ^ (k + 1)

/-- A head write of a completion ring (R93, R94). -/
def cqHeadWrite (s : State) (d : Die) (m : Nat) (v : BitVec 32) : State :=
  let q := cqRing s d m
  let lap := bit v.toNat 20
  let head := bits v.toNat 0 20
  let arm := bit v.toNat 31
  let dist := headDist q.log2 q.lap q.head lap head
  if dist > q.written then
    if m = 0 then postMgmt s d 0x12 (evb 12 v.toNat)
    else postInst s q.inst 0x12 (evb 8 q.instRing + evb 12 v.toNat)
  else
    let left := q.written - dist
    let fire := arm && q.intEn && decide (left > 0)
    let s := modCq s d m fun q => { q with head := head, lap := lap, written := left, arm := arm && !fire }
    if fire then raiseSource s d q.intSource else s

/-- CQ_HEAD_WRITE: a write of a completion head register, dropped for a ring the requester does not own (R109). -/
def execCqHeadWrite (who : Requester) (idx : Nat) (v : BitVec 32) (s : State) : Host.Outcome State Fault Refusal :=
  match findCqRing s who idx with
  | some (d, m) => .next (if forensic s then s else cqHeadWrite s d m v)
  | none => .next s

/-! ## Event heads (R327, R328) -/

/-- The effect of an event head write on an event ring: a bad one is ignored (R93); whether the interrupt fires at once. [log DEDUCED 46] -/
def evtHeadWrite (e : EvtRing) (k : Nat) (intEn : Bool) (v : BitVec 32) : EvtRing × Bool :=
  let lap := bit v.toNat 20
  let head := bits v.toNat 0 16
  let arm := bit v.toNat 31
  let dist := headDist k e.lap e.head lap head
  if dist > e.written then (e, false)
  else
    let left := e.written - dist
    let fire := arm && intEn && decide (left > 0)
    ({ e with head := head, lap := lap, written := left, arm := arm && !fire }, fire)

/-- A write of an instance's event head register (R327). -/
def instHeadWrite (s : State) (i : Nat) (v : BitVec 32) : State :=
  let x := inst s i
  if x.st = .absent ∨ x.evtBase = 0 then s
  else
    let r := evtHeadWrite x.evt x.evtLog2 x.evtIntEn v
    let s := modInst s i fun x => { x with evt := r.1 }
    if r.2 then raiseSource s (instDie s i) x.evtIntSource else s

/-- EVENT_HEAD_WRITE of an instance (R327). -/
def execEventHeadWrite (i : Nat) (v : BitVec 32) (s : State) : Host.Outcome State Fault Refusal :=
  .next (if forensic s then s else instHeadWrite s i v)

/-- A write of MGT_EVT_HEAD (R328): ignored while the ring is disabled. -/
def mgtHeadWrite (s : State) (d : Die) (v : BitVec 32) : State :=
  let cfg := regVal s d 0x308
  if bit cfg 31 then
    let r := evtHeadWrite (die s d).evt (bits cfg 0 5) (bit cfg 30) v
    let s := onDie s d fun x => { x with evt := r.1 }
    if r.2 then raiseSource s d (bits cfg 12 12) else s
  else s

/-- MGT_EVT_HEAD_WRITE (R328). -/
def execMgtEvtHeadWrite (d : Die) (v : BitVec 32) (s : State) : Host.Outcome State Fault Refusal :=
  .next (if forensic s then s else mgtHeadWrite s d v)

/-- Setting MGT_EVT_CFG.EN starts the ring at position 0 with PHASE 1 and returns the head (R328). LOST is kept. [log DEDUCED 119] -/
def mgtEvtStart (s : State) (d : Die) : State :=
  let s := onDie s d fun x => { x with evt := { lost := x.evt.lost } }
  setReg s d 0x308 (setBits (regVal s d 0x308) 31 1 1)

/-- MGT_EVT_ENABLE: MGT_EVT_CFG.EN is set; while it is already 1 nothing starts again. -/
def execMgtEvtEnable (d : Die) (s : State) : Host.Outcome State Fault Refusal :=
  if bit (regVal s d 0x308) 31 then .next s else .next (mgtEvtStart s d)

end Sys2Proof.Machine
end

