-- ==== Sys2Proof/Machine/Records.lean ====
section
/-! DEFINITION. Reading the configuration records of the active and staged banks (R207 to R211, R180, R384): ports, local
and group records, virtual stations and trees; and which destinations the source router judges absent (R22). -/

namespace Sys2Proof.Machine

open Sys2Proof

/-- A record of a bank by TYPE and INDEX. -/
def findRec (l : List CfgRec) (ty idx : Nat) : Option (List Byte) :=
  (l.find? fun r => decide (r.ty = ty ∧ r.index = idx)).map (·.content)

/-- A record of a domain's active bank, as one number (bit 0 of byte 0 first). -/
def activeRec (s : State) (d : Die) (n ty idx : Nat) : Option Nat := (findRec (dom s d n).active ty idx).map leNat

/-- RTE_CTL.ROUTING_VALID: an active routing bank is installed (R382). -/
def routingValid (s : State) (d : Die) : Bool := (activeRec s d 0 0 0).isSome

/-- SWITCH_MODE of the active bank: wormhole (R207, R225). -/
def wormhole (s : State) (d : Die) : Bool := match activeRec s d 0 0 0 with | some v => bit v 0 | none => false

/-- A port record (R208). -/
structure PortRec where
  role : Nat
  split : Bool
  forerunner : Bool
  partner : Nat
deriving DecidableEq, Repr

def decPort (v : Nat) : PortRec := { role := bits v 0 2, split := bit v 2, forerunner := bit v 3, partner := bits v 32 20 }

def portRec (s : State) (d : Die) (p : Nat) : Option PortRec := (activeRec s d 0 1 p).map decPort

/-- A local record (R209): VALID, DIE, PORT, FORERUNNER. -/
structure LocalRec where
  valid : Bool
  dieOf : Die
  port : Nat
  forerunner : Bool
deriving DecidableEq, Repr

def decLocal (v : Nat) : LocalRec := { valid := bit v 0, dieOf := Die.ofCode (bits v 1 1), port := bits v 2 7, forerunner := bit v 9 }

def localRec (s : State) (d : Die) (t : Nat) : Option LocalRec := (activeRec s d 0 2 t).map decLocal

/-- A gateway entry (R210): VALID, GW_ROUTER, GW_PORT, FORERUNNER. -/
structure GwEntry where
  valid : Bool
  router : Nat
  port : Nat
  forerunner : Bool
deriving DecidableEq, Repr

def decGw (v : Nat) : GwEntry := { valid := bit v 0, router := bits v 1 6, port := bits v 7 7, forerunner := bit v 14 }

/-- The eight gateway entries of a group record; none installed: empty. -/
def gateways (s : State) (d : Die) (h : Nat) : List GwEntry :=
  match activeRec s d 0 3 h with
  | some v => (List.range 8).map fun i => decGw (bits v (32 * i) 32)
  | none => []

/-- Group h may be an intermediate (R211). -/
def valiantGroup (s : State) (d : Die) (h : Nat) : Bool := match activeRec s d 0 4 0 with | some v => bit v h | none => false

/-- GROUP_COUNT of the active header record. -/
def groupCount (s : State) (d : Die) : Nat := match activeRec s d 0 0 0 with | some v => bits v 16 11 | none => 1

/-- Group, router and station of a Station Address (R12). -/
def grpOf (a : Nat) : Nat := bits a 10 10
def rtrOf (a : Nat) : Nat := bits a 4 6
def stnOf (a : Nat) : Nat := bits a 0 4

/-- MGT_VSTN_MAP of a virtual station, from the active bank of INSTANCE (R20); 0 while unbound. -/
def vstnMap (s : State) (d : Die) (v : Nat) : Nat := (activeRec s d 4 0 v).getD 0

/-- Station `n` of a die serves instance `i` (R19, R20, R22). -/
def stationServes (s : State) (d : Die) (n i : Nat) : Bool :=
  let x := inst s i
  if x.st = .absent then false
  else if n < 4 then decide (x.fn.port = 4 * d.idx + n)
  else
    let m := vstnMap s d n
    bit m 0 && decide (x.fn.port = 4 * d.idx + bits m 4 2 ∧ x.fn.link = bits m 6 2) && (bit m 1 || decide (bits m 16 10 = i))

/-- The die holds a station (R111): a physical one, or a virtual one that is bound. -/
def holdsStation (s : State) (d : Die) (n : Nat) : Bool := decide (n < 4) || bit (vstnMap s d n) 0

/-- Station `n` of a die exists: a physical one, or a bound virtual one. -/
def stationBound (s : State) (d : Die) (n : Nat) : Bool :=
  if n < 4 then decide ((die s d).hst.bifCodes.getD n 0 ≠ 3) else bit (vstnMap s d n) 0

/-- The source router judges a destination router absent from the active epoch (R22). [log DEDUCED 207] -/
def destAbsent (s : State) (d : Die) (dst : Nat) : Bool :=
  if grpOf dst = s.ident.group then
    match localRec s d (rtrOf dst) with
    | some r => !r.valid
    | none => true
  else !((gateways s d (grpOf dst)).any (·.valid))

/-- A child entry of a tree record (R180). -/
structure TreeChild where
  addr : Nat
  inst : Nat
  member : Bool
  index : Nat
deriving DecidableEq, Repr

/-- A tree record (R180). -/
structure Tree where
  cctx : Nat
  gen : Nat
  root : Bool
  parent : Nat
  indexAtParent : Nat
  backup : Nat
  backupValid : Bool
  members : Nat
  children : List TreeChild
deriving DecidableEq, Repr

/-- Read a tree record from its number. -/
def decTree (v : Nat) : Tree :=
  { cctx := bits v 0 12, gen := bits v 16 16, root := bit v 32, parent := bits v 64 20, indexAtParent := bits v 84 6
    backup := bits v 96 20, backupValid := bit v 127, members := bits v 128 19
    children := (List.range (bits v 40 8)).map fun i =>
      { addr := bits v (256 + 64 * i) 20, inst := bits v (276 + 64 * i) 10, member := bit v (286 + 64 * i), index := bits v (288 + 64 * i) 18 } }

/-- The tree record of a context in a die's active TREE bank (R178). -/
def treeOf (s : State) (d : Die) (c : Nat) : Option Tree := (activeRec s d 2 0 c).map decTree

/-- The die of an address that names one of this device's routers. -/
def ownDie (s : State) (a : Nat) : Option Die :=
  if s.ident.valid then
    if routerPart a = routerAddr s .west then some .west
    else if routerPart a = routerAddr s .east then some .east
    else none
  else none

end Sys2Proof.Machine
end

