-- ==== Sys2Proof/Machine/Conn.lean ====
section
/-! DEFINITION. A connection end's sending side (04_remote_memory_access): issue order and PSNs, the congestion window,
transmission through the injection queues, delivery of commands, and the states of a connection end (R112). -/

namespace Sys2Proof.Machine

open Sys2Proof

/-- PSN `a` is before `b` (R128). -/
def psnBefore (a b : BitVec 32) : Bool := decide (1 ≤ (b - a).toNat ∧ (b - a).toNat < 2 ^ 31)

/-- VIS_PSN or CUM_PSN has reached `p`: every PSN before `p` is covered. -/
def psnReached (cur p : BitVec 32) : Bool := decide (cur = p) || psnBefore p cur

/-- MTU in bytes (R111). -/
def mtuBytes (code : Nat) : Nat := 256 * 2 ^ code

/-- The local Station Address of a connection end. -/
def localAddr (s : State) (d : Die) (k : Conn) : Nat := routerAddr s d + k.localStation

/-- A packet of a connection, before routing: `flits` long. -/
def connPkt (s : State) (d : Die) (k : Conn) (flits : Nat) (b : Body) : Pkt :=
  { dst := k.remoteStation, src := localAddr s d k, tc := k.tc, level := 0, leg := false, lhop := false, ord := false,
    start := false, viaGroup := 0, gwRouter := 0, gwPort := 0, len := flits - 1, kind := 0, det := false, viaRouter := 0,
    rsv := 0, fseq := 0, chan16 := false, body := b }

/-- Bytes unacknowledged, GET requests counted by their expected response bytes; a packet that SACK shows held is
acknowledged (R134). -/
def unackedBytes (k : Conn) : Nat := ((k.unacked.filter fun p => !p.sacked).map (·.bytes)).sum

/-- The window admits a packet (R129, R134). [log DEDUCED 37] -/
def windowOpen (k : Conn) (p : TxPkt) : Bool := decide (k.unacked.length < 4096 ∧ unackedBytes k + p.bytes ≤ k.cwnd)

/-- The key of an injection queue: host port of the die, TC, instance (1,024: the management function). -/
def injKey (port tc who : Nat) : Nat := 8192 * port + 2048 * tc + who

/-- Put a packet at the end of an injection queue (R240). -/
def injPush (s : State) (d : Die) (port tc who : Nat) (p : Pkt) : State :=
  onSch s d fun q => { q with injq := tmod {} q.injq (injKey port tc who) fun x =>
    { x with pkts := x.pkts ++ [{ pkt := p, chan := 0, stage := 0, at_ := s.now, inst := if who = mgmtWho then none else some who, owner := if who = mgmtWho then none else some who }] } }

/-- Flits of a packet with `n` payload bytes: up to 32 ride in the header flit, more in following flits (00_scope). -/
def dataFlits (n : Nat) : Nat := if n ≤ 32 then 1 else 1 + (n + 63) / 64

/-- Send one packet of a connection into the fabric, stamped with its transmit time (R135, R240). -/
def transmit (s : State) (d : Die) (c : Nat) (p : TxPkt) (retx : Bool) : State :=
  let k := conn s d c
  let req := { p.req with retx := retx, txTime := s.now, skip := k.skip }
  let who := if p.req.mgmt then mgmtWho else k.inst
  injPush s d ((whoFn s who).port % 4) k.tc who (connPkt s d k p.flits (.req req))

/-- Transmit waiting packets in PSN order while the window allows; `fuel` bounds them. -/
def pump : Nat → State → Die → Nat → State
  | 0, s, _, _ => s
  | n + 1, s, d, c =>
    let k := conn s d c
    match k.waitTx with
    | [] => s
    | p :: rest =>
      if windowOpen k p then
        let s := transmit s d c p false
        let s := modConn s d c fun k =>
          { k with waitTx := rest, unacked := k.unacked ++ [{ p with sentAt := s.now }], lastSent := s.now
                   progressAt := match k.progressAt with | some t => some t | none => some s.now }
        pump n s d c
      else s

/-- Transmit what the window allows. -/
def pumpConn (s : State) (d : Die) (c : Nat) : State := pump (conn s d c).waitTx.length s d c

/-- Put packets into the transmit queue with PSNs from `start` on: those of command `o`, or, with 0, of none. -/
def stageFrom (s : State) (d : Die) (c o : Nat) (start : BitVec 32) (ps : List Piece) : State :=
  let k := conn s d c
  let txs := (ps.zip (List.range ps.length)).map fun (p, i) =>
    let psn := start + BitVec.ofNat 32 i
    ({ psn := psn
       req := { conn := k.peerConn, peer := c, srcInst := k.inst, dstInst := k.remoteInst, psn := psn, first := p.first
                last := p.last, retx := false, txTime := 0, skip := [], op := p.op
                mgmt := decide (o ≠ 0) && (opOf s o).inst.isNone }
       flits := p.flits, bytes := p.bytes, op := o, off := p.off, elem := p.elem, strideEnd := p.strideEnd
       sentAt := 0, resentAt := none, timeouts := 0 } : TxPkt)
  let s := modConn s d c fun k => { k with nextPsn := start + BitVec.ofNat 32 ps.length, waitTx := k.waitTx ++ txs }
  let s := if o = 0 then s else modOp s o fun x =>
    { x with firstPsn := if x.started then x.firstPsn else start, started := true, lastPsn := start + BitVec.ofNat 32 ps.length
             tx := x.tx ++ txs.map fun t => { psn := t.psn, off := t.off, elem := t.elem } }
  pumpConn s d c

/-- Assign the next PSNs in order (R115). -/
def stagePieces (s : State) (d : Die) (c o : Nat) (ps : List Piece) : State := stageFrom s d c o (conn s d c).nextPsn ps

/-- The commands of a connection end that have packets to stage: the long command, or a SEND reading its payload, and those
that wait for it (R115). -/
def stagers (s : State) (k : Conn) : List Nat :=
  k.ops.filter fun o => decide (k.longOp = some o) || decide ((opOf s o).phase = .waitConn)

/-- Stage packets that belong to no command of the issue order in their turn (R115, R160): behind the commands dispatched before
them. [log DEDUCED 184] -/
def stageSide (s : State) (d : Die) (c o : Nat) (ps : List Piece) : State :=
  let k := conn s d c
  if k.sides.isEmpty && (stagers s k).isEmpty then stagePieces s d c o ps
  else modConn s d c fun k => { k with sides := k.sides ++ [{ op := o, pieces := ps, behind := stagers s k }] }

/-- Stage the waiting packets whose turn has come. -/
def flushSides : Nat → State → Die → Nat → State
  | 0, s, _, _ => s
  | n + 1, s, d, c =>
    let k := conn s d c
    match k.sides with
    | [] => s
    | j :: rest =>
      if j.behind.any fun o => (stagers s k).contains o then s
      else
        let s := modConn s d c fun k => { k with sides := rest }
        flushSides n (if j.op = 0 ∨ liveOp s j.op = true then stagePieces s d c j.op j.pieces else s) d c

/-- An earlier command of the connection has packets to stage, or waits for one that does; so have pulls and requests made
again that were due before it (R115). [log DEDUCED 35] -/
def connBusy (s : State) (d : Die) (c o : Nat) : Bool :=
  let k := conn s d c
  (match k.longOp with
    | some p => decide (p ≠ o) && liveOp s p
    | none => false) ||
    ((k.ops.takeWhile fun p => decide (p ≠ o)).any fun p => decide ((opOf s p).phase = .waitConn)) ||
    k.sides.any fun j => !(j.behind.contains o)

/-! ## The packet buffer (R7): 96 MiB of 64-byte cells on each die -/

/-- Cells in use: transmit queues (R68), held packets that are not spilled (R129), fabric queues, transmit stages, packets
suspended or held by the Boom, and Landing's whole carve-out (R174). -/
def bufCells (s : State) (d : Die) : Nat :=
  let x := die s d
  let q (l : List QPkt) : Nat := (l.map fun q => q.pkt.len + 1).sum
  (x.conns.map fun (_, k) => (k.waitTx.map (·.flits)).sum + (k.unacked.map (·.flits)).sum
      + ((k.held.filter fun h => !h.spilled).map fun h => h.pkt.len + 1).sum).sum
    + (x.sch.egq.map fun (_, l) => q l.pkts).sum + (x.sch.injq.map fun (_, l) => q l.pkts).sum
    + (x.sch.egress.map fun (_, y) => q y.flume + (y.stage.map fun g => g.slots.length).sum).sum
    + (x.links.map fun (_, l) => (l.susp.map fun c => c.2.length).sum).sum
    + (x.rtr.boom.map fun (_, f) => (f.held.map fun h => h.2.2.len + 1).sum).sum
    + 16384 * bits (regVal s d 0xC00010) 0 5

/-- Room for `n` flits. -/
def bufRoom (s : State) (d : Die) (n : Nat) : Bool := decide (bufCells s d + n ≤ 1572864)

/-- Strides staged and untransmitted on a connection (R68). -/
def stagedStrides (k : Conn) : Nat := (k.waitTx.filter (·.strideEnd)).length

/-- A connection packet the device sends for itself (acknowledgement, response, control) goes straight to routing. -/
def sendCtl (s : State) (d : Die) (k : Conn) (flits : Nat) (b : Body) : State := emit s (.toRoute d (connPkt s d k flits b))

/-- A CONNECT, CONNECT_ACK, TEARDOWN or CLOSE with this end's descriptor (R112, R113). -/
def sendConnCtl (s : State) (d : Die) (c : Nat) (kind : CtlKind) : State :=
  let k := conn s d c
  sendCtl s d k 1 (.ctl { kind := kind, conn := c, station := localAddr s d k, peerConn := k.peerConn, inst := k.inst,
                          remoteInst := k.remoteInst, remoteStation := k.remoteStation, tc := k.tc, mtu := k.mtu, psn := k.cumAcked })

/-! ## The congestion window (R134, R135) -/

/-- XLT_CC_TCn of a class and XLT_CC_WIN of a die. -/
def ccTarget (s : State) (d : Die) (tc : Nat) : Nat := 10 * bits (regVal s d (0x980000 + 8 * tc)) 0 16
def ccAi (s : State) (d : Die) (tc : Nat) : Nat := 256 * bits (regVal s d (0x980000 + 8 * tc)) 16 16
def ccBeta (s : State) (d : Die) (tc : Nat) : Nat := bits (regVal s d (0x980000 + 8 * tc)) 32 8
def ccMaxMd (s : State) (d : Die) (tc : Nat) : Nat := bits (regVal s d (0x980000 + 8 * tc)) 40 8
def cwndMin (s : State) (d : Die) : Nat := 256 * bits (regVal s d 0x980020) 0 16
def cwndInit (s : State) (d : Die) : Nat := 256 * bits (regVal s d 0x980020) 16 16
def cwndMax (s : State) (d : Die) : Nat := 256 * bits (regVal s d 0x980020) 32 16
def rtoMin (s : State) (d : Die) : Nat := 1000 * bits (regVal s d 0x980028) 0 16
def rtoMax (s : State) (d : Die) : Nat := 1000 * bits (regVal s d 0x980028) 16 16

def clamp (v lo hi : Nat) : Nat := max lo (min v hi)

/-- The window after an acknowledgement with an RTT sample (cc_on_ack of R134). -/
def ccOnAck (s : State) (d : Die) (k : Conn) (rtt acked : Nat) : Conn :=
  let tgt := ccTarget s d k.tc
  let (cw, cut) :=
    if rtt ≤ tgt then (k.cwnd + ccAi s d k.tc * acked / k.cwnd, k.lastCut)
    else if s.now - k.lastCut ≥ k.srtt then
      let f := min (ccBeta s d k.tc * (rtt - tgt) / rtt) (ccMaxMd s d k.tc)
      (k.cwnd - k.cwnd * f / 256, s.now)
    else (k.cwnd, k.lastCut)
  { k with cwnd := clamp cw (cwndMin s d) (cwndMax s d), lastCut := cut }

/-- The cut on a loss found by R132: by MAX_MD, at most once per srtt. -/
def ccOnLoss (s : State) (d : Die) (k : Conn) : Conn :=
  if s.now - k.lastCut ≥ k.srtt then
    { k with cwnd := clamp (k.cwnd - k.cwnd * ccMaxMd s d k.tc / 256) (cwndMin s d) (cwndMax s d), lastCut := s.now }
  else k

/-- srtt and rttvar after a sample, with gains 1/8 and 1/4 (R135). [log DEDUCED 58] -/
def rttSample (k : Conn) (rtt : Nat) : Conn :=
  let diff := if rtt ≥ k.srtt then rtt - k.srtt else k.srtt - rtt
  { k with srtt := k.srtt - k.srtt / 8 + rtt / 8, rttvar := k.rttvar - k.rttvar / 4 + diff / 4 }

/-- The retransmission timeout after `n` consecutive timeouts of one PSN (R132). -/
def rto (s : State) (d : Die) (k : Conn) (n : Nat) : Nat :=
  min (clamp (k.srtt + 4 * k.rttvar) (rtoMin s d) (rtoMax s d) * 2 ^ n) (rtoMax s d)

/-! ## Delivery (R131, R127, R141) -/

/-- Elements of a GATHER or SCATTER: (ADDR, LENGTH, RKEY) (R39). -/
def elements (o : Op) : List (Nat × Nat × Nat) :=
  (List.range (fld (opBlk o) 40 0 5)).map fun i =>
    let b := (opChain o).getD (i / 3) 0
    (fld b (16 * (i % 3)) 0 64, fld b (16 * (i % 3) + 8) 0 32, fld b (16 * (i % 3) + 12) 0 32)

/-- The opcode is GATHER or SCATTER. -/
def isElems (op : Nat) : Bool := op == 0x04 || op == 0x05

/-- The bytes of a data or send command: LENGTH, or the sum of its elements. -/
def opBytes (o : Op) : Nat :=
  if isElems (opcode o) then ((elements o).map (·.2.1)).sum
  else if opcode o = 0x02 ∨ opcode o = 0x21 then fld (opBlk o) 28 20 6
  else fld (opBlk o) 40 0 33

/-- Bytes of elements 0 to k − 1. -/
def elemBytesBefore (o : Op) (k : Nat) : Nat := (((elements o).take k).map (·.2.1)).sum

/-- BYTES of a record that counts `n` bytes: 0 for the opcodes for which R51 gives the field no meaning (PUT_INLINE). [log DEDUCED 17] -/
def bytesField (o : Op) (n : Nat) : Nat := if opcode o = 0x02 ∨ opcode o = 0x61 then 0 else n

/-- The opcode is delivered when VIS_PSN passes its last packet (R131, R158). -/
def visDelivered (op : Nat) : Bool := op ∈ [0x01, 0x02, 0x04, 0x05, 0x06, 0x20, 0x21]

/-- Every packet of the operation has its PSN: nothing is left to stage. -/
def allStaged (o : Op) : Bool :=
  match o.phase with
  | .long .draining => true
  | .sent => true
  | _ => false

/-- Complete the operations of a connection that VIS_PSN has delivered, in issue order (R131). -/
def deliverOps (s : State) (d : Die) (c : Nat) : State :=
  (conn s d c).ops.foldl (fun s o =>
    let x := opOf s o
    if allStaged x && psnReached (conn s d c).visAcked x.lastPsn then
      match x.pendFail with
      | some (code, sub, fi, bytes) => completeOp s o { code := code, sub := sub, failIdx := fi, bytes := bytes }
      | none =>
        if visDelivered (opcode x) then completeOp s o { code := 0, bytes := bytesField x (opBytes x) } else s
    else s) s

/-- The operation fails with a code; what was staged before is delivered first (R127, R141). [log DEDUCED 59] -/
def failAfter (s : State) (o : Nat) (code sub fi bytes : Nat) : State :=
  let x := opOf s o
  match x.conn with
  | none => completeOp s o { code := code, sub := sub, failIdx := fi, bytes := bytes }
  | some c =>
    let s := freeThread (modOp s o fun x =>
      { x with pendFail := some (code, sub, fi, bytes), phase := if x.phase = .sent then .sent else .long .draining }) o
    let s := modConn s x.die c fun k => { k with longOp := if k.longOp = some o then none else k.longOp }
    if x.started then deliverOps s x.die c
    else completeOp s o { code := code, sub := sub, failIdx := fi, bytes := bytes }

/-- The bytes of an operation that its packets shown visible carry: a prefix in byte order, up to its first packet that
VIS_PSN `vis` has not passed (R127). -/
def visibleBytes (o : Op) (vis : BitVec 32) : Nat :=
  if !o.started then 0
  else match o.tx.find? fun t => !(psnBefore t.psn vis) with
    | some t => t.off
    | none => if isLong (opcode o) then o.bytesStaged else opBytes o

/-- Bring BYTES_ACKED of a connection's operations up to VIS_PSN (R69); a long command forgets the packets it has passed. -/
def ackBytes (s : State) (d : Die) (c : Nat) : State :=
  let k := conn s d c
  k.ops.foldl (fun s o =>
    if visDelivered (opcode (opOf s o)) then modOp s o fun x =>
      { x with bytesAcked := visibleBytes x k.visAcked
               tx := if isLong (opcode x) then x.tx.filter fun t => !(psnBefore t.psn k.visAcked) else x.tx }
    else s) s

/-- The length of the placed prefix of a GET. -/
def placedPrefix (l : List (Nat × Nat)) : Nat :=
  (sortBy (fun a b => decide (a.1 ≤ b.1)) l).foldl (fun n p => if p.1 ≤ n then max n (p.1 + p.2) else n) 0

/-- BYTES of a command that its connection cuts short: what is visible at the destination (R142, R143), for a GET the bytes
placed locally. [log DEDUCED 64] -/
def shownBytes (x : Op) : Nat := if opcode x = 0x03 then placedPrefix x.placed else bytesField x x.bytesAcked

/-! ## States of a connection end (R112) -/

/-- The receives matched from a connection end that has failed complete in match order (R163), with their own outcome where
they have one, else with the end's code and the bytes placed (R142). [log DEDUCED 51] -/
def failRecvs (s : State) (d : Die) (c code sub : Nat) : State :=
  ((die s d).cat.ctxs.flatMap fun (_, x) => x.matched.filter fun m => decide (m.conn = c)).foldl (fun s m =>
    let r := m.ready.getD (code, sub, (opOf s m.op).bytesAcked)
    completeOp s m.op { code := r.1, sub := r.2.1, bytes := r.2.2, result := m.tag, station := m.station }) s

/-- Messages of a connection end that is gone and that can never be whole, requests-to-send among them, leave the unexpected
store. -/
def dropUnexp (s : State) (d : Die) (c : Nat) : State :=
  onCat s d fun y => { y with ctxs := tmapv {} y.ctxs fun _ x =>
    { x with unexp := x.unexp.filter fun u => !(decide (u.conn = c)) || (u.eager && u.complete) } }

/-- Fail a connection end (R112): complete every pending command, the receives it fills among them, send TEARDOWN when asked,
post EV_CONN_FAILED. -/
def failConn (s : State) (d : Die) (c code sub : Nat) (teardown : Bool) : State :=
  let k := conn s d c
  let s := modConn s d c fun k =>
    { k with st := .failed, fromDraining := decide (k.st = .draining), unacked := [], waitTx := [], held := [], progressAt := none
             nak4At := none, rnrPsn := none, awaitVis := [], respWait := [], sides := [], msg := .none }
  let s := k.ops.foldl (fun s o =>
    let x := opOf s o
    completeOp s o { code := code, sub := sub, bytes := shownBytes x }) s
  let s := dropUnexp (failRecvs s d c code sub) d c
  let s := if teardown then sendConnCtl s d c .teardown else s
  let data := evb 8 c + evb 12 code + evb 13 sub
  postInst (postMgmt s d 0x22 data) k.inst 0x22 data

/-- The context of a connection end is erased: it becomes ABSENT. -/
def eraseConn (s : State) (d : Die) (c : Nat) : State := modConn s d c fun _ => {}

/-- Grant a connection end (R111, R112): PENDING, a random initial PSN, CONNECT sent. [log DESIGN CHOICE 65] -/
def grantConn (s : State) (d : Die) (c : Nat) (k : Conn) : State :=
  let (v, s) := takeFree s
  let psn := BitVec.ofNat 32 v.toNat
  let s := modConn s d c fun _ =>
    { k with st := .pending, sealedBy := keyOf s d k.inst, nextPsn := psn, cumAcked := psn, visAcked := psn, cwnd := cwndInit s d
             srtt := ccTarget s d k.tc, rttvar := ccTarget s d k.tc / 2, connectAt := s.now }
  sendConnCtl s d c .connect

/-- Revoke a connection end (R112). -/
def revokeConn (s : State) (d : Die) (c : Nat) : State :=
  match (conn s d c).st with
  | .failed => eraseConn s d c
  | _ => modConn s d c fun k => { k with st := .draining }

/-- Connections a die's cache holds, and whether an end is pinned there (R114). -/
def connPinned (k : Conn) : Bool := !k.unacked.isEmpty || !k.ops.isEmpty || !k.waitTx.isEmpty
def cachedCount (s : State) (d : Die) : Nat := ((die s d).conns.filter fun (_, k) => k.cached).length

/-- Bring a connection context into the cache: none when all 32,768 entries are pinned (R114). [log DEDUCED 52] -/
def cacheConn (s : State) (d : Die) (c : Nat) : Option State :=
  if (conn s d c).cached then some (pmc s d 452 1)
  else if cachedCount s d < 32768 then some (modConn (pmc s d 453 1) d c fun k => { k with cached := true })
  else
    match (die s d).conns.find? fun (_, k) => k.cached && !connPinned k with
    | some (v, _) => some (modConn (modConn (pmc s d 453 1) d v fun k => { k with cached := false }) d c fun k => { k with cached := true })
    | none => none

/-- Two descriptors mirror each other (R113): station, connection number, instance, TC and MTU, as the bits of
EV_CONN_MISMATCH that disagree (0: they mirror). -/
def mirrorBits (s : State) (d : Die) (c : Nat) (p : CtlPkt) : Nat :=
  let k := conn s d c
  b2n (!(decide (k.remoteStation = p.station ∧ p.remoteStation = localAddr s d k)))
    + 2 * b2n (!(decide (k.peerConn = p.conn ∧ p.peerConn = c)))
    + 4 * b2n (!(decide (k.remoteInst = p.inst ∧ p.remoteInst = k.inst)))
    + 8 * b2n (decide (k.tc ≠ p.tc)) + 16 * b2n (decide (k.mtu ≠ p.mtu))

/-- EV_CONN_UP to the fabric manager and the instance (R112). -/
def connUp (s : State) (d : Die) (c : Nat) : State :=
  let s := modConn s d c fun k => { k with st := .established }
  let k := conn s d c
  let data := evb 8 c + evb 12 k.remoteStation + evb 16 k.peerConn + evb 20 k.remoteInst + evb 22 (k.tc + 4 * k.mtu)
  postInst (postMgmt s d 0x20 data) k.inst 0x20 data

/-- A CONNECT or CONNECT_ACK arrives (R112). An ESTABLISHED end answers a mirroring CONNECT again, for a lost CONNECT_ACK. [log DEDUCED 49] -/
def connectArrive (s : State) (d : Die) (p : CtlPkt) : State :=
  let c := p.peerConn
  let k := conn s d c
  let m := mirrorBits s d c p
  match k.st with
  | .pending =>
    if m = 0 then
      let s := if p.kind = .connect then sendConnCtl s d c .connectAck else s
      connUp (modConn s d c fun k => { k with expected := p.psn, vis := p.psn, expKnown := true }) d c
    else postMgmt s d 0x21 (evb 8 c + evb 12 p.station + evb 16 p.conn + evb 20 p.inst + evb 22 (p.tc + 4 * p.mtu) + evb 23 m)
  | .established => if m = 0 ∧ p.kind = .connect then sendConnCtl s d c .connectAck else s
  | _ => s

/-- A packet other than a request is taken at its station: the device has an identity, the station is bound and serves the
instance (R15, R22). One that is not is dropped. -/
def stationTakes (s : State) (d : Die) (p : Pkt) (i : Nat) : Bool :=
  s.ident.valid && stationBound s d (p.dst % 16) && stationServes s d (p.dst % 16) i

/-- CONNECT_RECEIVE: a CONNECT or CONNECT_ACK arrives at the die. -/
def execConnectReceive (d : Die) (p : Pkt) (s : State) : Host.Outcome State Fault Refusal :=
  match bodyOf p with
  | .ctl q =>
    if (q.kind = .connect ∨ q.kind = .connectAck) ∧ stationTakes s d p q.remoteInst = true then .next (connectArrive s d q) else .next s
  | _ => .next s

/-- CONNECT_RESEND: a PENDING end resends CONNECT 1 ms after the last one (R112). -/
def execConnectResend (d : Die) (c : Nat) (s : State) : Host.Outcome State Fault Refusal :=
  let k := conn s d c
  if k.st = .pending ∧ s.now ≥ k.connectAt + 1000000 then
    .next (sendConnCtl (modConn s d c fun k => { k with connectAt := s.now }) d c .connect)
  else .next s

/-- TEARDOWN_RECEIVE: TEARDOWN or CLOSE from the peer fails an ESTABLISHED or DRAINING end (R112). -/
def execTeardownReceive (d : Die) (p : Pkt) (s : State) : Host.Outcome State Fault Refusal :=
  match bodyOf p with
  | .ctl q =>
    let k := conn s d q.peerConn
    if (q.kind = .teardown ∨ q.kind = .close) ∧ (k.st = .established ∨ k.st = .draining) ∧ k.peerConn = q.conn
        ∧ stationTakes s d p k.inst = true then
      .next (failConn s d q.peerConn 0x0A 0x05 false)
    else .next s
  | _ => .next s

/-- A receive matched from the connection end has no record yet. [log DEDUCED 50] -/
def filling (s : State) (d : Die) (c : Nat) : Bool :=
  (die s d).cat.ctxs.any fun (_, x) => x.matched.any fun m => decide (m.conn = c)

/-- CONN_DRAIN_DONE: every command of a DRAINING end has its record, or a FAILED end came from DRAINING (R112). -/
def execConnDrainDone (d : Die) (c : Nat) (s : State) : Host.Outcome State Fault Refusal :=
  let k := conn s d c
  if k.st = .draining ∧ k.ops = [] ∧ k.sides = [] ∧ filling s d c = false then .next (dropUnexp (eraseConn (sendConnCtl s d c .close) d c) d c)
  else if k.st = .failed ∧ k.fromDraining = true ∧ k.ops = [] then .next (eraseConn s d c)
  else .next s

/-- PACED_SEND: a connection whose window is smaller than its next packet sends it after the pacing interval (R136). -/
def execPacedSend (d : Die) (c : Nat) (s : State) : Host.Outcome State Fault Refusal :=
  let k := conn s d c
  match k.waitTx with
  | p :: rest =>
    if k.cwnd < p.bytes ∧ k.unacked.length < 4096 ∧ s.now ≥ k.lastSent + k.srtt * p.bytes / k.cwnd then
      let s := transmit s d c p false
      .next (modConn s d c fun k =>
        { k with waitTx := rest, unacked := k.unacked ++ [{ p with sentAt := s.now }], lastSent := s.now
                 progressAt := match k.progressAt with | some t => some t | none => some s.now })
    else .next s
  | [] => .next s

/-- PROGRESS_TIMEOUT: 2 s without progress fails the connection, SUBCAUSE 0x04 when the target answered that its host is
down, 0x03 otherwise (R143, R144). -/
def execProgressTimeout (d : Die) (c : Nat) (s : State) : Host.Outcome State Fault Refusal :=
  let k := conn s d c
  match k.progressAt with
  | some t =>
    if (k.st = .established ∨ k.st = .draining) ∧ s.now ≥ t + 2000000000 then
      .next (failConn s d c 0x0A (if k.nak4At.isSome then 0x04 else 0x03) true)
    else .next s
  | none => .next s

end Sys2Proof.Machine
end

