-- ==== Sys2Proof/Machine/Catalog.lean ====
section
/-! DEFINITION. Catalog (05_catalog_matching): contexts, the matching rule, the unexpected store, placement into receives,
pulls, speculation and the predictor. -/

namespace Sys2Proof.Machine

open Sys2Proof

/-- What applying a packet at the target gives (R116, R126, R166). -/
inductive ApplyRes where
  | done (s : State)
  | refuse (s : State) (k : NakKind)
  | notReady
  | walk (w : Walk)
deriving DecidableEq, Repr

/-- A message of TAG on connection end `c` matches a posted receive (R150). -/
def recvMatches (c tag : Nat) (r : Recv) : Bool :=
  (decide (r.srcConn = c ∨ r.srcConn = 0xFFFFF)) &&
    decide ((BitVec.ofNat 64 tag ^^^ r.tag) &&& ~~~r.ignore = 0)

/-- The posted receives and unexpected headers of an instance, and of a die (R149, R154). -/
def postedOf (s : State) (d : Die) (i : Nat) : Nat :=
  (((die s d).cat.ctxs.filter fun (k, _) => decide (k / 65536 = i)).map fun (_, x) => x.posted.length).sum
def postedDie (s : State) (d : Die) : Nat := ((die s d).cat.ctxs.map fun (_, x) => x.posted.length).sum
def unexpOf (s : State) (d : Die) (i : Nat) : Nat :=
  (((die s d).cat.ctxs.filter fun (k, _) => decide (k / 65536 = i)).map fun (_, x) => x.unexp.length).sum
def unexpDie (s : State) (d : Die) : Nat := ((die s d).cat.ctxs.map fun (_, x) => x.unexp.length).sum

/-- KiB that an eager message of `len` bytes costs (R164). -/
def kibOf (len : Nat) : Nat := (len + 1023) / 1024
def unexpKib (l : List Unexp) : Nat := ((l.filter (·.eager)).map fun u => kibOf u.len).sum
def unexpKibOf (s : State) (d : Die) (i : Nat) : Nat :=
  (((die s d).cat.ctxs.filter fun (k, _) => decide (k / 65536 = i)).map fun (_, x) => unexpKib x.unexp).sum
def unexpKibDie (s : State) (d : Die) : Nat := ((die s d).cat.ctxs.map fun (_, x) => unexpKib x.unexp).sum

/-- The unexpected store has room for a message (R164, R166). -/
def unexpRoom (s : State) (d : Die) (i : Nat) (eager : Bool) (len : Nat) : Bool :=
  decide (unexpOf s d i < (inst s i).maxUnexp ∧ unexpDie s d < 8388608) &&
    (!eager || decide (unexpKibOf s d i + kibOf len ≤ (inst s i).maxUnexpKib
      ∧ unexpKibDie s d + kibOf len ≤ 1024 * bits (regVal s d 0xC00018) 0 16))

/-! ## Completing receives in match order (R162, R163) -/

/-- The instance of a context key. -/
def ctxInst (key : Nat) : Nat := key / 65536

/-- Complete every matched receive that is ready and has no earlier unfinished one matched from its connection. -/
def flushMatched : Nat → State → Die → Nat → Nat → State
  | 0, s, _, _, _ => s
  | n + 1, s, d, i, c =>
    let x := ctxOf s d i c
    let rec pick : List Matched → List Nat → Option Matched
      | [], _ => none
      | m :: t, seen =>
        if m.ready.isSome && !(seen.contains m.conn) then some m else pick t (m.conn :: seen)
    match pick x.matched [] with
    | none => s
    | some m =>
      let s := modCtx s d i c fun x => { x with matched := x.matched.filter fun y => decide (y.op ≠ m.op) }
      let (code, sub, bytes) := m.ready.getD (0, 0, 0)
      let s := completeOp s m.op
        { code := code, sub := sub, bytes := bytes, result := m.tag, station := m.station }
      flushMatched n s d i c

/-- Complete what can complete in a context. -/
def flushCtx (s : State) (d : Die) (i c : Nat) : State := flushMatched (ctxOf s d i c).matched.length s d i c

/-- The context of a receive: bytes 48–49 of its block. -/
def recvCtx (o : Op) : Nat := fld (opBlk o) 48 0 16

/-- A matched receive has its outcome; it completes in match order. -/
def recvReady (s : State) (o code sub bytes : Nat) : State :=
  let x := opOf s o
  let i := x.inst.getD 1024
  let c := recvCtx x
  let s := modCtx s x.die i c fun y =>
    { y with matched := y.matched.map fun m => if m.op = o ∧ m.ready.isNone = true then { m with ready := some (code, sub, bytes) } else m }
  flushCtx s x.die i c

/-- The outcome of a whole placed message (R162): CC_OK, or CC_TRUNCATED with BYTES = BUF_LEN. -/
def placedOutcome (len bufLen : Nat) : Nat × Nat × Nat := if len > bufLen then (0x10, 0, bufLen) else (0x00, 0, len)

/-- Translate the part of a receive's buffer that `n` bytes at message offset `off` go to. -/
def recvPieces (s : State) (own : WalkFor) (extra : List TlbEnt) (o off n : Nat) : XlRange :=
  let x := opOf s o
  let buf := fld (opBlk x) 16 0 64
  let bl := fld (opBlk x) 40 0 32
  let m := min (off + n) bl - off
  xltRange s extra (x.inst.getD 1024) .lw own (buf + off) m

/-- Place message bytes at an offset of a receive's buffer; a fault ends the receive with SUBCAUSE 0x01 and the rest of
its message is discarded. [log DEDUCED 68] -/
def placeBytes (s : State) (own : WalkFor) (extra : List TlbEnt) (o off : Nat) (data : List Byte) : ApplyRes :=
  let x := opOf s o
  match recvPieces s own extra o off data.length with
  | .walk w => .walk w
  | .fail c => .refuse (recvReady s o c 0x01 (min off (fld (opBlk x) 40 0 32))) (.refuse c 0x01 0x1F off)
  | .ok ps =>
    let s := writePieces s (x.inst.getD 1024) (fld (opBlk x) 16 0 64 + off) ps data true
    .done (modOp s o fun x => { x with bytesAcked := off + data.length })

/-- Finish a match (R152, R151): the receive leaves the posting order and joins the matched receives. -/
def takeRecv (s : State) (d : Die) (i c : Nat) (o cn len tag : Nat) (handle : Option Nat) (station : Nat) : State :=
  let x := opOf s o
  let s := modCtx s d i c fun y =>
    { y with posted := y.posted.filter fun r => decide (r.op ≠ o)
             matched := y.matched ++ [{ op := o, conn := cn, len := len, bufLen := fld (opBlk x) 40 0 32, tag := tag,
                                        handle := handle, placed := 0, ready := none, station := station }] }
  modOp (pmc s d 512 1) o fun x => { x with phase := .receiving, conn := some cn }

/-! ## Rendezvous (R159 to R161) -/

/-- Cut a range into read requests of at most 65,536 bytes. -/
def cutReads : Nat → Nat → Nat → List (Nat × Nat)
  | 0, _, _ => []
  | f + 1, off, len => if len = 0 then [] else
      let n := min len 65536
      (off, n) :: cutReads f (off + n) (len - n)

/-- Send the finish packet of a receive's pull (R160), in its turn of the issue order. -/
def sendFinish (s : State) (d : Die) (c o handle bytes code sub : Nat) : State :=
  stageSide s d c o [{ op := .finish handle bytes code sub, flits := 1, bytes := 0, first := true, last := true }]

/-- A pull's read request for one range. -/
def pullPiece (handle : Nat) (r : Nat × Nat) : Piece :=
  { op := .pull handle r.1 r.2, flits := 1, bytes := r.2, off := r.1, first := true, last := true }

/-- Start pulling a matched request-to-send: min(LENGTH, BUF_LEN) bytes, requests under the receiving end's own congestion
control (R160). -/
def startPull (s : State) (d : Die) (cn o handle len : Nat) : State :=
  let bl := fld (opBlk (opOf s o)) 40 0 32
  let n := min len bl
  if n = 0 then
    let s := sendFinish s d cn 0 handle 0 0 0
    let r := placedOutcome len bl
    recvReady s o r.1 r.2.1 r.2.2
  else
    stageSide (modOp s o fun x => { x with since := s.now }) d cn o ((cutReads (n / 65536 + 1) 0 n).map (pullPiece handle))

/-- Pulled data arrives (R160, R161): placed in the receive's buffer; when every byte has come the receive and the finish
packet follow; a failure at the sending device ends both, with the prefix placed. [log DESIGN CHOICE 185] -/
def pullData (s : State) (d : Die) (r : RespPkt) : ApplyRes :=
  let live := s.ops.find? fun (o, x) => decide (x.phase = .receiving ∧ x.die = d ∧ x.conn = some r.conn) &&
    ((ctxOf s d (x.inst.getD 1024) (recvCtx x)).matched.any fun m => decide (m.op = o ∧ m.handle = some r.handle) && m.ready.isNone)
  match live with
  | none => .done s
  | some (o, x) =>
    let m := ((ctxOf s d (x.inst.getD 1024) (recvCtx x)).matched.find? fun m => decide (m.op = o)).getD
      { op := o, conn := r.conn, len := 0, bufLen := 0, tag := 0, handle := none, placed := 0, ready := none }
    match r.fail with
    | some (code, _) =>
      let s := recvReady s o code 0x02 x.bytesAcked
      .done (sendFinish s d r.conn 0 r.handle x.bytesAcked code 0x01)
    | none =>
      match recvPieces s (.target r.conn) ((conn s d r.conn).xl ++ x.xl) o r.off r.data.length with
      | .walk w => .walk w
      | .fail c =>
        let s := recvReady s o c 0x01 x.bytesAcked
        .done (sendFinish s d r.conn 0 r.handle x.bytesAcked 0 0)
      | .ok ps =>
        let s := writePieces s (x.inst.getD 1024) (fld (opBlk x) 16 0 64 + r.off) ps r.data true
        let l := addNew x.placed (r.off, r.data.length)
        let s := modOp s o fun x => { x with placed := l, bytesAcked := placedPrefix l, since := s.now }
        let n := min m.len m.bufLen
        if placedPrefix l ≥ n then
          let out := placedOutcome m.len m.bufLen
          let s := sendFinish s d r.conn 0 r.handle n 0 0
          .done (recvReady s o out.1 out.2.1 out.2.2)
        else .done s

/-! ## The predictor and speculation (R170 to R175) -/

def predIdx (i c cn tag : Nat) : Nat := Config.predictorIndex i c cn tag % 65536
def predKey (i c cn tag : Nat) : Nat := Config.predictorKey i c cn tag % 65536

/-- The confidence of a header's predictor entry: 0 when its partial key does not match (R171). -/
def confidence (s : State) (d : Die) (i c cn tag : Nat) : Nat :=
  let e := tget {} (die s d).cat.pred (predIdx i c cn tag)
  if e.key = predKey i c cn tag then e.conf else 0

/-- Train the predictor at confirmation (R173). -/
def trainPred (s : State) (d : Die) (i c cn tag : Nat) (proposal confirmed : Option Nat) : State :=
  match proposal with
  | none => s
  | some p =>
    let k := confidence s d i c cn tag
    let k' := if confirmed = some p then min 3 (k + 1) else k - 2
    onCat s d fun x => { x with pred := tset {} x.pred (predIdx i c cn tag) { conf := k', key := predKey i c cn tag } }

/-- Receives proposed to unconfirmed headers held by the die's connections (R172). -/
def proposed (s : State) (d : Die) : List Nat :=
  (die s d).conns.flatMap fun (_, k) => k.held.filterMap (·.proposal)

/-- The proposal for a header (R172): the earliest matching receive not proposed to another header. -/
def propose (s : State) (d : Die) (i c cn tag : Nat) : Option Nat :=
  let taken := proposed s d
  ((ctxOf s d i c).posted.find? fun r => recvMatches cn tag r && !(taken.contains r.op)).map (·.op)

/-- Where a speculative write may go (R174, R175 case 7): the buffer itself, Landing, or nowhere, because the write faults. -/
inductive SpecTo where
  | buffer (ps : List (Nat × Nat))
  | landing
  | faults
deriving DecidableEq, Repr

/-- Speculative bytes go to the buffer itself in a plain writable window, with pages in the TLB and LANDING_ONLY 0 (R174). -/
def specDirect (s : State) (d : Die) (o off n : Nat) : SpecTo :=
  let x := opOf s o
  let buf := fld (opBlk x) 16 0 64
  let m := min (off + n) (fld (opBlk x) 40 0 32) - off
  if bit (regVal s d 0xC00008) 1 then .landing
  else
    match winHolding (inst s (x.inst.getD 1024)) (buf + off) m with
    | some (_, w) =>
      if w.sideEffect || !w.lw then .landing
      else match xltRange s [] (x.inst.getD 1024) .lw (.op o) (buf + off) m with
        | .ok ps => .buffer ps
        | .walk _ => .landing
        | .fail _ => .faults
    | none => .landing

/-- Landing occupied by the messages held, in KiB (CAT_LANDING_CFG.IN_USE). -/
def landingInUse (s : State) (d : Die) : Nat := ((die s d).conns.map fun (_, k) => (k.held.map (·.landed)).sum).sum

/-- Landing has room for a payload of `n` bytes. -/
def landingRoom (s : State) (d : Die) (n : Nat) : Bool := decide (landingInUse s d + kibOf n ≤ 1024 * bits (regVal s d 0xC00010) 0 5)

/-- Speculate on a held header whose message is `len` long (R172, R174): the new state, whether the device speculates or has
abandoned the speculation, and the KiB of Landing that the message takes. [log DEDUCED 74] -/
def speculate (s : State) (d : Die) (i c cn tag o len : Nat) (data : List Byte) : State × SpecSt × Nat :=
  let ctl := regVal s d 0xC00008
  if bit ctl 0 && decide (confidence s d i c cn tag ≥ bits ctl 2 2) then
    match specDirect s d o 0 data.length with
    | .buffer ps => (writePieces s i (fld (opBlk (opOf s o)) 16 0 64) ps data true, .made, 0)
    | .faults => (s, .abandoned, 0)
    | .landing => if landingRoom s d len then (s, .made, kibOf len) else (s, .none, 0)
  else (s, .none, 0)

/-- The speculation that a held later packet belongs to: the PSN of its header, the receive, the offset in the message, and whether
the whole message has its room in Landing. The receive is still posted (R175 case 5). -/
def specMore (s : State) (d : Die) (k : Conn) (psn : BitVec 32) : Option (BitVec 32 × Nat × Nat × Bool) :=
  k.held.findSome? fun h =>
    match h.pkt.body, h.proposal with
    | .req q, some o =>
      (match q.op with
      | .msg ctx _ len _ =>
        let off := (psn - q.psn).toNat * mtuBytes k.mtu
        if decide (h.spec = .made ∧ 0 < off ∧ off < len) && (ctxOf s d k.inst ctx).posted.any fun r => decide (r.op = o)
        then some (q.psn, o, off, decide (h.landed ≠ 0)) else none
      | _ => none)
    | _, _ => none

/-- A held later packet of a speculated message is written too, to the buffer or to Landing, or ends the speculation
(R170, R172, R174, R175 case 7): the new state and the KiB of Landing that the packet takes. [log DEDUCED 75] -/
def speculateMore (s : State) (d : Die) (c : Nat) (psn : BitVec 32) (data : List Byte) : State × Nat :=
  let k := conn s d c
  if !(bit (regVal s d 0xC00008) 0) then (s, 0)
  else match specMore s d k psn with
  | none => (s, 0)
  | some (head, o, off, lands) =>
    (match specDirect s d o off data.length with
    | .buffer ps => (writePieces s k.inst (fld (opBlk (opOf s o)) 16 0 64 + off) ps data true, 0)
    | .landing => (s, if !lands && landingRoom s d data.length then kibOf data.length else 0)
    | .faults => (modConn s d c fun k => { k with held := k.held.map fun h => if h.psn = head then { h with spec := .abandoned } else h }, 0))

/-- Confirmation (R173, R175 cases 2 and 7): train, count a hit, a miss or an abandoned speculation. -/
def confirmSpec (s : State) (d : Die) (i c cn tag : Nat) (prop : Option Nat) (spec : SpecSt) (got : Option Nat) : State :=
  let s := trainPred s d i c cn tag prop got
  match spec with
  | .none => s
  | .made => if prop = got then pmc (bumpReg s d 0xC00030) d 517 1 else pmc (bumpReg s d 0xC00038) d 518 1
  | .abandoned => pmc (bumpReg s d 0xC00040) d 519 1

/-- CAT_SPEC_FLUSH: every predictor entry to confidence 0 (R173). -/
def specFlush (s : State) (d : Die) : State := onCat s d fun x => { x with pred := [] }

def execCatSpecFlush (d : Die) (s : State) : Host.Outcome State Fault Refusal := .next (specFlush s d)

/-! ## An applied header (HEADER_MATCH, R151, R147, R148) -/

/-- The first packet of an eager message, applied at connection end `cn` (R157, R158). -/
def applyMsg (s : State) (d : Die) (cn ctx tag len : Nat) (data : List Byte) (poison last : Bool) (prop : Option Nat) (spec : SpecSt)
    (psn : BitVec 32) : ApplyRes :=
  let k := conn s d cn
  let i := k.inst
  let x := ctxOf s d i ctx
  if blockDown s d 0x0C then .notReady
  else if x.st = .closed then .refuse s (.refuse 0x0B 0x07 0x1F 0)
  else
    let prop' := match prop with | some p => some p | none => propose s d i ctx cn tag
    match x.posted.find? (recvMatches cn tag) with
    | some r =>
      if poison then
        let s := confirmSpec (takeRecv s d i ctx r.op cn len tag none k.remoteStation) d i ctx cn tag prop' spec (some r.op)
        .done (recvReady (modConn s d cn fun k => { k with msg := if last then .none else .discard }) r.op 0x07 0x01 0)
      else match placeBytes (takeRecv s d i ctx r.op cn len tag none k.remoteStation) (.target cn) k.xl r.op 0 data with
      | .walk w => .walk w
      | .done s =>
        let s := confirmSpec s d i ctx cn tag prop' spec (some r.op)
        .done (modConn s d cn fun k => { k with msg := if last then .none else .recv r.op data.length })
      | .refuse s _ =>
        .done (modConn (confirmSpec s d i ctx cn tag prop' spec (some r.op)) d cn fun k =>
          { k with msg := if last then .none else .discard })
      | .notReady => .notReady
    | none =>
      if unexpRoom s d i true len then
        let id := (die s d).cat.nextId
        let u : Unexp := { id := id, conn := cn, tag := BitVec.ofNat 64 tag, len := len, eager := true, handle := 0, data := data,
                           complete := last, poison := poison, psn := psn, headerBad := false, station := k.remoteStation, sealedBy := keyOf s d i }
        let s := confirmSpec s d i ctx cn tag prop' spec none
        let s := onCat (pmc s d 513 1) d fun x => { x with nextId := id + 1 }
        let s := modCtx s d i ctx fun x => { x with unexp := x.unexp ++ [u] }
        .done (modConn s d cn fun k => { k with msg := if last then .none else .store i ctx id })
      else .notReady

/-- A later packet of an eager message (R157): to wherever the header went. -/
def applyMore (s : State) (d : Die) (cn : Nat) (data : List Byte) (poison last : Bool) : ApplyRes :=
  let k := conn s d cn
  let close (s : State) (m : MsgDest) := modConn s d cn fun k => { k with msg := if last then .none else m }
  match k.msg with
  | .none => .done s
  | .discard => .done (close s .discard)
  | .recv o off =>
    if !(liveOp s o) then .done (close s .discard)
    else if poison then .done (recvReady (close s .discard) o 0x07 0x01 0)
    else
      match placeBytes s (.target cn) k.xl o off data with
      | .walk w => .walk w
      | .done s => .done (close s (.recv o (off + data.length)))
      | .refuse s _ => .done (close s .discard)
      | .notReady => .notReady
  | .store i ctx id =>
    let s := modCtx s d i ctx fun x => { x with unexp := x.unexp.map fun u =>
      if u.id = id then { u with data := u.data ++ data, complete := u.complete || last, poison := u.poison || poison } else u }
    .done (close s (.store i ctx id))

/-- A request-to-send, applied (R159, R160). -/
def applyRts (s : State) (d : Die) (cn ctx tag len handle : Nat) (psn : BitVec 32) : ApplyRes :=
  let i := (conn s d cn).inst
  let x := ctxOf s d i ctx
  if blockDown s d 0x0C then .notReady
  else if x.st = .closed then .refuse s (.refuse 0x0B 0x07 0x1F 0)
  else
    match x.posted.find? (recvMatches cn tag) with
    | some r => .done (startPull (takeRecv s d i ctx r.op cn len tag (some handle) (conn s d cn).remoteStation) d cn r.op handle len)
    | none =>
      if unexpRoom s d i false len then
        let id := (die s d).cat.nextId
        let u : Unexp := { id := id, conn := cn, tag := BitVec.ofNat 64 tag, len := len, eager := false, handle := handle, data := [],
                           complete := true, poison := false, psn := psn, headerBad := false, station := (conn s d cn).remoteStation
                           sealedBy := keyOf s d i }
        let s := onCat (pmc s d 513 1) d fun x => { x with nextId := id + 1 }
        .done (modCtx s d i ctx fun x => { x with unexp := x.unexp ++ [u] })
      else .notReady

/-! ## RECV_POST against the unexpected store (R152) -/

/-- Write a stashed message to its receive's buffer; a walk leaves it translating. -/
def placeStash (s : State) (o len : Nat) (complete : Bool) : State :=
  let x := opOf s o
  match placeBytes s (.op o) x.xl o 0 x.stash with
  | .walk w => startWalk (modOp s o fun x => { x with phase := .translating }) w
  | .done s =>
    let s := modOp s o fun x => { x with phase := .receiving, stash := [] }
    if complete then
      let r := placedOutcome len (fld (opBlk x) 40 0 32)
      recvReady s o r.1 r.2.1 r.2.2
    else s
  | .refuse s _ => s
  | .notReady => s

/-- A receive takes an unexpected message. -/
def takeUnexp (s : State) (d : Die) (i ctx o : Nat) (u : Unexp) : State :=
  let s := modCtx (pmc s d 514 1) d i ctx fun x => { x with unexp := x.unexp.filter fun v => decide (v.id ≠ u.id) }
  let s := takeRecv s d i ctx o u.conn u.len u.tag.toNat (if u.eager then none else some u.handle) u.station
  if u.poison || !(opens s d i u.sealedBy) then recvReady s o 0x07 0x01 0
  else if u.eager then
    let s := modOp s o fun x => { x with stash := u.data }
    let s := modConn s d u.conn fun k =>
      { k with msg := if k.msg = .store i ctx u.id then .recv o u.data.length else k.msg }
    placeStash s o u.len u.complete
  else startPull s d u.conn o u.handle u.len

/-- The posting of a receive: search the store in arrival order, else join the posting order (R152). -/
def postRecv (s : State) (o : Nat) : State :=
  let x := opOf s o
  let b := opBlk x
  let i := x.inst.getD 1024
  let ctx := recvCtx x
  let r : Recv := { op := o, cookie := x.cookie, bufAddr := fld b 16 0 64, bufLen := fld b 40 0 32, srcConn := fld b 44 0 20
                    tag := BitVec.ofNat 64 (fld b 24 0 64), ignore := BitVec.ofNat 64 (fld b 32 0 64) }
  match (ctxOf s x.die i ctx).unexp.find? fun u => recvMatches u.conn u.tag.toNat r && !u.headerBad with
  | some u => takeUnexp s x.die i ctx o u
  | none =>
    let s := modCtx s x.die i ctx fun y => { y with posted := y.posted ++ [r] }
    modOp s o fun x => { x with phase := .posted }

/-- A receive can be posted: the quota and the die's capacity have room (R165). -/
def postedRoom (s : State) (d : Die) (i : Nat) : Bool :=
  decide (postedOf s d i < (inst s i).maxPosted ∧ postedDie s d < 16777216)

/-! ## Contexts (R146, R164) -/

/-- Open or draining contexts of a die (R145). -/
def openCtxs (s : State) (d : Die) : Nat := ((die s d).cat.ctxs.filter fun (_, x) => decide (x.st ≠ .closed)).length

/-- Refuse an undelivered request-to-send (R164): a negative acknowledgement that names its PSN. [log DEDUCED 69] -/
def refuseRts (s : State) (d : Die) (u : Unexp) : State :=
  let k := conn s d u.conn
  sendCtl s d k 1 (.ack { conn := k.peerConn, peer := u.conn, cum := k.expected, vis := k.vis, sack := 0, echo := 0, echoRetx := true,
                          nak := some (u.psn, .refuse 0x0B 0x08 0x1F 0), result := none, sat := [], refused := [] })

/-- Close a context (R146): posted receives cancelled, unexpected messages discarded, requests-to-send refused. [log DEDUCED 70, DEDUCED 212] -/
def closeCtx (s : State) (d : Die) (i c : Nat) : State :=
  let x := ctxOf s d i c
  if x.st = .closed then s
  else
    let s := modCtx s d i c fun x => { x with st := .closed, posted := [], unexp := [] }
    let s := x.posted.foldl (fun s r => completeOp s r.op { code := 0x0E }) s
    let s := (s.ops.filter fun (_, o) => decide (o.phase = .waitPosted ∧ o.inst = some i ∧ o.die = d ∧ recvCtx o = c)).foldl
      (fun s o => completeOp s o.1 { code := 0x0E }) s
    let s := (x.unexp.filter fun u => !u.eager).foldl (fun s u => refuseRts s d u) s
    let n := (x.unexp.filter (·.eager)).length
    let s := (die s d).conns.foldl (fun s (c', k) => match k.msg with
      | .store i' ctx _ => if i' = i ∧ ctx = c then modConn s d c' fun k => { k with msg := .discard } else s
      | _ => s) s
    if n > 0 then postInst s i 0x31 (evb 8 c + evb 12 n) else s

/-- Close every context of an instance: quiesce, FLR, removal (R146). -/
def closeInstCtxs (s : State) (d : Die) (i : Nat) : State :=
  (die s d).cat.ctxs.foldl (fun s (k, _) => if k / 65536 = i then closeCtx s d i (k % 65536) else s) s

/-- A SEND or SEND_INLINE of a context has no record yet. -/
def sendsLive (s : State) (d : Die) (i c : Nat) : Bool :=
  s.ops.any fun (_, x) => decide (x.inst = some i ∧ x.die = d) &&
    (decide (opcode x = 0x20 ∧ fld (opBlk x) 48 0 16 = c) || decide (opcode x = 0x21 ∧ fld (opBlk x) 24 0 16 = c))

/-- CTX_DRAIN_DONE: the records that a CTX_DRAIN or CTX_CLOSE awaits are written (R146). -/
def execCtxDrainDone (o : Nat) (s : State) : Host.Outcome State Fault Refusal :=
  let x := opOf s o
  if x.phase = .ctxDrain then
    let y := ctxOf s x.die (x.inst.getD 1024) (fld (opBlk x) 48 0 16)
    let ok := if opcode x = 0x25 then !(sendsLive s x.die (x.inst.getD 1024) (fld (opBlk x) 48 0 16)) else y.matched.isEmpty
    if ok then .next (completeOp s o { code := 0 }) else .next s
  else .next s

end Sys2Proof.Machine
end

