-- ==== Sys2Proof/Machine/Target.lean ====
section
/-! DEFINITION. A connection end's receiving side (R116, R121 to R133): PSN order, the checks of R126, applying operations,
acknowledgements, flushes and visibility, receiver-not-ready, and serving pulls. -/

namespace Sys2Proof.Machine

open Sys2Proof

/-! ## Acknowledgements (R130) -/

/-- SACK: bit i set when CUM_PSN + 1 + i is held. -/
def sackBits (k : Conn) : BitVec 128 :=
  k.held.foldl (fun b h =>
    let i := (h.psn - k.expected).toNat
    if 1 ≤ i ∧ i ≤ 128 then b ||| (1#128 <<< (i - 1)) else b) 0

/-- The acknowledgement of a connection end as it stands. [log DEDUCED 55] -/
def mkAck (k : Conn) (c : Nat) : AckPkt :=
  { conn := k.peerConn, peer := c, cum := k.expected, vis := k.vis, sack := sackBits k, echo := k.lastEcho
    echoRetx := k.lastEchoRetx, nak := none, result := none, sat := k.sats, refused := k.refusals }

/-- Send an acknowledgement, changed by `f`. -/
def sendAckWith (s : State) (d : Die) (c : Nat) (f : AckPkt → AckPkt) : State :=
  let k := conn s d c
  modConn (sendCtl s d k 1 (.ack (f (mkAck k c)))) d c fun k => { k with sinceAck := 0, ackAt := none }

def sendAck (s : State) (d : Die) (c : Nat) : State := sendAckWith s d c id

/-- A negative acknowledgement names the refused PSN and its outcome. -/
def sendNak (s : State) (d : Die) (c : Nat) (psn : BitVec 32) (n : NakKind) : State :=
  sendAckWith s d c fun a => { a with nak := some (psn, n) }

/-- A negative acknowledgement of a packet that reached no connection end (R22): straight back to its source. -/
def bounce (s : State) (d : Die) (p : Pkt) (r : ReqPkt) (n : NakKind) : State :=
  emit s (.toRoute d
    { p with dst := p.src, src := p.dst, level := 0, leg := false, lhop := false, ord := false, start := false, viaGroup := 0
             gwRouter := 0, gwPort := 0, len := 0, kind := 0, det := false, viaRouter := 0, rsv := 0, fseq := 0
             body := .ack { conn := r.peer, peer := r.conn, cum := 0, vis := 0, sack := 0, echo := 0, echoRetx := true
                            nak := some (r.psn, n), result := none, sat := [], refused := [] } })

/-! ## Visibility (R131, R138, R158) -/

/-- How far VIS_PSN may go: not past a message that is not yet accepted (R158). -/
def visLimit (k : Conn) : BitVec 32 := if k.msg = .none then k.expected else k.msgPsn

/-- A receive whose whole message is visible gets its outcome (R162). -/
def recvVisible (s : State) (o : Nat) : State :=
  let x := opOf s o
  match (ctxOf s x.die (x.inst.getD 1024) (recvCtx x)).matched.find? fun m => decide (m.op = o) with
  | some m =>
    let r := placedOutcome m.len m.bufLen
    recvReady s o r.1 r.2.1 r.2.2
  | none => s

/-- Advance VIS_PSN (R131): commands whose last packet it passes increment their remote Tally before the acknowledgement
(R138), and their receives complete. -/
def visTo (s : State) (d : Die) (c : Nat) (v : BitVec 32) : State :=
  let k := conn s d c
  if psnBefore k.vis v then
    let due := k.awaitVis.filter fun e => psnBefore e.1 v
    let s := modConn s d c fun k => { k with vis := v, awaitVis := k.awaitVis.filter fun e => !(psnBefore e.1 v) }
    let s := due.foldl (fun s e =>
      let s := match e.2.1 with
        | some t =>
          let r := tallyInc s t
          if r.2 then modConn r.1 d c fun k => { k with sats := (e.1 :: k.sats).take 4096 } else r.1
        | none => s
      match e.2.2 with
      | some o => if liveOp s o then recvVisible s o else s
      | none => s) s
    sendAck s d c
  else s

/-- Issue a flush read of length zero on the target host link (R131), unless one is in flight. -/
def startFlush (s : State) (d : Die) (c : Nat) : State :=
  let k := conn s d c
  if k.unflushed && k.flushCover.isNone && decide ((inst s k.inst).st ≠ .resetting) then
    askRead (modConn s d c fun k => { k with unflushed := false, flushDueAt := none, flushCover := some (visLimit k) })
      (.flush d c) k.inst none false false 0 0
  else s

/-- Nothing applied waits for a flush: VIS_PSN follows EXPECTED. -/
def visFollow (s : State) (d : Die) (c : Nat) : State :=
  let k := conn s d c
  if !k.unflushed && k.flushCover.isNone then visTo s d c (visLimit k) else s

/-! ## The checks of R126 -/

/-- The host link of an instance is up. -/
def instLinkUp (s : State) (i : Nat) : Bool :=
  let f := (inst s i).fn
  (tget {} (die s (portDie f.port)).hst.links (4 * (f.port % 4) + f.link)).up

/-- Steps 3 to 6 of R126 for a remote key over a range of `total` bytes: the refusal, if any. -/
def remoteCheck (s : State) (k : Conn) (rkey off total : Nat) (accs : List Acc) (tally : Option Nat) : Option NakKind :=
  let x := inst s k.inst
  let w := tget {} x.wins (rkeyWin rkey)
  if x.st ≠ .running then some (.refuse 0x0B 0x05 0x1F 0)
  else if rkeyInst rkey ≠ k.inst then some (.refuse 0x0B 0x01 0x1F 0)
  else if !w.valid || decide (rkeyNonce rkey ≠ w.nonce) then some (.refuse 0x0B 0x02 0x1F 0)
  else if !(accs.all (winGrants w)) then some (.refuse 0x0B 0x03 0x1F 0)
  else if total ≠ 0 ∧ off + total > w.size * 65536 then some (.refuse 0x06 0x02 0x1F 0)
  else
    match tally with
    | some t => if x.tallies.any (fun r => decide (r.1 ≤ t ∧ t < r.1 + r.2)) then none else some (.refuse 0x0B 0x04 0x1F 0)
    | none => none

/-- The window of a remote key is still the one the key was issued for: packets of a command admitted under an old nonce
fail as at step 4 (R333). -/
def keyCurrent (s : State) (k : Conn) (rkey : Nat) : Bool :=
  let w := tget {} (inst s k.inst).wins (rkeyWin rkey)
  w.valid && decide (rkeyNonce rkey = w.nonce)

/-- Step 7 of R126: translate a packet's range of the window of a remote key. -/
def remotePieces (s : State) (k : Conn) (c rkey off len : Nat) (wr : Bool) : XlRange :=
  if len = 0 then .ok []
  else
    let w := ((oldWin k.xl k.inst).map (·.2)).getD (tget {} (inst s k.inst).wins (rkeyWin rkey))
    xltPieces s k.xl k.inst (rkeyWin rkey) w wr (.target c) (len / 65536 + 2) (w.base + off) len

/-- All of R126 from step 3 for one packet. -/
def remoteRange (s : State) (k : Conn) (c rkey off len total : Nat) (first : Bool) (accs : List Acc) (wr : Bool)
    (tally : Option Nat) : XlRange ⊕ NakKind :=
  match (if (oldWin k.xl k.inst).isSome then none else if first then remoteCheck s k rkey off total accs tally
         else if keyCurrent s k rkey then none else some (.refuse 0x0B 0x02 0x1F 0)) with
  | some n => .inr n
  | none => .inl (remotePieces s k c rkey off len wr)

/-! ## Atomics (R123 to R125) -/

/-- The new value of an atomic; none: nothing is written. -/
def atomicNew (op size v operand compare : Nat) : Option Nat :=
  if op = 0 then some ((v + operand) % 2 ^ (8 * size))
  else if op = 1 then some operand
  else if v = compare then some operand else none

/-- The means by which a target performs an atomic (R124): CXL.cache, a PCIe AtomicOp, or a read-modify-write of the device. -/
inductive AtomicBy where
  | cxl | atomicOp | device
deriving DecidableEq, Repr

/-- The first means that the instance's host link allows (R124). -/
def atomicBy (s : State) (i op size : Nat) : AtomicBy :=
  let f := (inst s i).fn
  let h := tget {} (die s (portDie f.port)).hst.links (4 * (f.port % 4) + f.link)
  let b := if size = 8 then op else 3
  if h.cxlCache then .cxl
  else if bit h.atomicOps b && (decide (size = 8) || decide (op = 2)) then .atomicOp
  else .device

/-- The scope of R124: 0 when the link does it for every agent of the host, 1 for a device read-modify-write. -/
def atomicScope (s : State) (i op size : Nat) : Nat := if atomicBy s i op size = .device then 1 else 0

/-- Perform an atomic whose prior value is `v` by the means of R124: the line taken exclusive, updated and released; one PCIe
AtomicOp; or a read and a write of the device's own. A taken line is released at once, so that a link never holds more than the
lines of one atomic (R311). Nothing is asked of a host whose function is in reset. -/
def performAtomic (s : State) (i a : Nat) (ps : List (Nat × Nat)) (op size v operand compare : Nat) : State :=
  let f := (inst s i).fn
  let write (s : State) := match atomicNew op size v operand compare with
    | some n => writePieces s i a ps (leBytes size n)
    | none => s
  if (inst s i).st = .resetting ∨ forensic s = true then s
  else match atomicBy s i op size with
    | .cxl =>
      let s := ps.foldl (fun s p => emit s (.cxlTake f.port f.link (p.1 / 64 * 64))) s
      ps.foldl (fun s p => emit s (.cxlRelease f.port f.link (p.1 / 64 * 64))) (write s)
    | .atomicOp => ps.foldl (fun s p => emit s (.atomicOp f.port f.link p.1 size op operand compare)) s
    | .device => write (readNow s [] i a ps)

/-! ## Applying (R116) -/

/-- Cut response data at the MTU. -/
def cutData (mtu : Nat) : Nat → Nat → List Byte → List (Nat × List Byte)
  | 0, off, data => [(off, data)]
  | n + 1, off, data => if data.length ≤ mtu then [(off, data)] else (off, data.take mtu) :: cutData mtu n (off + mtu) (data.drop mtu)

/-- Send responses of a read or a pull (R120, R160). -/
def sendResps (s : State) (d : Die) (c : Nat) (l : List RespPkt) : State :=
  l.foldl (fun s r => sendCtl s d (conn s d c) (dataFlits r.data.length) (.resp r)) s

/-- The responses that carry `data` to byte `dest` on. -/
def respsOf (k : Conn) (pull : Bool) (handle dest : Nat) (data : List Byte) : List RespPkt :=
  (cutData (mtuBytes k.mtu) (data.length / 256 + 1) dest data).map fun p =>
    { conn := k.peerConn, inst := k.inst, pull := pull, handle := handle, off := p.1, data := p.2, fail := none }

/-- A read request, applied (R120, R121, R126). The responses of a side-effect window are held as long as the connection end
stands. [log DESIGN CHOICE 53] -/
def applyRead (s : State) (d : Die) (c rkey off len total handle dest : Nat) (first : Bool) (hr : TargetRead) : ApplyRes :=
  let k := conn s d c
  match remoteRange s k c rkey off len total first [.rr] false none with
  | .inr n => .refuse s n
  | .inl .. =>
    let w := tget {} (inst s k.inst).wins (rkeyWin rkey)
    if w.sideEffect ∧ total > 4096 then .refuse s (.refuse 0x0B 0x06 0x1F 0)
    else
      let again := k.keptResp.filter fun r => decide (r.handle = handle ∧ dest ≤ r.off ∧ r.off < dest + max 1 len)
      if w.sideEffect && !again.isEmpty then .done (sendResps s d c again)
      else
        match remotePieces s k c rkey off len false with
        | .walk w => .walk w
        | .fail code => .refuse s (.refuse code 0x02 0x1F 0)
        | .ok ps =>
          let s := readNow s k.xl k.inst (w.base + off) ps
          match hr.fail with
          | some f => .refuse s (.refuse (readFailCode f) 0x02 0x1F 0)
          | none =>
            let l := respsOf k false handle dest (hr.bytes.take len)
            let s := if w.sideEffect then modConn s d c fun k => { k with keptResp := l ++ k.keptResp } else s
            .done (sendResps s d c l)

/-- An atomic, applied (R123, R124): its result is kept and returned with the acknowledgement. -/
def applyAtomic (s : State) (d : Die) (c : Nat) (psn : BitVec 32) (rkey off size op operand compare : Nat) (hr : TargetRead) : ApplyRes :=
  let k := conn s d c
  match remoteRange s k c rkey off size size true [.rr, .rw] true none with
  | .inr n => .refuse s n
  | .inl (.walk w) => .walk w
  | .inl (.fail code) => .refuse s (.refuse code 0x02 0x1F 0)
  | .inl (.ok ps) =>
    let a := (tget {} (inst s k.inst).wins (rkeyWin rkey)).base + off
    match hr.fail with
    | some f => .refuse (readNow s k.xl k.inst a ps) (.refuse (readFailCode f) 0x02 0x1F 0)
    | none =>
      let v := leNat (hr.bytes.take size)
      let s := performAtomic s k.inst a ps op size v operand compare
      let s := pmc s d 458 (atomicScope s k.inst op size)
      .done (modConn s d c fun k => { k with kept := ((psn, v, atomicScope s k.inst op size) :: k.kept).take 256 })

/-- Where a write packet goes. The first packet of a SCATTER element needs the whole element translated, which is delivered
whole or not at all (R122, R141). [log DEDUCED 60] -/
def writeRange (s : State) (k : Conn) (c rkey off len total : Nat) (first elem : Bool) (tally : Option Nat) : XlRange ⊕ NakKind :=
  match remoteRange s k c rkey off (if elem then total else len) total first [.rw] true tally with
  | .inl (.ok _) => .inl (remotePieces s k c rkey off len true)
  | r => r

/-- A write packet, applied (R119, R122). -/
def applyWrite (s : State) (d : Die) (c rkey off len total : Nat) (data : Option (List Byte)) (tally : Option Nat)
    (first elem : Bool) : ApplyRes :=
  match writeRange s (conn s d c) c rkey off len total first elem tally with
  | .inr n => .refuse s n
  | .inl (.walk w) => .walk w
  | .inl (.fail code) => .refuse s (.refuse code 0x02 0x1F 0)
  | .inl (.ok ps) =>
    let i := (conn s d c).inst
    .done (writePieces s i ((tget {} (inst s i).wins (rkeyWin rkey)).base + off) ps (data.getD (List.replicate len 0)) true)

/-- The rendezvous SEND of a connection end with a pull handle. -/
def rdvOp (s : State) (k : Conn) (handle : Nat) : Option Nat := k.rdv.find? fun o => decide ((opOf s o).handle = handle)

/-- A pull request, served from the SEND's LOCAL_ADDR (R160) while the sending instance is RUNNING (R126 step 3); a failure is
told to the receiver (R161). -/
def applyPull (s : State) (d : Die) (c handle off len : Nat) (hr : TargetRead) : ApplyRes :=
  let k := conn s d c
  let failed (s : State) (code : Nat) :=
    sendResps s d c [{ conn := k.peerConn, inst := k.inst, pull := true, handle := handle, off := off, data := [], fail := some (code, 0x02) }]
  match rdvOp s k handle with
  | none => .done (failed s 0x0B)
  | some o =>
    if (inst s k.inst).st ≠ .running then .done (failed s 0x0B)
    else match xltRange s k.xl k.inst .lr (.target c) (fld (opBlk (opOf s o)) 16 0 64 + off) len with
    | .walk w => .walk w
    | .fail code => .done (failed s code)
    | .ok ps =>
      let s := readNow s k.xl k.inst (fld (opBlk (opOf s o)) 16 0 64 + off) ps
      match hr.fail with
      | some f => .done (failed s (readFailCode f))
      | none => .done (sendResps s d c (respsOf k true handle off (hr.bytes.take len)))

/-- A finish packet, applied: the SEND completes with the byte count it carries, or with the failure (R160, R161). -/
def applyFinish (s : State) (_d : Die) (k : Conn) (handle bytes code sub : Nat) : State :=
  match rdvOp s k handle with
  | some o => completeOp s o { code := code, sub := sub, bytes := bytes }
  | none => s

/-- The operation writes host memory, which a flush must cover. -/
def opWrites : ReqOp → Bool
  | .write .. => true
  | .msg .. => true
  | .more .. => true
  | _ => false

/-- The kind of a packet that several of one command can be of: a write, a read request, an eager message, another. -/
def reqKind : ReqOp → Nat
  | .write .. => 0
  | .read .. => 1
  | .msg .. => 2
  | .more .. => 2
  | _ => 3

/-- The packet is a later one of the command being refused (R126). [log DEDUCED 186] -/
def discarded (k : Conn) (r : ReqPkt) : Bool := !r.first && decide (k.refusing = some (reqKind r.op))

/-- Apply a packet at EXPECTED: steps 3 to 7 of R126, then its effect. -/
def applyReq (s : State) (d : Die) (c : Nat) (h : HeldPkt) (r : ReqPkt) : ApplyRes :=
  let k := conn s d c
  if (inst s k.inst).st = .resetting ∨ instLinkUp s k.inst = false ∨ blockDown s d 0x09 = true then .refuse s .resetting
  else if discarded k r then .done s
  else
    match r.op with
    | .write rkey off len total data tally elem =>
      applyWrite s d c rkey off len total data tally (r.first || decide (total ≠ 0)) elem
    | .read rkey off len total handle dest => applyRead s d c rkey off len total handle dest r.first h.hr
    | .atomic rkey off size op operand compare => applyAtomic s d c r.psn rkey off size op operand compare h.hr
    | .msg ctx tag len data =>
      if (inst s k.inst).st ≠ .running then .refuse s (.refuse 0x0B 0x05 0x1F 0)
      else applyMsg s d c ctx tag len data h.poison r.last h.proposal h.spec r.psn
    | .more data => applyMore s d c data h.poison r.last
    | .rts ctx tag len handle =>
      if (inst s k.inst).st ≠ .running then .refuse s (.refuse 0x0B 0x05 0x1F 0) else applyRts s d c ctx tag len handle r.psn
    | .pull handle off len => applyPull s d c handle off len h.hr
    | .finish handle bytes code sub => .done (applyFinish s d k handle bytes code sub)

/-- The receive a message packet fills, before and after it is applied: the one that completes when it is visible. -/
def msgRecv (s0 s1 : State) (d : Die) (c : Nat) (r : ReqPkt) : Option Nat :=
  match r.op with
  | .more _ => match (conn s0 d c).msg with
    | .recv o _ => some o
    | _ => none
  | .msg ctx tag _ _ =>
    match (ctxOf s0 d (conn s0 d c).inst ctx).posted.find? (recvMatches c tag) with
    | some p => if (ctxOf s1 d (conn s1 d c).inst ctx).matched.any fun m => decide (m.op = p.op) && m.ready.isNone then some p.op else none
    | none => none
  | _ => none

/-- The remote Tally of a write packet. -/
def reqTally (r : ReqPkt) : Option Nat :=
  match r.op with
  | .write _ _ _ _ _ t _ => t
  | _ => none

/-- ECHO_TS follows a packet that advances CUM_PSN or sets a SACK bit, unless a packet that came later has done so (R130). -/
def echoOf (k : Conn) (arr : Nat) (r : ReqPkt) : Conn :=
  if arr ≥ k.echoArr then { k with lastEcho := r.txTime, lastEchoRetx := r.retx, echoArr := arr } else k

/-- EXPECTED advances past an applied packet; what is due then is sent or flushed (R130, R131). -/
def advance (s0 s : State) (d : Die) (c : Nat) (h : HeldPkt) (r : ReqPkt) : State :=
  let ok := !(discarded (conn s0 d c) r)
  let wrote := ok && opWrites r.op
  let isMsg := match r.op with | .msg .. => true | _ => false
  let s := modConn s d c fun k =>
    { echoOf k h.arr r with
             expected := r.psn + 1, held := k.held.filter fun x => decide (x.psn ≠ r.psn), sinceAck := k.sinceAck + 1, xl := []
             ackAt := match k.ackAt with | some t => some t | none => some (s.now + 2000)
             unflushed := k.unflushed || wrote
             flushDueAt := if wrote then (match k.flushDueAt with | some t => some t | none => some (s.now + 8000)) else k.flushDueAt
             msgPsn := if isMsg then h.psn else k.msgPsn
             refusing := if ok || r.last then none else k.refusing
             rnrSince := none, rnrHead := none
             awaitVis := if ok && r.last && wrote then k.awaitVis ++ [(r.psn, reqTally r, msgRecv s0 s d c r)] else k.awaitVis }
  let s := if r.last then startFlush s d c else s
  let s := visFollow s d c
  match r.op with
  | .atomic .. =>
    let res := (conn s d c).kept.find? fun e => decide (e.1 = r.psn)
    sendAckWith s d c fun a => { a with result := if ok then res else none }
  | _ => if r.last ∨ (conn s d c).sinceAck ≥ 8 then sendAck s d c else s

/-- A refused packet: nothing of it applies, EXPECTED passes it, later packets of its command are discarded, and the
outcome goes back (R126). -/
def refusePkt (s : State) (d : Die) (c arr : Nat) (r : ReqPkt) (n : NakKind) : State :=
  let s := modConn s d c fun k =>
    { echoOf k arr r with
             expected := r.psn + 1, held := k.held.filter fun x => decide (x.psn ≠ r.psn), xl := []
             rnrSince := none, rnrHead := none
             refusing := if r.last then none else some (reqKind r.op), refusals := ((r.psn, n) :: k.refusals).take 4096 }
  let s := startFlush s d c
  sendNak (visFollow s d c) d c r.psn n

/-- Drop the packet at EXPECTED without applying it. -/
def dropHeld (s : State) (d : Die) (c : Nat) (psn : BitVec 32) : State :=
  modConn s d c fun k => { k with held := k.held.filter fun x => decide (x.psn ≠ psn) }

/-- A walk for a connection end's packet is already in flight or queued. -/
def walkPending (s : State) (d : Die) (c : Nat) : Bool :=
  (die s d).hst.walks.any fun (_, w) => match w with
    | some w => decide (w.owner = .target c)
    | none => false

/-- Applying the packet reads host memory. -/
def readsHost : ReqOp → Bool
  | .read .. => true
  | .atomic .. => true
  | .pull .. => true
  | _ => false

/-- The packet read for its connection's instance: false where its cells or its spilled bytes are poisoned, by another owner
or another key (R347, R348). The block that reads is XLT. -/
def heldRead (s : State) (d : Die) (c : Nat) (h : HeldPkt) : Bool × State :=
  let i := (conn s d c).inst
  if h.spilled then (opens s d i h.sealedBy, s) else cellRead s d 0x09 h.owner (some i)

/-- Apply held packets in PSN order from EXPECTED, passing over PSNs that the initiator names as refused unreceived. -/
def drainHeld : Nat → State → Die → Nat → State
  | 0, s, _, _ => s
  | n + 1, s, d, c =>
    let k := conn s d c
    let skips := k.held.flatMap fun h => match h.pkt.body with | .req r => r.skip | _ => []
    if k.expected ∈ skips then
      drainHeld n (modConn s d c fun k =>
        { k with expected := k.expected + 1, held := k.held.filter fun x => decide (x.psn ≠ k.expected) }) d c
    else
      match k.held.find? fun h => decide (h.psn = k.expected) with
      | none => s
      | some h =>
        match heldRead s d c h with
        | (false, s) => dropHeld s d c h.psn
        | (true, s) =>
        match h.pkt.body with
        | .req r =>
          if readsHost r.op && !(tagsNow s k.inst) then { s with tagWait := addNew s.tagWait (d, c) }
          else match applyReq s d c h r with
          | .done s' => drainHeld n (advance s s' d c h r) d c
          | .refuse s' .resetting => sendNak (dropHeld s' d c r.psn) d c r.psn .resetting
          | .refuse s' n' => drainHeld n (refusePkt s' d c h.arr r n') d c
          | .notReady =>
            let s := modConn s d c fun k =>
              { k with rnrSince := match k.rnrSince with | some t => some t | none => some s.now, rnrHead := some r }
            sendNak (dropHeld (pmc s d 520 1) d c r.psn) d c r.psn .notReady
          | .walk w => if walkPending s d c then s else startWalk s w
        | _ => dropHeld s d c h.psn

/-- Hold an accepted packet; an eager header may be speculated on (R129, R172). With a message packet the read outcome says whether
its payload is found uncorrectable in the packet buffer before it is placed (R177). [log DESIGN CHOICE 189] -/
def holdPkt (s : State) (d : Die) (c : Nat) (p : Pkt) (r : ReqPkt) (hr : TargetRead) : State :=
  let k := conn s d c
  let isMsg := reqKind r.op = 2
  let add (s : State) (prop : Option Nat) (spec : SpecSt) (land : Nat) := modConn s d c fun k =>
    let k := { k with held := k.held ++ [{ psn := r.psn, pkt := p, poison := isMsg && decide (hr.fail = some .poison), proposal := prop, spec := spec, hr := hr, landed := land
                                           arr := k.arrCtr + 1, owner := some k.inst, sealedBy := keyOf s d k.inst
                                           spilled := !(bufRoom s d (p.len + 1)) }]
                      arrCtr := k.arrCtr + 1 }
    if 1 ≤ (r.psn - k.expected).toNat ∧ (r.psn - k.expected).toNat ≤ 128 then echoOf k k.arrCtr r else k
  match r.op with
  | .msg ctx tag len data =>
    if r.psn ≠ k.expected ∧ (ctxOf s d k.inst ctx).st ≠ .closed then
      match propose s d k.inst ctx c tag with
      | some o =>
        let x := speculate s d k.inst ctx c tag o len data
        add x.1 (some o) x.2.1 x.2.2
      | none => add s none .none 0
    else add s none .none 0
  | .more data =>
    let x := if r.psn ≠ k.expected then speculateMore s d c r.psn data else (s, 0)
    add x.1 none .none x.2
  | _ => add s none .none 0

/-- A duplicate is discarded and answered: an atomic by its kept result, a refused packet by its outcome again (R125, R133). -/
def answerDup (s : State) (d : Die) (c : Nat) (r : ReqPkt) : State :=
  let k := conn s d c
  match k.refusals.find? fun e => decide (e.1 = r.psn) with
  | some e => sendNak s d c r.psn e.2
  | none => sendAckWith s d c fun a => { a with result := k.kept.find? fun e => decide (e.1 = r.psn) }

/-- Steps 1 and 2 of R126, then holding and applying (R129, R133). -/
def receiveReq (s : State) (d : Die) (p : Pkt) (r : ReqPkt) (hr : TargetRead) : State :=
  let c := r.conn
  let k := conn s d c
  if !(decide (connDie c = d ∧ (k.st = .established ∨ k.st = .draining) ∧ k.peerConn = r.peer ∧ k.remoteStation = p.src
      ∧ localAddr s d k = p.dst ∧ k.tc = p.tc ∧ k.remoteInst = r.srcInst ∧ k.inst = r.dstInst)) then
    emit s (.toRoute d
      { p with dst := p.src, src := p.dst, level := 0, leg := false, lhop := false, ord := false, start := false, viaGroup := 0
               gwRouter := 0, gwPort := 0, len := 0, kind := 0, det := false, viaRouter := 0, rsv := 0, fseq := 0
               body := .ctl { kind := .teardown, conn := c, station := p.dst, peerConn := r.peer, inst := r.dstInst
                              remoteInst := r.srcInst, remoteStation := p.src, tc := p.tc, mtu := 0, psn := 0 } })
  else if psnBefore r.psn k.expected then answerDup s d c r
  else if (r.psn - k.expected).toNat > 4095 then s
  else if k.held.any fun h => decide (h.psn = r.psn) then sendAck s d c
  else
    let s := drainHeld 8192 (holdPkt s d c p r hr) d c
    if (conn s d c).held.any fun h => decide (h.psn = r.psn) then sendAck s d c else s

/-- A connection packet reaches the station layer (R15, R19, R20, R22, R126). -/
def arriveReq (s : State) (d : Die) (p : Pkt) (r : ReqPkt) (hr : TargetRead) : State :=
  if !s.ident.valid then s
  else if stationBound s d (stnOf p.dst) && stationServes s d (stnOf p.dst) r.dstInst then receiveReq s d p r hr
  else bounce s d p r .unbound

/-- The operation is a pull request, or a finish packet. -/
def isPull : ReqOp → Bool
  | .pull .. => true
  | _ => false
def isFinish : ReqOp → Bool
  | .finish .. => true
  | _ => false

/-- DATA_PACKET_ARRIVE: a connection packet other than a pull request or a finish packet arrives. -/
def execDataPacketArrive (d : Die) (p : Pkt) (hr : TargetRead) (s : State) : Host.Outcome State Fault Refusal :=
  match bodyOf p with
  | .req r => if isPull r.op ∨ isFinish r.op then .next s else .next (arriveReq s d p r hr)
  | _ => .next s

/-- PULL_REQUEST: a rendezvous pull request reaches the sending device (R160). -/
def execPullRequest (d : Die) (p : Pkt) (hr : TargetRead) (s : State) : Host.Outcome State Fault Refusal :=
  match bodyOf p with
  | .req r => if isPull r.op then .next (arriveReq s d p r hr) else .next s
  | _ => .next s

/-- FINISH_PACKET: a rendezvous finish packet reaches the sending device (R160). -/
def execFinishPacket (d : Die) (p : Pkt) (s : State) : Host.Outcome State Fault Refusal :=
  match bodyOf p with
  | .req r => if isFinish r.op then .next (arriveReq s d p r { bytes := [], fail := none }) else .next s
  | _ => .next s

/-- ACK_TIMER: 2 µs after the first unacknowledged application (R130). [log DESIGN CHOICE 10] -/
def execAckTimer (d : Die) (c : Nat) (s : State) : Host.Outcome State Fault Refusal :=
  match (conn s d c).ackAt with
  | some t => if s.now ≥ t then .next (sendAck s d c) else .next s
  | none => .next s

/-- FLUSH_TIMER: at least every 8 µs while applied writes are not visible (R131). -/
def execFlushTimer (d : Die) (c : Nat) (s : State) : Host.Outcome State Fault Refusal :=
  match (conn s d c).flushDueAt with
  | some t => if s.now ≥ t then .next (startFlush s d c) else .next s
  | none => .next s

/-- Reads have completed: connection ends whose packet waited for tags go on (R254). [log DESIGN CHOICE 204] -/
def tagWaiters (s : State) : State :=
  let l := s.tagWait
  l.foldl (fun s x => drainHeld 8192 s x.1 x.2) { s with tagWait := [] }

/-- The outcome of a failed flush read (R339). -/
def flushFailCode : ReadFail → Nat
  | .timeout => 0x08
  | _ => 0x06

/-- The flush is answered: VIS_PSN passes what it covered, and another follows while commands wait for visibility. [log DEDUCED 56] -/
def flushDone (s : State) (d : Die) (c : Nat) (fail : Option ReadFail) : State :=
  let k := conn s d c
  match k.flushCover with
  | none => s
  | some v =>
    let s := modConn s d c fun k => { k with flushCover := none }
    match fail with
    | none =>
      let s := visTo s d c v
      if (conn s d c).awaitVis.isEmpty then visFollow s d c else startFlush s d c
    | some f =>
      let due := k.awaitVis.filter fun e => psnBefore e.1 v
      let n := NakKind.refuse (flushFailCode f) 0x02 0x1F 0
      let s := modConn s d c fun k =>
        { k with awaitVis := k.awaitVis.filter fun e => !(psnBefore e.1 v)
                 refusals := ((due.map fun e => (e.1, n)) ++ k.refusals).take 4096 }
      let s := due.foldl (fun s e => match e.2.2 with
        | some o => if liveOp s o then recvReady s o (flushFailCode f) 0x01 0 else s
        | none => s) s
      due.foldl (fun s e => sendNak s d c e.1 n) (visTo s d c v)

/-- FLUSH_COMPLETE (R131). -/
def execFlushComplete (d : Die) (c : Nat) (fail : Option ReadFail) (s : State) : Host.Outcome State Fault Refusal :=
  match takeReads s (.flush d c) (decide (fail = some .timeout)) with
  | some (true, s) => .next (flushDone s d c fail)
  | some (false, s) => .next s
  | none => .next s

/-- The header that a receiver-not-ready answer turned away still cannot be stored or matched. -/
def rnrStill (s : State) (d : Die) (c : Nat) (r : ReqPkt) : Bool :=
  let i := (conn s d c).inst
  let full (ctx tag len : Nat) (eager : Bool) : Bool :=
    !(unexpRoom s d i eager len) && !((ctxOf s d i ctx).posted.any (recvMatches c tag))
  match r.op with
  | .msg ctx tag len _ => full ctx tag len true
  | .rts ctx tag len _ => full ctx tag len false
  | _ => false

/-- The context of a message header. -/
def reqCtx (r : ReqPkt) : Nat :=
  match r.op with
  | .msg ctx .. => ctx
  | .rts ctx .. => ctx
  | _ => 0

/-- RNR_LIMIT_EXPIRY: 10 ms after the first receiver-not-ready answer the message is refused (R166). -/
def execRnrLimitExpiry (d : Die) (c : Nat) (s : State) : Host.Outcome State Fault Refusal :=
  let k := conn s d c
  match k.rnrSince, k.rnrHead with
  | some t, some r =>
    if s.now ≥ t + 10000000 ∧ rnrStill s d c r = true ∧ r.psn = k.expected then
      let s := refusePkt s d c k.arrCtr r (.refuse 0x0F 0x02 0x1F 0)
      let data := evb 8 (reqCtx r) + evb 10 k.inst + evb 12 c + evb 16 2
      .next (drainHeld 8192 (postInst (postMgmt s d 0x30 data) k.inst 0x30 data) d c)
    else .next s
  | _, _ => .next s

end Sys2Proof.Machine
end

