-- ==== Sys2Proof/Machine/Init.lean ====
section
/-! DEFINITION. A connection end's initiating side after sending (R120, R125, R127, R130 to R135, R141 to R143, R166):
acknowledgements, refusals, retransmission, and GET responses. -/

namespace Sys2Proof.Machine

open Sys2Proof

/-! ## Retransmission (R132) -/

/-- Send a packet again with its original PSN. -/
def resend (s : State) (d : Die) (c : Nat) (p : TxPkt) (byTimeout : Bool) : State :=
  let s := transmit (pmc s d 454 1) d c p true
  modConn s d c fun k =>
    { k with unacked := k.unacked.map fun q =>
        if q.psn = p.psn then { q with sentAt := s.now, resentAt := some s.now, timeouts := if byTimeout then q.timeouts + 1 else q.timeouts }
        else q }

/-- Bit of SACK for a PSN after CUM_PSN. -/
def sacked (a : AckPkt) (psn : BitVec 32) : Bool :=
  let i := (psn - a.cum).toNat
  decide (1 ≤ i ∧ i ≤ 128) && a.sack.getLsbD (i - 1)

/-- A later PSN than `psn` is held at the receiver. -/
def laterHeld (a : AckPkt) (psn : BitVec 32) : Bool :=
  (List.range 128).any fun i => a.sack.getLsbD i && psnBefore psn (a.cum + 1 + BitVec.ofNat 32 i)

/-- Packets that an acknowledgement shows missing, each resent at most once per srtt; a header answered
receiver-not-ready waits for its own timer (R166). -/
def missing (s : State) (k : Conn) (a : AckPkt) : List TxPkt :=
  k.unacked.filter fun p =>
    !(psnBefore p.psn a.cum) && !(sacked a p.psn) && laterHeld a p.psn && decide (k.rnrPsn ≠ some p.psn) &&
      (match p.resentAt with
       | some t => decide (s.now ≥ t + k.srtt)
       | none => true)

/-- The cut on a loss, counted. -/
def lossCut (s : State) (d : Die) (c : Nat) : State :=
  let k := conn s d c
  let k' := ccOnLoss s d k
  let s := modConn s d c fun _ => k'
  if k'.lastCut ≠ k.lastCut then pmc s d 456 1 else s

/-- RTO_EXPIRY: packets unacknowledged for the retransmission timeout are resent (R132); the window is cut (R134). [log DEDUCED 57] -/
def rtoDue (s : State) (d : Die) (k : Conn) : List TxPkt :=
  k.unacked.filter fun p => !p.sacked && decide (s.now ≥ p.sentAt + rto s d k p.timeouts ∧ k.rnrPsn ≠ some p.psn)

/-! ## GET (R120) -/

/-- Complete a GET whose every byte is placed, or whose bytes before a failure are (R57, R142). -/
def getDone (s : State) (o : Nat) : State :=
  let x := opOf s o
  let n := placedPrefix x.placed
  match x.pendFail with
  | some (code, sub, _, off) => if n ≥ off then completeOp s o { code := code, sub := sub, bytes := min n off } else s
  | none =>
    if n ≥ opBytes x ∧ !x.placed.isEmpty then completeOp s o { code := 0, bytes := opBytes x } else s

/-- The ranges below `n` that no placed range covers, cut into read requests of 65,536 bytes. -/
def missingRanges (placed : List (Nat × Nat)) (n : Nat) : List (Nat × Nat) :=
  let gaps := (sortBy (fun a b => decide (a.1 ≤ b.1)) placed).foldl (fun (acc : List (Nat × Nat) × Nat) p =>
    (if p.1 > acc.2 then acc.1 ++ [(acc.2, p.1 - acc.2)] else acc.1, max acc.2 (p.1 + p.2))) ([], 0)
  let all := if gaps.2 < n then gaps.1 ++ [(gaps.2, n - gaps.2)] else gaps.1
  (all.filter fun g => decide (g.1 < n)).flatMap fun g => cutReads (min g.2 (n - g.1) / 65536 + 1) g.1 (min g.2 (n - g.1))

/-- The ranges of a GET not yet placed: all of it, or what is below the byte at which it was refused (R142). -/
def getMissing (x : Op) : List (Nat × Nat) :=
  match x.pendFail with
  | some (_, _, _, off) => missingRanges x.placed off
  | none => if opBytes x = 0 then [(0, 0)] else missingRanges x.placed (opBytes x)

/-- The ranges that a matched rendezvous receive has still to pull, and its pull handle (R160). -/
def pullMissing (s : State) (o : Nat) : Option (Nat × List (Nat × Nat)) :=
  let x := opOf s o
  match (ctxOf s x.die (x.inst.getD 1024) (recvCtx x)).matched.find? fun m => decide (m.op = o) && m.ready.isNone with
  | some m => m.handle.map fun h => (h, missingRanges x.placed (min m.len m.bufLen))
  | none => none

/-- The read request of a GET for one range. `total` is the command's LENGTH on its first packet. -/
def getPiece (x : Op) (o : Nat) (first : Bool) (last : Bool) (r : Nat × Nat) : Piece :=
  let b := opBlk x
  { op := .read (fld b 32 0 32) (fld b 24 0 64 + r.1) r.2 (if first then opBytes x else 0) o r.1
    flits := 1, bytes := r.2, off := r.1, first := first, last := last }

/-- The requests that an operation makes again: those of a GET, or of a receive that pulls. -/
def againPieces (s : State) (d : Die) (c o : Nat) : List Piece :=
  let x := opOf s o
  if x.die ≠ d ∨ x.conn ≠ some c then []
  else if opcode x = 0x03 ∧ x.phase = .sent then (getMissing x).map fun r => getPiece x o false true r
  else if x.phase = .receiving then
    match pullMissing s o with
    | some (h, l) => l.map (pullPiece h)
    | none => []
  else []

/-- Request again the ranges of GETs and pulls whose responses are missing a retransmission timeout after their last sign of
life (R120, R160): new requests with PSNs of their own. [log DESIGN CHOICE 187] -/
def reRequest (s : State) (d : Die) (c : Nat) : State :=
  s.ops.foldl (fun s (o, _) =>
    let k := conn s d c
    if s.now ≥ (opOf s o).since + rto s d k 0 ∧ ((k.unacked ++ k.waitTx).any fun p => decide (p.op = o)) = false
        ∧ (k.sides.any fun j => decide (j.op = o)) = false then
      match againPieces s d c o with
      | [] => s
      | ps => stageSide (modOp s o fun x => { x with since := s.now }) d c o ps
    else s) s

/-- RTO_EXPIRY (R132, R120). -/
def execRtoExpiry (d : Die) (c : Nat) (s : State) : Host.Outcome State Fault Refusal :=
  let k := conn s d c
  if k.st = .established ∨ k.st = .draining then
    let due := rtoDue s d k
    let s := due.foldl (fun s p => resend s d c p true) s
    let s := if due.isEmpty then s else lossCut (pmc s d 455 due.length) d c
    .next (reRequest s d c)
  else .next s

/-- A GET response arrives (R120): placed in local memory; a walk keeps it waiting. -/
def getResponse (s : State) (d : Die) (r : RespPkt) : ApplyRes :=
  let x := opOf s r.handle
  if opcode x = 0x03 ∧ x.conn = some r.conn ∧ x.die = d then
    let i := x.inst.getD 1024
    match xltRange s ((conn s d r.conn).xl ++ x.xl) i .lw (.target r.conn) (fld (opBlk x) 16 0 64 + r.off) r.data.length with
    | .walk w => .walk w
    | .fail code =>
      .done (completeOp s r.handle { code := code, sub := 0x01, bytes := min r.off (placedPrefix x.placed) })
    | .ok ps =>
      let s := writePieces s i (fld (opBlk x) 16 0 64 + r.off) ps r.data
      let s := modOp s r.handle fun x => { x with placed := addNew x.placed (r.off, r.data.length), since := s.now }
      .done (getDone s r.handle)
  else .done s

/-- A response, of a GET or of a pull; one that needs a walk waits for it. -/
def takeResp (s : State) (d : Die) (r : RespPkt) : State :=
  match (if r.pull then pullData s d r else getResponse s d r) with
  | .done s => s
  | .refuse s _ => s
  | .notReady => s
  | .walk w =>
    let s := modConn s d r.conn fun k => { k with respWait := k.respWait ++ [r] }
    if walkPending s d r.conn then s else startWalk s w

/-- GET_RESPONSE_ARRIVE: responses for an instance in reset are discarded (R323). -/
def execGetResponseArrive (d : Die) (p : Pkt) (s : State) : Host.Outcome State Fault Refusal :=
  match bodyOf p with
  | .resp r =>
    let k := conn s d r.conn
    if (k.st = .established ∨ k.st = .draining) ∧ k.remoteStation = p.src ∧ (inst s k.inst).st ≠ .resetting
        ∧ stationTakes s d p k.inst = true then
      .next (takeResp s d r)
    else .next s
  | _ => .next s

/-- After a walk for a connection end: waiting responses are placed, then held packets applied. -/
def resumeTarget (s : State) (d : Die) (c : Nat) : State :=
  let l := (conn s d c).respWait
  let s := modConn s d c fun k => { k with respWait := [] }
  drainHeld 8192 (l.foldl (fun s r => takeResp s d r) s) d c

/-! ## Refusals (R126, R127, R141, R143, R166) -/

/-- The operation that a PSN belongs to: the one that staged it. -/
def opOfPsn (s : State) (k : Conn) (psn : BitVec 32) : Option Nat :=
  k.ops.find? fun o => (opOf s o).tx.any fun t => decide (t.psn = psn)

/-- A refusal of PSN `psn` with its outcome: the command ends with it once what came before is delivered. A fault of a SCATTER
element ends it with CC_PARTIAL, and a CC_REFUSED counts the whole elements before it (R141). -/
def opRefused (s : State) (d : Die) (c o : Nat) (psn : BitVec 32) (code sub : Nat) : State :=
  let x := opOf s o
  let t := (x.tx.find? fun t => decide (t.psn = psn)).getD { psn := psn, off := x.bytesStaged, elem := 0 }
  if opcode x = 0x03 then
    let lower := match x.pendFail with
      | some (_, _, _, off) => decide (t.off < off)
      | none => true
    if lower then getDone (modOp s o fun x => { x with pendFail := some (code, sub, 0x1F, t.off) }) o else s
  else if x.pendFail.isSome then s
  else if visDelivered (opcode x) ∧ x.phase ≠ .rendezvous then
    let out : Nat × Nat × Nat × Nat :=
      let e := t.elem
      if opcode x = 0x05 ∧ code ≠ 0x0B then (0x01, code, e, elemBytesBefore x e)
      else if isElems (opcode x) ∧ code = 0x0B then (code, sub, 0x1F, elemBytesBefore x e)
      else (code, sub, 0x1F, bytesField x (if opcode x = 0x20 ∨ opcode x = 0x21 then 0 else t.off))
    let s := freeThread (modOp s o fun x =>
      { x with pendFail := some out, lastPsn := psn, phase := if x.phase = .sent then .sent else .long .draining }) o
    modConn s d c fun k => { k with longOp := if k.longOp = some o then none else k.longOp }
  else completeOp s o { code := code, sub := sub }

/-- PSNs refused by an unbound station (R143 sub-cause 0x06): the command ends, none of its packets is resent, and later
packets name its PSNs. [log DEDUCED 62] -/
def opUnbound (s : State) (d : Die) (c : Nat) (psn : BitVec 32) : State :=
  let k := conn s d c
  let o := opOfPsn s k psn
  let mine := fun (p : TxPkt) => decide (p.psn = psn) || decide (some p.op = o)
  let gone := ((k.unacked ++ k.waitTx).filter mine).map (·.psn)
  let s := modConn s d c fun k =>
    { k with unacked := k.unacked.filter (fun p => !(mine p)), waitTx := k.waitTx.filter (fun p => !(mine p))
             skip := k.skip ++ gone }
  match o with
  | some o => completeOp s o { code := 0x0A, sub := 0x06, bytes := shownBytes (opOf s o) }
  | none => s

/-! ## Acknowledgements (R130 to R135, R139) -/

/-- An atomic's result arrives (R41, R124): the prior value goes to RESULT_ADDR and into the record. [log DEDUCED 34] -/
def atomicResult (s : State) (d : Die) (c : Nat) (psn : BitVec 32) (v scope : Nat) : State :=
  match (conn s d c).ops.find? fun o => decide (opcode (opOf s o) = 0x61 ∧ (opOf s o).firstPsn = psn) && (opOf s o).started with
  | none => s
  | some o =>
    let x := opOf s o
    let size := if fld (opBlk x) 28 24 1 = 1 then 16 else 8
    let ra := fld (opBlk x) 48 0 64
    let i := x.inst.getD 1024
    if ra = 0 then completeOp s o { code := 0, sub := scope, result := v % 2 ^ 64 }
    else
      match xltRange s x.xl i .lw (.op o) ra size with
      | .ok ps => completeOp (writePieces s i ra ps (leBytes size v)) o { code := 0, sub := scope, result := v % 2 ^ 64 }
      | .fail code => completeOp s o { code := code, sub := 0x01 }
      | .walk w => startWalk (modOp s o fun x => { x with result := v, handle := scope, phase := .translating }) w

/-- The packet is an atomic still without its result: it stays to be resent (R125). [log DEDUCED 54] -/
def keepsResending (s : State) (p : TxPkt) : Bool :=
  match p.req.op with
  | .atomic .. => liveOp s p.op && decide ((opOf s p.op).phase ≠ .translating)
  | _ => false

/-- The acknowledgement covers a packet: it is before CUM_PSN, or SACK shows it held. -/
def covers (cum : BitVec 32) (a : AckPkt) (p : TxPkt) : Bool := psnBefore p.psn cum || sacked a p.psn

/-- CUM_PSN advances and SACK bits are set: packets are newly acknowledged, and the RTT sample that such an acknowledgement carries
moves the window (R134, R135). A packet at CUM_PSN itself is not held. [log DEDUCED 188, DEDUCED 211] -/
def cumTo (s : State) (d : Die) (c : Nat) (a : AckPkt) : State :=
  let k := conn s d c
  let cum := if psnBefore k.cumAcked a.cum && !(psnBefore k.nextPsn a.cum) then a.cum else k.cumAcked
  let fresh := k.unacked.filter fun p => !p.sacked && covers cum a p
  let keep := (k.unacked.filter fun p => !(psnBefore p.psn cum) || keepsResending s p).map fun p =>
    { p with sacked := (p.sacked || covers cum a p) && decide (p.psn ≠ cum) }
  modConn s d c fun k =>
    let k := { k with cumAcked := cum, unacked := keep, skip := k.skip.filter fun p => !(psnBefore p cum)
                      rnrPsn := match k.rnrPsn with | some p => if psnBefore p cum then none else some p | none => none }
    if a.echoRetx || fresh.isEmpty then k
    else
      let rtt := s.now - a.echo
      ccOnAck s d (rttSample k rtt) rtt (fresh.map (·.bytes)).sum

/-- An acknowledgement or negative acknowledgement arrives at the initiating end. -/
def ackReceive (s : State) (d : Die) (a : AckPkt) : State :=
  let c := a.conn
  let k0 := conn s d c
  let s := if a.nak.isSome then pmc s d 457 1 else s
  match a.nak with
  | some (psn, .unbound) => pumpConn (opUnbound s d c psn) d c
  | some (_, .absent) => failConn s d c 0x0A 0x02 true
  | _ =>
    let refused := a.refused ++ (match a.nak with
      | some (psn, .refuse code sub fi b) => [(psn, NakKind.refuse code sub fi b)]
      | _ => [])
    let s := refused.foldl (fun s e => match e.2 with
      | .refuse code sub _ _ => (match opOfPsn s (conn s d c) e.1 with
        | some o => opRefused s d c o e.1 code sub
        | none => s)
      | _ => s) s
    let s := a.sat.foldl (fun s p => match opOfPsn s (conn s d c) p with
      | some o => if (opOf s o).lastPsn = p + 1 then modOp s o fun x => { x with remoteSat := true } else s
      | none => s) s
    let s := match a.result with
      | some (psn, v, sc) => atomicResult s d c psn v sc
      | none => s
    let s := cumTo s d c a
    let s := if (conn s d c).lastCut ≠ k0.lastCut then pmc s d 456 1 else s
    let s := match a.nak with
      | some (_, .notReady) => pmc s d 521 1
      | _ => s
    let s := modConn s d c fun k =>
      { k with visAcked := if psnBefore k.visAcked a.vis && !(psnBefore k.nextPsn a.vis) then a.vis else k.visAcked }
    let k := conn s d c
    let moved := decide (k.cumAcked ≠ k0.cumAcked ∨ k.visAcked ≠ k0.visAcked)
    let s := modConn s d c fun k =>
      { k with progressAt := if k.unacked.isEmpty && decide (k.visAcked = k.nextPsn) then none
                             else if moved then some s.now else k.progressAt
               nak4At := if moved then none else match a.nak with
                 | some (_, .resetting) => some s.now
                 | _ => k.nak4At
               rnrPsn := match a.nak with
                 | some (p, .notReady) => some p
                 | _ => k.rnrPsn
               rnrResendAt := match a.nak with
                 | some (_, .notReady) => s.now + 1000 * bits (regVal s d 0xC00020) 0 10
                 | _ => k.rnrResendAt }
    let s := deliverOps (ackBytes s d c) d c
    let miss := missing s (conn s d c) a
    let s := miss.foldl (fun s p => resend s d c p false) s
    let s := if miss.isEmpty then s else lossCut s d c
    pumpConn s d c

/-- ACK_RECEIVE: an acknowledgement or negative acknowledgement for a live connection end. A refusal of a stored
request-to-send (R164) names a rendezvous SEND. -/
def execAckReceive (d : Die) (p : Pkt) (s : State) : Host.Outcome State Fault Refusal :=
  match bodyOf p with
  | .ack a =>
    let k := conn s d a.conn
    if (k.st = .established ∨ k.st = .draining) ∧ k.peerConn = a.peer ∧ connDie a.conn = d ∧ stationTakes s d p k.inst = true then
      .next (ackReceive s d a)
    else .next s
  | _ => .next s

/-- RNR_RESEND: after CAT_RNR_CFG.INTERVAL the header is sent again (R166). [log DEDUCED 72] -/
def execRnrResend (d : Die) (c : Nat) (s : State) : Host.Outcome State Fault Refusal :=
  let k := conn s d c
  match k.rnrPsn with
  | some psn =>
    if s.now ≥ k.rnrResendAt then
      match k.unacked.find? fun p => decide (p.psn = psn) with
      | some p => .next (resend (modConn s d c fun k => { k with rnrPsn := none }) d c p false)
      | none => .next (modConn s d c fun k => { k with rnrPsn := none })
    else .next s
  | none => .next s

end Sys2Proof.Machine
end

