-- ==== Sys2Proof/Machine/Bindery.lean ====
section
/-! DEFINITION. Bindery (06_bindery_collectives): the arithmetic of fast and exact mode, segments at a node, results,
acknowledgements, relays, aborts, and a member's collective command. -/

namespace Sys2Proof.Machine

open Sys2Proof

/-! ## Arithmetic (R189 to R194) -/

/-- A floating-point type: exponent bits, significand bits, offset of its least subnormal in accumulator units, NaN. -/
structure FpT where
  ebits : Nat
  p : Nat
  z : Nat
  qnan : Nat
deriving DecidableEq, Repr

/-- The exact-mode types (R192) by TYPE code: fp16, bf16, fp32, fp64. -/
def fpOf : Nat → FpT
  | 2 => { ebits := 5, p := 11, z := 0, qnan := 0x7E00 }
  | 3 => { ebits := 8, p := 8, z := 16, qnan := 0x7FC0 }
  | 4 => { ebits := 8, p := 24, z := 0, qnan := 0x7FC00000 }
  | _ => { ebits := 11, p := 53, z := 0, qnan := 0x7FF8000000000000 }

/-- fp16 in units of 2^−149, for the rounding of fast mode at the root. -/
def fp16In32 : FpT := { ebits := 5, p := 11, z := 125, qnan := 0x7E00 }

def isFloat (ty : Nat) : Bool := decide (2 ≤ ty)

/-- Element size by TYPE (R185). -/
def elemSize : Nat → Nat
  | 0 => 4 | 1 => 8 | 2 => 2 | 3 => 2 | 4 => 4 | _ => 8

def bzero : BndElem := { val := 0, nan := false, pinf := false, ninf := false, anz := true }

/-- The accumulator term and flags of one value (acc_add of R192). -/
def accOf (t : FpT) (x : Nat) : BndElem :=
  let s := bit x (t.ebits + t.p - 1)
  let e := bits x (t.p - 1) t.ebits
  let m := bits x 0 (t.p - 1)
  if e = 2 ^ t.ebits - 1 then
    { bzero with nan := decide (m ≠ 0), ninf := decide (m = 0) && s, pinf := decide (m = 0) && !s }
  else
    let v : Nat := if e = 0 then m * 2 ^ t.z else (m + 2 ^ (t.p - 1)) * 2 ^ (e - 1 + t.z)
    { bzero with val := if s then -(v : Int) else (v : Int), anz := s && decide (e = 0 ∧ m = 0) }

/-- Two partials combine: accumulators add, flags OR, ALLNEGZERO ANDs. -/
def accAdd (a b : BndElem) : BndElem :=
  { val := a.val + b.val, nan := a.nan || b.nan, pinf := a.pinf || b.pinf, ninf := a.ninf || b.ninf, anz := a.anz && b.anz }

/-- Rounding a total once to its type, to nearest, ties to even (acc_round of R193). -/
def accRound (t : FpT) (a : BndElem) : Nat :=
  let sbit := 2 ^ (t.ebits + t.p - 1)
  let emax := 2 ^ t.ebits - 1
  let inf := emax * 2 ^ (t.p - 1)
  if a.nan || (a.pinf && a.ninf) then t.qnan
  else if a.pinf then inf
  else if a.ninf then sbit + inf
  else if a.val = 0 then (if a.anz then sbit else 0)
  else
    let neg := if a.val < 0 then sbit else 0
    let v := a.val.natAbs
    let sh0 := max (Nat.log2 v - (t.p - 1)) t.z
    let m0 := v / 2 ^ sh0 % 2 ^ t.p
    let g := decide (sh0 > 0) && bit v (sh0 - 1)
    let st := decide (sh0 > 1) && decide (v % 2 ^ (sh0 - 1) ≠ 0)
    let m1 := if g && (st || decide (m0 % 2 = 1)) then m0 + 1 else m0
    let (m, sh) := if m1 ≥ 2 ^ t.p then (m1 / 2, sh0 + 1) else (m1, sh0)
    let e := if m ≥ 2 ^ (t.p - 1) then sh - t.z + 1 else 0
    if e ≥ emax then neg + inf else neg + e * 2 ^ (t.p - 1) + m % 2 ^ (t.p - 1)

/-- The format in which fast mode adds a type: fp32 for the two-byte types (R191). -/
def fastTy (ty : Nat) : Nat := if ty = 5 then 5 else 4

/-- Scale an accumulator term of a type to the accumulator units of the type that fast mode adds it in. -/
def toFast (ty : Nat) (x : Nat) : Nat :=
  let a := accOf (fpOf ty) x
  if ty = 2 then accRound (fpOf 4) { a with val := a.val * 2 ^ 125 } else if ty = 3 then accRound (fpOf 4) a else
    (if a.nan then (fpOf ty).qnan else x)

/-- Infinities and NaNs among the contributions, kept beside a value. -/
def marks (ty x : Nat) : BndElem := { accOf (fpOf ty) x with val := 0 }

/-- An order on floating-point bits with −0 below +0. -/
def fpKey (t : FpT) (x : Nat) : Int :=
  let m : Nat := x % 2 ^ (t.ebits + t.p - 1)
  if bit x (t.ebits + t.p - 1) then -(m : Int) - 1 else (m : Int)

/-- A signed integer of `n` bits. -/
def sval (n x : Nat) : Int := if bit x (n - 1) then (x : Int) - 2 ^ n else (x : Int)

/-- Exact-mode floating-point sum. -/
def exactSum (h : BndHead) : Bool := isFloat h.ty && h.exact && decide (h.op = 0)

/-- A member's element as it enters the tree. -/
def elemIn (h : BndHead) (x : Nat) : BndElem :=
  if !(isFloat h.ty) then { bzero with val := x }
  else if h.op ≠ 0 then { marks h.ty x with val := x }
  else if h.exact then accOf (fpOf h.ty) x
  else { marks h.ty x with val := toFast h.ty x }

/-- Combining two elements at a node, the lower child index first (R189 to R192). -/
def elemAdd (h : BndHead) (a b : BndElem) : BndElem :=
  let x := a.val.toNat
  let y := b.val.toNat
  let n := 8 * elemSize h.ty
  if !(isFloat h.ty) then
    { bzero with val :=
        match h.op with
        | 0 => ((x + y) % 2 ^ n : Nat)
        | 1 => if sval n y < sval n x then y else x
        | 2 => if sval n x < sval n y then y else x
        | 3 => (x &&& y : Nat)
        | 4 => (x ||| y : Nat)
        | _ => (x ^^^ y : Nat) }
  else if h.op = 0 then
    if h.exact then accAdd a b
    else
      let t := fpOf (fastTy h.ty)
      { accAdd a b with val := accRound t (accAdd (accOf t x) (accOf t y)) }
  else
    let t := fpOf h.ty
    { accAdd a b with val := if (decide (fpKey t y < fpKey t x)) == decide (h.op = 1) then y else x }

/-- An element's result at the root: its bits, whether it is NaN, and whether it overflowed from finite contributions. -/
def elemOut (h : BndHead) (a : BndElem) : Nat × Bool × Bool :=
  if !(isFloat h.ty) then (a.val.toNat, false, false)
  else
    let t := fpOf h.ty
    let r :=
      if h.op ≠ 0 then (if a.nan then t.qnan else a.val.toNat)
      else if h.exact then accRound t a
      else if h.ty = 2 then accRound fp16In32 (accOf (fpOf 4) a.val.toNat)
      else if h.ty = 3 then accRound t (accOf (fpOf 4) a.val.toNat)
      else (if a.nan || (a.pinf && a.ninf) then t.qnan else a.val.toNat)
    let inf := (2 ^ t.ebits - 1) * 2 ^ (t.p - 1)
    (r, decide (r = t.qnan), decide (r % 2 ^ (t.ebits + t.p - 1) = inf) && !a.pinf && !a.ninf)

/-! ## Commands and segments -/

/-- What the commands of one sequence must agree on (R183), of a COLL block. -/
def collHead (b : Block) : BndHead :=
  let op := fld b 0 0 8
  let ty := fld b 18 4 3
  { opcode := op, op := fld b 18 0 3, ty := ty, exact := isFloat ty && decide (fld b 18 7 1 = 1), count := fld b 20 0 32
    root := if op = 0x41 ∨ op = 0x42 then fld b 40 0 18 else 0 }

/-- Elements of a collective's data: an allgather's are those of its whole result (R196). [log DEDUCED 82] -/
def collElems (h : BndHead) (members : Nat) : Nat := if h.opcode = 0x40 then 0 else if h.opcode = 0x44 then members * h.count else h.count

/-- Segments of a collective (R196): of up to 256 elements; a barrier is one with no data. -/
def segCount (h : BndHead) (members : Nat) : Nat := if h.opcode = 0x40 then 1 else (collElems h members + 255) / 256

/-- The bytes a member's record counts (R185). -/
def collBytes (h : BndHead) (members me : Nat) : Nat :=
  if h.opcode = 0x40 then 0
  else if h.opcode = 0x42 then (if me = h.root then h.count * elemSize h.ty else 0)
  else if h.opcode = 0x44 then members * h.count * elemSize h.ty
  else h.count * elemSize h.ty

def findSeg (x : BndCtx) (q g : Nat) : Option Seg := x.segs.find? fun y => decide (y.seq = q ∧ y.seg = g)

/-- Change a segment. -/
def modSeg (s : State) (d : Die) (c q g : Nat) (f : Seg → Seg) : State :=
  modBnd s d c fun x => { x with segs := x.segs.map fun y => if y.seq = q ∧ y.seg = g then f y else y }

/-! ## Edges -/

/-- The direct edge from a die to a router is usable: a bridge for the partner die, an UP link otherwise (R198). -/
def edgeUp (s : State) (d : Die) (addr : Nat) : Bool :=
  if ownDie s addr = some d.other then
    decide ((brg s d .north).st = .up ∨ (brg s d .south).st = .up)
  else (die s d).links.any fun (_, k) => decide (k.st = .up ∧ routerPart k.partner = addr)

/-- A Bindery packet as a packet of the fabric: to the far end of a direct edge, or of a relay (R198, R228). [log DESIGN CHOICE 190] -/
def bndPkt (s : State) (d : Die) (dst : Nat) (b : BndPkt) : Pkt :=
  { dst := dst, src := routerAddr s d, tc := 2, level := 0, leg := false, lhop := false, ord := false, start := false
    viaGroup := 0, gwRouter := 0, gwPort := 0, len := 0, kind := 0, det := true, viaRouter := 0, rsv := 0, fseq := 0
    chan16 := false, body := .bnd b }

/-- Send a Bindery packet of a context. -/
def bndSend (s : State) (d : Die) (c dst : Nat) (via : Option Nat) (gen q g child : Nat) (b : BndBody) : State :=
  emit s (.toRoute d (bndPkt s d (via.getD dst)
    { src := routerAddr s d, dst := dst, relay := via.isSome, via := via.getD 0, cctx := c, gen := gen
      seq := q, seg := g, child := child, body := b }))

/-- A sequence goes through the backup parent. -/
def usesRelay (x : BndCtx) (q : Nat) : Bool := x.relaying || decide (q < x.relaySeq)

/-- The parent owes an answer: an acknowledgement of a partial, or its own abort (R197, R201). -/
def wantsAnswer : BndBody → Bool
  | .partialUp .. => true
  | .abort .. => true
  | _ => false

/-- Towards the parent (R197, R198). -/
def bndUp (s : State) (d : Die) (c : Nat) (t : Tree) (q g : Nat) (b : BndBody) : State :=
  let x := bndCtx s d c
  if usesRelay x q then
    let s := if wantsAnswer b && x.backupDownAt.isNone then modBnd s d c (fun x => { x with backupDownAt := some s.now }) else s
    bndSend s d c t.parent (some t.backup) t.gen q g t.indexAtParent b
  else bndSend s d c t.parent none t.gen q g t.indexAtParent b

/-- Towards a child node: through its backup parent the sequences that the child sends there (R198, R199). -/
def bndDown (s : State) (d : Die) (c : Nat) (t : Tree) (child q g : Nat) (b : BndBody) : State :=
  let addr := ((t.children[child]?).map (·.addr)).getD 0
  bndSend s d c addr (((bndCtx s d c).relayChild.find? fun r => decide (r.child = child ∧ q < r.below)).map (·.via)) t.gen q g child b

/-- The children of a record that are nodes. -/
def childNodes (t : Tree) : List Nat :=
  (List.range t.children.length).filter fun i => match t.children[i]? with | some k => !k.member | none => false

/-! ## Abort (R200 to R202) -/

/-- Every segment of a sequence at a node satisfies `f`. -/
def seqAll (x : BndCtx) (t : Tree) (q : Nat) (f : Seg → Bool) : Bool :=
  match x.segs.find? fun y => decide (y.seq = q) with
  | some y => (List.range (segCount y.head t.members)).all fun g => match findSeg x q g with | some z => f z | none => false
  | none => false

/-- Every segment of a sequence has its result here: the root has rounded them all (R202). -/
def seqResulted (x : BndCtx) (t : Tree) (q : Nat) : Bool := seqAll x t q fun z => z.result.isSome

/-- The root may have rounded every segment of a sequence: this node has sent its partial of each. -/
def seqFormed (x : BndCtx) (t : Tree) (q : Nat) : Bool := seqAll x t q fun z => z.formed

/-- The sequences that an abort found here leaves their result (R202): those with their whole result here, those among `more`, and, unless
this node is the root or is cut off from it, those that the root may have rounded. [log DEDUCED 85] -/
def keptSeqs (x : BndCtx) (t : Tree) (cut : Bool) (more : List Nat) : List Nat :=
  (x.segs.foldl (fun l y => addNew l y.seq) []).filter fun q =>
    seqResulted x t q || decide (q ∈ more) || (!t.root && !cut && seqFormed x t q)

/-- End every sequence but the kept ones: held partials and results are discarded, members' commands end with CC_COLL_ABORT (R201). -/
def endSeqs (s : State) (d : Die) (c sub : Nat) (kept : List Nat) : State :=
  let x := bndCtx s d c
  let s := modBnd s d c fun x =>
    { x with segs := x.segs.filter fun y => decide (y.seq ∈ kept), colls := x.colls.filter fun k => decide (k.seq ∈ kept) }
  (x.colls.filter fun k => decide (k.seq ∉ kept)).foldl (fun s k =>
    completeOp s k.op { code := 0x11, sub := sub, bytes := (k.placed.map (·.2)).sum }) s

/-- Abort a context at this node (R201): the abort goes to parent and children, EV_COLL_ABORT is posted, once to each member
instance with a pending command, and every sequence but the kept ones ends. [log DEDUCED 84] -/
def bndAbort (s : State) (d : Die) (c : Nat) (t : Tree) (q sub : Nat) (kept : List Nat) : State :=
  let x := bndCtx s d c
  let ev := evb 8 c + evb 10 t.gen + evb 12 q + evb 16 sub
  let s := pmc s d 579 1
  let s := if t.root then s else bndUp s d c t q 0 (.abort sub kept)
  let s := (childNodes t).foldl (fun s i => bndDown s d c t i q 0 (.abort sub kept)) s
  let s := modBnd s d c fun x => { x with st := .aborted, abortCause := sub, burst := 0 }
  let s := (x.colls.foldl (fun l k => addNew l (((opOf s k.op).inst).getD 0)) []).foldl (fun s i => postInst s i 0x32 ev) s
  postMgmt (endSeqs s d c sub kept) d 0x32 ev

/-- At an aborted node the parent, or the loss of it, ends sequences that had been left their results: the children
hear of it too (R201, R202). -/
def bndNarrow (s : State) (d : Die) (c : Nat) (t : Tree) (more : List Nat) : State :=
  let x := bndCtx s d c
  let kept := keptSeqs x t true more
  if x.segs.all (fun y => decide (y.seq ∈ kept)) then s
  else
    endSeqs ((childNodes t).foldl (fun s i => bndDown s d c t i x.nextSeq 0 (.abort x.abortCause kept)) s) d c x.abortCause kept

/-- The lowest sequence in flight at a node. -/
def oldestSeq (x : BndCtx) : Nat := (x.segs.map (·.seq)).foldl min ((x.colls.map (·.seq)).foldl min (2 ^ 32))

/-- A collective is in flight at a node: a member's command is pending, or a segment is not over. -/
def bndBusy (x : BndCtx) : Bool := !x.colls.isEmpty || !x.segs.isEmpty

/-- A cause found at a die aborts a READY context with a collective in flight; `cut` holds of a node that no result can reach
any more. -/
def bndFail (s : State) (d : Die) (c sub : Nat) (cut : Bool) : State :=
  let x := bndCtx s d c
  match treeOf s d c with
  | some t =>
    if x.st = .ready ∧ bndBusy x = true then bndAbort s d c t (oldestSeq x) sub (keptSeqs x t cut [])
    else if x.st = .aborted ∧ cut = true then bndNarrow s d c t [] else s
  | none => s

/-- Members end with a code of their own and the collective aborts for every other (R188, R200). [log DEDUCED 87] -/
def collsLost (s : State) (d : Die) (c : Nat) (l : List Coll) (code csub sub : Nat) : State :=
  let s := modBnd s d c fun x => { x with colls := x.colls.filter fun k => !(decide (k ∈ l)) }
  let s := l.foldl (fun s k => completeOp s k.op { code := code, sub := csub, bytes := (k.placed.map (·.2)).sum }) s
  match treeOf s d c with
  | some t =>
    let x := bndCtx s d c
    if x.st = .ready ∧ l ≠ [] then bndAbort s d c t ((l.map (·.seq)).foldl min (2 ^ 32)) sub (keptSeqs x t false []) else s
  | none => s

/-- An instance leaves RUNNING or loses a grant with commands pending: it is a lost member (sub-cause 0x01). -/
def instLost (s : State) (d : Die) (i : Nat) (only : Option Nat) : State :=
  (die s d).bnd.foldl (fun s (c, x) =>
    if only.isNone || decide (only = some c) then
      collsLost s d c (x.colls.filter fun k => decide ((opOf s k.op).inst = some i)) 0x0E 0 0x01
    else s) s

/-- The command that an operation holds in a context, as a list. -/
def collOf (s : State) (d : Die) (c o : Nat) : List Coll := (bndCtx s d c).colls.filter fun k => decide (k.op = o)

/-! ## Results (R197) -/

/-- A child entry that is a member, and the collective of its command. -/
def memberColl (x : BndCtx) (t : Tree) (child q : Nat) : Option Coll :=
  match t.children[child]? with
  | some k => if k.member then x.colls.find? fun y => decide (y.seq = q ∧ y.memberIdx = k.index) else none
  | none => none

/-- Bytes of a list of elements. -/
def elemBytes (ty : Nat) (l : List Nat) : List Byte := l.flatMap fun v => leBytes (elemSize ty) v

/-- A walk for an operation is in flight or queued. -/
def opWalking (s : State) (d : Die) (o : Nat) : Bool :=
  (die s d).hst.walks.any fun (_, w) => match w with
    | some w => decide (w.owner = .op o)
    | none => false

/-- The sub-cause of a finished collective: NaN and overflow among its elements (R187). -/
def collSub (k : Coll) : Nat := b2n k.nan + 2 * b2n k.spill

/-- SRC and DST of a member's command overlap without being equal: what DST then holds is open (R186). -/
def srcOverlaps (k : Coll) (b : Block) (members : Nat) : Bool :=
  let sz := elemSize k.head.ty
  let a := fld b 24 0 64
  let z := fld b 32 0 64
  !k.src.isEmpty && decide (a ≠ z ∧ a < z + collElems k.head members * sz ∧ z < a + k.head.count * sz)

/-- The bytes that a result leaves in DST: its own, or open ones (R186). -/
def dstBytes (s : State) (k : Coll) (b : Block) (members : Nat) (data : List Byte) : List Byte × State :=
  if srcOverlaps k b members then
    ((List.range data.length).map (Config.openByte s.freeCtr), { s with freeCtr := s.freeCtr + 1 })
  else (data, s)

/-- A result segment reaches a member: written to DST where the command writes it; the command completes with its last
segment (R185, R187, R188). [log DEDUCED 81] -/
def memberResult (s : State) (d : Die) (c : Nat) (t : Tree) (child q g : Nat) (b : BndBody) : State :=
  let x := bndCtx s d c
  let ack (s : State) := modSeg s d c q g fun y => { y with acked := addNew y.acked child }
  match memberColl x t child q, b with
  | some k, .result h raw an ao =>
    let op := opOf s k.op
    let res := if h.opcode = 0x40 ∨ (h.opcode = 0x42 ∧ k.memberIdx ≠ h.root) then [] else elemBytes h.ty raw
    let off := 256 * g * elemSize h.ty
    match xltRange s op.xl (op.inst.getD 1024) .lw (.op k.op) (fld (opBlk op) 32 0 64 + off) res.length with
    | .walk w => if opWalking s d k.op then s else startWalk s w
    | .fail code =>
      let s := modBnd (ack s) d c fun x => { x with colls := x.colls.filter fun y => decide (y.op ≠ k.op) }
      completeOp s k.op { code := code, sub := 0x01, bytes := placedPrefix k.placed }
    | .ok ps =>
      let (data, s) := dstBytes s k (opBlk op) t.members res
      let s := modOp (ack (writePieces s (op.inst.getD 1024) (fld (opBlk op) 32 0 64 + off) ps data)) k.op fun x => { x with xl := [] }
      let k' := { k with segsDone := k.segsDone + 1, placed := k.placed ++ [(off, data.length)], nan := k.nan || an, spill := k.spill || ao }
      if k'.segsDone ≥ segCount h t.members then
        let s := modBnd s d c fun x => { x with colls := x.colls.filter fun y => decide (y.op ≠ k.op) }
        completeOp s k.op { code := 0, sub := collSub k', bytes := collBytes h t.members k.memberIdx, result := q }
      else modBnd s d c fun x => { x with colls := x.colls.map fun y => if y.op = k.op then k' else y }
  | _, _ => ack s

/-- Every segment of a sequence is acknowledged by every child and the parent: the sequence is complete at this node. -/
def seqOver (x : BndCtx) (t : Tree) (q : Nat) : Bool :=
  seqResulted x t q && (x.segs.filter fun y => decide (y.seq = q)).all fun y =>
    y.partialBody.isNone && (List.range t.children.length).all fun i => decide (i ∈ y.acked)

/-- Drop complete sequences in order, advancing NEXT_SEQ. -/
def bndTidy : Nat → State → Die → Nat → Tree → State
  | 0, s, _, _, _ => s
  | n + 1, s, d, c, t =>
    let x := bndCtx s d c
    if seqOver x t x.nextSeq then
      bndTidy n (modBnd s d c fun x => { x with segs := x.segs.filter (fun y => decide (y.seq ≠ x.nextSeq)), nextSeq := x.nextSeq + 1 }) d c t
    else s

/-- A node holds the result of a segment: it goes to every child (R197). -/
def spreadResult (s : State) (d : Die) (c : Nat) (t : Tree) (q g : Nat) (b : BndBody) : State :=
  let s := modSeg s d c q g fun y => { y with result := some b, resultAt := s.now }
  let s := (List.range t.children.length).foldl (fun s i =>
    match t.children[i]? with
    | some k => if k.member then memberResult s d c t i q g b else bndDown s d c t i q g b
    | none => s) s
  bndTidy 64 s d c t

/-! ## Folding (R191, R196, R197, R204) -/

/-- The fold of the held contributions in ascending child index. -/
def foldHeld (h : BndHead) (l : List Contrib) : List BndElem × List (Nat × List Nat) :=
  match sortBy (fun a b => decide (a.child ≤ b.child)) l with
  | [] => ([], [])
  | a :: t => t.foldl (fun acc b => ((acc.1.zip b.es).map fun p => elemAdd h p.1 p.2, acc.2 ++ b.members)) (a.es, a.members)

/-- The elements of a broadcast or an allgather in their order. -/
def gathered (members : List (Nat × List Nat)) : List Nat := (sortBy (fun a b => decide (a.1 ≤ b.1)) members).flatMap (·.2)

/-- The result of a segment at the root (R193), with what R187 reports of its elements. -/
def rootResult (h : BndHead) (es : List BndElem) (members : List (Nat × List Nat)) : BndBody :=
  if h.opcode = 0x41 ∨ h.opcode = 0x44 then
    let raw := gathered members
    .result h raw (isFloat h.ty && raw.any fun v => (accOf (fpOf h.ty) v).nan) false
  else
    let out := es.map (elemOut h)
    .result h (out.map (·.1)) (out.any fun r => r.2.1) (out.any fun r => r.2.2)

/-- A segment with every child's contribution is folded: the root rounds, another node sends its partial up. -/
def foldSeg (s : State) (d : Die) (c : Nat) (t : Tree) (y : Seg) : State :=
  let f := foldHeld y.head y.held
  let s := modBnd s d c fun x => { x with burst := if exactSum y.head then x.burst - 1 else x.burst }
  let s := pmc (pmc s d 576 1) d 577 (b2n (exactSum y.head))
  if t.root then
    spreadResult (modSeg s d c y.seq y.seg fun y => { y with formed := true }) d c t y.seq y.seg (rootResult y.head f.1 f.2)
  else
    let b := BndBody.partialUp y.head f.1 f.2
    bndUp (modSeg s d c y.seq y.seg fun y => { y with formed := true, partialBody := some b, sentAt := s.now }) d c t y.seq y.seg b

/-- A segment is ready to fold; exact mode waits for power tokens (R204). -/
def segReady (x : BndCtx) (t : Tree) (y : Seg) : Bool :=
  decide (x.st = .ready) && !y.formed && (List.range t.children.length).all (fun i => y.held.any fun k => decide (k.child = i))
    && (!(exactSum y.head) || decide (x.burst > 0))

/-- Fold what is ready. -/
def bndFold : Nat → State → Die → Nat → Tree → State
  | 0, s, _, _, _ => s
  | n + 1, s, d, c, t =>
    let x := bndCtx s d c
    match x.segs.find? (segReady x t) with
    | some y => bndFold n (foldSeg s d c t y) d c t
    | none => s

/-- An exact-mode segment waits for tokens at this node. -/
def wantsTokens (s : State) (d : Die) (c : Nat) : Bool :=
  let x := bndCtx s d c
  match treeOf s d c with
  | some t => x.segs.any fun y => exactSum y.head && segReady { x with burst := 1 } t y
  | none => false

/-- The parent's edge has failed: the node re-parents to its backup, sending its unacknowledged partials again, or the
collective in flight aborts (R198, sub-cause 0x04 of R200). -/
def bndReparent (s : State) (d : Die) (c : Nat) (t : Tree) : State :=
  if t.backupValid then
    let x := bndCtx s d c
    let s := modBnd s d c fun x => { x with relaying := true, backupDownAt := none }
    let s := postMgmt s d 0x33 (evb 8 c + evb 12 (routerAddr s d) + evb 16 t.parent + evb 20 t.backup)
    x.segs.foldl (fun s y => match y.partialBody with
      | some b => bndUp (modSeg s d c y.seq y.seg fun y => { y with sentAt := s.now }) d c t y.seq y.seg b
      | none => s) s
  else bndFail s d c 0x04 true

/-- The parent's edge is lost and no relay replaces it. [log DEDUCED 86] -/
def parentLost (s : State) (d : Die) (c : Nat) (t : Tree) : Bool := !t.root && !(bndCtx s d c).relaying && !(edgeUp s d t.parent)

/-- The first segment of a sequence begins: the node returns to its primary parent if that edge is UP again (R199), and
re-parents if it is not and the node has not done so (R198). -/
def beginSeq (s : State) (d : Die) (c : Nat) (t : Tree) (q : Nat) : State :=
  let x := bndCtx s d c
  if x.relaying && edgeUp s d t.parent && !(x.segs.any fun y => decide (y.seq ≥ q)) then
    let owed := x.segs.any fun y => y.partialBody.isSome
    postMgmt (modBnd s d c fun x => { x with relaying := false, relaySeq := q, backupDownAt := if owed then x.backupDownAt else none }) d 0x33
      (evb 8 c + evb 10 1 + evb 12 (routerAddr s d) + evb 16 t.parent + evb 20 t.backup)
  else s

/-- A contribution enters a node (R183, R196): folded once, or a duplicate, or a disagreement that aborts. -/
def contribute (s : State) (d : Die) (c : Nat) (t : Tree) (q g child : Nat) (h : BndHead) (es : List BndElem)
    (members : List (Nat × List Nat)) : State :=
  let x := bndCtx s d c
  if x.st ≠ .ready then s
  else if x.segs.any fun y => decide (y.seq = q ∧ y.head ≠ h) then bndAbort s d c t q 0x03 (keptSeqs x t false [])
  else
    let s := if (findSeg x q g).isNone then
        modBnd (beginSeq s d c t q) d c fun x =>
          { x with segs := x.segs ++ [{ seq := q, seg := g, head := h, held := [], formed := false, partialBody := none, sentAt := 0
                                        result := none, resultAt := 0, acked := [] }] }
      else s
    let s := modSeg s d c q g fun y =>
      { y with held := if y.held.any fun k => decide (k.child = child) then y.held else y.held ++ [{ child := child, es := es, members := members }] }
    bndFold 4096 (if parentLost s d c t then bndReparent s d c t else s) d c t

/-- A duplicate discarded (BND_DUP). -/
def bndDup (s : State) (d : Die) : State := pmc (bumpReg s d 0xD00020) d 578 1

/-! ## The rows -/

/-- A packet of the installed record of a context, addressed to this die's router. -/
def bndFor (s : State) (d : Die) (p : BndPkt) : Option Tree :=
  match treeOf s d p.cctx with
  | some t => if t.gen = p.gen ∧ p.dst = routerAddr s d then some t else none
  | none => none

/-- The child entry that a packet comes from. -/
def childIs (t : Tree) (child src : Nat) : Bool :=
  match t.children[child]? with
  | some k => !k.member && decide (k.addr = src)
  | none => false

/-- The children that send through a backup parent after a packet of a child (R198, R199): a relay packet of a sequence that
was not sent there begins a relay; a direct packet ends it for its sequence and later ones. -/
def relaysAfter (l : List RelayChild) (p : BndPkt) : List RelayChild :=
  if !p.relay then l.map fun r => if r.child = p.child then { r with below := min r.below p.seq } else r
  else if l.any fun r => decide (r.child = p.child ∧ r.via = p.via ∧ p.seq < r.below) then l
  else { child := p.child, via := p.via, below := 2 ^ 32 } :: l.filter fun r => decide (r.child ≠ p.child)

/-- The first relay packet of a child: the parent sends through the backup every result and acknowledgement it holds, and
the abort of an aborted context (R198). -/
def learnRelay (s : State) (d : Die) (c : Nat) (t : Tree) (p : BndPkt) : State :=
  let x := bndCtx s d c
  let l := relaysAfter x.relayChild p
  let s := modBnd s d c fun x => { x with childDown := x.childDown.filter (fun e => decide (e.1 ≠ p.child)), relayChild := l }
  if p.relay = false ∨ l = x.relayChild then s
  else
    let s := x.segs.foldl (fun s y =>
      let s := if y.held.any fun k => decide (k.child = p.child) then bndDown s d c t p.child y.seq y.seg .ackUp else s
      match y.result with
      | some b => if p.child ∈ y.acked then s else bndDown s d c t p.child y.seq y.seg b
      | none => s) s
    if x.st = .aborted then bndDown s d c t p.child p.seq 0 (.abort x.abortCause (keptSeqs x t false [])) else s

/-- BND_CONTRIBUTION: a child node's partial arrives, is taken or discarded as a duplicate, and is acknowledged (R196); an
aborted context answers one that it no longer holds with its abort. -/
def execBndContribution (d : Die) (p : BndPkt) (s : State) : Host.Outcome State Fault Refusal :=
  match bndFor s d p, p.body with
  | some t, .partialUp h es members =>
    if childIs t p.child p.src ∧ (bndCtx s d p.cctx).st ≠ .uninstalled then
      let s := learnRelay s d p.cctx t p
      let x := bndCtx s d p.cctx
      let dup := decide (p.seq < x.nextSeq) || (match findSeg x p.seq p.seg with
        | some y => y.held.any fun k => decide (k.child = p.child)
        | none => false)
      let ack (s : State) := bndDown s d p.cctx t p.child p.seq p.seg .ackUp
      if dup then .next (bndDup (ack s) d)
      else if x.st = .aborted then .next (bndDown s d p.cctx t p.child p.seq 0 (.abort x.abortCause (keptSeqs x t false [])))
      else .next (contribute (ack s) d p.cctx t p.seq p.seg p.child h es members)
    else .next s
  | _, _ => .next s

/-- BND_RESULT: a result segment arrives from the parent, is acknowledged and passed down (R197). -/
def execBndResult (d : Die) (p : BndPkt) (s : State) : Host.Outcome State Fault Refusal :=
  match bndFor s d p, p.body with
  | some t, .result .. =>
    if p.src = t.parent ∧ t.root = false ∧ (bndCtx s d p.cctx).st ≠ .uninstalled then
      let s := modBnd s d p.cctx fun x => { x with backupDownAt := none }
      let s := bndUp s d p.cctx t p.seq p.seg .ackDown
      let x := bndCtx s d p.cctx
      match findSeg x p.seq p.seg with
      | some y =>
        if y.result.isSome then .next (bndDup s d) else .next (spreadResult s d p.cctx t p.seq p.seg p.body)
      | none => .next (if p.seq < x.nextSeq then bndDup s d else s)
    else .next s
  | _, _ => .next s

/-- BND_ACK: a parent's or a child's acknowledgement releases a held partial or result (R197). -/
def execBndAck (d : Die) (p : BndPkt) (s : State) : Host.Outcome State Fault Refusal :=
  match bndFor s d p, p.body with
  | some t, .ackUp =>
    if p.src = t.parent then
      let s := modBnd s d p.cctx fun x => { x with backupDownAt := none }
      .next (bndTidy 64 (modSeg s d p.cctx p.seq p.seg fun y => { y with partialBody := none }) d p.cctx t)
    else .next s
  | some t, .ackDown =>
    if childIs t p.child p.src then
      let s := learnRelay s d p.cctx t p
      .next (bndTidy 64 (modSeg s d p.cctx p.seq p.seg fun y => { y with acked := addNew y.acked p.child }) d p.cctx t)
    else .next s
  | _, _ => .next s

/-- BND_CTL.RESEND in ns. -/
def bndResendNs (s : State) (d : Die) : Nat := 1000 * bits (regVal s d 0xD00000) 0 16

/-- Send what a segment holds unacknowledged again, each on its own path. -/
def resendSeg (s : State) (d : Die) (c : Nat) (t : Tree) (y : Seg) : State :=
  let s := match y.partialBody with
    | some b =>
      if s.now ≥ y.sentAt + bndResendNs s d then
        bndUp (modSeg s d c y.seq y.seg fun y => { y with sentAt := s.now }) d c t y.seq y.seg b
      else s
    | none => s
  match y.result with
  | some b =>
    if s.now ≥ y.resultAt + bndResendNs s d then
      ((List.range t.children.length).filter fun i => !(decide (i ∈ y.acked)) && (match t.children[i]? with | some k => !k.member | none => false)).foldl
        (fun s i => bndDown s d c t i y.seq y.seg b) (modSeg s d c y.seq y.seg fun y => { y with resultAt := s.now })
    else s
  | none => s

/-- BND_RESEND: a partial, or a result, unacknowledged for BND_CTL.RESEND is sent again on the same path (R197). -/
def execBndResend (d : Die) (c q g : Nat) (s : State) : Host.Outcome State Fault Refusal :=
  match treeOf s d c, findSeg (bndCtx s d c) q g with
  | some t, some y => .next (resendSeg s d c t y)
  | _, _ => .next s

/-- BND_RELAY_PACKET: the backup parent carries a relay packet on and folds nothing (R198). -/
def execBndRelayPacket (d : Die) (p : BndPkt) (s : State) : Host.Outcome State Fault Refusal :=
  if p.relay ∧ p.via = routerAddr s d ∧ p.dst ≠ routerAddr s d then .next (pmc (emit s (.toRoute d (bndPkt s d p.dst p))) d 580 1) else .next s

/-- BND_ABORT_RECEIVE: an abort whose GENERATION is the installed record's (R201); the parent's says which results still
come (R202). -/
def execBndAbortReceive (d : Die) (p : BndPkt) (s : State) : Host.Outcome State Fault Refusal :=
  match bndFor s d p, p.body with
  | some t, .abort sub kept =>
    let up := decide (t.root = false ∧ p.src = t.parent)
    let s := if up then modBnd s d p.cctx (fun x => { x with backupDownAt := none }) else s
    let x := bndCtx s d p.cctx
    if x.st = .ready ∧ (up = true ∨ childIs t p.child p.src = true) then
      .next (bndAbort s d p.cctx t p.seq sub (keptSeqs x t up (if up then kept else [])))
    else if x.st = .aborted ∧ up = true then .next (bndNarrow s d p.cctx t kept)
    else .next s
  | _, _ => .next s

/-- BND_BACKUP_TIMEOUT: the backup parent or its route has not answered for 2 s (sub-cause 0x04), or a child node's edge
and every relay from it have been lost for 2 s (sub-cause 0x02). [log DEDUCED 83] -/
def execBndBackupTimeout (d : Die) (c : Nat) (s : State) : Host.Outcome State Fault Refusal :=
  let x := bndCtx s d c
  match x.backupDownAt with
  | some a => if s.now ≥ a + 2000000000 then .next (bndFail s d c 0x04 true) else .next s
  | none =>
    if x.childDown.any (fun e => decide (s.now ≥ e.2 + 2000000000)) then .next (bndFail s d c 0x02 false) else .next s

/-- After a link or bridge of a die leaves UP (R198): contexts whose parent edge is lost re-parent to their backup or
abort; lost child edges are noted. -/
def bndEdges (s : State) (d : Die) : State :=
  (die s d).bnd.foldl (fun s (c, x) =>
    match treeOf s d c with
    | some t =>
      if x.st = .uninstalled then s
      else
        let lost := (List.range t.children.length).filter fun i => match t.children[i]? with
          | some k => !k.member && !(edgeUp s d k.addr) && !(x.relayChild.any fun r => decide (r.child = i))
          | none => false
        let since (i : Nat) : Nat × Nat := (x.childDown.find? fun e => decide (e.1 = i)).getD (i, s.now)
        let s := modBnd s d c fun x => { x with childDown := lost.map since }
        if parentLost s d c t then bndReparent s d c t else s
    | none => s) s

/-! ## A member's command -/

/-- The child entry of a member: its instance, its station on this die and its granted index (R179). -/
def memberChild (s : State) (d : Die) (i c : Nat) (t : Tree) : Option Nat :=
  match (inst s i).colls.find? fun g => decide (g.1 = c) with
  | some g => (List.range t.children.length).find? fun n =>
      match t.children[n]? with
      | some k => k.member && decide (k.inst = i ∧ k.index = g.2 ∧ routerPart k.addr = routerAddr s d) && stationServes s d (stnOf k.addr) i
      | none => false
  | none => none

/-- Check 4 of a COLL command (R182): its context is READY and holds a child entry for the member. -/
def collReady (s : State) (d : Die) (i c : Nat) : Bool :=
  match treeOf s d c with
  | some t => decide ((bndCtx s d c).st = .ready) && (memberChild s d i c t).isSome
  | none => false

/-- Collectives of one member in flight (R184). -/
def collsOf (s : State) (x : BndCtx) (i : Nat) : Nat := (x.colls.filter fun k => decide ((opOf s k.op).inst = some i)).length

/-- The command reads its source: not a barrier, and of a broadcast only the root member (R185). -/
def collReads (h : BndHead) (me : Nat) : Bool := !(h.opcode == 0x40) && (!(h.opcode == 0x41) || decide (me = h.root))

/-- The part of a run of elements that starts at place `at_` which lies in segment `g`, with its own place. -/
def segPart (at_ : Nat) (src : List Nat) (g : Nat) : Nat × List Nat :=
  (max at_ (256 * g), (src.drop (256 * g - at_)).take (256 * (g + 1) - max at_ (256 * g)))

/-- One member's contribution to one segment. -/
def memberPart (h : BndHead) (me : Nat) (src : List Nat) (g : Nat) : List BndElem × List (Nat × List Nat) :=
  if h.opcode = 0x40 then ([], [])
  else if h.opcode = 0x41 then ([], if me = h.root then [segPart 0 src g] else [])
  else if h.opcode = 0x44 then ([], if (segPart (me * h.count) src g).2 = [] then [] else [segPart (me * h.count) src g])
  else ((segPart 0 src g).2.map (elemIn h), [])

/-- Contribute every segment of a member's collective (R196). -/
def contributeAll (s : State) (d : Die) (c : Nat) (t : Tree) (k : Coll) : State :=
  (List.range (segCount k.head t.members)).foldl (fun s g =>
    let p := memberPart k.head k.memberIdx k.src g
    contribute s d c t k.seq g k.child k.head p.1 p.2) s

/-- Issue the read of a collective's source; a walk leaves it translating. -/
def collRead (s : State) (o : Nat) : State :=
  let x := opOf s o
  let b := opBlk x
  let h := collHead b
  let c := fld b 16 0 12
  match xltRange s x.xl (x.inst.getD 1024) .lr (.op o) (fld b 24 0 64) (h.count * elemSize h.ty) with
  | .ok ps => readPieces s (.op o) x.xl (x.inst.getD 1024) (fld b 24 0 64) ps
  | .walk w => startWalk s w
  | .fail code => collsLost s x.die c (collOf s x.die c o) code 0x01 0x06

/-- A COLL command starts: it takes its sequence number and contributes, or reads its source first (R183, R186). -/
def collStart (s : State) (o : Nat) : State :=
  let x := opOf s o
  let b := opBlk x
  let h := collHead b
  let c := fld b 16 0 12
  let i := x.inst.getD 1024
  match treeOf s x.die c with
  | none => s
  | some t =>
    match memberChild s x.die i c t with
    | none => s
    | some ch =>
      let me := ((t.children[ch]?).map (·.index)).getD 0
      let y := bndCtx s x.die c
      let q := tget 0 y.memberSeq me
      let k : Coll := { op := o, seq := q, memberIdx := me, child := ch, head := h, src := [], srcRead := !(collReads h me), segsDone := 0
                        placed := [], nan := false, spill := false }
      let s := modBnd s x.die c fun y => { y with memberSeq := tset 0 y.memberSeq me (q + 1), colls := y.colls ++ [k] }
      let s := modOp s o fun x => { x with phase := .collective, collSeq := q }
      if k.srcRead then contributeAll s x.die c t k else collRead s o

/-- The elements that bytes spell. -/
def elemsOf (sz : Nat) : Nat → List Byte → List Nat
  | 0, _ => []
  | n + 1, l => leNat (l.take sz) :: elemsOf sz n (l.drop sz)

/-- A collective's source has been read (R186, R188). -/
def collSource (s : State) (o : Nat) (r : ReadDone) : State :=
  let x := opOf s o
  let c := fld (opBlk x) 16 0 12
  match (bndCtx s x.die c).colls.find? fun k => decide (k.op = o) with
  | none => s
  | some k =>
    match r.fail with
    | some f => collsLost s x.die c (collOf s x.die c o) (readFailCode f) 0x01 0x06
    | none =>
      let s := modOp s o fun x => { x with xl := [] }
      let k := { k with src := elemsOf (elemSize k.head.ty) k.head.count r.bytes, srcRead := true }
      let s := modBnd s x.die c fun y => { y with colls := y.colls.map fun z => if z.op = o then k else z }
      match treeOf s x.die c with
      | some t => contributeAll s x.die c t k
      | none => s

/-- After a walk for a collective: its source is read, or its waiting results are written. -/
def collResume (s : State) (o : Nat) : State :=
  let x := opOf s o
  let c := fld (opBlk x) 16 0 12
  let y := bndCtx s x.die c
  match y.colls.find? fun k => decide (k.op = o), treeOf s x.die c with
  | some k, some t =>
    if !k.srcRead then collRead s o
    else
      let s := y.segs.foldl (fun s z =>
        match z.result with
        | some b => if z.seq = k.seq ∧ !(decide (k.child ∈ z.acked)) ∧ liveOp s o = true then memberResult s x.die c t k.child k.seq z.seg b else s
        | none => s) s
      bndTidy 64 s x.die c t
  | _, _ => s

/-- Tree records changed at an epoch activation (R182): `old` and `new` are the context's records. -/
def bndInstall (s : State) (d : Die) (c : Nat) (old new : Option (List Byte)) : State :=
  let x := bndCtx s d c
  let gen (r : Option (List Byte)) : Nat := match r with | some b => (decTree (leNat b)).gen | none => 0
  if (if x.st = .aborted then new.isSome ∧ gen new = x.gen else old = new) then s
  else
    let s := match old with
      | some b =>
        if x.st = .aborted then endSeqs s d c 0x05 []
        else if bndBusy x then bndAbort s d c (decTree (leNat b)) (oldestSeq x) 0x05 [] else s
      | none => s
    modBnd s d c fun _ => { st := if new.isSome then .ready else .uninstalled, gen := gen new }

end Sys2Proof.Machine
end

