-- ==== Sys2Proof/Machine/Routing.lean ====
section
/-! DEFINITION. Routing and the Boom (07_routing_spray_boom): the next hop, the choice of a path at the source router,
deterministic routing, drops, flow states, and the reordering of sprayed packets. -/

namespace Sys2Proof.Machine

open Sys2Proof

/-! ## Egresses -/

/-- The link index k of a port or half-port number (R278). -/
def portK (p : Nat) : Nat := 2 * (p % 32) + (if p ≥ 64 then 1 else 0)

/-- The port or half-port number of link k of a die (R277). -/
def kPort (d : Die) (k : Nat) : Nat := if k % 2 = 1 then 64 + k / 2 else 32 * d.idx + k / 2

/-- Egress numbers of a die's tables: link k, 0x7E North, 0x7F South. -/
def egBridge : Bridge → Nat
  | .north => 0x7E
  | .south => 0x7F

/-- A link is UP. -/
def linkUp (s : State) (d : Die) (k : Nat) : Bool := decide ((link s d k).st = .up)
def brgUp (s : State) (d : Die) (b : Bridge) : Bool := decide ((brg s d b).st = .up)
/-- One of the two bridges is UP. -/
def anyBridge (s : State) (d : Die) : Bool := brgUp s d .north || brgUp s d .south

/-- The latest sample of an egress channel (R256, R257), in flits. -/
def occOf (s : State) (d : Die) (eg chan : Nat) : Nat := tget 0 (die s d).crz.sample (64 * eg + chan)

/-- The bridge channel index of a data channel in a stage (CRZ_OCC_SEL). -/
def brgChan (chan stage : Nat) : Nat := if stage = 0 ∨ chan = 16 then chan else 17 + chan

/-- The bridge that the deterministic rule takes for a flow (R223); none when both are out of UP. -/
def detBridge (s : State) (d : Die) (p : Pkt) : Option Bridge :=
  let a := if bit (p.src ^^^ p.dst) 0 then Bridge.south else .north
  let b := if bit (p.src ^^^ p.dst) 0 then Bridge.north else .south
  if brgUp s d a then some a else if brgUp s d b then some b else none

/-- The bridge that a packet crosses by (R215, R223). -/
def pickBridge (s : State) (d : Die) (p : Pkt) (chan stage : Nat) : Option Bridge :=
  if p.det then detBridge s d p
  else
    let n := occOf s d 0x7E (brgChan chan stage)
    let u := occOf s d 0x7F (brgChan chan stage)
    if brgUp s d .north && brgUp s d .south then
      if n < u then some .north else if u < n then some .south else detBridge s d p
    else detBridge s d p

/-! ## The next hop (R215) -/

/-- Where a router sends a packet. -/
inductive Hop where
  | boom (p : Pkt)
  | out (k : Nat) (p : Pkt)
  | bridge (stage : Nat) (p : Pkt)
  | nopath
  | absent
deriving DecidableEq, Repr

/-- Towards a router of the group (toward of R215). -/
def toward (s : State) (d : Die) (p : Pkt) (t : Nat) : Hop :=
  let me := routerOf s d
  if t = (me ^^^ 1) then .bridge (b2n p.lhop) p
  else
    match localRec s d t with
    | some r =>
      if !r.valid then .absent
      else if r.dieOf ≠ d then .bridge (b2n p.lhop) p
      else .out (portK r.port) { p with lhop := true }
    | none => .absent

/-- A router of the group is marked forerunner in its local record. -/
def foreLocal (s : State) (d : Die) (t : Nat) : Bool := match localRec s d t with | some r => r.forerunner | none => false

/-- The latest usable summary of a router of the group (R260), and whether it is stale (R261). -/
def viewOf (s : State) (d : Die) (r : Nat) : Option NbrRec := tget none (die s d).crz.view r
def staleNs (s : State) (d : Die) : Nat := 1000 * bits (regVal s d 0x1100000) 0 16
def recStale (s : State) (d : Die) (n : NbrRec) : Bool := decide (s.now > n.at_ + staleNs s d)

/-- What a summary says of a port. -/
def sumPort (m : Summary) (port : Nat) : Option SumEntry :=
  m.entries.find? fun e => decide (e.port = port ∧ e.die = m.router / 16 % 2)

/-- The gateway's global port is UP as its router reports it in its latest summary, or as the own link is (R218). -/
def gwPortUp (s : State) (d : Die) (e : GwEntry) : Bool :=
  if e.router = routerOf s d then linkUp s d (portK e.port)
  else
    match viewOf s d e.router with
    | some n => n.usable && !(recStale s d n) && (match sumPort n.sum e.port with | some x => decide (x.st = 1) | none => false)
    | none => false

/-- The gateway's record has gone stale: counted for each candidate rejected for it. -/
def gwStale (s : State) (d : Die) (e : GwEntry) : Bool :=
  decide (e.router ≠ routerOf s d) && (match viewOf s d e.router with | some n => recStale s d n | none => false)

/-- Q2 of R219: the decoded occupancy of the gateway's global port for the packet's class. -/
def gwQ2 (s : State) (d : Die) (e : GwEntry) (tc : Nat) : Nat :=
  if e.router = routerOf s d then 0
  else
    match viewOf s d e.router with
    | some n => (match sumPort n.sum e.port with | some x => 2 * x.occ.getD tc 0 | none => 0)
    | none => 0

/-- Both bridges of a router's device are known to be down, from the die's own state or from summaries. -/
def devSplit (s : State) (d : Die) (r : Nat) : Bool :=
  if r / 2 = s.ident.place then !(anyBridge s d)
  else
    let known := fun (q : Nat) => match viewOf s d q with
      | some n => !n.sum.northUp && !n.sum.southUp
      | none => false
    known r || known (r ^^^ 1)

/-- The local hop towards a router lands on its own die, or on a device whose bridges can carry it on. -/
def landsWell (s : State) (d : Die) (t : Nat) : Bool :=
  match localRec s d t with
  | some r =>
    match portRec s r.dieOf r.port with
    | some q => decide (rtrOf q.partner = t) || !(devSplit s d t)
    | none => true
  | none => false

/-- Place a's die that holds its local link to place b, West first, in the reference wiring (R24). -/
def refDie (a b : Nat) : Nat := if (b + 32 - a) % 32 ≤ 16 then 0 else 1

/-- The second leg of a KIND 2 path from router `t` to router `u` of other devices crosses no split device, as far as the
reference wiring and the neighbours' summaries tell (R24, R218). [log DEDUCED 195] -/
def secondLeg (s : State) (d : Die) (t u : Nat) : Bool :=
  if t / 2 = u / 2 then !(devSplit s d u)
  else (decide (refDie (t / 2) (u / 2) = t % 2) || !(devSplit s d t)) && (decide (refDie (u / 2) (t / 2) = u % 2) || !(devSplit s d u))

/-- The first hop towards a router of the group can be taken (R218). -/
def hopUsable (s : State) (d : Die) (t : Nat) : Bool :=
  if t = routerOf s d then true
  else if t = (routerOf s d ^^^ 1) then anyBridge s d
  else
    match localRec s d t with
    | some r =>
      if !r.valid then false
      else if r.dieOf ≠ d then anyBridge s d && landsWell s d t
      else linkUp s d (portK r.port) && landsWell s d t
    | none => false

/-- A port record marks the router across a link of this device FORERUNNER, or that router's local record does. -/
def foreLink (s : State) (x : Die) (d : Die) (port : Nat) : Bool :=
  match portRec s x port with
  | some q => q.forerunner || (decide (q.role = 1) && foreLocal s d (rtrOf q.partner))
  | none => false

/-- The hop towards a router of the group touches a forerunner router (R218). -/
def foreHop (s : State) (d : Die) (t : Nat) : Bool :=
  foreLocal s d t || (decide (t / 2 ≠ s.ident.place) && (match localRec s d t with | some r => foreLink s r.dieOf d r.port | none => false))

/-- FORERUNNER of entry 0, valid or not, speaks for the group (R210). -/
def groupFore (s : State) (d : Die) (h : Nat) : Bool := ((gateways s d h).head?.map (·.forerunner)).getD false

/-- A path to group h by a gateway entry touches a forerunner router. -/
def foreGw (s : State) (d : Die) (h : Nat) (e : GwEntry) : Bool :=
  groupFore s d h || (if e.router = routerOf s d then foreLink s d d e.port else foreHop s d e.router)

/-- A gateway entry of group h is usable for a sprayed packet, or for the deterministic path (R218, R222). -/
def gwUsable (s : State) (d : Die) (spray : Bool) (h : Nat) (e : GwEntry) : Bool :=
  e.valid && !(spray && foreGw s d h e) && gwPortUp s d e && hopUsable s d e.router

/-- Q1 of R219 for a first hop towards a router: its egress channel's occupancy. -/
def hopQ1 (s : State) (d : Die) (p : Pkt) (t gwPort : Nat) : Nat :=
  if t = routerOf s d then occOf s d (portK gwPort) (4 * p.tc + p.level + 1)
  else
    match toward s d p t with
    | .out k _ => occOf s d k (4 * p.tc + p.level)
    | .bridge st _ =>
      (match pickBridge s d p (4 * p.tc + p.level) st with
       | some b => occOf s d (egBridge b) (brgChan (4 * p.tc + p.level) st)
       | none => 0)
    | _ => 0

/-- The usable gateway of a group with the lowest Q1 + Q2, ties to the lowest entry (R220, R221). -/
def pickGateway (s : State) (d : Die) (p : Pkt) (h : Nat) (spray : Bool) : Option GwEntry :=
  let cost (e : GwEntry) := hopQ1 s d p e.router e.port + gwQ2 s d e p.tc
  ((gateways s d h).filter (gwUsable s d spray h)).foldl (fun best e => match best with
    | none => some e
    | some b => if cost e < cost b then some e else some b) none

/-- The next hop of a packet at a router. -/
def nextHop (s : State) (d : Die) (p : Pkt) : Hop :=
  let me := routerOf s d
  let g := s.ident.group
  let leg1 (p : Pkt) : Pkt := { p with leg := true, level := p.level + 1, lhop := false }
  let p1 : Option Pkt :=
    if p.kind = 1 ∧ p.leg = false ∧ g = p.viaGroup then
      match pickGateway s d (leg1 p) (grpOf p.dst) true with
      | some e => some { leg1 p with gwRouter := e.router, gwPort := e.port }
      | none => none
    else some p
  match p1 with
  | none => .nopath
  | some p =>
    let p := if p.kind = 2 ∧ p.leg = false ∧ g = grpOf p.dst ∧ me = p.viaRouter then leg1 p else p
    let tg := if p.kind = 1 ∧ p.leg = false then p.viaGroup else grpOf p.dst
    if g ≠ tg then
      if me = p.gwRouter then .out (portK p.gwPort) { p with level := p.level + 1, lhop := false }
      else toward s d p p.gwRouter
    else
      let tr := if p.kind = 2 ∧ p.leg = false then p.viaRouter else rtrOf p.dst
      if me = tr then .boom p else toward s d p tr

/-! ## Queues and drops -/

/-- The instance that a packet carries: that of the connection end that sends it; none for acknowledgements, notices,
Bindery traffic and the data of a management ring (R235, R240). [log DEDUCED 196] -/
def pktInst (p : Pkt) : Option Nat :=
  match bodyOf p with
  | .req r => if r.mgmt then none else some r.srcInst
  | .resp r => some r.inst
  | .ctl c => some c.inst
  | _ => none

/-- SCH_SHARE_MAP of an instance: its share group in a class (R235). -/
def shareGroup (s : State) (d : Die) (i : Option Nat) (tc : Nat) : Nat :=
  match i with
  | some i => bits (regVal s d (0x2001000 + 4 * i)) (4 * tc) 4
  | none => 0

/-- The key of a leaf queue (R235). -/
def leafKey (eg tc g : Nat) : Nat := 64 * eg + 16 * tc + g

/-- Queue a packet at an egress: channel 16 in the Flume tier, others in the leaf queue of their class and share group. -/
def enqueue (s : State) (d : Die) (eg stage : Nat) (p : Pkt) : State :=
  let q : QPkt := { pkt := p, chan := if p.chan16 then 16 else 4 * p.tc + p.level, stage := stage, at_ := s.now, inst := pktInst p }
  onSch s d fun x =>
    if p.chan16 then { x with egress := tmod {} x.egress eg fun y => { y with flume := y.flume ++ [q] } }
    else { x with egq := tmod {} x.egq (leafKey eg p.tc (shareGroup s d q.inst p.tc)) fun y => { y with pkts := y.pkts ++ [q] } }

/-- Drop a packet for want of an egress (R216): counted, and reported at most once per 1 ms. -/
def rteDrop (s : State) (d : Die) (p : Pkt) (eg : Nat) : State :=
  let s := pmc (bumpReg s d 0xF00020) d 341 1
  let due := match (die s d).rtr.nopathAt with
    | some t => decide (s.now ≥ t + 1000000)
    | none => true
  if due then
    postMgmt (onRtr s d fun r => { r with nopathAt := some s.now }) d 0x40
      (evb 8 d.idx + evb 9 eg + evb 12 p.dst + evb 16 (regVal s d 0xF00020))
  else s

/-- A packet that bypasses the Boom reaches the Bindery or the stations of its die (R228). -/
def arrived (d : Die) (p : Pkt) : Out :=
  match bodyOf p with
  | .bnd b => .bnd d b
  | _ => .toStation d p

/-- The egress number by which a drop report names link k. -/
def egName (d : Die) (k : Nat) : Nat := kPort d k

/-- Send a packet where its next hop says, if that egress is UP; otherwise drop it (R216). `asked` fixes the bridge. -/
def sendHop (s : State) (d : Die) (asked : Option Bridge) : Hop → Pkt → State
  | .boom p, _ => if p.ord then emit s (.toBoom d p) else emit s (arrived d p)
  | .out k p, _ => if linkUp s d k then enqueue s d k 0 p else rteDrop s d p (egName d k)
  | .bridge st p, _ =>
    (match (match asked with | some b => some b | none => pickBridge s d p (if p.chan16 then 16 else 4 * p.tc + p.level) st) with
     | some b => if brgUp s d b then enqueue s d (egBridge b) st p else rteDrop s d p (egBridge b)
     | none => rteDrop s d p (egBridge (if bit (p.src ^^^ p.dst) 0 then .south else .north)))
  | .nopath, p => rteDrop s d p 0x7D
  | .absent, p => rteDrop s d p 0x7D

/-! ## Flow states (R227, R233) -/

def flowKey (f : FlowId) : Nat := f.src + 2 ^ 20 * f.tc + 2 ^ 22 * (f.dstRouter / 16)
def flowOf (s : State) (d : Die) (f : FlowId) : Flow := tget {} (die s d).rtr.flows (flowKey f)
def setFlow (s : State) (d : Die) (f : FlowId) (x : Flow) : State :=
  onRtr s d fun r => { r with flows := tset {} r.flows (flowKey f) x }

def pktFlow (p : Pkt) : FlowId := { src := p.src, tc := p.tc, dstRouter := routerPart p.dst }

/-- A flow is in cooldown. -/
def cooling (s : State) (x : Flow) : Bool :=
  match x.cooldownTill with
  | some t => decide (s.now < t)
  | none => false

/-- A flow state that may be retired: idle for 256 µs and not in cooldown. -/
def retirable (s : State) (x : Flow) : Bool := decide (s.now ≥ x.lastInject + 256000) && !(cooling s x)

/-- Room for a flow state: one of 262,144 free, or one that can be retired; none when there is none. -/
def flowRoom (s : State) (d : Die) : Option State :=
  if (die s d).rtr.flows.length < 262144 then some s
  else
    match (die s d).rtr.flows.find? fun (_, x) => retirable s x with
    | some (k, _) => some (onRtr s d fun r => { r with flows := tdel r.flows k })
    | none => none

/-- Number an ORD = 1 packet (R227); without a state it is sent with ORD = 0. -/
def numberPkt (s : State) (d : Die) (p : Pkt) : State × Pkt :=
  let f := pktFlow p
  let x := flowOf s d f
  let go (s : State) : State × Pkt :=
    (setFlow s d f { x with live := true, nextFseq := (x.nextFseq + 1) % 2 ^ 32, lastInject := s.now }
     , { p with ord := true, start := decide (x.nextFseq = 0 ∧ x.lastInject = 0), fseq := x.nextFseq })
  if x.live then go s
  else
    match flowRoom s d with
    | some s => go s
    | none => (pmc s d 344 1, { p with ord := false, start := false, fseq := 0 })

/-! ## Choosing a path (R217 to R223) -/

/-- A candidate path. -/
structure Cand where
  kind : Nat
  viaGroup : Nat
  viaRouter : Nat
  gw : Option GwEntry
  bridge : Option Bridge
  cost : Nat
deriving DecidableEq, Repr

/-- One step of the route generator (R217, R220): its value, and the state after. -/
def draw (s : State) (d : Die) : Nat × State :=
  let v := Config.sprayNext (die s d).rtr.lfsr % 2 ^ 32
  (v, onRtr s d fun r => { r with lfsr := v })

/-- The Valiant intermediates taken from an eligible list (R217). -/
def drawn (l : List Nat) (count x y : Nat) : List Nat :=
  let n := l.length
  if n = 0 then []
  else (List.range (min count n)).map fun i => l.getD ((x % n + i * ((y % n) ||| 1)) % n) 0

/-- Routers eligible as KIND 2 intermediates. -/
def viaRouters (s : State) (d : Die) (p : Pkt) : List Nat :=
  (List.range 64).filter fun t =>
    (match localRec s d t with | some r => r.valid | none => false) && decide (t / 2 ≠ s.ident.place ∧ t ≠ rtrOf p.dst)

/-- Groups eligible as KIND 1 intermediates. -/
def viaGroups (s : State) (d : Die) (p : Pkt) : List Nat :=
  (List.range 1024).filter fun h => valiantGroup s d h && decide (h ≠ s.ident.group ∧ h ≠ grpOf p.dst)

def sprayCfg (s : State) (d : Die) : Nat := regVal s d 0xF00008

/-- C of R219 for a first hop. -/
def costOf (s : State) (d : Die) (p : Pkt) (t gwPort q2 : Nat) (valiant : Bool) : Nat :=
  let cfg := sprayCfg s d
  let viaBridge := match toward s d p t with
    | .bridge .. => decide (t ≠ routerOf s d)
    | _ => false
  hopQ1 s d p t gwPort + q2 + (if valiant then bits cfg 16 8 else 0) + (if viaBridge then bits cfg 24 8 else 0)

/-- A local link of the partner die leads back from the device of an intermediate router, so that the last local hop of a
KIND 2 path can land on the partner die while the device is split (R218). [log DEDUCED 89] -/
def lastLands (s : State) (d : Die) (t : Nat) : Bool :=
  (List.range 64).any fun k => linkUp s d.other k && (match portRec s d.other (kPort d.other k) with
    | some q => decide (q.role = 1 ∧ rtrOf q.partner / 2 = t / 2 ∧ grpOf q.partner = s.ident.group)
        && (decide (rtrOf q.partner = t) || !(devSplit s d t))
    | none => false)

/-- The usable candidates for a packet and the number rejected for a stale record (R217, R218). -/
def candidates (s : State) (d : Die) (p : Pkt) (x y : Nat) : List Cand × Nat :=
  let v := bits (sprayCfg s d) 0 6
  let me := routerOf s d
  let h := grpOf p.dst
  let kind2 (m : Nat) : List Cand :=
    ((drawn (viaRouters s d p) (min v (64 - m)) x y).filter fun t =>
      hopUsable s d t && !(foreHop s d t)
        && (if rtrOf p.dst / 2 = s.ident.place then lastLands s d t else secondLeg s d t (rtrOf p.dst))).map fun t =>
      { kind := 2, viaGroup := 0, viaRouter := t, gw := none, bridge := none, cost := costOf s d p t 0 0 true }
  if h = s.ident.group then
    let t := rtrOf p.dst
    if t = (me ^^^ 1) then
      let mins := ([Bridge.north, .south].filter (brgUp s d)).map fun b =>
        ({ kind := 0, viaGroup := 0, viaRouter := 0, gw := none, bridge := some b
           cost := occOf s d (egBridge b) (4 * p.tc + p.level) + bits (sprayCfg s d) 24 8 } : Cand)
      (mins ++ (if splitNow s then kind2 mins.length else []), 0)
    else
      let mins := if hopUsable s d t && !(foreHop s d t) then
        [({ kind := 0, viaGroup := 0, viaRouter := 0, gw := none, bridge := none, cost := costOf s d p t 0 0 false } : Cand)] else []
      (mins ++ kind2 mins.length, 0)
  else
    let ents := (gateways s d h).filter (·.valid)
    let mins := (ents.filter (gwUsable s d true h)).map fun e =>
      ({ kind := 0, viaGroup := 0, viaRouter := 0, gw := some e, bridge := none
         cost := costOf s d p e.router e.port (gwQ2 s d e p.tc) false } : Cand)
    let via := drawn (viaGroups s d p) (min v (64 - ents.length)) x y
    let lost := via.filter fun g => (pickGateway s d p g true).isNone && (gateways s d g).any fun e => e.valid && gwStale s d e
    let vals := via.filterMap fun g =>
      match pickGateway s d p g true with
      | some e => some ({ kind := 1, viaGroup := g, viaRouter := 0, gw := some e, bridge := none
                          cost := costOf s d p e.router e.port (gwQ2 s d e p.tc) true } : Cand)
      | none => none
    (mins ++ vals, (ents.filter (gwStale s d)).length + lost.length)

/-- The weight of a cost (R219). -/
def weightOf (scale c : Nat) : Nat := 256 / 2 ^ (min 8 (c / max 1 scale))

/-- Take the candidate that a draw falls on. -/
def takeCand (scale : Nat) : List Cand → Nat → Option Cand
  | [], _ => none
  | c :: t, r => if r < weightOf scale c.cost then some c else takeCand scale t (r - weightOf scale c.cost)

/-- A packet with a candidate's routing fields (R220). [log DEDUCED 90] -/
def withCand (p : Pkt) (c : Cand) : Pkt :=
  { p with kind := c.kind, viaGroup := c.viaGroup, viaRouter := c.viaRouter, level := 0, leg := decide (c.kind = 0), lhop := false
           det := false, gwRouter := ((c.gw).map (·.router)).getD 0, gwPort := ((c.gw).map (·.port)).getD 0 }

/-- The deterministic path (R222, R223); none when it does not meet the first three conditions of R218. -/
def detPath (s : State) (d : Die) (p : Pkt) : Option Pkt :=
  let p := { p with kind := 0, viaGroup := 0, viaRouter := 0, level := 0, leg := true, lhop := false, det := true, gwRouter := 0, gwPort := 0 }
  if grpOf p.dst = s.ident.group then
    let t := rtrOf p.dst
    if t = (routerOf s d ^^^ 1) then
      if anyBridge s d then some p
      else
        match (viaRouters s d p).find? fun r => hopUsable s d r && lastLands s d r with
        | some r => some { p with kind := 2, leg := false, viaRouter := r }
        | none => none
    else if hopUsable s d t then some p else none
  else
    match (gateways s d (grpOf p.dst)).find? (gwUsable s d false (grpOf p.dst)) with
    | some e => some { p with gwRouter := e.router, gwPort := e.port }
    | none => none

/-- The destination or the source of a packet is marked FORERUNNER (R222, R228). -/
def touchesFore (s : State) (d : Die) (p : Pkt) : Bool :=
  (if grpOf p.dst = s.ident.group then foreLocal s d (rtrOf p.dst) else groupFore s d (grpOf p.dst))
    || (decide (grpOf p.src = s.ident.group) && foreLocal s d (rtrOf p.src))

/-- The packet carries ORD = 0 always (R228). -/
def neverOrd (p : Pkt) : Bool :=
  p.chan16 || (match bodyOf p with | .notice .. => true | .bnd _ => true | _ => false)

/-- The egress that a deterministic path within the own group has fixed though it cannot be taken: the direct link, or the
bridge towards it; 0x7D where none could be chosen (R216). [log DEDUCED 197] -/
def fixedEgress (s : State) (d : Die) (p : Pkt) : Nat :=
  if grpOf p.dst = s.ident.group ∧ rtrOf p.dst ≠ (routerOf s d ^^^ 1) then
    match localRec s d (rtrOf p.dst) with
    | some r =>
      if !r.valid then 0x7D
      else if r.dieOf ≠ d then egBridge (if bit (p.src ^^^ p.dst) 0 then .south else .north)
      else r.port
    | none => 0x7D
  else 0x7D

/-- Send a packet by the deterministic path. -/
def routeDet (s : State) (d : Die) (p : Pkt) : State :=
  match detPath s d p with
  | some q => sendHop (pmc s d 339 1) d none (nextHop s d q) q
  | none => rteDrop s d p (fixedEgress s d p)

/-- Send a Bindery packet over one direct edge: a bridge to the partner die, or an UP link whose partner is its destination. -/
def sendEdge (s : State) (d : Die) (p : Pkt) : State :=
  let p := { p with kind := 0, viaGroup := 0, viaRouter := 0, level := 0, leg := true, lhop := false, det := true }
  if ownDie s p.dst = some d.other then sendHop s d none (.bridge 0 p) p
  else
    match (die s d).links.find? fun (_, l) => decide (l.st = .up ∧ routerPart l.partner = p.dst) with
    | some (k, _) =>
      if grpOf p.dst = s.ident.group then enqueue s d k 0 { p with lhop := true } else enqueue s d k 0 { p with level := 1 }
    | none => rteDrop s d p 0x7D

/-- A partial, or the answer to a result: it goes up the tree. -/
def bndUpward : BndBody → Bool
  | .partialUp .. => true
  | .ackDown => true
  | _ => false

/-- Route a Bindery packet (R198, R228): a tree edge and the child's hop to its backup parent are direct, between the backup
parent and the parent it goes deterministically on TC2, and back to the child directly where that edge is UP. -/
def routeBnd (s : State) (d : Die) (p : Pkt) (b : BndPkt) : State :=
  let up := bndUpward b.body
  let here := decide (b.src = routerAddr s d)
  if !b.relay || (here && up) then sendEdge s d p
  else if here || up || !(edgeUp s d p.dst) then routeDet s d p
  else sendEdge s d p

/-- The counter of a chosen candidate. -/
def pickCounter : Nat → Nat
  | 0 => 336
  | 1 => 337
  | _ => 338

/-- Choose a path for a sprayed packet (R217 to R220). [log DEDUCED 92, DEDUCED 213] -/
def routeSpray (s : State) (d : Die) (p : Pkt) : State :=
  let (x, s) := draw s d
  let (y, s) := draw s d
  let (r, s) := draw s d
  let cs := candidates s d { p with level := 0, lhop := false, det := false } (x % 65536) (y % 65536)
  let s := pmc s d 342 cs.2
  let scale := bits (sprayCfg s d) 8 8
  let total := (cs.1.map fun c => weightOf scale c.cost).sum
  match takeCand scale cs.1 (r % max 1 total) with
  | some c =>
    let q := withCand p c
    sendHop (pmc s d (pickCounter c.kind) 1) d c.bridge (nextHop s d q) q
  | none => routeDet (pmc s d 340 1) d p

/-- The packet refused at the source router because its destination router is absent (R22): a connection's end fails. -/
def refuseAbsent (s : State) (d : Die) (p : Pkt) : State :=
  match bodyOf p with
  | .req r => failConn s d r.peer 0x0A 0x02 true
  | _ => rteDrop s d p 0x7D

/-- A FORM 2 Flume packet goes out of the port it names, UP or in QUARANTINE (R216, R250). -/
def flumeOutPort (s : State) (d : Die) (p : Pkt) (port : Nat) : State :=
  let k := portK port
  if (link s d k).st = .up ∨ (link s d k).st = .quarantine then enqueue s d k 0 p else rteDrop s d p port

/-- The port by which a FORM 2 answer leaves (R250). -/
def form2Port (p : Pkt) : Option Nat :=
  match bodyOf p with
  | .flume f => if f.form = 2 then some f.relayPort else none
  | _ => none

/-- A packet enters the routing stage of its source router (R21, R22, R217, R222, R227, R228). -/
def routeSource (s : State) (d : Die) (p : Pkt) : State :=
  match form2Port p with
  | some port => flumeOutPort s d { p with src := routerAddr s d } port
  | none =>
  let p := { p with src := routerAddr s d + stnOf p.src }
  if !s.ident.valid then s
  else if routerPart p.dst = routerAddr s d then emit s (arrived d { p with ord := false })
  else
  match bodyOf p with
  | .bnd b => routeBnd s d { p with ord := false, start := false, fseq := 0 } b
  | _ =>
  if ownDie s p.dst ≠ some d.other ∧ destAbsent s d p.dst = true then refuseAbsent s d p
  else
    let fore := touchesFore s d p
    let x := flowOf s d (pktFlow p)
    let det := neverOrd p || fore || cooling s x || !(bit (regVal s d 0xF00000) p.tc)
    let n := if neverOrd p || fore then (s, { p with ord := false, start := false, fseq := 0 }) else numberPkt s d p
    if det || !n.2.ord then routeDet n.1 d n.2 else routeSpray n.1 d n.2

/-- PACKET_ROUTE_SOURCE. -/
def execPacketRouteSource (d : Die) (p : Pkt) (s : State) : Host.Outcome State Fault Refusal := .next (routeSource s d p)

/-- COOLDOWN_EXPIRY: spraying of a flow resumes (R233). -/
def execCooldownExpiry (d : Die) (f : FlowId) (s : State) : Host.Outcome State Fault Refusal :=
  let x := flowOf s d f
  match x.cooldownTill with
  | some t => if s.now ≥ t then .next (setFlow s d f { x with cooldownTill := none }) else .next s
  | none => .next s

/-- FLOW_STATE_RETIRE: a flow state idle for 256 µs and not in cooldown (R227). -/
def execFlowStateRetire (d : Die) (f : FlowId) (s : State) : Host.Outcome State Fault Refusal :=
  let x := flowOf s d f
  if x.live && retirable s x then .next (setFlow s d f {}) else .next s

/-- BOOM_NOTICE_RECEIVE: the flow enters cooldown until 1 ms after receipt (R233). -/
def execBoomNoticeReceive (d : Die) (p : Pkt) (s : State) : Host.Outcome State Fault Refusal :=
  match bodyOf p with
  | .notice src tc =>
    let f : FlowId := { src := src, tc := tc, dstRouter := routerPart p.src }
    let x := flowOf s d f
    if x.live then .next (pmc (setFlow s d f { x with cooldownTill := some (s.now + 1000000) }) d 343 1)
    else
      match flowRoom s d with
      | some s => .next (pmc (setFlow s d f { live := true, cooldownTill := some (s.now + 1000000) }) d 343 1)
      | none => .next s
  | _ => .next s

/-! ## The Boom (R226, R229 to R232) -/

def boomKey (src tc : Nat) : Nat := src + 2 ^ 20 * tc
def boomOf (s : State) (d : Die) (src tc : Nat) : BoomFlow := tget {} (die s d).rtr.boom (boomKey src tc)
def setBoom (s : State) (d : Die) (src tc : Nat) (f : BoomFlow) : State :=
  onRtr s d fun r => { r with boom := tset {} r.boom (boomKey src tc) f }

/-- Descriptors in use, and bytes of held bodies, of a die. -/
def boomHeld (s : State) (d : Die) : Nat := ((die s d).rtr.boom.map fun (_, f) => f.held.length).sum
/-- [log DEDUCED 214] -/
def pktBytes (p : Pkt) : Nat := 64 * (p.len + 1)
def boomBytes (s : State) (d : Die) : Nat :=
  ((die s d).rtr.boom.map fun (_, f) => (f.held.map fun h => pktBytes h.2.2).sum).sum

/-- A packet can be held. -/
def boomRoom (s : State) (d : Die) (p : Pkt) : Bool :=
  decide (boomHeld s d < 1572864 ∧ boomBytes s d + pktBytes p ≤ bits (regVal s d 0xE00000) 0 7 * 1048576)

/-- Hand a packet to the station layer. -/
def boomDeliver (s : State) (d : Die) (p : Pkt) : State := emit s (.toStation d p)

/-- A notice to the source router, at most one per flow in 100 µs (R232). [log DEDUCED 93] -/
def boomNotice (s : State) (d : Die) (src tc : Nat) : State :=
  let recent := tmapv none (die s d).rtr.notices fun _ a => match a with
    | some t => if s.now ≥ t + 100000 then none else some t
    | none => none
  if tget none recent (boomKey src tc) = none then
    let s := onRtr s d fun r => { r with notices := tset none recent (boomKey src tc) (some s.now) }
    emit (pmc s d 358 1) (.toRoute d
      { dst := routerPart src, src := routerAddr s d, tc := tc, level := 0, leg := false, lhop := false, ord := false, start := false
        viaGroup := 0, gwRouter := 0, gwPort := 0, len := 0, kind := 0, det := true, viaRouter := 0, rsv := 0, fseq := 0
        chan16 := false, body := .notice src tc })
  else s

/-- d of R229. -/
def boomDist (fseq next : Nat) : Nat := (fseq + 2 ^ 32 - next) % 2 ^ 32

/-- Deliver every held packet that continues the sequence. -/
def boomRun : Nat → State → Die → Nat → Nat → State
  | 0, s, _, _, _ => s
  | n + 1, s, d, src, tc =>
    let f := boomOf s d src tc
    match f.held.find? fun h => decide (h.1 = f.next) with
    | some h =>
      boomRun n (boomDeliver (setBoom s d src tc
        { f with next := (f.next + 1) % 2 ^ 32, held := f.held.filter fun x => decide (x.1 ≠ h.1) }) d h.2.2) d src tc
    | none => s

/-- Hold a packet, or drop it with a notice when nothing can be held. -/
def boomHold (s : State) (d : Die) (p : Pkt) : State :=
  let f := boomOf s d p.src p.tc
  if boomRoom s d p then setBoom (pmc s d 353 1) d p.src p.tc { f with held := f.held ++ [(p.fseq, s.now, p)] }
  else boomNotice (pmc (bumpReg s d 0xE00010) d 354 1) d p.src p.tc

/-- A late packet, or one whose FSEQ is already held: delivered at once, out of order. -/
def boomLate (s : State) (d : Die) (p : Pkt) : State := boomDeliver (pmc (bumpReg s d 0xE00020) d 356 1) d p

/-- A packet of a SYNCED flow (R229). -/
def boomWindow (s : State) (d : Die) (p : Pkt) : State :=
  let f := boomOf s d p.src p.tc
  let n := boomDist p.fseq f.next
  if f.held.any fun h => decide (h.1 = p.fseq) then boomLate s d p
  else if n = 0 then
    let s := setBoom (pmc s d 352 1) d p.src p.tc { f with next := (f.next + 1) % 2 ^ 32 }
    boomRun f.held.length (boomDeliver s d p) d p.src p.tc
  else if n ≤ 65535 then boomHold s d p
  else if n < 2 ^ 31 then boomNotice (pmc (bumpReg s d 0xE00010) d 354 1) d p.src p.tc
  else boomLate s d p

/-- An entry for a flow: one of 262,144 free, or the least recently used that holds nothing. -/
def boomEntry (s : State) (d : Die) : Option State :=
  if (die s d).rtr.boom.length < 262144 then some s
  else
    let free := (die s d).rtr.boom.filter fun (_, f) => f.held.isEmpty
    match free.foldl (fun best e => match best with
      | none => some e
      | some b => if e.2.lastUse < b.2.lastUse then some e else some b) (none : Option (Nat × BoomFlow)) with
    | some (k, _) => some (onRtr s d fun r => { r with boom := tdel r.boom k })
    | none => none

/-- Held packets in ascending order of distance from `base`. -/
def boomSorted (l : List (Nat × Nat × Pkt)) (base : Nat) : List (Nat × Nat × Pkt) :=
  sortBy (fun a b => decide (boomDist a.1 base ≤ boomDist b.1 base)) l

/-- Packets held again keep the time at which each was first held (R230). [log DEDUCED 94] -/
def boomSince (s : State) (d : Die) (src tc : Nat) (old : List (Nat × Nat × Pkt)) : State :=
  let f := boomOf s d src tc
  setBoom s d src tc { f with held := f.held.map fun h => match old.find? fun o => decide (o.1 = h.1) with
    | some o => (h.1, o.2.1, h.2.2)
    | none => h }

/-- An ORD = 1 packet at the Boom (R231). -/
def boomArrive (s : State) (d : Die) (p : Pkt) : State :=
  let f := boomOf s d p.src p.tc
  let s := if f.st = .absent then s else setBoom s d p.src p.tc { f with lastUse := s.now }
  match f.st with
  | .absent =>
    (match boomEntry s d with
     | some s =>
       if p.start then boomWindow (setBoom s d p.src p.tc { st := .synced, next := 0, lastUse := s.now }) d p
       else boomHold (setBoom s d p.src p.tc { st := .unsynced, lastUse := s.now }) d p
     | none => boomNotice (boomDeliver (pmc (bumpReg s d 0xE00028) d 357 1) d p) d p.src p.tc)
  | .unsynced =>
    if p.start then
      let old := boomSorted f.held 0
      let s := setBoom s d p.src p.tc { f with st := .synced, next := 0, held := [], lastUse := s.now }
      boomWindow (boomSince (old.foldl (fun s h => boomWindow s d h.2.2) s) d p.src p.tc old) d p
    else if f.held.any fun h => decide (h.1 = p.fseq) then boomLate s d p
    else boomHold s d p
  | .synced =>
    if p.start then
      let s := setBoom s d p.src p.tc { f with next := 0, held := [], lastUse := s.now }
      boomWindow ((boomSorted f.held f.next).foldl (fun s h => boomDeliver s d h.2.2) s) d p
    else boomWindow s d p

/-- BOOM_ARRIVAL. -/
def execBoomArrival (d : Die) (p : Pkt) (s : State) : Host.Outcome State Fault Refusal :=
  if p.ord then .next (boomArrive s d p) else .next s

/-- The oldest held packet of a flow. -/
def boomOldest (f : BoomFlow) : Option (Nat × Nat × Pkt) :=
  f.held.foldl (fun best h => match best with
    | none => some h
    | some b => if h.2.1 < b.2.1 then some h else some b) none

/-- Skip ahead past the oldest held packet (R230). -/
def boomSkip (s : State) (d : Die) (src tc : Nat) : State :=
  let f := boomOf s d src tc
  match boomOldest f with
  | none => s
  | some o =>
    let base := if f.st = .synced then f.next
      else ((f.held.map (·.1)).foldl min o.1)
    let upto := boomDist o.1 base
    let go := boomSorted (f.held.filter fun h => decide (boomDist h.1 base ≤ upto)) base
    let s := setBoom s d src tc
      { f with st := .synced, next := (o.1 + 1) % 2 ^ 32, held := f.held.filter fun h => decide (boomDist h.1 base > upto) }
    let s := go.foldl (fun s h => boomDeliver s d h.2.2) s
    let s := boomRun f.held.length s d src tc
    boomNotice (pmc (bumpReg s d 0xE00018) d 355 1) d src tc

/-- BOOM_HOLD_TIMEOUT: a flow's oldest held packet reaches 64 µs (R230, R231). -/
def execBoomHoldTimeout (d : Die) (src tc : Nat) (s : State) : Host.Outcome State Fault Refusal :=
  match boomOldest (boomOf s d src tc) with
  | some o => if s.now ≥ o.2.1 + 64000 then .next (boomSkip s d src tc) else .next s
  | none => .next s

/-- BOOM_ENTRY_IDLE: a SYNCED entry with nothing held and no arrival for 512 µs is freed (R231). -/
def execBoomEntryIdle (d : Die) (src tc : Nat) (s : State) : Host.Outcome State Fault Refusal :=
  let f := boomOf s d src tc
  if f.st = .synced ∧ f.held = [] ∧ s.now ≥ f.lastUse + 512000 then .next (setBoom s d src tc {}) else .next s

end Sys2Proof.Machine
end

