-- ==== Sys2Proof/Machine/Links.lean ====
section
/-! DEFINITION. Links (10_lanes_links_bridges): states and admission, frames with CRC, sequence and retransmission, the
error window, partner violations, credits, bring-up, forerunner ports and MG_PORT_CTL for links. -/

namespace Sys2Proof.Machine

open Sys2Proof

/-! ## Frames (R284, R289) -/

/-- One bit of the reflected CRC-32 (R289). -/
def crcBit (c : Nat) (b : Bool) : Nat :=
  let x := c ^^^ b2n b
  if x % 2 = 1 then (x / 2) ^^^ 0xEDB88320 else x / 2

/-- The CRC over bytes, least significant bit first. -/
def crcBytes (c : Nat) (l : List Byte) : Nat := l.foldl (fun c b => (List.range 8).foldl (fun c i => crcBit c (b.getLsbD i)) c) c

/-- The CRC-32 of a frame: slot flags, slots, frame control bits [79:32] (R289). -/
def frameCrc (flags : List Bool) (slots : List Block) (ctl : Nat) : BitVec 32 :=
  let f := (flags.zip (List.range 80)).foldl (fun n p => n + b2n p.1 * 2 ^ p.2) 0
  let c := crcBytes 0xFFFFFFFF (leBytes 10 f)
  let c := slots.foldl (fun c b => crcBytes c (leBytes 64 b.toNat)) c
  BitVec.ofNat 32 (crcBytes c (leBytes 6 ctl) ^^^ 0xFFFFFFFF)

/-- Frame control bits [79:32] (R284). -/
def frameCtl (fsn ack nak : Nat) (retx empty : Bool) (crCh crCount : Nat) : Nat :=
  fsn + ack * 2 ^ 12 + nak * 2 ^ 24 + b2n retx * 2 ^ 32 + b2n empty * 2 ^ 33 + crCh * 2 ^ 34 + crCount * 2 ^ 39

/-! ## Sending a frame (R290, R294) -/

/-- The channel with most freed flits not yet reported, and its cumulative count in 4-flit units; 31 for none. -/
def pickCredit (l : Link) : Nat × Nat :=
  if l.forerunner then (31, 0)
  else
    let due (c : Nat) : Nat := tget 0 l.freed c - 4 * tget 0 l.crSent c
    let best := (List.range 17).foldl (fun b c => if due c > due b then c else b) 0
    if due best < 4 then (31, 0) else (best, tget 0 l.freed best / 4 % 512)

/-- NAK_MAP: the missing frames among the eight from the next expected one (R284, R292). -/
def nakMap (l : Link) : BitVec 8 :=
  (List.range 8).foldl (fun b i => if (l.expectFsn + i) % 4096 ∈ l.missing then b ||| (1#8 <<< i) else b) 0

/-- Send a frame with the link's current frame control; its last packet flit is one of channel `chan`. -/
def sendFrame (s : State) (d : Die) (k fsn : Nat) (retx empty : Bool) (chan : Nat) (slots : List (Bool × Block)) : State :=
  let l := link s d k
  let cr := pickCredit l
  let s := modLink s d k fun l => { l with crSent := if cr.1 = 31 then l.crSent else tset 0 l.crSent cr.1 (tget 0 l.freed cr.1 / 4) }
  let s := pmcAt s d (8 * (k / 2)) ((slots.filter fun x => !x.1).length) (egCtx (kPort d k) chan)
  emit s (.frame d k fsn retx empty l.expectFsn (nakMap l) cr.1 cr.2 slots)

/-- The IDLE link flit, and a link flit in its slot. -/
def idleSlot : Bool × Block := (true, 0)
def flitSlot (b : Block) : Bool × Block := (true, b)

/-- Fill a frame to 80 slots. -/
def fillSlots (l : List (Bool × Block)) : List (Bool × Block) := l ++ List.replicate (80 - l.length) idleSlot

/-- Send slots in a new sequenced frame, held until acknowledged. -/
def sendSlots (s : State) (d : Die) (k chan : Nat) (l : List (Bool × Block)) : State :=
  let fsn := (link s d k).nextFsn
  let slots := fillSlots l
  let s := modLink s d k fun l =>
    { l with nextFsn := (fsn + 1) % 4096, txHeld := l.txHeld ++ [{ fsn := fsn, chan := chan, slots := slots, sentAt := s.now, timeouts := 0 }] }
  sendFrame s d k fsn false false chan slots

/-- Send an unsequenced frame of IDLE slots: it carries the acknowledgement, NAK_MAP and one credit (R290). -/
def sendEmpty (s : State) (d : Die) (k : Nat) : State := sendFrame s d k 0 false true 0 (fillSlots [])

/-- Resend a held frame (R291). -/
def resendFrame (s : State) (d : Die) (k : Nat) (f : TxFrame) (byTimeout : Bool) : State :=
  let s := modLink s d k fun l => { l with txHeld := l.txHeld.map fun g =>
    if g.fsn = f.fsn then { g with sentAt := s.now, timeouts := if byTimeout then g.timeouts + 1 else g.timeouts } else g }
  sendFrame (pmcAt s d (8 * (k / 2) + 3) 1 (egCtx (kPort d k) 0)) d k f.fsn true false f.chan f.slots

/-- A link carries frames. -/
def carriesFrames (l : Link) : Bool :=
  match l.st with
  | .up => true
  | .quarantine => true
  | .draining => true
  | .training => decide (l.train = .ident)
  | _ => false

/-- The link can send a new sequenced frame (R290). -/
def canSend (s : State) (l : Link) : Bool := carriesFrames l && decide (l.txHeld.length < 32) && !(forensic s)

/-- A Flume packet waits at an egress: no link flit but IDLE and its SELECT goes out (R286). -/
def flumeWaits (s : State) (d : Die) (eg : Nat) : Bool := !((tget {} (die s d).sch.egress eg).flume.isEmpty)

/-- The next slots of a transmit stage, at most `n`: the slots, the channel of the last of them, and the rest of the stage. -/
def takeSlots : Nat → Nat → List Granted → List (Bool × Block) × Nat × List Granted
  | _, c, [] => ([], c, [])
  | n, c, g :: t =>
    if n = 0 then ([], c, g :: t)
    else if g.slots.length ≤ n then
      let r := takeSlots (n - g.slots.length) g.q.chan t
      (g.slots ++ r.1, r.2)
    else (g.slots.take n, g.q.chan, { g with slots := g.slots.drop n, begun := true } :: t)

/-- Send one frame: waiting link flits unless a Flume packet waits, then the transmit stage; an EMPTY frame when there is
nothing, or 32 frames are held (R248, R286, R290). An ABORT leaves its channel deselected (R285). [log DEDUCED 107] -/
def txFrame (s : State) (d : Die) (k : Nat) : State :=
  let l := link s d k
  if !(carriesFrames l) || forensic s then s
  else if !(canSend s l) then sendEmpty s d k
  else
    let ctl := if flumeWaits s d k then [] else l.ctlq.take 80
    let r := takeSlots (80 - ctl.length) 0 (tget {} (die s d).sch.egress k).stage
    let slots := ctl.map (fun b => flitSlot (stampFlit s.now l.identSeenAt s.time.ns b)) ++ r.1
    if slots.isEmpty then sendEmpty s d k
    else
      let cut := ctl.filter fun b => decide (flitType b = 0x07)
      let s := modLink s d k fun l =>
        { l with ctlq := l.ctlq.drop ctl.length
                 txSel := if cut.any fun b => decide (some (fld b 1 0 5) = l.txSel) then none else l.txSel }
      let s := onSch s d fun x => { x with egress := tmod {} x.egress k fun y => { y with stage := r.2.2 } }
      sendSlots s d k r.2.1 slots

/-- Queue link flits for the next frame, and send it now where it can go. -/
def putFlits (s : State) (d : Die) (k : Nat) (l : List Block) : State :=
  let s := modLink s d k fun x => { x with ctlq := x.ctlq ++ l }
  if canSend s (link s d k) && !(flumeWaits s d k) then txFrame s d k else s

/-! ## States (R298) -/

/-- LNK_STATUS.STATE codes. -/
def linkStCode : LinkSt → Nat
  | .down => 0 | .training => 1 | .quarantine => 2 | .up => 3 | .draining => 4 | .failed => 5

/-- The active port record admits the link as it is (R298). -/
def admitted (s : State) (d : Die) (k : Nat) : Bool :=
  let l := link s d k
  match portRec s d (kPort d k) with
  | some r => (decide ((r.role = 1 ∨ r.role = 2) ∧ routerPart r.partner = routerPart l.partner)) && (r.split == l.split)
      && (r.forerunner == l.forerunner) && !l.hold
  | none => false

/-- Granted packets of an egress's transmit stage, on the Flume or not, no part of which has been sent. -/
def unsent (s : State) (d : Die) (eg : Nat) (flume : Bool) : List QPkt :=
  ((tget {} (die s d).sch.egress eg).stage.filter fun g => !g.begun && (decide (g.q.chan = 16) == flume)).map (·.q)

/-- Packets in a die's queues for an egress that have not begun to leave, granted ones first. -/
def queuedAt (s : State) (d : Die) (eg : Nat) : List Pkt :=
  (unsent s d eg false).map (·.pkt)
    ++ ((die s d).sch.egq.filter fun (q, _) => decide (q / 64 = eg)).flatMap fun (_, q) => q.pkts.map (·.pkt)
def flumeAt (s : State) (d : Die) (eg : Nat) : List Pkt :=
  (unsent s d eg true ++ (tget {} (die s d).sch.egress eg).flume).map (·.pkt)

/-- Empty the data queues and the stage of an egress, and the Flume's when asked. [log DEDUCED 91] -/
def clearQueues (s : State) (d : Die) (eg : Nat) (flume : Bool) : State :=
  onSch s d fun x =>
    { x with egq := tmapv {} x.egq fun q y => if q / 64 = eg then { y with pkts := [], age := 0, promoted := false } else y
             egress := tmod {} x.egress eg fun y =>
               { y with flume := if flume then [] else y.flume, urgent := []
                        stage := if flume then [] else y.stage.filter fun g => decide (g.q.chan = 16) } }

/-- A packet queued for an egress that has gone: chosen again at its source router, dropped at a transit router (R216). -/
def rechoose (s : State) (d : Die) (eg : Nat) (p : Pkt) : State :=
  if routerPart p.src = routerAddr s d then
    if p.ord && !p.det then routeSpray s d p else routeDet s d p
  else rteDrop s d p eg

/-- Take an egress's queues and choose each packet again. -/
def reroute (s : State) (d : Die) (eg name : Nat) (flume : Bool) : State :=
  let l := queuedAt s d eg ++ (if flume then flumeAt s d eg else [])
  l.foldl (fun s p => rechoose s d name p) (clearQueues s d eg flume)

/-- A link without its training, transmit and receive state. -/
def linkIdle (l : Link) : Link :=
  { l with train := .waitSignal, signalAt := none, offences := [], badFrames := [], corrSym := [], nextFsn := 0, txHeld := []
           creditLeft := [], crSeen := [], identAt := none, offIn := 0, susp := [], txSel := none, ctlq := [], expectFsn := 0, rxHeld := []
           missing := [], malformed := [], sel := none, rxPkts := [], freed := [], crSent := [], identSeenTs := 0, sumParts := []
           badRun := [0, 0, 0, 0, 0, 0, 0, 0], offOut := 0, onoffAt := none }

/-- Credit of granted flits that will not be sent goes back. -/
def refund (t : Tab Nat) (l : List Granted) : Tab Nat :=
  l.foldl (fun t g => tmod 0 t g.q.chan (· - (g.slots.filter fun x => !x.1).length)) t

/-- A link keeps carrying frames but no more data: packets begun on it are cut short, each with an ABORT (R288). -/
def cutBegun (s : State) (d : Die) (k : Nat) : State :=
  let stage := (tget {} (die s d).sch.egress k).stage.filter fun g => decide (g.q.chan ≠ 16)
  let fresh := (stage.filter fun g => !g.begun).map (·.q.chan)
  let begun := ((stage.filter (·.begun)).map (·.q.chan) ++ ((link s d k).susp.map (·.1)).filter fun c => !(fresh.contains c)).eraseDups
  modLink s d k fun l =>
    { l with susp := [], ctlq := l.ctlq ++ begun.map abortFlit, txSel := begun.head?, creditLeft := refund l.creditLeft stage }

/-- Move a link to a state: cause recorded when it has one, EV_LINK_STATE and source 1,824 + k raised. [log DEDUCED 108] -/
def linkGo (s : State) (d : Die) (k : Nat) (st : LinkSt) (cause : Nat) : State :=
  let was := (link s d k).st
  let s := if st = .quarantine then cutBegun s d k else s
  let s := modLink s d k fun l =>
    let l := { l with st := st, stAt := s.now, cause := if cause = 0 then l.cause else cause }
    match st with
    | .down => { linkIdle l with lanes := [3, 3, 3, 3, 3, 3, 3, 3] }
    | .failed => { linkIdle l with lanes := [3, 3, 3, 3, 3, 3, 3, 3] }
    | .training => linkIdle l
    | .up => { l with badFrames := [], corrSym := [], degradedAt := none, timeAt := some s.now, shelfAt := some s.now }
    | .quarantine => { l with badFrames := [], corrSym := [], degradedAt := none }
    | .draining => l
  let s := raiseLocal (postMgmt s d 0x50 (evb 8 d.idx + evb 9 k + evb 10 (linkStCode st) + evb 11 cause)) d (1824 + k)
  let s := match st with
    | .down => emit s (.linkIdle d k)
    | .failed => emit s (.linkIdle d k)
    | _ => s
  let s := if was = .up ∧ st ≠ .up then bndEdges s d else s
  if was = .up ∧ st ≠ .up ∧ st ≠ .draining then reroute s d k (kPort d k) (decide (st ≠ .quarantine))
  else if (was = .draining ∧ st ≠ .draining) ∨ (was = .quarantine ∧ st ≠ .up) then clearQueues s d k (decide (st ≠ .quarantine))
  else s


/-- The SerDes macro of a link is in FAULT or HELD_FAILED: its links stay DOWN (R425). -/
def macroDown (s : State) (d : Die) (k : Nat) : Bool := unitDown s d 0x13 (k / 8)

/-- An enabled link that is DOWN enters TRAINING, unless its macro is in FAULT. -/
def linkTrain (s : State) (d : Die) (k : Nat) : State := if macroDown s d k then s else linkGo s d k .training 0

/-- The link is neither DOWN nor FAILED. -/
def linkLive (l : Link) : Bool :=
  match l.st with
  | .down => false
  | .failed => false
  | _ => true

/-- DOWN with a fault, where the table has the row: a recovery is counted, and the eighth in 10 s leads to FAILED. -/
def linkFault (s : State) (d : Die) (k cause : Nat) : State :=
  if !(linkLive (link s d k)) then s
  else
  let s := linkGo s d k .down cause
  let r := s.now :: recent s 10000000000 (link s d k).recoveries
  let s := modLink s d k fun l => { l with recoveries := r }
  if r.length ≥ 8 then linkGo s d k .failed 0 else s

/-- IDENT has been exchanged, or a bank has changed, or HOLD is cleared: the link is admitted or held back. [log DEDUCED 109] -/
def linkAdmit (s : State) (d : Die) (k : Nat) : State :=
  let l := link s d k
  if admitted s d k then linkGo s d k .up 0
  else
    let s := linkGo s d k .quarantine 10
    match portRec s d (kPort d k) with
    | some r =>
      if routerPart r.partner ≠ routerPart l.partner then
        postMgmt s d 0x44 (evb 8 d.idx + evb 9 k + evb 12 l.partner + evb 16 r.partner + evb 20 l.partnerPort)
      else s
    | none => s

/-- An epoch activation judges every UP and quarantined link of the die again (R298). -/
def linksJudge (s : State) (d : Die) : State :=
  (die s d).links.foldl (fun s (k, l) =>
    match l.st with
    | .quarantine => if admitted s d k then linkGo s d k .up 0 else s
    | .up => if admitted s d k then s else linkGo s d k .draining 10
    | _ => s) s

/-! ## Offences and the error window (R295 to R297) -/

/-- A partner's protocol violation (R297). -/
def offence (s : State) (d : Die) (k : Nat) : State :=
  let o := s.now :: recent s 1000000000 (link s d k).offences
  let s := modLink s d k fun l => { l with offences := o }
  if o.length ≥ bits (regVal s d 0x1201010) 0 8 then
    match (link s d k).st with
    | .up => linkGo (modLink s d k fun l => { l with hold := true }) d k .quarantine 9
    | .quarantine =>
      if (link s d k).hold then s
      else
        let s := modLink s d k fun l => { l with hold := true, cause := 9 }
        raiseLocal (postMgmt s d 0x50 (evb 8 d.idx + evb 9 k + evb 10 2 + evb 11 9)) d (1824 + k)
    | _ => s
  else s

/-- The error window in ns, and the sub-window that a time falls in (R295). -/
def errWindow (s : State) (d : Die) : Nat := 1000 * bits (regVal s d 0x1201000) 0 16
def subWindow (s : State) (d : Die) (t : Nat) : Nat := t / max 1 (errWindow s d / 8)
/-- The time lies in one of the eight latest sub-windows. -/
def inWindow (s : State) (d : Die) (t : Nat) : Bool := decide (subWindow s d s.now < subWindow s d t + 8)

/-- One bad frame, or one packet dropped under R206 (R295). -/
def badFrame (s : State) (d : Die) (k : Nat) : State :=
  let b := s.now :: (link s d k).badFrames.filter (inWindow s d)
  let s := modLink s d k fun l => { l with badFrames := b }
  match (link s d k).st with
  | .down => s
  | .failed => s
  | _ => if b.length > bits (regVal s d 0x1201000) 16 16 then linkFault s d k 4 else s

/-- Corrected symbols: EV_LINK_DEGRADED at most once per window (R295). -/
def corrected (s : State) (d : Die) (k n : Nat) : State :=
  if n = 0 then s
  else
    let c := (s.now, n) :: (link s d k).corrSym.filter fun e => inWindow s d e.1
    let s := modLink s d k fun l => { l with corrSym := c }
    let total := (c.map (·.2)).sum
    let fresh := match (link s d k).degradedAt with
      | some t => decide (s.now ≥ t + errWindow s d)
      | none => true
    if total > bits (regVal s d 0x1201000) 32 32 ∧ fresh = true then
      postMgmt (modLink s d k fun l => { l with degradedAt := some s.now }) d 0x51
        (evb 8 d.idx + evb 9 k + evb 12 (min total (2 ^ 32 - 1)))
    else s

/-! ## Receiving (R285, R288, R292, R293) -/

/-- What reading a frame's slots does: selected channel, packets in progress, finished packets and link flits, the channels
touched; credit used by channel and its limit, channels that overran it, and flits of discarded packets. -/
structure RxRun where
  sel : Option Nat
  pkts : List RxPkt
  done : List (Nat × List Block)
  flits : List Block
  touched : List Nat
  used : Tab Nat
  limit : Nat
  excess : List Nat
  gone : List (Nat × Nat)
  /-- The channel of the latest packet flit. -/
  lastChan : Nat
deriving DecidableEq, Repr

/-- A flit that continues or begins a packet of a channel, `p` with it; a data flit without credit spoils the packet (R296). [log DEDUCED 106] -/
def rxTake (r : RxRun) (p : RxPkt) : RxRun :=
  let rest := r.pkts.filter fun q => decide (q.chan ≠ p.chan)
  let excess := decide (p.chan < 16 ∧ r.limit ≤ tget 0 r.used p.chan) && !p.bad
  let p := { p with bad := p.bad || excess }
  let r := { r with used := tset 0 r.used p.chan (tget 0 r.used p.chan + 1), excess := if excess then r.excess ++ [p.chan] else r.excess
                    touched := addNew r.touched p.chan, lastChan := p.chan }
  if p.due = 0 then
    if p.bad then { r with sel := none, pkts := rest, gone := r.gone ++ [(p.chan, p.flits.length)] }
    else { r with sel := none, pkts := rest, done := r.done ++ [(p.chan, p.flits)] }
  else { r with sel := some p.chan, pkts := rest ++ [p] }

/-- One slot (R285, R287); none: the frame is malformed. -/
def rxSlot (r : RxRun) (flag : Bool) (b : Block) : Option RxRun :=
  if flag then
    let ty := fld b 0 0 8
    let c := fld b 1 0 5
    if ty = 0 then some r
    else if ty = 1 then
      if r.pkts.any fun p => decide (p.chan = 16) then none
      else if c > 16 ∨ (c < 16 ∧ (r.pkts.any fun p => decide (p.chan = c)) = false) then none
      else some { r with sel := some c }
    else if ty = 7 then
      some { r with pkts := r.pkts.filter (fun p => decide (p.chan ≠ c)), sel := if r.sel = some c then none else r.sel
                    gone := r.gone ++ (r.pkts.filter fun p => decide (p.chan = c)).map fun p => (c, p.flits.length) }
    else if ty ≥ 8 then none
    else some { r with flits := r.flits ++ [b] }
  else
    match r.sel with
    | some c =>
      (match r.pkts.find? fun p => decide (p.chan = c) with
       | some p => some (rxTake r { p with flits := p.flits ++ [b], due := p.due - 1 })
       | none => if c = 16 then some (rxTake r { chan := 16, flits := [b], due := bits b.toNat 71 7 }) else none)
    | none =>
      let c := 4 * bits b.toNat 40 2 + bits b.toNat 42 2
      if r.pkts.any fun p => decide (p.chan = c) then none
      else some (rxTake r { chan := c, flits := [b], due := bits b.toNat 71 7 })

/-- Read slots in order; the second part is false when the frame is malformed. -/
def rxSlots : RxRun → List (Bool × Block) → RxRun × Bool
  | r, [] => (r, true)
  | r, (f, b) :: t => match rxSlot r f b with
    | some r => rxSlots r t
    | none => (r, false)

/-- Read every slot of a frame that is consumed as it is: a malformed slot touches the channel it would have gone to. -/
def rxSweep : RxRun → List (Bool × Block) → RxRun
  | r, [] => r
  | r, (f, b) :: t => match rxSlot r f b with
    | some r => rxSweep r t
    | none =>
      rxSweep (if f then r else { r with touched := addNew r.touched (4 * bits b.toNat 40 2 + bits b.toNat 42 2) }) t

/-- The receive side of a link before a frame: credit in use is what has been received and not reported free (R294). -/
def rxStart (l : Link) : RxRun :=
  { sel := l.sel, pkts := l.rxPkts, done := [], flits := [], touched := [], limit := if l.forerunner then 2 ^ 32 else l.credit
    used := (List.range 16).foldl (fun t c => tset 0 t c
      (tget 0 l.freed c + ((l.rxPkts.filter fun p => decide (p.chan = c)).map (·.flits.length)).sum - 4 * tget 0 l.crSent c)) []
    excess := [], gone := [], lastChan := 0 }

/-- Flits of packets that have left the receive side, by channel: their credit is returned (R288, R294). -/
def giveBack (t : Tab Nat) (l : List (Nat × Nat)) : Tab Nat := l.foldl (fun t e => tmod 0 t e.1 (· + e.2)) t

/-- A SUMMARY flit: parts come in order, and the last one completes the summary. -/
def takeSummary (s : State) (d : Die) (k : Nat) (b : Block) : State :=
  let part := fld b 1 0 4
  let had := if part = 0 then [] else (link s d k).sumParts
  if had.length = part then
    let got := had ++ [(part, b)]
    if part = fld b 1 4 4 then emit (modLink s d k fun l => { l with sumParts := [] }) (.summary d k (summaryOf (got.map (·.2))))
    else modLink s d k fun l => { l with sumParts := got }
  else modLink s d k fun l => { l with sumParts := [] }

/-- A link flit received in a frame that started at device time `at_`: handed to its block; a TIME flit in a RETX frame is
ignored, and ONOFF is for forerunner ports (R287). -/
def takeFlit (s : State) (d : Die) (k : Nat) (retx : Bool) (at_ : Nat) (b : Block) : State :=
  match flitType b with
  | 0x02 => emit s (.ident d k (readIdent b))
  | 0x03 => takeSummary s d k b
  | 0x04 => emit s (.shelf d k (readShelf b))
  | 0x05 => if retx then s else emit s (.time d k (readTime b at_ retx))
  | 0x06 => if (link s d k).forerunner then emit s (.onoff d k (fld b 1 0 17)) else s
  | _ => s

/-- Deliver one frame in order: packets go to the router (a data packet on a link neither UP nor DRAINING is discarded, R298),
link flits to their blocks. The second part is false when the
frame is dropped and requested again. [log DEDUCED 105] -/
def deliverFrame (s : State) (d : Die) (k : Nat) (f : RxFrame) : State × Bool :=
  let l := link s d k
  let r := rxSlots (rxStart l) f.slots
  let past (l : Link) : Link :=
    { l with expectFsn := (f.fsn + 1) % 4096, missing := without l.missing f.fsn, malformed := without l.malformed f.fsn }
  if r.2 then
    let x := r.1
    let n := (f.slots.filter fun y => !y.1).length
    let s := modLink (pmcAt s d (8 * (k / 2) + 1) n (egCtx (kPort d k) x.lastChan)) d k fun l =>
      { past l with sel := x.sel, rxPkts := x.pkts
                    freed := giveBack l.freed (x.done.map (fun e => (e.1, e.2.length)) ++ x.gone) }
    let s := (x.done.filter fun e => decide (e.1 = 16 ∨ l.st = .up ∨ l.st = .draining)).foldl
      (fun s e => emit s (.received d (.link k) (flitsPkt (decide (e.1 = 16)) e.2))) s
    (x.excess.foldl (fun s _ => offence s d k) (x.flits.foldl (fun s b => takeFlit s d k f.retx f.at_ b) s), true)
  else
    let s := offence s d k
    if f.fsn ∈ l.malformed then
      let x := rxSweep (rxStart l) f.slots
      let cut := x.pkts.filter fun p => decide (p.chan ∈ x.touched)
      (modLink s d k fun l =>
        { past l with sel := none, rxPkts := x.pkts.filter (fun p => !(decide (p.chan ∈ x.touched)))
                      freed := giveBack l.freed (x.done.map (fun e => (e.1, e.2.length)) ++ x.gone ++ cut.map fun p => (p.chan, p.flits.length)) }
        , true)
    else (modLink s d k fun l => { l with malformed := addNew l.malformed f.fsn, missing := addNew l.missing f.fsn }, false)

/-- Deliver held frames that continue the sequence. -/
def drainFrames : Nat → State → Die → Nat → State
  | 0, s, _, _ => s
  | n + 1, s, d, k =>
    let l := link s d k
    match l.rxHeld.find? fun e => decide (e.fsn = l.expectFsn) with
    | some e =>
      let r := deliverFrame (modLink s d k fun l => { l with rxHeld := l.rxHeld.filter fun x => decide (x.fsn ≠ e.fsn) }) d k e
      if r.2 then drainFrames n r.1 d k else r.1
    | none => s

/-- The frames between the next expected one and `fsn` that are not held: they are missing (R292). -/
def gapOf (l : Link) (fsn : Nat) : List Nat :=
  ((List.range ((fsn + 4096 - l.expectFsn) % 4096)).map fun i => (l.expectFsn + i) % 4096).filter fun n =>
    !(l.rxHeld.any fun e => decide (e.fsn = n))

/-- The frame control of a good frame (R291, R292, R294, R296). -/
def frameControl (s : State) (d : Die) (k : Nat) (f : Frame) : State :=
  let l := link s d k
  let base := match l.txHeld with
    | g :: _ => g.fsn
    | [] => l.nextFsn
  let adv := (f.ackFsn + 4096 - base) % 4096
  let s := if adv > l.txHeld.length then offence s d k
    else modLink s d k fun l => { l with txHeld := l.txHeld.drop adv }
  let asked := (List.range 8).filter fun i => f.nakMap.getLsbD i
  let held := (link s d k).txHeld
  let bad := asked.any fun i => !(held.any fun g => decide (g.fsn = (f.ackFsn + i) % 4096))
  let s := if bad then offence s d k else s
  let due := held.filter fun g => decide (s.now ≥ g.sentAt + 500) && asked.any fun i => decide (g.fsn = (f.ackFsn + i) % 4096)
  let again := if l.forerunner then (match due with
      | g :: _ => held.dropWhile fun x => decide (x.fsn ≠ g.fsn)
      | [] => [])
    else due
  let s := again.foldl (fun s g => resendFrame s d k g false) s
  if f.crCh ≤ 16 ∧ l.forerunner = false then
    let n := (f.crCount + 512 - tget 0 l.crSeen f.crCh) % 512
    if 1 ≤ n ∧ n ≤ 255 then
      let used := tget 0 l.creditLeft f.crCh
      let s := modLink s d k fun l =>
        { l with crSeen := tset 0 l.crSeen f.crCh f.crCount, creditLeft := tset 0 l.creditLeft f.crCh (used - 4 * n) }
      if 4 * n > used then offence s d k else s
    else s
  else s

/-- The lanes' runs of uncorrectable codewords after a frame: slice i is a codeword of lane i, or of lane i mod 4 (R282, R284). -/
def laneRuns (split : Bool) (bad : List Nat) (runs : List Nat) : List Nat :=
  (List.range 8).foldl (fun r i =>
    let lane := if split then i % 4 else i
    setAt r lane (if bad.contains i then r.getD lane 0 + 1 else 0)) runs

/-- Loss of lock is declared for a lane of 64 uncorrectable codewords in a row (R282). -/
def countRuns (s : State) (d : Die) (k : Nat) (f : Frame) : State :=
  let l := link s d k
  let runs := laneRuns l.split f.bad l.badRun
  let s := modLink s d k fun l => { l with badRun := runs }
  if runs.any fun n => decide (n ≥ 64) then
    linkFault (modLink s d k fun l => { l with lanes := (l.lanes.zip runs).map fun e => if e.2 ≥ 64 then e.1 ||| 2 else e.1 }) d k 3
  else s

/-- A good frame beyond the next expected one: held, and with RETX = 0 the gap before it is missing; a forerunner port
discards it and asks to go back (R292, R301). -/
def frameAhead (s : State) (d : Die) (k : Nat) (f : RxFrame) : State :=
  let l := link s d k
  if l.forerunner then
    if f.retx then s else modLink s d k fun l => { l with missing := addNew l.missing l.expectFsn }
  else if l.rxHeld.any fun e => decide (e.fsn = f.fsn) then s
  else
    modLink s d k fun l =>
      { l with rxHeld := l.rxHeld ++ [f]
               missing := (if f.retx then l.missing else (gapOf l f.fsn).foldl addNew l.missing).filter fun n => decide (n ≠ f.fsn) }

/-- FRAME_RECEIVE (R289, R292, R293, R295). -/
def frameReceive (s : State) (d : Die) (k : Nat) (f : Frame) : State :=
  let at_ := egCtx (kPort d k) 0
  let s := pmcAt (corrected s d k f.corrSym) d (8 * (k / 2) + 4) f.corrSym at_
  let s := countRuns s d k f
  let ctl := frameCtl f.fsn f.ackFsn f.nakMap.toNat f.retx f.empty f.crCh f.crCount
  if f.uncorr then badFrame (pmcAt s d (8 * (k / 2) + 5) 1 at_) d k
  else if frameCrc (f.slots.map (·.1)) (f.slots.map (·.2)) ctl ≠ f.crc then badFrame (pmcAt s d (8 * (k / 2) + 2) 1 at_) d k
  else
    let s := frameControl s d k f
    let l := link s d k
    if f.empty || !(carriesFrames l) then s
    else
      let n := (f.fsn + 4096 - l.expectFsn) % 4096
      let g : RxFrame := { fsn := f.fsn, retx := f.retx, at_ := s.time.ns, slots := f.slots }
      if n = 0 then
        let r := deliverFrame s d k g
        if r.2 then drainFrames 32 r.1 d k else r.1
      else if n < 32 then frameAhead s d k g
      else if n < 2048 then offence s d k
      else s

def execFrameReceive (d : Die) (k : Nat) (f : Frame) (s : State) : Host.Outcome State Fault Refusal :=
  if carriesFrames (link s d k) then .next (frameReceive s d k f) else .next s

/-- LINK_RETX_TIMEOUT: a frame unacknowledged for LNK_RETX_CFG.TIMEOUT is resent; the eighth timeout in a row takes the
link DOWN (R291). A forerunner port resends every later held frame with it (R301). -/
def execLinkRetxTimeout (d : Die) (k : Nat) (s : State) : Host.Outcome State Fault Refusal :=
  let l := link s d k
  let due := l.txHeld.filter fun g => decide (s.now ≥ g.sentAt + 10 * bits (regVal s d 0x1201008) 0 16)
  if !(carriesFrames l) || due.isEmpty then .next s
  else if due.any fun g => decide (g.timeouts ≥ 7) then .next (linkFault s d k 5)
  else
    let go := if l.forerunner then (match due.head? with
        | some g => l.txHeld.dropWhile fun x => decide (x.fsn ≠ g.fsn)
        | none => [])
      else due
    .next (go.foldl (fun s g => resendFrame s d k g (due.any fun x => decide (x.fsn = g.fsn))) s)

/-! ## A received packet (R206, R215, R247) -/

/-- A packet received breaks R206 or R247: dropped, counted, an offence and a bad frame of its link. -/
def dropMalformed (s : State) (d : Die) (at_ : Ingress) (_p : Pkt) : State :=
  let s := pmc (bumpReg s d 0xF00020) d 341 1
  match at_ with
  | .link k => badFrame (offence s d k) d k
  | .bridge _ => s

/-- A packet is taken from a bridge: its flits are counted, and the partner die gets their credit back (R303). -/
def takeBridge (s : State) (d : Die) (p : Pkt) : Ingress → State
  | .bridge b =>
    let c := brgChan (if p.chan16 then 16 else 4 * p.tc + p.level) (b2n p.lhop)
    let s := pmcAt s d (321 + 8 * (match b with | .north => 0 | .south => 1)) (p.len + 1) (egCtx (egBridge b) c)
    modBrg s d.other b fun x => { x with used := tmod 0 x.used c (· - (p.len + 1)) }
  | .link _ => s

/-- A request that reaches a router of its group which holds no valid record of its destination is answered (R22). -/
def answerAbsent (s : State) (d : Die) (p : Pkt) : State :=
  match bodyOf p with
  | .req r => if grpOf p.dst = s.ident.group ∧ destAbsent s d p.dst = true ∧ ownDie s p.dst = none then bounce s d p r .absent else s
  | _ => s

/-- A router forwards a received packet (R215), or drops it (R206, R216). Without an identity it takes only a FORM 2 Flume
packet (R15, R250). -/
def forwardPkt (s : State) (d : Die) (at_ : Ingress) (p : Pkt) : State :=
  if p.kind = 3 ∨ p.rsv ≠ 0 ∨ (p.chan16 = true ∧ p.len > 1) then dropMalformed s d at_ p
  else if (match flumeOf p with | some f => decide (f.form = 2) | none => false) then emit s (.toStation d p)
  else if !s.ident.valid then s
  else
    match nextHop s d p with
    | .absent => answerAbsent (rteDrop s d p 0x7D) d p
    | h => sendHop s d none h p

/-- PACKET_FORWARD. -/
def execPacketForward (d : Die) (from_ : Ingress) (p : Pkt) (s : State) : Host.Outcome State Fault Refusal :=
  .next (forwardPkt (takeBridge s d p from_) d from_ p)

/-! ## IDENT (R25, R287, R298, R300) -/

/-- An IDENT flit: its content is stored, the round trip measured; it ends training or takes a changed partner DOWN. -/
def identReceive (s : State) (d : Die) (k : Nat) (m : Ident) : State :=
  let l := link s d k
  let store (s : State) := modLink s d k fun l =>
    { l with partner := m.addr, partnerPort := m.port, partnerCredit := m.credit, identSeenTs := m.txTs, identSeenAt := s.now
             rtt := if m.echoTs = 0 then l.rtt else s.now - m.echoTs - m.hold }
  match l.st with
  | .training =>
    if l.train ≠ .ident then s
    else if m.rate ≠ l.rate ∨ m.split ≠ l.split ∨ m.forerunner ≠ l.forerunner then linkFault s d k 8
    else linkAdmit (store s) d k
  | .down => s
  | .failed => s
  | _ => if m.addr ≠ l.partner ∨ m.port ≠ l.partnerPort then linkFault s d k 6 else store s

def execIdentReceive (d : Die) (k : Nat) (m : Ident) (s : State) : Host.Outcome State Fault Refusal := .next (identReceive s d k m)

/-- The IDENT flit that a link sends now. -/
def identOf (s : State) (d : Die) (k : Nat) : Ident :=
  let l := link s d k
  { addr := if s.ident.valid then routerAddr s d else 0, port := kPort d k, rate := l.rate, split := l.split, forerunner := l.forerunner
    upper := decide (k % 2 = 1), credit := l.credit, txTs := s.now, echoTs := l.identSeenTs, hold := s.now - l.identSeenAt }

/-- IDENT_SEND: every 1 ms, and at once when the last one is outdated. -/
def execIdentSend (d : Die) (k : Nat) (s : State) : Host.Outcome State Fault Refusal :=
  let l := link s d k
  let due := match l.identAt with
    | some t => decide (s.now ≥ t + 1000000)
    | none => true
  if carriesFrames l && due then
    .next (putFlits (modLink s d k fun l => { l with identAt := some s.now }) d k [identFlit (identOf s d k)])
  else .next s

/-- Every link sends IDENT at once after its content changes. -/
def identsChanged (s : State) (d : Die) : State :=
  (die s d).links.foldl (fun s (k, _) => modLink s d k fun l => { l with identAt := none }) s

/-! ## Forerunner flow control (R302) -/

/-- ONOFF_RECEIVE: channels turned off or on for new packets. -/
def execOnoffReceive (d : Die) (k mask : Nat) (s : State) : Host.Outcome State Fault Refusal :=
  if (link s d k).forerunner then .next (modLink s d k fun l => { l with offIn := mask % 2 ^ 17 }) else .next s

/-- H of R302, in flits. -/
def headroom (l : Link) : Nat := (100 * l.rtt + 127) / 128 + 80 + 65

/-- Free flits of the buffer reserved for a channel: H + 65 and what else the receiver reserves, less the flits of packets that
are coming and of those that wait there for the router. -/
def freeBuffer (l : Link) (waits : List Nat) (c : Nat) : Nat :=
  headroom l + 65 + Config.foreRoom - (((l.rxPkts.filter fun p => decide (p.chan = c)).map (·.flits.length)).sum + waits.getD c 0)

/-- Channels OFF by their free buffer: set at H, cleared at H + 65. -/
def offMask (l : Link) (waits : List Nat) : Nat :=
  (List.range 17).foldl (fun m c =>
    let f := freeBuffer l waits c
    if f ≤ headroom l ∨ (bit l.offOut c = true ∧ f < headroom l + 65) then m + 2 ^ c else m) 0

/-- ONOFF_SEND: at every change and every 1 µs. -/
def execOnoffSend (d : Die) (k : Nat) (waits : List Nat) (s : State) : Host.Outcome State Fault Refusal :=
  let l := link s d k
  let m := offMask l waits
  let due := match l.onoffAt with
    | some t => decide (s.now ≥ t + 1000)
    | none => true
  if l.forerunner && carriesFrames l && (due || decide (m ≠ l.offOut)) then
    .next (putFlits (modLink s d k fun l => { l with offOut := m, onoffAt := some s.now }) d k [onoffFlit m])
  else .next s

/-! ## Lanes and training (R279, R281, R282, R298, R300) -/

/-- The link is past codeword lock. -/
def pastLock (l : Link) : Bool := carriesFrames l

/-- LANE_SIGNAL_LOSS: signal or lock of a lane lost for more than 1 µs (R282, R298). -/
def execLaneSignalLoss (d : Die) (k lane : Nat) (lock : Bool) (s : State) : Host.Outcome State Fault Refusal :=
  let l := link s d k
  let s := modLink s d k fun l => { l with lanes := setAt l.lanes lane (l.lanes.getD lane 0 ||| (if lock then 2 else 1)) }
  if pastLock l then .next (linkFault s d k (if lock then 3 else 2))
  else if l.st = .training ∧ l.train ≠ .waitSignal ∧ lock = false then .next (linkFault s d k 2)
  else .next s

/-- The power tokens of a training link have been granted: it transmits (R300 steps 2 and 3). -/
def adaptGranted (s : State) (d : Die) (k : Nat) : Bool := (die s d).pwr.granted.any fun t => decide (t.unit = .adapt k)

/-- LANE_SIGNAL_DETECT: signal on every lane of a training link (R300 step 4). -/
def execLaneSignalDetect (d : Die) (k : Nat) (s : State) : Host.Outcome State Fault Refusal :=
  let l := link s d k
  if l.st = .training ∧ l.train = .waitSignal ∧ adaptGranted s d k = true then
    .next (modLink s d k fun l =>
      { l with train := .adapting, signalAt := some s.now, lanes := l.lanes.map fun x => setBits x 0 1 0 })
  else .next s

/-- LNK_LANES of a trained link: the physical lane and polarity of each logical lane, in lock (R281); lanes 4 to 7 of a
half-port entry read zero. -/
def laneWords (split : Bool) (lanes : List LaneMap) : List Nat :=
  (List.range 8).map fun i =>
    if split && decide (i ≥ 4) then 0
    else match lanes[i]? with
      | some m => m.phys % 8 * 8 + b2n m.inv * 4
      | none => 0

/-- LINK_RX_READY: lane order and polarity are found, the receivers of both ends are adapted and the countdown begins (R300
steps 5 to 7). Each direction is precoded as its receiver asks: `dfeHigh` here, `asked` at the partner (R279). -/
def execLinkRxReady (d : Die) (k : Nat) (r : RxReady) (s : State) : Host.Outcome State Fault Refusal :=
  let l := link s d k
  if l.st = .training ∧ l.train = .adapting then
    let pre (a : Bool) := decide (l.rate = 0) || (decide (l.rate = 1) && a)
    .next (emit (modLink s d k fun l =>
      { l with train := .countdown, precode := pre r.dfeHigh, txPrecode := pre r.asked, lanes := laneWords l.split r.lanes }) (.rxReady d k))
  else .next s

/-- The lanes of a link can be deskewed: their streams begin no further apart than its rate allows (R281). [log DEDUCED 220] -/
def deskews (l : Link) (starts : List Nat) : Bool :=
  starts.all fun x => starts.all fun y => decide (x ≤ y + if l.rate = 0 then 180 else 360)

/-- LINK_ALIGN_DONE: the codeword streams start and the lanes are deskewed (R281, R300 step 8). -/
def execLinkAlignDone (d : Die) (k : Nat) (starts : List Nat) (s : State) : Host.Outcome State Fault Refusal :=
  let l := link s d k
  if l.st = .training ∧ l.train = .countdown ∧ deskews l starts = true then
    .next (modLink s d k fun l => { l with train := .ident, identAt := none })
  else .next s

/-- TRAIN_TIMEOUT: training unfinished 500 ms after signal detect. -/
def execTrainTimeout (d : Die) (k : Nat) (s : State) : Host.Outcome State Fault Refusal :=
  let l := link s d k
  match l.signalAt with
  | some t => if l.st = .training ∧ s.now ≥ t + 500000000 then .next (linkFault s d k 8) else .next s
  | none => .next s

/-- NO_SIGNAL_TIMEOUT: no signal 1 s after transmit start. -/
def execNoSignalTimeout (d : Die) (k : Nat) (s : State) : Host.Outcome State Fault Refusal :=
  let l := link s d k
  if l.st = .training ∧ l.train = .waitSignal ∧ adaptGranted s d k = true ∧ s.now ≥ l.stAt + 1000000000 then .next (linkGo s d k .down 7)
  else .next s

/-- NO_SIGNAL_RETRY: 1 s after DOWN for NO_SIGNAL. -/
def execNoSignalRetry (d : Die) (k : Nat) (s : State) : Host.Outcome State Fault Refusal :=
  let l := link s d k
  if l.st = .down ∧ l.adminEn = true ∧ l.cause = 7 ∧ s.now ≥ l.stAt + 1000000000 then .next (linkTrain s d k) else .next s

/-- LNK_VIOL_CFG.QUIET in ns. -/
def quietNs (s : State) (d : Die) : Nat := 1000000 * bits (regVal s d 0x1201010) 16 16

/-- LINK_QUIET_END: the quiet period after a fault or TRAIN_FAIL. -/
def execLinkQuietEnd (d : Die) (k : Nat) (s : State) : Host.Outcome State Fault Refusal :=
  let l := link s d k
  if l.st = .down ∧ l.adminEn = true ∧ l.cause ∈ [2, 3, 4, 5, 6, 8] ∧ s.now ≥ l.stAt + quietNs s d then
    .next (linkTrain s d k)
  else .next s

/-- LINK_DRAIN_END: the data queues are empty and every frame is acknowledged, or 1 ms has passed. -/
def execLinkDrainEnd (d : Die) (k : Nat) (s : State) : Host.Outcome State Fault Refusal :=
  let l := link s d k
  let sent := queuedAt s d k = [] ∧ ((tget {} (die s d).sch.egress k).stage.all fun g => decide (g.q.chan = 16)) = true ∧ l.susp = [] ∧ l.txHeld = []
  if l.st = .draining ∧ (sent ∨ s.now ≥ l.stAt + 1000000) then .next (linkGo s d k .quarantine 0)
  else .next s

/-- EXTEST on a network lane takes its link down (R461). -/
def linkExtest (s : State) (d : Die) (k : Nat) : State :=
  linkFault s d k 2

/-! ## MG_PORT_CTL for links (R298, R299) -/

/-- ENABLE; none: CC_STATE. -/
def linkEnable (s : State) (d : Die) (k : Nat) : Option State :=
  let l := link s d k
  if l.st = .down ∧ l.adminEn = false then some (linkTrain (modLink s d k fun l => { l with adminEn := true }) d k)
  else none

/-- DISABLE: any state but DOWN with ADMIN_EN = 0; queued packets are discarded, those of an UP link as R216 says. [log DEDUCED 198] -/
def linkDisable (s : State) (d : Die) (k : Nat) : Option State :=
  let l := link s d k
  if l.st = .down ∧ l.adminEn = false then none
  else some (linkGo (modLink s d k fun l => { l with adminEn := false, hold := false }) d k .down 1)

/-- DRAIN of an UP link. -/
def linkDrain (s : State) (d : Die) (k : Nat) : Option State :=
  if (link s d k).st = .up then some (linkGo s d k .draining 0) else none

/-- RETRAIN of an UP or quarantined link. -/
def linkRetrain (s : State) (d : Die) (k : Nat) : Option State :=
  match (link s d k).st with
  | .up => some (linkGo (modLink s d k fun l => { l with hold := false }) d k .training 0)
  | .quarantine => some (linkGo (modLink s d k fun l => { l with hold := false }) d k .training 0)
  | _ => none

/-- RELEASE of a FAILED link. -/
def linkRelease (s : State) (d : Die) (k : Nat) : Option State :=
  let l := link s d k
  if l.st = .failed then
    let s := linkGo (modLink s d k fun l => { l with recoveries := [] }) d k .down 0
    some (if l.adminEn then linkTrain s d k else s)
  else none

/-- CONFIGURE of a port whose every link is DOWN. -/
def portConfigure (s : State) (d : Die) (p rate : Nat) (split fore : Bool) (credit : Nat) : Option State :=
  let k := 2 * (p % 32)
  if (link s d k).st = .down ∧ (link s d (k + 1)).st = .down then
    let f (l : Link) : Link := { l with rate := rate, split := split, forerunner := fore, credit := credit }
    some (modLink (modLink s d k f) d (k + 1) f)
  else none

end Sys2Proof.Machine
end

