-- ==== Sys2Proof/Machine/Degrade.lean ====
section
/-! DEFINITION. Degrade causes and the mode they give (R408, R409), the reclaiming of cached lines (R358, R359), and the two
die bridges (R303 to R308) with MG_PORT_CTL for them. -/

namespace Sys2Proof.Machine

open Sys2Proof

/-! ## Degrade causes (R409) -/

/-- A bridge is UP: both dies see it so. -/
def bridgeUp (s : State) (b : Bridge) : Bool := brgUp s .west b && brgUp s .east b

/-- Pairs of a die neither ACTIVE nor SPARE. -/
def pairsLost (s : State) (d : Die) : Nat :=
  ((List.range 32).filter fun k => match (tget {} (die s d).eng.pairs k).st with
    | .active => false
    | .spare => false
    | _ => true).length

/-- MGT_MODE.DEGRADE; zero while the device is held in reset. -/
def degradeBits (s : State) : Nat :=
  if s.sys.inReset then 0
  else
    let n := b2n (bridgeUp s .north) + b2n (bridgeUp s .south)
    b2n (n == 1) + 2 * b2n (n == 0) + 4 * b2n (s.sys.hbmLost.contains 0) + 8 * b2n (s.sys.hbmLost.contains 1)
      + 16 * b2n (decide (pairsLost s .west > 2)) + 32 * b2n (decide (pairsLost s .east > 2))

/-- MGT_MODE.MODE codes. -/
def modeCode : Mode → Nat
  | .bringup => 0 | .service => 1 | .degraded => 2 | .drain => 3 | .standby => 4 | .forensic => 5

/-- Change the mode and post EV_MODE with its cause (R408, R475). -/
def setMode (s : State) (m : Mode) (cause : Nat) : State :=
  let data := evb 8 (modeCode s.sys.mode) + evb 9 (modeCode m) + evb 10 (degradeBits s) + evb 11 cause
  let s := postBoth s 0x01 data
  { s with sys := { s.sys with mode := m } }

/-- The mode outside Drain, Standby, Forensic and Bring-up follows the degrade causes (R409). -/
def serviceMode (s : State) : Mode := if degradeBits s = 0 then .service else .degraded

def judgeMode (s : State) : State :=
  match s.sys.mode with
  | .service => if serviceMode s = .service then s else setMode s .degraded 1
  | .degraded => if serviceMode s = .degraded then s else setMode s .service 1
  | _ => s

/-! ## Lines of dead holders (R358, R359) -/

/-- A line whose M or O holder is dead. -/
def lineLost (dead : Nat → Bool) (l : Line) : Bool := l.holders.any fun (p, st) => dead p && (st == .m || st == .o)

/-- A line after the pairs that `dead` names are gone: E and S copies are dropped; of a lost line every copy is invalidated. -/
def reclaimLine (dead : Nat → Bool) (l : Line) : Line :=
  if lineLost dead l then { holders := [] } else { holders := l.holders.filter fun (p, _) => !(dead p) }

/-- Reclaim the lines of a home die: a lost line is poisoned LOST_OWNER at home. -/
def reclaim (s : State) (home : Die) (dead : Nat → Bool) : State :=
  let lost := ((die s home).eng.lines.filter fun (_, l) => lineLost dead l).map (·.1)
  let s := onEng s home fun e =>
    { e with lines := tmapv {} e.lines (fun _ l => reclaimLine dead l), poison := lost.foldl (fun t a => tset 0 t a 2) e.poison }
  pmc s home 677 lost.length

/-- A pair's place in a directory: die × 32 + pair. -/
def pairKey (d : Die) (p : Nat) : Nat := 32 * d.idx + p

/-- The split begins: each directory treats the partner's pairs as dead for its own lines (R358). -/
def splitCoherence (s : State) : State :=
  reclaim (reclaim s .west fun p => decide (p / 32 = 1)) .east fun p => decide (p / 32 = 0)

/-! ## Bridge transitions (R304 to R308) -/

/-- The device becomes split, or whole again: EV_SPLIT and source 1,890 on each die (R307, R308). -/
def setSplit (s : State) (on : Bool) : State :=
  if s.ident.split = on then s
  else
    let s := { s with ident := { s.ident with split := on } }
    let f (s : State) (d : Die) := raiseLocal (postMgmt s d 0x53 (evb 8 d.idx + evb 9 (b2n on))) d 1890
    f (f (if on then splitCoherence s else s) .west) .east

/-- No bridge is UP on either die's view: the device is split (R307). -/
def noBridge (s : State) : Bool := !(anyBridge s .west) && !(anyBridge s .east)

/-- BRG_STATUS.STATE and the bridge's number in reports. -/
def brgNo : Bridge → Nat
  | .north => 0
  | .south => 1

/-- A die's view of a bridge moves: EV_BRG_STATE and source 1,888 or 1,889. [log DEDUCED 110] -/
def brgGo (s : State) (d : Die) (b : Bridge) (st : LinkSt) (cause : Nat) : State :=
  let s := modBrg s d b fun x =>
    let x := { x with st := st, cause := if cause = 0 then x.cause else cause, downAt := if st = .down then s.now else x.downAt }
    if st = .up then x else { x with room := [], used := [], crossing := [] }
  let x := brg s d b
  let par := if x.cause = 1 then evb 12 x.lane + evb 14 (b2n x.dirEw) else 0
  raiseLocal (postMgmt s d 0x52 (evb 8 d.idx + evb 9 (brgNo b) + evb 10 (linkStCode st) + evb 11 x.cause + par)) d (1888 + brgNo b)

/-- Put packets behind those that wait in a leaf queue. -/
def joinQueue (s : State) (d : Die) (key : Nat) (l : List QPkt) : State :=
  onSch s d fun x => { x with egq := tmod {} x.egq key fun z => { z with pkts := z.pkts ++ l } }

/-- Queued packets of a bridge that a die has lost: to the same channel and stage of the other, or chosen again (R306, R307).
What has begun to cross is lost with the bridge (R304). -/
def moveQueues (s : State) (d : Die) (b : Bridge) : State :=
  let o := match b with | .north => Bridge.south | .south => .north
  if brgUp s d o then
    let fl := unsent s d (egBridge b) true ++ (tget {} (die s d).sch.egress (egBridge b)).flume
    let granted := unsent s d (egBridge b) false
    let qs := (die s d).sch.egq.filter fun (q, _) => decide (q / 64 = egBridge b)
    let s := clearQueues s d (egBridge b) true
    let s := granted.foldl (fun s q => joinQueue s d (leafKey (egBridge o) q.pkt.tc (shareGroup s d q.inst q.pkt.tc)) [q]) s
    let s := qs.foldl (fun s (q, y) => joinQueue s d (64 * egBridge o + q % 64) y.pkts) s
    onSch s d fun x => { x with egress := tmod {} x.egress (egBridge o) fun y => { y with flume := y.flume ++ fl } }
  else reroute s d (egBridge b) (egBridge b) true

/-- What follows when bridge views have changed: split or not, tree edges, mode. -/
def brgAfter (s : State) : State :=
  let s := setSplit s (noBridge s)
  judgeMode (bndEdges (bndEdges s .west) .east)

/-- Times of a bridge's recoveries in the last 10 s, and its FAILED state at the eighth (R305). -/
def brgRecover (s : State) (d : Die) (b : Bridge) : State :=
  let r := s.now :: recent s 10000000000 (brg s d b).recoveries
  let s := modBrg s d b fun x => { x with recoveries := r }
  if r.length ≥ 8 then brgGo s d b .failed 0 else s

/-- A die loses a bridge to an error: DOWN with its cause, a recovery counted. -/
def brgFault (s : State) (d : Die) (b : Bridge) (cause : Nat) : State :=
  if brgUp s d b || decide ((brg s d b).st = .training) then
    let up := brgUp s d b
    let s := brgRecover (brgGo s d b .down cause) d b
    brgAfter (if up then moveQueues s d b else s)
  else s

/-- BRIDGE_PARITY_ERROR: die `d` finds it, takes the bridge DOWN and stops its forwarded clocks (R304). -/
def bridgeParity (s : State) (d : Die) (b : Bridge) (ew : Bool) (lane : Nat) : State :=
  if brgUp s d b then
    let s := modBrg s d b fun x => { x with lane := lane, dirEw := ew }
    emit (brgFault (pmcAt s d (320 + 8 * brgNo b + 2) 1 (egCtx (egBridge b) 0)) d b 1) (.clockStop d b)
  else s

def execBridgeParityError (d : Die) (b : Bridge) (ew : Bool) (lane : Nat) (s : State) : Host.Outcome State Fault Refusal :=
  .next (bridgeParity s d b ew lane)

/-- BRIDGE_CLOCK_LOSS: the partner's forwarded clock has stopped (R304). -/
def execBridgeClockLoss (d : Die) (b : Bridge) (s : State) : Host.Outcome State Fault Refusal :=
  if brgUp s d b then .next (brgFault s d b 2) else .next s

/-- Erring lanes of a slice of 139 lanes (R303). -/
def sliceErrs (l : List Nat) (i : Nat) : Nat := (l.filter fun x => decide (x / 139 = i)).length

/-- Every slice of a direction can be repaired with its two spares (R305). -/
def lanesOk (l : List Nat) : Bool := (List.range 8).all fun i => decide (sliceErrs l i ≤ 2)

/-- The credit that a receiver gives the 33 channels of a bridge at training: 4 flits to the Flume, at least a whole packet
to a data channel (R247, R305). -/
def bridgeRooms : List Nat := (List.range 33).map fun c => if c = 16 then 4 else 65 + Config.bridgeRoom c

/-- BRIDGE_TRAIN_DONE: lane test and credit exchange finish (R305). -/
def bridgeTrained (s : State) (b : Bridge) (we ew : List Nat) : State :=
  if (brg s .west b).st = .training ∧ (brg s .east b).st = .training then
    if lanesOk we && lanesOk ew then
      let f (s : State) (d : Die) :=
        brgGo (modBrg s d b fun x => { x with sparesWe := we.length, sparesEw := ew.length, room := bridgeRooms, used := [] }) d b .up 0
      brgAfter (f (f s .west) .east)
    else
      let f (s : State) (d : Die) := brgRecover (brgGo s d b .down 3) d b
      brgAfter (f (f s .west) .east)
  else s

def execBridgeTrainDone (b : Bridge) (we ew : List Nat) (s : State) : Host.Outcome State Fault Refusal :=
  .next (bridgeTrained s b we ew)

/-- A bridge enters TRAINING on both dies. -/
def bridgeTrain (s : State) (b : Bridge) : State := brgGo (brgGo s .west b .training 0) .east b .training 0

/-- BRIDGE_QUIET_END: both dies have waited their own quiet period (R305). -/
def execBridgeQuietEnd (b : Bridge) (s : State) : Host.Outcome State Fault Refusal :=
  let ready (d : Die) : Bool := decide ((brg s d b).st = .down ∧ s.now ≥ (brg s d b).downAt + quietNs s d) && (brg s d b).adminEn
  if ready .west && ready .east && decide (s.sys.mode ≠ .standby) then .next (bridgeTrain s b) else .next s

/-! ## MG_PORT_CTL for a bridge (R298, R305): it acts on the bridge, whichever die received it -/

def setBrgAdmin (s : State) (b : Bridge) (on : Bool) : State :=
  modBrg (modBrg s .west b fun x => { x with adminEn := on }) .east b fun x => { x with adminEn := on }

/-- ENABLE of a bridge that is DOWN with ADMIN_EN = 0; none: CC_STATE. -/
def bridgeEnable (s : State) (b : Bridge) : Option State :=
  if (brg s .west b).st = .down ∧ (brg s .east b).st = .down ∧ (brg s .west b).adminEn = false then
    some (bridgeTrain (setBrgAdmin s b true) b)
  else none

/-- DISABLE of an UP bridge while the other bridge is UP. -/
def bridgeDisable (s : State) (b : Bridge) : Option State :=
  let o := match b with | .north => Bridge.south | .south => .north
  if bridgeUp s b && bridgeUp s o then
    let s := setBrgAdmin s b false
    let f (s : State) (d : Die) := moveQueues (brgGo s d b .down 4) d b
    some (brgAfter (f (f s .west) .east))
  else none

/-- RELEASE of a FAILED bridge. -/
def bridgeRelease (s : State) (b : Bridge) : Option State :=
  if (brg s .west b).st = .failed ∨ (brg s .east b).st = .failed then
    let f (s : State) (d : Die) :=
      let s := modBrg s d b fun x => { x with recoveries := [] }
      if (brg s d b).st = .failed then brgGo s d b .down 0 else s
    some (f (f s .west) .east)
  else none

end Sys2Proof.Machine
end

