-- ==== Sys2Proof/Machine/Sched.lean ====
section
/-! DEFINITION. Scheduling (08_scheduling_flume): eligibility, weighted fair queueing at egresses and host ports, age
promotion, semaphore boosts and time gates. -/

namespace Sys2Proof.Machine

open Sys2Proof

/-! ## Boosts (R241, R370) -/

/-- The highest level that boosts in force give a holder, whichever die's semaphores report them. -/
def boostLevel (s : State) (p : Master → Bool) : Nat :=
  ((s.west.sch.boosts ++ s.east.sch.boosts).filter fun b => b.inForce && p b.holder).foldl (fun m b => max m b.level) 0

/-- A master is the function of instance `i`. -/
def isInst (s : State) (i : Nat) : Master → Bool
  | .host f => decide ((fnOf s f).inst = some i)
  | _ => false

/-- The level at which a command ring is arbitrated: its PRIO, raised by a boost of its instance. -/
def ringLevel (s : State) (d : Die) (n : Nat) : Nat :=
  let r := cmdRing s d n
  if n = 0 then 3 else max r.prio (boostLevel s (isInst s r.inst))

/-- SCH_INJ_WEIGHT of an instance in a class. -/
def injWeight0 (s : State) (d : Die) (i tc : Nat) : Nat := bits (regVal s d (0x2000000 + 4 * i)) (8 * tc) 8

/-- The injection weight of an instance: under a boost at least the highest among the waiters' instances (R241). -/
def injWeight (s : State) (d : Die) (i tc : Nat) : Nat :=
  let own := injWeight0 s d i tc
  let from_ (e : Die) (m : Nat) := ((die s e).sch.boosts.filter fun b => b.inForce && isInst s i b.holder).foldl (fun m b =>
    (tget {} (die s e).eng.sems b.sem).arms.foldl (fun m a => match a.who with
    | .host f => (match (fnOf s f).inst with
      | some j => max m (injWeight0 s d j tc)
      | none => m)
    | _ => m) m) m
  from_ .east (from_ .west own)

/-- The level at which a running command is judged for R70 and R71: its ring's, raised by a boost of the Carrel thread that it
runs on (R241). -/
def judgedLevel (s : State) (x : Op) : Nat :=
  match x.thread with
  | some (p, t) => max x.level (boostLevel s fun m => decide (m = .carrel x.die p t))
  | none => x.level

/-- A boost reported by the semaphore block comes into force, or is withdrawn. -/
def boostApply (s : State) (d : Die) (n : Nat) : State :=
  onSch s d fun x => { x with boosts := (x.boosts.filter fun b => !(decide (b.sem = n) && b.withdrawn)).map fun b =>
    if b.sem = n then { b with inForce := true } else b }

/-- SEM_BOOST_APPLY. -/
def execSemBoostApply (d : Die) (n : Nat) (s : State) : Host.Outcome State Fault Refusal := .next (boostApply s d n)

/-! ## Time gates (R242, R243, R246) -/

def gateOf (s : State) (d : Die) (k : Nat) : Gate := tget {} (die s d).sch.gates k
def modGate (s : State) (d : Die) (k : Nat) (f : Gate → Gate) : State :=
  onSch s d fun x => { x with gates := tmod {} x.gates k f }

/-- CYCLE of a list. -/
def gateCycle (l : List GateEntry) : Nat := (l.map (·.dur)).sum

/-- The position of an offset in a list: entry and the time left in it. -/
def gateAt : List GateEntry → Nat → Nat → Nat × Nat
  | [], i, _ => (i, 0)
  | e :: t, i, off => if off < e.dur then (i, e.dur - off) else gateAt t (i + 1) (off - e.dur)

/-- The entry that device time lies in (R242), with the time left in it. -/
def gateNow (s : State) (g : Gate) : Nat × Nat :=
  let c := gateCycle g.active
  if c = 0 then (0, 0)
  else
    let off := ((Int.ofNat s.time.ns - Int.ofNat g.actTime) % Int.ofNat c).toNat
    gateAt g.active 0 off

/-- The channel mask in force at an egress: all open without a list. -/
def gateOpen (g : Gate) (chan : Nat) : Bool :=
  match g.active[g.entry]? with
  | some e => e.mask.getLsbD chan
  | none => true

/-- The time until a channel's gate closes, going on from entry `i` for at most `n` entries. -/
def openFor (l : List GateEntry) (chan : Nat) : Nat → Nat → Nat
  | 0, _ => 0
  | n + 1, i =>
    match l[i % max 1 l.length]? with
    | some e => if e.mask.getLsbD chan then e.dur + openFor l chan n (i + 1) else 0
    | none => 0

/-- With GUARD, the packet's flits can be sent at the payload rate before the gate next closes (R236). -/
def guardOk (s : State) (l : Link) (g : Gate) (chan flits : Nat) : Bool :=
  if !g.guard_ || g.active.all fun e => e.mask.getLsbD chan then true
  else
    let p := gateNow s g
    let left := p.2 + openFor g.active chan g.active.length (p.1 + 1)
    decide (flits * 8 * 2 ^ l.rate * (if l.split then 2 else 1) ≤ 25 * left)

/-- GATE_ENTRY_BOUNDARY: device time crosses an entry boundary and the egress's mask changes (R242). -/
def execGateEntryBoundary (d : Die) (port : Nat) (s : State) : Host.Outcome State Fault Refusal :=
  .next (modGate s d (portK port) fun g => { g with entry := (gateNow s g).1 })

/-- An epoch activation of the die is due at or before `t`: it goes before a gate activation of that nanosecond (R389). -/
def epochDue (s : State) (d : Die) (t : Nat) : Bool :=
  (die s d).epc.doms.any fun (_, x) => match x.pend with
    | some p => decide (p.actTime ≤ t ∧ p.actTime ≤ s.time.ns)
    | none => false

/-- Every list of a die stands at the entry that device time lies in (R242). -/
def gatesFollow (s : State) (d : Die) : State :=
  onSch s d fun x => { x with gates := tmapv {} x.gates fun _ g => { g with entry := (gateNow s g).1 } }

/-- A pending gate activation takes effect: banks swap, STAGED_VALID clears, EV_GATE_ACTIVE (R246). [log DEDUCED 97] -/
def gateActivate (s : State) (d : Die) (port : Nat) : State :=
  let g := gateOf s d (portK port)
  let t := g.pendTime
  let clear := g.pendClear
  let new : Gate :=
    { g with active := if clear then [] else g.staged, guard_ := !clear && g.stagedGuard, staged := g.active, stagedGuard := g.guard_
             stagedValid := false, actTime := t, pending := false, pendClear := false, entry := 0 }
  let s := modGate s d (portK port) fun _ => { new with entry := (gateNow s new).1 }
  let s := modDom s d 3 fun x => { x with epoch := (x.epoch + 1) % 2 ^ 32 }
  raiseLocal (postMgmt s d 0x41 (evb 8 d.idx + evb 9 port + evb 10 (if clear then 2 else 0) + evb 16 t)) d 1893

/-- An activation whose time has come takes effect before a command of that nanosecond is judged (R246). -/
def gateSettle (s : State) (d : Die) (port : Nat) : State :=
  let g := gateOf s d (portK port)
  if g.pending ∧ s.time.ns ≥ g.pendTime ∧ epochDue s d g.pendTime = false then gateActivate s d port else s

/-- GATE_ACTIVATION: device time has reached ACT_TIME. -/
def execGateActivation (d : Die) (port : Nat) (s : State) : Host.Outcome State Fault Refusal :=
  .next (gateSettle s d port)

/-! ## Eligibility (R224, R236) -/

/-- The bridge of an egress number. -/
def egOf (eg : Nat) : Bridge := if eg = 0x7E then .north else .south

/-- Flits of credit that a link's channel still holds downstream; a forerunner port has none to hold (R301). -/
def creditOf (l : Link) (chan : Nat) : Nat :=
  if l.forerunner then 2 ^ 16 else (if chan = 16 then 4 else l.partnerCredit) - tget 0 l.creditLeft chan

/-- Flits of credit that a bridge channel still holds (R303, R305). -/
def bridgeCredit (b : Brg) (c : Nat) : Nat := b.room.getD c 0 - tget 0 b.used c

/-- Flits of credit at an egress for a queued packet. -/
def egCredit (s : State) (d : Die) (eg : Nat) (q : QPkt) : Nat :=
  if eg ≥ 0x7E then bridgeCredit (brg s d (egOf eg)) (brgChan q.chan q.stage) else creditOf (link s d eg) q.chan

/-- The channel is held by a packet that has not left whole (R224). -/
def chanHeld (s : State) (d : Die) (eg : Nat) (q : QPkt) : Bool :=
  if eg ≥ 0x7E then (brg s d (egOf eg)).crossing.any fun c => decide (c.q.chan = q.chan ∧ c.q.stage = q.stage)
  else (link s d eg).susp.any fun c => decide (c.1 = q.chan)

/-- A packet has the downstream credit that the switching mode asks for, on a channel that no other packet holds (R224). -/
def creditOk (s : State) (d : Die) (eg : Nat) (q : QPkt) : Bool :=
  decide ((if wormhole s d then 1 else q.pkt.len + 1) ≤ egCredit s d eg q) && !(chanHeld s d eg q)

/-- A packet is eligible at an egress (R236); on a link its channel is ON (R302). -/
def pktEligible (s : State) (d : Die) (eg : Nat) (q : QPkt) : Bool :=
  creditOk s d eg q &&
    (if eg ≥ 0x7E then brgUp s d (egOf eg)
     else
      let l := link s d eg
      let g := gateOf s d eg
      decide (l.st = .up ∨ l.st = .draining) && !(bit l.offIn q.chan) && gateOpen g q.chan && guardOk s l g q.chan (q.pkt.len + 1))

/-- The head of a leaf queue: the oldest eligible packet of the highest LEVEL (R236). -/
def leafHead (s : State) (d : Die) (eg : Nat) (l : List QPkt) : Option QPkt :=
  (l.filter (pktEligible s d eg)).foldl (fun b q => match b with
    | none => some q
    | some p => if q.pkt.level > p.pkt.level then some q else some p) none

/-! ## Weighted fair queueing (R237, R238) -/

/-- Tags are 48-bit and compared modulo 2^48. -/
def tagLt (a b : Nat) : Bool := decide (1 ≤ (b + 2 ^ 48 - a) % 2 ^ 48 ∧ (b + 2 ^ 48 - a) % 2 ^ 48 < 2 ^ 47)
def tagMax (a b : Nat) : Nat := if tagLt a b then b else a

/-- A queue that could be served: its number, weight, finish tag and head length. -/
structure WfqItem where
  no : Nat
  w : Nat
  finish : Nat
  len : Nat
deriving DecidableEq, Repr

/-- The finish tag that an item's head would get. -/
def wfqCand (vt : Nat) (q : WfqItem) : Nat := (tagMax vt q.finish + q.len * 65536 / q.w) % 2 ^ 48

/-- Pick among items given by rising number: the lowest candidate tag, else the lowest-numbered scavenger. -/
def wfqPick (vt : Nat) (l : List WfqItem) : Option WfqItem :=
  match (l.filter fun q => decide (q.w ≠ 0)).foldl (fun b q => match b with
    | none => some q
    | some p => if tagLt (wfqCand vt q) (wfqCand vt p) then some q else some p) none with
  | some q => some q
  | none => l.head?

/-- The charge of a served packet: new finish tag and new virtual time; nothing for a scavenger. -/
def wfqCharge (vt : Nat) (q : WfqItem) (len : Nat) : Nat × Nat :=
  if q.w = 0 then (q.finish, vt)
  else
    let start := tagMax vt q.finish
    ((start + len * 65536 / q.w) % 2 ^ 48, start)

/-- SCH_TC_WEIGHT of a class and SCH_GROUP_WEIGHTn of a share group. -/
def tcWeight (s : State) (d : Die) (tc : Nat) : Nat := bits (regVal s d 0x1000000) (8 * tc) 8
def groupWeight (s : State) (d : Die) (tc g : Nat) : Nat := bits (regVal s d (0x1000040 + 8 * tc)) (4 * g) 4

/-- A choice: class, second-level queue, packet. -/
structure Pick where
  tc : Nat
  cls : WfqItem
  sub : WfqItem
  key : Nat
  q : QPkt
deriving DecidableEq, Repr

/-- A queue of a scheduler: class, second-level number, key in its table, weight, head. -/
structure Leaf where
  tc : Nat
  who : Nat
  key : Nat
  w : Nat
  finish : Nat
  q : QPkt
deriving DecidableEq, Repr

/-- The pick within a class. -/
def pickClass (x : Sched) (s : State) (d : Die) (leaves : List Leaf) (tc : Nat) : Option Pick :=
  let ls := leaves.filter fun l => decide (l.tc = tc)
  let items := ls.map fun l => ({ no := l.who, w := l.w, finish := l.finish, len := l.q.pkt.len + 1 } : WfqItem)
  match wfqPick (x.vtGroup.getD tc 0) items with
  | none => none
  | some i =>
    (ls.find? fun l => decide (l.who = i.no)).map fun l =>
      { tc := tc, cls := { no := tc, w := tcWeight s d tc, finish := x.classFinish.getD tc 0, len := l.q.pkt.len + 1 }
        sub := i, key := l.key, q := l.q }

/-- The normal tier's pick over the four classes. -/
def pickNormal (x : Sched) (s : State) (d : Die) (leaves : List Leaf) : Option Pick :=
  let ps := (List.range 4).filterMap (pickClass x s d leaves)
  match wfqPick x.vtClass (ps.map (·.cls)) with
  | some c => ps.find? fun p => decide (p.tc = c.no)
  | none => none

/-- The pick of one packet of a class and second-level queue. -/
def pickOf (x : Sched) (s : State) (d : Die) (tc who key w finish : Nat) (q : QPkt) : Pick :=
  { tc := tc, cls := { no := tc, w := tcWeight s d tc, finish := x.classFinish.getD tc 0, len := q.pkt.len + 1 }
    sub := { no := who, w := w, finish := finish, len := q.pkt.len + 1 }, key := key, q := q }

/-- The urgent tier's pick: the promoted packets in order of promotion, each from the queue that `leaf` gives. [log DEDUCED 96] -/
def pickUrgent (x : Sched) (s : State) (d : Die) (ok : QPkt → Bool) (leaf : Nat → Nat → Nat × Nat × Nat) : Option Pick :=
  (x.urgent.find? fun u => ok u.2.2).map fun u =>
    let l := leaf u.1 u.2.1
    pickOf x s d u.1 u.2.1 l.1 l.2.1 l.2.2 u.2.2

/-- The scheduler after serving a pick, and the served queue's new finish tag. -/
def chargePick (x : Sched) (p : Pick) : Sched × Nat :=
  let len := p.q.pkt.len + 1
  let c := wfqCharge x.vtClass p.cls len
  let g := wfqCharge (x.vtGroup.getD p.tc 0) p.sub len
  ({ x with vtClass := c.2, classFinish := setAt x.classFinish p.tc c.1, vtGroup := setAt x.vtGroup p.tc g.2
            urgent := x.urgent.filter fun u => decide (u ≠ (p.tc, p.sub.no, p.q)) }, g.1)

/-- The queue that a packet leaves; its promotion ends with the promoted packet. -/
def serveQueue (q : Queue) (p : QPkt) (finish : Nat) (urgent : Bool) : Queue :=
  { q with pkts := q.pkts.erase p, finish := finish, age := 0, promoted := q.promoted && !urgent }

/-! ## Egress service (R235, R248) -/

/-- The leaves of an egress that have an eligible head, by rising key. -/
def egLeaves (s : State) (d : Die) (eg : Nat) : List Leaf :=
  (die s d).sch.egq.filterMap fun (k, q) =>
    if k / 64 = eg then
      (leafHead s d eg q.pkts).map fun h =>
        { tc := k / 16 % 4, who := k % 16, key := k, w := groupWeight s d (k / 16 % 4) (k % 16), finish := q.finish, q := h }
    else none

/-- A leaf queue of an egress: key, weight and finish tag. -/
def egLeaf (s : State) (d : Die) (eg tc g : Nat) : Nat × Nat × Nat :=
  (leafKey eg tc g, groupWeight s d tc g, (tget {} (die s d).sch.egq (leafKey eg tc g)).finish)

def egSched (s : State) (d : Die) (eg : Nat) : Sched := tget {} (die s d).sch.egress eg
def modSched (s : State) (d : Die) (eg : Nat) (f : Sched → Sched) : State := onSch s d fun x => { x with egress := tmod {} x.egress eg f }

/-- Data slots of a transmit stage. -/
def stageSlots (x : Sched) : Nat := ((x.stage.filter fun g => decide (g.q.chan ≠ 16)).map (·.slots.length)).sum

/-- Use credit of an egress. -/
def useCredit (s : State) (d : Die) (eg : Nat) (q : QPkt) (n : Nat) : State :=
  if eg ≥ 0x7E then modBrg s d (egOf eg) fun x => { x with used := tmod 0 x.used (brgChan q.chan q.stage) (· + n) }
  else modLink s d eg fun l => if l.forerunner then l else { l with creditLeft := tmod 0 l.creditLeft q.chan (· + n) }

/-- Grant flits of a packet to the transmit stage: `sel` when a SELECT goes first, `begun` when part of it has left before,
`last` when nothing of it remains. -/
def grantFlits (s : State) (d : Die) (eg : Nat) (q : QPkt) (sel begun last : Bool) (fl : List Block) : State :=
  let slots := (if sel then [flitSlot (selectFlit q.chan)] else []) ++ fl.map fun b => (false, b)
  useCredit (modSched s d eg fun x => { x with stage := x.stage ++ [{ q := q, slots := slots, begun := begun, last := last }] }) d eg q fl.length

/-- Grant a packet: on a link or bridge in wormhole only as far as its credit goes (R224). -/
def grantPkt (s : State) (d : Die) (eg : Nat) (q : QPkt) : State :=
  let fl := pktFlits q.pkt
  let n := min fl.length (egCredit s d eg q)
  let whole := decide (fl.length ≤ n)
  let s := grantFlits s d eg q false false whole (fl.take n)
  if eg ≥ 0x7E then
    if whole then s else modBrg s d (egOf eg) fun x => { x with crossing := x.crossing ++ [{ q := q, sent := n }] }
  else
    modLink s d eg fun l =>
      { l with txSel := if whole then none else some q.chan, susp := if whole then l.susp else l.susp ++ [(q.chan, fl.drop n)] }

/-- Grant a Flume packet behind the stage (R248), with its SELECT on a link. -/
def grantFlume (s : State) (d : Die) (eg : Nat) (q : QPkt) : State :=
  let s := modSched s d eg fun x => { x with flume := x.flume.tail }
  let s := grantFlits s d eg q (decide (eg < 0x7E)) false true (pktFlits q.pkt)
  if eg ≥ 0x7E then s else modLink s d eg fun l => { l with txSel := none }

/-- The Flume tier can be served: a link UP, quarantined or draining whose channel 16 is ON, or a bridge that is UP, with credit. -/
def flumeOk (s : State) (d : Die) (eg : Nat) (q : QPkt) : Bool :=
  decide (q.pkt.len + 1 ≤ egCredit s d eg q) &&
    (if eg ≥ 0x7E then brgUp s d (egOf eg)
     else
      let l := link s d eg
      decide (l.st = .up ∨ l.st = .quarantine ∨ l.st = .draining) && !(bit l.offIn 16))

/-- A suspended packet of a link that can go on: its channel has credit, and its SELECT may be sent (R286). -/
def resumable (s : State) (d : Die) (k : Nat) : Option (Nat × List Block) :=
  let l := link s d k
  l.susp.find? fun c => decide (creditOf l c.1 > 0) && (decide (l.txSel = some c.1) || !(flumeWaits s d k))

/-- Go on with a suspended wormhole packet of a link as credit returns (R224, R285, R286). -/
def resumeSusp (s : State) (d : Die) (k chan : Nat) (rest : List Block) : State :=
  let l := link s d k
  let n := min rest.length (creditOf l chan)
  let whole := decide (rest.length ≤ n)
  let q : QPkt := { pkt := flitsPkt false [], chan := chan, stage := 0, at_ := s.now, inst := none }
  let s := grantFlits s d k q (decide (l.txSel ≠ some chan)) true whole (rest.take n)
  modLink s d k fun l =>
    { l with txSel := if whole then none else some chan
             susp := l.susp.filterMap fun c => if c.1 = chan then (if whole then none else some (chan, rest.drop n)) else some c }

/-- Go on with a packet partly over a bridge. -/
def resumeCrossing (s : State) (d : Die) (b : Bridge) (c : Crossing) : State :=
  let rest := (pktFlits c.q.pkt).drop c.sent
  let n := min rest.length (bridgeCredit (brg s d b) (brgChan c.q.chan c.q.stage))
  let whole := decide (rest.length ≤ n)
  let s := grantFlits s d (egBridge b) c.q false true whole (rest.take n)
  modBrg s d b fun x => { x with crossing := x.crossing.filterMap fun y =>
    if y = c then (if whole then none else some { c with sent := c.sent + n }) else some y }

/-- Serve a picked data packet of an egress. -/
def servePick (s : State) (d : Die) (eg : Nat) (p : Pick) : State :=
  let x := egSched s d eg
  let c := chargePick x p
  let urgent := x.urgent.contains (p.tc, p.sub.no, p.q)
  let s := onSch s d fun x =>
    { x with egress := tset {} x.egress eg c.1, egq := tmod {} x.egq p.key fun q => serveQueue q p.q c.2 urgent }
  grantPkt s d eg p.q

/-- The data tiers grant one packet while the stage has room for it (R235, R248): on a link a suspended packet goes on first,
and a header follows only when the partner's receiver has no channel selected (R285). -/
def grantData (s : State) (d : Die) (eg : Nat) : State :=
  let room (n : Nat) : Bool := decide (stageSlots (egSched s d eg) + n ≤ 1040)
  let fresh : State :=
    let x := egSched s d eg
    match (match pickUrgent x s d (pktEligible s d eg) (egLeaf s d eg) with | some p => some p | none => pickNormal x s d (egLeaves s d eg)) with
    | some p => if room (p.q.pkt.len + 1) then servePick s d eg p else s
    | none => s
  if eg ≥ 0x7E then
    match (brg s d (egOf eg)).crossing.find? fun c => decide (bridgeCredit (brg s d (egOf eg)) (brgChan c.q.chan c.q.stage) > 0) with
    | some c => if room 65 then resumeCrossing s d (egOf eg) c else s
    | none => fresh
  else
    match resumable s d eg with
    | some (chan, rest) => if room 66 then resumeSusp s d eg chan rest else s
    | none => if (link s d eg).txSel = none then fresh else s

/-- Send the stage of a bridge, up to 80 flits; a packet is across with its last flit (R303). -/
def txBridge (s : State) (d : Die) (eg : Nat) : State :=
  let x := egSched s d eg
  let r := takeSlots 80 0 x.stage
  let gone := x.stage.take (x.stage.length - r.2.2.length)
  let s := modSched s d eg fun y => { y with stage := r.2.2 }
  let b := egOf eg
  let s := pmcAt s d (320 + 8 * brgNo b) r.1.length (egCtx eg r.2.1)
  gone.foldl (fun s g =>
    let c := brgChan g.q.chan g.q.stage
    let s := if g.q.chan = 16 then pmcAt s d (325 + 8 * brgNo b) 1 (egCtx eg c) else s
    if g.last then emit s (.onBridge d b g.q.stage c g.q.pkt) else s) s

/-- EGRESS_SERVE: a Flume packet with credit is granted first, then the data tiers grant one packet, and the stage is sent on
(R235, R248). -/
def egressServe (s : State) (d : Die) (eg : Nat) : State :=
  if forensic s then s
  else
    let s := match (egSched s d eg).flume with
      | q :: _ => if flumeOk s d eg q then grantFlume s d eg q else s
      | [] => s
    let s := grantData s d eg
    if eg ≥ 0x7E then (if brgUp s d (egOf eg) then txBridge s d eg else s) else txFrame s d eg

def execEgressServe (d : Die) (eg : Nat) (s : State) : Host.Outcome State Fault Refusal := .next (egressServe s d eg)

/-! ## Injection service (R240) -/

/-- The weight of an injection queue: 255 for the management function's. -/
def whoWeight (s : State) (d : Die) (who tc : Nat) : Nat := if who = mgmtWho then 255 else injWeight s d who tc

/-- The leaves of a host port. -/
def injLeaves (s : State) (d : Die) (port : Nat) : List Leaf :=
  (die s d).sch.injq.filterMap fun (k, q) =>
    if k / 8192 = port then
      q.pkts.head?.map fun h =>
        { tc := k / 2048 % 4, who := k % 2048, key := k, w := whoWeight s d (k % 2048) (k / 2048 % 4), finish := q.finish, q := h }
    else none

/-- An injection queue: key, weight and finish tag. -/
def injLeaf (s : State) (d : Die) (port tc who : Nat) : Nat × Nat × Nat :=
  (injKey port tc who, whoWeight s d who tc, (tget {} (die s d).sch.injq (injKey port tc who)).finish)

/-- INJECTION_SERVE: the next staged packet of a host port enters the fabric. -/
def injectionServe (s : State) (d : Die) (port : Nat) : State :=
  let x := tget {} (die s d).sch.inject port
  if forensic s then s
  else
    match x.flume with
    | q :: _ => emit (onSch s d fun y => { y with inject := tmod {} y.inject port fun z => { z with flume := z.flume.tail } }) (.toRoute d q.pkt)
    | [] =>
      match (match pickUrgent x s d (fun _ => true) (injLeaf s d port) with
        | some p => some p
        | none => pickNormal x s d (injLeaves s d port)) with
      | some p =>
        let c := chargePick x p
        let urgent := x.urgent.contains (p.tc, p.sub.no, p.q)
        let s := onSch s d fun y =>
          { y with inject := tset {} y.inject port c.1, injq := tmod {} y.injq p.key fun q => serveQueue q p.q c.2 urgent }
        -- SCH reads the packet's cells for the queue it stands in (R348)
        match cellRead s d 0x10 p.q.owner (if p.sub.no = mgmtWho then none else some p.sub.no) with
        | (true, s) => emit s (.toRoute d p.q.pkt)
        | (false, s) => s
      | none => s

def execInjectionServe (d : Die) (port : Nat) (s : State) : Host.Outcome State Fault Refusal := .next (injectionServe s d port)

/-! ## Age promotion (R239) -/

/-- SCH_AGE.AGE_LIMIT in ns. -/
def ageLimit (s : State) (d : Die) : Nat := 1000 * bits (regVal s d 0x1000008) 0 16

/-- A queue has been eligible for its age limit: its head packet enters the urgent tier, once. -/
def agePromote (s : State) (d : Die) (q : QueueId) : State :=
  let aged (x : Queue) : Bool := decide (x.age ≥ ageLimit s d) && !x.promoted && decide (tcWeight s d q.tc ≠ 0)
  if q.inj then
    let k := injKey q.at_ q.tc q.who
    let x := tget {} (die s d).sch.injq k
    match x.pkts with
    | h :: _ =>
      if aged x ∧ whoWeight s d q.who q.tc ≠ 0 then
        onSch s d fun y =>
          { y with injq := tmod {} y.injq k fun z => { z with promoted := true }
                   inject := tmod {} y.inject q.at_ fun z => { z with urgent := z.urgent ++ [(q.tc, q.who, h)] } }
      else s
    | [] => s
  else
    let k := leafKey q.at_ q.tc q.who
    let x := tget {} (die s d).sch.egq k
    match leafHead s d q.at_ x.pkts with
    | some h =>
      if aged x ∧ groupWeight s d q.tc q.who ≠ 0 then
        let s := if q.at_ < 64 then pmcAt s d (256 + 2 * (q.at_ / 2)) 1 (egCtx (kPort d q.at_) h.chan) else s
        onSch s d fun y =>
          { y with egq := tmod {} y.egq k fun z => { z with promoted := true }
                   egress := tmod {} y.egress q.at_ fun z => { z with urgent := z.urgent ++ [(q.tc, q.who, h)] } }
      else s
    | none => s

def execAgePromotion (d : Die) (q : QueueId) (s : State) : Host.Outcome State Fault Refusal := .next (agePromote s d q)

/-- `dt` ns pass: a queue whose head is eligible grows older; others do not (R239). -/
def ageQueues (s : State) (d : Die) (dt : Nat) : State :=
  onSch s d fun x =>
    { x with egq := tmapv {} x.egq fun k q => if (leafHead s d (k / 64) q.pkts).isSome then { q with age := q.age + dt } else q
             injq := tmapv {} x.injq fun _ q => if q.pkts.isEmpty then q else { q with age := q.age + dt } }

end Sys2Proof.Machine
end

