-- ==== Sys2Proof/Machine/Cruise.lean ====
section
/-! DEFINITION. Cruise and the event counters (09_cruise_and_counters): samples, neighbour summaries, congestion maps and
their collectors, counter samples and snapshots; and the policing of Flume packets that a die receives (R253). -/

namespace Sys2Proof.Machine

open Sys2Proof

/-! ## Flume packets received (R253) -/

/-- Bucket levels are kept in 1/100,000 of a packet, so that a refill is POL_RATE per ns. -/
def refill (s : State) (d : Die) (b : Bucket) : Bucket :=
  let cfg := regVal s d 0x10000A0
  { b with level := min (100000 * bits cfg 40 8) (b.level + (s.now - b.refillAt) * bits cfg 32 8), refillAt := s.now }

def bucketFull (s : State) (d : Die) (b : Bucket) : Bool :=
  decide ((refill s d b).level = 100000 * bits (regVal s d 0x10000A0) 40 8)

/-- Draw a packet from a bucket. -/
def drawBucket (s : State) (d : Die) (b : Bucket) : Bucket × Bool :=
  let b := refill s d b
  if b.level ≥ 100000 then ({ b with level := b.level - 100000, usedAt := s.now }, true) else ({ b with usedAt := s.now }, false)

/-- A fresh full bucket of a source. -/
def newBucket (s : State) (d : Die) (src : Nat) : Bucket :=
  { src := src, level := 100000 * bits (regVal s d 0x10000A0) 40 8, refillAt := s.now, usedAt := s.now }

/-- The bucket list with a source's bucket drawn on, and whether the packet passes. -/
def police (s : State) (d : Die) (src : Nat) : State × Bool :=
  let bs := (die s d).sch.buckets
  let put (l : List Bucket) := onSch s d fun x => { x with buckets := l }
  match bs.find? fun b => decide (b.src = src) with
  | some b =>
    let r := drawBucket s d b
    (put (bs.map fun c => if c.src = src then r.1 else c), r.2)
  | none =>
    if bs.length < 8192 then
      let r := drawBucket s d (newBucket s d src)
      (put (r.1 :: bs), r.2)
    else
      match (bs.filter (bucketFull s d)).foldl (fun (best : Option Bucket) b => match best with
        | none => some b
        | some c => if b.usedAt < c.usedAt then some b else some c) none with
      | some old =>
        let r := drawBucket s d (newBucket s d src)
        (put (r.1 :: bs.filter fun c => decide (c.src ≠ old.src)), r.2)
      | none =>
        let r := drawBucket s d ((die s d).sch.sharedBucket.getD (newBucket s d 0))
        (onSch s d fun x => { x with sharedBucket := some r.1 }, r.2)

/-- A Flume packet addressed to the die's control endpoint is policed (R253): none when it is dropped. -/
def policed (s : State) (d : Die) (p : Pkt) : State × Bool :=
  let src := routerPart p.src
  let r := police (pmc s d 704 1) d src
  if r.2 then r
  else
    let s := pmc (bumpReg r.1 d 0x10000A8) d 705 1
    let due := match (die s d).sch.policeAt with
      | some t => decide (s.now ≥ t + 1000000)
      | none => true
    (if due then
      postMgmt (onSch s d fun x => { x with policeAt := some s.now }) d 0x42 (evb 8 d.idx + evb 12 src + evb 16 (regVal s d 0x10000A8))
     else s, false)

/-! ## Samples (R256 to R258) -/

/-- The core clock runs: out of reset and out of Standby. -/
def coreClock (s : State) : Bool := !s.sys.inReset && decide (s.sys.mode ≠ .standby)

/-- Sampling, summaries and pushes of a die run: the core clock does, and neither CRZ nor PMC is in FAULT (R422). -/
def cruiseOn (s : State) (d : Die) : Bool := coreClock s && !(blockDown s d 0x11) && !(blockDown s d 0x06)

/-- A tick of `span` ns that has not been served yet is due. -/
def tickDue (s : State) (span last : Nat) : Bool := decide (s.now / span ≠ last)

/-- The channel index of a queued packet in the occupancy tables. -/
def occChan (eg : Nat) (q : QPkt) : Nat := if eg ≥ 0x7E then brgChan q.chan q.stage else q.chan

/-- Add a list of queued packets of an egress to an occupancy table. -/
def addOcc (t : Tab Nat) (eg : Nat) (l : List QPkt) : Tab Nat :=
  l.foldl (fun t q => tmod 0 t (64 * eg + occChan eg q) fun n => n + q.pkt.len + 1) t

/-- Add the flits of a transmit stage, its link flits apart. -/
def addStage (t : Tab Nat) (eg : Nat) (l : List Granted) : Tab Nat :=
  l.foldl (fun t g => tmod 0 t (64 * eg + occChan eg g.q) (· + (g.slots.filter fun x => !x.1).length)) t

/-- Add what has not crossed of the packets partly over a bridge. -/
def addCrossing (t : Tab Nat) (b : Bridge) (l : List Crossing) : Tab Nat :=
  l.foldl (fun t c => tmod 0 t (64 * egBridge b + brgChan c.q.chan c.q.stage) (· + (c.q.pkt.len + 1 - c.sent))) t

/-- The occupancy of every egress channel of a die now (R257). -/
def occNow (s : State) (d : Die) : Tab Nat :=
  let t := (die s d).sch.egq.foldl (fun t (k, q) => addOcc t (k / 64) q.pkts) ([] : Tab Nat)
  let t := (die s d).sch.egress.foldl (fun t (k, x) => addStage (addOcc t k x.flume) k x.stage) t
  let t := addCrossing (addCrossing t .north (brg s d .north).crossing) .south (brg s d .south).crossing
  (die s d).links.foldl (fun t (k, l) => l.susp.foldl (fun t c => tmod 0 t (64 * k + c.1) (· + c.2.length)) t) t

/-- Flits in a queue, and how long its head has waited in 10 ns units. -/
def queueDepth (q : Queue) : Nat := (q.pkts.map fun p => p.pkt.len + 1).sum
def queueDelay (s : State) (q : Queue) : Nat :=
  match q.pkts with
  | h :: _ => min 0xFFFF ((s.now - h.at_) / 10)
  | [] => 0

/-- A queue with its sample taken (R258). -/
def sampleQueue (s : State) (q : Queue) : Queue :=
  let n := queueDepth q
  let t := queueDelay s q
  { q with depth := n, maxDepth := max q.maxDepth n, delay := t, maxDelay := max q.maxDelay t
           mapDepth := max q.mapDepth n, mapDelay := max q.mapDelay t }

/-- One sample of a die, at each 1 µs tick of its TIME clock. -/
def cruiseSample (s : State) (d : Die) : State :=
  if cruiseOn s d && tickDue s 1000 (die s d).crz.sampleTick then
    let t := occNow s d
    let s := onCrz s d fun c =>
      { c with sampleTick := s.now / 1000, sample := t, peak := t.foldl (fun p (k, v) => if v > tget 0 p k then tset 0 p k v else p) c.peak }
    onSch s d fun x => { x with egq := tmapv {} x.egq fun _ q => sampleQueue s q, injq := tmapv {} x.injq fun _ q => sampleQueue s q }
  else s

/-- CRUISE_SAMPLE. -/
def execCruiseSample (d : Die) (s : State) : Host.Outcome State Fault Refusal := .next (cruiseSample s d)

/-- The leaf or injection queue that CRZ_Q_SEL names, by its key. -/
def qSel (s : State) (d : Die) : Bool × Nat :=
  let v := regVal s d 0x1100018
  let eg := bits v 0 7
  let e := if eg ≥ 0x7E then eg else portK eg
  if bit v 31 then (true, injKey (eg % 4) (bits v 7 2) (bits v 13 10)) else (false, leafKey e (bits v 7 2) (bits v 9 4))

def qSelected (s : State) (d : Die) : Queue :=
  let k := qSel s d
  if k.1 then tget {} (die s d).sch.injq k.2 else tget {} (die s d).sch.egq k.2

/-- A read of CRZ_Q_VIEW: its value; CRZ_Q_DELAY is latched and both maxima are cleared. -/
def qViewVal (s : State) (d : Die) : Nat := (qSelected s d).depth % 2 ^ 24 + (qSelected s d).maxDepth % 2 ^ 24 * 2 ^ 24

def qViewRead (s : State) (d : Die) : State :=
  let q := qSelected s d
  let k := qSel s d
  let s := setReg s d 0x1100028 (q.delay + q.maxDelay * 65536)
  let f (q : Queue) : Queue := { q with maxDepth := 0, maxDelay := 0 }
  onSch s d fun x => if k.1 then { x with injq := tmod {} x.injq k.2 f } else { x with egq := tmod {} x.egq k.2 f }

/-! ## Neighbour summaries (R259 to R261) -/

/-- Occupancy codes (R257). -/
def occCode (n : Nat) : Nat := min 255 ((n + 1) / 2)

/-- A link's state as summaries and maps give it. -/
def sumState : LinkSt → Nat
  | .up => 1
  | .quarantine => 2
  | _ => 0

/-- The largest of some numbers. -/
def maxOf (l : List Nat) : Nat := l.foldl max 0

/-- The summary entry of link k of a die. -/
def sumEntry (s : State) (d : Die) (k : Nat) : SumEntry :=
  { port := kPort d k, die := d.idx, st := sumState (link s d k).st
    occ := (List.range 4).map fun tc => occCode (maxOf ((List.range 4).map fun l => occOf s d k (4 * tc + l))) }

/-- Links of a die whose active ROLE is global. -/
def globalLinks (s : State) (d : Die) : List Nat :=
  (List.range 64).filter fun k => match portRec s d (kPort d k) with
    | some r => decide (r.role = 2)
    | none => false

/-- The summary that a die sends now. -/
def mkSummary (s : State) (d : Die) : Summary :=
  { router := routerAddr s d, northUp := brgUp s d .north, southUp := brgUp s d .south, split := splitNow s
    seq := ((die s d).crz.sumSeq + 1) % 256
    entries := (globalLinks s d).map (sumEntry s d) ++ (if splitNow s then [] else (die s d).crz.partnerGlobal) }

/-- The egresses that carry a die's summaries: every link UP but forerunner ports (R301), and the bridges that are UP. -/
def upLinks (s : State) (d : Die) : List Nat := (List.range 64).filter fun k => linkUp s d k && !(link s d k).forerunner
def upBridges (s : State) (d : Die) : List Bridge := [Bridge.north, .south].filter (brgUp s d)

/-- SUMMARY_SEND, every 2 µs: as link flits on the links, over the control streams of the bridges. -/
def summarySend (s : State) (d : Die) : State :=
  if cruiseOn s d && !(forensic s) && tickDue s 2000 (die s d).crz.sumTick then
    let m := mkSummary s d
    let s := onCrz s d fun c => { c with sumSeq := m.seq, sumTick := s.now / 2000 }
    let s := pmc s d 706 ((upLinks s d).length + (upBridges s d).length)
    let s := (upLinks s d).foldl (fun s k => putFlits s d k (summaryFlits m)) s
    emits s ((upBridges s d).map fun b => .bridgeSummary d b m)
  else s

def execSummarySend (d : Die) (s : State) : Host.Outcome State Fault Refusal := .next (summarySend s d)

/-- A summary's SEQ is newer than the held one. -/
def sumNewer (old : Option NbrRec) (m : Summary) : Bool :=
  match old with
  | some n => decide (1 ≤ (m.seq + 256 - n.sum.seq) % 256 ∧ (m.seq + 256 - n.sum.seq) % 256 ≤ 127)
  | none => true

/-- Store a summary at a key of the group view, unless it is not newer. -/
def storeSum (s : State) (d : Die) (key : Nat) (m : Summary) (usable forwarded : Bool) : State :=
  if sumNewer (tget none (die s d).crz.view key) m then
    onCrz s d fun c => { c with view := tset none c.view key (some { sum := m, at_ := s.now, usable := usable, forwarded := forwarded }) }
  else s

/-- The key of a record that no router of the own group has: one of a global link's partner. -/
def farKey (a : Nat) : Nat := 2 ^ 20 + a

/-- SUMMARY_RECEIVE (R260). -/
def summaryReceive (s : State) (d : Die) (at_ : Ingress) (m : Summary) : State :=
  let s := pmc s d 707 1
  let own := decide (grpOf m.router = s.ident.group)
  match at_ with
  | .bridge _ =>
    let newer := sumNewer (tget none (die s d).crz.view (rtrOf m.router)) m
    let s := if own then storeSum s d (rtrOf m.router) m true true else s
    if newer && decide (routerPart m.router = routerAddr s d.other) then
      onCrz s d fun c => { c with partnerGlobal := m.entries.filter fun e => decide (e.die = d.other.idx) }
    else s
  | .link k =>
    match portRec s d (kPort d k) with
    | some r =>
      if (link s d k).forerunner then s
      else if r.role = 1 then (if own then storeSum s d (rtrOf m.router) m true false else s)
      else if r.role = 2 ∧ routerPart m.router = routerPart (link s d k).partner then storeSum s d (farKey (routerPart m.router)) m false true
      else s
    | none => s

def execSummaryReceive (d : Die) (from_ : Ingress) (m : Summary) (s : State) : Host.Outcome State Fault Refusal :=
  .next (summaryReceive s d from_ m)

/-- SUMMARY_FORWARD: summaries received on local links since the previous forward go to the partner (R260). -/
def summaryForward (s : State) (d : Die) : State :=
  if cruiseOn s d && !(forensic s) && tickDue s 2000 (die s d).crz.fwdTick then
    let due := (die s d).crz.view.filterMap fun (k, n) => match n with
      | some n => if k < 64 && !n.forwarded then some n.sum else none
      | none => none
    let s := onCrz s d fun c =>
      { c with fwdTick := s.now / 2000, view := c.view.map fun (k, n) => (k, n.map fun n => { n with forwarded := true }) }
    emits s (due.flatMap fun m => (upBridges s d).map fun b => .bridgeSummary d b m)
  else s

def execSummaryForward (d : Die) (s : State) : Host.Outcome State Fault Refusal := .next (summaryForward s d)

/-- SUMMARY_STALE: a record older than CRZ_CFG.STALE: its gateways become unusable (R261). -/
def summaryStale (s : State) (d : Die) (r : Nat) : State :=
  match viewOf s d r with
  | some n =>
    if recStale s d n then onCrz s d fun c => { c with view := tset none c.view r (some { n with usable := false }) } else s
  | none => s

def execSummaryStale (d : Die) (r : Nat) (s : State) : Host.Outcome State Fault Refusal := .next (summaryStale s d r)

/-! ## Congestion maps (R262, R263) -/

/-- An egress is configured: the active bank holds a port record for it. -/
def configured (s : State) (d : Die) (k : Nat) : Bool := (portRec s d (kPort d k)).isSome

/-- The egress record of a map, 32 bytes (R263), with the occupancies `t` of its tick. -/
def egRecord (s : State) (d : Die) (t : Tab Nat) (eg : Nat) : Nat :=
  let num := if eg ≥ 0x7E then eg else kPort d eg
  let st := if eg ≥ 0x7E then b2n (brgUp s d (if eg = 0x7E then .north else .south)) else sumState (link s d eg).st
  let unused := decide (eg < 0x7E) && (match portRec s d (kPort d eg) with | some r => decide (r.role = 0) | none => true)
  let both (t : Nat → Nat) (n : Nat) : Nat := if eg ≥ 0x7E then max (t n) (t (17 + n)) else t n
  let occ (n : Nat) : Nat := occCode (both (fun c => tget 0 t (64 * eg + c)) n)
  let peak (tc : Nat) : Nat :=
    occCode (maxOf ((List.range 4).map fun l => both (fun c => tget 0 (die s d).crz.peak (64 * eg + c)) (4 * tc + l)))
  let delay (tc : Nat) : Nat := maxOf ((List.range 16).map fun g => (tget {} (die s d).sch.egq (leafKey eg tc g)).mapDelay)
  num + (st + b2n unused * 4) * 2 ^ 8
    + leNat ((List.range 16).map fun n => BitVec.ofNat 8 (occ n)) * 2 ^ 32
    + leNat ((List.range 4).map fun tc => BitVec.ofNat 8 (peak tc)) * 2 ^ 160
    + (delay 0 + delay 1 * 2 ^ 16 + delay 2 * 2 ^ 32 + delay 3 * 2 ^ 48) * 2 ^ 192

/-- Bytes of a die's packet buffer in use: queued packets and the Boom's held bodies. -/
def bufBytes (s : State) (d : Die) : Nat :=
  64 * ((occNow s d).map (·.2)).sum + boomBytes s d

/-- The parts of a map, header first (R263): every value is of the tick of the push. [log DEDUCED 199] -/
def mapParts (s : State) (d : Die) (seq : Nat) : List Block :=
  let egs := (List.range 64).filter (configured s d) ++ [0x7E, 0x7F]
  let flags := b2n (brgUp s d .north) + 2 * b2n (brgUp s d .south) + 4 * b2n (splitNow s) + 8 * b2n (routingValid s d)
  let head := s.time.ns % 2 ^ 64 + routerAddr s d * 2 ^ 64 + seq * 2 ^ 96 + flags * 2 ^ 128 + egs.length * 2 ^ 160
    + (bufBytes s d + 1023) / 1024 * 2 ^ 192 + boomHeld s d * 2 ^ 224
  let recs := egs.map (egRecord s d (occNow s d))
  BitVec.ofNat 512 head :: (List.range ((recs.length + 1) / 2)).map fun i =>
    BitVec.ofNat 512 (recs.getD (2 * i) 0 + recs.getD (2 * i + 1) 0 * 2 ^ 256)

/-- Send a map now: the next MAP_SEQ, its parts to DEST, and the maxima since the previous map cleared. -/
def pushMap (s : State) (d : Die) : State :=
  let seq := ((die s d).crz.mapSeq + 1) % 2 ^ 24
  let parts := mapParts s d seq
  let dest := (die s d).crz.mapDest
  let s := onCrz s d fun c => { c with mapSeq := seq, peak := [] }
  let s := onSch s d fun x => { x with egq := tmapv {} x.egq fun _ q => { q with mapDepth := 0, mapDelay := 0 }
                                       injq := tmapv {} x.injq fun _ q => { q with mapDepth := 0, mapDelay := 0 } }
  emits (pmc s d 708 parts.length) ((parts.zip (List.range parts.length)).map fun (b, i) =>
    .toRoute d (flumePkt s d dest
      { ftype := 3, form := 0, relayPort := 0, part := i, parts := parts.length - 1, reqSeq := seq, reqDie := d.idx, blk := b }))

/-- MAP_PUSH: device time has reached a multiple of PERIOD not yet pushed, PERIOD / 2 after the last push (R262). -/
def execMapPush (d : Die) (s : State) : Host.Outcome State Fault Refusal :=
  let c := (die s d).crz
  let m := s.time.ns / (1000 * max 1 c.mapPeriod)
  let apart := match c.mapAt with
    | some t => decide (s.now ≥ t + 500 * c.mapPeriod)
    | none => true
  if c.mapEn && decide (m ≠ c.mapMultiple) && apart && cruiseOn s d && !(forensic s) then
    .next (onCrz (pushMap s d) d fun c => { c with mapAt := some s.now, mapMultiple := m })
  else .next s

/-! ## Collectors (R264, R265) -/

/-- Write into a collector slot, untranslated on the management function's link (R75). -/
def slotWrite (s : State) (d : Die) (slot off : Nat) (bytes : List Byte) : State :=
  if mgmtInReset s || forensic s then s
  else emit s (.hostWrite (mgmtFn s).port (mgmtFn s).link ((die s d).crz.rxBase + 4096 * slot + off) bytes)

/-- Word 0 of a slot. -/
def slotWord (m : MapSlot) : Nat :=
  m.seq + b2n m.open_ * 2 ^ 24 + b2n (!m.open_ && decide (m.got.length = m.parts + 1)) * 2 ^ 25
    + (if m.open_ then 0 else m.got.length) * 2 ^ 32

def modSlot (s : State) (d : Die) (slot : Nat) (m : MapSlot) : State :=
  onCrz s d fun c => { c with rx := tset {} c.rx slot m }

/-- Close a slot's open map: word 0 again, with WRITING = 0. -/
def closeMap (s : State) (d : Die) (slot : Nat) : State :=
  let m := tget {} (die s d).crz.rx slot
  if m.open_ then
    let m := { m with open_ := false }
    slotWrite (modSlot s d slot m) d slot 0 (leBytes 8 (slotWord m))
  else s

/-- Write one part of a slot's open map, and close it when every part has come. -/
def mapPart (s : State) (d : Die) (slot : Nat) (f : FlumePkt) : State :=
  let s := slotWrite s d slot (64 + 64 * f.part) (blkBytes f.blk 0 64)
  let m := tget {} (die s d).crz.rx slot
  let m := { m with got := addNew m.got f.part }
  let s := modSlot s d slot m
  if m.got.length = m.parts + 1 then closeMap s d slot else s

/-- A map part at a collector die; one beyond its map's PARTS, or beyond its 4 KiB slot, is dropped. [log DEDUCED 101] -/
def mapReceive (s : State) (d : Die) (p : Pkt) (f : FlumePkt) : State :=
  let c := (die s d).crz
  let g := grpOf p.src
  let drop := pmc s d 710 1
  if c.rxGroups ≠ 0 ∧ c.rxFirst ≤ g ∧ g < c.rxFirst + c.rxGroups ∧ f.part ≤ f.parts ∧ f.part < 63 then
    let slot := (g - c.rxFirst) * 64 + rtrOf p.src
    let m := tget {} c.rx slot
    let diff := (f.reqSeq + 2 ^ 24 - m.seq) % 2 ^ 24
    if m.known = false ∨ (1 ≤ diff ∧ diff < 2 ^ 23) then
      let s := closeMap (pmc s d 709 1) d slot
      let m : MapSlot := { seq := f.reqSeq, known := true, open_ := true, firstAt := s.now, parts := f.parts, got := [] }
      mapPart (slotWrite (modSlot s d slot m) d slot 0 (leBytes 8 (slotWord m))) d slot f
    else if diff = 0 ∧ m.open_ = true then mapPart (pmc s d 709 1) d slot f
    else drop
  else drop

/-- MAP_PART_RECEIVE: policed, then written or dropped. -/
def execMapPartReceive (d : Die) (p : Pkt) (s : State) : Host.Outcome State Fault Refusal :=
  match flumeOf p with
  | some f =>
    if f.ftype = 3 then
      let r := policed s d p
      .next (if r.2 then mapReceive r.1 d p f else r.1)
    else .next s
  | none => .next s

/-- MAP_CLOSE_TIMEOUT: 100 µs after the first part. -/
def execMapCloseTimeout (d : Die) (slot : Nat) (s : State) : Host.Outcome State Fault Refusal :=
  let m := tget {} (die s d).crz.rx slot
  if m.open_ ∧ s.now ≥ m.firstAt + 100000 then .next (closeMap s d slot) else .next s

/-! ## Counters (R269, R271, R272) -/

/-- Core cycles of a clock step of `dt` ns: 1.6 GHz. -/
def cyclesIn (now dt : Nat) : Nat := 8 * (now + dt) / 5 - 8 * now / 5

/-- What the latest event of a counter names; of a chained counter, the event of the counter that drives the chain. -/
def eventOf (s : State) (d : Die) : Nat → Nat
  | 0 => tget 0 (die s d).crz.events 0
  | i + 1 => if bit (regVal s d (pmcCfg i)) 0 then eventOf s d i else tget 0 (die s d).crz.events (i + 1)

/-- CONTEXT of a counter (R272): egress and channel of LNK, SCH and BRG counters; pair, thread and firmware address of ENG
counters; zero of the others. [log DESIGN CHOICE 194] -/
def contextOf (s : State) (d : Die) (i : Nat) (addr : BitVec 24) : Nat :=
  if i < 336 then eventOf s d i % 2 ^ 13
  else if 608 ≤ i ∧ i < 672 then eventOf s d i % 2 ^ 8 + addr.toNat * 2 ^ 8
  else 0

/-- COUNTER_WRAP_SAMPLE: the capture that follows a wrap with INT_EN (R272). -/
def wrapSample (s : State) (d : Die) (i part : Nat) (addr : BitVec 24) : State :=
  match (die s d).crz.wraps.find? fun w => decide (w.1 = i) with
  | some w =>
    let s := onCrz s d fun c => { c with wraps := c.wraps.erase w }
    let smp := regVal s d 0x606008
    if bit smp 11 then setReg s d 0x606008 (setBits smp 24 8 (satInc 8 (bits smp 24 8)))
    else
      let v := 768 * d.idx + i + 2 ^ 11 + min 64 (cyclesIn w.2 (s.now - w.2) + part % 4) * 2 ^ 12 + contextOf s d i addr * 2 ^ 32
      raiseSource (setReg (setReg s d 0x606008 v) d 0x606010 s.time.ns) d (bits (regVal s d 0x606000) 16 12)
  | none => s

def execCounterWrapSample (d : Die) (i part : Nat) (addr : BitVec 24) (s : State) : Host.Outcome State Fault Refusal :=
  .next (wrapSample s d i part addr)

/-- PMC_SNAP: all 768 counters of the die are copied at once (R271). -/
def pmcSnap (s : State) (d : Die) : State :=
  (List.range 768).foldl (fun s i => setReg s d (0x604000 + 8 * i) (regVal s d (pmcCnt i))) s

def execPmcSnap (d : Die) (s : State) : Host.Outcome State Fault Refusal := .next (pmcSnap s d)

/-- The threshold of a counter, and its event counted in `n` cycles while the occupancy exceeds it (R269). -/
def overThresh (s : State) (d : Die) (i occ n ctx : Nat) : State :=
  if occ > bits (regVal s d (pmcCfg i)) 8 24 then pmcAt s d i n ctx else s

/-- The channel of a queued head at an egress that is held by its gate alone, or for want of credit. -/
def heldHead (s : State) (d : Die) (eg : Nat) (held : QPkt → Bool) : Option Nat :=
  (die s d).sch.egq.findSome? fun (q, y) => if q / 64 = eg then (y.pkts.head?.filter held).map (·.chan) else none
def heldByGate (s : State) (d : Die) (k : Nat) : Option Nat :=
  heldHead s d k fun h => !(gateOpen (gateOf s d k) h.chan) && creditOk s d k h
def heldByCredit (s : State) (d : Die) (eg : Nat) : Option Nat := heldHead s d eg fun h => !(creditOk s d eg h)

/-- Count `n` cycles of a counter for the first of two egresses that is held. -/
def countHeld (s : State) (d : Die) (i n : Nat) (l : List (Nat × Option Nat)) : State :=
  match l.findSome? fun e => e.2.map fun c => egCtx e.1 c with
  | some ctx => pmcAt s d i n ctx
  | none => s

/-- The thread-cycles of a pair in use. -/
def pairBusy (s : State) (d : Die) (k n : Nat) (p : Pair) : State :=
  let busy := (List.range 4).filter fun t => (p.threads.getD t none).isSome
  pmcAt s d (608 + k) (n * busy.length) (engCtx k (busy.getLastD 0))

/-- What the counters of cycles and occupancies count in a clock step (R269, R276). -/
def pmcTick (s : State) (d : Die) (dt : Nat) : State :=
  let n := cyclesIn s.now dt
  let occ := occNow s d
  let at_ (eg : Nat) : Nat := ((occ.filter fun e => decide (e.1 / 64 = eg)).map (·.2)).sum
  let s := pmc s d 736 n
  let s := (List.range 32).foldl (fun s p =>
    let s := overThresh s d (8 * p + 7) (at_ (2 * p) + at_ (2 * p + 1)) n (egCtx (kPort d (2 * p)) 0)
    let both (f : Nat → Option Nat) : List (Nat × Option Nat) := [(kPort d (2 * p), f (2 * p)), (kPort d (2 * p + 1), f (2 * p + 1))]
    let s := countHeld s d (8 * p + 6) n (both (heldByCredit s d))
    countHeld s d (256 + 2 * p + 1) n (both (heldByGate s d))) s
  let s := [0, 1].foldl (fun s b =>
    let s := countHeld s d (323 + 8 * b) n [(0x7E + b, heldByCredit s d (0x7E + b))]
    overThresh s d (324 + 8 * b) (at_ (0x7E + b)) n (egCtx (0x7E + b) 0)) s
  let s := overThresh s d 359 (boomHeld s d) n 0
  let s := (List.range 4).foldl (fun s p =>
    if s.reads.any fun r => !r.issued && decide (r.port = 4 * d.idx + p) then pmcHost s (4 * d.idx + p) 6 n else s) s
  let s := if (die s d).pwr.eighths > 0 then pmc s d 713 n else s
  let s := if (die s d).pwr.queue ≠ [] then pmc s d 712 n else s
  let s := if (die s d).pwr.queue.any (fun t => match t.unit with | .bndBurst _ => true | _ => false) then pmc s d 581 n else s
  (die s d).eng.pairs.foldl (fun s (k, p) => pairBusy s d k n p) s

end Sys2Proof.Machine
end

