-- ==== Sys2Proof/Machine/Intr.lean ====
section
/-! DEFINITION. Register access control (R342 to R345), the interrupt controller (R374 to R380) and the semaphores
(R365 to R373). -/

namespace Sys2Proof.Machine

open Sys2Proof

/-! ## Masters (R342, R345, R366) -/

/-- Master class codes (R342). -/
def masterClass : Master → Nat
  | .host _ => 0 | .carrel .. => 1 | .cp .. => 2 | .i3c => 3 | .jtag => 4 | .flume _ => 5

/-- DETAIL of a master as ACL_FAULT gives it. -/
def masterDetail : Master → Nat
  | .host f => f.port + f.link * 8 + f.fn * 32
  | .carrel d p t => d.idx + p * 2 + t * 128
  | .cp d c => d.idx + c * 2
  | .i3c => 0
  | .jtag => 0
  | .flume r => r

/-- DETAIL in a holder word: for I3C its dynamic address. -/
def holderDetail (s : State) : Master → Nat
  | .i3c => s.i3c.dynAddr
  | m => masterDetail m

/-- The management function. -/
def isMgmt (s : State) (f : FnId) : Bool := decide (f = mgmtFn s)

/-- The instance of a tenant function. -/
def tenantOf (s : State) : Master → Option Nat
  | .host f => if isMgmt s f then none else (fnOf s f).inst
  | _ => none

/-! ## Protection regions (R342 to R345) -/

/-- ACL_REGION_n of West, which East mirrors. -/
def aclRegion (s : State) (n : Nat) : Nat := regVal s .west (0x1800000 + 8 * n)

/-- The enabled regions that hold a byte of the register space. -/
def regionsAt (s : State) (off : Nat) : List Nat :=
  (List.range 64).filter fun n =>
    let v := aclRegion s n
    bit v 63 && decide (bits v 0 16 ≤ off / 4096 ∧ off / 4096 ≤ bits v 16 16)

/-- An access is admitted (R343). -/
def aclAdmits (s : State) (cls : Nat) (write : Bool) (off len : Nat) : Bool :=
  match regionsAt s off, regionsAt s (off + len - 1) with
  | [], [] => cls == 2 || cls == 4
  | [a], [b] => decide (a = b) && bit (aclRegion s a) ((if write then 40 else 32) + cls)
  | _, _ => false

/-- The die whose register block an offset lies in. -/
def offDie (off : Nat) : Die := if off / 0x4000000 = 1 then .east else .west

/-- Record the denial of a posted BAR0 write in ACL_FAULT (R345). -/
def aclDenied (s : State) (m : Master) (off : Nat) : State :=
  let d := offDie off
  let v := regVal s d 0x1800200
  let s :=
    if bit v 63 then setReg s d 0x1800200 (setBits v 56 6 (min 63 (bits v 56 6 + 1)))
    else setReg s d 0x1800200 (off % 2 ^ 28 + masterClass m * 2 ^ 32 + 2 ^ 35 + masterDetail m * 2 ^ 36 + 2 ^ 63)
  let s := setLevel s d 1898 true
  let due := match (die s d).hst.aclDeniedAt with
    | some t => decide (s.now ≥ t + 1000000)
    | none => true
  if due then
    postMgmt (onHst s d fun h => { h with aclDeniedAt := some s.now }) d 0x60 (evb 8 (regVal s d 0x1800200) + evb 16 d.idx)
  else s

/-- A denied access of a master (R344): a BAR0 write is dropped with its imprecise notice; the others are told. -/
def denyAccess (s : State) (m : Master) (off : Nat) (write : Bool) : State :=
  match m, write with
  | .host _, true => aclDenied s m off
  | _, _ => emit s (.regDenied m off write)

/-! ## Interrupt sources (R374 to R379) -/

/-- INT_SRC_CFG_s: EN, GROUP, PRIO. -/
def srcCfg (s : State) (d : Die) (n : Nat) : Nat := regVal s d (0x400000 + 32 * n)

/-- The function and vector of an MSI-X target. -/
def tgtFn (d : Die) (v : Nat) : FnId := { port := 4 * d.idx + bits v 11 2, link := bits v 9 2, fn := bits v 0 9 }
def tgtVec (v : Nat) : Nat := bits v 13 11

/-- An MSI-X target can take messages (R375): D0, out of reset, MSI-X Enable, vector in the table. -/
def msixOk (s : State) (f : FnId) (vec : Nat) : Bool :=
  let x := fnOf s f
  !x.d3 && !x.inReset && x.msixEn && decide (vec < if isMgmt s f then 2048 else 64) && !(forensic s)

/-- A target is enabled and eligible. -/
def tgtOk (s : State) (d : Die) (n j : Nat) : Bool :=
  let v := srcTgt s d n j
  bit v 31 && (match tgtCore v with
    | some _ => !(forensic s)
    | none => msixOk s (tgtFn d v) (tgtVec v))

/-- The next target of a source: the first enabled, eligible one after LAST_TARGET. -/
def nextTgt (s : State) (d : Die) (n : Nat) : Option Nat :=
  let start := match (src s d n).lastTgt with
    | some t => t + 1
    | none => 0
  ((List.range 4).map fun i => (start + i) % 4).find? (tgtOk s d n)

/-- The hold-off group of a source, and its timer: HOLDOFF in 100 ns units. -/
def srcGroup (s : State) (d : Die) (n : Nat) : Nat := bits (srcCfg s d n) 3 7
def groupNs (s : State) (d : Die) (g : Nat) : Nat := 100 * bits (regVal s d (0x410000 + 8 * g)) 0 16
def groupBusy (s : State) (d : Die) (g : Nat) : Bool := decide (tget 0 (die s d).eng.groupTill g ≠ 0)

/-- Deliver a pending source to its next target, if it is enabled and has one (R375, R376). -/
def deliverSrc (s : State) (d : Die) (n : Nat) : State × Bool :=
  if (src s d n).st = .pending ∧ bit (srcCfg s d n) 31 = true then
    match nextTgt s d n with
    | some j =>
      let v := srcTgt s d n j
      let s := modSrc (pmc s d 714 1) d n fun x =>
        { x with st := .active, lastTgt := some j, cur := some j, claimed := false
                 inPba := (tgtCore v).isNone && vecMasked s (tgtFn d v) (tgtVec v) }
      (match tgtCore v with
       | some c => emit s (.toCore d c n)
       | none => s, true)
    | none => (s, false)
  else (s, false)

/-- Start a group's timer. -/
def startGroup (s : State) (d : Die) (g : Nat) : State :=
  if groupNs s d g = 0 then s
  else onEng s d fun e => { e with groupTill := tset 0 e.groupTill g (s.now + groupNs s d g + 1) }

/-- INT_DELIVERY: a delivery opportunity of one source. [log DEDUCED 21] -/
def intDeliver (s : State) (d : Die) (n : Nat) : State :=
  let g := srcGroup s d n
  if groupBusy s d g then s
  else
    let r := deliverSrc s d n
    if r.2 then startGroup r.1 d g else r.1

def execIntDelivery (d : Die) (n : Nat) (s : State) : Host.Outcome State Fault Refusal := .next (intDeliver s d n)

/-- HOLDOFF_EXPIRY: every pending source of the group is delivered together; the timer restarts if any was (R379). -/
def holdoffExpire (s : State) (d : Die) (g : Nat) : State :=
  let t := tget 0 (die s d).eng.groupTill g
  if t ≠ 0 ∧ s.now + 1 ≥ t then
    let s := onEng s d fun e => { e with groupTill := tset 0 e.groupTill g 0 }
    let l := ((die s d).eng.srcs.filter fun (n, x) => decide (x.st = .pending ∧ srcGroup s d n = g)).map (·.1)
    let r := l.foldl (fun (a : State × Bool) n =>
      let r := deliverSrc a.1 d n
      (r.1, a.2 || r.2)) (s, false)
    if r.2 then startGroup r.1 d g else r.1
  else s

def execHoldoffExpiry (d : Die) (g : Nat) (s : State) : Host.Outcome State Fault Refusal := .next (holdoffExpire s d g)

/-- Where a source goes when its delivery has ended (R376). -/
def srcEnded (x : Src) : Src :=
  { x with claimed := false, cur := none, inPba := false
           st := match x.st with
             | .activePending => .pending
             | .active => if x.level then .pending else .idle
             | y => y }

/-- The message write of a function's vector: address and data from its MSI-X table. -/
def msixSend (s : State) (f : FnId) (vec : Nat) : State :=
  let t := (fnOf s f).msixTab
  emit s (.msix f vec (tget 0 t (4 * vec) + tget 0 t (4 * vec + 1) * 2 ^ 32) (tget 0 t (4 * vec + 2)))

/-- MSIX_MESSAGE_WRITTEN: the message of an ACTIVE source is written, unless its vector is masked. -/
def msixWritten (s : State) (d : Die) (n : Nat) : State :=
  let x := src s d n
  match x.cur with
  | some j =>
    let v := srcTgt s d n j
    if x.st = .active ∨ x.st = .activePending then
      match tgtCore v with
      | none =>
        if vecMasked s (tgtFn d v) (tgtVec v) then s
        else msixSend (modSrc s d n srcEnded) (tgtFn d v) (tgtVec v)
      | some _ => s
    else s
  | none => s

def execMsixMessageWritten (d : Die) (n : Nat) (s : State) : Host.Outcome State Fault Refusal := .next (msixWritten s d n)

/-- A function stops being an eligible MSI-X target: messages not yet written are discarded and their sources return to
PENDING (R375). -/
def msixDrop (s : State) (f : FnId) : State :=
  let d := portDie f.port
  onEng s d fun e => { e with srcs := tmapv {} e.srcs fun n x =>
    match x.cur with
    | some j =>
      let v := srcTgt s d n j
      if (x.st = .active ∨ x.st = .activePending) ∧ (tgtCore v).isNone = true ∧ tgtFn d v = f then
        { x with st := .pending, cur := none, inPba := false }
      else x
    | none => x }

/-- MSIX_ENABLE_CLEARED. -/
def execMsixEnableCleared (f : FnId) (s : State) : Host.Outcome State Fault Refusal :=
  .next (msixDrop (modFn s f fun x => { x with msixEn := false }) f)

/-- A vector mask bit changes: a waiting message leaves the PBA when it is unmasked. -/
def setMasked (s : State) (f : FnId) (vec : Nat) (on : Bool) : State :=
  let s := modFn s f fun x => { x with unmasked := if on then without x.unmasked vec else addNew x.unmasked vec }
  let d := portDie f.port
  onEng s d fun e => { e with srcs := tmapv {} e.srcs fun n x =>
    match x.cur with
    | some j =>
      let v := srcTgt s d n j
      if (x.st = .active ∨ x.st = .activePending) ∧ (tgtCore v).isNone = true ∧ tgtFn d v = f ∧ tgtVec v = vec then { x with inPba := on }
      else x
    | none => x }

/-- INT_SOURCE_RAISE and INT_RAISE_WRITE (R376). -/
def execIntSourceRaise (d : Die) (n : Nat) (s : State) : Host.Outcome State Fault Refusal := .next (raiseLocal s d n)
def execIntRaiseWrite (d : Die) (n : Nat) (s : State) : Host.Outcome State Fault Refusal := .next (raiseLocal s d n)

/-- EN of a source is cleared (R376). A level source whose condition stands is PENDING again at once. -/
def srcDisabled (s : State) (d : Die) (n : Nat) : State := modSrc s d n fun x => levelAgain (srcWithdrawn s d n x)

/-- The targets of a source are written: the next search begins at target 0 (R375). -/
def srcRetarget (s : State) (d : Die) (n : Nat) : State := modSrc s d n fun x => { x with lastTgt := none }

/-- A source waits to be claimed on a core. -/
def claimable (s : State) (d : Die) (c n : Nat) (x : Src) : Bool :=
  decide (x.st = .active ∨ x.st = .activePending) && !x.claimed && (match x.cur with
    | some j => decide (tgtCore (srcTgt s d n j) = some c)
    | none => false)

/-- The core's source to claim: highest PRIO, ties to the lowest number (R377). [log DEDUCED 217] -/
def claimPick (s : State) (d : Die) (c : Nat) : Option Nat :=
  (die s d).eng.srcs.foldl (fun best (n, x) =>
    if claimable s d c n x then
      match best with
      | some b => if bits (srcCfg s d n) 0 3 > bits (srcCfg s d b) 0 3 then some n else best
      | none => some n
    else best) none

/-- A full-width read of INT_CLAIM_c: its value and the state after. -/
def intClaim (s : State) (d : Die) (c : Nat) : State × Nat :=
  match claimPick s d c with
  | some n => (modSrc s d n fun x => { x with claimed := true }, 2048 * d.idx + n)
  | none => (pmc s d 715 1, 0xFFF)

/-- The register-space offset of a die's register. -/
def regOff (d : Die) (off : Nat) : Nat := d.idx * 0x4000000 + off

/-- INT_CLAIM: the core's read. -/
def execIntClaim (d : Die) (c : Nat) (s : State) : Host.Outcome State Fault Refusal :=
  let r := intClaim s d c
  .next (emit r.1 (.regData (.cp d c) (regOff d (0x411000 + 16 * c)) r.2))

/-- A write of INT_COMPLETE_c: ignored unless the source is claimed on that core. -/
def intComplete (s : State) (d : Die) (c v : Nat) : State :=
  let n := bits v 0 11
  let x := src s d n
  let here := match x.cur with
    | some j => decide (tgtCore (srcTgt s d n j) = some c)
    | none => false
  if bits v 11 1 = d.idx ∧ x.claimed = true ∧ here = true then modSrc s d n srcEnded else s

def execIntComplete (d : Die) (c : Nat) (v : BitVec 32) (s : State) : Host.Outcome State Fault Refusal := .next (intComplete s d c v.toNat)

/-! ## Semaphores (R365 to R373) -/

def sem (s : State) (d : Die) (n : Nat) : Sem := tget {} (die s d).eng.sems n
def modSem (s : State) (d : Die) (n : Nat) (f : Sem → Sem) : State :=
  onEng s d fun e => { e with sems := tmod {} e.sems n f }

/-- The word that a read of a semaphore returns: 0 when free. -/
def semWord (s : State) (d : Die) (n : Nat) : Nat :=
  let x := sem s d n
  match x.holder with
  | some m => 2 ^ 63 + b2n x.orphaned * 2 ^ 62 + b2n x.boosted * 2 ^ 61 + masterClass m * 2 ^ 56 + holderDetail s m * 2 ^ 36
  | none => 0

/-- SEM_GRANT_n names the instance. -/
def semGranted (s : State) (d : Die) (n i : Nat) : Bool :=
  let v := regVal s d (0x501000 + 4 * n)
  bit v 31 && decide (bits v 0 10 = i) && decide (instDie s i = d)

/-- The highest PRIO among an instance's command rings. -/
def instPrio (s : State) (i : Nat) : Nat :=
  maxOf (((die s (instDie s i)).rings.cmd.filter fun (n, r) => decide (n ≠ 0 ∧ r.inst = i) && r.configured).map fun (_, r) => r.prio)

/-- The level of the ring of a thread's running command. -/
def threadLevel (s : State) (d : Die) (p t : Nat) : Nat :=
  match (tget {} (die s d).eng.pairs p).threads.getD t none with
  | some o => (opOf s o).level
  | none => 0

/-- Levels as holder and as waiter (R369). -/
def holderLevel (s : State) (m : Master) : Option Nat :=
  match tenantOf s m with
  | some i => some (instPrio s i)
  | none => match m with
    | .carrel d p t => some (threadLevel s d p t)
    | _ => none

def waiterLevel (s : State) (a : SemArm) : Nat :=
  match tenantOf s a.who with
  | some i => min a.level (instPrio s i)
  | none => match a.who with
    | .carrel d p t => threadLevel s d p t
    | _ => a.level

/-- Report or withdraw a semaphore's boost as its arms and holder now stand (R370). -/
def semBoost (s : State) (d : Die) (n : Nat) : State :=
  let x := sem s d n
  let top := maxOf (x.arms.map (waiterLevel s))
  let want := match x.holder with
    | some m => (match holderLevel s m with
      | some h => if !x.orphaned && decide (top > h) then some (m, top) else none
      | none => none)
    | none => none
  let s := modSem s d n fun x => { x with boosted := want.isSome }
  onSch s d fun y =>
    match want with
    | some (m, l) =>
      if y.boosts.any fun b => decide (b.sem = n ∧ b.holder = m ∧ b.level = l) && !b.withdrawn then y
      else { y with boosts := (y.boosts.map fun b => if b.sem = n then { b with withdrawn := true } else b) ++
                      [{ sem := n, holder := m, level := l, inForce := false, withdrawn := false }] }
    | none => { y with boosts := y.boosts.map fun b => if b.sem = n then { b with withdrawn := true } else b }

/-- An acquiring read: the value read and the state after (R366). -/
def semRead (s : State) (m : Master) (d : Die) (n : Nat) : State × Nat :=
  match (sem s d n).holder with
  | none => (modSem (pmc s d 716 1) d n fun x => { x with holder := some m }, 0)
  | some _ => (pmc s d 717 1, semWord s d n)

/-- Record an ignored SEM_CTL write (R367). -/
def semFault (s : State) (d : Die) (n op : Nat) (m : Master) : State :=
  let v := regVal s d 0x502000
  let s :=
    if bit v 63 then setReg s d 0x502000 (setBits v 57 6 (min 63 (bits v 57 6 + 1)))
    else setReg s d 0x502000 (n + holderDetail s m * 2 ^ 32 + masterClass m * 2 ^ 52 + op * 2 ^ 55 + 2 ^ 63)
  setLevel s d 1899 true

/-- Notify an armed waiter of a semaphore that became free (R368). -/
def semNotify (s : State) (d : Die) (n : Nat) (a : SemArm) : State :=
  match tenantOf s a.who with
  | some i => postInst s i 0x65 (evb 8 n)
  | none => match a.who with
    | .i3c => emit s (.ibi [0x5E, BitVec.ofNat 8 n, BitVec.ofNat 8 d.idx])
    | _ => raiseSource s d a.source

/-- A semaphore becomes free: every waiter is notified and every arm cleared. -/
def semFree (s : State) (d : Die) (n : Nat) : State :=
  let arms := (sem s d n).arms
  let s := semBoost (modSem s d n fun _ => {}) d n
  arms.foldl (fun s a => semNotify s d n a) s

/-- SEM_CTL OP 1 (R367). -/
def semReleaseOp (s : State) (m : Master) (d : Die) (n : Nat) : State :=
  let x := sem s d n
  if x.holder = some m ∧ x.orphaned = false then semFree s d n
  else
    let s := semFault s d n 1 m
    let due := match (die s d).eng.semBadAt with
      | some t => decide (s.now ≥ t + 1000000)
      | none => true
    if due then
      postMgmt (onEng s d fun e => { e with semBadAt := some s.now }) d 0x63 (evb 8 (regVal s d 0x502000) + evb 16 d.idx)
    else s

/-- SEM_CTL OP 2 (R367). -/
def semArmOp (s : State) (m : Master) (d : Die) (n level source : Nat) : State :=
  let x := sem s d n
  let others := x.arms.filter fun a => decide (a.who ≠ m)
  let barred := match m with
    | .jtag => true
    | .flume _ => true
    | _ => false
  let a : SemArm := { who := m, level := level, source := source }
  if barred || decide (x.holder = some m) || decide (others.length ≥ 16) then semFault s d n 2 m
  else if x.holder = none then semNotify s d n a
  else semBoost (modSem s d n fun x => { x with arms := others ++ [a] }) d n

/-- SEM_CTL OP 3 (R367). -/
def semDisarmOp (s : State) (m : Master) (d : Die) (n : Nat) : State :=
  semBoost (modSem s d n fun x => { x with arms := x.arms.filter fun a => decide (a.who ≠ m) }) d n

/-- The semaphore is within a master's reach: its grant for a tenant (R365), the regions for the others. -/
inductive SemReach where
  | ok | ungranted | nothing | denied | split
deriving DecidableEq, Repr

/-- While the device is split a master cannot reach the other die: a function through BAR0 (R307), a Carrel pair (R358). -/
def splitBars (s : State) (m : Master) (d : Die) : Bool :=
  splitNow s && (match m with
    | .host f => decide (portDie f.port ≠ d)
    | .carrel e _ _ => decide (e ≠ d)
    | _ => false)

/-- How a master's access to a semaphore fares. `off` is the register's offset within the die. -/
def semReach (s : State) (m : Master) (d : Die) (n off : Nat) (write : Bool) : SemReach :=
  match m with
  | .host f =>
    if isMgmt s f then
      if splitBars s m d then .split else if aclAdmits s 0 write (regOff d off) 8 then .ok else .denied
    else
      match (fnOf s f).inst with
      | some i => if semGranted s d n i && !(forensic s) then .ok else .ungranted
      | none => .nothing
  | _ => if splitBars s m d then .split else if aclAdmits s (masterClass m) write (regOff d off) 8 then .ok else .denied

/-- SEM_ACQUIRE (R366). -/
def semAcquire (s : State) (m : Master) (d : Die) (n : Nat) : State :=
  let off := 0x500000 + 16 * n
  match semReach s m d n off false with
  | .ok =>
    let r := semRead s m d n
    emit r.1 (.regData m (regOff d off) r.2)
  | .ungranted => emit s (.regData m (regOff d off) (2 ^ 64 - 1))
  | .nothing => emit s (.regData m (regOff d off) 0)
  | .split => emit s (.regDenied m (regOff d off) false)
  | .denied => denyAccess s m (regOff d off) false

/-- A SEM_CTL write within a master's reach acts; an ungranted one is dropped, a denied one told. -/
def semWrite (s : State) (m : Master) (d : Die) (n : Nat) (f : State → State) : State :=
  let off := 0x500008 + 16 * n
  match semReach s m d n off true with
  | .ok => f s
  | .ungranted => s
  | .nothing => s
  | .split => s
  | .denied => denyAccess s m (regOff d off) true

/-- A semaphore's holder dies: it stays held, ORPHANED, its boost withdrawn (R371). -/
def semOrphan (s : State) (d : Die) (n : Nat) : State :=
  let w := semWord s d n
  let s := semBoost (modSem s d n fun x => { x with orphaned := true }) d n
  postMgmt s d 0x64 (evb 8 d.idx + evb 9 n + evb 16 w)

/-- Orphan every semaphore of a die whose holder is dead. -/
def orphanDie (s : State) (d : Die) (dead : Master → Bool) : State :=
  (die s d).eng.sems.foldl (fun s (n, x) => match x.holder with
    | some m => if dead m && !x.orphaned then semOrphan s d n else s
    | none => s) s

/-- Orphan every semaphore whose holder is dead. -/
def orphanAll (s : State) (dead : Master → Bool) : State := orphanDie (orphanDie s .west dead) .east dead

/-- The bank is idle: each of its semaphores is free or ORPHANED (R372). -/
def bankIdle (s : State) (d : Die) (b : Nat) : Bool :=
  (List.range 32).all fun i => let x := sem s d (32 * b + i); x.holder.isNone || x.orphaned

/-- Free every semaphore of a bank. -/
def bankReset (s : State) (d : Die) (b : Nat) : State :=
  (List.range 32).foldl (fun s i => if (sem s d (32 * b + i)).holder.isSome then semFree s d (32 * b + i) else s) s

end Sys2Proof.Machine
end

