-- ==== Sys2Proof/Machine/Operands.lean ====
section
/-! DEFINITION. The operand forms of the Taxia command set (02_taxia_command_set): header, chains, the fields of every
body, and checks 2 and 3 of R54 for the DATA, MSG, COLL, SYNC and TRIG commands. A MGMT body is judged by the operation
it names. -/

namespace Sys2Proof.Machine

open Sys2Proof

/-! ## Header, TARGET and chain (R31, R36, R45, R46) -/

/-- CHAIN and FENCE of word 0. -/
def chainBit (b : Block) : Bool := fld b 0 9 1 == 1
def fenceOf (b : Block) : Nat := fld b 0 10 2
/-- The opcode's class. -/
def classOf (b : Block) : Nat := fld b 0 5 3
def cookieOf (b : Block) : Nat := fld b 8 0 64
def seqOf (b : Block) : Nat := fld b 2 0 24

/-- Every listed field (byte, low bit, bits) is zero. -/
def zeros (b : Block) (l : List (Nat × Nat × Nat)) : Bool := l.all fun (at_, lo, n) => fld b at_ lo n == 0

/-- Bytes `at_` to the end of the block are zero. -/
def zeroFrom (b : Block) (at_ : Nat) : Bool := fld b at_ 0 (8 * (64 - at_)) == 0

/-- TARGET word (R45). -/
def tgtAddr (b : Block) : Nat := fld b 16 0 20
def tgtDie (b : Block) : Die := Die.ofCode (fld b 16 4 1)
def bothDies (b : Block) : Bool := fld b 16 30 1 == 1
def viaFlume (b : Block) : Bool := fld b 16 31 1 == 1

/-- A TARGET word in form: RSV zero, station field 0. -/
def targetOk (b : Block) : Bool := fld b 16 20 10 == 0 && fld b 16 0 4 == 0

/-- A MGMT body without the EXT_ADDR that CHAIN = 1 puts into its bytes 56 to 63. -/
def mgBody (b : Block) : Block := if chainBit b then BitVec.ofNat 512 (b.toNat % 2 ^ 448) else b

/-- NEXT of an extension block: address, the reserved bits [5:1], MORE (R46). -/
def nextAddr (b : Block) : Nat := fld b 56 6 58 * 64
def nextRsv (b : Block) : Bool := fld b 56 1 5 != 0
def nextMore (b : Block) : Bool := fld b 56 0 1 == 1

/-- The content of a chain: bytes 0 to 55 of each block. -/
def chainContent (c : List Block) : List Byte := c.flatMap fun b => blkBytes b 0 56

/-- The opcode map (R36). -/
def opcodes : List Nat :=
  [0x01, 0x02, 0x03, 0x04, 0x05, 0x06, 0x20, 0x21, 0x22, 0x23, 0x24, 0x25, 0x26, 0x40, 0x41, 0x42, 0x43, 0x44,
   0x60, 0x61, 0x62, 0x63, 0x64, 0x80, 0x81, 0xE0, 0xE1, 0xE2, 0xE3, 0xE4, 0xE5, 0xE6, 0xE7, 0xE8, 0xE9, 0xEA, 0xEB, 0xEC,
   0xED, 0xEE, 0xEF, 0xF0, 0xF1]

/-- The "Ext." column of R36. -/
def chainAllowed (op : Nat) (chain : Bool) : Bool :=
  if op = 0x04 ∨ op = 0x05 then chain
  else if op ∈ [0x61, 0xE2, 0xE4, 0xE6, 0xE7] then true
  else !chain

/-- A Tally field that may say none (R137). -/
def tallyOrNone (n : Nat) : Bool := decide (n ≤ 0x3FFFFF) || n == noTally

/-! ## Check 2: the bodies (R37 to R44, R61, R65, R185) -/

/-- The element descriptors a chain must hold are there and in form (R39). -/
def elemsForm (b : Block) (c : List Block) (scatter : Bool) : Bool :=
  let n := fld b 40 0 5
  let blocks := (n + 2) / 3
  decide (1 ≤ n ∧ n ≤ 16 ∧ blocks ≤ c.length) && ((c.take blocks).all fun x => fld x 48 0 64 == 0) &&
    ((List.range n).all fun i =>
      let x := c.getD (i / 3) 0
      let len := fld x (16 * (i % 3) + 8) 0 32
      decide (1 ≤ len ∧ len ≤ 65536) && (scatter || fld x (16 * (i % 3) + 12) 0 32 == 0))

/-- The COLL limits that need no tree (R43, R185). -/
def collForm (b : Block) : Bool :=
  let op := fld b 0 0 8
  let f := fld b 18 0 3
  let ty := fld b 18 4 3
  let n := fld b 20 0 32
  let rsv := zeros b [(16, 12, 4), (18, 3, 1), (19, 0, 8), (40, 18, 14), (44, 0, 64), (55, 0, 8), (56, 0, 64)]
  let kinds := decide (f ≤ 5 ∧ ty ≤ 5 ∧ !(3 ≤ f ∧ 2 ≤ ty))
  let size := decide (1 ≤ n ∧ n ≤ 16777216 ∧ n * elemSize ty ≤ 134217728)
  rsv && kinds && tallyOrNone (fld b 52 0 24) &&
    (if op = 0x40 then fld b 18 0 176 == 0
     else if op = 0x41 then size && f == 0 && fld b 18 7 1 == 0
     else if op = 0x44 then decide (1 ≤ n ∧ n * elemSize ty ≤ 64) && f == 0 && fld b 18 7 1 == 0
     else size)

/-- The body of a command of classes DATA to TRIG is in form, its chain being `c`. -/
def bodyForm (b : Block) (c : List Block) : Bool :=
  let op := fld b 0 0 8
  let tallies := tallyOrNone (fld b 48 0 24) && tallyOrNone (fld b 52 0 24)
  if op = 0x01 ∨ op = 0x03 ∨ op = 0x06 then
    zeros b [(36, 20, 12), (40, 33, 31), (51, 0, 8), (55, 0, 8), (56, 0, 64)] && decide (fld b 40 0 33 ≤ 2 ^ 32) && tallies
      && (op != 0x06 || fld b 16 0 64 == 0) && (op != 0x03 || fld b 48 0 24 == noTally)
  else if op = 0x04 then
    zeros b [(16, 0, 64), (36, 20, 12), (40, 5, 59), (51, 0, 8), (55, 0, 8)] && tallies && elemsForm b c false
  else if op = 0x05 then
    zeros b [(24, 0, 96), (36, 20, 12), (40, 5, 59), (51, 0, 8), (55, 0, 8)] && tallies && elemsForm b c true
  else if op = 0x02 then zeros b [(28, 26, 6)] && decide (1 ≤ fld b 28 20 6 ∧ fld b 28 20 6 ≤ 32)
  else if op = 0x20 then zeros b [(32, 20, 44), (40, 33, 31), (50, 0, 16), (55, 0, 8), (56, 0, 64)] && tallyOrNone (fld b 52 0 24)
  else if op = 0x21 then zeros b [(24, 16, 16), (28, 26, 6)] && decide (fld b 28 20 6 ≤ 32)
  else if op = 0x22 then zeros b [(40, 52, 12), (50, 0, 16), (55, 0, 8), (56, 0, 64)] && tallyOrNone (fld b 52 0 24)
  else if op = 0x23 then zeros b [(24, 0, 192)] && zeroFrom b 50
  else if 0x24 ≤ op ∧ op ≤ 0x26 then zeros b [(16, 0, 256)] && zeroFrom b 50
  else if 0x40 ≤ op ∧ op ≤ 0x44 then collForm b
  else if op = 0x60 then zeroFrom b 16
  else if op = 0x61 then
    let big := fld b 28 24 1 == 1
    zeros b [(28, 25, 7)] && decide (fld b 28 20 4 ≤ 2) && decide (fld b 16 0 64 % (if big then 16 else 8) = 0) && (big == chainBit b)
      && (!big || (fld b 32 0 128 == 0 && fld b 48 0 64 != 0 && decide (1 ≤ c.length) && fld (c.headD 0) 32 0 192 == 0))
  else if op = 0x62 then zeros b [(19, 0, 8), (26, 0, 48)] && zeroFrom b 32 && decide (fld b 16 0 24 ≤ 0x3FFFFF)
  else if op = 0x63 then zeroFrom b 19 && decide (fld b 16 0 24 ≤ 0x3FFFFF)
  else if op = 0x64 then zeros b [(16, 14, 2)] && zeroFrom b 18
  else if op = 0x80 then zeros b [(16, 0, 6)] && zeroFrom b 35 && decide (fld b 32 0 24 ≤ 0x3FFFFF)
  else if op = 0x81 then zeros b [(19, 0, 8)] && zeroFrom b 22 && decide (fld b 16 0 24 ≤ 0x3FFFFF)
  else true

/-- Word 0 is in form (R31, R32, R36, R46); `plain` where PHASE, SEQ and FENCE are ignored (R61, R350, R251). -/
def headForm (b : Block) (c : List Block) (plain : Bool) : Bool :=
  let op := fld b 0 0 8
  zeros b [(0, 12, 4), (0, 40, 24)] && (plain || fenceOf b != 3) && decide (op ∈ opcodes) && chainAllowed op (chainBit b)
    && (!(chainBit b) || !(nextRsv b)) && !(c.any nextRsv)

/-- Opcodes that a deferred block may not hold (R61). -/
def notDeferred (op : Nat) : Bool := op == 0x80 || op == 0x81 || op == 0x64 || decide (op ≥ 0xE0)

/-! ## Check 3: class and ownership (R21, R35, R38, R137, R145, R150, R179, R318) -/

/-- CONN of a DATA, MSG or ATOMIC command. -/
def connField (b : Block) : Option Nat :=
  let op := fld b 0 0 8
  if op ∈ [0x01, 0x03, 0x04, 0x05, 0x06] then some (fld b 36 0 20)
  else if op = 0x02 ∨ op = 0x21 ∨ op = 0x61 then some (fld b 28 0 20)
  else if op = 0x20 then some (fld b 32 0 20)
  else none

/-- CTX of a messaging command. -/
def ctxField (b : Block) : Option Nat :=
  let op := fld b 0 0 8
  if op = 0x21 then some (fld b 24 0 16)
  else if op ∈ [0x20, 0x22, 0x23, 0x24, 0x25, 0x26] then some (fld b 48 0 16)
  else none

/-- The Tallies that a command names as its own. -/
def tallyFields (b : Block) : List Nat :=
  let op := fld b 0 0 8
  let own := if op = 0x62 ∨ op = 0x63 ∨ op = 0x81 then [fld b 16 0 24] else if op = 0x80 then [fld b 32 0 24] else []
  own ++ [localTally b].filter fun n => decide (n ≠ noTally)

/-- The instance owns a Tally (R326). -/
def ownsTally (x : Inst) (n : Nat) : Bool := x.tallies.any fun (f, c) => decide (f ≤ n ∧ n < f + c)

/-- The instance may name a connection: its own, its class in TC_MASK, its source station still its own (R21, R38, R318). -/
def ownsConn (s : State) (i c : Nat) : Bool :=
  let d := instDie s i
  let k := conn s d c
  decide (connDie c = d ∧ k.st ≠ .absent ∧ k.inst = i) && bit (inst s i).tcMask k.tc &&
    (if k.localStation < 4 then decide ((inst s i).fn.port % 4 = k.localStation) else decide (k.localStation ∈ (inst s i).vstations))

/-- Check 3 for an instance. -/
def instAccess (s : State) (i : Nat) (b : Block) : Bool :=
  let op := fld b 0 0 8
  let x := inst s i
  (match connField b with
    | some c => ownsConn s i c
    | none => true) &&
  (match ctxField b with
    | some c => decide (c < x.maxCtx)
    | none => true) &&
  (tallyFields b).all (ownsTally x) &&
  (op != 0x22 || (let c := fld b 40 32 20
                  c == 0xFFFFF || decide (connDie c = instDie s i ∧ (conn s (instDie s i) c).st ≠ .absent ∧ (conn s (instDie s i) c).inst = i))) &&
  (!(decide (0x40 ≤ op ∧ op ≤ 0x44)) || x.colls.any fun g => decide (g.1 = fld b 16 0 12)) &&
  (op != 0x64 || (findCmdRing s (.inst i) (fld b 16 0 14)).isSome)

/-- Check 3 for a management ring of die `d`: its DATA and ATOMIC commands may name any connection end of the die (R34, R47,
R240), while the management function holds no context or collective grant; its triggers stand on Tallies of its die (R66).
[log DEDUCED 15, DEDUCED 16] -/
def mgmtAccess (s : State) (d : Die) (b : Block) : Bool :=
  let op := fld b 0 0 8
  (decide (op ∈ [0x60, 0x62, 0x63, 0x81, 0x80, 0x64] ∨ op ≥ 0xE0) && (op != 0x80 || decide (tallyDie (fld b 32 0 24) = d)))
    || (decide (op < 0x20 ∨ op = 0x61) && (match connField b with
      | some c => decide (connDie c = d ∧ (conn s d c).st ≠ .absent)
      | none => false))

/-- The COLL limits that need MEMBERS, of an installed context (R185). [log DEDUCED 80] -/
def collFits (s : State) (d : Die) (b : Block) : Bool :=
  let h := collHead b
  if 0x40 ≤ h.opcode ∧ h.opcode ≤ 0x44 then
    match treeOf s d (fld b 16 0 12) with
    | some t => !(decide ((h.opcode = 0x41 ∨ h.opcode = 0x42) ∧ h.root ≥ t.members)) &&
        !(decide (h.opcode = 0x44 ∧ t.members * h.count * elemSize h.ty > 1048576))
    | none => true
  else true

/-- Checks 2 and 3 of a command that is no MGMT command; none: it passes. [log DEDUCED 14] -/
def staticCheck (s : State) (owner : Option Nat) (d : Die) (b : Block) (c : List Block) (plain : Bool) : Option Nat :=
  if !(headForm b c plain && bodyForm b c && collFits s d b) then some 0x03
  else
    match owner with
    | some i => if classOf b = 7 ∨ instAccess s i b = false then some 0x06 else none
    | none => if mgmtAccess s d b then none else some 0x06

/-! ## What a MGMT operation answers -/

/-- The outcome of a MGMT operation: its new state and RESULT, a code with no effect, or a record that comes later. -/
inductive MgRes where
  | ok (s : State) (result : Nat)
  | err (code sub : Nat)
  | hold (s : State)
deriving DecidableEq, Repr

/-- CC_MALFORMED, CC_STATE and CC_ACCESS. -/
def mgMalformed : MgRes := .err 0x03 0
def mgState (sub : Nat) : MgRes := .err 0x02 sub
def mgAccess : MgRes := .err 0x06 0

/-- An operation in some states only. -/
def mgOpt : Option State → MgRes
  | some s => .ok s 0
  | none => mgState 0

end Sys2Proof.Machine
end

