-- ==== Sys2Proof/Machine/RingCtl.lean ====
section
/-! DEFINITION. MG_RING_CTL and RING_RESET (R100 to R105). -/

namespace Sys2Proof.Machine

open Sys2Proof

/-- The operation came through the mailbox (R105, R350). -/
def byMailbox (s : State) (o : Nat) : Bool := decide ((opOf s o).iss = .mailbox)

/-- The body of MG_RING_CTL is in form (R104). -/
def ringCtlForm (b : Block) : Bool :=
  let a := fld b 20 0 3
  let n := fld b 22 0 13
  let base := fld b 24 0 64
  let cfg := fld b 32 0 64
  let sh := fld b 40 0 64
  let k := bits cfg 0 5
  zeros b [(20, 3, 5), (21, 0, 8), (22, 13, 3)] && zeroFrom b 48 && !(bothDies b) && decide (a ≤ 6) &&
    (if a = 0 then
       bits base 0 12 == 0 && bits sh 1 2 == 0 && bits cfg 37 3 == 0 && bits cfg 23 1 == 0 && bits cfg 7 1 == 0 && decide (4 ≤ k ∧ k ≤ 20)
         && (n == 0 || (decide (bits cfg 50 14 < 8192) && bits cfg 8 8 != 0 && decide (1 ≤ bits cfg 16 7 ∧ bits cfg 16 7 ≤ 64)))
     else if a = 1 then
       bits base 0 12 == 0 && sh == 0 && bits cfg 46 18 == 0 && bits cfg 31 1 == 0 && bits cfg 5 3 == 0 && decide (4 ≤ k ∧ k ≤ 20)
         && (n == 0 || decide (bits cfg 32 14 < 8192))
     else base == 0 && cfg == 0 && sh == 0)

/-- A configured command or completion ring of the die already holds that instance-relative index (R104). -/
def cmdTaken (s : State) (d : Die) (i r : Nat) : Bool :=
  (die s d).rings.cmd.any fun (n, x) => decide (n ≠ 0 ∧ x.inst = i ∧ x.instRing = r) && x.configured
def cqTaken (s : State) (d : Die) (i r : Nat) : Bool :=
  (die s d).rings.cq.any fun (n, x) => decide (n ≠ 0 ∧ x.inst = i ∧ x.instRing = r) && x.configured

/-- The instance exists and the die is its own (R76). -/
def instHere (s : State) (d : Die) (i : Nat) : Bool := decide ((inst s i).st ≠ .absent ∧ instDie s i = d)

/-- CONFIGURE_CMD (R77, R100, R105): IDLE with its halt slot reserved. -/
def ringConfigureCmd (s : State) (d : Die) (n : Nat) (base cfg sh : Nat) : MgRes :=
  let m := if n = 0 then 0 else bits cfg 24 13
  let i := bits cfg 40 10
  let q := cqRing s d m
  let ok := !(cmdRing s d n).configured && q.configured && decide (q.bound < min 64 (2 ^ (q.log2 - 1)) ∧ cqFree q > 0) &&
    (n == 0 || (decide (m ≠ 0 ∧ q.inst = i) && instHere s d i && !(cmdTaken s d i (bits cfg 50 14))))
  if ok then
    let s := modCq s d m fun q => { q with bound := q.bound + 1, haltHeld := q.haltHeld + 1 }
    let r : CmdRing :=
      { configured := true, base := base, log2 := bits cfg 0 5, cq := m, shadowAddr := sh / 8 * 8, shadowEn := bit sh 0
        instRing := if n = 0 then 0 else bits cfg 50 14, inst := if n = 0 then 0 else i
        burst := if n = 0 then 0 else bits cfg 16 7, weight := if n = 0 then 0 else bits cfg 8 8
        prio := if n = 0 then 0 else bits cfg 5 2, haltSlot := true }
    .ok (setRingSt (modCmdRing s d n fun _ => r) d n .idle) 0
  else mgState 0

/-- CONFIGURE_CQ (R104, R105): TAIL 0 with TAIL_PHASE 1, HEAD 0 and LAP 1. -/
def ringConfigureCq (s : State) (d : Die) (m : Nat) (base cfg : Nat) : MgRes :=
  let i := bits cfg 8 10
  if !(cqRing s d m).configured && (m == 0 || (instHere s d i && !(cqTaken s d i (bits cfg 32 14)))) then
    .ok (modCq s d m fun _ =>
      { configured := true, base := base, log2 := bits cfg 0 5, intEn := bit cfg 30, intSource := bits cfg 18 12
        instRing := if m = 0 then 0 else bits cfg 32 14, inst := if m = 0 then 0 else i }) 0
  else mgState 0

/-- RESET of a configured ring that is not in RESET; the operation completes when the ring reaches IDLE (R100, R102). -/
def ringCtlReset (s : State) (o : Nat) (d : Die) (n : Nat) : MgRes :=
  let r := cmdRing s d n
  if r.configured && decide (r.st ≠ .reset) then
    .hold (modCmdRing (ringToReset (modOp s o fun x => { x with phase := .ringReset }) d n) d n fun r =>
      { r with resetOps := r.resetOps ++ [o] })
  else mgState 0

/-- RELEASE_CMD (R100): cancelled like a reset, cleared when the cancellation finishes. -/
def ringReleaseCmd (s : State) (o : Nat) (d : Die) (n : Nat) : MgRes :=
  let r := cmdRing s d n
  if r.configured then
    let s := modOp s o fun x => { x with phase := .ringReset }
    let s := if r.st = .reset then s else ringToReset s d n
    .hold (modCmdRing s d n fun r => { r with releasing := true, resetOps := r.resetOps ++ [o] })
  else mgState 0

/-- RELEASE_CQ (R104): of a configured ring that nothing is bound to and whose records are all returned. -/
def ringReleaseCq (s : State) (d : Die) (m : Nat) : MgRes :=
  let q := cqRing s d m
  if q.configured && decide (q.bound = 0 ∧ q.written = 0) then .ok (modCq s d m fun _ => {}) 0 else mgState 0

/-- MG_RING_CTL (R104, R105). -/
def mgRingCtl (s : State) (o : Nat) (b : Block) : MgRes :=
  let d := tgtDie b
  let n := fld b 22 0 13
  let r := cmdRing s d n
  if !(ringCtlForm b) then mgMalformed
  else if n = 0 ∧ byMailbox s o = false then mgAccess
  else match fld b 20 0 3 with
    | 0 => ringConfigureCmd s d n (fld b 24 0 64) (fld b 32 0 64) (fld b 40 0 64)
    | 1 => ringConfigureCq s d n (fld b 24 0 64) (fld b 32 0 64)
    | 2 => if r.configured && decide (r.st ≠ .reset) then .ok (ringPause s d n) 0 else mgState 0
    | 3 => if r.configured && decide (r.st ≠ .reset) then .ok (ringResume s d n) 0 else mgState 0
    | 4 => ringCtlReset s o d n
    | 5 => ringReleaseCmd s o d n
    | _ => ringReleaseCq s d n

/-- RING_RESET (R102): of another command ring of the issuing instance. -/
def syncRingReset (s : State) (o : Nat) (b : Block) : MgRes :=
  let x := opOf s o
  match x.inst with
  | some i =>
    match findCmdRing s (.inst i) (fld b 16 0 14) with
    | some (d, n) => if x.iss = .ring d n then mgState 0 else ringCtlReset s o d n
    | none => mgAccess
  | none => if fld b 16 0 14 = 0 then mgState 0 else mgAccess

end Sys2Proof.Machine
end

