-- ==== Sys2Proof/Machine/Instances.lean ====
section
/-! DEFINITION. Instances and their life (R313 to R324), grants (R325, R326, R329, R330, R111, R149, R179, R274), function
resets and host links (R309 to R315, R451). -/

namespace Sys2Proof.Machine

open Sys2Proof

/-! ## Functions and links (R309, R313, R314) -/

/-- Links that a bifurcation code creates. -/
def codeLinks : Nat → Nat
  | 0 => 1 | 1 => 2 | 2 => 4 | _ => 0

/-- The bifurcation code in effect of a device host port. -/
def portCode (s : State) (p : Nat) : Nat := (die s (portDie p)).hst.bifCodes.getD (p % 4) 3

/-- A host link exists. -/
def linkExists (s : State) (p l : Nat) : Bool := decide (p < 8 ∧ l < codeLinks (portCode s p))

/-- A function exists: PF 0, or a VF within NumVFs (R314). -/
def fnExists (s : State) (f : FnId) : Bool :=
  linkExists s f.port f.link && decide (f.fn ≤ (tget {} (die s (portDie f.port)).hst.links (4 * (f.port % 4) + f.link)).numVfs)

/-- Bifurcation of a die's four ports (R309): codes in effect, left to right; `used` links so far, `l` codes to come. -/
def bifurcate : Nat → List Nat → List Nat
  | _, [] => []
  | used, c :: t =>
    if c = 3 then 3 :: bifurcate used t
    else
      let later := (t.filter fun x => decide (x ≠ 3)).length
      let fits := fun (k : Nat) => decide (used + codeLinks k + later ≤ 8)
      let k := if fits c then c else if c = 2 ∧ fits 1 = true then 1 else 0
      k :: bifurcate (used + codeLinks k) t

/-- The instances on a host link, and on a port. -/
def instsOn (s : State) (p : FnId → Bool) : List Nat := (s.insts.filter fun (_, x) => decide (x.st ≠ .absent) && p x.fn).map (·.1)

/-! ## Limits (R318) -/

def limitsForm (b : Block) : Bool :=
  let ops := fld b 28 0 19
  let base := fld b 40 0 64
  decide (1 ≤ ops ∧ ops ≤ 262144) && fld b 34 0 4 != 0 && zeros b [(28, 19, 13), (34, 4, 4), (35, 0, 40), (40, 0, 12), (48, 5, 3), (49, 0, 8), (50, 12, 3)]
    && (base == 0 || decide (4 ≤ fld b 48 0 5 ∧ fld b 48 0 5 ≤ 16))

/-- Load a limits descriptor; a changed event ring restarts at position 0 (R322). -/
def loadLimits (b : Block) (x : Inst) : Inst :=
  let base := fld b 40 0 64
  let k := if base = 0 then 0 else fld b 48 0 5
  { x with maxOps := fld b 28 0 19, maxTriggers := fld b 32 0 16, tcMask := fld b 34 0 4, evtBase := base, evtLog2 := k
           evtIntSource := fld b 50 0 12, evtIntEn := fld b 50 15 1 == 1
           evt := if x.evtBase = base ∧ x.evtLog2 = k then x.evt else {} }

/-! ## Life of an instance (R319 to R322) -/

/-- Dispatched commands of an instance: none is left when each has its record. -/
def instOps (s : State) (i : Nat) : List Nat := (s.ops.filter fun (_, o) => decide (o.inst = some i)).map (·.1)

/-- The instance's configured rings of each kind. -/
def instRings (s : State) (d : Die) (i : Nat) : List Nat :=
  ((die s d).rings.cmd.filter fun (n, r) => decide (n ≠ 0 ∧ r.inst = i) && r.configured).map (·.1)
def instCqs (s : State) (d : Die) (i : Nat) : List Nat :=
  ((die s d).rings.cq.filter fun (n, r) => decide (n ≠ 0 ∧ r.inst = i) && r.configured).map (·.1)

/-- The instance's key is drawn and stored in both dies, or zeroised in both (R346, R347). [log DESIGN CHOICE 202] -/
def keyDraw (s : State) (i : Nat) : State :=
  let n := s.keyCtr + 1
  let put (x : DieState) : DieState := { x with keys := tset 0 x.keys i n }
  { s with keyCtr := n, west := put s.west, east := put s.east }
def keyErase (s : State) (i : Nat) : State :=
  let drop (x : DieState) : DieState := { x with keys := tset 0 x.keys i 0 }
  { s with west := drop s.west, east := drop s.east }

/-- CREATE (R319): the function is bound, the key generated, the limits loaded. -/
def instCreate (s : State) (b : Block) : MgRes :=
  let i := fld b 20 0 10
  let f : FnId := { port := fld b 24 0 3, link := fld b 24 3 2, fn := fld b 25 0 9 }
  if (inst s i).st ≠ .absent ∨ f = mgmtFn s ∨ (fnOf s f).inst.isSome = true ∨ fnExists s f = false
      ∨ s.sys.hbmLost.contains (portDie f.port).idx = true then mgState 0
  else
    let s := modInst (keyDraw s i) i fun x => loadLimits b { fn := f, wins := x.wins }
    .ok (setInstSt (modFn s f fun x => { x with inst := some i }) i .configuring 0) 0

/-- Entering QUIESCING (R320): rings pause, long work and triggers are cancelled, contexts close, collectives abort. -/
def quiesceWork (s : State) (d : Die) (i : Nat) : State :=
  let s := (instRings s d i).foldl (fun s n => ringPause s d n) s
  let s := (instOps s i).foldl cancelOp s
  instLost (closeInstCtxs s d i) d i none

/-- QUIESCE. A CONFIGURING instance is QUIESCED at once. [log DEDUCED 113] -/
def instQuiesce (s : State) (o i : Nat) : MgRes :=
  let d := instDie s i
  match (inst s i).st with
  | .configuring => .ok (setInstSt ((instRings s d i).foldl (fun s n => ringPause s d n) s) i .quiesced 0) 0
  | .running =>
    let s := modInst s i fun x => { x with quiesceOps := [o] }
    let s := modOp s o fun x => { x with phase := .quiesce }
    .hold (quiesceWork (setInstSt s i .quiescing 0) d i)
  | _ => mgState 0

/-- The QUIESCE commands of an instance complete. -/
def quiesceOver (s : State) (i : Nat) : State :=
  let l := (inst s i).quiesceOps
  l.foldl (fun s o => completeOp s o { code := 0 }) (modInst s i fun x => { x with quiesceOps := [] })

/-- INSTANCE_QUIESCE_DONE: every dispatched command of a QUIESCING instance has its record. -/
def execInstanceQuiesceDone (i : Nat) (s : State) : Host.Outcome State Fault Refusal :=
  if (inst s i).st = .quiescing ∧ instOps s i = [] then .next (quiesceOver (setInstSt s i .quiesced 0) i) else .next s

/-- The next nonce of a window, skipping 0 (R330). -/
def nextNonce (n : Nat) : Nat := if (n + 1) % 2 ^ 17 = 0 then 1 else (n + 1) % 2 ^ 17

/-- Complete with CC_CANCELLED the triggers armed on a range of Tallies (R326). -/
def dropTriggers (s : State) (first count : Nat) : State :=
  let hits := (die s (tallyDie first)).trigs.filter fun g => decide (first ≤ g.tally ∧ g.tally < first + count)
  hits.foldl (fun s g => completeOp s g.op { code := 0x0E }) s

/-- REMOVE (R321): connections, rings, grants, TLB entries, key and registers go, in that order. [log DEDUCED 116] -/
def instRemove (s : State) (i : Nat) : State :=
  let d := instDie s i
  let f := (inst s i).fn
  let conns := ((die s d).conns.filter fun (_, k) => decide (k.st ≠ .absent ∧ k.inst = i)).map fun (c, k) => (c, k.st)
  let s := conns.foldl (fun s (c, st) => eraseConn (if st = .failed then s else sendConnCtl s d c .close) d c) s
  let s := (instRings s d i).foldl (fun s n => ringClear (if (cmdRing s d n).st = .reset then s else ringToReset s d n) d n) s
  let s := (instCqs s d i).foldl (fun s m => modCq s d m fun _ => {}) s
  let s := closeInstCtxs s d i
  let s := (inst s i).tallies.foldl (fun s g => dropTriggers s g.1 g.2) s
  let s := orphanAll s fun m => decide (m = .host f)
  let s := msixDrop (tlbDrop s d i none) f
  let s := setInstSt (keyErase s i) i .absent 0
  let s := modFn s f fun x => { x with inst := none }
  modInst s i fun x =>
    let l : Tab Win := tmapv {} x.wins fun _ v => { nonce := if v.valid then nextNonce v.nonce else v.nonce }
    { wins := l }

/-- The body of MG_INSTANCE_CTL is in form (R317). -/
def instCtlForm (s : State) (b0 : Block) : Bool :=
  let b := mgBody b0
  let a := fld b 22 0 3
  zeros b [(20, 10, 6), (22, 3, 5), (23, 0, 8)] && zeroFrom b 52 && !(bothDies b) && decide (a ≤ 5) &&
    (if a = 0 then zeros b [(24, 5, 3), (25, 9, 7), (27, 0, 8)] && decide (portDie (fld b 24 0 3) = tgtDie b) && linkExists s (fld b 24 0 3) (fld b 24 3 2)
     else fld b 24 0 32 == 0) &&
    (if a = 0 ∨ a = 4 then limitsForm b else fld b 28 0 192 == 0)

/-- MG_INSTANCE_CTL (R317 to R322). -/
def mgInstanceCtl (s : State) (o : Nat) (b : Block) : MgRes :=
  let i := fld b 20 0 10
  let st := (inst s i).st
  let here := decide (st ≠ .absent ∧ instDie s i = tgtDie b)
  if !(instCtlForm s b) then mgMalformed
  else if fld b 22 0 3 = 0 then instCreate s b
  else if !here then mgState 0
  else match fld b 22 0 3 with
    | 1 => if st = .configuring then .ok (setInstSt s i .running 0) 0 else mgState 0
    | 2 => instQuiesce s o i
    | 3 => if st = .quiesced then
        let s := setInstSt s i .running 0
        .ok ((instRings s (instDie s i) i).foldl (fun s n => ringResume s (instDie s i) n) s) 0
      else mgState 0
    | 4 => if st = .quiesced then .ok (setInstSt (modInst s i (loadLimits b)) i .quiesced 0) 0 else mgState 0
    | _ => if st = .quiesced then .ok (instRemove s i) 0 else mgState 0

/-! ## Grants (R325) -/

/-- The most of a matching quota that the other instances of a die leave (R149, R154). [log DEDUCED 66] -/
def quotaSum (s : State) (d : Die) (i : Nat) (f : Inst → Nat) : Nat :=
  ((s.insts.filter fun (j, x) => decide (j ≠ i ∧ x.st ≠ .absent ∧ (if x.fn.port < 4 then Die.west else .east) = d)).map fun (_, x) => f x).sum

/-- MATCHING (R149). -/
def grantMatch (s : State) (b : Block) (i : Nat) : MgRes :=
  let d := instDie s i
  let x := inst s i
  let (ctx, po, un, kib) := (fld b 24 0 17, fld b 28 0 25, fld b 32 0 24, fld b 36 0 32)
  if !(zeros b [(24, 17, 15), (28, 25, 7), (32, 24, 8)] && zeroFrom b 40 && decide (ctx ≤ 65536 ∧ po ≤ 16777216 ∧ un ≤ 8388608)) then mgMalformed
  else if x.st ≠ .configuring ∧ x.st ≠ .quiesced then mgState 0
  else if quotaSum s d i (·.maxCtx) + ctx > 131072 ∨ quotaSum s d i (·.maxPosted) + po > 16777216 ∨ quotaSum s d i (·.maxUnexp) + un > 8388608
      ∨ quotaSum s d i (·.maxUnexpKib) + kib > 1024 * bits (regVal s d 0xC00018) 0 16 then .err 0x0F 0x04
  else .ok (modInst s i fun x => { x with maxCtx := ctx, maxPosted := po, maxUnexp := un, maxUnexpKib := kib }) 0

/-- A connection descriptor (R111). -/
def connOfGrant (b : Block) : Conn :=
  { peerConn := fld b 28 0 20, localStation := fld b 32 0 4, inst := fld b 32 4 10, remoteInst := fld b 32 14 10, tc := fld b 32 24 2
    remoteStation := fld b 36 0 20, mtu := fld b 40 0 3 }

/-- CONNECTION (R111, R112). The home die holds LOCAL_STATION when it is the instance's die. -/
def grantConnection (s : State) (b : Block) (i : Nat) : MgRes :=
  let c := fld b 24 0 20
  let d := connDie c
  let k := conn s d c
  let rsv := zeros b [(24, 20, 12), (40, 3, 5), (41, 1, 7)] && zeroFrom b 42
  if fld b 41 0 1 = 1 then
    if !(rsv && fld b 28 0 96 == 0 && fld b 40 0 8 == 0) then mgMalformed
    else if k.st = .absent ∨ k.inst ≠ i ∨ k.st = .draining then mgState 0
    else .ok (revokeConn s d c) 0
  else
    let x := connOfGrant b
    if !(rsv && zeros b [(28, 20, 12), (32, 26, 6), (36, 20, 12)]) || decide (x.mtu > 4) || !(holdsStation s d x.localStation) || decide (x.inst ≠ i) || decide (d ≠ instDie s i ∧ (inst s i).st ≠ .absent)
    then mgMalformed
    else if k.st ≠ .absent then mgState 0
    else .ok (grantConn s d c x) 0

/-- COLLECTIVE (R179). -/
def grantColl (s : State) (b : Block) (i : Nat) : MgRes :=
  let c := fld b 24 0 12
  let x := inst s i
  let held := x.colls.any fun g => decide (g.1 = c)
  if !(zeros b [(24, 12, 20), (28, 18, 14), (32, 1, 7)] && zeroFrom b 33 && (fld b 32 0 1 == 0 || fld b 28 0 18 == 0)) then mgMalformed
  else if fld b 32 0 1 = 1 then
    if held then .ok (instLost (modInst s i fun x => { x with colls := x.colls.filter fun g => decide (g.1 ≠ c) }) (instDie s i) i (some c)) 0
    else mgState 0
  else if held then mgState 0
  else if x.colls.length ≥ 64 then .err 0x0F 0x05
  else .ok (modInst s i fun x => { x with colls := x.colls ++ [(c, fld b 28 0 18)] }) 0

/-- COUNTER (R274). -/
def grantCtr (s : State) (b : Block) (i : Nat) : MgRes :=
  let c := fld b 24 0 11
  let slot := fld b 26 0 4
  let busy := decide (tget 0 (inst s i).counters slot ≠ 0)
  if !(zeros b [(24, 11, 5), (26, 4, 4), (27, 1, 7)] && zeroFrom b 28 && decide (c ≤ 1535)) then mgMalformed
  else if fld b 27 0 1 = 1 then
    if busy then .ok (modInst s i fun x => { x with counters := tset 0 x.counters slot 0 }) 0 else mgState 0
  else if busy then mgState 0
  else .ok (modInst s i fun x => { x with counters := tset 0 x.counters slot (c + 1) }) 0

/-- Two Tally ranges overlap. -/
def rangesMeet (a b : Nat × Nat) : Bool := decide (a.1 < b.1 + b.2 ∧ b.1 < a.1 + a.2)

/-- TALLY (R326). -/
def grantTallies (s : State) (b : Block) (i : Nat) : MgRes :=
  let r : Nat × Nat := (fld b 24 0 22, fld b 28 0 23)
  let d := instDie s i
  let x := inst s i
  let onDie_ := decide (1 ≤ r.2 ∧ r.2 ≤ 4194304 ∧ r.1 + r.2 ≤ 4194304 ∧ tallyDie r.1 = d ∧ tallyDie (r.1 + r.2 - 1) = d)
  if !(zeros b [(24, 22, 10), (28, 23, 9), (32, 1, 7)] && zeroFrom b 33 && (onDie_ || decide (x.st = .absent))) then mgMalformed
  else if fld b 32 0 1 = 1 then
    if r ∈ x.tallies then .ok (dropTriggers (modInst s i fun x => { x with tallies := without x.tallies r }) r.1 r.2) 0 else mgState 0
  else if s.insts.any fun (_, y) => y.tallies.any (rangesMeet r) then mgState 0
  else if x.tallies.length ≥ 16 then .err 0x0F 0x05
  else
    let s := onDie s d fun y => { y with tallies := y.tallies.filter fun (n, _) => !(decide (r.1 ≤ n ∧ n < r.1 + r.2)) }
    .ok (modInst s i fun x => { x with tallies := x.tallies ++ [r] }) 0

/-- VSTATION (R326). -/
def grantVstn (s : State) (b : Block) (i : Nat) : MgRes :=
  let v := fld b 24 0 4
  let held := decide (v ∈ (inst s i).vstations)
  if !(zeros b [(24, 4, 4), (25, 1, 7)] && zeroFrom b 26 && decide (4 ≤ v)) then mgMalformed
  else if fld b 25 0 1 = 1 then
    if held then .ok (modInst s i fun x => { x with vstations := without x.vstations v }) 0 else mgState 0
  else if held then mgState 0
  else .ok (modInst s i fun x => { x with vstations := x.vstations ++ [v] }) 0

/-- A window descriptor (R329). -/
def winOfGrant (b : Block) (nonce : Nat) : Win :=
  { valid := fld b 25 0 1 == 1, lr := fld b 25 1 1 == 1, lw := fld b 25 2 1 == 1, rr := fld b 25 3 1 == 1, rw := fld b 25 4 1 == 1
    sideEffect := fld b 25 5 1 == 1, tabled := fld b 25 6 1 == 1, page2m := fld b 25 7 1 == 1, ats := fld b 26 0 1 == 1
    base := fld b 32 0 64, size := fld b 40 0 37, target := fld b 48 0 64, nonce := nonce }

/-- The descriptor is in form (R329, R330). -/
def winForm (b : Block) : Bool :=
  let x := winOfGrant b 0
  zeros b [(24, 5, 3), (26, 1, 7), (27, 0, 40), (40, 37, 27)] && zeroFrom b 56 &&
    (if !x.valid then fld b 25 0 8 == 0 && fld b 26 0 8 == 0 && fld b 32 0 192 == 0
     else x.base % 65536 == 0 && decide (1 ≤ x.size ∧ x.size ≤ 2 ^ 36 ∧ x.base + x.size * 65536 ≤ 2 ^ 64)
       && (!x.page2m || (x.tabled && x.base % 2097152 == 0 && x.size % 32 == 0))
       && x.target % (if x.tabled then 4096 else 65536) == 0)

/-- WINDOW (R329, R330, R333). [log DEDUCED 117] -/
def grantWin (s : State) (o : Nat) (b : Block) (i : Nat) : MgRes :=
  let w := fld b 24 0 5
  let x := inst s i
  let old := tget {} x.wins w
  let new := winOfGrant b (nextNonce old.nonce)
  let meet := x.wins.any fun (v, y) => decide (v ≠ w) && y.valid && rangesMeet (new.base, new.size * 65536) (y.base, y.size * 65536)
  if !(winForm b) then mgMalformed
  else if new.valid && meet then mgState 0x01
  else if !new.valid && !old.valid then mgState 0x02
  else
    let s := readsOld (tlbDrop (modInst s i fun x => { x with wins := tset {} x.wins w new }) (instDie s i) i (some w)) i (some w)
    if winBusy s i w then .hold (modOp s o fun x => { x with phase := .winGrant }) else .ok s 0

/-- MG_GRANT commands of windows complete whose old translations have no access outstanding any more (R333). -/
def windowsSettle (s : State) : State :=
  (s.ops.filter fun (_, x) => decide (x.phase = .winGrant)).foldl (fun s (o, x) =>
    let b := mgBody (opBlk x)
    if winBusy s (fld b 20 0 10) (fld b 24 0 5) then s else completeOp s o { code := 0 }) s

/-- MG_GRANT (R325): the kinds in their order; an ABSENT instance is refused once the body is in form. -/
def mgGrant (s : State) (o : Nat) (b0 : Block) : MgRes :=
  let b := mgBody b0
  let i := fld b 20 0 10
  let k := fld b 22 0 4
  let form := zeros b [(20, 10, 6), (22, 4, 4), (23, 0, 8)] && !(bothDies b) && decide (k ≤ 6)
  let r := match k with
    | 0 => grantConnection s b i
    | 1 => grantMatch s b i
    | 2 => grantColl s b i
    | 3 => grantCtr s b i
    | 4 => grantTallies s b i
    | 5 => grantVstn s b i
    | _ => grantWin s o b i
  if !form then mgMalformed
  else if (inst s i).st = .absent then if r = mgMalformed then mgMalformed else mgState 0
  else r

/-! ## Function resets (R323, R324) -/

/-- An instance enters RESETTING: its function falls silent and its work ends as R323 gives. -/
def instReset (s : State) (i cause : Nat) : State :=
  let x := inst s i
  if x.st = .absent ∨ x.st = .resetting then s
  else
    let d := instDie s i
    let was := match x.st with
      | .running => InstSt.running
      | .configuring => .configuring
      | _ => .quiesced
    let s := setInstSt (modInst s i fun x => { x with was := was, resetAt := s.now }) i .resetting cause
    let s := (instRings s d i).foldl (fun s n => if (cmdRing s d n).st = .reset then s else ringToReset s d n) s
    let s := (instOps s i).foldl cancelOp s
    let s := instLost (closeInstCtxs s d i) d i none
    let s := abandonReads (tlbDrop s d i none) fun r => decide (r.who = i)
    let s := onHst s d fun h => { h with walks := h.walks.filter fun (_, w) => match w with
      | some w => decide (w.inst ≠ i)
      | none => true }
    orphanAll (msixDrop (modFn s x.fn fun y => { y with inReset := true }) x.fn) fun m => decide (m = .host x.fn)

/-- The management function enters reset (R324, R351): its rings to RESET, MBX_BLOCK cleared. -/
def mgmtReset (s : State) : State :=
  let f := mgmtFn s
  let s := modFn s f fun x => { x with inReset := true }
  let g (s : State) (d : Die) :=
    if (cmdRing s d 0).configured && decide ((cmdRing s d 0).st ≠ .reset) then ringToReset s d 0 else s
  let s := g (g s .west) .east
  let s := { s with mbx := { s.mbx with block := 0, irq := false } }
  let s := abandonReads s fun r => decide (r.who = mgmtWho)
  orphanAll (msixDrop s f) fun m => decide (m = .host f)

/-- Some management ring of either die is configured. -/
def mgmtRings (s : State) : Bool := (cqRing s .west 0).configured || (cqRing s .east 0).configured

/-- A function's settings that its reset returns to the family's reset values: MSI-X Enable, the vector masks and ATS Enable. -/
def fnSettings (x : Fn) : Fn := { x with msixEn := false, unmasked := [], atsEn := false }

/-- A reset of one function. -/
def fnReset (s : State) (f : FnId) (cause : Nat) : State :=
  let s := if f = mgmtFn s then mgmtReset s
    else match (fnOf s f).inst with
      | some i => instReset s i cause
      | none => msixDrop s f
  modFn s f fnSettings

/-- FLR (R323, R324). With no management ring there is nothing to drain, and the management function is back at once. [log DEDUCED 125] -/
def flrFn (s : State) (f : FnId) : State :=
  let t := fnReset s f 1
  if f = mgmtFn s ∧ mgmtRings t = false then modFn t f fun x => { x with inReset := false } else t

def execFlr (f : FnId) (s : State) : Host.Outcome State Fault Refusal := .next (if fnExists s f then flrFn s f else s)

/-- Every function of a host link is reset and the link is down. -/
def hostLinkDown (s : State) (p l cause : Nat) : State :=
  let s := (instsOn s fun f => decide (f.port = p ∧ f.link = l)).foldl (fun s i => instReset s i cause) s
  let s := if (mgmtFn s).port = p ∧ (mgmtFn s).link = l then mgmtReset s else s
  let s := { s with fns := tmapv {} s.fns fun k x => if k / 512 = 4 * p + l then fnSettings x else x }
  issueWaiting { onHst s (portDie p) fun h => { h with links := tset {} h.links (4 * (p % 4) + l) {} } with
    reads := s.reads.filter fun r => !(decide (r.port = p ∧ r.link = l)) }

/-- HOST_LINK_RESET: hot reset, link-down or disable of a link. -/
def execHostLinkReset (p l : Nat) (s : State) : Host.Outcome State Fault Refusal :=
  .next (if linkExists s p l then hostLinkDown s p l 2 else s)

/-- PERST_N_ASSERT: the port and every link of it are held in reset (R451); ignored while the device is in reset. -/
def perstAssert (s : State) (p : Nat) : State :=
  let s := onHst s (portDie p) fun h => { h with perst := addNew h.perst (p % 4) }
  if s.sys.inReset then s
  else (List.range 4).foldl (fun s l => if linkExists s p l then hostLinkDown s p l 3 else s) s

def execPerstNAssert (p : Nat) (s : State) : Host.Outcome State Fault Refusal := .next (if p < 8 then perstAssert s p else s)

/-- PERST_N_DEASSERT: the port may train; in Standby its always-on source is raised (R439, R451). -/
def perstDeassert (s : State) (p : Nat) : State :=
  let d := portDie p
  let s := onHst s d fun h => { h with perst := without h.perst (p % 4) }
  if s.sys.mode = .standby ∧ s.sys.inReset = false then raiseLocal s d (1987 + p % 4) else s

def execPerstNDeassert (p : Nat) (s : State) : Host.Outcome State Fault Refusal := .next (if p < 8 then perstDeassert s p else s)

/-- D3HOT_ENTRY of a function (R323). -/
def execD3hotEntry (f : FnId) (s : State) : Host.Outcome State Fault Refusal :=
  if fnExists s f then .next (modFn (msixDrop (fnReset s f 4) f) f fun x => { x with d3 := true }) else .next s

/-- The drain of R323 has finished: no command of the instance runs between stride boundaries, and what is left awaits
only host completions and responses that are discarded, or its 100 ms are over. -/
def resetDrained (s : State) (i : Nat) : Bool :=
  (s.ops.all fun (_, o) => !(decide (o.inst = some i ∧ o.phase = .long .running))) &&
    (decide (s.now ≥ (inst s i).resetAt + 100000000) || (s.ops.all fun (_, o) => !(decide (o.inst = some i) && allStaged o)))

/-- What an instance finds when it leaves RESETTING (R323). [log DEDUCED 41, DEDUCED 42] -/
def instReturn (s : State) (i : Nat) : State :=
  let x := inst s i
  let d := instDie s i
  let s := (instOps s i).foldl (fun s o => completeOp s o { code := 0x0E, bytes := (opOf s o).bytesAcked }) s
  let s := (instCqs s d i).foldl (fun s m => cqRestart s d m) s
  let s := (instRings s d i).foldl (fun s n => ringRestart s d n) s
  let s := modInst s i fun x => { x with evt := { lost := x.evt.lost } }
  let s := modFn s x.fn fun y => { y with inReset := false, d3 := false }
  let s := setInstSt s i x.was 5
  if x.was = .quiesced then quiesceOver s i else s

/-- INSTANCE_RESET_DONE: the drain has finished, the link is up and the function back in D0 (R319). -/
def execInstanceResetDone (i : Nat) (s : State) : Host.Outcome State Fault Refusal :=
  let x := inst s i
  if x.st = .resetting ∧ hostLinkUp s x.fn = true ∧ resetDrained s i = true then .next (instReturn s i) else .next s

/-! ## Host links (R310 to R312, R415, R337) -/

/-- A host link has trained: what its host negotiated is free (R124, R311), and its configuration stands at the reset values
(R312). [log DESIGN CHOICE 114] -/
def hostTrained (s : State) (p l : Nat) : State :=
  let d := portDie p
  let (v, s) := takeFree s
  let n := v.toNat
  let x : HLink := { up := true, cxlCache := bit n 16, atomicOps := bits n 17 4 }
  let woken := (die s d).hst.wake.contains (p % 4)
  let s := onHst s d fun h => { h with links := tset {} h.links (4 * (p % 4) + l) x, wake := without h.wake (p % 4) }
  let s := if woken then emit s (.pin "WAKE_HST_N" (16 + p)) else s
  let f := mgmtFn s
  if f.port = p ∧ f.link = l ∧ mgmtInReset s = true ∧ mgmtRings s = false then modFn s f fun y => { y with inReset := false, d3 := false } else s

/-- The copy of a complete Archive to the designated buffer begins when the management link is up in Forensic (R432). -/
def archiveCopyBegin (s : State) : State :=
  if forensic s && s.arch.valid && s.arch.dest.isSome && hostLinkUp s (mgmtFn s) && !s.arch.copied && !s.arch.copying then
    { s with arch := { s.arch with copying := true } }
  else s

/-- HOST_LINK_TRAINED. -/
def execHostLinkTrained (p l : Nat) (s : State) : Host.Outcome State Fault Refusal :=
  if linkExists s p l && !s.sys.inReset && !((die s (portDie p)).hst.perst.contains (p % 4)) && !(unitDown s (portDie p) 0x08 (p % 4)) && decide (s.sys.mode ≠ .standby) then
    .next (archiveCopyBegin (hostTrained s p l))
  else .next s

/-- A host link's state. -/
def hlink (s : State) (p l : Nat) : HLink := tget {} (die s (portDie p)).hst.links (4 * (p % 4) + l)
def modHlink (s : State) (p l : Nat) (f : HLink → HLink) : State :=
  onHst s (portDie p) fun h => { h with links := tmod {} h.links (4 * (p % 4) + l) f }

/-- A request of the host is served: what it configures takes effect (R312, R314, R337, R375), and an AtomicOp aimed at a BAR gets
Unsupported Request (R311). -/
def hostRequest (s : State) (p l : Nat) (r : HostReq) : State :=
  let fn (n : Nat) : FnId := { port := p, link := l, fn := n }
  let done (s : State) : State := emit s (.cfgDone p l)
  match r with
  | .read => done s
  | .numVfs n => done (modHlink s p l fun h => { h with numVfs := min n (256 / max 1 (codeLinks (portCode s p))) })
  | .atsEnable n on => done (if fnExists s (fn n) then modFn s (fn n) fun x => { x with atsEn := on } else s)
  | .msixEnable n on =>
    done (if !(fnExists s (fn n)) then s
      else if on then modFn s (fn n) fun x => { x with msixEn := true }
      else msixDrop (modFn s (fn n) fun x => { x with msixEn := false }) (fn n))
  | .cplTimeout ns off =>
    done (modHlink s p l fun h => { h with cplTimeout := if 50000 ≤ ns ∧ ns ≤ 64000000000 then ns else h.cplTimeout, cplOff := off })
  | .atomicToBar => emit s (.unsupported p l)

/-- HOST_CONFIG_REQUEST: Retry Status until bring-up step 9, and Unsupported Request to any other request (R415). -/
def execHostConfigRequest (p : Nat) (r : HostCfg) (s : State) : Host.Outcome State Fault Refusal :=
  .next (if s.sys.mode = .bringup then emit s (if r.what = .atomicToBar then .unsupported p r.link else .cfgRetry p r.link)
    else if (hlink s p r.link).up then hostRequest s p r.link r.what else s)

/-- ATS_INVALIDATION: matching ATS answers leave the TLB; the completion follows (R337). [log DEDUCED 118] -/
def atsInvalidate (s : State) (f : FnId) (addr len : Nat) : State :=
  match (fnOf s f).inst with
  | some i =>
    let d := instDie s i
    let hit := fun (e : TlbEnt) =>
      let w := tget {} (inst s i).wins e.win
      let a := if w.tabled then 0 else w.target + 65536 * e.page
      decide (e.inst = i) && e.ats.isSome && (w.tabled || decide (a < addr + len ∧ addr < a + 65536))
    let s := onHst s d fun h => { h with tlb := h.tlb.filter fun e => !(hit e) }
    let used (r : HostRead) : Bool := r.issued && r.ats && decide (r.who = i)
    if s.reads.any used then
      { s with reads := s.reads.map fun r => if used r then { r with inv := true } else r, atsInvs := s.atsInvs ++ [f] }
    else emit s (.atsInvDone f)
  | none => emit s (.atsInvDone f)

def execAtsInvalidation (f : FnId) (addr len : Nat) (s : State) : Host.Outcome State Fault Refusal := .next (atsInvalidate s f addr len)

end Sys2Proof.Machine
end

