-- ==== Sys2Proof/Machine/Sha.lean ====
section
/-! DEFINITION. SHA-256, by which a domain's digest is defined (R391). -/

namespace Sys2Proof.Machine

open Sys2Proof

/-- The largest `r` below 2^`n` with `r`^`e` at most `v`, bit by bit from the top. -/
def rootFloor (e v : Nat) : Nat → Nat → Nat
  | 0, r => r
  | n + 1, r => if (r + 2 ^ n) ^ e ≤ v then rootFloor e v n (r + 2 ^ n) else rootFloor e v n r

/-- The first 32 bits of the fraction of the `e`th root of `p`. -/
def rootBits (e p : Nat) : BitVec 32 := BitVec.ofNat 32 (rootFloor e (p * 2 ^ (32 * e)) 40 0)

/-- The primes up to 311: 64 of them. -/
def shaPrimes : List Nat := (List.range 312).filter fun n => decide (2 ≤ n) && (List.range 18).all fun d => decide (d < 2 ∨ n ≤ d) || n % d != 0

/-- The constants of the standard: cube roots of the primes for the rounds, square roots of the first eight for the initial value. -/
def shaK : List (BitVec 32) := shaPrimes.map (rootBits 3)
def shaInit : List (BitVec 32) := (shaPrimes.take 8).map (rootBits 2)

/-- A big-endian number. -/
def beNat (l : List Byte) : Nat := l.foldl (fun n b => 256 * n + b.toNat) 0

/-- `n` bytes, most significant first. -/
def beBytes (n v : Nat) : List Byte := (leBytes n v).reverse

/-- The message padded to whole 64-byte blocks. -/
def shaPad (m : List Byte) : List Byte :=
  m ++ 0x80#8 :: List.replicate ((119 - m.length % 64) % 64) 0#8 ++ beBytes 8 (8 * m.length)

/-- A word rotated right by two amounts, and by a third or shifted. -/
def mixRot (x : BitVec 32) (i j k : Nat) : BitVec 32 := x.rotateRight i ^^^ x.rotateRight j ^^^ x.rotateRight k
def mixShift (x : BitVec 32) (i j k : Nat) : BitVec 32 := x.rotateRight i ^^^ x.rotateRight j ^^^ (x >>> k)

/-- The message schedule, latest word first: the 16 words of a block, then `n` more. -/
def shaSched : Nat → List (BitVec 32) → List (BitVec 32)
  | 0, w => w
  | n + 1, w => shaSched n ((w.getD 15 0 + mixShift (w.getD 14 0) 7 18 3 + w.getD 6 0 + mixShift (w.getD 1 0) 17 19 10) :: w)

/-- One round: the eight working words move along, and a new first and fifth come in. -/
def shaRound (v : List (BitVec 32)) (kw : BitVec 32 × BitVec 32) : List (BitVec 32) :=
  let at_ (i : Nat) := v.getD i 0
  let choose := at_ 6 ^^^ (at_ 4 &&& (at_ 5 ^^^ at_ 6))
  let most := (at_ 0 &&& at_ 1) ||| (at_ 2 &&& (at_ 0 ||| at_ 1))
  let x := at_ 7 + mixRot (at_ 4) 6 11 25 + choose + kw.1 + kw.2
  let l := v.take 7
  (x + mixRot (at_ 0) 2 13 22 + most) :: l.set 3 (at_ 3 + x)

/-- The 16 words of a block, first word first. -/
def shaWords (l : List Byte) : List (BitVec 32) := (List.range 16).map fun i => BitVec.ofNat 32 (beNat ((l.drop (4 * i)).take 4))

/-- The compression of one block. -/
def shaBlock (h : List (BitVec 32)) (l : List Byte) : List (BitVec 32) :=
  let w := (shaSched 48 (shaWords l).reverse).reverse
  ((shaK.zip w).foldl shaRound h).zipWith (· + ·) h

/-- SHA-256 over whole blocks. -/
def shaBlocks : Nat → List (BitVec 32) → List Byte → List (BitVec 32)
  | 0, h, _ => h
  | n + 1, h, l => shaBlocks n (shaBlock h (l.take 64)) (l.drop 64)

/-- SHA-256 of a message, as 32 bytes. -/
def sha256 (m : List Byte) : List Byte :=
  let p := shaPad m
  (shaBlocks (p.length / 64) shaInit p).flatMap fun w => beBytes 4 w.toNat

end Sys2Proof.Machine
end

