-- ==== Sys2Proof/Machine/Epoch.lean ====
section
/-! DEFINITION. Configuration epochs (R381 to R391): domains, digests, MG_EPOCH_WRITE, MG_EPOCH_ACTIVATE and activation; the
gate commands (R244, R245); Shelf-read (R392 to R394); MG_IDENTITY_SET (R16, R17). -/

namespace Sys2Proof.Machine

open Sys2Proof

/-! ## The content of a domain (R381, R384, R391) -/

/-- The 4-byte header of a record. -/
def recHeader (r : CfgRec) : List Byte := leBytes 4 (r.ty + r.index * 2 ^ 8 + r.content.length * 2 ^ 20)

/-- Insert a record by (TYPE, INDEX), replacing one of the same name. -/
def putRec : List CfgRec → CfgRec → List CfgRec
  | [], r => [r]
  | x :: t, r =>
    if x.ty = r.ty ∧ x.index = r.index then r :: t
    else if r.ty < x.ty ∨ (r.ty = x.ty ∧ r.index < x.index) then r :: x :: t
    else x :: putRec t r

/-- CHANNEL from the live registers (R389, R391). -/
def channelLive (s : State) (d : Die) : List CfgRec :=
  (List.range 4).map (fun n =>
    ({ ty := 0, index := n
       content := leBytes 12 (b2n (bit (regVal s d 0xF00000) n) + tcWeight s d n * 2 ^ 8 + regVal s d (0x1000040 + 8 * n) * 2 ^ 32) } : CfgRec))
  ++ [{ ty := 1, index := 0, content := leBytes 4 (bits (regVal s d 0x1000008) 0 16) }]

/-- A gate list entry as its 8 bytes (R242). -/
def gateEntryNat (e : GateEntry) : Nat := e.dur + e.mask.toNat * 2 ^ 32

/-- The present content of a domain, in ascending (TYPE, INDEX). -/
def domContent (s : State) (d : Die) (n : Nat) : List CfgRec :=
  if n = 1 then channelLive s d
  else if n = 3 then
    ((die s d).sch.gates.filter fun (_, g) => !g.active.isEmpty).foldl (fun l (k, g) =>
      putRec l { ty := 0, index := kPort d k
                 content := leBytes 8 (b2n g.guard_) ++ leBytes 8 g.actTime ++ g.active.flatMap fun e => leBytes 8 (gateEntryNat e) }) []
  else if n = 6 then
    [{ ty := 0, index := 0
       content := leBytes 4 (routerAddrReg s d) ++ leBytes 4 0xB0 ++ ((s.sys.imageSha ++ List.replicate 48 0#8).take 48) ++ leBytes 4 s.sys.straps }]
  else if n = 7 then (List.range 64).map fun i => { ty := 0, index := i, content := leBytes 8 (aclRegion s i) }
  else (dom s d n).active

/-- The digest of records (R391). -/
def digestOf (n : Nat) (l : List CfgRec) : Nat :=
  leNat ((sha256 (BitVec.ofNat 8 n :: l.flatMap fun r => recHeader r ++ r.content)).take 8)

/-- The active digest, and the staged digest: 0 while STAGED_VALID = 0. -/
def activeDigest (s : State) (d : Die) (n : Nat) : Nat := digestOf n (domContent s d n)
def stagedDigest (s : State) (d : Die) (n : Nat) : Nat := if (dom s d n).stagedValid then digestOf n (dom s d n).staged else 0

/-- The EPOCH of an unbanked domain, or of GATE, goes up by one (R382). -/
def bumpEpoch (s : State) (d : Die) (n : Nat) : State := modDom s d n fun x => { x with epoch := (x.epoch + 1) % 2 ^ 32 }

/-! ## Records in form (R181, R184, R207 to R212, R384, R385) -/

/-- Bits of `v` outside the fields given as (low bit, bits) are zero. -/
def onlyFields (v : Nat) (l : List (Nat × Nat)) : Bool := v == (l.map fun (lo, n) => bits v lo n * 2 ^ lo).sum

/-- The staged routing configuration marks a router as forerunner (R29): by the own group's local record, or as the
partner of a forerunner port. [log DEDUCED 139] -/
def marksFore (s : State) (l : List CfgRec) (a : Nat) : Bool :=
  l.any fun r =>
    let v := leNat r.content
    (r.ty == 2 && s.ident.valid && bit v 0 && bit v 9 && a == 1024 * s.ident.group + 16 * r.index) ||
    (r.ty == 1 && bit v 3 && routerPart (bits v 32 20) == a)

/-- The routing configuration that a tree record is judged against: the staged one, or the active one without a staging. -/
def treeRouting (s : State) (d : Die) : List CfgRec := if (dom s d 0).stagedValid then (dom s d 0).staged else (dom s d 0).active

/-- No two entries of a list are equal. -/
def distinct : List Nat → Bool
  | [] => true
  | x :: t => !(decide (x ∈ t)) && distinct t

/-- R181, all of it; the checks that name this die's router wait for an identity. [log DEDUCED 78] -/
def treeForm (s : State) (d : Die) (index : Nat) (l : List Byte) : Bool :=
  let v := leNat l
  let t := decTree v
  let n := bits v 40 8
  let nodes := t.children.filter fun c => !c.member
  let mems := t.children.filter (·.member)
  let fore := marksFore s (treeRouting s d)
  decide (1 ≤ n ∧ n ≤ 64 ∧ l.length = 32 + 8 * n ∧ t.cctx = index) &&
    onlyFields (v % 2 ^ 256) [(0, 12), (16, 16), (32, 1), (40, 8), (64, 26), (96, 20), (127, 1), (128, 19)] &&
    ((List.range n).all fun i => onlyFields (bits v (256 + 64 * i) 64) [(0, 31), (32, 18)]) &&
    decide (1 ≤ t.members ∧ t.members ≤ 262144) && t.parent % 16 == 0 && t.backup % 16 == 0 &&
    (nodes.all fun c => c.addr % 16 == 0 && c.inst == 0 && c.index == 0) && (mems.all fun c => decide (c.index < t.members)) &&
    (if t.root then t.parent == 0 && t.indexAtParent == 0 && !t.backupValid else true) &&
    distinct (t.children.map (·.addr)) && distinct (mems.map (·.index)) &&
    !(nodes.any fun c => fore c.addr) && (t.root || !(fore t.parent)) && (!(t.backupValid || t.backup != 0) || !(fore t.backup)) &&
    (!s.ident.valid || ((t.root || t.parent != routerAddr s d) && mems.all fun c => routerPart c.addr == routerAddr s d))

/-- One record's own rules. -/
def recForm (s : State) (d : Die) (n : Nat) (r : CfgRec) : Bool :=
  let v := leNat r.content
  let len := r.content.length
  if n = 0 then
    if r.ty = 0 then decide (r.index = 0 ∧ len = 16) && onlyFields v [(0, 2), (16, 11)]
    else if r.ty = 1 then decide (r.index ≤ 95 ∧ len = 8) && onlyFields v [(0, 4), (8, 7), (32, 20)] && bits v 0 2 != 3 && bits v 8 7 == r.index
    else if r.ty = 2 then decide (r.index ≤ 63 ∧ len = 4) && onlyFields v [(0, 10)]
    else if r.ty = 3 then
      decide (r.index ≤ 1023 ∧ len = 32) && (List.range 8).all fun i =>
        onlyFields (bits v (32 * i) 32) [(0, 15)] &&
          (List.range 8).all fun j => !(bit v (32 * i)) || !(bit v (32 * j)) || bit v (32 * i + 14) == bit v (32 * j + 14)
    else decide (r.ty = 4 ∧ r.index = 0 ∧ len = 128)
  else if n = 1 then
    if r.ty = 0 then decide (r.index ≤ 3 ∧ len = 12) && onlyFields v [(0, 1), (8, 8), (32, 64)]
    else decide (r.ty = 1 ∧ r.index = 0 ∧ len = 4) && onlyFields v [(0, 16)] && decide (1 ≤ v ∧ v ≤ 1000)
  else if n = 2 then decide (r.ty = 0 ∧ r.index ≤ 4095) && treeForm s d r.index r.content
  else if n = 4 then
    decide (r.ty = 0 ∧ 4 ≤ r.index ∧ r.index ≤ 15 ∧ len = 4) && onlyFields v [(0, 2), (4, 4), (16, 10)] && bit v 0
      && linkExists s (4 * d.idx + bits v 4 2) (bits v 6 2)
  else decide (n = 5 ∧ r.ty = 0 ∧ r.index = 0 ∧ len = 16) && onlyFields v [(0, 66)]

/-- A TYPE and INDEX that a REMOVE header may name. -/
def nameForm (n ty ix : Nat) : Bool :=
  if n = 0 then decide ((ty = 0 ∧ ix = 0) ∨ (ty = 1 ∧ ix ≤ 95) ∨ (ty = 2 ∧ ix ≤ 63) ∨ (ty = 3 ∧ ix ≤ 1023) ∨ (ty = 4 ∧ ix = 0))
  else if n = 1 then decide ((ty = 0 ∧ ix ≤ 3) ∨ (ty = 1 ∧ ix = 0))
  else if n = 2 then decide (ty = 0 ∧ ix ≤ 4095)
  else if n = 4 then decide (ty = 0 ∧ 4 ≤ ix ∧ ix ≤ 15)
  else decide (n = 5 ∧ ty = 0 ∧ ix = 0)

/-- The number a bank's record spells. -/
def bankRec (l : List CfgRec) (ty ix : Nat) : Option Nat := (findRec l ty ix).map leNat

/-- The rules of R212 that join records of one bank. -/
def routingJoint (s : State) (d : Die) (l : List CfgRec) : Bool :=
  let role (p : Nat) : Nat := match bankRec l 1 p with | some v => bits v 0 2 | none => 0
  let ports := l.filter fun r => decide (r.ty = 1)
  (match bankRec l 0 0 with
    | some h => (!(bit h 0) || (!(bit h 1) && ports.all fun r => bits (leNat r.content) 0 2 != 2)) && (bit h 1 || decide (bits h 16 11 ≤ 1))
    | none => true) &&
  (!s.ident.valid ||
    ((match bankRec l 4 0 with | some v => !(bit v s.ident.group) | none => true) &&
     l.all fun r => r.ty != 3 || (List.range 8).all fun i =>
       let e := decGw (bits (leNat r.content) (32 * i) 32)
       !e.valid || (r.index != s.ident.group && (e.router != routerOf s d || role e.port == 2))))

/-- The records of a stream, and `none` where it ends inside one or a record is out of form. -/
def parseStream (s : State) (d : Die) (n : Nat) (remove : Bool) : Nat → List Byte → Option (List CfgRec)
  | _, [] => some []
  | 0, _ => none
  | f + 1, l =>
    let h := leNat (l.take 4)
    let len := bits h 20 12
    let r : CfgRec := { ty := bits h 0 8, index := bits h 8 12, content := (l.drop 4).take len }
    let ok := if remove then len == 0 && nameForm n r.ty r.index else recForm s d n r
    if l.length < 4 + len ∨ ok = false then none
    else (parseStream s d n remove f (l.drop (4 + len))).map (r :: ·)

/-! ## MG_EPOCH_WRITE (R383, R385) -/

/-- The bytes that MG_EPOCH_WRITE supplies. -/
def streamBytes (b : Block) (c : List Block) : List Byte := blkBytes b 24 32 ++ chainContent c

/-- [log DEDUCED 136] -/
def mgEpochWrite (s : State) (b : Block) (c : List Block) : MgRes :=
  let d := tgtDie b
  let n := fld b 20 0 3
  let op := fld b 21 0 2
  let len := fld b 22 0 12
  let body := mgBody b
  let sup := streamBytes b c
  let form := zeros body [(20, 3, 5), (21, 2, 6), (22, 12, 4), (56, 0, 64)] && !(bothDies b) && decide (n ∉ [3, 6, 7]) && decide (len ≤ sup.length)
    && (op ≥ 2 || (len == 0 && !(chainBit b)))
  let x := dom s d n
  if !form then mgMalformed
  else match (if op ≥ 2 then parseStream s d n (op == 3) 1024 (sup.take len) else some []) with
    | none => mgMalformed
    | some rs =>
      if x.pend.isSome ∨ (op ≥ 2 ∧ x.stagedValid = false) then mgState 0
      else
        let bank := if op = 0 then []
          else if op = 1 then domContent s d n
          else if op = 2 then rs.foldl putRec x.staged
          else x.staged.filter fun r => !(rs.any fun y => decide (y.ty = r.ty ∧ y.index = r.index))
        if n = 0 ∧ routingJoint s d bank = false then mgMalformed
        else .ok (modDom s d n fun x => { x with staged := bank, stagedValid := true }) 0

/-! ## MG_EPOCH_ACTIVATE (R386 to R388) -/

/-- The device types of a routing bank respect R27 and R28: an HK32 stands in a FORERUNNER local record or behind a FORERUNNER
port, the device's own routers count as Hokun dies, and an HK32 of another group has a router number its tables decode. -/
def groupLimits (s : State) (l : List CfgRec) : Bool :=
  let loc := (l.filter fun r => decide (r.ty = 2) && bit (leNat r.content) 0).map fun r => (r.index, bit (leNat r.content) 9)
  let behind := (l.filter fun r => decide (r.ty = 1) && bit (leNat r.content) 3 && bits (leNat r.content) 0 2 != 0).map fun r =>
    bits (leNat r.content) 32 20
  let fore := ((loc.filter (·.2)).map (·.1) ++ (behind.filter fun a => decide (grpOf a = s.ident.group)).map rtrOf).eraseDups
  let own := (loc.filter fun x => !x.2).map (·.1) ++ (if s.ident.valid then [2 * s.ident.place, 2 * s.ident.place + 1] else [])
  let places := (List.range 32).filter fun p => decide (2 * p ∈ own ∨ 2 * p + 1 ∈ own)
  decide (places.length + fore.length ≤ 32) &&
    (behind.all fun a => decide (rtrOf a ≤ 31)) &&
    (fore.isEmpty || own.all (fun t => decide (t ≤ 31)) && fore.all fun t => decide (t ≤ 31 ∧ t / 2 ∉ places))

/-- R388: the staged bank as a whole. [log DEDUCED 138, DEDUCED 215] -/
def bankWhole (s : State) (d : Die) (n : Nat) (l : List CfgRec) : Bool :=
  if n = 0 then
    match bankRec l 0 0 with
    | none => false
    | some h =>
      ((List.range 32).all fun p => (findRec l 1 (32 * d.idx + p)).isSome) && decide (1 ≤ bits h 16 11 ∧ bits h 16 11 ≤ 1024) && groupLimits s l && routingJoint s d l &&
        (List.range (bits h 16 11)).all fun g => g == s.ident.group || (findRec l 3 g).isSome
  else if n = 1 then ((List.range 4).all fun i => (findRec l 0 i).isSome) && (findRec l 1 0).isSome
  else if n = 2 then l.all fun r => treeForm s d r.index r.content
  else if n = 5 then (findRec l 0 0).isSome
  else true

/-- An epoch or gate activation is pending on the device (R407). -/
def pendingAny (s : State) : Bool :=
  [Die.west, Die.east].any fun d => (die s d).epc.doms.any (fun (_, x) => x.pend.isSome) || (die s d).sch.gates.any fun (_, g) => g.pending

/-- ACT_TIME against the time of check 4: the SUBCAUSE of R245 and R387. -/
def actTimeSub (s : State) (t : Nat) : Option Nat :=
  if t < s.time.ns + 10000 then some 0x01 else if t > s.time.ns + 60000000000 then some 0x02 else none

/-- The first refusal of R387, in the order of its table. [log DEDUCED 137] -/
def activateRefusal (s : State) (d : Die) (n : Nat) (b : Block) : Option Nat :=
  let x := dom s d n
  if x.pend.isSome then some 0x00
  else match actTimeSub s (fld b 24 0 64) with
    | some c => some c
    | none =>
      let newer := (fld b 32 0 32 + 2 ^ 32 - x.epoch) % 2 ^ 32
      if x.stagedValid = false ∨ fld b 40 0 64 ≠ stagedDigest s d n then some 0x03
      else if fld b 20 3 1 = 1 ∧ s.time.st ≠ .locked then some 0x04
      else if newer = 0 ∨ newer ≥ 2 ^ 31 then some 0x06
      else if s.time.set = false then some 0x07
      else if (n = 0 ∨ n = 2) ∧ s.ident.valid = false then some 0x08
      else none

/-- MG_EPOCH_ACTIVATE. -/
def mgEpochActivate (s : State) (b : Block) : MgRes :=
  let d := tgtDie b
  let n := fld b 20 0 3
  let withdraw := fld b 20 4 1 == 1
  let form := zeros b [(20, 5, 3), (21, 0, 24), (36, 0, 32), (56, 0, 64)] && !(bothDies b) && decide (n ∉ [3, 6, 7])
    && (!withdraw || fld b 24 0 256 == 0)
  let x := dom s d n
  if !form then mgMalformed
  else if withdraw then
    if x.pend.isSome then .ok (modDom s d n fun x => { x with pend := none }) 0 else mgState 0
  else match activateRefusal s d n b with
    | some c => mgState c
    | none =>
      if bankWhole s d n x.staged then
        .ok (modDom s d n fun x =>
          { x with pend := some { actTime := fld b 24 0 64, epoch := fld b 32 0 32, tag := fld b 48 0 64, requireLock := fld b 20 3 1 == 1 } }) 0
      else mgMalformed

/-! ## Activation (R389) -/

/-- Load the CHANNEL registers from an activated bank. -/
def loadChannel (s : State) (d : Die) (l : List CfgRec) : State :=
  let v (ty ix : Nat) : Nat := (bankRec l ty ix).getD 0
  let spray := (List.range 4).foldl (fun m n => m + b2n (bit (v 0 n) 0) * 2 ^ n) 0
  let weights := (List.range 4).foldl (fun m n => m + bits (v 0 n) 8 8 * 2 ^ (8 * n)) 0
  let s := setReg (setReg s d 0xF00000 spray) d 0x1000000 weights
  let s := (List.range 4).foldl (fun s n => setReg s d (0x1000040 + 8 * n) (bits (v 0 n) 32 64)) s
  setReg s d 0x1000008 (v 1 0)

/-- Connections with pending commands whose remote router has left the epoch fail (R143 sub-cause 0x02). [log DEDUCED 63] -/
def failAbsent (s : State) (d : Die) : State :=
  (die s d).conns.foldl (fun s (c, k) =>
    if (k.st = .established ∨ k.st = .draining) ∧ k.ops ≠ [] ∧ destAbsent s d k.remoteStation = true then failConn s d c 0x0A 0x02 true
    else s) s

/-- Semaphores held over the Flume from a router that left the active epoch become ORPHANED (R371). -/
def orphanLeft (s : State) (d : Die) : State :=
  orphanAll s fun m => match m with
    | .flume r => s.ident.valid && routerPart r != routerAddr s .west && routerPart r != routerAddr s .east && destAbsent s d r
    | _ => false

/-- A member whose station no longer serves it is lost (R200). -/
def membersJudge (s : State) (d : Die) : State :=
  (die s d).bnd.foldl (fun s (c, x) => match treeOf s d c with
    | some t =>
      collsLost s d c (x.colls.filter fun k => match (opOf s k.op).inst with
        | some i => (memberChild s d i c t).isNone
        | none => false) 0x0E 0 0x01
    | none => s) s

/-- What the new content of a domain governs at once. -/
def domGoverns (s : State) (d : Die) (n : Nat) (old new : List CfgRec) : State :=
  if n = 0 then orphanLeft (failAbsent (linksJudge s d) d) d
  else if n = 1 then loadChannel s d new
  else if n = 2 then
    let keys := (old ++ new).foldl (fun l r => addNew l r.index) []
    keys.foldl (fun s c => bndInstall s d c (findRec old 0 c) (findRec new 0 c)) s
  else if n = 4 then membersJudge s d
  else s

/-- TIM_STATUS.STATE codes (R398). -/
def timeStCode : TimeSt → Nat
  | .acquiring => 0 | .locked => 1 | .holdover => 2 | .freeRun => 3

/-- A pending domain activation takes effect: banks swap, STAGED_VALID clears, EPOCH and MACHINE_TAG load, EV_EPOCH_ACTIVE. -/
def domActivate (s : State) (d : Die) (n : Nat) (p : Pend) : State :=
  let old := domContent s d n
  let new := (dom s d n).staged
  let s := modDom s d n fun x =>
    { x with active := new, staged := old, stagedValid := false, epoch := p.epoch, tag := p.tag, pend := none, actAt := some s.now }
  let s := domGoverns s d n old new
  raiseLocal (postMgmt s d 0x66 (evb 8 d.idx + evb 9 n + evb 10 (timeStCode s.time.st) + evb 12 p.epoch + evb 16 p.actTime)) d 1892

/-- An activation of the die is due before domain `n` (R389). -/
def dueBefore (s : State) (d : Die) (n : Nat) (p : Pend) : Bool :=
  (List.range 8).any fun m => match (dom s d m).pend with
    | some q => decide (q.actTime ≤ s.time.ns ∧ (q.actTime < p.actTime ∨ (q.actTime = p.actTime ∧ m < n)))
    | none => false

/-! ## The gate commands (R243 to R245) -/

/-- Read a gate list entry; its other bits are reserved. -/
def decGateEntry (v : Nat) : Option GateEntry :=
  if onlyFields v [(0, 30), (32, 17)] then some { dur := bits v 0 30, mask := BitVec.ofNat 17 (bits v 32 17) } else none

/-- A port or half-port of a die. -/
def portOn (d : Die) (p : Nat) : Bool := decide ((32 * d.idx ≤ p ∧ p < 32 * d.idx + 32) ∨ (64 ≤ p ∧ p ≤ 95))

/-- A gate list in form. -/
def gateListOk (l : List GateEntry) : Bool :=
  (l.all fun e => decide (64 ≤ e.dur ∧ e.dur ≤ 1000000000) && e.mask.getLsbD 16) && decide (gateCycle l ≤ 4294967295) &&
    (List.range 16).all fun c => l.any fun e => e.mask.getLsbD c

/-- The entry words of MG_GATE_STAGE in their order: the body's five, then the extension blocks'. Under CHAIN = 1 the bytes of
entry 4 are EXT_ADDR. -/
def gateWords (b : Block) (c : List Block) : List Nat :=
  let body := (List.range 5).map fun i => fld b (24 + 8 * i) 0 64
  if chainBit b then body ++ c.flatMap fun x => (List.range 7).map fun i => fld x (8 * i) 0 64 else body

/-- The body of MG_GATE_STAGE is in form; the body's entries at or beyond COUNT are zero, EXT_ADDR being none. -/
def gateStageForm (b : Block) (c : List Block) : Bool :=
  let n := fld b 22 0 9
  zeros b [(20, 7, 1), (21, 1, 7), (22, 9, 7)] && !(bothDies b) && portOn (tgtDie b) (fld b 20 0 7)
    && decide (1 ≤ n ∧ n ≤ 256 ∧ n ≤ (gateWords b c).length) && (((gateWords b c).take (if chainBit b then 4 else 5)).drop n).all (· == 0)

/-- MG_GATE_STAGE (R244). [log DEDUCED 32] -/
def mgGateStage (s : State) (b : Block) (c : List Block) : MgRes :=
  let d := tgtDie b
  let k := portK (fld b 20 0 7)
  match if gateStageForm b c then ((gateWords b c).take (fld b 22 0 9)).mapM decGateEntry else none with
  | none => mgMalformed
  | some l =>
    let s := gateSettle s d (fld b 20 0 7)
    if !(gateListOk l) then mgMalformed
    else if (gateOf s d k).pending then mgState 0
    else .ok (modGate s d k fun g => { g with staged := l, stagedGuard := fld b 21 0 1 == 1, stagedValid := true }) 0

/-- MG_GATE_ACTIVATE (R245). -/
def mgGateActivate (s : State) (b : Block) : MgRes :=
  let d := tgtDie b
  let p := fld b 20 0 7
  let a := fld b 21 0 2
  let t := fld b 24 0 64
  let s := if portOn d p then gateSettle s d p else s
  let g := gateOf s d (portK p)
  let form := zeros b [(20, 7, 1), (21, 2, 6), (22, 0, 16)] && zeroFrom b 32 && !(bothDies b) && portOn d p && decide (a ≤ 2 ∧ (a = 1 → t = 0))
  if !form then mgMalformed
  else if a = 1 then if g.pending then .ok (modGate s d (portK p) fun g => { g with pending := false, pendClear := false }) 0 else mgState 0
  else if g.pending ∨ (a = 0 ∧ g.stagedValid = false) then mgState 0
  else match actTimeSub s t with
    | some c => mgState c
    | none => .ok (modGate s d (portK p) fun g => { g with pending := true, pendClear := decide (a = 2), pendTime := t }) 0

/-! ## MG_SHELF_COLLECT (R394) and MG_IDENTITY_SET (R16, R17) -/

/-- A mismatch is marked for a domain, on a link or the bridge. -/
def mismatched (s : State) (d : Die) (n : Nat) : Bool := (die s d).epc.marks.any fun (k, m) => decide (k % 8 = n) && m.marked

/-- MG_SHELF_COLLECT. -/
def mgShelfCollect (s : State) (b : Block) : MgRes :=
  let d := tgtDie b
  let n := fld b 20 0 3
  let x := dom s d n
  if zeros b [(20, 3, 5), (21, 2, 6)] && zeroFrom b 22 && !(bothDies b) then
    match fld b 21 0 2 with
    | 0 => .ok s (activeDigest s d n)
    | 1 => .ok s x.tag
    | 2 => .ok s (stagedDigest s d n)
    | _ => .ok s (x.epoch + b2n x.pend.isSome * 2 ^ 32 + b2n x.stagedValid * 2 ^ 33 + b2n (mismatched s d n) * 2 ^ 34)
  else mgMalformed

/-- No network port is out of DOWN and QUARANTINE, and no instance is in RUNNING or QUIESCING (R16). -/
def identityFree (s : State) : Bool :=
  ([Die.west, Die.east].all fun d => (die s d).links.all fun (_, l) => decide (l.st = .down ∨ l.st = .quarantine)) &&
    s.insts.all fun (_, x) => decide (x.st ≠ .running ∧ x.st ≠ .quiescing)

/-- Load an identity into both dies: each die's IDENTITY domain goes up by one and its links send IDENT again (R15, R17, R287). -/
def identLoad (s : State) (new : Identity) : State :=
  let each (s : State) (d : Die) : State := identsChanged (bumpEpoch s d 6) d
  each (each { s with ident := new } .west) .east

/-- MG_IDENTITY_SET. -/
def mgIdentitySet (s : State) (b : Block) : MgRes :=
  let clear := fld b 23 0 1 == 1
  let form := zeros b [(21, 2, 6), (22, 5, 3), (23, 1, 7)] && zeroFrom b 24 && (!clear || fld b 20 0 24 == 0)
  if !form then mgMalformed
  else if !(identityFree s) then mgState 0
  else .ok (identLoad s { s.ident with valid := !clear, group := if clear then 0 else fld b 20 0 10, place := if clear then 0 else fld b 22 0 5 }) 0

/-! ## Shelf-read (R392, R393) -/

/-- The SHELF flit of a domain. -/
def shelfOf (s : State) (d : Die) (n : Nat) : ShelfFlit :=
  let x := dom s d n
  { dom := n, pending := x.pend.isSome, epoch := x.epoch, digest := activeDigest s d n, tag := x.tag
    actTime := (x.pend.map (·.actTime)).getD 0, pendEpoch := (x.pend.map (·.epoch)).getD 0 }

/-- 125 µs have passed since the last SHELF flit. -/
def shelfDue (s : State) (at_ : Option Nat) : Bool := match at_ with
  | some t => decide (s.now ≥ t + 125000)
  | none => true

/-- SHELF_SEND: every 125 µs, on each link that is not DOWN and, as number 64, on the bridges' control stream. -/
def execShelfSend (d : Die) (k : Nat) (s : State) : Host.Outcome State Fault Refusal :=
  if k = 64 then
    let e := (die s d).epc
    if anyBridge s d && shelfDue s e.brgShelfAt then
      .next (emit (onEpc s d fun e => { e with brgShelfAt := some s.now, brgShelfDom := (e.brgShelfDom + 1) % 8 })
        (.bridgeShelf d (shelfOf s d e.brgShelfDom)))
    else .next s
  else
    let l := link s d k
    if carriesFrames l && !l.forerunner && shelfDue s l.shelfAt then
      .next (putFlits (modLink s d k fun l => { l with shelfAt := some s.now, shelfDom := (l.shelfDom + 1) % 8 }) d k
        [shelfFlit (shelfOf s d l.shelfDom)])
    else .next s

/-- SHELF_RECEIVE (R393): on link k, or 64 for the bridge. -/
def shelfReceive (s : State) (d : Die) (k : Nat) (m : ShelfFlit) : State :=
  let n := m.dom % 8
  let x := dom s d n
  let key := 8 * k + n
  let mark := tget {} (die s d).epc.marks key
  let differs := decide (m.epoch ≠ x.epoch ∨ m.tag ≠ x.tag)
  let exempt := (match x.actAt with | some t => decide (s.now < t + 1000000) | none => false) || (m.pending && decide (m.actTime ≤ s.time.ns))
  let put (f : Mark → Mark) (s : State) : State := onEpc s d fun e => { e with marks := tmod {} e.marks key f }
  let level (s : State) : State := setLevel s d 1894 ((die s d).epc.marks.any fun (_, m) => m.marked)
  if n ∈ [3, 6, 7] then s
  else if !differs then level (put (fun m => { m with last := false, marked := false }) s)
  else if exempt then put (fun m => { m with last := false }) s
  else if !mark.last then put (fun m => { m with last := true }) s
  else
    let post := (match mark.postedAt with | some t => decide (s.now ≥ t + 1000000000) | none => true) &&
      (k == 64 || decide ((link s d k).st ≠ .quarantine ∧ (link s d k).st ≠ .training))
    let s := level (put (fun m => { m with marked := true, postedAt := if post then some s.now else m.postedAt }) s)
    if post then postMgmt s d 0x70 (evb 8 d.idx + evb 9 (if k = 64 then 0x7E else k) + evb 10 n + evb 12 m.epoch + evb 16 m.tag) else s

/-- SHELF_RECEIVE. -/
def execShelfReceive (d : Die) (k : Nat) (m : ShelfFlit) (s : State) : Host.Outcome State Fault Refusal :=
  if (link s d k).forerunner then .next s else .next (shelfReceive s d k m)

end Sys2Proof.Machine
end

