-- ==== Sys2Proof/Machine/Time.lean ====
section
/-! DEFINITION. Device time (R397 to R407): the count, its sources, the time-state machine, slews and steps, MG_TIME_CTL, and
the EPOCH_ACTIVATION row, whose TIME domain runs source selection again. -/

namespace Sys2Proof.Machine

open Sys2Proof

/-- Change device time's discipline. -/
def onTime (s : State) (f : Time → Time) : State := { s with time := f s.time }

/-- Half a second, and a whole one, in ns. -/
def halfSec : Int := 500000000
def secNs : Nat := 1000000000

/-- TIM_CFG: SLEW_MAX in ppm, HOLD_PPB, LOCK_THRESH; both dies show the same. -/
def slewMax (s : State) : Nat := bits (regVal s .west 0x300020) 16 8
def holdPpb (s : State) : Nat := bits (regVal s .west 0x300020) 8 8
def lockThresh (s : State) : Nat := bits (regVal s .west 0x300020) 0 8

/-! ## The TIME record and the sources (R384, R400) -/

/-- UPSTREAM and GRANDMASTER of a die's active TIME record. -/
def timeRec (s : State) (d : Die) : Nat := (activeRec s d 5 0 0).getD 0
def upstream (s : State) (d : Die) (k : Nat) : Bool := bit (timeRec s d) k
def grandmaster (s : State) (d : Die) : Bool := bit (timeRec s d) 64
def anyGrandmaster (s : State) : Bool := grandmaster s .west || grandmaster s .east

/-- PPS_IN is present: a used edge in the last 1.1 s. -/
def ppsPresent (s : State) : Bool := match s.time.ppsAt with
  | some t => decide (s.now < t + 1100000000)
  | none => false

/-- The TIME flit by which a link may be a source. -/
def linkSource (s : State) (d : Die) (k : Nat) : Option TimeFlit :=
  let l := link s d k
  match l.timeFlit with
  | some m =>
    if l.st = .up ∧ upstream s d k = true ∧ grandmaster s d = false ∧ m.st = 1 ∧ m.set = true ∧ s.now < l.timeSeen + 500000
        ∧ (m.stratum < 14 ∨ s.time.set = false) then some m else none
  | none => none

/-- The better of two candidates: STRATUM, then EST_ERR, then the link index; the first on a tie. -/
def betterSource (a b : Nat × Nat × Nat × TimeSrc × Nat) : Nat × Nat × Nat × TimeSrc × Nat :=
  if b.1 < a.1 ∨ (b.1 = a.1 ∧ (b.2.1 < a.2.1 ∨ (b.2.1 = a.2.1 ∧ b.2.2.1 < a.2.2.1))) then b else a

/-- A die's candidates: (STRATUM to serve, EST_ERR, link index, source, grandmaster address). -/
def sourcesOf (s : State) (d : Die) : List (Nat × Nat × Nat × TimeSrc × Nat) :=
  if grandmaster s d then if ppsPresent s then [(0, 0, 0, .pps, routerAddr s d)] else []
  else (List.range 64).filterMap fun k => (linkSource s d k).map fun m => (m.stratum + 1, m.estErr, k, .link d k, m.gm)

/-- The device's choice. [log DESIGN CHOICE 218] -/
def bestSource (s : State) : Option (Nat × Nat × Nat × TimeSrc × Nat) :=
  (sourcesOf s .west ++ sourcesOf s .east).foldl (fun b c => match b with
    | none => some c
    | some a => some (betterSource a c)) none

/-- TIM_STATUS.SOURCE with SOURCE_DIE in bit 7. -/
def sourceCode : TimeSrc → Nat
  | .none => 0x7E
  | .pps => 0x7F
  | .link d k => k + 128 * d.idx

/-! ## States (R401, R402) -/

/-- Enter a time state: EV_TIME_STATE from both dies and source 1,891. -/
def timeGo (s : State) (st : TimeSt) : State :=
  if s.time.st = st then s
  else
    let s := onTime s fun t => { t with st := st, inThresh := 0 }
    let s := postBoth s 0x71 (evb 8 (timeStCode st) + evb 9 (sourceCode s.time.src) + evb 12 s.time.estErr)
    raiseLocal (raiseLocal s .west 1891) .east 1891

/-- HOLDOVER: the last frequency estimate is kept and EST_ERR grows from its value now (R402). -/
def timeHoldover (s : State) : State :=
  timeGo (onTime s fun t => { t with holdSince := s.now, holdErr := t.estErr, slew := 0 }) .holdover

/-- Take a source. -/
def takeSource (s : State) : State :=
  match bestSource s with
  | some (n, _, _, src, gm) => onTime s fun t => { t with src := src, stratum := min 15 n, gm := gm, sourceAt := s.now }
  | none => onTime s fun t => { t with src := .none, stratum := 15 }

/-- A die's TIM block is in FAULT: device time runs on by the always-on count, and nothing is measured (R422). -/
def timDown (s : State) : Bool := blockDown s .west 0x03 || blockDown s .east 0x03

/-- The source is lost (R400, R401). [log DEDUCED 140] -/
def sourceLost (s : State) : State :=
  let was := s.time.st
  let s := takeSource s
  if (was = .locked ∧ s.time.src = .none) ∨ (was = .acquiring ∧ s.time.set = true) then timeHoldover s else s

/-- Source selection runs again: after a TIME activation, and at RESELECT. [log DEDUCED 141] -/
def timeReselect (s : State) : State :=
  let had := decide (s.time.src ≠ .none)
  let s := takeSource s
  if had && decide (s.time.src = .none ∧ (s.time.st = .locked ∨ (s.time.st = .acquiring ∧ s.time.set = true))) then timeHoldover s else s

/-- The source's link has left UP, or it has fallen silent (R400). -/
def sourceGone (s : State) : Bool :=
  match s.time.src with
  | .none => false
  | .pps => !(ppsPresent s)
  | .link d k => decide ((link s d k).st ≠ .up ∨ s.now ≥ s.time.sourceAt + 500000)

/-! ## Loads, slews and steps (R403 to R406) -/

/-- Load device time: a due step is cancelled, and SET is set (R406, R407). [log DEDUCED 147] -/
def timeLoad (s : State) (ns : Nat) : State :=
  onTime s fun t =>
    { t with ns := ns % 2 ^ 64, frac := 0, set := true, slew := 0, step := none, refusedStep := false, setAtPps := none, inThresh := 0
             ppsNext := (ns + secNs - 1) / secNs }

/-- No epoch or gate activation is pending near a step at `b` of `Δ` (R404). [log DEDUCED 145] -/
def stepAllowed (s : State) (b : Nat) (delta : Int) : Bool :=
  let lo := Int.ofNat b - delta.natAbs
  let hi := Int.ofNat b + 2000000000 + delta.natAbs
  let clear (t : Nat) : Bool := decide (Int.ofNat t < lo ∨ Int.ofNat t > hi)
  [Die.west, Die.east].all fun d =>
    ((die s d).epc.doms.all fun (_, x) => match x.pend with
      | some p => clear p.actTime
      | none => true) &&
    (die s d).sch.gates.all fun (_, g) => !g.pending || clear g.pendTime

/-- The next whole second of device time. -/
def nextSecond (s : State) : Nat := (s.time.ns / secNs + 1) * secNs

/-- The most that a tick's increment departs from 2 ns, in units of 2^−32 ns (R397). -/
def slewLimit (s : State) : Nat := 2 * 4294967296 * slewMax s / 1000000

/-- The frequency estimate after a measurement: the discipline's own, a free value within SLEW_MAX. -/
def freqDraw (s : State) : State :=
  let r := takeFree s
  onTime r.2 fun t => { t with freq := Int.ofNat (r.1.toNat % (2 * slewLimit s + 1)) - Int.ofNat (slewLimit s) }

/-- Slew by an offset, in units of 2^−32 ns. -/
def slewBy (s : State) (delta : Int) : State := onTime s fun t => { t with slew := delta * 4294967296 }

/-- Correct an offset as on a source's return (R403). -/
def correct (s : State) (delta : Int) : State :=
  if delta.natAbs < 10000 then slewBy s delta
  else if Int.ofNat delta.natAbs ≥ halfSec ∨ s.time.step.isSome = true then s
  else if s.time.refusedStep = false ∧ stepAllowed s (nextSecond s) delta = true then
    onTime s fun t => { t with step := some (nextSecond s, delta), slew := 0 }
  else slewBy (onTime s fun t => { t with refusedStep := true }) delta

/-- A source is refused for its distance (R401). [log DEDUCED 146] -/
def timeFar (s : State) (delta : Int) : State :=
  let lim := max (-9223372036854775808) (min 9223372036854775807 delta)
  postBoth (onTime s fun t => { t with far := true }) 0x73 (evb 8 (sourceCode s.time.src) + evb 16 ((lim % 18446744073709551616).toNat))

/-- An offset measured against the source (R401): source minus device. [log DESIGN CHOICE 143] -/
def measured (s : State) (delta : Int) : State :=
  let s := onTime s fun t => { t with lastOffset := delta }
  if timDown s then s
  else if s.time.set = false then timeLoad s ((Int.ofNat s.time.ns + delta) % 18446744073709551616).toNat
  else if Int.ofNat delta.natAbs ≥ halfSec ∧ s.time.st ≠ .locked then timeFar s delta
  else
    let r := takeFree s
    let s := freqDraw (onTime r.2 fun t => { t with far := false, estErr := r.1.toNat % 16777216 })
    let near := decide (delta.natAbs < lockThresh s)
    let s := if near then onTime s fun t => { t with refusedStep := false } else s
    match s.time.st with
    | .acquiring =>
      let s := onTime s fun t => { t with inThresh := if near then t.inThresh + 1 else 0 }
      let s := correct s delta
      if s.time.inThresh ≥ 16 then timeGo s .locked else s
    | .locked => if delta.natAbs ≥ 10000 then correct (timeGo s .acquiring) delta else slewBy s delta
    | _ => correct (timeGo s .acquiring) delta

/-- A whole second of device time is reached: PPS_OUT rises for 100 ms, once for each second (R402, R405, R455). -/
def ppsOut (s : State) : State :=
  let t := s.time
  let s := match t.ppsFall with
    | some f => if s.now ≥ f then emit (onTime s fun t => { t with ppsFall := none }) (.pin "PPS_OUT" 0) else s
    | none => s
  if t.set = true ∧ t.ns ≥ t.ppsNext * secNs then
    emit (onTime s fun t => { t with ppsNext := t.ns / secNs + 1, ppsFall := some (s.now + 100000000) }) (.pin "PPS_OUT" 1)
  else s

/-- EST_ERR as HOLDOVER and FREE-RUN have grown it (R402). -/
def grownErr (s : State) : Nat :=
  if s.time.st = .holdover ∨ s.time.st = .freeRun then
    min 0xFFFFFF (s.time.holdErr + holdPpb s * (s.now - s.time.holdSince) / 1000000000)
  else s.time.estErr

/-- One 500 MHz TIME tick (R397): 2 ns corrected by the frequency estimate and, while an offset is being slewed, towards it,
within SLEW_MAX. In Standby a 25 MHz tick advances 40 ns at the last estimate (R438). `now` has advanced. -/
def timeTick (s : State) : State :=
  if s.sys.inReset then s
  else
    let lim : Int := Int.ofNat (slewLimit s)
    let dep := if s.sys.mode = .standby then s.time.freq else max (-lim) (min lim (s.time.freq + s.time.slew))
    let adv : Int := if s.sys.mode = .standby then (if s.now % 40 = 0 then 20 * (8589934592 + dep) else 0) else 8589934592 + dep
    let total := (Int.ofNat (s.time.ns * 4294967296 + s.time.frac) + adv).toNat
    let s := onTime s fun t =>
      { t with ns := total / 4294967296 % 2 ^ 64, frac := total % 4294967296, slew := t.slew - (dep - t.freq), estErr := grownErr s }
    ppsOut s

/-- The due step (R404, R405): refused at B, the slew replaces it. -/
def stepApply (s : State) : State :=
  match s.time.step with
  | some (b, delta) =>
    if s.time.ns < b then s
    else if stepAllowed s b delta then
      let s := onTime (ppsOut s) fun t => { t with ns := ((Int.ofNat t.ns + delta) % 18446744073709551616).toNat, step := none }
      postBoth s 0x72 (evb 8 ((delta % 18446744073709551616).toNat) + evb 16 b)
    else slewBy (onTime s fun t => { t with step := none, refusedStep := true }) delta
  | none => s

/-! ## The rows -/

/-- TIME_SEND: every 100 µs on an UP link (R398). -/
def execTimeSend (d : Die) (k : Nat) (s : State) : Host.Outcome State Fault Refusal :=
  let l := link s d k
  let due := match l.timeAt with
    | some t => decide (s.now ≥ t + 100000)
    | none => true
  if l.st = .up ∧ due = true then
    .next (putFlits (modLink s d k fun l => { l with timeAt := some s.now }) d k
      [timeFlit { st := timeStCode s.time.st, set := s.time.set, stratum := s.time.stratum, gm := s.time.gm, tTx := s.time.ns
                  tEcho := l.timeTx, tRx := l.timeRx, estErr := s.time.estErr, arrival := 0, retx := false }])
  else .next s

/-- A TIME flit: stored for the echo; from the source it measures an offset (R398 to R401). -/
def timeReceive (s : State) (d : Die) (k : Nat) (m : TimeFlit) : State :=
  if m.retx = true ∨ m.stratum = 15 then s
  else
    let s := modLink s d k fun l => { l with timeTx := m.tTx, timeRx := m.arrival, timeFlit := some m, timeSeen := s.now }
    let s := if sourceGone s then sourceLost s else s
    let s := if s.time.src = .none then takeSource s else s
    if s.time.src = .link d k then
      let s := onTime s fun t => { t with sourceAt := s.now }
      if m.tEcho = 0 then s
      else
        measured s (Int.tdiv ((Int.ofNat m.tRx - Int.ofNat m.tEcho) + (Int.ofNat m.tTx - Int.ofNat m.arrival)) 2)
    else s

/-- TIME_RECEIVE. -/
def execTimeReceive (d : Die) (k : Nat) (m : TimeFlit) (s : State) : Host.Outcome State Fault Refusal := .next (timeReceive s d k m)

/-- TIME_SOURCE_TIMEOUT. -/
def execTimeSourceTimeout (s : State) : Host.Outcome State Fault Refusal := if sourceGone s then .next (sourceLost s) else .next s

/-- The offset of a PPS_IN edge from the nearest whole second. -/
def ppsOffset (s : State) : Int :=
  let f := s.time.ns % secNs
  if f < 500000000 then -Int.ofNat f else Int.ofNat (secNs - f)

/-- A PPS_IN edge (R455): the first, or 1 s ± 1 ms after the previous used one; others are ignored. [log DEDUCED 144] -/
def ppsEdge (s : State) : State :=
  let used := match s.time.ppsAt with
    | some t => !(ppsPresent s) || decide (t + 999000000 ≤ s.now ∧ s.now ≤ t + 1001000000)
    | none => true
  if !used then s
  else
    let s := onTime s fun t => { t with ppsAt := some s.now }
    match s.time.setAtPps with
    | some v => timeLoad s v
    | none =>
      let s := if sourceGone s then sourceLost s else s
      let s := if s.time.src = .none then takeSource s else s
      if s.time.src = .pps then measured (onTime s fun t => { t with sourceAt := s.now }) (ppsOffset s) else s

/-- PPS_IN_EDGE. -/
def execPpsInEdge (s : State) : Host.Outcome State Fault Refusal := .next (ppsEdge s)

/-- HOLDOVER_EXPIRY: 300 s in HOLDOVER, or EST_ERR above 1 µs. -/
def execHoldoverExpiry (s : State) : Host.Outcome State Fault Refusal :=
  if s.time.st = .holdover ∧ (s.now ≥ s.time.holdSince + 300000000000 ∨ grownErr s > 1000) then .next (timeGo s .freeRun) else .next s

/-- TIME_STEP_APPLY. -/
def execTimeStepApply (s : State) : Host.Outcome State Fault Refusal := .next (stepApply s)

/-- A domain's activation takes effect where it is due and no earlier one of the die is (R389). -/
def epochSettle (s : State) (d : Die) (n : Nat) : State :=
  match (dom s d n).pend with
  | some p =>
    if p.actTime ≤ s.time.ns ∧ dueBefore s d n p = false then
      let s := domActivate s d n p
      if n = 5 then timeReselect s else s
    else s
  | none => s

/-- EPOCH_ACTIVATION: device time has reached ACT_TIME (R389). -/
def execEpochActivation (d : Die) (n : Nat) (s : State) : Host.Outcome State Fault Refusal := .next (epochSettle s d n)

/-- An activation of a die is due: device time has reached its ACT_TIME. -/
def actsDue (s : State) (d : Die) : Bool :=
  ((die s d).epc.doms.any fun (_, x) => match x.pend with
    | some p => decide (p.actTime ≤ s.time.ns)
    | none => false) ||
  (die s d).sch.gates.any fun (_, g) => g.pending && decide (g.pendTime ≤ s.time.ns)

/-- A die's due activations take effect, domains before gates: a command that reaches check 4 in their nanosecond is judged
against the state they left (R246, R389). -/
def actsSettle (s : State) (d : Die) : State :=
  if actsDue s d then
    let s := (List.range 8).foldl (fun s _ => (List.range 8).foldl (fun s n => epochSettle s d n) s) s
    (die s d).sch.gates.foldl (fun s (k, _) => gateSettle s d (kPort d k)) s
  else s

/-! ## MG_TIME_CTL (R407) -/

/-- A 64-bit two's-complement number. -/
def signed64 (n : Nat) : Int := if n < 2 ^ 63 then Int.ofNat n else Int.ofNat n - 18446744073709551616

/-- MG_TIME_CTL. [log DEDUCED 142] -/
def mgTimeCtl (s : State) (b : Block) : MgRes :=
  let a := fld b 20 0 2
  let v := fld b 24 0 64
  let form := zeros b [(20, 2, 6), (21, 0, 24)] && zeroFrom b 32 && decide (a ≠ 3) && (a != 0 || v % secNs == 0)
    && (a != 1 || decide (Int.ofNat (signed64 v).natAbs < halfSec)) && (a != 2 || v == 0)
  if !form then mgMalformed
  else if a = 2 then .ok (timeReselect s) 0
  else if pendingAny s then mgState 0x05
  else if a = 0 then
    if s.time.st = .locked then mgState 0
    else if anyGrandmaster s && ppsPresent s then .ok (onTime s fun t => { t with setAtPps := some v, step := none }) 0
    else .ok (timeLoad s v) 0
  else if s.time.step.isSome then mgState 0x08
  else .ok (onTime s fun t => { t with step := some (nextSecond s, signed64 v) }) 0

end Sys2Proof.Machine
end

