-- ==== Sys2Proof/Machine/Engines.lean ====
section
/-! DEFINITION. Carrel pairs and coherence (R352 to R361): line transitions, the directory, the death of a pair and the
re-execution of its commands. Lines hold engine staging and scratch, whose bytes the spec does not describe: their states
are modelled, not their contents. -/

namespace Sys2Proof.Machine

open Sys2Proof

/-! ## Coherence (R355 to R358) -/

def lineAt (s : State) (home : Die) (a : Nat) : Line := tget {} (die s home).eng.lines a
def setLine (s : State) (home : Die) (a : Nat) (l : Line) : State := onEng s home fun e => { e with lines := tset {} e.lines a l }

/-- The state of a line in one pair's cache. -/
def holds (l : Line) (p : Nat) : LineSt := tget .i l.holders p

/-- A line of HBM moves a burst to its cache (R276, RD_BURST), or back from an M or O copy (WR_BURST); SRAM lines, whose keys are odd,
move none. [log DEDUCED 103] -/
def hbmBurst (s : State) (home : Die) (a i : Nat) : State := if a % 2 = 0 then pmc s home i 1 else s
def dirty (x : LineSt) : Bool := decide (x = .m ∨ x = .o)
def writeBack (s : State) (home : Die) (a : Nat) (yes : Bool) : State := if yes then hbmBurst s home a 673 else s

/-- The directory evicts a line: M or O data is written back and every copy invalidated. -/
def dirEvict (s : State) (home : Die) (a : Nat) : State :=
  let l := lineAt s home a
  if l.holders = [] then s else pmc (writeBack (setLine s home a {}) home a (l.holders.any fun (_, x) => dirty x)) home 642 1

/-- Room in the directory's 49,152 entries for a line it does not list; which entry goes is not stated. [log DESIGN CHOICE 130] -/
def dirRoom (s : State) (home : Die) (a : Nat) : State :=
  let ls := (die s home).eng.lines.filter fun (_, l) => !l.holders.isEmpty
  if (lineAt s home a).holders = [] ∧ ls.length ≥ 49152 then
    let r := takeFree s
    match ls[r.1.toNat % ls.length]? with
    | some (b, _) => dirEvict r.2 home b
    | none => r.2
  else s

/-- The lines a pair's cache holds, of either home. -/
def cacheLines (s : State) (k : Nat) : List (Die × Nat) :=
  let of (h : Die) : List (Die × Nat) := ((die s h).eng.lines.filter fun (_, l) => decide (holds l k ≠ .i)).map fun x => (h, x.1)
  of .west ++ of .east

/-- Own eviction: M and O write back, E and S notify the directory (R356). -/
def evictOwn (s : State) (k : Nat) (home : Die) (a : Nat) : State :=
  let l := lineAt s home a
  writeBack (setLine s home a { holders := tdel l.holders k }) home a (dirty (holds l k))

/-- Room for a line in a pair's 64 KiB cache, 1,024 lines (R7, R355); which line goes is not stated. -/
def cacheRoom (s : State) (k : Nat) : State :=
  let ls := cacheLines s k
  if ls.length < 1024 then s
  else
    let r := takeFree s
    match ls[r.1.toNat % ls.length]? with
    | some (h, b) => evictOwn r.2 k h b
    | none => r.2

/-- A miss: room in the cache and the directory, and the data from another cache or from home. -/
def lineMiss (s : State) (d : Die) (p : Nat) (home : Die) (a : Nat) : State :=
  let s := dirRoom (cacheRoom (pmcAt s d 641 1 (engCtx p 0)) (pairKey d p)) home a
  if (lineAt s home a).holders.any (fun (_, x) => decide (x = .m ∨ x = .o ∨ x = .e)) then s else hbmBurst s home a 672

/-- The line after pair `p` reads it: with no other copy E; M, O and E holders supply the data. -/
def readLine (l : Line) (p : Nat) : Line :=
  let down (x : LineSt) : LineSt := match x with
    | .m => .o
    | .e => .s
    | y => y
  { holders := tset .i (l.holders.map fun (q, x) => (q, down x)) p (if l.holders = [] then .e else .s) }

/-- An access by a pair to a line of `home`: a precise bus error when the split lies between (R358). [log DEDUCED 129] -/
def lineAccess (s : State) (d : Die) (p : Nat) (home : Die) (f : State → State) : State :=
  if (tget {} (die s d).eng.pairs p).st ≠ .active then s
  else if splitNow s && decide (home ≠ d) then emit s (.exception d p)
  else f s

/-- CACHE_READ. -/
def cacheRead (s : State) (d : Die) (p : Nat) (home : Die) (a : Nat) : State :=
  let k := pairKey d p
  lineAccess s d p home fun s =>
    if holds (lineAt s home a) k ≠ .i then pmcAt s d 640 1 (engCtx p 0)
    else
      let s := lineMiss s d p home a
      setLine s home a (readLine (lineAt s home a) k)

def execCacheRead (d : Die) (p : Nat) (home : Die) (a : Nat) (s : State) : Host.Outcome State Fault Refusal := .next (cacheRead s d p home a)

/-- CACHE_WRITE: the writer's copy becomes M and every other is invalidated. -/
def cacheWrite (s : State) (d : Die) (p : Nat) (home : Die) (a : Nat) : State :=
  let k := pairKey d p
  lineAccess s d p home fun s =>
    let s := if holds (lineAt s home a) k ≠ .i then pmcAt s d 640 1 (engCtx p 0) else lineMiss s d p home a
    setLine s home a { holders := [(k, .m)] }

def execCacheWrite (d : Die) (p : Nat) (home : Die) (a : Nat) (s : State) : Host.Outcome State Fault Refusal := .next (cacheWrite s d p home a)

/-- CACHE_EVICT: M and O write back, E and S notify the directory. -/
def cacheEvict (s : State) (d : Die) (p : Nat) (home : Die) (a : Nat) : State :=
  lineAccess s d p home fun s => evictOwn s (pairKey d p) home a

def execCacheEvict (d : Die) (p : Nat) (home : Die) (a : Nat) (s : State) : Host.Outcome State Fault Refusal := .next (cacheEvict s d p home a)

/-- DIRECTORY_EVICT. -/
def execDirectoryEvict (home : Die) (a : Nat) (s : State) : Host.Outcome State Fault Refusal := .next (dirEvict s home a)

/-! ## Pairs (R352, R359 to R361) -/

def pairOf (s : State) (d : Die) (p : Nat) : Pair := tget {} (die s d).eng.pairs p
def modPair (s : State) (d : Die) (p : Nat) (f : Pair → Pair) : State := onEng s d fun e => { e with pairs := tmod {} e.pairs p f }

/-- ENG_PAIR_STATUS.STATE codes. -/
def pairStCode : PairSt → Nat
  | .untested => 0 | .active => 1 | .spare => 2 | .retesting => 3 | .failed => 4

/-- A pair changes state: EV_ENG_PAIR with the commands moved, and its source. -/
def pairGo (s : State) (d : Die) (p : Nat) (st : PairSt) (moved : Nat) : State :=
  let s := modPair s d p fun x => { x with st := st }
  raiseLocal (postMgmt s d 0x62 (evb 8 d.idx + evb 9 p + evb 10 (pairStCode st) + evb 12 moved)) d (1904 + p)

/-- Pairs of a die in a state, lowest first. -/
def pairsIn (s : State) (d : Die) (st : PairSt) : List Nat := (List.range 32).filter fun p => decide ((pairOf s d p).st = st)

/-- A lockstep mismatch kills its pair (R359): its commands wait for another pair, its lines are reclaimed, its semaphores
become ORPHANED. -/
def killPair (s : State) (d : Die) (p : Nat) : State :=
  let ops := (pairOf s d p).threads.filterMap id
  let s := ops.foldl (fun s o => modOp s o fun x => { x with thread := none, read := none, begun := false }) (abandonReads s fun r => ops.any fun o => decide (r.owner = .op o))
  let s := modPair s d p fun x =>
    { x with mismatches := satInc 8 x.mismatches, threads := [none, none, none, none], deadOps := x.deadOps ++ ops }
  let dead (q : Nat) : Bool := q == pairKey d p
  let s := reclaim (reclaim (pmcAt s d 645 1 (engCtx p 0)) .west dead) .east dead
  let s := orphanAll s fun m => match m with
    | .carrel d' p' _ => decide (d' = d ∧ p' = p)
    | _ => false
  judgeMode (pairGo s d p .failed ops.length)

/-- A free thread of an active pair of a die. -/
def freeThreads (s : State) (d : Die) : List (Nat × Nat) :=
  (pairsIn s d .active).flatMap fun p =>
    ((List.range 4).filter fun t => ((pairOf s d p).threads.getD t none).isNone).map fun t => (p, t)

/-- Put an operation on a thread. -/
def putThread (s : State) (d : Die) (o : Nat) (p : Nat × Nat) : State :=
  modPair (modOp s o fun x => { x with thread := some p }) d p.1 fun q => { q with threads := setAt q.threads p.2 (some o) }

/-- A dead pair's commands move to the threads of a spare pair, or, with none left, to free threads of the die (R359, R361): each begins its present stride again from
its resume record (R73). -/
def reexecute (s : State) (d : Die) (p : Nat) : State :=
  if (pairOf s d p).st ≠ .failed ∧ (pairOf s d p).deadOps = [] then s
  else
    let ops := (pairOf s d p).deadOps.filter fun o => liveOp s o
    let spare := if (pairsIn s d .active).length < 30 then (pairsIn s d .spare).head? else none
    let s := match spare with
      | some q => pairGo s d q .active ops.length
      | none => s
    let threads := match spare with
      | some q => (freeThreads s d).filter fun x => decide (x.1 = q)
      | none => freeThreads s d
    let moves := ops.zip threads
    let s := moves.foldl (fun s m => putThread (modOp s m.1 fun x => { x with read := none, begun := false }) d m.1 m.2) s
    modPair (pmcAt s d 644 moves.length (match moves.getLast? with | some m => engCtx m.2.1 m.2.2 | none => 0)) d p fun x => { x with deadOps := ops.drop moves.length }

/-- PAIR_REEXECUTE. -/
def execPairReexecute (d : Die) (p : Nat) (s : State) : Host.Outcome State Fault Refusal := .next (reexecute s d p)

end Sys2Proof.Machine
end

