-- ==== Sys2Proof/Machine/Lookout.lean ====
section
/-! DEFINITION. The Lookout (R416 to R426): error records, the collector, fault classes and reactions, quiet periods and
MG_FAULT_RELEASE; entry into Forensic (R427); the death and retest of a Carrel pair as the Lookout sees them (R359, R361). -/

namespace Sys2Proof.Machine

open Sys2Proof

/-! ## Forensic entry (R427) -/

/-- Safe idle: a network link that is not DOWN or FAILED sends training frames with RX_READY clear. [log DEDUCED 112] -/
def safeIdle (s : State) (d : Die) : State :=
  (die s d).links.foldl (fun s (k, l) =>
    if l.st = .down ∨ l.st = .failed then s
    else emit (modLink s d k fun l => { linkIdle l with st := .training, train := .waitSignal, stAt := s.now }) (.linkTrain d k)) s

/-- Enter Forensic: the mode, HEARTBEAT low, safe idle, forwarded clocks stopped; the Archive begins. `why` is EV_MODE's
cause, `cause` the Archive's (none: forced). -/
def forensicEnter (s : State) (why : Nat) (cause : Option Nat) : State :=
  if forensic s then s
  else
    let old := modeCode s.sys.mode
    let s := setMode s .forensic why
    let s := { s with arch := { s.arch with valid := false, copied := false, copying := false, cause := cause, modeBefore := old, timeAt := s.time.ns, enteredAt := s.now
                                            router := routerAddrReg s .west, sha := s.sys.imageSha, lost := s.sys.hbmLost }
                      sys := { s.sys with heartbeat := .low } }
    let s := safeIdle (safeIdle s .west) .east
    emits s [.clockStop .west .north, .clockStop .west .south, .clockStop .east .north, .clockStop .east .south]

/-! ## Block-fatal reactions (R422) -/

/-- Blocks whose uncontained fault is always DEVICE-FATAL (R421). -/
def deviceFatalBlock (b : Nat) : Bool := b ∈ [0x00, 0x01, 0x02, 0x18, 0x17, 0x0F, 0x10]

/-- A unit enters FAULT for LKO_CFG.QUIET; a unit in FAULT begins its quiet period again (R423, R424). -/
def unitFault (s : State) (d : Die) (b u : Nat) : State :=
  modUnit s d b u fun x =>
    { x with st := .fault, quietEnd := s.now + 1000000 * bits (regVal s d 0x100000) 0 16 }

/-- Connections homed on a die fail with CC_POISON when its stack is lost. -/
def failHomed (s : State) (d : Die) : State :=
  (die s d).conns.foldl (fun s (c, k) => if k.st = .failed then s else failConn s d c 0x07 0x03 true) s

/-- An HBM stack is lost (R422). -/
def hbmLose (s : State) (d : Die) : State :=
  let s := { s with sys := { s.sys with hbmLost := addNew s.sys.hbmLost d.idx } }
  let s := failHomed s d
  let is := (s.insts.filter fun (i, x) => decide (x.st ≠ .absent) && decide (instDie s i = d)).map (·.1)
  let s := is.foldl (fun s i => (instOps s i).foldl (fun s o => if liveOp s o then failOp s o 0x07 0x01 else s) s) s
  let s := is.foldl (fun s i => (instRings s d i).foldl (fun s n => ringPause s d n) (setInstSt s i .quiesced 6)) s
  judgeMode s

/-- The Catalog of a die loses its state: posted receives end poisoned, unexpected messages are discarded (R164, R422). -/
def catLose (s : State) (d : Die) : State :=
  (die s d).cat.ctxs.foldl (fun s (k, x) =>
    let i := k / 65536
    let c := k % 65536
    let s := modCtx s d i c fun x => { x with posted := [], unexp := [] }
    let s := x.posted.foldl (fun s r => failOp s r.op 0x07 0x01) s
    let s := (x.unexp.filter fun u => !u.eager).foldl (fun s u => refuseRts s d u) s
    let n := (x.unexp.filter (·.eager)).length
    if n > 0 then postInst s i 0x31 (evb 8 c + evb 12 n) else s) s

/-- A die-local host port is held as by PERST_N. -/
def portHold (s : State) (d : Die) (u : Nat) : State :=
  let p := 4 * d.idx + u % 4
  (List.range 4).foldl (fun s l => if linkExists s p l then hostLinkDown s p l 3 else s) s

/-- The reaction to a BLOCK-FATAL fault while its unit is in FAULT. [log DEDUCED 111] -/
def blockFatal (s : State) (d : Die) (b u : Nat) : State :=
  let each (n : Nat) : List Nat := if u = 0xFFFF then List.range n else [u]
  if b = 0x12 then (each 64).foldl (fun s k => linkFault s d k 3) s
  else if b = 0x14 then
    (each 2).foldl (fun s x =>
      let br := if x = 0 then Bridge.north else .south
      emit (brgFault s d br 0) (.clockStop d br)) s
  else
    let s := unitFault s d b u
    if b = 0x13 then (each 8).foldl (fun s m => (List.range 8).foldl (fun s i => linkFault s d (8 * m + i) 3) s) s
    else if b = 0x08 then (each 4).foldl (fun s p => portHold s d p) s
    else if b = 0x09 then
      onDie (onHst s d fun h => { h with tlb := [] }) d fun x => { x with conns := tmapv {} x.conns fun _ k => { k with cached := false } }
    else if b = 0x0C then catLose s d
    else if b = 0x0D then (die s d).bnd.foldl (fun s (c, _) => bndFail s d c 0x02 true) s
    else if b = 0x0E then onRtr s d fun r => { r with boom := [] }
    else if b = 0x16 then hbmLose s d
    else if b = 0x04 then onEng s d fun e => { e with srcs := tmapv {} e.srcs fun _ x => { level := x.level, lastTgt := x.lastTgt } }
    else if b = 0x05 then orphanDie s d fun _ => true
    else if b = 0x03 then if s.time.st = .locked ∨ s.time.st = .acquiring then timeHoldover s else s
    else s

/-! ## The collector (R417, R419, R420, R424) -/

/-- EV_FAULT with ERR_STATUS as collected. -/
def evFault (s : State) (d : Die) (b : Nat) : State := postMgmt s d 0x02 (evb 8 d.idx + evb 9 b + evb 16 (errStatus s d b))

/-- CAUSE of the Archive header (R430). -/
def archCause (s : State) (d : Die) (b : Nat) : Nat :=
  let e := errRec s d b
  b + d.idx * 2 ^ 8 + e.unit * 2 ^ 16 + e.code * 2 ^ 32 + e.cls * 2 ^ 48

/-- A DEVICE-FATAL fault: Forensic once firmware runs; before, the device stays in Bring-up with FATAL (R414). -/
def deviceFatal (s : State) (d : Die) (b : Nat) : State :=
  if s.sys.mode = .standby ∨ s.sys.inReset = true then s
  else if s.sys.mode = .bringup ∧ s.sys.bootStage < 4 then { s with sys := { s.sys with bootStatus := 2 } }
  else forensicEnter s 2 (some (archCause s d b))

/-- Of two dies' reports that fall together West's is the cause (R424). -/
def westFirst (s : State) (d : Die) (b : Nat) : State :=
  match s.arch.cause with
  | some c =>
    if d = .west ∧ bit c 8 = true ∧ s.now = s.arch.enteredAt then { s with arch := { s.arch with cause := some (archCause s .west b) } } else s
  | none => s

/-- The reaction of the collected record's class. -/
def reactErr (s : State) (d : Die) (b : Nat) : State :=
  let e := errRec s d b
  if e.cls = 1 then
    let post := match e.evAt with
      | some t => decide (s.now ≥ t + 1000000000)
      | none => true
    if post then modErr (evFault s d b) d b fun e => { e with evAt := some s.now } else s
  else if e.cls = 2 then (if b = 0x16 then s else tellDeferred s d)
  else if e.cls = 3 then
    let s := blockFatal (evFault s d b) d b e.unit
    if b = 0x15 ∧ e.unit < 32 then killPair s d e.unit else s
  else if e.cls = 4 then deviceFatal s d b
  else s

/-- Collect a block's record: log, react, clear PENDING. -/
def collect (s : State) (d : Die) (b : Nat) : State :=
  if (errRec s d b).pending then
    let s := reactErr (logErr s d b) d b
    errLevel (modErr s d b fun e => { e with pending := false }) d b
  else s

/-- The class as the Lookout takes it (R421). -/
def faultClass (b : Nat) : FaultClass → FaultClass
  | .blockFatal => if deviceFatalBlock b then .deviceFatal else .blockFatal
  | c => c

/-- A die with no ACTIVE or SPARE pair left has a BLOCK-FATAL fault of its ENG block (R361). -/
def pairsGone (s : State) (d : Die) : Bool := decide (pairsLost s d = 32)

/-- A block reports a fault. -/
def reportOne (s : State) (d : Die) (b u : Nat) (cls : FaultClass) (code : Nat) : State :=
  let c := faultClass b cls
  let again := decide (c = .blockFatal ∧ (unitOf s d b u).st = .fault)
  let busy := recovering s d b
  let new := !(keepsRec (errRec s d b) c)
  let s := recordErr s d b u c code
  if collecting s && (!busy || decide (c = .deviceFatal)) then collect s d b
  else
    let s := if again then unitFault s d b u else s
    let s := if c = .deviceFatal then
        (if forensic s then modErr (logErr (westFirst s d b) d b) d b fun e => { e with pending := false } else deviceFatal s d b)
      else s
    ownInt s d b new

/-- LOOKOUT_REPORT; the loss of a die's last pair is a fault of the whole ENG block. -/
def report (s : State) (d : Die) (b u : Nat) (cls : FaultClass) (code : Nat) : State :=
  let gone := pairsGone s d
  let s := reportOne s d b u cls code
  if b = 0x15 ∧ gone = false ∧ pairsGone s d = true then
    let r := takeFree s
    reportOne r.2 d 0x15 0xFFFF .blockFatal (r.1.toNat % 65536)
  else s

/-- LOOKOUT_REPORT. [log DESIGN CHOICE 177] -/
def execLookoutReport (d : Die) (b u : Nat) (cls : FaultClass) (code : Nat) (s : State) : Host.Outcome State Fault Refusal :=
  .next (if s.sys.inReset then s else report s d (b % 32) (u % 65536) cls (code % 65536))

/-- A fault whose code the spec does not give. [log DESIGN CHOICE 166] -/
def reportOwn (s : State) (d : Die) (b u : Nat) (cls : FaultClass) : State :=
  let r := takeFree s
  report r.2 d b u cls (r.1.toNat % 65536)

/-- LOCKSTEP_MISMATCH: the pair dies and the Lookout records a BLOCK-FATAL fault of ENG (R359, R422). While the block is in
recovery, or with no collector, the pair dies all the same. -/
def lockstep (s : State) (d : Die) (p : Nat) : State :=
  let st := (pairOf s d p).st
  if st = .failed ∨ st = .untested then s
  else
    let s := reportOwn s d 0x15 p .blockFatal
    let s := if (pairOf s d p).st = .failed then s else killPair (unitFault s d 0x15 p) d p
    s

def execLockstepMismatch (d : Die) (p : Nat) (s : State) : Host.Outcome State Fault Refusal :=
  .next (if p < 32 then lockstep s d p else s)

/-! ## Broken wires (R418) -/

/-- LOOKOUT_WIRE_BROKEN: polling begins, EV_LKO_WIRE at most once per pair and 1 s, a CORRECTED fault of LKO. [log DEDUCED 167] -/
def wireBroken (s : State) (d : Die) (b : Nat) (cls : FaultClass) : State :=
  let c := classCode cls
  let last := tget 0 (errRec s d b).wireEvAt c
  let post := decide (last = 0 ∨ s.now + 1 ≥ last + 1000000000)
  let s := modErr s d b fun e =>
    { e with wireBroken := addNew e.wireBroken c, wireEvAt := if post then tset 0 e.wireEvAt c (s.now + 1) else e.wireEvAt }
  let s := if post then postMgmt s d 0x03 (evb 8 d.idx + evb 9 b + evb 10 c) else s
  reportOwn s d 0x01 0xFFFF .corrected

def execLookoutWireBroken (d : Die) (b : Nat) (cls : FaultClass) (s : State) : Host.Outcome State Fault Refusal :=
  .next (if collecting s then wireBroken s d b cls else s)

/-- LOOKOUT_POLL: every 1 µs the record of a block with a broken wire is read as if a report were standing, until the wires
agree again. -/
def lookoutPoll (s : State) (d : Die) (b : Nat) (agree : Bool) : State :=
  if collecting s && !(errRec s d b).wireBroken.isEmpty && decide (s.now ≥ (errRec s d b).pollAt + 1000) then
    let s := modErr s d b fun e => { e with pollAt := s.now, wireBroken := if agree then [] else e.wireBroken }
    if recovering s d b then s else collect s d b
  else s

def execLookoutPoll (d : Die) (p : WirePoll) (s : State) : Host.Outcome State Fault Refusal := .next (lookoutPoll s d p.blk p.agree)

/-! ## The end of a quiet period (R361, R423) and MG_FAULT_RELEASE (R425) -/

/-- The recovery of a block, or of the HBM stack: its counts, records and latched views are as after reset, its configuration
stays (R473). [log DEDUCED 201] -/
def statusReset (s : State) (d : Die) (b u : Nat) : State :=
  if u = 0xFFFF ∨ b = 0x16 then
    let mine (k : Nat) : Bool := decide (k / 0x4000000 = d.idx ∧ k % 0x4000000 / 0x100000 = b)
    let s := { s with regs := s.regs.filter fun (k, _) => !(mine k && countReg (k % 0x4000000)), views := s.views.filter fun (k, _) => !(mine k) }
    if b = 0x05 then setLevel s d 1899 false else if b = 0x16 then setLevel s d 1900 false else s
  else s

/-- What follows when a unit leaves FAULT with its self-test passed. -/
def unitBack (s : State) (d : Die) (b u : Nat) : State :=
  if b = 0x16 then
    -- the stack returns empty: no unit of it is poisoned
    let s := onEng s d fun e => { e with poison := e.poison.filter fun (k, _) => decide (k % 2 = 1) }
    judgeMode { s with sys := { s.sys with hbmLost := without s.sys.hbmLost d.idx } }
  else if b = 0x0A ∨ b = 0x09 then rescanRings s d
  else if b = 0x04 then
    (List.range 2048).foldl (fun s n => if bit (srcCfg s d n) 31 then raiseLocal s d n else s) s
  else if b = 0x11 ∨ b = 0x06 then (List.range 768).foldl (fun s i => setReg s d (pmcCnt i) 0) s
  else if b = 0x13 then
    let ms := if u = 0xFFFF then List.range 8 else [u]
    ms.foldl (fun s m => (List.range 8).foldl (fun s i =>
      let l := link s d (8 * m + i)
      if l.st = .down ∧ l.adminEn = true then linkTrain s d (8 * m + i) else s) s) s
  else s

/-- A unit's self-test has ended (R423): a recovery is counted; the eighth in 10 s holds it. [log DEDUCED 164] -/
def unitTested (s : State) (d : Die) (b u : Nat) (pass : Bool) : State :=
  let r := s.now :: recent s 10000000000 (unitOf s d b u).recoveries
  let held := decide (r.length ≥ 8)
  let pair := decide (b = 0x15 ∧ u < 32)
  let s := modUnit s d b u fun x => { x with recoveries := r }
  let s := if pair then pairGo s d u .retesting 0 else s
  let s := if held then modUnit s d b u fun x => { x with st := .heldFailed }
    else if pass then modUnit s d b u fun x => { x with st := .ok }
    else unitFault s d b u
  let s := if pair then judgeMode (pairGo s d u (if pass && !held then .spare else .failed) 0) else s
  let s := if pass && !held then unitBack (statusReset s d b u) d b u else s
  if collecting s && !(recovering s d b) then collect s d b else s

/-- A unit in FAULT whose quiet period is over. -/
def quietOver (s : State) (d : Die) (b u : Nat) : Bool :=
  decide ((unitOf s d b u).st = .fault ∧ s.now ≥ (unitOf s d b u).quietEnd)

/-- FAULT_QUIET_END. -/
def execFaultQuietEnd (d : Die) (b u : Nat) (pass : Bool) (s : State) : Host.Outcome State Fault Refusal :=
  .next (if quietOver s d b u && !(decide (b = 0x15 ∧ u < 32)) then unitTested s d b u pass else s)

/-- PAIR_RETEST: a dead pair after the quiet period. -/
def execPairRetest (d : Die) (p : Nat) (pass : Bool) (s : State) : Host.Outcome State Fault Refusal :=
  .next (if quietOver s d 0x15 p && decide (p < 32) then unitTested s d 0x15 p pass else s)

/-- MG_FAULT_RELEASE: the self-test starts at once, its end being FAULT_QUIET_END or PAIR_RETEST. [log DEDUCED 165] -/
def mgFaultRelease (s : State) (b : Block) : MgRes :=
  let d := tgtDie b
  let blk := fld b 20 0 8
  let u := fld b 22 0 16
  let form := fld b 21 0 8 == 0 && zeroFrom b 24 && !(bothDies b) && decide (blk ≤ 0x18 ∧ blk ≠ 0x12 ∧ blk ≠ 0x14 ∧ (blk = 0x13 → u ≤ 7 ∨ u = 0xFFFF))
  let us := if blk = 0x13 ∧ u = 0xFFFF then addNew ((List.range 8).filter fun m => decide ((unitOf s d 0x13 m).st = .heldFailed)) 0xFFFF else [u]
  let held := us.filter fun u => decide ((unitOf s d blk u).st = .heldFailed)
  if !form then mgMalformed
  else if held.isEmpty then mgState 0
  else .ok (held.foldl (fun s u => modUnit s d blk u fun x => { x with st := .fault, recoveries := [], quietEnd := s.now }) s) 0

/-! ## HEARTBEAT (R426) -/

/-- HEARTBEAT_MISSED: firmware of a die has not checked in for 4 ms: HEARTBEAT low, a DEVICE-FATAL fault of MGT. [log DEDUCED 168] -/
def heartbeatMissed (s : State) (d : Die) : State :=
  if s.sys.heartbeat = .hz500 then
    reportOwn { s with sys := { s.sys with heartbeat := .low } } d 0x00 0xFFFF .deviceFatal
  else s

def execHeartbeatMissed (d : Die) (s : State) : Host.Outcome State Fault Refusal := .next (heartbeatMissed s d)

end Sys2Proof.Machine
end

