-- ==== Sys2Proof/Machine/Power.lean ====
section
/-! DEFINITION. Power tokens (R204, R354, R433), throttling (R434), the monitors (R435) and adaptive voltage (R436). The
estimate E is a free value drawn every 1 µs: the spec gives no formula for it. -/

namespace Sys2Proof.Machine

open Sys2Proof

def pwrCfg (s : State) (d : Die) : Nat := regVal s d 0x200000
def pwrLimit (s : State) (d : Die) : Nat := bits (pwrCfg s d) 0 10

/-- WARN, THROTTLE and CRITICAL in units of 0.125 °C. -/
def warnAt (s : State) (d : Die) : Nat := 8 * bits (pwrCfg s d) 32 8
def throttleTemp (s : State) (d : Die) : Nat := 8 * bits (pwrCfg s d) 40 8
def criticalAt (s : State) (d : Die) : Nat := 8 * bits (pwrCfg s d) 48 8

/-- G: the tokens granted and not released. -/
def tokensOut (s : State) (d : Die) : Nat := ((die s d).pwr.granted.map (·.n)).sum

/-! ## Tokens -/

/-- Tokens that a unit asks for. -/
def tokenCount (s : State) (d : Die) : TokenUnit → Nat
  | .bndBurst _ => 12
  | .scrub => 20
  | .adapt k => if (link s d k).split then 3 else 6
  | .carrel _ => 4

/-- A long command at a boundary that needs tokens for its next 64 strides (R354). -/
def carrelWants (s : State) (d : Die) (o : Nat) : Bool :=
  let x := opOf s o
  decide (x.die = d ∧ (x.phase = .long .running ∨ x.phase = .long .suspended)) && isLong (opcode x) && decide (opBytes x > 16777216)
    && x.tokens == 0 && decide (x.nextStride < x.strides)

/-- A unit has work that waits for a grant. -/
def tokenWanted (s : State) (d : Die) : TokenUnit → Bool
  | .bndBurst c => wantsTokens s d c && (bndCtx s d c).burst == 0
  | .scrub => (die s d).eng.scrubFull
  | .adapt k => decide ((link s d k).st = .training ∧ k < 64)
  | .carrel o => carrelWants s d o

/-- A unit already waits or holds a grant. -/
def tokenHeld (s : State) (d : Die) (u : TokenUnit) : Bool :=
  ((die s d).pwr.queue ++ (die s d).pwr.granted).any fun t => decide (t.unit = u)

/-- TOKEN_REQUEST: served in arrival order. -/
def execTokenRequest (d : Die) (u : TokenUnit) (s : State) : Host.Outcome State Fault Refusal :=
  if tokenWanted s d u && !(tokenHeld s d u) then
    .next (onPwr (pmc s d 711 1) d fun p => { p with queue := p.queue ++ [{ unit := u, n := tokenCount s d u, at_ := s.now }] })
  else .next s

/-- What a grant lets begin. -/
def tokenStart (s : State) (d : Die) : TokenUnit → State
  | .bndBurst c =>
    let s := modBnd s d c fun x => { x with burst := bits (regVal s d 0xD00000) 16 7 }
    match treeOf s d c with
    | some t => bndTidy 64 (bndFold 64 s d c t) d c t
    | none => s
  | .scrub => s
  | .adapt k => emit (modLink s d k fun l => { l with stAt := s.now }) (.linkTrain d k)
  | .carrel o => modOp s o fun x => { x with tokens := 64 }

/-- TOKEN_GRANT: the head request, when E + G + n is within LIMIT and the die does not throttle. A request whose work is
gone leaves the queue. -/
def tokenGrant (s : State) (d : Die) : State :=
  match (die s d).pwr.queue with
  | [] => s
  | t :: rest =>
    if !(tokenWanted s d t.unit) then onPwr s d fun p => { p with queue := rest }
    else if (die s d).pwr.eighths = 0 ∧ (die s d).pwr.est + tokensOut s d + t.n ≤ pwrLimit s d then
      tokenStart (onPwr s d fun p => { p with queue := rest, granted := p.granted ++ [{ t with at_ := s.now }] }) d t.unit
    else s

def execTokenGrant (d : Die) (s : State) : Host.Outcome State Fault Refusal := .next (tokenGrant s d)

/-- The work of a grant is over (R433's last column). -/
def tokenDone (s : State) (d : Die) (t : Token) : Bool :=
  match t.unit with
  | .bndBurst c => (bndCtx s d c).burst == 0 || !((bndCtx s d c).segs.any fun y => exactSum y.head && !y.formed)
  | .scrub => decide (s.now ≥ t.at_ + 10000000) || !(die s d).eng.scrubFull
  | .adapt k => decide ((link s d k).st ≠ .training)
  | .carrel o => !(liveOp s o) || (opOf s o).tokens == 0 || decide ((opOf s o).phase = .long .draining)

/-- TOKEN_RELEASE. A full-rate scrub pass asks again every 10 ms; whether it has ended by then is not stated. [log DESIGN CHOICE 134] -/
def tokenRelease (s : State) (d : Die) (u : TokenUnit) : State :=
  match (die s d).pwr.granted.find? fun t => decide (t.unit = u) with
  | some t =>
    if tokenDone s d t then
      let s := onPwr s d fun p => { p with granted := p.granted.filter fun x => decide (x.unit ≠ u) }
      match u with
      | .scrub =>
        let r := takeFree s
        onEng r.2 d fun e => { e with scrubFull := e.scrubFull && r.1.getLsbD 0 }
      | .bndBurst c => modBnd s d c fun x => { x with burst := 0 }
      | _ => s
    else s
  | none => s

def execTokenRelease (d : Die) (u : TokenUnit) (s : State) : Host.Outcome State Fault Refusal := .next (tokenRelease s d u)

/-! ## The estimate and throttling (R433, R434) -/

/-- Every 1 µs: a new estimate, and since when E + G exceeds LIMIT. [log DESIGN CHOICE 169] -/
def pwrTick (s : State) (d : Die) : State :=
  if s.now % 1000 ≠ 0 ∨ s.sys.inReset = true ∨ s.sys.mode = .standby then s
  else
    let r := takeFree s
    let s := onPwr r.2 d fun p => { p with est := r.1.toNat % 1024 }
    let above := decide ((die s d).pwr.est + tokensOut s d > pwrLimit s d)
    onPwr s d fun p => { p with overSince := if above then some (p.overSince.getD s.now) else none }

/-- The die must throttle: over its LIMIT for 20 µs, or a sensor above THROTTLE. -/
def mustThrottle (s : State) (d : Die) : Bool :=
  (match (die s d).pwr.overSince with
    | some t => decide (s.now ≥ t + 20000)
    | none => false) || (die s d).pwr.thermal.any fun (_, v) => decide (v > throttleTemp s d)

/-- THROTTLE_STEP: one eighth removed or restored every 20 µs. -/
def throttleStep (s : State) (d : Die) : State :=
  if s.now < (die s d).pwr.throttleAt + 20000 then s
  else
    let hot := mustThrottle s d
    let s := onPwr s d fun p => { p with throttleAt := s.now, eighths := if hot then min 7 (p.eighths + 1) else p.eighths - 1 }
    setLevel s d 1897 (decide ((die s d).pwr.eighths ≠ 0))

def execThrottleStep (d : Die) (s : State) : Host.Outcome State Fault Refusal := .next (throttleStep s d)

/-! ## Monitors (R435) -/

/-- THERMTRIP_N is asserted and latched by the always-on comparators. -/
def thermTrip (s : State) : State :=
  if s.sys.thermtrip then s else emit { s with sys := { s.sys with thermtrip := true } } (.pin "THERMTRIP_N" 0)

/-- THERMAL_SAMPLE: `val` in 0.125 °C. [log DEDUCED 156] -/
def thermalSample (s : State) (d : Die) (n val : Nat) : State :=
  let s := if val > 1000 then thermTrip s else s
  if s.sys.inReset then s
  else
    let hot := decide (val > criticalAt s d)
    let s := onPwr s d fun p =>
      { p with thermal := tset 0 p.thermal n val
               critSince := if hot then (if tget 0 p.critSince n = 0 then tset 0 p.critSince n (s.now + 1) else p.critSince) else tdel p.critSince n }
    let warm := (die s d).pwr.thermal.any fun (_, v) => decide (v > warnAt s d)
    let s := setLevel s d 1985 warm
    let s := if s.sys.mode = .standby then s else setLevel s d 1895 warm
    let post := decide (val > warnAt s d) && (match (die s d).pwr.thermEvAt with
      | some t => decide (s.now ≥ t + 1000000000)
      | none => true)
    let s := if post then onPwr (postMgmt s d 0x04 (evb 8 d.idx + evb 9 n + evb 10 val)) d fun p => { p with thermEvAt := some s.now } else s
    let since := tget 0 (die s d).pwr.critSince n
    if since ≠ 0 ∧ s.now + 1 ≥ since + 10000 ∧ forensic s = false then reportOwn s d 0x02 0xFFFF .deviceFatal else s

def execThermalSample (d : Die) (n val : Nat) (s : State) : Host.Outcome State Fault Refusal :=
  .next (if n < 32 ∧ val < 65536 then thermalSample s d n val else s)

/-- The code of a band. -/
def bandCode : MonBand → Nat
  | .normal => 0 | .alarm => 1 | .fault => 2

/-- A time kept while a condition holds: time + 1 of its start. -/
def sinceTab (t : Tab Nat) (k : Nat) (on : Bool) (now : Nat) : Tab Nat :=
  if on then (if tget 0 t k = 0 then tset 0 t k (now + 1) else t) else tdel t k

/-- VOLTAGE_SAMPLE: a monitor's reading and the band it lies in. -/
def voltageSample (s : State) (d : Die) (n mv : Nat) (band : MonBand) : State :=
  if s.sys.inReset then s
  else
    let c := bandCode band
    let s := onPwr s d fun p =>
      { p with volts := tset 0 p.volts n mv, voltBand := tset 0 p.voltBand n c
               bandSince := sinceTab (sinceTab p.bandSince (2 * n) (decide (c ≥ 1)) s.now) (2 * n + 1) (decide (c = 2)) s.now }
    let out := (die s d).pwr.voltBand.any fun (_, b) => decide (b ≠ 0)
    let s := setLevel s d 1986 out
    let s := if s.sys.mode = .standby then s else setLevel s d 1896 out
    let p := (die s d).pwr
    let held (k ns : Nat) : Bool := let t := tget 0 p.bandSince k; decide (t ≠ 0 ∧ s.now + 1 ≥ t + ns)
    let last := tget 0 p.voltEvAt n
    let s := if held (2 * n) 1000 && decide (last = 0 ∨ s.now + 1 ≥ last + 1000000000) then
        onPwr (postMgmt s d 0x05 (evb 8 d.idx + evb 9 n + evb 10 mv + evb 12 c)) d fun p => { p with voltEvAt := tset 0 p.voltEvAt n (s.now + 1) }
      else s
    if held (2 * n + 1) 10000 && !(forensic s) then reportOwn s d 0x02 0xFFFF .deviceFatal else s

def execVoltageSample (d : Die) (n mv : Nat) (band : MonBand) (s : State) : Host.Outcome State Fault Refusal :=
  .next (if n < 48 ∧ mv < 65536 then voltageSample s d n mv band else s)

/-! ## Adaptive voltage (R436) -/

/-- A request from 650 mV to 800 mV in steps of 5 mV. -/
def avsForm (mv : Nat) : Bool := decide (650 ≤ mv ∧ mv ≤ 800 ∧ mv % 5 = 0)

/-- AVS_REQUEST_CHANGE: the higher of the two dies' requests is published; a change is signalled by an in-band interrupt. The
voltage then measured is not stated. [log DESIGN CHOICE 170] -/
def avsRequest (s : State) (w e : Nat) : State :=
  let mv := max w e
  if avsForm w && avsForm e && decide (mv ≠ (die s .west).pwr.avsWant) && !s.sys.inReset then
    let r := takeFree s
    let f (s : State) (d : Die) := onPwr s d fun p => { p with avsWant := mv, appliedMv := bits r.1.toNat (16 * d.idx) 16 }
    emit (f (f r.2 .west) .east) (.ibi [0xA5])
  else s

def execAvsRequestChange (w e : Nat) (s : State) : Host.Outcome State Fault Refusal := .next (avsRequest s w e)

end Sys2Proof.Machine
end

