-- ==== Sys2Proof/Machine/Clock.lean ====
section
/-! DEFINITION. What passes with the clock and has no row of its own: one step of the 500 MHz TIME clock (R397). Everything
that falls due at a time and has a row of the table is left to that row. -/

namespace Sys2Proof.Machine

open Sys2Proof

/-- Levels follow what threads run and rings hold: the boosts of semaphores that are waited for are judged again (R370). -/
def boostsFollow (s : State) (d : Die) : State :=
  (die s d).eng.sems.foldl (fun s (n, x) => if x.arms.isEmpty then s else semBoost s d n) s

/-- 2 ns pass on a die: boosts, queue ages and counters of cycles (R239, R269, R276, R370). -/
def dieTick (s : State) (d : Die) : State :=
  if coreClock s then pmcTick (ageQueues (gatesFollow (boostsFollow s d) d) d 2) d 2 else s

/-- 2 ns pass: the timers' clock, the queues, device time and the power estimate. [log DESIGN CHOICE 2] -/
def tick (s : State) : State :=
  let s := { s with now := s.now + 2 }
  let s := timeTick (dieTick (dieTick s .west) .east)
  pwrTick (pwrTick s .west) .east

end Sys2Proof.Machine
end

