-- ==== Sys2Proof/Machine/Memory.lean ====
section
/-! DEFINITION. Memory errors and the scrubber (R362 to R364, R176, R177), and MG_SEM_BANK_RESET (R372). -/

namespace Sys2Proof.Machine

open Sys2Proof

/-- A unit's place in the poison table: 2 × address + (1 for SRAM). -/
def unitKey (u : MemUnit) : Nat := 2 * (u.addr % 2 ^ 36) + b2n u.sram

/-- HBM_ERR_LOG for an error of a unit, MORE apart. -/
def errLog (u : MemUnit) (kind : Nat) : Nat :=
  2 ^ 63 + b2n u.sram * 2 ^ 56 + b2n u.owner.isNone * 2 ^ 55 + (u.owner.getD 0 % 1024) * 2 ^ 45 + kind * 2 ^ 42 + u.addr % 2 ^ 36

/-- Record an uncorrectable error: the first is held, later ones count in MORE. -/
def logUncorr (s : State) (d : Die) (u : MemUnit) : State :=
  let v := regVal s d 0x1600008
  let w := if bit v 63 then setBits v 57 6 (satInc 6 (bits v 57 6)) else errLog u 1
  setLevel (setReg s d 0x1600008 w) d 1900 true

/-- EV_DEFERRED: to the fabric manager, and to an instance that owns the location or the message. -/
def evDeferred (s : State) (d : Die) (u : MemUnit) (ctx : Option Nat) (owner : Option Nat) : State :=
  let data := evb 8 (errLog u 1) + evb 16 (ctx.getD 0) + evb 18 (b2n ctx.isSome + 2 * d.idx)
  let s := postMgmt s d 0x06 data
  match owner with
  | some i => postInst s i 0x06 data
  | none => s

/-- A packet of an eager message. -/
def eagerPkt (p : Pkt) : Bool :=
  match bodyOf p with
  | .req r => decide (reqKind r.op = 2)
  | _ => false

/-- The pieces in a transmit stage of the first packet of a channel, and the others. -/
def leavingOf (chan : Nat) : List Granted → List Granted × List Granted
  | [] => ([], [])
  | g :: t =>
    if g.q.chan ≠ chan then ((leavingOf chan t).1, g :: (leavingOf chan t).2)
    else if g.last then ([g], t)
    else (g :: (leavingOf chan t).1, (leavingOf chan t).2)

/-- Discard the packet that is leaving an egress on a channel: what is left of it is not sent, its credit goes back, and one
begun on a link is cut short with an ABORT (R288). [log DEDUCED 200] -/
def dropLeaving (s : State) (d : Die) (eg chan : Nat) : State :=
  let r := leavingOf chan (tget {} (die s d).sch.egress eg).stage
  let more := r.1.all fun g => !g.last
  let begun := match r.1.head? with
    | some g => g.begun
    | none => (link s d eg).susp.any fun c => decide (c.1 = chan)
  let s := onSch s d fun x => { x with egress := tmod {} x.egress eg fun y => { y with stage := r.2 } }
  if eg ≥ 0x7E then
    r.1.foldl (fun s g => modBrg s d (egOf eg) fun x =>
        { x with used := tmod 0 x.used (brgChan chan g.q.stage) (· - g.slots.length), crossing := x.crossing.filter fun c => decide (c.q ≠ g.q) }) s
  else
    modLink s d eg fun l =>
      { l with susp := if more then l.susp.filter fun c => decide (c.1 ≠ chan) else l.susp
               creditLeft := refund l.creditLeft r.1
               txSel := if l.txSel = some chan ∧ more = true then none else l.txSel
               ctlq := if begun then l.ctlq ++ [abortFlit chan] else l.ctlq }

/-- Discard a packet in flight (R364). -/
def dropInFlight (s : State) (d : Die) : InFlight → State
  | .leaving eg chan => dropLeaving s d eg chan
  | .injected key idx =>
    onSch s d fun x =>
      let q := (tget {} x.injq key).pkts[idx]?
      { x with injq := tmod {} x.injq key fun y => { y with pkts := y.pkts.eraseIdx idx }
               inject := tmapv {} x.inject fun _ y => { y with urgent := y.urgent.filter fun u => decide (some u.2.2 ≠ q) } }
  | .queued key idx =>
    onSch s d fun x =>
      let q := (tget {} x.egq key).pkts[idx]?
      { x with egq := tmod {} x.egq key fun y => { y with pkts := y.pkts.eraseIdx idx }
               egress := tmapv {} x.egress fun _ y => { y with urgent := y.urgent.filter fun u => decide (some u.2.2 ≠ q) } }

/-- What poisoned data brings about (R364). [log DEDUCED 77] -/
def poisonOutcome (s : State) (d : Die) : UnitHolds → State
  | .plain => s
  | .posted i c n =>
    (match (ctxOf s d i c).posted[n]? with
      | some r => failOp (modCtx s d i c fun x => { x with posted := x.posted.filter fun y => decide (y.op ≠ r.op) }) r.op 0x07 0x01
      | none => s)
  | .postedControl => reportOwn s d 0x0C 0xFFFF .blockFatal
  | .unexpPayload i c n =>
    (match (ctxOf s d i c).unexp[n]? with
      | some u => modCtx s d i c fun x => { x with unexp := x.unexp.map fun v => if v.id = u.id then { v with poison := true } else v }
      | none => s)
  | .unexpHeader i c n =>
    (match (ctxOf s d i c).unexp[n]? with
      | some u =>
        let s := modCtx s d i c fun x => { x with unexp := x.unexp.filter fun v => decide (v.id ≠ u.id) }
        let s := modConn s d u.conn fun k => { k with msg := if k.msg = .store i c u.id then .discard else k.msg }
        if u.eager then s else refuseRts s d u
      | none => s)
  | .connCtx c =>
    let k := conn s d c
    if k.st = .established ∨ k.st = .draining then failConn s d c 0x07 0x03 true else s
  | .heldPkt c psn =>
    modConn s d c fun k =>
      { k with held := k.held.filterMap fun h =>
          if h.psn ≠ psn then some h
          else if psn = k.expected ∧ eagerPkt h.pkt = true then some { h with poison := true } else none }
  | .flight f => dropInFlight s d f
  | .cmdState o both => if both && liveOp s o && decide ((opOf s o).die = d) then failOp s o 0x07 0x01 else s

/-- The context that a lost unexpected header belonged to. -/
def lostCtx : UnitHolds → Option (Nat × Nat)
  | .unexpHeader i c _ => some (i, c)
  | _ => none

/-- SCRUB_UNIT: a unit is read by the scrubber or on demand (R363). [log DEDUCED 133] -/
def scrubUnit (s : State) (d : Die) (u : MemUnit) (e : UnitError) : State :=
  let s := pmc s d 676 1
  let burst (s : State) (i : Nat) : State := if u.sram then s else pmc s d i 1
  let s := burst s 672
  match e with
  | .clean => s
  | .correctable => reportOwn (burst (pmc s d 674 1) 673) d 0x16 0xFFFF .corrected
  | .uncorrectable h =>
    let s := burst (pmc (pmc s d 675 1) d 677 1) 673
    let s := onEng s d fun x => { x with poison := tset 0 x.poison (unitKey u) 1 }
    let r := takeFree (logUncorr s d u)
    let s := noteDeferred r.2 d 0x16 0xFFFF (r.1.toNat % 65536)
    let s := evDeferred s d u ((lostCtx h).map (·.2)) (match lostCtx h with
      | some (i, _) => some i
      | none => u.owner)
    poisonOutcome s d h

def execScrubUnit (d : Die) (u : MemUnit) (e : UnitError) (s : State) : Host.Outcome State Fault Refusal :=
  .next (if s.sys.inReset || decide (s.sys.mode = .standby) then s else scrubUnit s d u e)

/-- SCRUB_FULL: a full-rate pass begins; it asks for power tokens first. -/
def scrubStart (s : State) (d : Die) : State := onEng s d fun e => { e with scrubFull := true }

def execScrubFull (d : Die) (s : State) : Host.Outcome State Fault Refusal := .next (scrubStart s d)

/-- MG_SEM_BANK_RESET. -/
def mgSemBankReset (s : State) (b : Block) : MgRes :=
  let d := tgtDie b
  let k := fld b 20 0 3
  if zeros b [(20, 3, 5)] && zeroFrom b 21 && !(bothDies b) then
    if bankIdle s d k then .ok (bankReset s d k) 0 else mgState 0
  else mgMalformed

end Sys2Proof.Machine
end

