-- ==== Sys2Proof/Machine/Modes.lean ====
section
/-! DEFINITION. Operating modes (R408 to R411), bring-up (R412 to R415, R478), Forensic's Archive (R427 to R432), Standby
and wake (R437 to R439), and the device resets (R449, R450). -/

namespace Sys2Proof.Machine

open Sys2Proof

def onSys (s : State) (f : Sys → Sys) : State := { s with sys := f s.sys }

/-! ## MG_MODE_SET (R410, R411, R437) -/

/-- DRAINED: no instance command is dispatched and not completed. -/
def drained (s : State) : Bool := !(s.ops.any fun (_, o) => o.inst.isSome)

/-- The configured instance command rings of a die. -/
def allInstRings (s : State) (d : Die) : List Nat :=
  ((die s d).rings.cmd.filter fun (n, r) => decide (n ≠ 0) && r.configured).map (·.1)

/-- Pause a ring for Drain, remembering it when it was not PAUSED. -/
def drainRing (s : State) (d : Die) (n : Nat) : State :=
  if (cmdRing s d n).st = .idle ∨ (cmdRing s d n).st = .active then
    modCmdRing (ringPause s d n) d n fun r => { r with drainPaused := true }
  else s

/-- Resume a ring that Drain paused. -/
def undrainRing (s : State) (d : Die) (n : Nat) : State :=
  if (cmdRing s d n).drainPaused then
    ringResume (modCmdRing s d n fun r => { r with drainPaused := false }) d n
  else s

def eachRing (s : State) (f : State → Die → Nat → State) : State :=
  let g (s : State) (d : Die) := (allInstRings s d).foldl (fun s n => f s d n) s
  g (g s .west) .east

/-- Why STANDBY is refused: the first that holds, in the order of R437. [log DEDUCED 150] -/
def standbyRefusal (s : State) : Option Nat :=
  let links := fun (d : Die) => (die s d).links.any fun (_, l) => decide (l.st = .up ∨ l.st = .draining)
  if s.insts.any fun (_, x) => decide (x.st ≠ .absent) then some 1
  else if links .west || links .east then some 2
  else if pendingAny s then some 3
  else if !(drained s) then some 4
  else if s.arch.copying then some 5
  else none

/-- The mode lets firmware be forced into Forensic (R409). -/
def firmwareRuns (s : State) : Bool :=
  match s.sys.mode with
  | .bringup => decide (s.sys.bootStage ≥ 4) && !s.sys.inReset
  | .service => true
  | .degraded => true
  | .drain => true
  | _ => false

/-- MG_MODE_SET (R411). FORENSIC writes its record before entry stops host requests; RESET and STANDBY act later. [log DEDUCED 148, DEDUCED 149] -/
def mgModeSet (s : State) (o : Nat) (b : Block) : MgRes :=
  let a := fld b 20 0 3
  if !(zeros b [(20, 3, 5)] && zeroFrom b 21 && decide (a ≤ 4)) then mgMalformed
  else if a = 0 then
    if s.sys.mode = .service ∨ s.sys.mode = .degraded then .ok (setMode (eachRing s drainRing) .drain 0) 0 else mgState 0
  else if a = 1 then
    if s.sys.mode = .drain then .ok (eachRing (setMode s (serviceMode s) 0) undrainRing) 0 else mgState 0
  else if a = 2 then
    if s.sys.mode = .drain then
      match standbyRefusal s with
      | some n => mgState n
      | none => .ok (onSys s fun y => { y with standbyDue := some (s.now + 10000000) }) 0
    else mgState 0
  else if a = 3 then
    if s.sys.mode = .standby then mgState 0 else .ok (onSys s fun y => { y with resetDue := some (s.now + 1000000) }) 0
  else if firmwareRuns s then .hold (forensicEnter (completeOp s o { code := 0 }) 0 none)
  else mgState 0

/-! ## The Archive (R429 to R432) -/

/-- MG_ARCHIVE_CTL (R431). COPY is held until the last write is visible. [log DEDUCED 161] -/
def mgArchiveCtl (s : State) (o : Nat) (b : Block) : MgRes :=
  let a := fld b 20 0 2
  let base := fld b 24 0 64
  if !(zeros b [(20, 2, 6), (21, 0, 24)] && zeroFrom b 32 && decide (a ≤ 2 ∧ base % 4096 = 0)) then mgMalformed
  else if a = 0 then .ok (archiveCopyBegin { s with arch := { s.arch with dest := some base } }) 0
  else if a = 1 then .ok { s with arch := { s.arch with dest := none } } 0
  else if s.arch.valid && s.arch.dest.isSome then
    .hold (modOp { s with arch := { s.arch with copying := true, copyOps := s.arch.copyOps ++ [o] } } o fun x => { x with phase := .archive })
  else mgState 0

/-- ARCHIVE_COMPLETE: firmware has written the Archive (R429). -/
def archiveWritten (s : State) : State :=
  let (v, s) := takeFree s
  archiveCopyBegin { s with arch := { s.arch with valid := true, image := v.toNat } }

def execArchiveComplete (s : State) : Host.Outcome State Fault Refusal :=
  .next (if forensic s && !s.arch.valid then archiveWritten s else s)

/-- The 4 KiB header (R430): the total length, and the CRC-32 of the directory as it stands after the header. -/
def archiveHeader (a : Archive) : Nat :=
  let body := Config.archiveBody a.image
  let n := bits a.image 0 16
  0x4B484146 + 1 * 2 ^ 32 + (b2n (!(a.lost.contains 0)) + 2 * b2n (!(a.lost.contains 1))) * 2 ^ 48 + a.modeBefore * 2 ^ 56
    + a.timeAt % 2 ^ 64 * 2 ^ 64 + a.router * 2 ^ 128 + 0xB0 * 2 ^ 160 + n * 2 ^ 176 + a.cause.getD 0xFF * 2 ^ 192
    + leNat (a.sha.take 48) * 2 ^ 256 + (4096 + body.length) % 2 ^ 64 * 2 ^ 640
    + (crcBytes 0xFFFFFFFF (body.take (16 * n)) ^^^ 0xFFFFFFFF) * 2 ^ 704

/-- What the host's buffer receives: the directory and sections, and the header last (R432). -/
def archiveWrites (s : State) (a : Nat) : State :=
  let f := mgmtFn s
  let s := emit s (.hostWrite f.port f.link (a + 4096) (Config.archiveBody s.arch.image))
  emit s (.hostWrite f.port f.link a (leBytes 4096 (archiveHeader s.arch)))

/-- ARCHIVE_HOST_COPY_DONE: the image has gone, ARCHIVE_COPIED is set and COPY completes. -/
def archiveCopied (s : State) : State :=
  let s := match s.arch.dest with
    | some a => archiveWrites s a
    | none => s
  let l := s.arch.copyOps
  l.foldl (fun s o => completeOp s o { code := 0 }) { s with arch := { s.arch with copying := false, copied := true, copyOps := [] } }

def execArchiveHostCopyDone (s : State) : Host.Outcome State Fault Refusal :=
  .next (if s.arch.copying && hostLinkUp s (mgmtFn s) then archiveCopied s else s)

/-! ## Device reset (R449, R450) -/

/-- Poison of HBM units, which self-refresh keeps. -/
def hbmPoison (x : DieState) : Tab Nat := x.eng.poison.filter fun (k, _) => decide (k % 2 = 0)

/-- A die held in reset: nothing is left but the levels of its PERST_N pins, and its stack where it stays in self-refresh. [log DEDUCED 157] -/
def resetDie (x : DieState) (keep : Bool) : DieState :=
  let p := if keep then hbmPoison x else []
  { hst := { perst := x.hst.perst }, eng := { poison := p } }

/-- The mailbox state that an internal device reset keeps (R450): all but MBX_BLOCK and the command's own run. [log DEDUCED 158] -/
def mbxKept (m : Mbx) : Mbx :=
  { result := m.result, lastSeq := m.lastSeq, busy := m.busy, valid := m.valid, rejects := m.rejects, resultDue := m.resultDue }

/-- Hold the device in reset. `keep`: the internal reset of MG_MODE_SET RESET. -/
def deviceReset (s : State) (keep : Bool) : State :=
  let sys : Sys := { pwrgood := s.sys.pwrgood, pwrgoodAt := s.sys.pwrgoodAt, thermtrip := s.sys.thermtrip }
  let mbx := if keep then mbxKept s.mbx else {}
  let arch := if keep then { s.arch with copying := false, copyOps := [] } else {}
  { pending := s.pending, now := s.now, freeCtr := s.freeCtr, out := s.out, flash := s.flash, west := resetDie s.west keep
    east := resetDie s.east keep, sys := sys, mbx := mbx, arch := arch }

/-- The pins of R457 in reset. -/
def resetPins (s : State) : State := emits s [.pin "HEARTBEAT" 0, .pin "PPS_OUT" 0]

/-- SYS_RESET_ASSERT: below 100 ns ignored, from 1 µs certain, between them open (R449). [log DESIGN CHOICE 159] -/
def execSysResetAssert (lowNs : Nat) (s : State) : Host.Outcome State Fault Refusal :=
  if lowNs < 100 then .next s
  else if lowNs ≥ 1000 then .next (resetPins (deviceReset s false))
  else
    let (v, s) := takeFree s
    .next (if v.getLsbD 0 then resetPins (deviceReset s false) else s)

/-- PWRGOOD_ASSERT (R447, R449). -/
def execPwrgoodAssert (s : State) : Host.Outcome State Fault Refusal :=
  .next (if s.sys.pwrgood then s else onSys s fun y => { y with pwrgood := true, pwrgoodAt := s.now })

/-- PWRGOOD_DEASSERT: low for 100 ns resets the device and clears the THERMTRIP_N latch (R449, R450). [log DEDUCED 160] -/
def execPwrgoodDeassert (lowNs : Nat) (s : State) : Host.Outcome State Fault Refusal :=
  if lowNs < 100 then .next s
  else
    let s := onSys (resetPins (deviceReset s false)) fun y => { y with pwrgood := false, thermtrip := false }
    .next (emit s (.pin "THERMTRIP_N" 1))

/-- INTERNAL_DEVICE_RESET: 1 ms after MG_MODE_SET RESET (R409, R450). -/
def execInternalDeviceReset (s : State) : Host.Outcome State Fault Refusal :=
  match s.sys.resetDue with
  | some t => .next (if s.now ≥ t then resetPins (deviceReset s true) else s)
  | none => .next s

/-! ## Release: straps (R309, R313, R452) -/

/-- The codes asked for on a die's four ports, from the strap word. -/
def strapCodes (w : Nat) (d : Die) : List Nat := (List.range 4).map fun i => bits w (2 * (4 * d.idx + i)) 2

/-- A die's bifurcation and its generator at release. -/
def releaseDie (w : Nat) (d : Die) (seed : Nat) (x : DieState) : DieState :=
  let codes := bifurcate 0 (strapCodes w d)
  { x with hst := { x.hst with bifCodes := codes, adjusted := decide (codes ≠ strapCodes w d) }, rtr := { x.rtr with lfsr := seed } }

/-- The link of the management function (R313). [log DEDUCED 126] -/
def strapMgmt (s : State) (w : Nat) : FnId :=
  let p := bits w 17 3
  let l := bits w 20 2
  if linkExists s p l then { port := p, link := l, fn := 0 }
  else { port := ((List.range 8).find? fun p => linkExists s p 0).getD 0, link := 0, fn := 0 }

/-- Both bridges enter TRAINING with ADMIN_EN = 1 (R305). -/
def bridgesStart (s : State) : State :=
  let f (s : State) (b : Bridge) := bridgeTrain (setBrgAdmin s b true) b
  f (f s .north) .south

/-- The internal reset is released and bring-up step 1 begins. [log DESIGN CHOICE 151] -/
def resetRelease (s : State) (w : Nat) : State :=
  let (v1, s) := takeFree s
  let (v2, s) := takeFree s
  let w := w % 2 ^ 22
  let s := onDie (onDie s .west (releaseDie w .west (v1.toNat % 2 ^ 32))) .east (releaseDie w .east (v2.toNat % 2 ^ 32))
  let s := onSys s fun y => { y with inReset := false, bootStage := 1, straps := w }
  let s := onSys s fun y => { y with mgmt := strapMgmt s w }
  bridgesStart s

/-- RESET_RELEASE: not before 10 ms after PWRGOOD asserts (R449). -/
def execResetRelease (straps : BitVec 32) (s : State) : Host.Outcome State Fault Refusal :=
  .next (if s.sys.inReset && s.sys.pwrgood && decide (s.now ≥ s.sys.pwrgoodAt + 10000000) then resetRelease s straps.toNat else s)

/-! ## Bring-up (R412 to R414, R478) -/

/-- The default protection regions: firmware writes region 0 on both dies (R478, R382). -/
def aclDefault (s : State) : State :=
  let v := 0xBFFF * 2 ^ 16 + 0x3F * 2 ^ 32 + 0x3F * 2 ^ 40 + 2 ^ 63
  bumpEpoch (bumpEpoch (setReg (setReg s .west 0x1800000 v) .east 0x1800000 v) .west 7) .east 7

/-- The ROMs still look for an image. -/
def imageWanted (s : State) : Bool :=
  decide (s.sys.mode = .bringup ∧ s.sys.bootStage < 4 ∧ s.sys.bootStatus = 0) && !s.sys.inReset

/-- IMAGE_AUTHENTICATED: slot A, then slot B; the ROMs' disagreement is a failure (R413, R414). [log DEDUCED 152] -/
def imageChecked (s : State) (slot : Nat) (ok : Bool) (sha : List Byte) : State :=
  if ok then
    let s := onSys s fun y =>
      { y with bootStage := 4, bootStatus := if slot = 1 then 3 else 0, bootSlot := slot, imageSha := sha.take 48, heartbeat := .hz500 }
    if s.sys.wakeLinks then s else aclDefault s
  else if slot = 0 then onSys s fun y => { y with bootSlot := 1 }
  else onSys s fun y => { y with bootStatus := 1, heartbeat := .low }

def execImageAuthenticated (slot : Nat) (westOk eastOk : Bool) (sha : List Byte) (s : State) : Host.Outcome State Fault Refusal :=
  .next (if imageWanted s && decide (slot = s.sys.bootSlot) then imageChecked s slot (westOk && eastOk) sha else s)

/-- Self-test of the pairs of a die: the 30 lowest-numbered that pass are active, further ones spare (R352). -/
def pairsReady (s : State) (d : Die) (pass : BitVec 32) : State :=
  let good := (List.range 32).filter fun k => pass.getLsbD k
  let st (k : Nat) : PairSt := if pass.getLsbD k then (if k ∈ good.take 30 then .active else .spare) else .failed
  onEng s d fun e => { e with pairs := (List.range 32).map fun k => (k, ({ st := st k } : Pair)) }

/-- Steps 6 and 7 on a die: a stack that fails sets its degrade cause; without a passing pair ENG has a BLOCK-FATAL fault (R414). -/
def selfTested (s : State) (d : Die) (pairs : BitVec 32) (hbm : Bool) : State :=
  let s := pairsReady s d pairs
  let s := if hbm then s else { s with sys := { s.sys with hbmLost := addNew s.sys.hbmLost d.idx } }
  if pairs = 0 then reportOwn s d 0x15 0xFFFF .blockFatal else s

/-- The bridge still in TRAINING is trained with no lane replaced (step 8). -/
def bridgeSettled (s : State) (b : Bridge) : State := bridgeTrained s b [] []

/-- The collector is armed: every record left PENDING is collected (R419). -/
def collectAll (s : State) : State :=
  let f (s : State) (d : Die) := (List.range 25).foldl (fun s b => collect s d b) s
  f (f s .west) .east

/-- Links with ADMIN_EN = 1 train after a wake (R439 step 8). -/
def wakeTrain (s : State) (d : Die) : State :=
  (die s d).links.foldl (fun s (k, l) => if l.adminEn && decide (l.st = .down) then linkTrain s d k else s) s

/-- The Bindery contexts of the saved TREE domain are READY again after a wake (R182, R439). -/
def treesBack (s : State) (d : Die) : State :=
  (dom s d 2).active.foldl (fun s r => bndInstall s d r.index none (some r.content)) s

/-- Service or Degraded once the records are collected, unless one of them was DEVICE-FATAL (R409, R414). -/
def serviceBegins (s : State) (waking : Bool) : State := if forensic s then s else setMode s (serviceMode s) (if waking then 3 else 4)

/-- What the self-tests of bring-up steps 6 and 7 found: the pairs that pass and whether the stack passes, by die (R352, R414). -/
structure SelfTest where
  westPairs : BitVec 32
  eastPairs : BitVec 32
  westHbm : Bool
  eastHbm : Bool
deriving DecidableEq, Repr

/-- The outcome of the self-tests, which lies with the part: any is possible. -/
def selfTests (s : State) : SelfTest × State :=
  let p := takeFree s
  let h := takeFree p.2
  ({ westPairs := p.1.extractLsb' 0 32, eastPairs := p.1.extractLsb' 32 32, westHbm := h.1.getLsbD 0, eastHbm := h.1.getLsbD 1 }, h.2)

/-- BRINGUP_COMPLETE: steps 6 to 9, or the wake's steps 6 to 8 (R414, R439). -/
def bringupDone (s : State) (t : SelfTest) : State :=
  let waking := s.sys.wakeLinks
  let s := selfTested (selfTested s .west t.westPairs t.westHbm) .east t.eastPairs t.eastHbm
  let s := brgAfter (bridgeSettled (bridgeSettled s .north) .south)
  let s := collectAll (onSys s fun y => { y with bootStage := 7, armed := true, wakeLinks := false })
  let s := serviceBegins s waking
  if waking then wakeTrain (wakeTrain (treesBack (treesBack s .west) .east) .west) .east else s

def execBringupComplete (s : State) : Host.Outcome State Fault Refusal :=
  if s.sys.mode = .bringup ∧ 4 ≤ s.sys.bootStage ∧ s.sys.bootStage < 7 ∧ s.sys.inReset = false then
    .next (bringupDone (selfTests s).2 (selfTests s).1)
  else .next s

/-! ## Standby (R437 to R439) -/

/-- What R437 saves of a link: its settings. -/
def linkSaved (l : Link) : Link :=
  { adminEn := l.adminEn, precode := l.precode, rate := l.rate, split := l.split, forerunner := l.forerunner, credit := l.credit }

/-- What it saves of a management command ring and of its completion ring. -/
def ringSaved (r : CmdRing) : CmdRing :=
  { configured := r.configured, base := r.base, log2 := r.log2, cq := r.cq, burst := r.burst, weight := r.weight, prio := r.prio
    shadowAddr := r.shadowAddr, shadowEn := r.shadowEn }
def cqSaved (q : CqRing) : CqRing :=
  { configured := q.configured, base := q.base, log2 := q.log2, intEn := q.intEn, intSource := q.intSource, bound := q.bound }

/-- What it saves of a domain: everything but the staged bank. -/
def domSaved (x : Dom) : Dom := { x with staged := [], stagedValid := false, pend := none }

/-- What is left of a die across Standby: registers' own state, MGMT settings, and the always-on island's. [log DEDUCED 153] -/
def standbyDie (x : DieState) : DieState :=
  let links := tmapv {} x.links fun _ l => linkSaved l
  let cmd := tmapv {} x.rings.cmd fun _ r => ringSaved r
  let cq := tmapv {} x.rings.cq fun _ q => cqSaved q
  let doms := tmapv {} x.epc.doms fun _ y => domSaved y
  let srcs := x.eng.srcs.filter fun (n, _) => decide (n ≥ 1984)
  let c := x.crz
  { rings := { cmd := cmd, cq := cq }, links := links, north := { adminEn := x.north.adminEn }, south := { adminEn := x.south.adminEn }
    epc := { doms := doms }, rtr := { lfsr := x.rtr.lfsr }
    crz := { mapEn := c.mapEn, mapDest := c.mapDest, mapPeriod := c.mapPeriod, rxBase := c.rxBase, rxFirst := c.rxFirst, rxGroups := c.rxGroups }
    hst := { bifCodes := x.hst.bifCodes, adjusted := x.hst.adjusted, perst := x.hst.perst }
    eng := { poison := hbmPoison x, srcs := srcs, intWatch := x.eng.intWatch }
    lko := { log := x.lko.log }, evt := x.evt, evHist := x.evHist }

/-- Registers that Standby does not keep: the event counters and their block (R275), and counts and records (R437, R473). -/
def lostInStandby (k : Nat) : Bool :=
  let o := k % 0x4000000
  decide (0x600000 ≤ o ∧ o < 0x700000) || countReg o

/-- Every host link goes down with its PHY. -/
def hostLinksDown (s : State) : State :=
  (List.range 8).foldl (fun s p => (List.range 4).foldl (fun s l => if linkExists s p l then hostLinkDown s p l 2 else s) s) s

/-- STANDBY_ENTRY: EV_MODE before power-down, settings saved, the core power-gated; time in HOLDOVER (R438). -/
def standbyEnter (s : State) : State :=
  let s := if s.time.st = .locked ∨ s.time.st = .acquiring then timeHoldover s else s
  let s := hostLinksDown (setMode s .standby 0)
  let timer := bits (regVal s .west 0x208) 0 16
  let wake := if timer = 0 then none else some (s.now + 1000000000 * timer)
  let s := onSys s fun y => { y with standbyDue := none, heartbeat := .hz1, armed := false, wakeAt := wake, bootStage := 0, hbmLost := [] }
  { s with west := standbyDie s.west, east := standbyDie s.east, ops := [], insts := s.insts.filter fun (_, x) => decide (x.st = .absent)
           regs := s.regs.filter fun (k, _) => !(lostInStandby k), fns := s.fns.filter fun (k, _) => decide (k = fnKey (mgmtFn s))
           latches := [], holds := [], views := [], i3c := { dynAddr := s.i3c.dynAddr } }

def execStandbyEntry (s : State) : Host.Outcome State Fault Refusal :=
  .next (if s.sys.standbyDue.isSome && decide (s.sys.mode = .drain) then standbyEnter s else s)

/-- A watched always-on source is pending: die-local 1,984 + i with bit i of INT_WATCH. -/
def wakes (s : State) (n : Nat) : Bool :=
  let d := Die.ofCode (n / 2048)
  let k := n % 2048
  decide (1984 ≤ k ∧ k ≤ 2046 ∧ n < 4096) && bit (die s d).eng.intWatch (k - 1984) && decide ((src s d k).st ≠ .idle)

/-- WAKE_HSTn_N of every enabled port of a die. -/
def wakePins (s : State) (d : Die) : State :=
  let ps := (List.range 4).filter fun p => linkExists s (4 * d.idx + p) 0
  ps.foldl (fun s p => emit s (.pin "WAKE_HST_N" (4 * d.idx + p))) (onHst s d fun h => { h with wake := ps })

/-- The PMC blocks as on leaving Standby: counters, configurations, samples and snapshots are zero (R275). -/
def pmcClear (s : State) : State :=
  let s := { s with regs := s.regs.filter fun (k, _) => !(decide (0x600000 ≤ k % 0x4000000 ∧ k % 0x4000000 < 0x700000)) }
  let f (s : State) (d : Die) : State := onCrz s d fun x => { x with wraps := [], events := [] }
  f (f s .west) .east

/-- STANDBY_WAKE: the wake sequence begins (R439). [log DEDUCED 154] -/
def standbyWake (s : State) (n : Nat) : State :=
  let s := pmcClear s
  let s := onSys s fun y =>
    { y with mode := .bringup, wakeSource := n, bootStage := 1, bootStatus := 0, bootSlot := 0, heartbeat := .low, wakeAt := none, wakeLinks := true }
  let s := wakePins (wakePins s .west) .east
  let f (s : State) (b : Bridge) := if (brg s .west b).adminEn then bridgeTrain s b else s
  f (f s .north) .south

def execStandbyWake (n : Nat) (s : State) : Host.Outcome State Fault Refusal :=
  .next (if s.sys.mode = .standby ∧ wakes s n = true then standbyWake s n else s)

/-- A device-wide always-on source is raised on both dies. [log DEDUCED 155] -/
def raiseAon (s : State) (n : Nat) : State := raiseLocal (raiseLocal s .west n) .east n

/-- WAKE_TIMER_EXPIRY: MGT_WAKE.TIMER seconds after Standby entry. -/
def execWakeTimerExpiry (s : State) : Host.Outcome State Fault Refusal :=
  match s.sys.wakeAt with
  | some t => .next (if s.now ≥ t ∧ s.sys.mode = .standby then raiseAon (onSys s fun y => { y with wakeAt := none }) 1991 else s)
  | none => .next s

/-- MGT_WAKE_WRITE: 1 written to MGT_WAKE.WAKE. -/
def execMgtWakeWrite (s : State) : Host.Outcome State Fault Refusal := .next (if s.sys.inReset then s else raiseAon s 1984)

end Sys2Proof.Machine
end

