-- ==== Sys2Proof/Machine/Views.lean ====
section
/-! DEFINITION. The register map (16_register_map and each chapter's register maps): which bytes hold a register, its width,
the fields that software writes, and the value that a read finds in it. -/

namespace Sys2Proof.Machine

open Sys2Proof

/-! ## The map (R465, R466, R468) -/

/-- A family of registers: `n` of them from offset `lo` within the die at steps of `stride`; `wide`: 64 bits, else 32.
`rw`: bits that hold what is written; `c1`: bits that writing a 1 clears. -/
structure RegFam where
  lo : Nat
  n : Nat := 1
  stride : Nat := 8
  wide : Bool := true
  rw : Nat := 0
  c1 : Nat := 0
deriving DecidableEq, Repr

def count48 : Nat := 2 ^ 48 - 1
def all32 : Nat := 2 ^ 32 - 1
def all64 : Nat := 2 ^ 64 - 1

/-- MGT, LKO, PWR, TIM. -/
def mapSystem : List RegFam :=
  [{ lo := 0x0, wide := false }, { lo := 0x100, wide := false }, { lo := 0x180, n := 12, stride := 4, wide := false }, { lo := 0x200 },
   { lo := 0x208, wide := false, rw := 0xFFFF }, { lo := 0x300, rw := 2 ^ 64 - 4096 }, { lo := 0x308, wide := false, rw := 0xC0FFF01F },
   { lo := 0x310, wide := false }, { lo := 0x318, wide := false, rw := 0x800FFFFF },
   { lo := 0x100000, wide := false, rw := 0x3FFFFFF }, { lo := 0x100008 },
   { lo := 0x200000, rw := 0x0000FFFF000003FF }, { lo := 0x200008 }, { lo := 0x200010, wide := false, rw := 0xFF },
   { lo := 0x200018, wide := false }, { lo := 0x200020, wide := false },
   { lo := 0x300000 }, { lo := 0x300008, wide := false }, { lo := 0x300010 }, { lo := 0x300018, wide := false },
   { lo := 0x300020, wide := false, rw := 0xFFFFFF }]

/-- INT, SEM, PMC. -/
def mapIntSem : List RegFam :=
  [{ lo := 0x400000, n := 2048, stride := 32, wide := false, rw := 0x800003FF },
   { lo := 0x400008, n := 2048, stride := 32, rw := 0xC0FFFFFFC0FFFFFF }, { lo := 0x400010, n := 2048, stride := 32, rw := 0xC0FFFFFFC0FFFFFF },
   { lo := 0x410000, n := 128, wide := false, rw := 0xFFFF }, { lo := 0x411000, n := 2, stride := 16, wide := false },
   { lo := 0x411008, n := 2, stride := 16, wide := false }, { lo := 0x412000, rw := 2 ^ 63 - 1 },
   { lo := 0x500000, n := 256, stride := 16 }, { lo := 0x500008, n := 256, stride := 16 },
   { lo := 0x501000, n := 256, stride := 4, wide := false, rw := 0x800003FF }, { lo := 0x502000, c1 := 2 ^ 63 },
   { lo := 0x600000, n := 768, rw := count48 }, { lo := 0x602000, n := 768, rw := 0xFFFFFF03, c1 := 4 }, { lo := 0x604000, n := 768 },
   { lo := 0x606000, wide := false, rw := 0x0FFF0000 }, { lo := 0x606008, c1 := 2 ^ 11 }, { lo := 0x606010 }]

/-- HST, XLT, RNG. -/
def mapHost : List RegFam :=
  [{ lo := 0x800000, n := 16, wide := false, rw := 1 }, { lo := 0x800800, wide := false },
   { lo := 0x801000, n := 64, stride := 16, rw := 2 ^ 64 - 4095 }, { lo := 0x801008, n := 64, stride := 16, rw := 2 ^ 64 - 4096 },
   { lo := 0x980000, n := 4, rw := count48 }, { lo := 0x980020, rw := count48 }, { lo := 0x980028, wide := false, rw := all32 },
   { lo := 0x980040, wide := false, rw := 0xFFFFF }, { lo := 0x980048 }, { lo := 0x980050 }, { lo := 0x980058 },
   { lo := 0xA00000, n := 8192, stride := 32 }, { lo := 0xA00008, n := 8192, stride := 32 }, { lo := 0xA00010, n := 8192, stride := 32 },
   { lo := 0xA00018, n := 8192, stride := 32 }, { lo := 0xA40000, n := 8192, stride := 32 }, { lo := 0xA40008, n := 8192, stride := 32 },
   { lo := 0xA40010, n := 8192, stride := 32, wide := false }, { lo := 0xA40018, n := 8192, stride := 32 },
   { lo := 0xA80000, wide := false, rw := 0xFFFF }]

/-- CAT, BND, BOOM, RTE. -/
def mapFabric : List RegFam :=
  [{ lo := 0xC00000, wide := false, rw := 0x1FF }, { lo := 0xC00008, wide := false, rw := 0xF }, { lo := 0xC00010, wide := false, rw := 0x1F },
   { lo := 0xC00018, wide := false, rw := 0xFFFF }, { lo := 0xC00020, wide := false, rw := 0x3FF }, { lo := 0xC00028 },
   { lo := 0xC00030, n := 3, c1 := count48 }, { lo := 0xC00048, wide := false, rw := 0x3FFFFFF }, { lo := 0xC00050 },
   { lo := 0xD00000, wide := false, rw := 0x7FFFFF }, { lo := 0xD00008, wide := false, rw := 0xFFF }, { lo := 0xD00010 }, { lo := 0xD00018 },
   { lo := 0xD00020, c1 := count48 },
   { lo := 0xE00000, wide := false, rw := 0x7F }, { lo := 0xE00008 }, { lo := 0xE00010, n := 4, c1 := count48 },
   { lo := 0xE00030, wide := false, rw := 0x3FFFFF }, { lo := 0xE00038 },
   { lo := 0xF00000, wide := false, rw := 0xF }, { lo := 0xF00008, wide := false, rw := 0xFFFFFF3F }, { lo := 0xF00010, wide := false, rw := 0x1FFF },
   { lo := 0xF00018, wide := false }, { lo := 0xF00020, c1 := count48 }]

/-- SCH, CRZ. -/
def mapSched : List RegFam :=
  [{ lo := 0x1000000, wide := false, rw := all32 }, { lo := 0x1000008, wide := false, rw := 0xFFFF }, { lo := 0x1000010, wide := false, rw := 0x3FF },
   { lo := 0x1000018, wide := false, rw := 0xFFFF }, { lo := 0x1000020, wide := false, rw := all32 }, { lo := 0x1000040, n := 4, rw := all64 },
   { lo := 0x1000080, wide := false, rw := 0x7F }, { lo := 0x1000088, wide := false }, { lo := 0x1000090 }, { lo := 0x10000A0, rw := count48 },
   { lo := 0x10000A8, c1 := count48 },
   { lo := 0x1100000, wide := false, rw := 0xFFFF }, { lo := 0x1100008, wide := false, rw := 0x3F7F }, { lo := 0x1100010 },
   { lo := 0x1100018, wide := false, rw := 0x807FFFFF }, { lo := 0x1100020 }, { lo := 0x1100028, wide := false },
   { lo := 0x1100030, wide := false, rw := 0x1FFF }, { lo := 0x1100038 }, { lo := 0x1100040 }, { lo := 0x1100048 }, { lo := 0x1100050, wide := false }]

/-- LNK, BRG, ENG, HBM, EPC, ACL. -/
def mapLinks : List RegFam :=
  [{ lo := 0x1200000, n := 64, stride := 0x40 }, { lo := 0x1200008, n := 64, stride := 0x40, wide := false },
   { lo := 0x1200010, n := 64, stride := 0x40 }, { lo := 0x1200018, n := 64, stride := 0x40 },
   { lo := 0x1201000, rw := all64 }, { lo := 0x1201008, wide := false, rw := 0xFFFF }, { lo := 0x1201010, wide := false, rw := 0xFFFF00FF },
   { lo := 0x1400000, n := 2 }, { lo := 0x1500000, n := 32 },
   { lo := 0x1600000, wide := false, rw := 0xFF }, { lo := 0x1600008, c1 := 2 ^ 63 },
   { lo := 0x1700000, wide := false, rw := 7 }, { lo := 0x1700008 }, { lo := 0x1700010, wide := false }, { lo := 0x1700018, n := 5 },
   { lo := 0x1800000, n := 64, rw := 0x80003F3FFFFFFFFF }, { lo := 0x1800200, c1 := 2 ^ 63 }]

/-- Block numbers 0x00 to 0x18 that exist (R466). -/
def blockExists (b : Nat) : Bool := decide (b < 0x19 ∧ b ≠ 0x07 ∧ b ≠ 0x0B)

/-- The error registers of the block that an offset lies in (R416). -/
def mapErr (off : Nat) : List RegFam :=
  if blockExists (off / 0x100000) then
    [{ lo := off / 0x100000 * 0x100000 + 0xFFF00, c1 := 2 ^ 63 }, { lo := off / 0x100000 * 0x100000 + 0xFFF08, wide := false, rw := 0x80000FFF }]
  else []

def regMap (off : Nat) : List RegFam :=
  mapErr off ++ (mapSystem ++ (mapIntSem ++ (mapHost ++ (mapFabric ++ (mapSched ++ mapLinks)))))

/-- Bytes of a register. -/
def famBytes (f : RegFam) : Nat := if f.wide then 8 else 4

/-- The family holds the byte at `off`. -/
def famHolds (f : RegFam) (off : Nat) : Bool :=
  decide (f.lo ≤ off ∧ off < f.lo + f.n * f.stride ∧ (off - f.lo) % f.stride < famBytes f)

/-- The register that holds a byte, by the offset of its first byte within the die. -/
def regAt (off : Nat) : Option (Nat × RegFam) :=
  (regMap off).find? (famHolds · off) |>.map fun f => (off - (off - f.lo) % f.stride, f)

/-! ## Values that are computed -/

/-- A count that saturates at `2^n − 1`. -/
def sat (n v : Nat) : Nat := min v (2 ^ n - 1)

/-- MGT_MODE. -/
def modeReg (s : State) : Nat :=
  let y := s.sys
  modeCode y.mode + degradeBits s * 2 ^ 4 + y.bootStage % 8 * 2 ^ 21 + y.bootStatus * 2 ^ 24 + b2n (drained s) * 2 ^ 26
    + b2n s.arch.valid * 2 ^ 27 + b2n s.arch.copied * 2 ^ 28 + y.wakeSource % 4096 * 2 ^ 32

/-- A head register: HEAD, LAP, ARM. -/
def headReg (head : Nat) (lap arm : Bool) : Nat := head + b2n lap * 2 ^ 20 + b2n arm * 2 ^ 31

/-- MGT registers. -/
def viewMgt (s : State) (d : Die) (off : Nat) : Nat :=
  if off = 0 then 0x64B05A1C + d.idx
  else if off = 0x100 then routerAddrReg s d
  else if off < 0x200 then vstnMap s d (4 + (off - 0x180) / 4) % 2 ^ 32
  else if off = 0x200 then modeReg s
  else if off = 0x310 then headReg (die s d).evt.head (die s d).evt.lap (die s d).evt.arm
  else regVal s d off

/-- LKO_LOG_VIEW: CLASS above the low 52 bits, the µs in the place of CORR_COUNT; zero where the log is shorter. The field's
56 bits do not hold all that its description names. [log DEDUCED 163] -/
def logView (s : State) (d : Die) : Nat :=
  match (die s d).lko.log[bits (regVal s d 0x100000) 16 10]? with
  | some e => bits e.record 0 52 + bits e.record 60 3 * 2 ^ 52 + e.blk * 2 ^ 56
  | none => 0

/-- PWR_STATUS. -/
def pwrStatus (s : State) (d : Die) : Nat :=
  let p := (die s d).pwr
  p.est + min 1023 (tokensOut s d) * 2 ^ 20 + maxOf (p.thermal.map fun (_, v) => v / 8) % 256 * 2 ^ 40 + p.eighths * 2 ^ 48 + sat 8 p.queue.length * 2 ^ 56

/-- PWR_MON_VIEW of a thermal sensor or a voltage monitor. -/
def monView (s : State) (d : Die) : Nat :=
  let v := regVal s d 0x200010
  let i := bits v 0 6
  let p := (die s d).pwr
  if bits v 6 2 = 0 then
    let t := tget 0 p.thermal i
    t % 65536 + (if t > criticalAt s d then 2 else if t > warnAt s d then 1 else 0) * 2 ^ 30
  else if bits v 6 2 = 1 then tget 0 p.volts i % 65536 + tget 0 p.voltBand i * 2 ^ 30
  else 0

/-- PWR registers. -/
def viewPwr (s : State) (d : Die) (off : Nat) : Nat :=
  if off = 0x200008 then pwrStatus s d
  else if off = 0x200018 then monView s d
  else if off = 0x200020 then max s.west.pwr.avsWant s.east.pwr.avsWant + (die s d).pwr.appliedMv * 2 ^ 16
  else regVal s d off

/-- TIM_STATUS. -/
def timStatus (s : State) : Nat :=
  let t := s.time
  timeStCode t.st + b2n t.set * 8 + b2n (decide (t.slew ≠ 0)) * 16 + b2n t.step.isSome * 32 + b2n t.far * 64
    + sourceCode t.src % 128 * 2 ^ 8 + sourceCode t.src / 128 * 2 ^ 15 + t.stratum * 2 ^ 16 + t.gm % 2 ^ 20 * 2 ^ 20 + sat 24 t.estErr * 2 ^ 40

/-- A signed number in 32 bits, saturating. -/
def sat32 (v : Int) : Nat := ((max (-2147483648) (min 2147483647 v)) % 4294967296).toNat

/-- TIM registers. -/
def viewTim (s : State) (d : Die) (off : Nat) : Nat :=
  if off = 0x300000 then s.time.ns % 2 ^ 64
  else if off = 0x300008 then tget 0 s.views (regKey d 0x300008) - 1
  else if off = 0x300010 then timStatus s
  else if off = 0x300018 then sat32 s.time.lastOffset
  else regVal s .west off

/-- Level sources of R476. -/
def levelSource (n : Nat) : Bool := decide ((1792 ≤ n ∧ n ≤ 1816) ∨ (1894 ≤ n ∧ n ≤ 1900) ∨ n = 1985 ∨ n = 1986)

def srcStCode : SrcSt → Nat
  | .idle => 0 | .pending => 1 | .active => 2 | .activePending => 3

/-- INT registers; INT_CLAIM_c reads 0xFFF where it claims nothing. -/
def viewInt (s : State) (d : Die) (off : Nat) : Nat :=
  if off < 0x410000 then
    if off % 32 = 0 then
      let n := (off - 0x400000) / 32
      let x := src s d n
      srcCfg s d n + srcStCode x.st * 2 ^ 15 + b2n x.claimed * 2 ^ 17 + (x.lastTgt.getD 0) % 4 * 2 ^ 18 + b2n (levelSource n) * 2 ^ 29
    else regVal s d off
  else if off < 0x411000 then regVal s d off + b2n (groupBusy s d ((off - 0x410000) / 8)) * 2 ^ 31
  else if off < 0x412000 then (if off % 16 = 0 then 0xFFF else 0)
  else (die s d).eng.intWatch

/-- SEM registers. -/
def viewSem (s : State) (d : Die) (off : Nat) : Nat :=
  if off < 0x501000 then (if off % 16 = 0 then semWord s d ((off - 0x500000) / 16) else 0) else regVal s d off

/-- HST_BIF: codes in effect. -/
def bifReg (s : State) (d : Die) : Nat :=
  let h := (die s d).hst
  ((h.bifCodes.zip (List.range 4)).map fun (c, i) => c % 4 * 4 ^ i).sum + b2n h.adjusted * 2 ^ 8

def connStCode : ConnSt → Nat
  | .absent => 0 | .pending => 1 | .established => 2 | .draining => 3 | .failed => 4

/-- XLT_CONN_VIEW0 to 2 of the selected connection, live; one homed on the other die reads as ABSENT. -/
def connView (s : State) (d : Die) (i : Nat) : Nat :=
  let c := bits (regVal s d 0x980040) 0 20
  let k := if connDie c = d then conn s d c else {}
  if k.st = .absent then 0
  else if i = 0 then
    connStCode k.st + b2n k.cached * 2 ^ 5 + b2n (k.cached && connPinned k) * 2 ^ 6 + k.tc * 2 ^ 7 + k.mtu * 2 ^ 9 + k.localStation * 2 ^ 12
      + k.inst * 2 ^ 16 + k.remoteStation % 2 ^ 20 * 2 ^ 26 + k.remoteInst * 2 ^ 46
  else if i = 1 then k.nextPsn.toNat + k.expected.toNat * 2 ^ 32
  else k.cwnd % 2 ^ 32 + sat 16 (k.srtt / 10) * 2 ^ 32 + sat 16 k.ops.length * 2 ^ 48

/-- A value latched by a view read, or the live one. -/
def latched (s : State) (d : Die) (off live : Nat) : Nat :=
  let v := tget 0 s.views (regKey d off)
  if v = 0 then live else v - 1

/-- XLT registers. -/
def viewXlt (s : State) (d : Die) (off : Nat) : Nat :=
  if off = 0x980048 then connView s d 0
  else if off = 0x980050 then latched s d off (connView s d 1)
  else if off = 0x980058 then latched s d off (connView s d 2)
  else regVal s d off

/-- RNG_CMD_CFG. -/
def cmdCfg (r : CmdRing) : Nat :=
  r.log2 + r.prio * 2 ^ 5 + r.weight * 2 ^ 8 + r.burst * 2 ^ 16 + r.cq * 2 ^ 24 + r.inst * 2 ^ 40 + r.instRing * 2 ^ 50

/-- RNG_CQ_CFG and RNG_CQ_STATUS. -/
def cqCfg (q : CqRing) : Nat := q.log2 + q.inst * 2 ^ 8 + q.intSource * 2 ^ 18 + b2n q.intEn * 2 ^ 30 + q.instRing * 2 ^ 32
def cqStatus (q : CqRing) : Nat :=
  q.tail + b2n q.tailPhase * 2 ^ 20 + (q.reserved + q.haltHeld) * 2 ^ 21 + q.bound * 2 ^ 42 + b2n q.configured * 2 ^ 49

/-- The status word of a command ring: zero while unconfigured. -/
def ringWord (s : State) (d : Die) (n : Nat) : Nat := if (cmdRing s d n).configured then cmdStatus (cmdRing s d n) else 0

/-- RNG registers. -/
def viewRng (s : State) (d : Die) (off : Nat) : Nat :=
  if off < 0xA40000 then
    let n := (off - 0xA00000) / 32
    let r := cmdRing s d n
    if off % 32 = 0x18 then ringWord s d n
    else if r.configured = false then 0
    else if off % 32 = 0 then r.base
    else if off % 32 = 8 then cmdCfg r
    else r.shadowAddr + b2n r.shadowEn
  else if off < 0xA80000 then
    let q := cqRing s d ((off - 0xA40000) / 32)
    if off % 32 = 0x10 then headReg q.head q.lap q.arm
    else if off % 32 = 0x18 then cqStatus q
    else if q.configured = false then 0
    else if off % 32 = 0 then q.base
    else cqCfg q
  else regVal s d off

def ctxStCode : CtxSt → Nat
  | .closed => 0 | .opened => 1 | .draining => 2

/-- CAT registers. -/
def viewCat (s : State) (d : Die) (off : Nat) : Nat :=
  if off = 0xC00010 then regVal s d off + landingInUse s d % 32768 * 2 ^ 16
  else if off = 0xC00028 then postedDie s d + unexpDie s d * 2 ^ 32
  else if off = 0xC00050 then
    let v := regVal s d 0xC00048
    let i := bits v 16 10
    if (inst s i).st = .absent ∨ instDie s i ≠ d then 0
    else
      let x := ctxOf s d i (bits v 0 16)
      ctxStCode x.st + x.posted.length * 4 + x.unexp.length * 2 ^ 27
  else regVal s d off

def bndStCode : BndSt → Nat
  | .uninstalled => 0 | .ready => 1 | .aborted => 2

/-- BND_CTX_VIEW0 of the selected context. -/
def bndView0 (s : State) (d : Die) : Nat :=
  let c := bits (regVal s d 0xD00008) 0 12
  let x := bndCtx s d c
  match treeOf s d c with
  | some t =>
    bndStCode x.st + b2n t.root * 4 + b2n x.relaying * 8 + (if x.st = .aborted then x.abortCause % 256 else 0) * 2 ^ 8 + t.gen * 2 ^ 16
      + x.nextSeq % 2 ^ 32 * 2 ^ 32
  | none => 0

/-- BND_CTX_VIEW1: the children of the lowest segment of NEXT_SEQ that has no result yet. -/
def bndView1 (s : State) (d : Die) : Nat :=
  let x := bndCtx s d (bits (regVal s d 0xD00008) 0 12)
  let l := x.segs.filter fun y => decide (y.seq = x.nextSeq) && y.result.isNone
  match l.find? fun y => l.all fun z => decide (y.seg ≤ z.seg) with
  | some y => (y.held.map fun k => 2 ^ k.child).sum % 2 ^ 64
  | none => 0

/-- BND registers; BND_CTX_VIEW1 reads zero before BND_CTX_VIEW0 is read. -/
def viewBnd (s : State) (d : Die) (off : Nat) : Nat :=
  if off = 0xD00010 then bndView0 s d
  else if off = 0xD00018 then latched s d off 0
  else regVal s d off

def boomStCode : BoomSt → Nat
  | .absent => 0 | .unsynced => 1 | .synced => 2

/-- BOOM registers. NEXT of BOOM_FLOW_VIEW is undefined unless SYNCED; a read of it adds a free value. -/
def viewBoom (s : State) (d : Die) (off : Nat) : Nat :=
  if off = 0xE00008 then
    ((die s d).rtr.boom.filter fun (_, f) => decide (f.st ≠ .absent)).length + boomHeld s d * 2 ^ 24 + (boomBytes s d + 1048575) / 1048576 * 2 ^ 48
  else if off = 0xE00038 then
    let v := regVal s d 0xE00030
    let f := boomOf s d (bits v 0 20) (bits v 20 2)
    boomStCode f.st + f.held.length % 65536 * 2 ^ 12 + (if f.st = .synced then f.next else 0) * 2 ^ 32
  else regVal s d off

/-- RTE registers. -/
def viewRte (s : State) (d : Die) (off : Nat) : Nat :=
  if off = 0xF00000 then regVal s d off + b2n (wormhole s d) * 2 ^ 8 + b2n (routingValid s d) * 2 ^ 9
  else if off = 0xF00018 then
    let v := regVal s d 0xF00010
    let h := bits v 0 10
    match (gateways s d h)[bits v 10 3]? with
    | some e => e.router + e.port * 2 ^ 6 + b2n e.forerunner * 2 ^ 29 + b2n (gwUsable s d false h e) * 2 ^ 30 + b2n e.valid * 2 ^ 31
    | none => 0
  else regVal s d off

/-- The key that SCH_SHARE_MAP or SCH_INJ_WEIGHT shows: the selected instance's. -/
def shareKey (s : State) (d : Die) (off : Nat) : Nat :=
  (if off = 0x1000018 then 0x2001000 else 0x2000000) + 4 * bits (regVal s d 0x1000010) 0 10

/-- SCH registers. -/
def viewSch (s : State) (d : Die) (off : Nat) : Nat :=
  if off = 0x1000018 ∨ off = 0x1000020 then regVal s d (shareKey s d off)
  else if off = 0x1000088 ∨ off = 0x1000090 then
    let p := bits (regVal s d 0x1000080) 0 7
    if portOn d p then
      let g := gateOf s d (portK p)
      if off = 0x1000088 then
        b2n g.stagedValid + b2n g.pending * 2 + b2n g.pendClear * 4 + b2n g.guard_ * 8 + (gateNow s g).1 % 256 * 2 ^ 4 + g.active.length * 2 ^ 12
      else (if g.pending then g.pendTime else g.actTime)
    else 0
  else regVal s d off

/-- The egress that a CRZ select names, as the queues number it. -/
def selEgress (p : Nat) : Nat := if p ≥ 0x7E then p else portK p

/-- CRZ_NBR_VIEW: zero where there is no record of the router. [log DEDUCED 181] -/
def nbrView (s : State) (d : Die) : Nat :=
  let v := regVal s d 0x1100030
  match viewOf s d (bits v 0 6) with
  | some n =>
    let base := b2n (recStale s d n) * 2 ^ 35 + sat 16 ((s.now - n.at_) / 1000) * 2 ^ 48
    (match sumPort n.sum (bits v 6 7) with
     | some e => base + 2 ^ 34 + e.st % 4 * 2 ^ 32 + ((List.range 4).map fun i => e.occ.getD i 0 % 256 * 256 ^ i).sum
     | none => base)
  | none => 0

/-- CRZ registers. -/
def viewCrz (s : State) (d : Die) (off : Nat) : Nat :=
  let c := (die s d).crz
  if off = 0x1100010 then
    let v := regVal s d 0x1100008
    let k := 64 * selEgress (bits v 0 7) + bits v 8 6
    tget 0 c.sample k % 2 ^ 24 + tget 0 c.peak k % 2 ^ 24 * 2 ^ 24
  else if off = 0x1100020 then qViewVal s d
  else if off = 0x1100038 then nbrView s d
  else if off = 0x1100040 then c.mapDest % 2 ^ 20 + b2n c.mapEn * 2 ^ 20 + c.mapSeq * 2 ^ 24 + c.mapPeriod * 2 ^ 48
  else if off = 0x1100048 then c.rxBase
  else if off = 0x1100050 then c.rxFirst + c.rxGroups * 2 ^ 16
  else regVal s d off

/-- LNK registers. -/
def viewLnk (s : State) (d : Die) (off : Nat) : Nat :=
  if off < 0x1201000 then
    let k := (off - 0x1200000) / 0x40
    let l := link s d k
    if off % 0x40 = 0 then
      linkStCode l.st + l.cause * 2 ^ 8 + sat 8 (recent s 1000000000 l.offences).length * 2 ^ 16
        + sat 8 (recent s 10000000000 l.recoveries).length * 2 ^ 24 + b2n l.precode * 2 ^ 32 + b2n l.adminEn * 2 ^ 33 + b2n l.hold * 2 ^ 34
        + l.partnerPort % 128 * 2 ^ 37 + l.partner % 2 ^ 20 * 2 ^ 44
    else if off % 0x40 = 8 then l.rate + b2n l.split * 4 + b2n l.forerunner * 8 + l.credit * 2 ^ 10
    else if off % 0x40 = 0x10 then ((List.range 8).map fun i => (if l.split ∧ 4 ≤ i then 0 else l.lanes.getD i 0) % 256 * 256 ^ i).sum
    else
      sat 32 ((l.corrSym.filter fun (t, _) => inWindow s d t).map (·.2)).sum + sat 16 (l.badFrames.filter (inWindow s d)).length * 2 ^ 32
        + sat 16 l.rtt * 2 ^ 48
  else regVal s d off

/-- BRG_STATUS. -/
def brgStatus (s : State) (x : Brg) : Nat :=
  linkStCode x.st + x.cause * 2 ^ 8 + x.sparesWe * 2 ^ 16 + x.sparesEw * 2 ^ 24 + sat 8 (recent s 10000000000 x.recoveries).length * 2 ^ 32
    + x.lane % 2048 * 2 ^ 40 + b2n x.dirEw * 2 ^ 51 + b2n x.adminEn * 2 ^ 52

/-- ENG_PAIR_STATUS. -/
def pairStatus (p : Pair) : Nat :=
  pairStCode p.st + ((p.threads.zip (List.range 4)).map fun (t, i) => b2n t.isSome * 2 ^ i).sum * 2 ^ 12 + sat 8 p.mismatches * 2 ^ 16

/-- EPC registers of the selected domain, live. -/
def epcLive (s : State) (d : Die) (off : Nat) : Nat :=
  let n := bits (regVal s d 0x1700000) 0 3
  let x := dom s d n
  let marked (k : Nat) : Bool := (tget {} (die s d).epc.marks (8 * k + n)).marked
  if off = 0x1700008 then x.epoch + (match x.pend with | some p => p.epoch | none => 0) * 2 ^ 32
  else if off = 0x1700010 then
    b2n x.pend.isSome + b2n x.stagedValid * 2 + b2n (mismatched s d n) * 4 + b2n (match x.pend with | some p => p.requireLock | none => false) * 8
      + b2n (marked 64) * 16
  else if off = 0x1700018 then activeDigest s d n
  else if off = 0x1700020 then x.tag
  else if off = 0x1700028 then stagedDigest s d n
  else if off = 0x1700030 then (match x.pend with | some p => p.actTime | none => 0)
  else ((List.range 64).map fun k => b2n (marked k) * 2 ^ k).sum

/-- EPC registers. -/
def viewEpc (s : State) (d : Die) (off : Nat) : Nat :=
  if off = 0x1700000 then regVal s d off
  else if off = 0x1700008 then epcLive s d off
  else latched s d off (epcLive s d off)

/-- The value of the register at an offset within a die, as a read finds it. -/
def regValue (s : State) (d : Die) (off : Nat) : Nat :=
  let b := off / 0x100000
  if off % 0x100000 = 0xFFF00 then errStatus s d b
  else if off % 0x100000 = 0xFFF08 then regVal s d off
  else match b with
    | 0x00 => viewMgt s d off
    | 0x01 => if off = 0x100008 then logView s d else regVal s d off
    | 0x02 => viewPwr s d off
    | 0x03 => viewTim s d off
    | 0x04 => viewInt s d off
    | 0x05 => viewSem s d off
    | 0x08 => if off = 0x800800 then bifReg s d else regVal s d off
    | 0x09 => viewXlt s d off
    | 0x0A => viewRng s d off
    | 0x0C => viewCat s d off
    | 0x0D => viewBnd s d off
    | 0x0E => viewBoom s d off
    | 0x0F => viewRte s d off
    | 0x10 => viewSch s d off
    | 0x11 => viewCrz s d off
    | 0x12 => viewLnk s d off
    | 0x14 => brgStatus s (brg s d (if off = 0x1400000 then .north else .south))
    | 0x15 => pairStatus (pairOf s d ((off - 0x1500000) / 8))
    | 0x16 => if off = 0x1600000 then regVal s d off + b2n (die s d).eng.scrubFull * 2 ^ 31 else regVal s d off
    | 0x17 => viewEpc s d off
    | _ => regVal s d off

/-- A register whose value the spec leaves open now: BOOM_FLOW_VIEW.NEXT out of SYNCED, a process monitor. The mask of the
free bits. [log DESIGN CHOICE 95] -/
def freeBits (s : State) (d : Die) (off : Nat) : Nat :=
  if off = 0xE00038 then
    let v := regVal s d 0xE00030
    if (boomOf s d (bits v 0 20) (bits v 20 2)).st = .synced then 0 else 2 ^ 64 - 2 ^ 32
  else if off = 0x200018 then (if bits (regVal s d 0x200010) 6 2 = 2 then 0xFFFF else 0)
  else 0

/-- Read a register as it stands now; bits the spec leaves open are free. -/
def regNow (s : State) (d : Die) (off : Nat) : State × Nat :=
  let m := freeBits s d off
  if m = 0 then (s, regValue s d off)
  else
    let r := takeFree s
    (r.2, regValue s d off ||| (r.1.toNat &&& m))

end Sys2Proof.Machine
end

