-- ==== Sys2Proof/Machine/Regs.lean ====
section
/-! DEFINITION. Accesses to the register space (R342 to R345, R465 to R473): how each is judged, what a read returns and
latches, and what a write does. -/

namespace Sys2Proof.Machine

open Sys2Proof

/-! ## Writing a field (R468) -/

/-- Keep the old field where the value written is one that the field ignores. -/
def keepUnless (ok : Bool) (old v lo n : Nat) : Nat := if ok then v else setBits v lo n (bits old lo n)

/-- XLT_CC_WIN ignores a write that is not 1 ≤ MIN ≤ INIT ≤ MAX; XLT_RTX_CFG one that is not 1 ≤ RTO_MIN ≤ RTO_MAX. -/
def winOk (v : Nat) : Bool := decide (bits v 0 16 ≠ 0 ∧ bits v 0 16 ≤ bits v 16 16 ∧ bits v 16 16 ≤ bits v 32 16)
def rtxOk (v : Nat) : Bool := decide (bits v 0 16 ≠ 0 ∧ bits v 0 16 ≤ bits v 16 16)

/-- PWR_CFG: THROTTLE 60 to CRITICAL − 5, WARN 50 to THROTTLE, LIMIT 100 to 750. [log DEDUCED 171] -/
def pwrRule (old v : Nat) : Nat :=
  let v := keepUnless (decide (60 ≤ bits v 40 8 ∧ bits v 40 8 + 5 ≤ bits v 48 8)) old v 40 8
  let v := keepUnless (decide (50 ≤ bits v 32 8 ∧ bits v 32 8 ≤ bits v 40 8)) old v 32 8
  keepUnless (decide (100 ≤ bits v 0 10 ∧ bits v 0 10 ≤ 750)) old v 0 10

/-- The fields' own rules on ignored values. [log DEDUCED 76, DEDUCED 179] -/
def fieldRule (s : State) (d : Die) (off old v : Nat) : Nat :=
  let nz (lo n : Nat) (v : Nat) : Nat := keepUnless (decide (bits v lo n ≠ 0)) old v lo n
  let within (lo n a b : Nat) : Nat := keepUnless (decide (a ≤ bits v lo n ∧ bits v lo n ≤ b)) old v lo n
  if off = 0xA80000 then nz 0 16 v
  else if 0x980000 ≤ off ∧ off < 0x980020 then nz 0 16 (nz 16 16 v)
  else if off = 0x980020 then (if winOk v then v else old)
  else if off = 0x980028 then (if rtxOk v then v else old)
  else if off = 0xC00000 then within 0 9 0 256
  else if off = 0xC00008 then nz 2 2 v
  else if off = 0xC00010 then
    (if bit (regVal s d 0xC00008) 0 = false ∧ landingInUse s d = 0 ∧ bits v 0 5 ≤ 16 then v else old)
  else if off = 0xC00018 then (if s.sys.mode = .bringup ∧ bits v 0 16 ≤ 16384 then v else old)
  else if off = 0xC00020 then within 0 10 1 1000
  else if off = 0xD00000 then nz 0 16 (within 16 7 1 64)
  else if off = 0xE00000 then within 0 7 1 64
  else if off = 0xF00008 then nz 8 8 v
  else if off = 0x1000008 then within 0 16 1 1000
  else if off = 0x1100000 then within 0 16 2 1000
  else if off = 0x1201000 then nz 16 16 (within 0 16 8 65535)
  else if off = 0x1201008 then within 0 16 50 65535
  else if off = 0x1201010 then nz 16 16 (nz 0 8 v)
  else if off = 0x300 then (if bit (regVal s d 0x308) 31 then old else v)
  else if off = 0x308 then keepUnless (!(bit old 31) && decide (4 ≤ bits v 0 5 ∧ bits v 0 5 ≤ 16)) old v 0 5
  else if off = 0x318 then keepUnless (decide (bits v 0 4 = 0)) old v 0 20
  else if off = 0x1600000 then nz 0 8 v
  else if off = 0x300020 then nz 0 8 (within 16 8 1 50)
  else if off = 0x100000 then nz 0 16 v
  else if off = 0x200000 then pwrRule old v
  else v

/-! ## What a write does besides (R468) -/

/-- Where the register file holds a register: MGT_WAKE and TIM_CFG once for the device, at West; SCH_SHARE_MAP and
SCH_INJ_WEIGHT per instance. -/
def storeAt (s : State) (d : Die) (off : Nat) : Die × Nat :=
  if off = 0x208 ∨ off = 0x300020 then (.west, off)
  else if off = 0x1000018 ∨ off = 0x1000020 then (d, shareKey s d off)
  else (d, off)

/-- Drop the latched companions of a view whose select is written. -/
def unview (s : State) (d : Die) (offs : List Nat) : State :=
  { s with views := offs.foldl (fun t o => tset 0 t (regKey d o) 0) s.views }

/-- Clearing VALID clears MORE, and the level source of the log falls. -/
def logCleared (s : State) (d : Die) (off lo n level : Nat) : State :=
  let v := regVal s d off
  if bit v 63 then s else setLevel (setReg s d off (setBits v lo n 0)) d level false

/-- Clearing PENDING of an error record (R416). -/
def errClear (s : State) (d : Die) (b v : Nat) : State := if bit v 63 then errLevel (modErr s d b fun e => { e with pending := false }) d b else s

/-- SEM_CTL_n (R367). -/
def semCtl (s : State) (m : Master) (d : Die) (n v : Nat) : State :=
  match bits v 0 2 with
  | 1 => semReleaseOp s m d n
  | 2 => semArmOp s m d n (bits v 8 2) (bits v 12 12)
  | 3 => semDisarmOp s m d n
  | _ => s

/-- Two enabled regions share a byte. -/
def regionsMeet (a b : Nat) : Bool :=
  bit a 63 && bit b 63 && decide (bits a 0 16 ≤ bits b 16 16 ∧ bits b 0 16 ≤ bits a 16 16 ∧ bits a 0 16 ≤ bits a 16 16 ∧ bits b 0 16 ≤ bits b 16 16)

/-- A write of ACL_REGION_n updates both dies and the ACCESS domain's epoch; an overlap that it makes is announced (R342,
R343, R382). [log DEDUCED 180] -/
def aclWrite (s : State) (n v : Nat) : State :=
  let v := v &&& 0x80003F3FFFFFFFFF
  let off := 0x1800000 + 8 * n
  let s := bumpEpoch (bumpEpoch (setReg (setReg s .west off v) .east off v) .west 7) .east 7
  match (List.range 64).find? fun k => decide (k ≠ n) && regionsMeet v (aclRegion s k) with
  | some k => postBoth s 0x61 (evb 8 n + evb 9 k)
  | none => s

/-- The effects of a whole-register write that have no place in the register file. `old` is the file's value before, `data`
the 64 bits that take effect. -/
def regEffect (s : State) (m : Master) (d : Die) (off old data : Nat) : State :=
  let now := regVal s d off
  if off = 0x208 then (if bit data 31 then raiseAon s 1984 else s)
  else if off = 0x308 then (if bit now 31 && !(bit old 31) then mgtEvtStart s d else s)
  else if off = 0x310 then mgtHeadWrite s d (BitVec.ofNat 32 data)
  else if 0x400000 ≤ off ∧ off < 0x410000 then
    let n := (off - 0x400000) / 32
    if off % 32 = 0 then
      let s := if bit old 31 && !(bit now 31) then srcDisabled s d n else s
      if bit data 30 then raiseLocal s d n else s
    else srcRetarget s d n
  else if off = 0x411008 ∨ off = 0x411018 then intComplete s d ((off - 0x411008) / 16) (data % 4096)
  else if off = 0x412000 then onEng s d fun e => { e with intWatch := data % 2 ^ 63 }
  else if 0x500000 ≤ off ∧ off < 0x501000 then (if off % 16 = 8 then semCtl s m d ((off - 0x500000) / 16) data else s)
  else if off = 0x502000 then (if bit data 63 then logCleared s d off 57 6 1899 else s)
  else if off = 0x606000 then (if bit data 0 then pmcSnap s d else s)
  else if off = 0x606008 then (if bit now 11 then s else setReg s d off (setBits now 24 8 0))
  else if off = 0x980040 then unview s d [0x980050, 0x980058]
  else if off = 0xA40010 then (if (cqRing s d 0).configured then cqHeadWrite s d 0 (BitVec.ofNat 32 data) else s)
  else if off = 0xC00008 then (if bit data 31 then specFlush s d else s)
  else if off = 0xD00008 then unview s d [0xD00018]
  else if off = 0x1600000 then (if bit data 31 then scrubStart s d else s)
  else if off = 0x1600008 then (if bit data 63 then logCleared s d off 57 6 1900 else s)
  else if off = 0x1700000 then unview s d [0x1700010, 0x1700018, 0x1700020, 0x1700028, 0x1700030, 0x1700038]
  else if off = 0x1800200 then (if bit data 63 then logCleared s d off 56 6 1898 else s)
  else if off % 0x100000 = 0xFFF00 then errClear s d (off / 0x100000) data
  else s

/-- All bits of a register are written at once (R468). -/
def regStore (s : State) (m : Master) (d : Die) (off : Nat) (f : RegFam) (data : Nat) : State :=
  if 0x1800000 ≤ off ∧ off < 0x1800200 then aclWrite s ((off - 0x1800000) / 8) data
  else
    let k := storeAt s d off
    let old := regVal s k.1 k.2
    let v := ((old &&& (all64 ^^^ f.rw)) ||| (data &&& f.rw)) &&& (all64 ^^^ (data &&& f.c1))
    let s := if f.rw = 0 ∧ f.c1 = 0 ∨ off = 0x412000 then s else setReg s k.1 k.2 (fieldRule s k.1 off old v)
    regEffect s m d off old data

/-- A high-half write without a held low half: the low half keeps its value, and its RW1C and WO fields take no effect
(R470). -/
def regStoreHigh (s : State) (m : Master) (d : Die) (off : Nat) (f : RegFam) (data : Nat) : State :=
  let low := (if off = 0x412000 then (die s d).eng.intWatch else if 0x1800000 ≤ off ∧ off < 0x1800200 then aclRegion s ((off - 0x1800000) / 8)
    else regVal s d off) % 2 ^ 32
  regStore s m d off { f with c1 := f.c1 / 2 ^ 32 * 2 ^ 32 } (low &&& f.rw ||| data % 2 ^ 32 * 2 ^ 32)

/-! ## Half accesses (R470, R273) -/

/-- The low half that a master has written and not yet completed. -/
def heldLow (s : State) (m : Master) (off : Nat) : Option Nat := (s.holds.find? fun h => decide (h.who = m ∧ h.off = off)).map (·.val)

/-- Any other access of a master discards its held low half. -/
def unhold (s : State) (m : Master) : State := { s with holds := s.holds.filter fun h => decide (h.who ≠ m) }

/-- Take a latch of a high half: one for each master. -/
def latchHigh (s : State) (m : Master) (off val : Nat) : State :=
  { s with latches := s.latches.filter (fun h => decide (h.who ≠ m)) ++ [{ who := m, off := off, val := val }] }

/-- The high half latched for a master, if of that register. -/
def latchOf (s : State) (m : Master) (off : Nat) : Option Nat := (s.latches.find? fun h => decide (h.who = m ∧ h.off = off)).map (·.val)

def unlatch (s : State) (m : Master) : State := { s with latches := s.latches.filter fun h => decide (h.who ≠ m) }

/-! ## Judging (R342, R343, R467) -/

/-- The ACL block: ACL registers are written by control processors alone. -/
def aclBlock (off : Nat) : Bool := decide (off < 0x8000000 ∧ off % 0x4000000 / 0x100000 = 0x18)

/-- SDS but for its error record is firmware-private (R466). [log DESIGN CHOICE 135] -/
def sdsPrivate (off : Nat) : Bool :=
  decide (off < 0x8000000 ∧ off % 0x4000000 / 0x100000 = 0x13 ∧ off % 0x100000 < 0xFFF00)

/-- An access of a class is admitted. -/
def admits (s : State) (m : Master) (write : Bool) (off len : Nat) : Bool :=
  if write && aclBlock off then masterClass m == 2 else aclAdmits s (masterClass m) write off len

/-- How an access fared: let in, denied by the regions at an offset, or barred while the device is split (R307, R358). -/
inductive Access where
  | done (val : Nat)
  | denied (off : Nat)
  | barred
deriving DecidableEq, Repr

/-! ## Reads (R82, R273, R366, R377, R469) -/

/-- The bytes [at_, at_ + size) of a value. -/
def slice (v at_ size : Nat) : Nat := v / 2 ^ (8 * at_) % 2 ^ (8 * size)

/-- A full-width read of a view register latches its companions: one snapshot. [log DEDUCED 178] -/
def viewRead (s : State) (d : Die) (off : Nat) : State :=
  let put (s : State) (o v : Nat) : State := { s with views := tset 0 s.views (regKey d o) (v + 1) }
  if off = 0x980048 then put (put s 0x980050 (connView s d 1)) 0x980058 (connView s d 2)
  else if off = 0xD00010 then put s 0xD00018 (bndView1 s d)
  else if off = 0x300000 then put s 0x300008 s.time.frac
  else if off = 0x1700008 then
    [0x1700010, 0x1700018, 0x1700020, 0x1700028, 0x1700030, 0x1700038].foldl (fun a o => put a o (epcLive s d o)) s
  else if off = 0x1100020 then qViewRead s d
  else s

/-- A read at a register's full width: the state after, and the value. -/
def readWhole (s : State) (m : Master) (d : Die) (off : Nat) : State × Nat :=
  if off = 0x411000 ∨ off = 0x411010 then intClaim s d ((off - 0x411000) / 16)
  else if 0x500000 ≤ off ∧ off < 0x501000 ∧ off % 16 = 0 then semRead s m d ((off - 0x500000) / 16)
  else
    let r := regNow s d off
    (viewRead r.1 d off, r.2)

/-- A 4-byte read of half of a 64-bit register. -/
def readHalf (s : State) (m : Master) (d : Die) (off key : Nat) (high : Bool) : State × Nat :=
  let r := regNow s d off
  if high then
    match latchOf s m key with
    | some v => (unlatch s m, v)
    | none => (r.1, r.2 / 2 ^ 32)
  else (latchHigh r.1 m key (r.2 / 2 ^ 32), r.2 % 2 ^ 32)

/-- A read within a die. `o` is the offset within the die, `off` in the register space. -/
def readDie (s : State) (m : Master) (d : Die) (o off size : Nat) : State × Nat :=
  if 0xA81000 ≤ o ∧ o < 0xA82000 then
    (s, if o = 0xA81000 ∧ (size = 4 ∨ size = 8) then ringWord s d 0 % 2 ^ (8 * size) else 0)
  else if sdsPrivate off then
    if masterClass m = 2 then
      let r := takeFree s
      (r.2, r.1.toNat % 2 ^ (8 * size))
    else (s, 0)
  else
    match regAt o with
    | some (b, f) =>
      if size ∈ [1, 2, 4, 8] ∧ o % size = 0 ∧ o + size ≤ b + famBytes f then
        if size = famBytes f then readWhole s m d b
        else if f.wide ∧ size = 4 then readHalf s m d b (off - (o - b)) (decide (o ≠ b))
        else
          let r := regNow s d b
          (r.1, slice r.2 (o - b) size)
      else (s, 0)
    | none => (s, 0)

/-- A read of the register space by a master that is there to make it. `bar`: an access of the master itself, which the split
of the device bars from the other die, not one of a command. -/
def regReadAs (s : State) (m : Master) (bar : Bool) (off size : Nat) : State × Access :=
  let s := unhold s m
  if 0x8000000 ≤ off ∧ off < 0xC000000 then (s, .done 0)
  else if off ≥ 0x10000000 then (s, .done 0)
  else if bar && splitBars s m (offDie off) && decide (off < 0x8000000) then (s, .barred)
  else if !(admits s m false off (max 1 size)) then (s, .denied off)
  else if off ≥ 0x8000000 then (s, .done 0)
  else
    let r := readDie s m (offDie off) (off % 0x4000000) off size
    (r.1, .done r.2)

/-! ## Writes (R82, R467, R469, R470) -/

/-- The first byte of a register is touched by the access. -/
def touches (o size : Nat) : Bool := (regAt o).isSome || (regAt (o + size - 1)).isSome

/-- An admitted write within a die: the state after, and whether it is recorded as a denial. `key` names the register for
held halves, `low` the master's half held before this access. -/
def writeDie (s : State) (m : Master) (d : Die) (o size data : Nat) (low : Option Nat) (key : Nat) : State × Bool :=
  if 0xA81000 ≤ o ∧ o < 0xA82000 then (if (cmdRing s d 0).configured then ringDoorbell s d 0 else s, false)
  else if !(size == 4 || size == 8) || decide (o % size ≠ 0) then (s, true)
  else
    match regAt o with
    | some (b, f) =>
      if o + size > b + famBytes f then (s, true)
      else if size = famBytes f then (regStore s m d b f (data % 2 ^ (8 * size)), false)
      else if o = b then ({ s with holds := s.holds ++ [{ who := m, off := key, val := data % 2 ^ 32 }] }, false)
      else
        match low with
        | some v => (regStore s m d b f (v + data % 2 ^ 32 * 2 ^ 32), false)
        | none => (regStoreHigh s m d b f (data % 2 ^ 32), false)
    | none => (s, touches o size)

/-- The register-space offset of the register that a half write belongs to. -/
def halfKey (off : Nat) : Nat := off / 8 * 8

/-- The dies that a write of the device-global image reaches (R467): while split, the one that holds the writer's host port
or received its Flume command. -/
def imageDies (s : State) (home : Die) : List Die := if splitNow s then [home] else [.west, .east]

/-- A write of the device-global image: judged on each die, then applied at West and at East. [log DEDUCED 127] -/
def imageWrite (s : State) (m : Master) (home : Die) (x size data : Nat) (low : Option Nat) : State × Access :=
  let ds := imageDies s home
  match ds.find? fun d => !(admits s m true (regOff d x) (max 1 size)) with
  | some d => (s, .denied (regOff d x))
  | none =>
    let r := ds.foldl (fun (a : State × Bool) d =>
      let r := writeDie a.1 m d x size data low (halfKey (0x8000000 + x))
      (if r.2 then aclDenied r.1 m (regOff d x) else r.1, a.2)) (s, false)
    (r.1, .done 0)

/-- The half a master holds, kept once where both dies hold it. -/
def onceHeld (s : State) (m : Master) : State :=
  match s.holds.find? fun h => decide (h.who = m) with
  | some h => { s with holds := s.holds.filter (fun k => decide (k.who ≠ m)) ++ [h] }
  | none => s

/-- A write of the register space by a master that is there to make it. `home` is the die of its host port, or the one that
received its Flume command. -/
def regWriteAs (s : State) (m : Master) (bar : Bool) (home : Die) (off size data : Nat) : State × Access :=
  let low := heldLow s m (halfKey off)
  let s := unhold s m
  if 0x8000000 ≤ off ∧ off < 0xC000000 then
    let r := imageWrite s m home (off - 0x8000000) size data low
    (onceHeld r.1 m, r.2)
  else if off ≥ 0x10000000 then (s, .done 0)
  else if bar && splitBars s m (offDie off) && decide (off < 0x8000000) then (s, .barred)
  else if !(admits s m true off (max 1 size)) then (s, .denied off)
  else if off ≥ 0x8000000 then (s, .done 0)
  else
    let r := writeDie s m (offDie off) (off % 0x4000000) size data low (halfKey off)
    (if r.2 then aclDenied r.1 m off else r.1, .done 0)

end Sys2Proof.Machine
end

