-- ==== Sys2Proof/Machine/Mgmt.lean ====
section
/-! DEFINITION. MG_PORT_CTL (R299), MG_CRUISE_COLLECT (R266), MG_REG_READ and MG_REG_WRITE (R472), and the choice among the
MGMT operations by opcode (R36). -/

namespace Sys2Proof.Machine

open Sys2Proof

/-! ## MG_PORT_CTL -/

/-- The bridge that PORT names. -/
def portBridge (p : Nat) : Option Bridge := if p = 0x7E then some .north else if p = 0x7F then some .south else none

/-- CONFIGURE's fields are in range. -/
def configureForm (p rate credit : Nat) (split fore : Bool) : Bool :=
  decide (p < 64 ∧ rate ≠ 3 ∧ 65 ≤ credit) && ((rate == 2) == fore) && !(fore && split)

/-- The body of MG_PORT_CTL is in form. -/
def portCtlForm (s : State) (b : Block) : Bool :=
  let d := tgtDie b
  let p := fld b 20 0 7
  let a := fld b 21 0 3
  let bridge := (portBridge p).isSome
  zeros b [(20, 7, 1), (21, 3, 5), (22, 4, 4), (23, 0, 8), (25, 2, 6)] && zeroFrom b 26 && !(bothDies b) && decide (a ≤ 5) &&
    (bridge || (portOn d p && (decide (p < 64) || (link s d (portK p)).split))) && !(bridge && (a == 2 || a == 5)) &&
    (if a = 5 then configureForm p (fld b 22 0 2) (fld b 24 0 10) (fld b 22 2 1 == 1) (fld b 22 3 1 == 1)
     else fld b 22 0 8 == 0 && fld b 24 0 16 == 0)

/-- An action on a bridge; RETRAIN has no row in the bridge table. -/
def bridgeAct (s : State) (b : Bridge) : Nat → Option State
  | 0 => bridgeEnable s b
  | 1 => bridgeDisable s b
  | 4 => bridgeRelease s b
  | _ => none

/-- An action on a link, CONFIGURE apart. -/
def linkAct (s : State) (d : Die) (k : Nat) : Nat → Option State
  | 0 => linkEnable s d k
  | 1 => linkDisable s d k
  | 2 => linkDrain s d k
  | 3 => linkRetrain s d k
  | 4 => linkRelease s d k
  | _ => none

/-- MG_PORT_CTL. -/
def mgPortCtl (s : State) (b : Block) : MgRes :=
  let p := fld b 20 0 7
  let a := fld b 21 0 3
  if portCtlForm s b then
    match portBridge p with
    | some g => mgOpt (bridgeAct s g a)
    | none =>
      if a = 5 then mgOpt (portConfigure s (tgtDie b) p (fld b 22 0 2) (fld b 22 2 1 == 1) (fld b 22 3 1 == 1) (fld b 24 0 10))
      else mgOpt (linkAct s (tgtDie b) (portK p) a)
  else mgMalformed

/-! ## MG_CRUISE_COLLECT -/

/-- The body of MG_CRUISE_COLLECT is in form. -/
def cruiseForm (b : Block) : Bool :=
  let a := fld b 20 0 2
  let push := fld b 24 0 64
  let recv := fld b 32 0 96
  let period := fld b 28 0 16
  zeros b [(20, 2, 6), (21, 0, 24)] && zeroFrom b 44 &&
    (if a = 0 then push == 0 && recv == 0
     else if a = 1 then recv == 0 && zeros b [(24, 20, 12), (24, 0, 4), (30, 0, 16)] && (period == 0 || decide (period ≥ 100))
     else a == 2 && push == 0 && zeros b [(32, 0, 12), (40, 10, 6), (42, 11, 5)] && decide (fld b 42 0 11 ≤ 1024)
       && decide (fld b 40 0 10 + fld b 42 0 11 ≤ 1024))

/-- SET_PUSH: the first push follows at the next whole multiple of PERIOD. [log DEDUCED 102] -/
def setPush (s : State) (d : Die) (dest period : Nat) : State :=
  onCrz s d fun c =>
    { c with mapEn := decide (period ≠ 0), mapDest := dest, mapPeriod := period, mapMultiple := s.time.ns / (1000 * max 1 period) }

/-- SET_RECEIVE: no map is open in the new slots. -/
def setReceive (s : State) (d : Die) (base first groups : Nat) : State :=
  onCrz s d fun c => { c with rxBase := base, rxFirst := first, rxGroups := groups, rx := [] }

/-- MG_CRUISE_COLLECT. The parts of PUSH_NOW are handed to the router at once, so it completes at once. -/
def mgCruise (s : State) (b : Block) : MgRes :=
  let ds := if bothDies b then [Die.west, .east] else [tgtDie b]
  let each (f : State → Die → State) : State := ds.foldl f s
  if !(cruiseForm b) then mgMalformed
  else match fld b 20 0 2 with
    | 0 =>
      if ds.all fun d => (die s d).crz.mapEn then
        .ok (each pushMap) ((ds.map fun d => ((die s d).crz.mapSeq + 1) % 2 ^ 24 * 2 ^ (32 * d.idx)).sum)
      else mgState 0
    | 1 => .ok (each fun s d => setPush s d (fld b 24 0 20) (fld b 28 0 16)) 0
    | _ => .ok (each fun s d => setReceive s d (fld b 32 0 64) (fld b 40 0 10) (fld b 42 0 11)) 0

/-! ## MG_REG_READ and MG_REG_WRITE -/

/-- The body of a register command is in form. -/
def regCmdForm (b : Block) (write : Bool) : Bool :=
  let off := fld b 20 0 28
  let size := fld b 24 0 8
  zeros b [(20, 28, 4), (25, 0, 56)] && zeroFrom b 40 && !(bothDies b) && (size == 4 || size == 8) && decide (off % size = 0) &&
    (write || (fld b 32 0 64 == 0 && !(decide (0x8000000 ≤ off ∧ off < 0xC000000))))

/-- The master of a register command, and its home die: the management function, or the Flume's source router (R342, R467). -/
def regCmdMaster (s : State) (o : Nat) : Master × Die :=
  match (opOf s o).iss with
  | .flume d src _ _ => (.flume src, d)
  | _ => (.host (mgmtFn s), portDie (mgmtFn s).port)

/-- What an access answers to a register command: a denial is CC_ACCESS, SUBCAUSE 0x04 (R344). -/
def regCmdRes : State × Access → MgRes
  | (s, .done v) => .ok s v
  | _ => .err 0x06 0x04

/-- MG_REG_READ. -/
def mgRegRead (s : State) (o : Nat) (b : Block) : MgRes :=
  if regCmdForm b false then regCmdRes (regReadAs s (regCmdMaster s o).1 false (fld b 20 0 28) (fld b 24 0 8)) else mgMalformed

/-- MG_REG_WRITE: RESULT 0. -/
def mgRegWrite (s : State) (o : Nat) (b : Block) : MgRes :=
  if regCmdForm b true then
    regCmdRes (regWriteAs s (regCmdMaster s o).1 false (regCmdMaster s o).2 (fld b 20 0 28) (fld b 24 0 8) (fld b 32 0 64))
  else mgMalformed

/-! ## Dispatch (R36) -/

/-- The MGMT operation of a block `b` with chain `c`, from checks 2 to 6 of R54. [log DEDUCED 33] -/
def mgRun (s : State) (o : Nat) (b : Block) (c : List Block) : MgRes :=
  if !(targetOk b) then mgMalformed
  else match fld b 0 0 8 with
    | 0xE0 => mgIdentitySet s b
    | 0xE1 => mgPortCtl s b
    | 0xE2 => mgEpochWrite s b c
    | 0xE3 => mgEpochActivate s b
    | 0xE4 => mgGateStage s b c
    | 0xE5 => mgGateActivate s b
    | 0xE6 => mgInstanceCtl s o b
    | 0xE7 => mgGrant s o b
    | 0xE8 => mgModeSet s o b
    | 0xE9 => mgRegRead s o b
    | 0xEA => mgRegWrite s o b
    | 0xEB => mgCruise s b
    | 0xEC => mgShelfCollect s b
    | 0xED => mgFaultRelease s b
    | 0xEE => mgSemBankReset s b
    | 0xEF => mgTimeCtl s b
    | 0xF0 => mgArchiveCtl s o b
    | 0xF1 => mgRingCtl s o b
    | _ => mgMalformed

end Sys2Proof.Machine
end

