-- ==== Sys2Proof/Machine/Engine.lean ====
section
/-! DEFINITION. What a Carrel engine does with a command (02_taxia_command_set, 03_rings_and_doorbells): the chain fetch,
the order of checks, waiting for resources, execution, strides and preemption, and the reads and walks it waits for. -/

namespace Sys2Proof.Machine

open Sys2Proof

/-! ## Operations -/

/-- A new operation and its number. [log DESIGN CHOICE 11] -/
def newOp (s : State) (x : Op) : State × Nat := ({ s with ops := tset {} s.ops s.nextOp x, nextOp := s.nextOp + 1 }, s.nextOp)

/-- PHASE, SEQ and FENCE of the block are not looked at: a mailbox or Flume command, a deferred one. -/
def plainOp (x : Op) : Bool :=
  match x.iss with
  | .ring .. => x.deferred
  | _ => true

/-- TRIG_ARM, whose chain field holds the deferred block and that block's chain (R61). -/
def armsDeferred (x : Op) : Bool := fld x.blk 0 0 8 == 0x80 && !(chainBit x.blk)

/-- It uses an outstanding-operation slot (R114, R318): past check 5, and no armed trigger. -/
def usesSlot (x : Op) : Bool := !(opWaits x.phase) && decide (x.phase ≠ .armed ∧ x.phase ≠ .ready)

/-- Wait for a resource: since now, or since it first waited for it. -/
def waitFor (s : State) (o : Nat) (p : Phase) : State :=
  modOp s o fun x => { x with phase := p, since := if x.phase = p then x.since else s.now }

/-! ## Check 1: the chain (R46 to R50) -/

/-- What a chain still needs. -/
inductive ChainNeed where
  | block (addr : Nat)
  | complete
  | limit
deriving DecidableEq, Repr

/-- The next block of a command with chain `c` fetched so far. -/
def chainNeed (b : Block) (c : List Block) : ChainNeed :=
  if !(chainBit b) then .complete
  else match c.getLast? with
    | none => .block (nextAddr b)
    | some l => if !(nextMore l) then .complete else if c.length ≥ 64 then .limit else .block (nextAddr l)

/-- The blocks that following NEXT reaches. -/
def followed : List Block → List Block
  | [] => []
  | b :: t => if nextMore b then b :: followed t else [b]

/-- Read the next block: translated for an instance, untranslated on the management function's link (R47). -/
def readBlock (s : State) (o a hops : Nat) : State :=
  let x := opOf s o
  let s := modOp s o fun x => { x with phase := .fetching a hops }
  match x.inst with
  | none => askRead s (.op o) mgmtWho none false false a 64
  | some i =>
    match xltRange s x.xl i .lr (.op o) a 64 with
    | .ok ps => readPieces s (.op o) x.xl i a ps
    | .fail code => failOp s o code 0x01
    | .walk w => startWalk s w

/-! ## Checks 4 and 5 -/

/-- The context a command names. -/
def cmdCtx (s : State) (x : Op) : Ctx := ctxOf s x.die (x.inst.getD 1024) ((ctxField (opBlk x)).getD 0)

/-- The connection that a command names is ESTABLISHED and the instance's. -/
def connOk (s : State) (x : Op) : Bool :=
  match connField (opBlk x) with
  | some c => decide ((conn s x.die c).st = .established) && (x.inst.isNone || decide (some (conn s x.die c).inst = x.inst))
  | none => true

/-- Check 4 (R55, R112, R146, R167, R182, R65): the present state permits the command. [log DEDUCED 38] -/
def stateOk (s : State) (x : Op) : Bool :=
  let b := opBlk x
  let op := opcode x
  connOk s x &&
  (if op = 0x20 ∨ op = 0x21 ∨ op = 0x22 ∨ op = 0x25 then decide ((cmdCtx s x).st = .opened)
   else if op = 0x23 then (cmdCtx s x).posted.any fun r => decide (r.cookie = fld b 16 0 64)
   else if op = 0x24 then decide ((cmdCtx s x).st = .closed)
   else if op = 0x26 then decide ((cmdCtx s x).st = .draining)
   else if 0x40 ≤ op ∧ op ≤ 0x44 then collReady s x.die (x.inst.getD 1024) (fld b 16 0 12)
   else if op = 0x81 then
     (die s (tallyDie (fld b 16 0 24))).trigs.any fun g => decide (g.tally = fld b 16 0 24 ∧ g.tag = fld b 20 0 16)
   else true)

/-- An eager SEND (R156). [log DEDUCED 67] -/
def eagerSend (s : State) (x : Op) : Bool := decide (opBytes x ≤ 256 * bits (regVal s x.die 0xC00000) 0 9)

/-- The atomics of a connection end sent and not yet acknowledged (R125). -/
def atomicsOut (s : State) (k : Conn) : Nat := (k.ops.filter fun o => decide (opcode (opOf s o) = 0x61)).length

/-- The rendezvous SENDs of a connection end: unfinished, or waiting to send their request (R159). -/
def rdvHeld (s : State) (k : Conn) : Nat :=
  k.rdv.length + (k.ops.filter fun o => decide ((opOf s o).phase = .waitConn ∧ opcode (opOf s o) = 0x20) && !(eagerSend s (opOf s o))).length

/-- A RECV_POST of the same context that passed check 4 before this one still waits at check 5: it comes first in the posting
order (R151). -/
def earlierPost (s : State) (o : Nat) : Bool :=
  let x := opOf s o
  s.ops.any fun (n, y) => decide (n ≠ o ∧ y.die = x.die ∧ y.inst = x.inst ∧ opcode y = 0x22 ∧ recvCtx y = recvCtx x ∧ y.order < x.order ∧ y.order ≠ 0)
    && opWaits y.phase

/-- A COLL command of the same context that passed check 4 before this one still waits at check 5: it takes its sequence
number first (R183). -/
def earlierColl (s : State) (o : Nat) : Bool :=
  let x := opOf s o
  s.ops.any fun (n, y) => decide (n ≠ o ∧ y.die = x.die ∧ y.inst = x.inst ∧ 0x40 ≤ opcode y ∧ opcode y ≤ 0x44
      ∧ fld (opBlk y) 16 0 12 = fld (opBlk x) 16 0 12 ∧ y.order < x.order ∧ y.order ≠ 0)
    && opWaits y.phase

/-- The instance's operations, or the device's, that use a slot. [log DEDUCED 23] -/
def slotsUsed (s : State) (o : Nat) (p : Op → Bool) : Nat := (s.ops.filter fun (n, x) => decide (n ≠ o) && p x && usesSlot x).length

/-- Check 5: what the command must wait for. [log DEDUCED 71, DEDUCED 79] -/
def resourceWait (s : State) (o : Nat) : Option Phase :=
  let x := opOf s o
  let op := opcode x
  let i := x.inst.getD 1024
  if x.inst.isSome && decide (slotsUsed s o (fun y => decide (y.inst = x.inst)) ≥ (inst s i).maxOps) then some .waitMaxOps
  else if slotsUsed s o (fun _ => true) ≥ 262144 then some .waitSlots
  else if op = 0x24 ∧ openCtxs s x.die ≥ 131072 then some .waitCtx
  else if op = 0x22 ∧ (postedRoom s x.die i = false ∨ earlierPost s o = true) then some .waitPosted
  else if 0x40 ≤ op ∧ op ≤ 0x44 ∧ (collsOf s (bndCtx s x.die (fld (opBlk x) 16 0 12)) i ≥ 4 ∨ earlierColl s o = true) then some .waitColl
  else
    match connField (opBlk x) with
    | some c =>
      let k := conn s x.die c
      if op = 0x61 ∧ atomicsOut s k ≥ 256 then some .waitAtomics
      else if op = 0x20 ∧ eagerSend s x = false ∧ rdvHeld s k ≥ 1024 then some .waitRdv
      else if (cacheConn s x.die c).isNone then some .waitCache
      else none
    | none => none

/-- CONTEXT of an event of the thread that runs a command. -/
def thrCtx (x : Op) : Nat := match x.thread with | some (p, t) => engCtx p t | none => 0

/-! ## Strides (R67 to R69, R73, R354) -/

/-- A Tally field of a data command. -/
def remoteTally (b : Block) : Option Nat := if fld b 48 0 24 = noTally then none else some (fld b 48 0 24)

/-- The packets of one contiguous write, cut at the MTU: `data` none for ZERO's ranges. -/
def cutWrite (mtu rkey off len total : Nat) (data : Option (List Byte)) (tally : Option Nat) (base elem : Nat) (whole : Bool) : List Piece :=
  let n := max 1 ((len + mtu - 1) / mtu)
  (List.range n).map fun j =>
    let l := min mtu (len - j * mtu)
    let part := data.map fun b => (b.drop (j * mtu)).take l
    { op := .write rkey (off + j * mtu) l (if j = 0 then total else 0) part tally (whole && decide (j = 0))
      flits := match part with | some b => dataFlits b.length | none => 1
      bytes := match part with | some b => b.length | none => 0
      off := base + j * mtu, elem := elem, strideEnd := decide (j + 1 = n) }

/-- Local address and length of a stride's source; none to read for ZERO. -/
def strideSource (x : Op) (n : Nat) : Nat × Nat :=
  let b := opBlk x
  let e := (elements x).getD n (0, 0, 0)
  if opcode x = 0x04 then (e.1, e.2.1)
  else if opcode x = 0x05 then (fld b 16 0 64 + elemBytesBefore x n, e.2.1)
  else if opcode x = 0x01 then (fld b 16 0 64 + 65536 * n, min 65536 (opBytes x - 65536 * n))
  else (0, 0)

/-- The bytes of a command before stride `n`. -/
def strideBase (x : Op) (n : Nat) : Nat := if isElems (opcode x) then elemBytesBefore x n else 65536 * n

/-- The packets of stride `n`, whose source bytes are `data` (R119, R122). Those of a command being cancelled name no Tally
(R74). -/
def stridePieces (x : Op) (mtu n : Nat) (data : List Byte) : List Piece :=
  let b := opBlk x
  let e := (elements x).getD n (0, 0, 0)
  let t := if x.cancel then none else remoteTally b
  let l :=
    if opcode x = 0x04 then
      cutWrite mtu (fld b 32 0 32) (fld b 24 0 64 + elemBytesBefore x n) e.2.1 (if n = 0 then opBytes x else 0) (some data) t (strideBase x n) n false
    else if opcode x = 0x05 then cutWrite mtu e.2.2 e.1 e.2.1 e.2.1 (some data) t (strideBase x n) n true
    else
      cutWrite mtu (fld b 32 0 32) (fld b 24 0 64 + 65536 * n) (min 65536 (opBytes x - 65536 * n)) (if n = 0 then opBytes x else 0)
        (if opcode x = 0x06 then none else some data) t (strideBase x n) 0 false
  (l.zip (List.range l.length)).map fun (p, j) =>
    { p with first := decide (n = 0 ∧ j = 0), last := decide (n + 1 = x.strides ∧ j + 1 = l.length) }

/-- A local failure at the present stride (R127, R141): the strides before it are delivered. -/
def strideFail (s : State) (o code : Nat) : State :=
  let x := opOf s o
  if isElems (opcode x) then failAfter s o 0x01 code x.nextStride (elemBytesBefore x x.nextStride)
  else failAfter s o code 0x01 0x1F (65536 * x.nextStride)

/-- Cells that the packets of the present stride take: its data and a header flit for each packet. -/
def strideCells (x : Op) (mtu : Nat) : Nat :=
  let n := (strideSource x x.nextStride).2
  (n + 63) / 64 + (n + mtu - 1) / mtu + 1

/-- Read the source of the present stride. -/
def readStride (s : State) (o : Nat) : State :=
  let x := opOf s o
  let src := strideSource x x.nextStride
  match xltRange s x.xl (x.inst.getD 1024) .lr (.op o) src.1 src.2 with
  | .ok ps => if ps.isEmpty then modOp s o fun x => { x with read := some { bytes := [], fail := none } } else readPieces s (.op o) x.xl (x.inst.getD 1024) src.1 ps
  | .fail code => strideFail s o code
  | .walk w => startWalk s w

/-- Its next stride may begin: fewer than four staged and untransmitted, room in the packet buffer for its data, and its power
tokens granted (R68, R354). [log DESIGN CHOICE 219] -/
def strideMayBegin (s : State) (x : Op) : Bool :=
  match x.conn with
  | some c => !x.begun && x.thread.isSome && decide (x.phase = .long .running ∧ x.nextStride < x.strides ∧ stagedStrides (conn s x.die c) < 4) &&
      bufRoom s x.die (strideCells x (mtuBytes (conn s x.die c).mtu)) &&
      (decide (opBytes x ≤ 16777216) || decide (x.tokens > 0))
  | none => false

/-- Begin the next stride if it may. -/
def beginStride (s : State) (o : Nat) : State :=
  if strideMayBegin s (opOf s o) then readStride (modOp s o fun x => { x with begun := true }) o else s

/-- A long command takes an engine thread and runs. -/
def runLong (s : State) (o : Nat) (p : Nat × Nat) : State :=
  beginStride (modOp (putThread s (opOf s o).die o p) o fun x => { x with phase := .long .running, preempt := false }) o

/-- A whole local range lies in one window of its instance with a permission (R335); the management function has none to
check (R47). -/
def localOk (s : State) (x : Op) (a n : Nat) (perm : Win → Bool) : Bool :=
  match x.inst with
  | some i => (match winHolding (inst s i) a n with | some (_, w) => perm w | none => false)
  | none => true

/-- PUT, GATHER, SCATTER and ZERO begin: the resume record, an engine thread, or suspended until one is free (R69, R72). -/
def startLong (s : State) (o c : Nat) : State :=
  let x := opOf s o
  let n := if isElems (opcode x) then (elements x).length else max 1 ((opBytes x + 65535) / 65536)
  if opcode x = 0x01 ∧ opBytes x ≠ 0 ∧ localOk s x (fld (opBlk x) 16 0 64) (opBytes x) (·.lr) = false then failOp s o 0x06 0x01
  else
    let mtu := mtuBytes (conn s x.die c).mtu
    let s := modOp s o fun x => { x with strides := n, nextStride := 0, psnPerStride := 65536 / mtu, phase := .long .suspended }
    let s := modConn s x.die c fun k => { k with longOp := some o }
    match (freeThreads s x.die).head? with
    | some p => runLong s o p
    | none => s

/-! ## Execution (check 6) -/

/-- Every packet is staged: the connection takes what waits for its turn. -/
def connFree (s : State) (d : Die) (c o : Nat) : State :=
  let s := modConn s d c fun k => { k with longOp := if k.longOp = some o then none else k.longOp }
  flushSides (conn s d c).sides.length s d c

/-- PUT_INLINE. -/
def goPutInline (s : State) (o c : Nat) : State :=
  let x := opOf s o
  let b := opBlk x
  let n := opBytes x
  stagePieces (modOp s o fun x => { x with phase := .sent }) x.die c o
    [{ op := .write (fld b 24 0 32) (fld b 16 0 64) n n (some (blkBytes b 32 n)) none false, flits := 1, bytes := n, first := true, last := true }]

/-- GET: read requests of at most 65,536 bytes (R120). The whole local range lies in one window with LW (R335). -/
def goGet (s : State) (o c : Nat) : State :=
  let x := opOf s o
  let n := opBytes x
  if n ≠ 0 ∧ localOk s x (fld (opBlk x) 16 0 64) n (·.lw) = false then failOp s o 0x06 0x01
  else
    let l := if n = 0 then [(0, 0)] else cutReads (n / 65536 + 1) 0 n
    let ps := (l.zip (List.range l.length)).map fun (r, j) => getPiece x o (decide (j = 0)) (decide (j + 1 = l.length)) r
    stagePieces (modOp s o fun x => { x with phase := .sent, since := s.now }) x.die c o ps

/-- ATOMIC (R123): operands from the block, or from the extension block for 16 bytes. -/
def goAtomic (s : State) (o c : Nat) : State :=
  let x := opOf s o
  let b := opBlk x
  let e := (opChain x).headD 0
  let big := fld b 28 24 1 == 1
  let size := if big then 16 else 8
  let a := if big then fld e 0 0 128 else fld b 32 0 64
  let v := if big then fld e 16 0 128 else fld b 40 0 64
  stagePieces (modOp s o fun x => { x with phase := .sent }) x.die c o
    [{ op := .atomic (fld b 24 0 32) (fld b 16 0 64) size (fld b 28 20 4) a v, flits := 1, bytes := size, first := true, last := true }]

/-- The packets of an eager message (R157). -/
def msgPieces (mtu ctx tag : Nat) (data : List Byte) : List Piece :=
  let n := max 1 ((data.length + mtu - 1) / mtu)
  (List.range n).map fun j =>
    let part := (data.drop (j * mtu)).take mtu
    { op := if j = 0 then .msg ctx tag data.length part else .more part, flits := dataFlits part.length, bytes := part.length
      off := j * mtu, first := decide (j = 0), last := decide (j + 1 = n) }

/-- Send an eager message whose payload has been read. -/
def sendEager (s : State) (o c : Nat) (data : List Byte) : State :=
  let x := opOf s o
  let b := opBlk x
  let tag := if opcode x = 0x21 then fld b 16 0 64 else fld b 24 0 64
  connFree (stagePieces (modOp s o fun x => { x with phase := .sent }) x.die c o
    (msgPieces (mtuBytes (conn s x.die c).mtu) ((ctxField b).getD 0) tag data)) x.die c o

/-- Read the payload of an eager SEND before sending any of it. -/
def readSend (s : State) (o c : Nat) : State :=
  let x := opOf s o
  match xltRange s x.xl (x.inst.getD 1024) .lr (.op o) (fld (opBlk x) 16 0 64) (opBytes x) with
  | .ok ps => if ps.isEmpty then sendEager s o c [] else readPieces s (.op o) x.xl (x.inst.getD 1024) (fld (opBlk x) 16 0 64) ps
  | .fail code => failOp s o code 0x01
  | .walk w => startWalk s w

/-- The first pull handle from `h` on that no rendezvous SEND of the connection end uses. -/
def freeHandle (s : State) (k : Conn) : Nat → Nat → Nat
  | 0, h => h
  | n + 1, h => if k.rdv.any fun o => decide ((opOf s o).handle = h) then freeHandle s k n ((h + 1) % 65536) else h

/-- A rendezvous SEND: its request-to-send (R159). -/
def sendRts (s : State) (o c : Nat) : State :=
  let x := opOf s o
  let b := opBlk x
  let k := conn s x.die c
  let h := freeHandle s k 1025 (k.nextHandle % 65536)
  let s := modConn (modOp s o fun x => { x with phase := .rendezvous, handle := h }) x.die c fun k => { k with nextHandle := h + 1, rdv := k.rdv ++ [o] }
  stagePieces s x.die c o
    [{ op := .rts ((ctxField b).getD 0) (fld b 24 0 64) (opBytes x) h, flits := 1, bytes := 0, first := true, last := true }]

/-- SEND (R156). -/
def goSend (s : State) (o c : Nat) : State :=
  let x := opOf s o
  if eagerSend s x then
    readSend (modConn (modOp s o fun x => { x with phase := .reading }) x.die c fun k => { k with longOp := some o }) o c
  else if (conn s x.die c).rdv.length ≥ 1024 then modOp s o fun x => { x with phase := .waitConn }
  else sendRts s o c

/-- SEND_INLINE. -/
def goSendInline (s : State) (o c : Nat) : State :=
  sendEager s o c (blkBytes (opBlk (opOf s o)) 32 (opBytes (opOf s o)))

/-- RECV_CANCEL (R167): the earliest posted receive with that cookie. -/
def goRecvCancel (s : State) (o : Nat) : State :=
  let x := opOf s o
  let i := x.inst.getD 1024
  let c := (ctxField (opBlk x)).getD 0
  match (ctxOf s x.die i c).posted.find? fun r => decide (r.cookie = fld (opBlk x) 16 0 64) with
  | some r =>
    let s := modCtx s x.die i c fun y => { y with posted := y.posted.filter fun p => decide (p.op ≠ r.op) }
    completeOp (completeOp s r.op { code := 0x0E }) o { code := 0 }
  | none => failOp s o 0x02 0

/-- CTX_OPEN, CTX_DRAIN and CTX_CLOSE (R146). -/
def goCtxOpen (s : State) (o : Nat) : State :=
  let x := opOf s o
  completeOp (modCtx s x.die (x.inst.getD 1024) ((ctxField (opBlk x)).getD 0) fun y => { y with st := .opened }) o { code := 0 }
def goCtxDrain (s : State) (o : Nat) : State :=
  let x := opOf s o
  modOp (modCtx s x.die (x.inst.getD 1024) ((ctxField (opBlk x)).getD 0) fun y => { y with st := .draining }) o fun x => { x with phase := .ctxDrain }
def goCtxClose (s : State) (o : Nat) : State :=
  let x := opOf s o
  modOp (closeCtx s x.die (x.inst.getD 1024) ((ctxField (opBlk x)).getD 0)) o fun x => { x with phase := .ctxDrain }

/-- TALLY_WRITE (R64): the value is set, saturation cleared, every trigger of the Tally evaluated. -/
def goTallyWrite (s : State) (o : Nat) : State :=
  let b := opBlk (opOf s o)
  completeOp (fireTriggers (setTally s (fld b 16 0 24) { val := fld b 20 0 48, sat := false }) (fld b 16 0 24)) o { code := 0 }

/-- TALLY_READ: value in RESULT[47:0], saturation in RESULT[48] (R44, R140). -/
def goTallyRead (s : State) (o : Nat) : State :=
  let t := tally s (fld (opBlk (opOf s o)) 16 0 24)
  completeOp s o { code := 0, result := t.val + b2n t.sat * 2 ^ 48 }

/-- TRIG_DISARM (R65): the earliest armed trigger with that tag on that Tally. [log DEDUCED 24] -/
def goTrigDisarm (s : State) (o : Nat) : State :=
  let b := opBlk (opOf s o)
  match (die s (tallyDie (fld b 16 0 24))).trigs.find? fun g => decide (g.tally = fld b 16 0 24 ∧ g.tag = fld b 20 0 16) with
  | some g => completeOp (completeOp s g.op { code := 0x0E }) o { code := 0 }
  | none => failOp s o 0x02 0

/-- What a MGMT operation or RING_RESET answered becomes its record. -/
def settle (s : State) (o : Nat) : MgRes → State
  | .ok s result => completeOp s o { code := 0, result := result }
  | .err code sub => failOp s o code sub
  | .hold s => s

/-- A command of a connection executes: it takes its PSNs, or begins to. -/
def goConn (s : State) (o c : Nat) : State :=
  let op := opcode (opOf s o)
  if isLong op then startLong s o c
  else if op = 0x02 then goPutInline s o c
  else if op = 0x03 then goGet s o c
  else if op = 0x61 then goAtomic s o c
  else if op = 0x20 then goSend s o c
  else goSendInline s o c

/-- A command without a connection executes. -/
def goPlain (s : State) (o : Nat) : State :=
  let x := opOf s o
  let op := opcode x
  if op = 0x22 then postRecv s o
  else if op = 0x23 then goRecvCancel s o
  else if op = 0x24 then goCtxOpen s o
  else if op = 0x25 then goCtxDrain s o
  else if op = 0x26 then goCtxClose s o
  else if 0x40 ≤ op ∧ op ≤ 0x44 then collStart s o
  else if op = 0x62 then goTallyWrite s o
  else if op = 0x63 then goTallyRead s o
  else if op = 0x64 then settle s o (syncRingReset s o (opBlk x))
  else if op = 0x81 then goTrigDisarm s o
  else completeOp s o { code := 0 }

/-- The connection's context is cached and pinned, and counts the command (R113, R114). -/
def takeConn (s : State) (o c : Nat) : State :=
  let d := (opOf s o).die
  modOp (modConn ((cacheConn s d c).getD s) d c fun k => { k with ops := addNew k.ops o }) o fun x => { x with conn := some c }

/-- Past check 5: a destination absent from the active epoch fails the connection at once
(R22, R143), a context that another key sealed is poison (R347, R142); otherwise the command executes in issue order. -/
def execute (s : State) (o : Nat) : State :=
  let x := opOf s o
  match connField (opBlk x) with
  | some c =>
    let s := takeConn s o c
    if opens s x.die (conn s x.die c).inst (conn s x.die c).sealedBy = false then failConn s x.die c 0x07 0x03 true
    else if destAbsent s x.die (conn s x.die c).remoteStation then failConn s x.die c 0x0A 0x02 true
    else if connBusy s x.die c o then modOp s o fun x => { x with phase := .waitConn }
    else goConn s o c
  | none => goPlain (modOp s o fun x => { x with phase := .done }) o

/-! ## VIA_FLUME (R45, R249, R252) -/

/-- Commands of one issuer that await a Flume answer. [log DEDUCED 28] -/
def flumeOut (s : State) (i : Issuer) : Nat := (s.ops.filter fun (_, x) => decide (x.iss = i ∧ x.phase = .flume)).length

/-- Send a request whole, in the Flume tier of the management function's port (R240): the block, then one packet for each
extension block. A device without identity sends nothing (R15). -/
def flumeSend (s : State) (o : Nat) : State :=
  let x := opOf s o
  let pkt (t part : Nat) (b : Block) : Pkt := (flumePkt s x.die (tgtAddr x.blk)
    { ftype := t, form := 0, relayPort := 0, part := part, parts := x.chain.length, reqSeq := x.seq, reqDie := x.die.idx, blk := b })
  let s := modOp s o fun x => { x with lastSend := s.now }
  let l := pkt 0 0 x.blk :: (x.chain.zip (List.range x.chain.length)).map fun (b, j) => pkt 1 (j + 1) b
  if s.ident.valid then
    onSch s x.die fun y => { y with inject := tmod {} y.inject ((mgmtFn s).port % 4) fun z =>
      { z with flume := z.flume ++ l.map fun p => { pkt := p, chan := 16, stage := 0, at_ := s.now, inst := none } } }
  else s

/-- Take a VIA_FLUME command to its target. -/
def flumeBegin (s : State) (o : Nat) : State :=
  if flumeOut s (opOf s o).iss ≥ 64 then waitFor s o .waitFlume
  else flumeSend (modOp s o fun x => { x with phase := .flume, firstSend := s.now }) o

/-- A MGMT command of the management rings, the mailbox or the Flume executes, here or at its target: one that is refused fails at
once, any other waits at check 5 for an outstanding-operation slot (R54, R114). -/
def mgmtGo (s : State) (o : Nat) : State :=
  let x := opOf s o
  let here := if viaFlume x.blk && (match x.iss with | .flume .. => false | _ => true) then none else some (mgRun s o x.blk x.chain)
  match here with
  | some (.err code sub) => failOp s o code sub
  | r => match resourceWait s o with
    | some p => waitFor s o p
    | none => match r with
      | some r => settle s o r
      | none => flumeBegin s o

/-- Check 4. A message command that has passed it is judged again, after a wait, by its connection alone: a context that drains
meanwhile refuses later commands only (R146, R151). -/
def check4 (s : State) (x : Op) : Bool :=
  if decide (x.order ≠ 0) && (opcode x ∈ [0x20, 0x21, 0x22]) then connOk s x else stateOk s x

/-- The command has passed check 4: its place in that order. -/
def passed4 (s : State) (o : Nat) : State :=
  if (opOf s o).order ≠ 0 then s else { modOp s o (fun x => { x with order := s.nextOp }) with nextOp := s.nextOp + 1 }

/-- Checks 4 and 5, then execution. -/
def opRun (s : State) (o : Nat) : State :=
  if classOf (opOf s o).blk = 7 then mgmtGo s o
  else if !(check4 s (opOf s o)) then failOp s o 0x02 0
  else
    let s := passed4 s o
    match resourceWait s o with
    | some p => waitFor s o p
    | none => execute s o

/-! ## TRIG_ARM (R61, R62, R66) -/

/-- A trigger slot is free: MAX_TRIGGERS of the instance, or 1,024 for the management rings of a die. -/
def trigRoom (s : State) (x : Op) : Bool :=
  match x.inst with
  | some i => decide (((s.west.trigs ++ s.east.trigs).filter fun g => decide (g.inst = some i)).length < (inst s i).maxTriggers)
  | none => decide (((die s x.die).trigs.filter fun g => decide (g.inst = none)).length < 1024)

/-- Arm: the trigger joins its Tally's in arming order, the ring's fences see the TRIG_ARM complete (R59), and it fires at
once when its Tally is already there. [log DEDUCED 208] -/
def arm (s : State) (o : Nat) : State :=
  let x := opOf s o
  let n := fld x.blk 32 0 24
  let ring := match x.iss with | .ring _ r => r | _ => 0
  let s := modOp s o fun x => { x with phase := .armed, handle := s.nextOp }
  let s := { s with nextOp := s.nextOp + 1 }
  let s := match x.iss with
    | .ring d r => modCmdRing s d r fun y => { y with outstanding := without y.outstanding o }
    | _ => s
  let s := onDie s (tallyDie n) fun y =>
    { y with trigs := y.trigs ++ [{ op := o, inst := x.inst, ring := ring, tally := n, threshold := fld x.blk 24 0 48, tag := fld x.blk 30 0 16 }] }
  fireTriggers s n

/-- The deferred block and its chain are fetched: checks 2 and 3 on it, then the wait for a slot. -/
def armChecked (s : State) (o : Nat) : State :=
  let x := opOf s o
  let b := x.chain.headD 0
  if notDeferred (fld b 0 0 8) then failOp s o 0x03 0
  else match staticCheck s x.inst x.die b x.chain.tail true with
    | some code => failOp s o code 0
    | none => if trigRoom s x then arm s o else waitFor s o .waitTrig

/-! ## The order of checks (R54) -/

/-- A MGMT command from checks 2 on. -/
def mgmtChecked (s : State) (o : Nat) : State :=
  let x := opOf s o
  let remote := viaFlume x.blk && (match x.iss with | .flume .. => false | _ => true)
  if !(headForm x.blk x.chain (plainOp x)) then failOp s o 0x03 0
  else match x.inst with
    | some _ =>
      (match mgRun s o x.blk x.chain with
      | .err 0x03 sub => failOp s o 0x03 sub
      | _ => failOp s o 0x06 0)
    | none => if remote && !(targetOk x.blk) then failOp s o 0x03 0 else opRun s o

/-- The chain is complete: checks 2 and 3, then the rest. The mailbox takes MGMT commands only (R350). -/
def opChecked (s : State) (o : Nat) : State :=
  let s := actsSettle (actsSettle s .west) .east
  let x := opOf s o
  if classOf x.blk = 7 then mgmtChecked s o
  else match staticCheck s x.inst x.die x.blk x.chain (plainOp x) with
    | some code => failOp s o code 0
    | none => if x.iss = .mailbox then failOp s o 0x06 0 else opRun s o

/-- What the chain of the operation, or of its deferred block, still needs. [log DEDUCED 27] -/
def opNeeds (x : Op) : ChainNeed :=
  if armsDeferred x then
    match x.chain with
    | [] => .block (fld x.blk 16 0 64)
    | b :: c => chainNeed b c
  else chainNeed x.blk x.chain

/-- Step 1 goes on: fetch the next block, fail at the hop limit, or go to the checks. -/
def chainStep (s : State) (o : Nat) : State :=
  let x := opOf s o
  match opNeeds x with
  | .block a => readBlock s o a x.chain.length
  | .limit => failOp s o 0x09 0
  | .complete => if armsDeferred x then armChecked s o else opChecked s o

/-- A consumed or accepted command starts. The mailbox fetches no chain; a Flume request brings its own. TRIG_ARM passes its
own checks before its deferred block is fetched. -/
def opStart (s : State) (o : Nat) : State :=
  let x := opOf s o
  match x.iss with
  | .mailbox => if chainBit x.blk then failOp s o 0x03 0 else opChecked s o
  | .flume .. => if chainNeed x.blk x.chain = .limit then failOp s o 0x09 0 else opChecked s o
  | .ring .. =>
    if armsDeferred x then
      match staticCheck s x.inst x.die x.blk [] false with
      | some code => failOp s o code 0
      | none => chainStep s o
    else chainStep s o

/-! ## Requests at their target (R35, R251) -/

/-- Every part of a request has arrived. -/
def reqWhole (r : FlumeReq) : Bool := decide (r.got.length = r.parts + 1)

/-- The same request (R252). -/
def sameReq (r : FlumeReq) (src reqDie reqSeq : Nat) : Bool := decide (r.src = src ∧ r.reqDie = reqDie ∧ r.reqSeq = reqSeq)

/-- Part `n` of a request. -/
def reqPart (r : FlumeReq) (n : Nat) : Block := ((r.got.find? fun p => decide (p.1 = n)).map (·.2)).getD 0

/-- Execute a whole request from step 2 of R54; FLUME_CLASS_DISCARD for a class other than MGMT. -/
def flumeExec (s : State) (d : Die) (r : FlumeReq) : State :=
  let b := reqPart r 0
  let others (l : List FlumeReq) := l.filter fun q => !(sameReq q r.src r.reqDie r.reqSeq)
  if classOf b ≠ 7 then
    postMgmt (onSch s d fun x => { x with flumeReqs := others x.flumeReqs }) d 0x43 (evb 8 d.idx + evb 9 (fld b 0 0 8) + evb 12 r.src)
  else
    let s := onSch s d fun x => { x with flumeReqs := { r with executing := true } :: others x.flumeReqs }
    let p := newOp s
      { iss := .flume d r.src r.reqDie r.reqSeq, die := d, level := 5, cookie := cookieOf b, seq := r.reqSeq, blk := b
        chain := (List.range r.parts).map fun j => reqPart r (j + 1), phase := .fence, since := s.now, dispatchedAt := s.now }
    opStart p.1 p.2

/-! ## Waiting operations -/

/-- A waiting operation tries again. -/
def retryOp (s : State) (o : Nat) : State :=
  let x := opOf s o
  match x.phase, x.conn with
  | .waitTrig, _ => if trigRoom s x then arm s o else s
  | .waitFlume, _ => flumeBegin s o
  | .waitConn, some c => if connBusy s x.die c o then s else goConn s o c
  | .fetching .., _ => s
  | p, _ => if opWaits p then opRun s o else s

/-- The packets that wait their turn on the connections of a die are staged where it has come. -/
def flushConns (s : State) (d : Die) : State :=
  (die s d).conns.foldl (fun s (c, k) => if k.sides.isEmpty then s else flushSides k.sides.length s d c) s

/-- Every waiting operation of a die tries again, oldest first. [log DEDUCED 26] -/
def retryWaits (s : State) (d : Die) : State :=
  flushConns ((s.ops.filter fun (_, x) => decide (x.die = d)).foldl (fun s (o, _) => retryOp s o) (flushConns s d)) d

/-- A wait of 10 ms ends: the operation proceeds if it now can, else CC_RESOURCE (R479). -/
def waitExpired (s : State) (o : Nat) (p : Phase) (sub : Nat) : State :=
  if (opOf s o).phase = p ∧ s.now ≥ (opOf s o).since + 10000000 then
    let t := retryOp s o
    if (opOf t o).phase = p then failOp s o 0x0F sub else t
  else s

/-- TRIG_SLOT_TIMEOUT. -/
def execTrigSlotTimeout (o : Nat) (s : State) : Host.Outcome State Fault Refusal := .next (waitExpired s o .waitTrig 0x06)
/-- CONN_CACHE_WAIT_TIMEOUT. -/
def execConnCacheWaitTimeout (o : Nat) (s : State) : Host.Outcome State Fault Refusal := .next (waitExpired s o .waitCache 0x07)
/-- OPS_SLOT_WAIT_TIMEOUT. -/
def execOpsSlotWaitTimeout (o : Nat) (s : State) : Host.Outcome State Fault Refusal := .next (waitExpired s o .waitSlots 0x08)
/-- MAX_OPS_WAIT_TIMEOUT. -/
def execMaxOpsWaitTimeout (o : Nat) (s : State) : Host.Outcome State Fault Refusal := .next (waitExpired s o .waitMaxOps 0x05)
/-- CTX_OPEN_WAIT_TIMEOUT. -/
def execCtxOpenWaitTimeout (o : Nat) (s : State) : Host.Outcome State Fault Refusal := .next (waitExpired s o .waitCtx 0x03)
/-- RECV_POST_WAIT_TIMEOUT. -/
def execRecvPostWaitTimeout (o : Nat) (s : State) : Host.Outcome State Fault Refusal := .next (waitExpired s o .waitPosted 0x01)

/-! ## Arbitration (R106 to R108) -/

/-- The priority at which a ring's command is served: 5 for the management ring, 4 when aged, else its level. -/
def serveLevel (s : State) (d : Die) (n : Nat) : Nat :=
  if n = 0 then 5 else if n ∈ (die s d).rings.aged then 4 else ringLevel s d n

/-- A command of the ring waits at or before check 5, so the next one is not checked yet (R56). -/
def ringHeld (s : State) (d : Die) (n : Nat) : Bool := s.ops.any fun (_, x) => decide (x.iss = .ring d n) && !x.deferred && opWaits x.phase

/-- The ring's next command may be dispatched, an engine thread apart (R58, R84, R106). [log DEDUCED 18] -/
def dispatchable (s : State) (d : Die) (n : Nat) : Bool :=
  let r := cmdRing s d n
  r.configured && decide (r.queue ≠ [] ∧ (r.st = .idle ∨ r.st = .active ∨ r.st = .halted)) && !(ringHeld s d n) &&
    (!(headFenced r) || decide (r.outstanding = []))

/-- The operation of a ring's queued command `e`, with the extension blocks already fetched (R53). -/
def entryOp (s : State) (d : Die) (n : Nat) (e : QEntry) (chain : List Block) : Op :=
  let r := cmdRing s d n
  { iss := .ring d n, die := d, inst := ringInst r n, cq := r.cq, slot := e.slot, level := if n = 0 then 4 else r.prio
    cookie := cookieOf e.blk, seq := seqOf e.blk, blk := e.blk, chain := (followed chain).take 64, phase := .fence, since := s.now
    dispatchedAt := s.now }

/-- Take `e` off the ring's queue, leaving `rest`: a dispatched operation and its number (R56, R58). -/
def takeEntry (s : State) (d : Die) (n : Nat) (e : QEntry) (rest : List QEntry) (chain : List Block) : State × Nat :=
  let p := newOp s (entryOp s d n e chain)
  let t := modCmdRing p.1 d n fun r =>
    { r with queue := rest, outstanding := r.outstanding ++ [p.2], bad := r.bad && !(headFenced (cmdRing s d n))
             readyAt := if rest = [] then none else some s.now }
  (onRings t d fun y => { y with aged := without y.aged n }, p.2)

/-- Dispatch the ring's next command: under FENCE 2 it is cancelled where a command since the previous fence has failed (R58). -/
def dispatchRing (s : State) (d : Die) (n : Nat) (chain : List Block) : State :=
  match (cmdRing s d n).queue with
  | [] => s
  | e :: rest =>
    let p := takeEntry s d n e rest chain
    if fenceOf e.blk = 2 ∧ (cmdRing s d n).bad = true then failOp p.1 p.2 0x0E 0 else opStart p.1 p.2

/-- The level of a fired trigger: its arming ring's, raised as that ring is by a boost of its instance (R62, R241). -/
def firedLevel (s : State) (x : Op) : Nat :=
  match x.inst with
  | some i => if x.level < 4 then max x.level (boostLevel s (isInst s i)) else x.level
  | none => x.level

/-- The fired triggers of a die at a level, in firing order (R62). -/
def firedAt (s : State) (d : Die) (l : Nat) : List Nat :=
  let ops := s.ops.filter fun (_, x) => decide (x.die = d ∧ x.phase = .ready ∧ firedLevel s x = l)
  (sortBy (fun a b => decide (a.2.since < b.2.since ∨ (a.2.since = b.2.since ∧ a.2.handle ≤ b.2.handle))) ops).map (·.1)

/-- Rings of one port and level with a dispatchable command. -/
def portRings (s : State) (d : Die) (p l : Nat) : List Nat :=
  ((die s d).rings.cmd.filter fun (n, r) => decide (n ≠ 0 ∧ (inst s r.inst).fn.port % 4 = p) && dispatchable s d n && decide (serveLevel s d n = l)).map (·.1)

/-- The next port with such a ring, after the one last served at the level. [log DEDUCED 45] -/
def nextPort (s : State) (d : Die) (l : Nat) : Option Nat :=
  ((List.range 4).map fun i => (tget 0 (die s d).rings.lastPort l + i) % 4).find? fun p => !(portRings s d p l).isEmpty

/-- The ring whose visit goes on at a level (R107). -/
def visiting (s : State) (d : Die) (l : Nat) : Option Nat :=
  let q := tget 0 (die s d).rings.lastPort l
  let n := tget 0 (die s d).rings.lastRing (4 * (q - 1) + l)
  let r := cmdRing s d n
  if decide (q ≠ 0 ∧ n ∈ portRings s d (q - 1) l ∧ r.credits > 0 ∧ r.served < r.burst) && r.inRound then some n else none

/-- A new round at a port and level: WEIGHT credits to each ring with a dispatchable command. -/
def newRound (s : State) (d : Die) (p l : Nat) : State :=
  let rs := portRings s d p l
  onRings s d fun x => { x with cmd := tmapv {} x.cmd fun n r =>
    if n ∈ rs then { r with inRound := true, credits := r.weight, served := 0 }
    else if n ≠ 0 ∧ (inst s r.inst).fn.port % 4 = p ∧ serveLevel s d n = l then { r with inRound := false, credits := 0, served := 0 }
    else r }

/-- The rings of the round that may still be served. -/
def inRound (s : State) (d : Die) (p l : Nat) : List Nat :=
  (portRings s d p l).filter fun n => (cmdRing s d n).inRound && decide ((cmdRing s d n).credits > 0)

/-- One command of a level 0 to 3: the visit goes on, or the next port's round chooses a ring. -/
def dispatchLevel (s : State) (d : Die) (l : Nat) : State :=
  match visiting s d l with
  | some n => dispatchRing (modCmdRing s d n fun r => { r with credits := r.credits - 1, served := r.served + 1 }) d n []
  | none =>
    match nextPort s d l with
    | none => s
    | some p =>
      let s := if (inRound s d p l).isEmpty then newRound s d p l else s
      let rs := inRound s d p l
      let last := tget 0 (die s d).rings.lastRing (4 * p + l)
      match (rs.find? fun n => decide (n > last)).orElse fun _ => rs.head? with
      | none => s
      | some n =>
        let s := onRings s d fun x => { x with lastPort := tset 0 x.lastPort l (p + 1), lastRing := tset 0 x.lastRing (4 * p + l) n }
        dispatchRing (modCmdRing s d n fun r => { r with credits := r.credits - 1, served := 1 }) d n []

/-- The work of a die, best first (R106). -/
inductive Work where
  | request (r : FlumeReq)
  | fired (o : Nat)
  | ring (n : Nat)
  | level (l : Nat)
deriving DecidableEq, Repr

/-- The ring that a level serves next: the visit that goes on, or the next of the round of the port whose turn it is (R107). -/
def levelRing (s : State) (d : Die) (l : Nat) : Option Nat :=
  (visiting s d l).orElse fun _ => (nextPort s d l).bind fun p =>
    let rs := if (inRound s d p l).isEmpty then portRings s d p l else inRound s d p l
    (rs.find? fun n => decide (n > tget 0 (die s d).rings.lastRing (4 * p + l))).orElse fun _ => rs.head?

/-- The dispatchable work of a level 0 to 3, best first: fired triggers, the ring whose turn it is, the other rings. -/
def levelWorks (s : State) (d : Die) (l : Nat) : List (Work × Nat) :=
  (firedAt s d l).map (fun o => (.fired o, l)) ++
    match levelRing s d l with
    | some n => (.level l, l) :: (((List.range 4).flatMap fun p => portRings s d p l).filter fun m => decide (m ≠ n)).map fun m => (.ring m, l)
    | none => []

/-- All dispatchable work of a die with its priority, best first (R62, R106, R108). A whole Flume request that found no free
thread comes first. -/
def works (s : State) (d : Die) : List (Work × Nat) :=
  ((die s d).sch.flumeReqs.filter fun r => reqWhole r && !r.executing).map (fun r => (.request r, 6)) ++
    (if dispatchable s d 0 then [(.ring 0, 5)] else []) ++ (firedAt s d 4).map (fun o => (.fired o, 5)) ++
    ((die s d).rings.aged.filter fun n => dispatchable s d n).map (fun n => (.ring n, 4)) ++
    levelWorks s d 3 ++ levelWorks s d 2 ++ levelWorks s d 1 ++ levelWorks s d 0

/-- The best dispatchable work and its priority. [log DEDUCED 25] -/
def nextWork (s : State) (d : Die) : Option (Work × Nat) := (works s d).head?

/-- The connection of the work's command, if it has one. -/
def workConn (s : State) (d : Die) : Work → Option Nat
  | .request _ => none
  | .fired o => connField (opBlk (opOf s o))
  | .ring n => ((cmdRing s d n).queue.head?).bind fun e => connField e.blk
  | .level l => (levelRing s d l).bind fun n => ((cmdRing s d n).queue.head?).bind fun e => connField e.blk

/-- The running long commands of a die that can be preempted: all but those that stage their last stride (R70). One that stands at
the boundary before it has not begun it (R68). -/
def preemptable (s : State) (d : Die) : List (Nat × Op) :=
  s.ops.filter fun (_, x) => decide (x.die = d ∧ x.phase = .long .running) && x.thread.isSome && !x.cancel &&
    (decide (x.nextStride + 1 < x.strides) || (decide (x.nextStride + 1 = x.strides) && !x.begun))

/-- The long command that an event suspends (R71): of those below its level the one on the ring of lowest level, and among those
the one dispatched latest. -/
def victim (s : State) (above : Nat) (l : List (Nat × Op)) : Option (Nat × Op) :=
  (l.filter fun y => decide (judgedLevel s y.2 < above)).foldl (fun (b : Option (Nat × Op)) y =>
    match b with
    | none => some y
    | some z =>
      if judgedLevel s y.2 < judgedLevel s z.2 ∨ (judgedLevel s y.2 = judgedLevel s z.2 ∧ y.2.dispatchedAt ≥ z.2.dispatchedAt) then some y
      else some z) none

/-- The long commands that waiting work suspends, each work one: none where the one chosen has the work's connection (R117). -/
def victims (s : State) (d : Die) : List (Work × Nat) → List (Nat × Op) → List Nat
  | [], _ => []
  | (w, l) :: ws, can =>
    match victim s l can with
    | some (o, x) =>
      if x.conn = workConn s d w ∧ x.conn.isSome = true then victims s d ws can
      else o :: victims s d ws (can.filter fun y => decide (y.1 ≠ o))
    | none => victims s d ws can

/-- LONG_COMMAND_PREEMPT (R70, R71, R117): work that finds no engine thread free suspends one long command for each piece of work,
at its next boundary. [log DEDUCED 20] -/
def preempt (s : State) (d : Die) : State :=
  if (freeThreads s d).isEmpty then
    (victims s d (works s d) (preemptable s d)).foldl (fun s o => modOp s o fun x => { x with preempt := true }) s
  else s

/-- COMMAND_DISPATCH: waiting commands try again, then a free engine thread takes the best work; without one, a long
command of a lower level is asked to stop. -/
def commandDispatch (s : State) (d : Die) : State :=
  if forensic s || s.sys.inReset then s
  else
    let s := retryWaits s d
    match nextWork s d with
    | none => s
    | some (w, _) =>
      if (freeThreads s d).isEmpty then preempt s d
      else match w with
        | .request r => flumeExec s d r
        | .fired o => opRun s o
        | .ring n => dispatchRing s d n []
        | .level l => dispatchLevel s d l

def execCommandDispatch (d : Die) (s : State) : Host.Outcome State Fault Refusal := .next (commandDispatch s d)

/-! ## Stride boundaries (R68 to R74) -/

/-- The PSN of the first packet of the present stride: the connection's next, which for the full strides of PUT and ZERO is the one
that FIRST_PSN and PSN_PER_STRIDE give (R69, R73). -/
def stridePsn (x : Op) (k : Conn) : BitVec 32 :=
  if x.started && !(isElems (opcode x)) then x.firstPsn + BitVec.ofNat 32 (x.nextStride * x.psnPerStride) else k.nextPsn

/-- Stage the present stride, whose source has been read: the boundary is reached with its resume record. [log DEDUCED 216] -/
def stageStride (s : State) (o c : Nat) (data : List Byte) : State :=
  let x := opOf s o
  let n := strideBase x (x.nextStride + 1)
  let s := pmcAt (stageFrom s x.die c o (stridePsn x (conn s x.die c)) (stridePieces x (mtuBytes (conn s x.die c).mtu) x.nextStride data)) x.die 646 1 (thrCtx x)
  modOp s o fun x => { x with nextStride := x.nextStride + 1, bytesStaged := min n (opBytes x), begun := false, read := none, xl := [], tokens := x.tokens - 1 }

/-- At a boundary: a cancellation completes it (R74); after the last stride it is DRAINING; a preemption suspends it; otherwise the
next stride begins if it may. [log DEDUCED 36] -/
def atBoundary (s : State) (o c : Nat) : State :=
  let x := opOf s o
  if x.cancel then
    let s := completeOp s o { code := 0x0E, bytes := x.bytesAcked }
    retryWaits s x.die
  else if x.nextStride ≥ x.strides then
    let s := connFree (freeThread (modOp s o fun x => { x with phase := .long .draining, preempt := false }) o) x.die c o
    retryWaits (deliverOps s x.die c) x.die
  else if x.preempt then
    freeThread (modOp (pmcAt s x.die 643 1 (thrCtx x)) o fun x => { x with phase := .long .suspended, preempt := false }) o
  else beginStride s o

/-- STRIDE_BOUNDARY of a running long command: with its source read it stages the stride; waiting for transmit room or for
tokens it stands at a boundary. -/
def strideBoundary (s : State) (o : Nat) : State :=
  let x := opOf s o
  match x.conn with
  | some c =>
    if x.phase = .long .running ∧ x.thread.isSome = true then
      if x.begun then
        match x.read with
        | some r => atBoundary (stageStride s o c r.bytes) o c
        | none => if x.cancel && hostSilent s (x.inst.getD 1024) then atBoundary s o c else s
      else atBoundary s o c
    else s
  | none => s

def execStrideBoundary (o : Nat) (s : State) : Host.Outcome State Fault Refusal := .next (strideBoundary s o)

/-- LONG_COMMAND_RESUME (R72): a thread is free and no dispatchable work of a higher level waits. [log DEDUCED 22] -/
def longResume (s : State) (o : Nat) : State :=
  let x := opOf s o
  let free := match nextWork s x.die with
    | some (_, l) => decide (l ≤ x.level)
    | none => true
  match (freeThreads s x.die).head? with
  | some p => if decide (x.phase = .long .suspended) && free && !(forensic s) then runLong s o p else s
  | none => s

def execLongCommandResume (o : Nat) (s : State) : Host.Outcome State Fault Refusal := .next (longResume s o)

/-! ## Reads and walks that an operation waits for -/

/-- What waited for host reads to complete goes on: packets for read tags (R254), grants of windows for the accesses of their old
translation (R333). -/
def afterReads (s : State) : State := windowsSettle (tagWaiters s)

/-- The reads of an operation complete or fail; an outcome from before a reset is discarded (R323). -/
def readReturns (s : State) (o : Nat) (parts : List ReadPart) (f : State → State) : State :=
  match takeReads s (.op o) (anyTimeout parts) with
  | some (true, s) => afterReads (f s)
  | some (false, s) => afterReads s
  | none => s

/-- EXT_BLOCK_FETCH: the read of an extension block or a deferred block returns (R49, R61). -/
def extBlockFetch (s : State) (o : Nat) (parts : List ReadPart) : State :=
  let x := opOf s o
  match x.phase, entryRead parts with
  | .fetching _ _, some (.ok b) =>
    if opWalking s x.die o then s
    else chainStep (modOp s o fun x => { x with chain := x.chain ++ [b], phase := .fence, xl := [] }) o
  | .fetching _ _, some (.fail f) => if opWalking s x.die o then s else failOp s o (readFailCode f) 0x01
  | _, _ => s

def execExtBlockFetch (o : Nat) (parts : List ReadPart) (s : State) : Host.Outcome State Fault Refusal :=
  .next (readReturns s o parts fun s => extBlockFetch s o parts)

/-- The length of the read that an operation waits for. -/
def readLength (x : Op) : Nat :=
  match x.phase with
  | .long .running => (strideSource x x.nextStride).2
  | .collective => (collHead (opBlk x)).count * elemSize (collHead (opBlk x)).ty
  | _ => opBytes x

/-- A data read of an operation completes with one outcome (R477, R339). -/
def readDone (s : State) (o : Nat) (r : ReadDone) : State :=
  let x := opOf s o
  match x.phase, x.conn with
  | .long .running, _ =>
    if x.begun && x.read.isNone then
      match r.fail with
      | some f => strideFail s o (readFailCode f)
      | none => modOp s o fun x => { x with read := some r }
    else s
  | .reading, some c =>
    (match r.fail with
    | some f => failOp s o (readFailCode f) 0x01
    | none => sendEager s o c r.bytes)
  | .collective, _ =>
    if (bndCtx s x.die (fld (opBlk x) 16 0 12)).colls.any fun k => decide (k.op = o) && !k.srcRead then collSource s o r else s
  | _, _ => s

/-- HOST_READ_COMPLETE: every part of the read has come or failed. -/
def hostReadComplete (s : State) (o : Nat) (parts : List ReadPart) : State :=
  let x := opOf s o
  let r := readOutcome parts
  if opWalking s x.die o || (r.fail.isNone && decide (r.bytes.length ≠ readLength x)) then s else readDone s o r

def execHostReadComplete (o : Nat) (parts : List ReadPart) (s : State) : Host.Outcome State Fault Refusal :=
  .next (readReturns s o parts fun s => hostReadComplete s o parts)

/-- An operation's walk has ended: what it waited for is tried again with the translation, or the failure, at hand. -/
def opResume (s : State) (o : Nat) : State :=
  let x := opOf s o
  match x.phase, x.conn with
  | .fetching a h, _ => readBlock s o a h
  | .long .running, _ => if x.begun && x.read.isNone then readStride s o else s
  | .reading, some c => readSend s o c
  | .collective, _ => collResume s o
  | .translating, _ =>
    if opcode x = 0x61 then
      let size := if fld (opBlk x) 28 24 1 = 1 then 16 else 8
      match xltRange s x.xl (x.inst.getD 1024) .lw (.op o) (fld (opBlk x) 48 0 64) size with
      | .ok ps => completeOp (writePieces s (x.inst.getD 1024) (fld (opBlk x) 48 0 64) ps (leBytes size x.result)) o { code := 0, sub := x.handle, result := x.result % 2 ^ 64 }
      | .fail code => completeOp s o { code := code, sub := 0x01 }
      | .walk w => startWalk s w
    else
      (match (ctxOf s x.die (x.inst.getD 1024) (recvCtx x)).matched.find? fun m => decide (m.op = o) with
      | some m =>
        let more := (die s x.die).conns.any fun (_, k) => match k.msg with
          | .recv p _ => decide (p = o)
          | _ => false
        placeStash s o m.len (!more)
      | none => s)
  | _, _ => s

/-- Who waits for a walk goes on; `e` serves the access that started it (R333). -/
def walkOver (s : State) (d : Die) (w : Walk) (e : TlbEnt) : State :=
  let e := if w.stale then { e with snap := some w.snap } else e
  match w.owner with
  | .op o => if liveOp s o then opResume (modOp s o fun x => { x with xl := e :: x.xl }) o else s
  | .target c =>
    let s := resumeTarget (modConn s d c fun k => { k with xl := e :: k.xl }) d c
    if walkPending s d c then s else modConn s d c fun k => { k with xl := [] }

/-- The walk leaves the die's 64. -/
def walkGone (s : State) (d : Die) (n : Nat) : State := nextWalk (onHst s d fun h => { h with walks := tdel h.walks n }) d

/-- A walk fails with a code. -/
def walkFails (s : State) (d : Die) (n : Nat) (w : Walk) (code : Nat) : State :=
  walkOver (walkGone s d n) d w { inst := w.inst, win := w.win, page := w.page, bus := 0, noWrite := false
                                  ats := if w.level = 3 then some (true, true) else none, fault := code }

/-- A level-1 or level-2 entry is read (R334, R335). -/
def walkStep (s : State) (d : Die) (n : Nat) (w : Walk) (v : Nat) : State :=
  let ps := pageShift w.snap
  if w.level = 1 then
    if !(bit v 0) || bits v 2 14 != 0 then walkFails s d n w 0x04
    else
      let a2 := bits v 16 48 * 65536 + 8 * (w.page % 8192)
      if inAperture s (inst s w.inst).fn.port a2 then walkFails s d n w 0x05
      else
        let w := { w with level := 2, addr := a2, e1 := v }
        issueWalk (onHst s d fun h => { h with walks := tset none h.walks n (some w) }) n w
  else if !(bit v 0) || bits v 2 (ps - 2) != 0 then walkFails s d n w 0x04
  else
    let e : TlbEnt := { inst := w.inst, win := w.win, page := w.page, bus := v / 2 ^ ps * 2 ^ ps, noWrite := bit w.e1 1 || bit v 1, ats := none }
    walkOver (walkGone (if w.stale then s else tlbFill s d e) d n) d w e

/-- TABLE_WALK_COMPLETE. -/
def tableWalkComplete (s : State) (d : Die) (n : Nat) (r : WordRead) : State :=
  match tget none (die s d).hst.walks n, r with
  | some w, .ok v => if w.level = 1 ∨ w.level = 2 then walkStep s d n w v.toNat else s
  | some w, .fail _ => if w.level = 1 ∨ w.level = 2 then walkFails s d n w 0x04 else s
  | none, _ => s

def execTableWalkComplete (d : Die) (n : Nat) (r : WordRead) (s : State) : Host.Outcome State Fault Refusal :=
  match takeReads s (.walk d n) (decide (r = .fail .timeout)) with
  | some (true, s) => .next (afterReads (tableWalkComplete s d n r))
  | some (false, s) => .next (afterReads s)
  | none => .next s

/-- ATS_TRANSLATION_COMPLETE (R337). -/
def atsComplete (s : State) (d : Die) (n : Nat) (a : AtsAnswer) : State :=
  match tget none (die s d).hst.walks n with
  | some w =>
    if w.level ≠ 3 then s
    else match a with
      | .refused => walkFails s d n w 0x04
      | .page addr rd wr =>
        let e : TlbEnt := { inst := w.inst, win := w.win, page := w.page, bus := addr / 65536 * 65536, noWrite := false, ats := some (rd, wr) }
        walkOver (walkGone (if w.stale then s else tlbFill s d e) d n) d w e
  | none => s

def execAtsTranslationComplete (d : Die) (n : Nat) (a : AtsAnswer) (s : State) : Host.Outcome State Fault Refusal :=
  .next (afterReads (atsComplete s d n a))

end Sys2Proof.Machine
end

