-- ==== Sys2Proof/Machine/Flume.lean ====
section
/-! DEFINITION. The Flume (R247 to R253, R45, R328): requests and their parts at the target, answers at the issuer, the relay,
and forwarded events. -/

namespace Sys2Proof.Machine

open Sys2Proof

/-- The port a packet came in by. -/
def inPort (d : Die) : Ingress → Option Nat
  | .link k => some (kPort d k)
  | .bridge _ => none

/-- The link it came in by may carry FORM 2 packets: UP or in QUARANTINE. -/
def inUsable (s : State) (d : Die) : Ingress → Bool
  | .link k => decide ((link s d k).st = .up ∨ (link s d k).st = .quarantine)
  | .bridge _ => false

/-- A FORM 0 packet to this die's control endpoint; without an identity none is taken (R15). [log DESIGN CHOICE 13] -/
def flumeHere (s : State) (d : Die) (p : Pkt) (f : FlumePkt) : Bool := decide (f.form = 0 ∧ p.dst = routerAddr s d) && s.ident.valid

/-- The device is running: not held in reset, not in Forensic. [log DEDUCED 99] -/
def running (s : State) : Bool := !s.sys.inReset && !(forensic s)

/-- The request that became whole first executes when an engine thread is free (R251): requests execute in the order in which they
complete. -/
def takeWhole (s : State) (d : Die) : State :=
  if (freeThreads s d).isEmpty then preempt s d
  else match (die s d).sch.flumeReqs.find? fun r => reqWhole r && !r.executing with
    | some r => flumeExec s d r
    | none => s

/-- The die is told of a request part: kept until the request is whole (R251). [log DEDUCED 98] -/
def addPart (s : State) (d : Die) (src : Nat) (f : FlumePkt) (via : Option Nat) : State :=
  let mine := (die s d).sch.flumeReqs.find? fun r => sameReq r src f.reqDie f.reqSeq
  let r : FlumeReq := mine.getD { src := src, reqDie := f.reqDie, reqSeq := f.reqSeq, firstAt := s.now, parts := f.parts, got := [], executing := false, via := via }
  let r := if (r.got.any fun g => decide (g.1 = f.part)) ∨ f.part > r.parts then r else { r with got := r.got ++ [(f.part, f.blk)] }
  let s := onSch s d fun x => { x with flumeReqs := (x.flumeReqs.filter fun q => !(sameReq q src f.reqDie f.reqSeq)) ++ [r] }
  if !(reqWhole r) then s else takeWhole s d

/-- A request part reaches its target (R251, R252): answered again, discarded while it executes, or kept. -/
def flumeRequest (s : State) (d : Die) (from_ : Ingress) (p : Pkt) : State :=
  match bodyOf p with
  | .flume f =>
    let ok := flumeHere s d p f || (decide (f.form = 2) && inUsable s d from_)
    if !(running s && ok && decide (f.ftype ≤ 1) && (f.ftype == 0) == (f.part == 0)) then s
    else
      let r := policed s d p
      if !r.2 then r.1
      else
        let s := r.1
        let src := routerPart p.src
        let via := if f.form = 2 then inPort d from_ else none
        match (die s d).sch.flumeAns.find? fun a => decide (a.src = src ∧ a.reqDie = f.reqDie ∧ a.reqSeq = f.reqSeq) with
        | some a =>
          if f.ftype = 0 then
            emit s (.toRoute d (flumePkt s d src
              { ftype := 2, form := if via.isSome then 2 else 0, relayPort := via.getD 0, part := 0, parts := 0, reqSeq := f.reqSeq
                reqDie := f.reqDie, blk := BitVec.ofNat 512 (a.answer.toNat * 2 ^ 256) }))
          else s
        | none =>
          if (die s d).sch.flumeReqs.any fun q => sameReq q src f.reqDie f.reqSeq && (q.executing || reqWhole q) then s
          else addPart s d src f via
  | _ => s

/-- FLUME_REQUEST. -/
def execFlumeRequest (d : Die) (from_ : Ingress) (p : Pkt) (s : State) : Host.Outcome State Fault Refusal := .next (flumeRequest s d from_ p)

/-- FLUME_PARTIAL_DISCARD: 1 ms after the first part (R251). -/
def flumeDiscard (s : State) (d : Die) (src reqDie reqSeq : Nat) : State :=
  onSch s d fun x => { x with flumeReqs := x.flumeReqs.filter fun r =>
    !(sameReq r src reqDie reqSeq && !(reqWhole r) && decide (s.now ≥ r.firstAt + 1000000)) }

def execFlumePartialDiscard (d : Die) (src reqDie reqSeq : Nat) (s : State) : Host.Outcome State Fault Refusal :=
  .next (flumeDiscard s d src reqDie reqSeq)

/-- SCH_FLUME_CFG: RESEND and ANSWER_LIMIT in ns. -/
def resendNs (s : State) (d : Die) : Nat := 1000 * bits (regVal s d 0x10000A0) 0 16
def answerLimitNs (s : State) (d : Die) : Nat := 100000 * bits (regVal s d 0x10000A0) 16 16

/-- FLUME_RESEND: an unanswered request is sent again, whole (R252). -/
def flumeResend (s : State) (o : Nat) : State :=
  let x := opOf s o
  if running s && decide (x.phase = .flume ∧ s.now ≥ x.lastSend + resendNs s x.die ∧ s.now < x.firstSend + answerLimitNs s x.die) then flumeSend s o else s

def execFlumeResend (o : Nat) (s : State) : Host.Outcome State Fault Refusal := .next (flumeResend s o)

/-- FLUME_ANSWER_TIMEOUT: CC_UNREACHABLE, SUBCAUSE 0x01 (R45, R252). -/
def flumeTimeout (s : State) (o : Nat) : State :=
  let x := opOf s o
  if x.phase = .flume ∧ s.now ≥ x.firstSend + answerLimitNs s x.die then failOp s o 0x0A 0x01 else s

def execFlumeAnswerTimeout (o : Nat) (s : State) : Host.Outcome State Fault Refusal := .next (flumeTimeout s o)

/-- The outcome that a completion record spells (R51). -/
def recordOutcome (r : Nat) : Outcome :=
  { code := bits r 120 8, sub := bits r 112 8, bytes := bits r 64 40, failIdx := bits r 104 5, result := bits r 128 64, station := bits r 230 20 }

/-- FLUME_ANSWER: the issuing command completes with the outcome produced at the target (R45). [log DEDUCED 29] -/
def flumeAnswer (s : State) (d : Die) (p : Pkt) : State :=
  match bodyOf p with
  | .flume f =>
    if !(running s && flumeHere s d p f && decide (f.ftype = 2 ∧ f.reqDie = d.idx)) then s
    else
      let r := policed s d p
      if !r.2 then r.1
      else
        match r.1.ops.find? fun (_, x) => decide (x.phase = .flume ∧ x.die = d ∧ x.seq = f.reqSeq ∧ tgtAddr x.blk = routerPart p.src) with
        | some (o, _) => completeOp r.1 o (recordOutcome (f.blk.toNat / 2 ^ 256))
        | none => r.1
  | _ => s

def execFlumeAnswer (d : Die) (p : Pkt) (s : State) : Host.Outcome State Fault Refusal := .next (flumeAnswer s d p)

/-- A port of a die: 0 to 31 on West, 32 to 63 on East, half-ports of either from 64. -/
def portOfDie (d : Die) (port : Nat) : Bool := decide (port ≥ 64 ∨ port / 32 = d.idx)

/-- FLUME_RELAY (R250): FORM 1 goes out of RELAY_PORT as FORM 2; a FORM 2 answer is routed on as FORM 0 from the relay. -/
def flumeRelay (s : State) (d : Die) (from_ : Ingress) (p : Pkt) : State :=
  match bodyOf p with
  | .flume f =>
    if !(running s && s.ident.valid) then s
    else if f.form = 1 ∧ p.dst = routerAddr s d then
      let r := policed s d p
      if !r.2 then r.1
      else if portOfDie d f.relayPort then flumeOutPort r.1 d { p with body := .flume { f with form := 2 } } f.relayPort
      else rteDrop r.1 d p f.relayPort
    else if f.form = 2 ∧ f.ftype = 2 ∧ inUsable s d from_ = true then
      emit s (.toRoute d { p with src := routerAddr s d, body := .flume { f with form := 0, relayPort := (inPort d from_).getD 0 } })
    else s
  | _ => s

def execFlumeRelay (d : Die) (from_ : Ingress) (p : Pkt) (s : State) : Host.Outcome State Fault Refusal := .next (flumeRelay s d from_ p)

/-- FLUME_EVENT_RECEIVE: a forwarded record goes into the collector die's ring with SOURCE from SRC (R328). -/
def flumeEvent (s : State) (d : Die) (p : Pkt) : State :=
  match bodyOf p with
  | .flume f =>
    if !(running s && flumeHere s d p f && decide (f.ftype = 4)) then s
    else
      let r := policed s d p
      let e := f.blk.toNat / 2 ^ 256
      if r.2 then mgmtRing r.1 d (bits e 0 64) (bits e 64 128) (bits e 192 16) (routerPart p.src) else r.1
  | _ => s

def execFlumeEventReceive (d : Die) (p : Pkt) (s : State) : Host.Outcome State Fault Refusal := .next (flumeEvent s d p)

end Sys2Proof.Machine
end

