-- ==== Sys2Proof/Machine/Mailbox.lean ====
section
/-! DEFINITION. The management mailbox (R349 to R351, R428). -/

namespace Sys2Proof.Machine

open Sys2Proof

/-- A host reaches a function: the device out of bring-up and Standby (R415), its link up, the function in D0 and out of reset. -/
def hostReach (s : State) (f : FnId) : Bool :=
  !s.sys.inReset && decide (s.sys.mode ≠ .bringup ∧ s.sys.mode ≠ .standby) && hostLinkUp s f && fnExists s f &&
    !(fnOf s f).inReset && !(fnOf s f).d3

/-- An offer of command S is accepted (R349). -/
def mbxAccepts (s : State) (v : Nat) : Bool := !s.mbx.busy && (!s.mbx.valid || decide (v % 2 ^ 32 = (s.mbx.lastSeq + 1) % 2 ^ 32))

/-- In Forensic only MG_ARCHIVE_CTL, MG_REG_READ and MG_MODE_SET RESET are taken (R428). [log DEDUCED 123] -/
def forensicTakes (b : Block) : Bool :=
  !(viaFlume b) && (fld b 0 0 8 == 0xF0 || fld b 0 0 8 == 0xE9 || (fld b 0 0 8 == 0xE8 && fld b 20 0 3 == 3))

/-- Accept a command: copied and numbered, BUSY set, an operation of the management function's die made of it (R349, R350). -/
def mbxTake (s : State) (v : Nat) (b : Block) : State × Nat :=
  let p := newOp s
    { iss := .mailbox, die := portDie (mgmtFn s).port, level := 5, cookie := cookieOf b, seq := v % 2 ^ 24, blk := b, phase := .fence
      since := s.now, dispatchedAt := s.now }
  ({ p.1 with mbx := { p.1.mbx with lastSeq := v % 2 ^ 32, busy := true, valid := true, copy := b, op := some p.2, resultDue := none } }, p.2)

/-- Accept a command and run it as a management command; in Forensic only those of R428. [log DEDUCED 100, DEDUCED 124] -/
def mbxRun (s : State) (v : Nat) (b : Block) : State :=
  let p := mbxTake s v b
  if forensic s && !(forensicTakes b) then failOp p.1 p.2 0x02 0 else opStart p.1 p.2

/-- A write of MBX_GO: accepted, or counted in REJECTS. -/
def mbxGo (s : State) (v : Nat) : State :=
  if mbxAccepts s v then mbxRun s v s.mbx.block
  else { s with mbx := { s.mbx with rejects := satInc 8 s.mbx.rejects } }

/-- MBX_GO. -/
def execMbxGo (v : BitVec 32) (s : State) : Host.Outcome State Fault Refusal :=
  .next (if hostReach s (mgmtFn s) then mbxGo s v.toNat else s)

/-- MSI-X vector 0 of the management function: written, or waiting in the PBA under its mask; withheld in reset (R351). -/
def mbxInterrupt (s : State) : State :=
  let f := mgmtFn s
  if !(msixOk s f 0) then s
  else if vecMasked s f 0 then { s with mbx := { s.mbx with irq := true } }
  else msixSend s f 0

/-- The mailbox's command was MG_MODE_SET RESET. -/
def asksReset (b : Block) : Bool := fld b 0 0 8 == 0xE8 && fld b 20 0 3 == 3

/-- The command has finished: its record is written, BUSY clears, vector 0 is raised. The reset of MG_MODE_SET RESET follows
1 ms after the record (R409). -/
def mbxDone (s : State) : State :=
  match s.mbx.resultDue with
  | some r =>
    let s := { s with mbx := { s.mbx with result := r, busy := false, op := none, resultDue := none } }
    let s := if asksReset s.mbx.copy && s.sys.resetDue.isSome then onSys s fun y => { y with resetDue := some (s.now + 1000000) } else s
    mbxInterrupt s
  | none => s

/-- MBX_COMMAND_DONE. -/
def execMbxCommandDone (s : State) : Host.Outcome State Fault Refusal := .next (mbxDone s)

end Sys2Proof.Machine
end

