-- ==== Sys2Proof/Machine/Taxia.lean ====
section
/-! DEFINITION. The rows of the table that are Taxia commands (02_taxia_command_set). Each row is one command offered by one
issuer: its block with the row's opcode and action, and the blocks of its chain. The effect is the path of that issuer: a
ring's entry is read, consumed and, where the engines would take it next, dispatched; the mailbox is written and started; a
Flume request arrives whole. -/

namespace Sys2Proof.Machine

open Sys2Proof

/-- A block with one field (byte, low bit, bits) replaced. -/
def putFld (b : Block) (byte lo n v : Nat) : Block := BitVec.ofNat 512 (setBits b.toNat (8 * byte + lo) n v)

/-- The block of a row: opcode and the row's fields (byte, low bit, bits, value) set. -/
def rowBlk (b : Block) (op : Nat) (fields : List (Nat × Nat × Nat × Nat)) : Block :=
  fields.foldl (fun b f => putFld b f.1 f.2.1 f.2.2.1 f.2.2.2) (putFld b 0 0 8 op)

/-- The entry as the producer leaves it for the ring's fetch point: PHASE and SEQ as expected (R79). -/
def entryBlk (r : CmdRing) (b : Block) : Block := putFld (putFld b 1 0 1 (b2n r.consPhase)) 2 0 24 r.consSeq

/-- The read of the entry at the fetch point returns it: the read that is out, the retry of a waiting entry, or, in IDLE, the
read that a doorbell starts. -/
def entryComes (s : State) (d : Die) (n : Nat) (b : Block) : State :=
  let r := cmdRing s d n
  let e : EntryRead := .ok (entryBlk r b)
  let come (s : State) : State := match takeReads s (.ring d n) false with
    | some (true, s) => ringFetched s d n e
    | some (false, s) => s
    | none => s
  if r.reading then come s
  else match r.st with
    | .idle => if canFetch s d then come (ringDoorbell s d n) else ringDoorbell s d n
    | .active =>
      if r.waiting && ringRoom s d r && canFetch s d then ringFetched (modCmdRing s d n fun r => { r with waiting := false }) d n e else s
    | _ => s

/-- The ring's one consumed command is the next that the engines take: a thread is free and no better work waits (R106). -/
def dispatchNow (s : State) (d : Die) (n : Nat) : Bool :=
  decide ((cmdRing s d n).queue.length = 1) && dispatchable s d n && !(freeThreads s d).isEmpty &&
    (match nextWork s d with
    | some (_, l) => decide (l ≤ serveLevel s d n)
    | none => false)

/-- A command offered through a ring. [log DEDUCED 31] -/
def taxiaRing (s : State) (d : Die) (n : Nat) (b : Block) (chain : List Block) : State :=
  if s.sys.inReset || !(cmdRing s d n).configured then s
  else
    let t := entryComes s d n b
    if (cmdRing s d n).queue.isEmpty && dispatchNow t d n then dispatchRing t d n chain else t

/-- A command offered through the mailbox: MBX_BLOCK, then MBX_GO with the next number. -/
def taxiaMailbox (s : State) (b : Block) : State :=
  if hostReach s (mgmtFn s) then mbxGo { s with mbx := { s.mbx with block := b } } ((s.mbx.lastSeq + 1) % 2 ^ 32) else s

/-- A request from the Flume, with all its parts, at its target (R251, R252). -/
def taxiaFlume (s : State) (d : Die) (src reqDie reqSeq : Nat) (b : Block) (chain : List Block) : State :=
  if !(running s) || !s.ident.valid then s
  else if (die s d).sch.flumeReqs.any fun q => sameReq q src reqDie reqSeq && (q.executing || reqWhole q) then s
  else
    match (die s d).sch.flumeAns.find? fun a => decide (a.src = src ∧ a.reqDie = reqDie ∧ a.reqSeq = reqSeq) with
    | some a =>
      emit s (.toRoute d (flumePkt s d src
        { ftype := 2, form := 0, relayPort := 0, part := 0, parts := 0, reqSeq := reqSeq, reqDie := reqDie
          blk := BitVec.ofNat 512 (a.answer.toNat * 2 ^ 256) }))
    | none =>
      let r : FlumeReq :=
        { src := src, reqDie := reqDie, reqSeq := reqSeq, firstAt := s.now, parts := chain.length
          got := (0, b) :: (List.range chain.length).map fun j => (j + 1, chain.getD j 0), executing := false, via := none }
      takeWhole (onSch s d fun x => { x with flumeReqs := (x.flumeReqs.filter fun q => !(sameReq q src reqDie reqSeq)) ++ [r] }) d

/-- A Taxia command offered by its issuer. [log DESIGN CHOICE 30] -/
def taxia (s : State) (iss : Issuer) (b : Block) (chain : List Block) : State :=
  match iss with
  | .ring d n => taxiaRing s d n b chain
  | .mailbox => taxiaMailbox s b
  | .flume d src reqDie reqSeq => taxiaFlume s d src reqDie reqSeq b chain

/-- PUT. -/
def execPut (iss : Issuer) (b : Block) (chain : List Block) (s : State) : Host.Outcome State Fault Refusal :=
  .next (taxia s iss (rowBlk b 0x01 []) chain)

/-- PUT_INLINE. -/
def execPutInline (iss : Issuer) (b : Block) (chain : List Block) (s : State) : Host.Outcome State Fault Refusal :=
  .next (taxia s iss (rowBlk b 0x02 []) chain)

/-- GET. -/
def execGet (iss : Issuer) (b : Block) (chain : List Block) (s : State) : Host.Outcome State Fault Refusal :=
  .next (taxia s iss (rowBlk b 0x03 []) chain)

/-- GATHER. -/
def execGather (iss : Issuer) (b : Block) (chain : List Block) (s : State) : Host.Outcome State Fault Refusal :=
  .next (taxia s iss (rowBlk b 0x04 []) chain)

/-- SCATTER. -/
def execScatter (iss : Issuer) (b : Block) (chain : List Block) (s : State) : Host.Outcome State Fault Refusal :=
  .next (taxia s iss (rowBlk b 0x05 []) chain)

/-- ZERO. -/
def execZero (iss : Issuer) (b : Block) (chain : List Block) (s : State) : Host.Outcome State Fault Refusal :=
  .next (taxia s iss (rowBlk b 0x06 []) chain)

/-- SEND. -/
def execSend (iss : Issuer) (b : Block) (chain : List Block) (s : State) : Host.Outcome State Fault Refusal :=
  .next (taxia s iss (rowBlk b 0x20 []) chain)

/-- SEND_INLINE. -/
def execSendInline (iss : Issuer) (b : Block) (chain : List Block) (s : State) : Host.Outcome State Fault Refusal :=
  .next (taxia s iss (rowBlk b 0x21 []) chain)

/-- RECV_POST. -/
def execRecvPost (iss : Issuer) (b : Block) (chain : List Block) (s : State) : Host.Outcome State Fault Refusal :=
  .next (taxia s iss (rowBlk b 0x22 []) chain)

/-- RECV_CANCEL. -/
def execRecvCancel (iss : Issuer) (b : Block) (chain : List Block) (s : State) : Host.Outcome State Fault Refusal :=
  .next (taxia s iss (rowBlk b 0x23 []) chain)

/-- CTX_OPEN. -/
def execCtxOpen (iss : Issuer) (b : Block) (chain : List Block) (s : State) : Host.Outcome State Fault Refusal :=
  .next (taxia s iss (rowBlk b 0x24 []) chain)

/-- CTX_DRAIN. -/
def execCtxDrain (iss : Issuer) (b : Block) (chain : List Block) (s : State) : Host.Outcome State Fault Refusal :=
  .next (taxia s iss (rowBlk b 0x25 []) chain)

/-- CTX_CLOSE. -/
def execCtxClose (iss : Issuer) (b : Block) (chain : List Block) (s : State) : Host.Outcome State Fault Refusal :=
  .next (taxia s iss (rowBlk b 0x26 []) chain)

/-- COLL_BARRIER. -/
def execCollBarrier (iss : Issuer) (b : Block) (chain : List Block) (s : State) : Host.Outcome State Fault Refusal :=
  .next (taxia s iss (rowBlk b 0x40 []) chain)

/-- COLL_BCAST. -/
def execCollBcast (iss : Issuer) (b : Block) (chain : List Block) (s : State) : Host.Outcome State Fault Refusal :=
  .next (taxia s iss (rowBlk b 0x41 []) chain)

/-- COLL_REDUCE. -/
def execCollReduce (iss : Issuer) (b : Block) (chain : List Block) (s : State) : Host.Outcome State Fault Refusal :=
  .next (taxia s iss (rowBlk b 0x42 []) chain)

/-- COLL_ALLREDUCE. -/
def execCollAllreduce (iss : Issuer) (b : Block) (chain : List Block) (s : State) : Host.Outcome State Fault Refusal :=
  .next (taxia s iss (rowBlk b 0x43 []) chain)

/-- COLL_ALLGATHER. -/
def execCollAllgather (iss : Issuer) (b : Block) (chain : List Block) (s : State) : Host.Outcome State Fault Refusal :=
  .next (taxia s iss (rowBlk b 0x44 []) chain)

/-- NOP. -/
def execNop (iss : Issuer) (b : Block) (chain : List Block) (s : State) : Host.Outcome State Fault Refusal :=
  .next (taxia s iss (rowBlk b 0x60 []) chain)

/-- ATOMIC. -/
def execAtomic (iss : Issuer) (b : Block) (chain : List Block) (s : State) : Host.Outcome State Fault Refusal :=
  .next (taxia s iss (rowBlk b 0x61 []) chain)

/-- TALLY_WRITE. -/
def execTallyWrite (iss : Issuer) (b : Block) (chain : List Block) (s : State) : Host.Outcome State Fault Refusal :=
  .next (taxia s iss (rowBlk b 0x62 []) chain)

/-- TALLY_READ. -/
def execTallyRead (iss : Issuer) (b : Block) (chain : List Block) (s : State) : Host.Outcome State Fault Refusal :=
  .next (taxia s iss (rowBlk b 0x63 []) chain)

/-- RING_RESET. -/
def execRingReset (iss : Issuer) (b : Block) (chain : List Block) (s : State) : Host.Outcome State Fault Refusal :=
  .next (taxia s iss (rowBlk b 0x64 []) chain)

/-- TRIG_ARM. -/
def execTrigArm (iss : Issuer) (b : Block) (chain : List Block) (s : State) : Host.Outcome State Fault Refusal :=
  .next (taxia s iss (rowBlk b 0x80 []) chain)

/-- TRIG_DISARM. -/
def execTrigDisarm (iss : Issuer) (b : Block) (chain : List Block) (s : State) : Host.Outcome State Fault Refusal :=
  .next (taxia s iss (rowBlk b 0x81 []) chain)

/-- MG_IDENTITY_SET. -/
def execMgIdentitySet (iss : Issuer) (b : Block) (chain : List Block) (s : State) : Host.Outcome State Fault Refusal :=
  .next (taxia s iss (rowBlk b 0xE0 []) chain)

/-- PORT_ENABLE. -/
def execPortEnable (iss : Issuer) (b : Block) (chain : List Block) (s : State) : Host.Outcome State Fault Refusal :=
  .next (taxia s iss (rowBlk b 0xE1 [(21, 0, 3, 0)]) chain)

/-- PORT_DISABLE. -/
def execPortDisable (iss : Issuer) (b : Block) (chain : List Block) (s : State) : Host.Outcome State Fault Refusal :=
  .next (taxia s iss (rowBlk b 0xE1 [(21, 0, 3, 1)]) chain)

/-- PORT_DRAIN. -/
def execPortDrain (iss : Issuer) (b : Block) (chain : List Block) (s : State) : Host.Outcome State Fault Refusal :=
  .next (taxia s iss (rowBlk b 0xE1 [(21, 0, 3, 2)]) chain)

/-- PORT_RETRAIN. -/
def execPortRetrain (iss : Issuer) (b : Block) (chain : List Block) (s : State) : Host.Outcome State Fault Refusal :=
  .next (taxia s iss (rowBlk b 0xE1 [(21, 0, 3, 3)]) chain)

/-- PORT_RELEASE. -/
def execPortRelease (iss : Issuer) (b : Block) (chain : List Block) (s : State) : Host.Outcome State Fault Refusal :=
  .next (taxia s iss (rowBlk b 0xE1 [(21, 0, 3, 4)]) chain)

/-- PORT_CONFIGURE. -/
def execPortConfigure (iss : Issuer) (b : Block) (chain : List Block) (s : State) : Host.Outcome State Fault Refusal :=
  .next (taxia s iss (rowBlk b 0xE1 [(21, 0, 3, 5)]) chain)

/-- EPOCH_WRITE_CLEAR. -/
def execEpochWriteClear (iss : Issuer) (b : Block) (chain : List Block) (s : State) : Host.Outcome State Fault Refusal :=
  .next (taxia s iss (rowBlk b 0xE2 [(21, 0, 2, 0)]) chain)

/-- EPOCH_WRITE_COPY_ACTIVE. -/
def execEpochWriteCopyActive (iss : Issuer) (b : Block) (chain : List Block) (s : State) : Host.Outcome State Fault Refusal :=
  .next (taxia s iss (rowBlk b 0xE2 [(21, 0, 2, 1)]) chain)

/-- EPOCH_WRITE_PUT. -/
def execEpochWritePut (iss : Issuer) (b : Block) (chain : List Block) (s : State) : Host.Outcome State Fault Refusal :=
  .next (taxia s iss (rowBlk b 0xE2 [(21, 0, 2, 2)]) chain)

/-- EPOCH_WRITE_REMOVE. -/
def execEpochWriteRemove (iss : Issuer) (b : Block) (chain : List Block) (s : State) : Host.Outcome State Fault Refusal :=
  .next (taxia s iss (rowBlk b 0xE2 [(21, 0, 2, 3)]) chain)

/-- EPOCH_ACTIVATE. -/
def execEpochActivate (iss : Issuer) (b : Block) (chain : List Block) (s : State) : Host.Outcome State Fault Refusal :=
  .next (taxia s iss (rowBlk b 0xE3 [(20, 4, 1, 0)]) chain)

/-- EPOCH_WITHDRAW. -/
def execEpochWithdraw (iss : Issuer) (b : Block) (chain : List Block) (s : State) : Host.Outcome State Fault Refusal :=
  .next (taxia s iss (rowBlk b 0xE3 [(20, 4, 1, 1)]) chain)

/-- MG_GATE_STAGE. -/
def execMgGateStage (iss : Issuer) (b : Block) (chain : List Block) (s : State) : Host.Outcome State Fault Refusal :=
  .next (taxia s iss (rowBlk b 0xE4 []) chain)

/-- GATE_ACTIVATE. -/
def execGateActivate (iss : Issuer) (b : Block) (chain : List Block) (s : State) : Host.Outcome State Fault Refusal :=
  .next (taxia s iss (rowBlk b 0xE5 [(21, 0, 2, 0)]) chain)

/-- GATE_WITHDRAW. -/
def execGateWithdraw (iss : Issuer) (b : Block) (chain : List Block) (s : State) : Host.Outcome State Fault Refusal :=
  .next (taxia s iss (rowBlk b 0xE5 [(21, 0, 2, 1)]) chain)

/-- GATE_CLEAR. -/
def execGateClear (iss : Issuer) (b : Block) (chain : List Block) (s : State) : Host.Outcome State Fault Refusal :=
  .next (taxia s iss (rowBlk b 0xE5 [(21, 0, 2, 2)]) chain)

/-- INSTANCE_CREATE. -/
def execInstanceCreate (iss : Issuer) (b : Block) (chain : List Block) (s : State) : Host.Outcome State Fault Refusal :=
  .next (taxia s iss (rowBlk b 0xE6 [(22, 0, 3, 0)]) chain)

/-- INSTANCE_START. -/
def execInstanceStart (iss : Issuer) (b : Block) (chain : List Block) (s : State) : Host.Outcome State Fault Refusal :=
  .next (taxia s iss (rowBlk b 0xE6 [(22, 0, 3, 1)]) chain)

/-- INSTANCE_QUIESCE. -/
def execInstanceQuiesce (iss : Issuer) (b : Block) (chain : List Block) (s : State) : Host.Outcome State Fault Refusal :=
  .next (taxia s iss (rowBlk b 0xE6 [(22, 0, 3, 2)]) chain)

/-- INSTANCE_RESUME. -/
def execInstanceResume (iss : Issuer) (b : Block) (chain : List Block) (s : State) : Host.Outcome State Fault Refusal :=
  .next (taxia s iss (rowBlk b 0xE6 [(22, 0, 3, 3)]) chain)

/-- INSTANCE_RESIZE. -/
def execInstanceResize (iss : Issuer) (b : Block) (chain : List Block) (s : State) : Host.Outcome State Fault Refusal :=
  .next (taxia s iss (rowBlk b 0xE6 [(22, 0, 3, 4)]) chain)

/-- INSTANCE_REMOVE. -/
def execInstanceRemove (iss : Issuer) (b : Block) (chain : List Block) (s : State) : Host.Outcome State Fault Refusal :=
  .next (taxia s iss (rowBlk b 0xE6 [(22, 0, 3, 5)]) chain)

/-- GRANT_CONNECTION. -/
def execGrantConnection (iss : Issuer) (b : Block) (chain : List Block) (s : State) : Host.Outcome State Fault Refusal :=
  .next (taxia s iss (rowBlk b 0xE7 [(22, 0, 4, 0), (41, 0, 1, 0)]) chain)

/-- REVOKE_CONNECTION. -/
def execRevokeConnection (iss : Issuer) (b : Block) (chain : List Block) (s : State) : Host.Outcome State Fault Refusal :=
  .next (taxia s iss (rowBlk b 0xE7 [(22, 0, 4, 0), (41, 0, 1, 1)]) chain)

/-- GRANT_MATCHING. -/
def execGrantMatching (iss : Issuer) (b : Block) (chain : List Block) (s : State) : Host.Outcome State Fault Refusal :=
  .next (taxia s iss (rowBlk b 0xE7 [(22, 0, 4, 1)]) chain)

/-- GRANT_COLLECTIVE. -/
def execGrantCollective (iss : Issuer) (b : Block) (chain : List Block) (s : State) : Host.Outcome State Fault Refusal :=
  .next (taxia s iss (rowBlk b 0xE7 [(22, 0, 4, 2), (32, 0, 1, 0)]) chain)

/-- REVOKE_COLLECTIVE. -/
def execRevokeCollective (iss : Issuer) (b : Block) (chain : List Block) (s : State) : Host.Outcome State Fault Refusal :=
  .next (taxia s iss (rowBlk b 0xE7 [(22, 0, 4, 2), (32, 0, 1, 1)]) chain)

/-- GRANT_COUNTER. -/
def execGrantCounter (iss : Issuer) (b : Block) (chain : List Block) (s : State) : Host.Outcome State Fault Refusal :=
  .next (taxia s iss (rowBlk b 0xE7 [(22, 0, 4, 3), (27, 0, 1, 0)]) chain)

/-- REVOKE_COUNTER. -/
def execRevokeCounter (iss : Issuer) (b : Block) (chain : List Block) (s : State) : Host.Outcome State Fault Refusal :=
  .next (taxia s iss (rowBlk b 0xE7 [(22, 0, 4, 3), (27, 0, 1, 1)]) chain)

/-- GRANT_TALLY. -/
def execGrantTally (iss : Issuer) (b : Block) (chain : List Block) (s : State) : Host.Outcome State Fault Refusal :=
  .next (taxia s iss (rowBlk b 0xE7 [(22, 0, 4, 4), (32, 0, 1, 0)]) chain)

/-- REVOKE_TALLY. -/
def execRevokeTally (iss : Issuer) (b : Block) (chain : List Block) (s : State) : Host.Outcome State Fault Refusal :=
  .next (taxia s iss (rowBlk b 0xE7 [(22, 0, 4, 4), (32, 0, 1, 1)]) chain)

/-- GRANT_VSTATION. -/
def execGrantVstation (iss : Issuer) (b : Block) (chain : List Block) (s : State) : Host.Outcome State Fault Refusal :=
  .next (taxia s iss (rowBlk b 0xE7 [(22, 0, 4, 5), (25, 0, 1, 0)]) chain)

/-- REVOKE_VSTATION. -/
def execRevokeVstation (iss : Issuer) (b : Block) (chain : List Block) (s : State) : Host.Outcome State Fault Refusal :=
  .next (taxia s iss (rowBlk b 0xE7 [(22, 0, 4, 5), (25, 0, 1, 1)]) chain)

/-- GRANT_WINDOW. -/
def execGrantWindow (iss : Issuer) (b : Block) (chain : List Block) (s : State) : Host.Outcome State Fault Refusal :=
  .next (taxia s iss (rowBlk b 0xE7 [(22, 0, 4, 6)]) chain)

/-- MODE_SET_DRAIN. -/
def execModeSetDrain (iss : Issuer) (b : Block) (chain : List Block) (s : State) : Host.Outcome State Fault Refusal :=
  .next (taxia s iss (rowBlk b 0xE8 [(20, 0, 3, 0)]) chain)

/-- MODE_SET_RESUME. -/
def execModeSetResume (iss : Issuer) (b : Block) (chain : List Block) (s : State) : Host.Outcome State Fault Refusal :=
  .next (taxia s iss (rowBlk b 0xE8 [(20, 0, 3, 1)]) chain)

/-- MODE_SET_STANDBY. -/
def execModeSetStandby (iss : Issuer) (b : Block) (chain : List Block) (s : State) : Host.Outcome State Fault Refusal :=
  .next (taxia s iss (rowBlk b 0xE8 [(20, 0, 3, 2)]) chain)

/-- MODE_SET_RESET. -/
def execModeSetReset (iss : Issuer) (b : Block) (chain : List Block) (s : State) : Host.Outcome State Fault Refusal :=
  .next (taxia s iss (rowBlk b 0xE8 [(20, 0, 3, 3)]) chain)

/-- MODE_SET_FORENSIC. -/
def execModeSetForensic (iss : Issuer) (b : Block) (chain : List Block) (s : State) : Host.Outcome State Fault Refusal :=
  .next (taxia s iss (rowBlk b 0xE8 [(20, 0, 3, 4)]) chain)

/-- MG_REG_READ. -/
def execMgRegRead (iss : Issuer) (b : Block) (chain : List Block) (s : State) : Host.Outcome State Fault Refusal :=
  .next (taxia s iss (rowBlk b 0xE9 []) chain)

/-- MG_REG_WRITE. -/
def execMgRegWrite (iss : Issuer) (b : Block) (chain : List Block) (s : State) : Host.Outcome State Fault Refusal :=
  .next (taxia s iss (rowBlk b 0xEA []) chain)

/-- CRUISE_PUSH_NOW. -/
def execCruisePushNow (iss : Issuer) (b : Block) (chain : List Block) (s : State) : Host.Outcome State Fault Refusal :=
  .next (taxia s iss (rowBlk b 0xEB [(20, 0, 2, 0)]) chain)

/-- CRUISE_SET_PUSH. -/
def execCruiseSetPush (iss : Issuer) (b : Block) (chain : List Block) (s : State) : Host.Outcome State Fault Refusal :=
  .next (taxia s iss (rowBlk b 0xEB [(20, 0, 2, 1)]) chain)

/-- CRUISE_SET_RECEIVE. -/
def execCruiseSetReceive (iss : Issuer) (b : Block) (chain : List Block) (s : State) : Host.Outcome State Fault Refusal :=
  .next (taxia s iss (rowBlk b 0xEB [(20, 0, 2, 2)]) chain)

/-- MG_SHELF_COLLECT. -/
def execMgShelfCollect (iss : Issuer) (b : Block) (chain : List Block) (s : State) : Host.Outcome State Fault Refusal :=
  .next (taxia s iss (rowBlk b 0xEC []) chain)

/-- MG_FAULT_RELEASE. -/
def execMgFaultRelease (iss : Issuer) (b : Block) (chain : List Block) (s : State) : Host.Outcome State Fault Refusal :=
  .next (taxia s iss (rowBlk b 0xED []) chain)

/-- MG_SEM_BANK_RESET. -/
def execMgSemBankReset (iss : Issuer) (b : Block) (chain : List Block) (s : State) : Host.Outcome State Fault Refusal :=
  .next (taxia s iss (rowBlk b 0xEE []) chain)

/-- TIME_CTL_SET. -/
def execTimeCtlSet (iss : Issuer) (b : Block) (chain : List Block) (s : State) : Host.Outcome State Fault Refusal :=
  .next (taxia s iss (rowBlk b 0xEF [(20, 0, 2, 0)]) chain)

/-- TIME_CTL_STEP. -/
def execTimeCtlStep (iss : Issuer) (b : Block) (chain : List Block) (s : State) : Host.Outcome State Fault Refusal :=
  .next (taxia s iss (rowBlk b 0xEF [(20, 0, 2, 1)]) chain)

/-- TIME_CTL_RESELECT. -/
def execTimeCtlReselect (iss : Issuer) (b : Block) (chain : List Block) (s : State) : Host.Outcome State Fault Refusal :=
  .next (taxia s iss (rowBlk b 0xEF [(20, 0, 2, 2)]) chain)

/-- ARCHIVE_DESIGNATE. -/
def execArchiveDesignate (iss : Issuer) (b : Block) (chain : List Block) (s : State) : Host.Outcome State Fault Refusal :=
  .next (taxia s iss (rowBlk b 0xF0 [(20, 0, 2, 0)]) chain)

/-- ARCHIVE_CLEAR. -/
def execArchiveClear (iss : Issuer) (b : Block) (chain : List Block) (s : State) : Host.Outcome State Fault Refusal :=
  .next (taxia s iss (rowBlk b 0xF0 [(20, 0, 2, 1)]) chain)

/-- ARCHIVE_COPY. -/
def execArchiveCopy (iss : Issuer) (b : Block) (chain : List Block) (s : State) : Host.Outcome State Fault Refusal :=
  .next (taxia s iss (rowBlk b 0xF0 [(20, 0, 2, 2)]) chain)

/-- RING_CONFIGURE_CMD. -/
def execRingConfigureCmd (iss : Issuer) (b : Block) (chain : List Block) (s : State) : Host.Outcome State Fault Refusal :=
  .next (taxia s iss (rowBlk b 0xF1 [(20, 0, 3, 0)]) chain)

/-- RING_CONFIGURE_CQ. -/
def execRingConfigureCq (iss : Issuer) (b : Block) (chain : List Block) (s : State) : Host.Outcome State Fault Refusal :=
  .next (taxia s iss (rowBlk b 0xF1 [(20, 0, 3, 1)]) chain)

/-- RING_PAUSE. -/
def execRingPause (iss : Issuer) (b : Block) (chain : List Block) (s : State) : Host.Outcome State Fault Refusal :=
  .next (taxia s iss (rowBlk b 0xF1 [(20, 0, 3, 2)]) chain)

/-- RING_RESUME. -/
def execRingResume (iss : Issuer) (b : Block) (chain : List Block) (s : State) : Host.Outcome State Fault Refusal :=
  .next (taxia s iss (rowBlk b 0xF1 [(20, 0, 3, 3)]) chain)

/-- RING_CTL_RESET. -/
def execRingCtlReset (iss : Issuer) (b : Block) (chain : List Block) (s : State) : Host.Outcome State Fault Refusal :=
  .next (taxia s iss (rowBlk b 0xF1 [(20, 0, 3, 4)]) chain)

/-- RING_RELEASE_CMD. -/
def execRingReleaseCmd (iss : Issuer) (b : Block) (chain : List Block) (s : State) : Host.Outcome State Fault Refusal :=
  .next (taxia s iss (rowBlk b 0xF1 [(20, 0, 3, 5)]) chain)

/-- RING_RELEASE_CQ. -/
def execRingReleaseCq (iss : Issuer) (b : Block) (chain : List Block) (s : State) : Host.Outcome State Fault Refusal :=
  .next (taxia s iss (rowBlk b 0xF1 [(20, 0, 3, 6)]) chain)

end Sys2Proof.Machine
end

