-- ==== Sys2Proof/Machine/Access.lean ====
section
/-! DEFINITION. Accesses of a master to what it can reach: the register space (16_register_map), a tenant's instance BAR0
(R109, R340, R341, R365, R471), BAR2 with the mailbox and the MSI-X table (R314, R349). An offset of 2^32 and above names
BAR2 of a host function; a lower one its BAR0, or the register space. -/

namespace Sys2Proof.Machine

open Sys2Proof

/-! ## Who is there -/

/-- The ROM hold (R414). -/
def romHold (s : State) : Bool := decide (s.sys.mode = .bringup ∧ s.sys.bootStatus = 1)

/-- The I3C target has an address and the device is out of reset (R458). -/
def i3cThere (s : State) : Bool := !s.sys.inReset && decide (s.i3c.dynAddr ≠ 0)

/-- A master that can make an access now (R414, R415, R428, R459). [log DEDUCED 174, DEDUCED 175] -/
def masterThere (s : State) (m : Master) : Bool :=
  match m with
  | .host f => hostReach s f
  | .carrel d p t => !s.sys.inReset && !(forensic s) && decide (s.sys.mode ≠ .standby ∧ t < 4 ∧ (pairOf s d p).st = .active)
  | .cp _ c => !s.sys.inReset && decide (s.sys.mode ≠ .standby ∧ c < 2)
  | .i3c => i3cThere s && !(romHold s)
  | .jtag => !s.sys.inReset && !(romHold s)
  | .flume _ => running s

/-- A host that reaches the link of a device still in bring-up (R415). [log DEDUCED 121] -/
def unsupported (s : State) (m : Master) : Bool :=
  match m with
  | .host f => !s.sys.inReset && decide (s.sys.mode = .bringup) && hostLinkUp s f
  | _ => false

/-- The die that a write of the device-global image stays on while the device is split (R467). [log DEDUCED 128] -/
def homeDie : Master → Die
  | .host f => portDie f.port
  | .carrel d _ _ => d
  | .cp d _ => d
  | _ => .west

/-! ## The register space -/

/-- A read of the register space. -/
def spaceRead (s : State) (m : Master) (off size : Nat) : State :=
  match regReadAs s m true off size with
  | (s, .done v) => emit s (.regData m off v)
  | (s, .denied a) => denyAccess s m a false
  | (s, .barred) => emit s (.regDenied m off false)

/-- A write of the register space. -/
def spaceWrite (s : State) (m : Master) (off size data : Nat) : State :=
  match regWriteAs s m true (homeDie m) off size data with
  | (s, .done _) => s
  | (s, .denied a) => denyAccess s m a true
  | (s, .barred) => match m with
    | .host _ => s
    | _ => emit s (.regDenied m off true)

/-! ## Instance BAR0 -/

/-- The width of the register at an offset of the capability area; 0 in a gap (R340, R365). -/
def capWidth (off : Nat) : Nat :=
  if off < 0x60 then 8
  else if 0x100 ≤ off ∧ off < 0x780 then 8
  else if 0x2000 ≤ off ∧ off < 0xA000 then 4
  else if 0xA000 ≤ off ∧ off < 0xE000 then 2
  else if 0xF000 ≤ off ∧ off < 0xF080 then 8
  else if 0xF080 ≤ off ∧ off < 0xF0C0 then 4
  else 0

/-- CAP_ID. -/
def capId (s : State) (i : Nat) : Nat :=
  let x := inst s i
  let d := instDie s i
  let station := if s.ident.valid then routerAddr s d + x.fn.port % 4 else 0
  i + instStCode x.st * 2 ^ 10 + station * 2 ^ 16 + x.fn.port * 2 ^ 36 + x.fn.link * 2 ^ 39 + x.fn.fn * 2 ^ 41

/-- CAP_WIN_BASE_w, CAP_WIN_SIZE_w and CAP_WIN_KEY_w. -/
def capWin (i w : Nat) (x : Win) (at_ : Nat) : Nat :=
  if !x.valid then 0
  else if at_ = 0 then
    x.base / 65536 * 65536 + 1 + 2 * b2n x.lr + 4 * b2n x.lw + 8 * b2n x.rr + 16 * b2n x.rw + 32 * b2n x.sideEffect + 64 * b2n x.tabled
      + 128 * b2n x.page2m + 256 * b2n x.ats
  else if at_ = 8 then x.size
  else if at_ = 16 then (if x.rr || x.rw then i * 2 ^ 22 + w * 2 ^ 17 + x.nonce else 0)
  else 0

/-- The semaphores granted to an instance among the 64 from `64 × k`. -/
def capSem (s : State) (i k : Nat) : Nat :=
  ((List.range 64).map fun n => b2n (semGranted s (instDie s i) (64 * k + n) i) * 2 ^ n).sum

/-- CAP_CMD_RING_c and CAP_CQ_c. -/
def capRing (s : State) (i c : Nat) : Nat :=
  match findCmdRing s (.inst i) c with
  | some (d, n) =>
    let r := cmdRing s d n
    r.log2 + (cqRing s d r.cq).instRing * 2 ^ 5 + r.prio * 2 ^ 29 + 2 ^ 31
  | none => 0
def capCq (s : State) (i c : Nat) : Nat :=
  match findCqRing s (.inst i) c with
  | some (d, m) => (cqRing s d m).log2 + 2 ^ 15
  | none => 0

/-- A counter by its device-wide index (R267). -/
def counterVal (s : State) (c : Nat) : Nat := regVal s (if c < 768 then .west else .east) (0x600000 + 8 * (c % 768)) % 2 ^ 48

/-- The capability register that begins at `b`: zero in a gap, and all of it while the instance is ABSENT (R340). -/
def capVal (s : State) (i b : Nat) : Nat :=
  let x := inst s i
  if x.st = .absent then 0
  else if b = 0 then capId s i
  else if b = 0x08 then x.maxOps + x.maxTriggers * 2 ^ 32 + x.tcMask * 2 ^ 48
  else if b = 0x10 then x.maxCtx + x.maxPosted * 2 ^ 32
  else if b = 0x18 then x.maxUnexp + x.maxUnexpKib * 2 ^ 32
  else if b = 0x20 then (x.vstations.map fun v => 2 ^ v).sum
  else if b = 0x28 then (if x.evtBase = 0 then 0 else x.evtLog2 + 2 ^ 8)
  else if 0x40 ≤ b ∧ b < 0x60 then capSem s i ((b - 0x40) / 8)
  else if 0x100 ≤ b ∧ b < 0x500 then capWin i ((b - 0x100) / 32) (tget {} x.wins ((b - 0x100) / 32)) (b % 32)
  else if 0x500 ≤ b ∧ b < 0x580 then
    match x.tallies[(b - 0x500) / 8]? with
    | some (f, n) => f + n * 2 ^ 22 + 2 ^ 63
    | none => 0
  else if 0x580 ≤ b ∧ b < 0x780 then
    match x.colls[(b - 0x580) / 8]? with
    | some (c, k) => c + k * 2 ^ 12 + 2 ^ 63
    | none => 0
  else if 0x2000 ≤ b ∧ b < 0xA000 then capRing s i ((b - 0x2000) / 4)
  else if 0xA000 ≤ b ∧ b < 0xE000 then capCq s i ((b - 0xA000) / 2)
  else if 0xF000 ≤ b ∧ b < 0xF080 then
    let c := tget 0 x.counters ((b - 0xF000) / 8)
    if c = 0 then 0 else counterVal s (c - 1)
  else if 0xF080 ≤ b ∧ b < 0xF0C0 then
    let c := tget 0 x.counters ((b - 0xF080) / 4)
    if c = 0 then 0 else c - 1 + 2 ^ 31
  else 0

/-- The connection capability entry: its 8-byte word 0 or 1 (R341). -/
def connCap (s : State) (i n word : Nat) : Nat :=
  let c := n + 2 ^ 19 * (instDie s i).idx
  let k := conn s (instDie s i) c
  if (inst s i).st = .absent ∨ k.st = .absent ∨ k.inst ≠ i then 0
  else if word = 0 then
    1 + connStCode k.st * 2 + k.tc * 2 ^ 4 + k.mtu * 2 ^ 6 + k.localStation * 2 ^ 9 + k.remoteStation * 2 ^ 16 + k.remoteInst * 2 ^ 36
  else k.peerConn + c * 2 ^ 20

/-- Bytes of an instance's register of `width` bytes that begins at `b`: at its full width, or a part of it, a 4-byte read of
the low half latching the high half (R469). -/
def partRead (s : State) (m : Master) (b width off size v : Nat) : State × Nat :=
  if width = 8 ∧ size = 4 then
    if off = b then (latchHigh s m b (v / 2 ^ 32), v % 2 ^ 32)
    else match latchOf s m b with
      | some h => (unlatch s m, h)
      | none => (s, v / 2 ^ 32)
  else (s, slice v (off - b) size)

/-- A read of a semaphore through instance BAR0 (R365, R366). [log DEDUCED 131] -/
def tenantSem (s : State) (m : Master) (d : Die) (n off size : Nat) : State × Nat :=
  let b := off / 8 * 8
  if off % 16 ≥ 8 then (s, 0)
  else match semReach s m d n (0x500000 + 16 * n) false with
    | .ok => if size = 8 then semRead s m d n else partRead s m b 8 off size (semWord s d n)
    | _ => (s, 2 ^ (8 * size) - 1)

/-- A read of an instance's BAR0. [log DEDUCED 120] -/
def tenantVal (s : State) (m : Master) (i off size : Nat) : State × Nat :=
  let d := instDie s i
  if !(size == 1 || size == 2 || size == 4 || size == 8) || decide (off % size ≠ 0) then (s, 0)
  else if off < 0x10000 then
    let w := capWidth off
    if w = 0 ∨ size > w then (s, 0) else partRead s m (off / w * w) w off size (capVal s i (off / w * w))
  else if off < 0x20000 then
    match findCqRing s (.inst i) ((off - 0x10000) / 8) with
    | some (d, q) => (s, slice (headReg (cqRing s d q).head (cqRing s d q).lap (cqRing s d q).arm) (off % 8) size)
    | none => (s, 0)
  else if off < 0x20008 then
    (s, if (inst s i).st = .absent then 0 else slice (headReg (inst s i).evt.head (inst s i).evt.lap (inst s i).evt.arm) (off % 8) size)
  else if 0x30000 ≤ off ∧ off < 0x31000 then tenantSem s m d ((off - 0x30000) / 16) off size
  else if 0x800000 ≤ off ∧ off < 0x1000000 then
    partRead s m (off / 8 * 8) 8 off size (connCap s i ((off - 0x800000) / 16) (off / 8 % 2))
  else if 0x1000000 ≤ off ∧ off < 0x3000000 then
    match findCmdRing s (.inst i) ((off - 0x1000000) / 0x1000) with
    | some (d, n) => (s, if off % 0x1000 = 0 ∧ size ≥ 4 then cmdStatus (cmdRing s d n) % 2 ^ (8 * size) else 0)
    | none => (s, 0)
  else (s, 0)

/-- A read of a tenant function's BAR0: all ones in Forensic (R427), zero without an instance (R315). -/
def tenantRead (s : State) (f : FnId) (off size : Nat) : State :=
  let m := Master.host f
  if forensic s then emit s (.regData m off (2 ^ (8 * size) - 1))
  else match (fnOf s f).inst with
    | some i =>
      let r := tenantVal (unhold s m) m i off size
      emit r.1 (.regData m off r.2)
    | none => emit s (.regData m off 0)

/-- A write of SEM_CTL through instance BAR0: whole, or its halves in order (R470). -/
def tenantSemCtl (s : State) (m : Master) (d : Die) (off size data : Nat) (low : Option Nat) : State :=
  let n := (off - 0x30000) / 16
  let act (s : State) (v : Nat) : State := semWrite s m d n fun s => semCtl s m d n v
  if off % 16 = 8 ∧ size = 8 then act s data
  else if off % 16 = 8 ∧ size = 4 then { s with holds := s.holds ++ [{ who := m, off := off, val := data % 2 ^ 32 }] }
  else if off % 16 = 12 ∧ size = 4 then
    match low with
    | some v => act s v
    | none => s
  else s

/-- A write of an instance's BAR0: a doorbell, a head register or a semaphore; anything else is dropped. [log DEDUCED 47] -/
def tenantWrite (s : State) (f : FnId) (i off size data : Nat) : State :=
  let m := Master.host f
  let low := heldLow s m (off / 8 * 8)
  let s := unhold s m
  let whole := decide (off % 8 = 0 ∧ (size = 4 ∨ size = 8))
  if 0x10000 ≤ off ∧ off < 0x20000 then
    match findCqRing s (.inst i) ((off - 0x10000) / 8) with
    | some (d, q) => if whole then cqHeadWrite s d q (BitVec.ofNat 32 data) else s
    | none => s
  else if off = 0x20000 then (if whole then instHeadWrite s i (BitVec.ofNat 32 data) else s)
  else if 0x30000 ≤ off ∧ off < 0x31000 then tenantSemCtl s m (instDie s i) off size data low
  else if 0x1000000 ≤ off ∧ off < 0x3000000 then
    match findCmdRing s (.inst i) ((off - 0x1000000) / 0x1000) with
    | some (d, n) => ringDoorbell s d n
    | none => s
  else s

/-! ## BAR2 -/

/-- Vectors of a function's MSI-X table (R314). -/
def vectors (s : State) (f : FnId) : Nat := if isMgmt s f then 2048 else 64

/-- A message of the function waits for its vector (R375). -/
def pbaBit (s : State) (f : FnId) (v : Nat) : Bool :=
  let d := portDie f.port
  (isMgmt s f && decide (v = 0) && s.mbx.irq) ||
    (die s d).eng.srcs.any fun (n, x) => x.inPba && (match x.cur with
      | some j => decide ((tgtCore (srcTgt s d n j)).isNone = true ∧ tgtFn d (srcTgt s d n j) = f ∧ tgtVec (srcTgt s d n j) = v)
      | none => false)

/-- MBX_STATUS. -/
def mbxStatus (s : State) : Nat := s.mbx.lastSeq + b2n s.mbx.busy * 2 ^ 32 + b2n s.mbx.valid * 2 ^ 33 + s.mbx.rejects * 2 ^ 40

/-- A 32-bit word of an MSI-X table entry. -/
def msixWord (s : State) (f : FnId) (v k : Nat) : Nat := if k = 3 then b2n (vecMasked s f v) else tget 0 (fnOf s f).msixTab (4 * v + k)

/-- The aligned 8 bytes of BAR2 at `o`. -/
def bar2Val (s : State) (f : FnId) (o : Nat) : Nat :=
  if 0x4000 ≤ o ∧ o < 0x4000 + 16 * vectors s f then
    msixWord s f ((o - 0x4000) / 16) (o % 16 / 4) + msixWord s f ((o - 0x4000) / 16) (o % 16 / 4 + 1) * 2 ^ 32
  else if 0xC000 ≤ o ∧ o < 0xC000 + vectors s f / 8 then
    ((List.range 64).map fun n => b2n (pbaBit s f (8 * (o - 0xC000) + n)) * 2 ^ n).sum
  else if !(isMgmt s f) then 0
  else if o < 0x40 then fld s.mbx.block o 0 64
  else if o = 0x48 then mbxStatus s
  else if 0x60 ≤ o ∧ o < 0x80 then bits s.mbx.result.toNat (8 * (o - 0x60)) 64
  else 0

/-- A read of BAR2: in Forensic only of the mailbox (R428). [log DEDUCED 122] -/
def bar2Read (s : State) (f : FnId) (o size : Nat) : State :=
  let m := Master.host f
  let b := o / 8 * 8
  let s := unhold s m
  if forensic s && !(isMgmt s f && decide (o < 0x4000)) then emit s (.regDenied m (2 ^ 32 + o) false)
  else if !(size == 1 || size == 2 || size == 4 || size == 8) || decide (o % size ≠ 0) then emit s (.regData m (2 ^ 32 + o) 0)
  else
    let r := if b = 0x48 ∧ isMgmt s f = true then partRead s m (2 ^ 32 + b) 8 (2 ^ 32 + o) size (bar2Val s f b)
      else (s, slice (bar2Val s f b) (o - b) size)
    emit r.1 (.regData m (2 ^ 32 + o) r.2)

/-- Write a 32-bit word of an MSI-X table entry; unmasking vector 0 of the management function lets the mailbox's message go. -/
def msixWrite (s : State) (f : FnId) (v k data : Nat) : State :=
  if k = 3 then
    let s := setMasked s f v (bit data 0)
    if isMgmt s f && decide (v = 0) && !(bit data 0) && s.mbx.irq then
      let s := { s with mbx := { s.mbx with irq := false } }
      if msixOk s f 0 then msixSend s f 0 else s
    else s
  else modFn s f fun x => { x with msixTab := tset 0 x.msixTab (4 * v + k) (data % 2 ^ 32) }

/-- MBX_BLOCK with `size` bytes at `o` replaced. -/
def blockWrite (s : State) (o size data : Nat) : State := { s with mbx := { s.mbx with block := putFld s.mbx.block o 0 (8 * size) data } }

/-- A write of BAR2. -/
def bar2Write (s : State) (f : FnId) (o size data : Nat) : State :=
  let word := decide ((size = 4 ∨ size = 8) ∧ o % size = 0)
  let s := unhold s (.host f)
  if forensic s && !(isMgmt s f && decide (o < 0x4000)) then s
  else if 0x4000 ≤ o ∧ o < 0x4000 + 16 * vectors s f then
    if !word then s
    else
      let s := msixWrite s f ((o - 0x4000) / 16) (o % 16 / 4) data
      if size = 8 then msixWrite s f ((o - 0x4000) / 16) (o % 16 / 4 + 1) (data / 2 ^ 32) else s
  else if !(isMgmt s f) then s
  else if o + size ≤ 0x40 then (if 1 ≤ size ∧ size ≤ 8 then blockWrite s o size data else s)
  else if o = 0x40 ∧ size = 4 then mbxGo s (data % 2 ^ 32)
  else if o = 0x48 ∧ size = 8 then { s with mbx := { s.mbx with rejects := s.mbx.rejects &&& (255 ^^^ bits data 40 8) } }
  else if o = 0x4C ∧ size = 4 then { s with mbx := { s.mbx with rejects := s.mbx.rejects &&& (255 ^^^ bits data 8 8) } }
  else s

/-! ## Accesses -/

/-- A read by a master. -/
def accessRead (s : State) (m : Master) (off size : Nat) : State :=
  if masterThere s m then
    match m with
    | .host f =>
      if off ≥ 2 ^ 32 then bar2Read s f (off - 2 ^ 32) size
      else if !(isMgmt s f) then tenantRead s f off size
      else if forensic s then emit s (.regDenied m off false)
      else spaceRead s m off size
    | _ => spaceRead s m off size
  else if unsupported s m then emit s (.regDenied m off false)
  else s

/-- A write by a master. -/
def accessWrite (s : State) (m : Master) (off size data : Nat) : State :=
  if masterThere s m then
    match m with
    | .host f =>
      if off ≥ 2 ^ 32 then bar2Write s f (off - 2 ^ 32) size data
      else if forensic s then s
      else if isMgmt s f then spaceWrite s m off size data
      else match (fnOf s f).inst with
        | some i => tenantWrite s f i off size data
        | none => s
    | _ => spaceWrite s m off size data
  else s

/-- REGISTER_WRITE (R468), DENIED_WRITE_NOTICE within it (R345). -/
def execRegisterWrite (m : Master) (off size : Nat) (data : Word) (s : State) : Host.Outcome State Fault Refusal :=
  .next (accessWrite s m off size data.toNat)

/-- GLOBAL_IMAGE_WRITE (R467): `off` within the image. -/
def execGlobalImageWrite (m : Master) (off size : Nat) (data : Word) (s : State) : Host.Outcome State Fault Refusal :=
  .next (accessWrite s m (0x8000000 + off % 0x4000000) size data.toNat)

/-- LOW_HALF_READ_LATCH (R273): a 4-byte read. -/
def execLowHalfReadLatch (m : Master) (off : Nat) (s : State) : Host.Outcome State Fault Refusal := .next (accessRead s m off 4)

/-- LOW_HALF_WRITE_HOLD (R470): a 4-byte write. -/
def execLowHalfWriteHold (m : Master) (off : Nat) (data : BitVec 32) (s : State) : Host.Outcome State Fault Refusal :=
  .next (accessWrite s m off 4 data.toNat)

/-- VIEW_SNAPSHOT_READ (R273): an 8-byte read. -/
def execViewSnapshotRead (m : Master) (off : Nat) (s : State) : Host.Outcome State Fault Refusal := .next (accessRead s m off 8)

/-- CRZ_Q_VIEW_READ (R258). -/
def execCrzQViewRead (m : Master) (d : Die) (s : State) : Host.Outcome State Fault Refusal := .next (accessRead s m (regOff d 0x1100020) 8)

/-- ACL_REGION_WRITE (R343): by a control processor. -/
def execAclRegionWrite (n : Nat) (val : Word) (s : State) : Host.Outcome State Fault Refusal :=
  .next (accessWrite s (.cp .west 0) (regOff .west (0x1800000 + 8 * (n % 64))) 8 val.toNat)

/-- SEM_ACQUIRE (R366). -/
def execSemAcquire (m : Master) (d : Die) (n : Nat) (s : State) : Host.Outcome State Fault Refusal :=
  .next (if masterThere s m then semAcquire s m d n else s)

/-- SEM_RELEASE, SEM_ARM, SEM_DISARM (R367). -/
def execSemRelease (m : Master) (d : Die) (n : Nat) (s : State) : Host.Outcome State Fault Refusal :=
  .next (if masterThere s m then semWrite s m d n fun s => semReleaseOp s m d n else s)
def execSemArm (m : Master) (d : Die) (n level source : Nat) (s : State) : Host.Outcome State Fault Refusal :=
  .next (if masterThere s m then semWrite s m d n fun s => semArmOp s m d n (level % 4) (source % 4096) else s)
def execSemDisarm (m : Master) (d : Die) (n : Nat) (s : State) : Host.Outcome State Fault Refusal :=
  .next (if masterThere s m then semWrite s m d n fun s => semDisarmOp s m d n else s)

end Sys2Proof.Machine
end

