-- ==== Sys2Proof/Machine/Periph.lean ====
section
/-! DEFINITION. The board's ports: I3C with the flash behind it (R458 to R460) and the test access port (R461). -/

namespace Sys2Proof.Machine

open Sys2Proof

/-! ## I3C -/

/-- The answer that a private read of the last request gives. -/
def i3cAnswer (s : State) (status : Nat) (data : List Byte) : State := { s with i3c := { s.i3c with status := status, data := data } }

/-- What a register access answers to the board controller: OK with data, or DENIED (R344). -/
def i3cRegAnswer (size : Nat) (read : Bool) : State × Access → State
  | (s, .done v) => i3cAnswer s 0 (if read then leBytes size v else [])
  | (s, _) => i3cAnswer s 2 []

/-- REG_READ. In the ROM hold MGT_MODE alone is read (R414). -/
def i3cRegRead (s : State) (addr size : Nat) : State :=
  if size ≠ 4 ∧ size ≠ 8 then i3cAnswer s 3 []
  else if romHold s then
    if addr / 8 * 8 ∈ [regOff .west 0x200, regOff .east 0x200] ∧ addr % size = 0 then i3cAnswer s 0 (leBytes size (slice (modeReg s) (addr % 8) size))
    else i3cAnswer s 2 []
  else i3cRegAnswer size true (regReadAs s .i3c true addr size)

/-- REG_WRITE. -/
def i3cRegWrite (s : State) (addr size data : Nat) : State :=
  if size ≠ 4 ∧ size ≠ 8 then i3cAnswer s 3 []
  else if romHold s then i3cAnswer s 2 []
  else i3cRegAnswer size false (regWriteAs s .i3c true .west addr size data)

/-- I3C_REG_READ. -/
def execI3cRegRead (addr size : Nat) (s : State) : Host.Outcome State Fault Refusal := .next (if i3cThere s then i3cRegRead s addr size else s)

/-- I3C_REG_WRITE. -/
def execI3cRegWrite (addr size : Nat) (data : Word) (s : State) : Host.Outcome State Fault Refusal :=
  .next (if i3cThere s then i3cRegWrite s addr size data.toNat else s)

/-- The ROMs or firmware read the flash: bring-up steps up to 5 (R459). [log DEDUCED 173] -/
def flashBusy (s : State) : Bool := decide (s.sys.mode = .bringup ∧ s.sys.bootStatus = 0 ∧ s.sys.bootStage < 4)

/-- The address lies in the slot of the running image while firmware runs (R459). -/
def flashGuarded (s : State) (addr : Nat) : Bool :=
  decide (s.sys.mode ≠ .standby ∧ s.sys.bootStage ≥ 4 ∧ addr / 0x2000000 = s.sys.bootSlot)

/-- A byte of the flash. [log PRESUMED 172] -/
def flashByte (s : State) (a : Nat) : Byte := tget 0xFF s.flash a

/-- FLASH_READ. -/
def i3cFlashRead (s : State) (addr len : Nat) : State :=
  if flashBusy s then i3cAnswer s 1 []
  else if len = 0 ∨ len > 256 then i3cAnswer s 3 []
  else i3cAnswer s 0 ((List.range len).map fun j => flashByte s (addr + j))

/-- FLASH_ERASE: every byte of the 64 KiB sector reads 0xFF. -/
def i3cFlashErase (s : State) (addr : Nat) : State :=
  if flashBusy s then i3cAnswer s 1 []
  else if flashGuarded s addr then i3cAnswer s 2 []
  else i3cAnswer { s with flash := s.flash.filter fun (a, _) => decide (a / 65536 ≠ addr / 65536) } 0 []

/-- Program one byte: a NOR flash clears bits and sets none. -/
def flashPut (s : State) (a : Nat) (v : Byte) : State := { s with flash := tset 0xFF s.flash a (flashByte s a &&& v) }

/-- FLASH_PROGRAM. -/
def i3cFlashProgram (s : State) (addr : Nat) (data : List Byte) : State :=
  if flashBusy s then i3cAnswer s 1 []
  else if data.length = 0 ∨ addr % 256 + data.length > 256 then i3cAnswer s 3 []
  else if flashGuarded s addr then i3cAnswer s 2 []
  else i3cAnswer ((data.zip (List.range data.length)).foldl (fun s (v, j) => flashPut s (addr + j) v) s) 0 []

/-- I3C_FLASH_READ. -/
def execI3cFlashRead (addr len : Nat) (s : State) : Host.Outcome State Fault Refusal :=
  .next (if i3cThere s then i3cFlashRead s (addr % 2 ^ 32) len else s)

/-- I3C_FLASH_ERASE. -/
def execI3cFlashErase (addr : Nat) (s : State) : Host.Outcome State Fault Refusal :=
  .next (if i3cThere s then i3cFlashErase s (addr % 2 ^ 32) else s)

/-- I3C_FLASH_PROGRAM. -/
def execI3cFlashProgram (addr : Nat) (data : List Byte) (s : State) : Host.Outcome State Fault Refusal :=
  .next (if i3cThere s then i3cFlashProgram s (addr % 2 ^ 32) data else s)

/-- I3C_STATUS_READ: STATUS, then the data of the last request. -/
def execI3cStatusRead (s : State) : Host.Outcome State Fault Refusal :=
  .next (if i3cThere s then emit s (.i3cRead (BitVec.ofNat 8 s.i3c.status :: s.i3c.data)) else s)

/-- I3C_ENTDAA: a target without an address sends its Provisioned ID, BCR and DCR and takes the address. -/
def execI3cEntdaa (addr : Nat) (s : State) : Host.Outcome State Fault Refusal :=
  .next (if !s.sys.inReset && decide (s.i3c.dynAddr = 0 ∧ addr ≠ 0 ∧ addr < 128) then
    emit { s with i3c := { s.i3c with dynAddr := addr } } (.i3cRead ((leBytes 6 Config.i3cPid.toNat).reverse ++ [0x06, 0x00]))
  else s)

/-- I3C_BUS_RESET (R371): RSTDAA gives up the address too. -/
def execI3cBusReset (rstdaa : Bool) (s : State) : Host.Outcome State Fault Refusal :=
  .next (if s.sys.inReset then s
    else
      let s := orphanAll s fun m => decide (m = .i3c)
      if rstdaa then { s with i3c := { s.i3c with dynAddr := 0 } } else s)

/-! ## The test access port -/

/-- JTAG_REG_ACCESS. -/
def execJtagRegAccess (write : Bool) (addr size : Nat) (data : Word) (s : State) : Host.Outcome State Fault Refusal :=
  .next (if write then accessWrite s .jtag addr size data.toNat else accessRead s .jtag addr size)

/-- TAP_RESET (R371). -/
def execTapReset (s : State) : Host.Outcome State Fault Refusal :=
  .next (if s.sys.inReset then s else orphanAll s fun m => decide (m = .jtag))

/-- EXTEST: the lane's link goes down. -/
def execExtest (lane : TapLane) (s : State) : Host.Outcome State Fault Refusal :=
  .next (if s.sys.inReset then s
    else match lane with
      | .network d k => linkExtest s d k
      | .host p l => if linkExists s p l then hostLinkDown s p l 2 else s)

end Sys2Proof.Machine
end

