-- ==== Sys2Proof/Machine/Dispatch.lean ====
section
/-! DEFINITION. The dispatch of a command to its meaning: one arm per constructor of `Instr`. -/

namespace Sys2Proof.Machine

open Sys2Proof

/-- The effect of a command on everything but the queue. -/
def exec (i : Instr) (s : State) : Host.Outcome State Fault Refusal :=
  match i with
  | .put iss blk chain => Sys2Proof.Machine.execPut iss blk chain s
  | .putInline iss blk chain => Sys2Proof.Machine.execPutInline iss blk chain s
  | .get iss blk chain => Sys2Proof.Machine.execGet iss blk chain s
  | .gather iss blk chain => Sys2Proof.Machine.execGather iss blk chain s
  | .scatter iss blk chain => Sys2Proof.Machine.execScatter iss blk chain s
  | .zero iss blk chain => Sys2Proof.Machine.execZero iss blk chain s
  | .send iss blk chain => Sys2Proof.Machine.execSend iss blk chain s
  | .sendInline iss blk chain => Sys2Proof.Machine.execSendInline iss blk chain s
  | .recvPost iss blk chain => Sys2Proof.Machine.execRecvPost iss blk chain s
  | .recvCancel iss blk chain => Sys2Proof.Machine.execRecvCancel iss blk chain s
  | .ctxOpen iss blk chain => Sys2Proof.Machine.execCtxOpen iss blk chain s
  | .ctxDrain iss blk chain => Sys2Proof.Machine.execCtxDrain iss blk chain s
  | .ctxClose iss blk chain => Sys2Proof.Machine.execCtxClose iss blk chain s
  | .collBarrier iss blk chain => Sys2Proof.Machine.execCollBarrier iss blk chain s
  | .collBcast iss blk chain => Sys2Proof.Machine.execCollBcast iss blk chain s
  | .collReduce iss blk chain => Sys2Proof.Machine.execCollReduce iss blk chain s
  | .collAllreduce iss blk chain => Sys2Proof.Machine.execCollAllreduce iss blk chain s
  | .collAllgather iss blk chain => Sys2Proof.Machine.execCollAllgather iss blk chain s
  | .nop iss blk chain => Sys2Proof.Machine.execNop iss blk chain s
  | .atomic iss blk chain => Sys2Proof.Machine.execAtomic iss blk chain s
  | .tallyWrite iss blk chain => Sys2Proof.Machine.execTallyWrite iss blk chain s
  | .tallyRead iss blk chain => Sys2Proof.Machine.execTallyRead iss blk chain s
  | .ringReset iss blk chain => Sys2Proof.Machine.execRingReset iss blk chain s
  | .trigArm iss blk chain => Sys2Proof.Machine.execTrigArm iss blk chain s
  | .trigDisarm iss blk chain => Sys2Proof.Machine.execTrigDisarm iss blk chain s
  | .mgIdentitySet iss blk chain => Sys2Proof.Machine.execMgIdentitySet iss blk chain s
  | .portEnable iss blk chain => Sys2Proof.Machine.execPortEnable iss blk chain s
  | .portDisable iss blk chain => Sys2Proof.Machine.execPortDisable iss blk chain s
  | .portDrain iss blk chain => Sys2Proof.Machine.execPortDrain iss blk chain s
  | .portRetrain iss blk chain => Sys2Proof.Machine.execPortRetrain iss blk chain s
  | .portRelease iss blk chain => Sys2Proof.Machine.execPortRelease iss blk chain s
  | .portConfigure iss blk chain => Sys2Proof.Machine.execPortConfigure iss blk chain s
  | .epochWriteClear iss blk chain => Sys2Proof.Machine.execEpochWriteClear iss blk chain s
  | .epochWriteCopyActive iss blk chain => Sys2Proof.Machine.execEpochWriteCopyActive iss blk chain s
  | .epochWritePut iss blk chain => Sys2Proof.Machine.execEpochWritePut iss blk chain s
  | .epochWriteRemove iss blk chain => Sys2Proof.Machine.execEpochWriteRemove iss blk chain s
  | .epochActivate iss blk chain => Sys2Proof.Machine.execEpochActivate iss blk chain s
  | .epochWithdraw iss blk chain => Sys2Proof.Machine.execEpochWithdraw iss blk chain s
  | .mgGateStage iss blk chain => Sys2Proof.Machine.execMgGateStage iss blk chain s
  | .gateActivate iss blk chain => Sys2Proof.Machine.execGateActivate iss blk chain s
  | .gateWithdraw iss blk chain => Sys2Proof.Machine.execGateWithdraw iss blk chain s
  | .gateClear iss blk chain => Sys2Proof.Machine.execGateClear iss blk chain s
  | .instanceCreate iss blk chain => Sys2Proof.Machine.execInstanceCreate iss blk chain s
  | .instanceStart iss blk chain => Sys2Proof.Machine.execInstanceStart iss blk chain s
  | .instanceQuiesce iss blk chain => Sys2Proof.Machine.execInstanceQuiesce iss blk chain s
  | .instanceResume iss blk chain => Sys2Proof.Machine.execInstanceResume iss blk chain s
  | .instanceResize iss blk chain => Sys2Proof.Machine.execInstanceResize iss blk chain s
  | .instanceRemove iss blk chain => Sys2Proof.Machine.execInstanceRemove iss blk chain s
  | .grantConnection iss blk chain => Sys2Proof.Machine.execGrantConnection iss blk chain s
  | .revokeConnection iss blk chain => Sys2Proof.Machine.execRevokeConnection iss blk chain s
  | .grantMatching iss blk chain => Sys2Proof.Machine.execGrantMatching iss blk chain s
  | .grantCollective iss blk chain => Sys2Proof.Machine.execGrantCollective iss blk chain s
  | .revokeCollective iss blk chain => Sys2Proof.Machine.execRevokeCollective iss blk chain s
  | .grantCounter iss blk chain => Sys2Proof.Machine.execGrantCounter iss blk chain s
  | .revokeCounter iss blk chain => Sys2Proof.Machine.execRevokeCounter iss blk chain s
  | .grantTally iss blk chain => Sys2Proof.Machine.execGrantTally iss blk chain s
  | .revokeTally iss blk chain => Sys2Proof.Machine.execRevokeTally iss blk chain s
  | .grantVstation iss blk chain => Sys2Proof.Machine.execGrantVstation iss blk chain s
  | .revokeVstation iss blk chain => Sys2Proof.Machine.execRevokeVstation iss blk chain s
  | .grantWindow iss blk chain => Sys2Proof.Machine.execGrantWindow iss blk chain s
  | .modeSetDrain iss blk chain => Sys2Proof.Machine.execModeSetDrain iss blk chain s
  | .modeSetResume iss blk chain => Sys2Proof.Machine.execModeSetResume iss blk chain s
  | .modeSetStandby iss blk chain => Sys2Proof.Machine.execModeSetStandby iss blk chain s
  | .modeSetReset iss blk chain => Sys2Proof.Machine.execModeSetReset iss blk chain s
  | .modeSetForensic iss blk chain => Sys2Proof.Machine.execModeSetForensic iss blk chain s
  | .mgRegRead iss blk chain => Sys2Proof.Machine.execMgRegRead iss blk chain s
  | .mgRegWrite iss blk chain => Sys2Proof.Machine.execMgRegWrite iss blk chain s
  | .cruisePushNow iss blk chain => Sys2Proof.Machine.execCruisePushNow iss blk chain s
  | .cruiseSetPush iss blk chain => Sys2Proof.Machine.execCruiseSetPush iss blk chain s
  | .cruiseSetReceive iss blk chain => Sys2Proof.Machine.execCruiseSetReceive iss blk chain s
  | .mgShelfCollect iss blk chain => Sys2Proof.Machine.execMgShelfCollect iss blk chain s
  | .mgFaultRelease iss blk chain => Sys2Proof.Machine.execMgFaultRelease iss blk chain s
  | .mgSemBankReset iss blk chain => Sys2Proof.Machine.execMgSemBankReset iss blk chain s
  | .timeCtlSet iss blk chain => Sys2Proof.Machine.execTimeCtlSet iss blk chain s
  | .timeCtlStep iss blk chain => Sys2Proof.Machine.execTimeCtlStep iss blk chain s
  | .timeCtlReselect iss blk chain => Sys2Proof.Machine.execTimeCtlReselect iss blk chain s
  | .archiveDesignate iss blk chain => Sys2Proof.Machine.execArchiveDesignate iss blk chain s
  | .archiveClear iss blk chain => Sys2Proof.Machine.execArchiveClear iss blk chain s
  | .archiveCopy iss blk chain => Sys2Proof.Machine.execArchiveCopy iss blk chain s
  | .ringConfigureCmd iss blk chain => Sys2Proof.Machine.execRingConfigureCmd iss blk chain s
  | .ringConfigureCq iss blk chain => Sys2Proof.Machine.execRingConfigureCq iss blk chain s
  | .ringPause iss blk chain => Sys2Proof.Machine.execRingPause iss blk chain s
  | .ringResume iss blk chain => Sys2Proof.Machine.execRingResume iss blk chain s
  | .ringCtlReset iss blk chain => Sys2Proof.Machine.execRingCtlReset iss blk chain s
  | .ringReleaseCmd iss blk chain => Sys2Proof.Machine.execRingReleaseCmd iss blk chain s
  | .ringReleaseCq iss blk chain => Sys2Proof.Machine.execRingReleaseCq iss blk chain s
  | .doorbell who idx => Sys2Proof.Machine.execDoorbell who idx s
  | .ringEntryFetch d n r => Sys2Proof.Machine.execRingEntryFetch d n r s
  | .ringConsumeRetry d n r => Sys2Proof.Machine.execRingConsumeRetry d n r s
  | .ringResetDone d n => Sys2Proof.Machine.execRingResetDone d n s
  | .ringResetSlotTimeout d n => Sys2Proof.Machine.execRingResetSlotTimeout d n s
  | .shadowTimer d n => Sys2Proof.Machine.execShadowTimer d n s
  | .commandDispatch d => Sys2Proof.Machine.execCommandDispatch d s
  | .ringAgeExpiry d n => Sys2Proof.Machine.execRingAgeExpiry d n s
  | .cqHeadWrite who idx val => Sys2Proof.Machine.execCqHeadWrite who idx val s
  | .extBlockFetch op r => Sys2Proof.Machine.execExtBlockFetch op r s
  | .trigSlotTimeout op => Sys2Proof.Machine.execTrigSlotTimeout op s
  | .connCacheWaitTimeout op => Sys2Proof.Machine.execConnCacheWaitTimeout op s
  | .opsSlotWaitTimeout op => Sys2Proof.Machine.execOpsSlotWaitTimeout op s
  | .maxOpsWaitTimeout op => Sys2Proof.Machine.execMaxOpsWaitTimeout op s
  | .ctxOpenWaitTimeout op => Sys2Proof.Machine.execCtxOpenWaitTimeout op s
  | .recvPostWaitTimeout op => Sys2Proof.Machine.execRecvPostWaitTimeout op s
  | .strideBoundary op => Sys2Proof.Machine.execStrideBoundary op s
  | .longCommandResume op => Sys2Proof.Machine.execLongCommandResume op s
  | .dataPacketArrive d p hr => Sys2Proof.Machine.execDataPacketArrive d p hr s
  | .ackTimer d c => Sys2Proof.Machine.execAckTimer d c s
  | .ackReceive d p => Sys2Proof.Machine.execAckReceive d p s
  | .flushTimer d c => Sys2Proof.Machine.execFlushTimer d c s
  | .flushComplete d c fail => Sys2Proof.Machine.execFlushComplete d c fail s
  | .rtoExpiry d c => Sys2Proof.Machine.execRtoExpiry d c s
  | .getResponseArrive d p => Sys2Proof.Machine.execGetResponseArrive d p s
  | .pacedSend d c => Sys2Proof.Machine.execPacedSend d c s
  | .connectReceive d p => Sys2Proof.Machine.execConnectReceive d p s
  | .connectResend d c => Sys2Proof.Machine.execConnectResend d c s
  | .teardownReceive d p => Sys2Proof.Machine.execTeardownReceive d p s
  | .connDrainDone d c => Sys2Proof.Machine.execConnDrainDone d c s
  | .progressTimeout d c => Sys2Proof.Machine.execProgressTimeout d c s
  | .rnrResend d c => Sys2Proof.Machine.execRnrResend d c s
  | .rnrLimitExpiry d c => Sys2Proof.Machine.execRnrLimitExpiry d c s
  | .pullRequest d p hr => Sys2Proof.Machine.execPullRequest d p hr s
  | .finishPacket d p => Sys2Proof.Machine.execFinishPacket d p s
  | .ctxDrainDone op => Sys2Proof.Machine.execCtxDrainDone op s
  | .bndContribution d p => Sys2Proof.Machine.execBndContribution d p s
  | .bndResult d p => Sys2Proof.Machine.execBndResult d p s
  | .bndAck d p => Sys2Proof.Machine.execBndAck d p s
  | .bndResend d cctx seq seg => Sys2Proof.Machine.execBndResend d cctx seq seg s
  | .bndRelayPacket d p => Sys2Proof.Machine.execBndRelayPacket d p s
  | .bndAbortReceive d p => Sys2Proof.Machine.execBndAbortReceive d p s
  | .bndBackupTimeout d cctx => Sys2Proof.Machine.execBndBackupTimeout d cctx s
  | .tokenRequest d u => Sys2Proof.Machine.execTokenRequest d u s
  | .tokenGrant d => Sys2Proof.Machine.execTokenGrant d s
  | .tokenRelease d u => Sys2Proof.Machine.execTokenRelease d u s
  | .packetRouteSource d p => Sys2Proof.Machine.execPacketRouteSource d p s
  | .packetForward d from_ p => Sys2Proof.Machine.execPacketForward d from_ p s
  | .boomArrival d p => Sys2Proof.Machine.execBoomArrival d p s
  | .boomHoldTimeout d src tc => Sys2Proof.Machine.execBoomHoldTimeout d src tc s
  | .boomEntryIdle d src tc => Sys2Proof.Machine.execBoomEntryIdle d src tc s
  | .boomNoticeReceive d p => Sys2Proof.Machine.execBoomNoticeReceive d p s
  | .cooldownExpiry d f => Sys2Proof.Machine.execCooldownExpiry d f s
  | .flowStateRetire d f => Sys2Proof.Machine.execFlowStateRetire d f s
  | .egressServe d eg => Sys2Proof.Machine.execEgressServe d eg s
  | .injectionServe d port => Sys2Proof.Machine.execInjectionServe d port s
  | .agePromotion d q => Sys2Proof.Machine.execAgePromotion d q s
  | .semBoostApply d n => Sys2Proof.Machine.execSemBoostApply d n s
  | .gateEntryBoundary d port => Sys2Proof.Machine.execGateEntryBoundary d port s
  | .gateActivation d port => Sys2Proof.Machine.execGateActivation d port s
  | .flumeRequest d from_ p => Sys2Proof.Machine.execFlumeRequest d from_ p s
  | .flumePartialDiscard d src reqDie reqSeq => Sys2Proof.Machine.execFlumePartialDiscard d src reqDie reqSeq s
  | .flumeResend op => Sys2Proof.Machine.execFlumeResend op s
  | .flumeAnswerTimeout op => Sys2Proof.Machine.execFlumeAnswerTimeout op s
  | .flumeAnswer d p => Sys2Proof.Machine.execFlumeAnswer d p s
  | .flumeRelay d from_ p => Sys2Proof.Machine.execFlumeRelay d from_ p s
  | .flumeEventReceive d p => Sys2Proof.Machine.execFlumeEventReceive d p s
  | .cruiseSample d => Sys2Proof.Machine.execCruiseSample d s
  | .summarySend d => Sys2Proof.Machine.execSummarySend d s
  | .summaryReceive d from_ m => Sys2Proof.Machine.execSummaryReceive d from_ m s
  | .summaryForward d => Sys2Proof.Machine.execSummaryForward d s
  | .summaryStale d r => Sys2Proof.Machine.execSummaryStale d r s
  | .mapPush d => Sys2Proof.Machine.execMapPush d s
  | .mapPartReceive d p => Sys2Proof.Machine.execMapPartReceive d p s
  | .mapCloseTimeout d slot => Sys2Proof.Machine.execMapCloseTimeout d slot s
  | .counterWrapSample d idx part addr => Sys2Proof.Machine.execCounterWrapSample d idx part addr s
  | .pmcSnap d => Sys2Proof.Machine.execPmcSnap d s
  | .frameReceive d k f => Sys2Proof.Machine.execFrameReceive d k f s
  | .linkRetxTimeout d k => Sys2Proof.Machine.execLinkRetxTimeout d k s
  | .identReceive d k m => Sys2Proof.Machine.execIdentReceive d k m s
  | .identSend d k => Sys2Proof.Machine.execIdentSend d k s
  | .shelfSend d k => Sys2Proof.Machine.execShelfSend d k s
  | .shelfReceive d k m => Sys2Proof.Machine.execShelfReceive d k m s
  | .timeSend d k => Sys2Proof.Machine.execTimeSend d k s
  | .timeReceive d k m => Sys2Proof.Machine.execTimeReceive d k m s
  | .onoffReceive d k mask => Sys2Proof.Machine.execOnoffReceive d k mask s
  | .onoffSend d k waits => Sys2Proof.Machine.execOnoffSend d k waits s
  | .laneSignalLoss d k lane lock => Sys2Proof.Machine.execLaneSignalLoss d k lane lock s
  | .laneSignalDetect d k => Sys2Proof.Machine.execLaneSignalDetect d k s
  | .linkRxReady d k r => Sys2Proof.Machine.execLinkRxReady d k r s
  | .linkAlignDone d k starts => Sys2Proof.Machine.execLinkAlignDone d k starts s
  | .trainTimeout d k => Sys2Proof.Machine.execTrainTimeout d k s
  | .noSignalTimeout d k => Sys2Proof.Machine.execNoSignalTimeout d k s
  | .noSignalRetry d k => Sys2Proof.Machine.execNoSignalRetry d k s
  | .linkQuietEnd d k => Sys2Proof.Machine.execLinkQuietEnd d k s
  | .linkDrainEnd d k => Sys2Proof.Machine.execLinkDrainEnd d k s
  | .bridgeParityError d b ew lane => Sys2Proof.Machine.execBridgeParityError d b ew lane s
  | .bridgeClockLoss d b => Sys2Proof.Machine.execBridgeClockLoss d b s
  | .bridgeTrainDone b we ew => Sys2Proof.Machine.execBridgeTrainDone b we ew s
  | .bridgeQuietEnd b => Sys2Proof.Machine.execBridgeQuietEnd b s
  | .flr f => Sys2Proof.Machine.execFlr f s
  | .hostLinkReset port link => Sys2Proof.Machine.execHostLinkReset port link s
  | .perstNAssert port => Sys2Proof.Machine.execPerstNAssert port s
  | .perstNDeassert port => Sys2Proof.Machine.execPerstNDeassert port s
  | .d3hotEntry f => Sys2Proof.Machine.execD3hotEntry f s
  | .instanceResetDone idx => Sys2Proof.Machine.execInstanceResetDone idx s
  | .instanceQuiesceDone idx => Sys2Proof.Machine.execInstanceQuiesceDone idx s
  | .hostReadComplete op parts => Sys2Proof.Machine.execHostReadComplete op parts s
  | .tableWalkComplete d walk r => Sys2Proof.Machine.execTableWalkComplete d walk r s
  | .atsTranslationComplete d walk ans => Sys2Proof.Machine.execAtsTranslationComplete d walk ans s
  | .atsInvalidation f addr len => Sys2Proof.Machine.execAtsInvalidation f addr len s
  | .hostConfigRequest port r => Sys2Proof.Machine.execHostConfigRequest port r s
  | .mbxGo val => Sys2Proof.Machine.execMbxGo val s
  | .mbxCommandDone => Sys2Proof.Machine.execMbxCommandDone s
  | .lockstepMismatch d pair => Sys2Proof.Machine.execLockstepMismatch d pair s
  | .pairReexecute d pair => Sys2Proof.Machine.execPairReexecute d pair s
  | .pairRetest d pair pass => Sys2Proof.Machine.execPairRetest d pair pass s
  | .cacheRead d pair home line => Sys2Proof.Machine.execCacheRead d pair home line s
  | .cacheWrite d pair home line => Sys2Proof.Machine.execCacheWrite d pair home line s
  | .cacheEvict d pair home line => Sys2Proof.Machine.execCacheEvict d pair home line s
  | .directoryEvict home line => Sys2Proof.Machine.execDirectoryEvict home line s
  | .scrubUnit d u e => Sys2Proof.Machine.execScrubUnit d u e s
  | .scrubFull d => Sys2Proof.Machine.execScrubFull d s
  | .semAcquire m d n => Sys2Proof.Machine.execSemAcquire m d n s
  | .semRelease m d n => Sys2Proof.Machine.execSemRelease m d n s
  | .semArm m d n level source => Sys2Proof.Machine.execSemArm m d n level source s
  | .semDisarm m d n => Sys2Proof.Machine.execSemDisarm m d n s
  | .intSourceRaise d src => Sys2Proof.Machine.execIntSourceRaise d src s
  | .intRaiseWrite d src => Sys2Proof.Machine.execIntRaiseWrite d src s
  | .intDelivery d src => Sys2Proof.Machine.execIntDelivery d src s
  | .msixMessageWritten d src => Sys2Proof.Machine.execMsixMessageWritten d src s
  | .intClaim d c => Sys2Proof.Machine.execIntClaim d c s
  | .intComplete d c val => Sys2Proof.Machine.execIntComplete d c val s
  | .holdoffExpiry d g => Sys2Proof.Machine.execHoldoffExpiry d g s
  | .epochActivation d dom => Sys2Proof.Machine.execEpochActivation d dom s
  | .timeSourceTimeout => Sys2Proof.Machine.execTimeSourceTimeout s
  | .ppsInEdge => Sys2Proof.Machine.execPpsInEdge s
  | .holdoverExpiry => Sys2Proof.Machine.execHoldoverExpiry s
  | .timeStepApply => Sys2Proof.Machine.execTimeStepApply s
  | .sysResetAssert lowNs => Sys2Proof.Machine.execSysResetAssert lowNs s
  | .resetRelease straps => Sys2Proof.Machine.execResetRelease straps s
  | .pwrgoodAssert => Sys2Proof.Machine.execPwrgoodAssert s
  | .pwrgoodDeassert lowNs => Sys2Proof.Machine.execPwrgoodDeassert lowNs s
  | .internalDeviceReset => Sys2Proof.Machine.execInternalDeviceReset s
  | .imageAuthenticated slot westOk eastOk sha => Sys2Proof.Machine.execImageAuthenticated slot westOk eastOk sha s
  | .bringupComplete => Sys2Proof.Machine.execBringupComplete s
  | .archiveComplete => Sys2Proof.Machine.execArchiveComplete s
  | .archiveHostCopyDone => Sys2Proof.Machine.execArchiveHostCopyDone s
  | .standbyEntry => Sys2Proof.Machine.execStandbyEntry s
  | .standbyWake src => Sys2Proof.Machine.execStandbyWake src s
  | .wakeTimerExpiry => Sys2Proof.Machine.execWakeTimerExpiry s
  | .mgtWakeWrite => Sys2Proof.Machine.execMgtWakeWrite s
  | .lookoutReport d blk unit cls code => Sys2Proof.Machine.execLookoutReport d blk unit cls code s
  | .lookoutWireBroken d blk cls => Sys2Proof.Machine.execLookoutWireBroken d blk cls s
  | .lookoutPoll d p => Sys2Proof.Machine.execLookoutPoll d p s
  | .faultQuietEnd d blk unit pass => Sys2Proof.Machine.execFaultQuietEnd d blk unit pass s
  | .heartbeatMissed d => Sys2Proof.Machine.execHeartbeatMissed d s
  | .thermalSample d sensor val => Sys2Proof.Machine.execThermalSample d sensor val s
  | .voltageSample d mon mv band => Sys2Proof.Machine.execVoltageSample d mon mv band s
  | .throttleStep d => Sys2Proof.Machine.execThrottleStep d s
  | .avsRequestChange westMv eastMv => Sys2Proof.Machine.execAvsRequestChange westMv eastMv s
  | .i3cRegRead addr size => Sys2Proof.Machine.execI3cRegRead addr size s
  | .i3cRegWrite addr size data => Sys2Proof.Machine.execI3cRegWrite addr size data s
  | .i3cFlashRead addr len => Sys2Proof.Machine.execI3cFlashRead addr len s
  | .i3cFlashErase addr => Sys2Proof.Machine.execI3cFlashErase addr s
  | .i3cFlashProgram addr data => Sys2Proof.Machine.execI3cFlashProgram addr data s
  | .i3cStatusRead => Sys2Proof.Machine.execI3cStatusRead s
  | .i3cEntdaa addr => Sys2Proof.Machine.execI3cEntdaa addr s
  | .i3cBusReset rstdaa => Sys2Proof.Machine.execI3cBusReset rstdaa s
  | .jtagRegAccess write addr size data => Sys2Proof.Machine.execJtagRegAccess write addr size data s
  | .tapReset => Sys2Proof.Machine.execTapReset s
  | .eventHeadWrite idx val => Sys2Proof.Machine.execEventHeadWrite idx val s
  | .mgtEvtHeadWrite d val => Sys2Proof.Machine.execMgtEvtHeadWrite d val s
  | .mgtEvtEnable d => Sys2Proof.Machine.execMgtEvtEnable d s
  | .catSpecFlush d => Sys2Proof.Machine.execCatSpecFlush d s
  | .aclRegionWrite n val => Sys2Proof.Machine.execAclRegionWrite n val s
  | .globalImageWrite m off size data => Sys2Proof.Machine.execGlobalImageWrite m off size data s
  | .lowHalfReadLatch m off => Sys2Proof.Machine.execLowHalfReadLatch m off s
  | .lowHalfWriteHold m off data => Sys2Proof.Machine.execLowHalfWriteHold m off data s
  | .viewSnapshotRead m off => Sys2Proof.Machine.execViewSnapshotRead m off s
  | .crzQViewRead m d => Sys2Proof.Machine.execCrzQViewRead m d s
  | .registerWrite m off size data => Sys2Proof.Machine.execRegisterWrite m off size data s
  | .hostLinkTrained port link => Sys2Proof.Machine.execHostLinkTrained port link s
  | .msixEnableCleared f => Sys2Proof.Machine.execMsixEnableCleared f s
  | .extest lane => Sys2Proof.Machine.execExtest lane s

end Sys2Proof.Machine
end

