-- ==== Sys2Proof/Safety.lean ====
section
/-! DEFINITION. The terms in which the claims are stated: a safe run, and when a command that an issuer offers is taken and
passes its checks. -/

namespace Sys2Proof.Machine

open Sys2Proof

/-- The outcome is a next state. -/
def isNext (o : Host.Outcome State Fault Refusal) : Prop := ∃ t, o = .next t

/-- The step from `s` stops with neither a fault nor a refusal. -/
def safeStep (s : State) : Prop := isNext (step s)

/-- No activation of an epoch or a gate is due: what check 4 judges stands as it is (R246, R389). -/
def settled (s : State) : Bool := !(actsDue s .west) && !(actsDue s .east)

/-- The state in which the mailbox has accepted `b`, before it runs, and the number of its operation. -/
def mbxOffer (s : State) (b : Block) : State × Nat :=
  mbxTake { s with mbx := { s.mbx with block := b } } ((s.mbx.lastSeq + 1) % 2 ^ 32) b

/-- The mailbox takes the MGMT command `b` for this device (R349, R350), its header and TARGET in form (R31, R36, R45), and it
waits for nothing (R54). -/
def mbxReady (s : State) (b : Block) : Bool :=
  hostReach s (mgmtFn s) && !s.mbx.busy && !(forensic s) && headForm b [] true && !(chainBit b) && targetOk b && !(viaFlume b) && settled s
    && decide (resourceWait (mbxOffer s b).1 (mbxOffer s b).2 = none)

/-- The ring takes the entry `b` (R83, R84, R92) and its command is the next that the engines take (R106), not cancelled by
its fence (R58): the state in which it has been dispatched, before its checks, and the number of its operation. -/
def ringOffer (s : State) (d : Die) (n : Nat) (b : Block) (chain : List Block) : Option (State × Nat) :=
  let t := entryComes s d n b
  match (cmdRing t d n).queue with
  | [e] =>
    if !s.sys.inReset && (cmdRing s d n).configured && (cmdRing s d n).queue.isEmpty && dispatchNow t d n
        && decide (e.blk = entryBlk (cmdRing s d n) b) && !(decide (fenceOf e.blk = 2) && (cmdRing t d n).bad) then
      some (takeEntry t d n e [] chain)
    else none
  | _ => none

/-- The operation passes checks 1 to 5 of R54: its chain is whole, form and access stand, no activation is due, the state
permits it and nothing is to be waited for. -/
def passes (s : State) (o : Nat) : Bool :=
  let x := opOf s o
  decide (opNeeds x = .complete ∧ staticCheck s x.inst x.die x.blk x.chain false = none ∧ resourceWait (passed4 s o) o = none) && check4 s x
    && settled s

/-- The sparse tables that State itself holds are in canonical form: the flash, the register file, the latched views, the
instances, the functions and the operations. -/
def tablesTidy (s : State) : Prop :=
  twf 0xFF s.flash = true ∧ twf 0 s.regs = true ∧ twf 0 s.views = true ∧ twf {} s.insts = true ∧ twf {} s.fns = true ∧ twf {} s.ops = true

end Sys2Proof.Machine
end

