-- ==== Sys2Proof/Certificates/Slice0/Obligations.lean ====
section
/-! DEFINITION. The statements for the provers: what the rules of the spec say each command does, the rules that hold of every
step, and the arithmetic of the collectives. Each next state is written with the model's shared operations. -/

open Sys2Proof Sys2Proof.Machine

/-- Through the mailbox, with every port DOWN or in QUARANTINE and no instance RUNNING or QUIESCING, MG_IDENTITY_SET in form loads
GROUP and PLACE and sets VALID, or with CLEAR withdraws both, one identity for the two dies, raises the IDENTITY epoch of each
die, and completes with CC_OK. Through the mailbox, each action of MG_PORT_CTL on a link in a state that has a row for it
changes that link (ADMIN_EN, HOLD, recoveries, and the move to TRAINING, DOWN, DRAINING) and completes with CC_OK; CONFIGURE of
a port whose links are DOWN sets rate, split, forerunner and credit on both; on a bridge ENABLE, DISABLE and RELEASE do what the
bridge action does. Completes here: mgIdentitySet, portEnable, portDisable, portDrain, portRetrain, portRelease, portConfigure.
Cites R16, R17, R298, R299, R305, R382. -/
def Obligations.IdentityAndPortsAct : Prop :=
    (∀ (s : State) (b : Block) (c : List Block),
      let B := rowBlk b 0xE0 []
      let p := mbxOffer s B
      mbxReady s B = true →
      zeros B [(21, 2, 6), (22, 5, 3), (23, 1, 7)] = true →
      zeroFrom B 24 = true →
      identityFree s = true →
      fld B 23 0 1 = 0 →
      exec (.mgIdentitySet .mailbox b c) s = .next (completeOp (identLoad p.1 { p.1.ident with valid := true, group := fld B 20 0 10, place := fld B 22 0 5 }) p.2 { code := 0, result := 0 })) ∧
    (∀ (s : State) (b : Block) (c : List Block),
      let B := rowBlk b 0xE0 []
      let p := mbxOffer s B
      mbxReady s B = true →
      zeros B [(21, 2, 6), (22, 5, 3), (23, 1, 7)] = true →
      zeroFrom B 24 = true →
      identityFree s = true →
      fld B 23 0 1 = 1 →
      fld B 20 0 24 = 0 →
      exec (.mgIdentitySet .mailbox b c) s = .next (completeOp (identLoad p.1 { p.1.ident with valid := false, group := 0, place := 0 }) p.2 { code := 0, result := 0 })) ∧
    (∀ (s : State) (b : Block) (c : List Block),
      let B := rowBlk b 0xE1 [(21, 0, 3, 0)]
      let p := mbxOffer s B
      let d := tgtDie B
      let k := portK (fld B 20 0 7)
      mbxReady s B = true →
      portCtlForm s B = true →
      portBridge (fld B 20 0 7) = none →
      (link s d k).st = .down →
      (link s d k).adminEn = false →
      exec (.portEnable .mailbox b c) s = .next (completeOp (linkTrain (modLink p.1 d k fun l => { l with adminEn := true }) d k) p.2 { code := 0, result := 0 })) ∧
    (∀ (s : State) (b : Block) (c : List Block),
      let B := rowBlk b 0xE1 [(21, 0, 3, 1)]
      let p := mbxOffer s B
      let d := tgtDie B
      let k := portK (fld B 20 0 7)
      mbxReady s B = true →
      portCtlForm s B = true →
      portBridge (fld B 20 0 7) = none →
      ((link s d k).st ≠ .down ∨ (link s d k).adminEn = true) →
      exec (.portDisable .mailbox b c) s = .next (completeOp (linkGo (modLink p.1 d k fun l => { l with adminEn := false, hold := false }) d k .down 1) p.2 { code := 0, result := 0 })) ∧
    (∀ (s : State) (b : Block) (c : List Block),
      let B := rowBlk b 0xE1 [(21, 0, 3, 2)]
      let p := mbxOffer s B
      let d := tgtDie B
      let k := portK (fld B 20 0 7)
      mbxReady s B = true →
      portCtlForm s B = true →
      portBridge (fld B 20 0 7) = none →
      (link s d k).st = .up →
      exec (.portDrain .mailbox b c) s = .next (completeOp (linkGo p.1 d k .draining 0) p.2 { code := 0, result := 0 })) ∧
    (∀ (s : State) (b : Block) (c : List Block),
      let B := rowBlk b 0xE1 [(21, 0, 3, 3)]
      let p := mbxOffer s B
      let d := tgtDie B
      let k := portK (fld B 20 0 7)
      mbxReady s B = true →
      portCtlForm s B = true →
      portBridge (fld B 20 0 7) = none →
      ((link s d k).st = .up ∨ (link s d k).st = .quarantine) →
      exec (.portRetrain .mailbox b c) s = .next (completeOp (linkGo (modLink p.1 d k fun l => { l with hold := false }) d k .training 0) p.2 { code := 0, result := 0 })) ∧
    (∀ (s : State) (b : Block) (c : List Block),
      let B := rowBlk b 0xE1 [(21, 0, 3, 4)]
      let p := mbxOffer s B
      let d := tgtDie B
      let k := portK (fld B 20 0 7)
      mbxReady s B = true →
      portCtlForm s B = true →
      portBridge (fld B 20 0 7) = none →
      (link s d k).st = .failed →
      exec (.portRelease .mailbox b c) s = .next (completeOp (if (link s d k).adminEn then linkTrain (linkGo (modLink p.1 d k fun l => { l with recoveries := [] }) d k .down 0) d k else linkGo (modLink p.1 d k fun l => { l with recoveries := [] }) d k .down 0) p.2 { code := 0, result := 0 })) ∧
    (∀ (s : State) (b : Block) (c : List Block),
      let B := rowBlk b 0xE1 [(21, 0, 3, 5)]
      let p := mbxOffer s B
      let d := tgtDie B
      let f : Link → Link := fun l => { l with rate := fld B 22 0 2, split := fld B 22 2 1 == 1, forerunner := fld B 22 3 1 == 1, credit := fld B 24 0 10 }
      mbxReady s B = true →
      portCtlForm s B = true →
      portBridge (fld B 20 0 7) = none →
      (link s d (2 * (fld B 20 0 7 % 32))).st = .down →
      (link s d (2 * (fld B 20 0 7 % 32) + 1)).st = .down →
      exec (.portConfigure .mailbox b c) s = .next (completeOp (modLink (modLink p.1 d (2 * (fld B 20 0 7 % 32)) f) d (2 * (fld B 20 0 7 % 32) + 1) f) p.2 { code := 0, result := 0 })) ∧
    (∀ (s : State) (b : Block) (c : List Block) (g : Bridge) (t : State),
      let B := rowBlk b 0xE1 [(21, 0, 3, 0)]
      let p := mbxOffer s B
      mbxReady s B = true →
      portCtlForm s B = true →
      portBridge (fld B 20 0 7) = some g →
      bridgeEnable p.1 g = some t →
      exec (.portEnable .mailbox b c) s = .next (completeOp (t) p.2 { code := 0, result := 0 })) ∧
    (∀ (s : State) (b : Block) (c : List Block) (g : Bridge) (t : State),
      let B := rowBlk b 0xE1 [(21, 0, 3, 1)]
      let p := mbxOffer s B
      mbxReady s B = true →
      portCtlForm s B = true →
      portBridge (fld B 20 0 7) = some g →
      bridgeDisable p.1 g = some t →
      exec (.portDisable .mailbox b c) s = .next (completeOp (t) p.2 { code := 0, result := 0 })) ∧
    (∀ (s : State) (b : Block) (c : List Block) (g : Bridge) (t : State),
      let B := rowBlk b 0xE1 [(21, 0, 3, 4)]
      let p := mbxOffer s B
      mbxReady s B = true →
      portCtlForm s B = true →
      portBridge (fld B 20 0 7) = some g →
      bridgeRelease p.1 g = some t →
      exec (.portRelease .mailbox b c) s = .next (completeOp (t) p.2 { code := 0, result := 0 }))

/-- Through the mailbox: MG_EPOCH_ACTIVATE that no row of R387 refuses and whose staged bank passes R388 leaves the activation
pending with its ACT_TIME, EPOCH and MACHINE_TAG; WITHDRAW removes a pending one. MG_GATE_STAGE in form stages the list.
MG_GATE_ACTIVATE with ACT_TIME in its range makes the staged list, or the all-open state, pending; WITHDRAW removes the pending
one. Each completes with CC_OK. Through the mailbox, with no activation pending on the domain and the stream in form, CLEAR
empties the inactive bank, COPY_ACTIVE copies the active content into it, PUT adds or replaces the records of the stream in
ascending order, REMOVE deletes the records that the stream names; each sets STAGED_VALID and completes with CC_OK. Completes
here: epochActivate, epochWithdraw, mgGateStage, gateActivate, gateWithdraw, gateClear, epochWriteClear, epochWriteCopyActive,
epochWritePut, epochWriteRemove. Cites R244, R245, R383, R384, R385, R386, R387, R388. -/
def Obligations.EpochsAndStagedSetsAct : Prop :=
    (∀ (s : State) (b : Block) (c : List Block),
      let B := rowBlk b 0xE3 [(20, 4, 1, 0)]
      let p := mbxOffer s B
      let d := tgtDie B
      let n := fld B 20 0 3
      mbxReady s B = true →
      zeros B [(20, 5, 3), (21, 0, 24), (36, 0, 32), (56, 0, 64)] = true →
      bothDies B = false →
      n ∉ [3, 6, 7] →
      activateRefusal s d n B = none →
      bankWhole s d n (dom s d n).staged = true →
      exec (.epochActivate .mailbox b c) s = .next (completeOp (modDom p.1 d n fun x => { x with pend := some { actTime := fld B 24 0 64, epoch := fld B 32 0 32, tag := fld B 48 0 64, requireLock := fld B 20 3 1 == 1 } }) p.2 { code := 0, result := 0 })) ∧
    (∀ (s : State) (b : Block) (c : List Block),
      let B := rowBlk b 0xE3 [(20, 4, 1, 1)]
      let p := mbxOffer s B
      let d := tgtDie B
      let n := fld B 20 0 3
      mbxReady s B = true →
      zeros B [(20, 5, 3), (21, 0, 24), (36, 0, 32), (56, 0, 64)] = true →
      bothDies B = false →
      n ∉ [3, 6, 7] →
      fld B 24 0 256 = 0 →
      (dom s d n).pend.isSome = true →
      exec (.epochWithdraw .mailbox b c) s = .next (completeOp (modDom p.1 d n fun x => { x with pend := none }) p.2 { code := 0, result := 0 })) ∧
    (∀ (s : State) (b : Block) (c : List Block) (l : List GateEntry),
      let B := rowBlk b 0xE4 []
      let p := mbxOffer s B
      let d := tgtDie B
      let k := portK (fld B 20 0 7)
      mbxReady s B = true →
      gateStageForm B [] = true →
      ((gateWords B []).take (fld B 22 0 9)).mapM decGateEntry = some l →
      gateListOk l = true →
      (gateOf s d k).pending = false →
      exec (.mgGateStage .mailbox b c) s = .next (completeOp (modGate p.1 d k fun g => { g with staged := l, stagedGuard := fld B 21 0 1 == 1, stagedValid := true }) p.2 { code := 0, result := 0 })) ∧
    (∀ (s : State) (b : Block) (c : List Block),
      let B := rowBlk b 0xE5 [(21, 0, 2, 0)]
      let p := mbxOffer s B
      let d := tgtDie B
      let k := portK (fld B 20 0 7)
      mbxReady s B = true →
      zeros B [(20, 7, 1), (21, 2, 6), (22, 0, 16)] = true →
      zeroFrom B 32 = true →
      bothDies B = false →
      portOn d (fld B 20 0 7) = true →
      (gateOf s d k).pending = false →
      (gateOf s d k).stagedValid = true →
      actTimeSub s (fld B 24 0 64) = none →
      exec (.gateActivate .mailbox b c) s = .next (completeOp (modGate p.1 d k fun g => { g with pending := true, pendClear := false, pendTime := fld B 24 0 64 }) p.2 { code := 0, result := 0 })) ∧
    (∀ (s : State) (b : Block) (c : List Block),
      let B := rowBlk b 0xE5 [(21, 0, 2, 1)]
      let p := mbxOffer s B
      let d := tgtDie B
      let k := portK (fld B 20 0 7)
      mbxReady s B = true →
      zeros B [(20, 7, 1), (21, 2, 6), (22, 0, 16)] = true →
      zeroFrom B 32 = true →
      bothDies B = false →
      portOn d (fld B 20 0 7) = true →
      fld B 24 0 64 = 0 →
      (gateOf s d k).pending = true →
      exec (.gateWithdraw .mailbox b c) s = .next (completeOp (modGate p.1 d k fun g => { g with pending := false, pendClear := false }) p.2 { code := 0, result := 0 })) ∧
    (∀ (s : State) (b : Block) (c : List Block),
      let B := rowBlk b 0xE5 [(21, 0, 2, 2)]
      let p := mbxOffer s B
      let d := tgtDie B
      let k := portK (fld B 20 0 7)
      mbxReady s B = true →
      zeros B [(20, 7, 1), (21, 2, 6), (22, 0, 16)] = true →
      zeroFrom B 32 = true →
      bothDies B = false →
      portOn d (fld B 20 0 7) = true →
      (gateOf s d k).pending = false →
      actTimeSub s (fld B 24 0 64) = none →
      exec (.gateClear .mailbox b c) s = .next (completeOp (modGate p.1 d k fun g => { g with pending := true, pendClear := true, pendTime := fld B 24 0 64 }) p.2 { code := 0, result := 0 })) ∧
    (∀ (s : State) (b : Block) (c : List Block),
      let B := rowBlk b 0xE2 [(21, 0, 2, 0)]
      let p := mbxOffer s B
      let d := tgtDie B
      let n := fld B 20 0 3
      mbxReady s B = true →
      zeros B [(20, 3, 5), (21, 2, 6), (22, 12, 4), (56, 0, 64)] = true →
      bothDies B = false →
      n ∉ [3, 6, 7] →
      (dom s d n).pend = none →
      fld B 22 0 12 = 0 →
      exec (.epochWriteClear .mailbox b c) s = .next (completeOp (modDom p.1 d n fun x => { x with staged := [], stagedValid := true }) p.2 { code := 0, result := 0 })) ∧
    (∀ (s : State) (b : Block) (c : List Block),
      let B := rowBlk b 0xE2 [(21, 0, 2, 1)]
      let p := mbxOffer s B
      let d := tgtDie B
      let n := fld B 20 0 3
      mbxReady s B = true →
      zeros B [(20, 3, 5), (21, 2, 6), (22, 12, 4), (56, 0, 64)] = true →
      bothDies B = false →
      n ∉ [3, 6, 7] →
      (dom s d n).pend = none →
      fld B 22 0 12 = 0 →
      (n = 0 → routingJoint s d (domContent s d n) = true) →
      exec (.epochWriteCopyActive .mailbox b c) s = .next (completeOp (modDom p.1 d n fun x => { x with staged := domContent s d n, stagedValid := true }) p.2 { code := 0, result := 0 })) ∧
    (∀ (s : State) (b : Block) (c : List Block) (rs : List CfgRec),
      let B := rowBlk b 0xE2 [(21, 0, 2, 2)]
      let p := mbxOffer s B
      let d := tgtDie B
      let n := fld B 20 0 3
      mbxReady s B = true →
      zeros B [(20, 3, 5), (21, 2, 6), (22, 12, 4), (56, 0, 64)] = true →
      bothDies B = false →
      n ∉ [3, 6, 7] →
      (dom s d n).pend = none →
      fld B 22 0 12 ≤ 32 →
      (dom s d n).stagedValid = true →
      parseStream s d n false 1024 ((streamBytes B []).take (fld B 22 0 12)) = some rs →
      (n = 0 → routingJoint s d (rs.foldl putRec (dom s d n).staged) = true) →
      exec (.epochWritePut .mailbox b c) s = .next (completeOp (modDom p.1 d n fun x => { x with staged := rs.foldl putRec (dom s d n).staged, stagedValid := true }) p.2 { code := 0, result := 0 })) ∧
    (∀ (s : State) (b : Block) (c : List Block) (rs : List CfgRec),
      let B := rowBlk b 0xE2 [(21, 0, 2, 3)]
      let p := mbxOffer s B
      let d := tgtDie B
      let n := fld B 20 0 3
      mbxReady s B = true →
      zeros B [(20, 3, 5), (21, 2, 6), (22, 12, 4), (56, 0, 64)] = true →
      bothDies B = false →
      n ∉ [3, 6, 7] →
      (dom s d n).pend = none →
      fld B 22 0 12 ≤ 32 →
      (dom s d n).stagedValid = true →
      parseStream s d n true 1024 ((streamBytes B []).take (fld B 22 0 12)) = some rs →
      (n = 0 → routingJoint s d ((dom s d n).staged.filter fun r => !(rs.any fun y => decide (y.ty = r.ty ∧ y.index = r.index))) = true) →
      exec (.epochWriteRemove .mailbox b c) s = .next (completeOp (modDom p.1 d n fun x => { x with staged := (dom s d n).staged.filter fun r => !(rs.any fun y => decide (y.ty = r.ty ∧ y.index = r.index)), stagedValid := true }) p.2 { code := 0, result := 0 }))

/-- Through the mailbox, body in form: CREATE binds a free existing function, loads the limits and leaves the instance CONFIGURING;
START moves CONFIGURING to RUNNING; QUIESCE of a CONFIGURING instance pauses its rings and leaves it QUIESCED, of a RUNNING one
begins the work of R320 in QUIESCING and holds the record; RESUME returns QUIESCED to RUNNING and its rings leave PAUSED; RESIZE
loads new limits; REMOVE erases the instance. Completes here: instanceCreate, instanceStart, instanceQuiesce, instanceResume,
instanceResize, instanceRemove. Cites R317, R318, R319, R320, R321, R322. -/
def Obligations.InstanceLifeActs : Prop :=
    (∀ (s : State) (b : Block) (c : List Block),
      let B := rowBlk b 0xE6 [(22, 0, 3, 0)]
      let p := mbxOffer s B
      let d := tgtDie B
      let i := fld B 20 0 10
      let f : FnId := { port := fld B 24 0 3, link := fld B 24 3 2, fn := fld B 25 0 9 }
      mbxReady s B = true →
      instCtlForm s B = true →
      (inst s i).st = .absent →
      f ≠ mgmtFn s →
      (fnOf s f).inst = none →
      fnExists s f = true →
      s.sys.hbmLost.contains (portDie f.port).idx = false →
      exec (.instanceCreate .mailbox b c) s = .next (completeOp (setInstSt (modFn (modInst (keyDraw p.1 i) i fun x => loadLimits B { fn := f, wins := x.wins }) f fun x => { x with inst := some i }) i .configuring 0) p.2 { code := 0, result := 0 })) ∧
    (∀ (s : State) (b : Block) (c : List Block),
      let B := rowBlk b 0xE6 [(22, 0, 3, 1)]
      let p := mbxOffer s B
      let d := tgtDie B
      let i := fld B 20 0 10
      mbxReady s B = true →
      instCtlForm s B = true →
      instDie s i = d →
      (inst s i).st = .configuring →
      exec (.instanceStart .mailbox b c) s = .next (completeOp (setInstSt p.1 i .running 0) p.2 { code := 0, result := 0 })) ∧
    (∀ (s : State) (b : Block) (c : List Block),
      let B := rowBlk b 0xE6 [(22, 0, 3, 2)]
      let p := mbxOffer s B
      let d := tgtDie B
      let i := fld B 20 0 10
      mbxReady s B = true →
      instCtlForm s B = true →
      instDie s i = d →
      (inst s i).st = .configuring →
      exec (.instanceQuiesce .mailbox b c) s = .next (completeOp (setInstSt ((instRings p.1 (instDie s i) i).foldl (fun s n => ringPause s (instDie p.1 i) n) p.1) i .quiesced 0) p.2 { code := 0, result := 0 })) ∧
    (∀ (s : State) (b : Block) (c : List Block),
      let B := rowBlk b 0xE6 [(22, 0, 3, 2)]
      let p := mbxOffer s B
      let d := tgtDie B
      let i := fld B 20 0 10
      mbxReady s B = true →
      instCtlForm s B = true →
      instDie s i = d →
      (inst s i).st = .running →
      exec (.instanceQuiesce .mailbox b c) s = .next (quiesceWork (setInstSt (modOp (modInst p.1 i fun x => { x with quiesceOps := [p.2] }) p.2 fun x => { x with phase := .quiesce }) i .quiescing 0) d i)) ∧
    (∀ (s : State) (b : Block) (c : List Block),
      let B := rowBlk b 0xE6 [(22, 0, 3, 3)]
      let p := mbxOffer s B
      let d := tgtDie B
      let i := fld B 20 0 10
      let t := setInstSt p.1 i .running 0
      mbxReady s B = true →
      instCtlForm s B = true →
      instDie s i = d →
      (inst s i).st = .quiesced →
      exec (.instanceResume .mailbox b c) s = .next (completeOp ((instRings t (instDie t i) i).foldl (fun s n => ringResume s (instDie s i) n) t) p.2 { code := 0, result := 0 })) ∧
    (∀ (s : State) (b : Block) (c : List Block),
      let B := rowBlk b 0xE6 [(22, 0, 3, 4)]
      let p := mbxOffer s B
      let d := tgtDie B
      let i := fld B 20 0 10
      mbxReady s B = true →
      instCtlForm s B = true →
      instDie s i = d →
      (inst s i).st = .quiesced →
      exec (.instanceResize .mailbox b c) s = .next (completeOp (setInstSt (modInst p.1 i (loadLimits B)) i .quiesced 0) p.2 { code := 0, result := 0 })) ∧
    (∀ (s : State) (b : Block) (c : List Block),
      let B := rowBlk b 0xE6 [(22, 0, 3, 5)]
      let p := mbxOffer s B
      let d := tgtDie B
      let i := fld B 20 0 10
      mbxReady s B = true →
      instCtlForm s B = true →
      instDie s i = d →
      (inst s i).st = .quiesced →
      exec (.instanceRemove .mailbox b c) s = .next (completeOp (instRemove p.1 i) p.2 { code := 0, result := 0 }))

/-- Through the mailbox, to an instance that is not ABSENT and with the descriptor in form, each kind of MG_GRANT and each REVOKE
does what R111, R149, R179, R274 and R326 give it: a connection end is loaded and CONNECT sent, or drained; quotas are set; a
collective membership, counter slot, Tally range or virtual station joins or leaves the instance; and the command completes with
CC_OK. Through the mailbox, with the descriptor in form and, for a program, no overlap with another valid window of the
instance: the window holds the new descriptor with the next nonce (never 0) and its TLB entries go; the command completes with
CC_OK where no access under the old translation is outstanding, and is held where one is. A removal needs a valid window.
Completes here: grantConnection, revokeConnection, grantMatching, grantCollective, revokeCollective, grantCounter,
revokeCounter, grantTally, revokeTally, grantVstation, revokeVstation, grantWindow. Cites R111, R112, R149, R179, R274, R325,
R326, R329, R330, R338. -/
def Obligations.GrantsAndWindowsAct : Prop :=
    (∀ (s : State) (b : Block) (c : List Block),
      let B := rowBlk b 0xE7 [(22, 0, 4, 0), (41, 0, 1, 0)]
      let p := mbxOffer s B
      let i := fld B 20 0 10
      mbxReady s B = true →
      zeros B [(20, 10, 6), (22, 4, 4), (23, 0, 8)] = true →
      bothDies B = false →
      (inst s i).st ≠ .absent →
      zeros B [(24, 20, 12), (40, 3, 5), (41, 1, 7), (28, 20, 12), (32, 26, 6), (36, 20, 12)] = true →
      zeroFrom B 42 = true →
      fld B 40 0 3 ≤ 4 →
      fld B 32 4 10 = i →
      holdsStation s (connDie (fld B 24 0 20)) (fld B 32 0 4) = true →
      connDie (fld B 24 0 20) = instDie s i →
      (conn s (connDie (fld B 24 0 20)) (fld B 24 0 20)).st = .absent →
      exec (.grantConnection .mailbox b c) s = .next (completeOp (grantConn p.1 (connDie (fld B 24 0 20)) (fld B 24 0 20) { peerConn := fld B 28 0 20, localStation := fld B 32 0 4, inst := i, remoteInst := fld B 32 14 10, tc := fld B 32 24 2, remoteStation := fld B 36 0 20, mtu := fld B 40 0 3 }) p.2 { code := 0, result := 0 })) ∧
    (∀ (s : State) (b : Block) (c : List Block),
      let B := rowBlk b 0xE7 [(22, 0, 4, 0), (41, 0, 1, 1)]
      let p := mbxOffer s B
      let i := fld B 20 0 10
      mbxReady s B = true →
      zeros B [(20, 10, 6), (22, 4, 4), (23, 0, 8)] = true →
      bothDies B = false →
      (inst s i).st ≠ .absent →
      zeros B [(24, 20, 12), (40, 3, 5), (41, 1, 7)] = true →
      zeroFrom B 42 = true →
      fld B 28 0 96 = 0 →
      fld B 40 0 8 = 0 →
      (conn s (connDie (fld B 24 0 20)) (fld B 24 0 20)).st ∉ [.absent, .draining] →
      (conn s (connDie (fld B 24 0 20)) (fld B 24 0 20)).inst = i →
      exec (.revokeConnection .mailbox b c) s = .next (completeOp (revokeConn p.1 (connDie (fld B 24 0 20)) (fld B 24 0 20)) p.2 { code := 0, result := 0 })) ∧
    (∀ (s : State) (b : Block) (c : List Block),
      let B := rowBlk b 0xE7 [(22, 0, 4, 1)]
      let p := mbxOffer s B
      let i := fld B 20 0 10
      mbxReady s B = true →
      zeros B [(20, 10, 6), (22, 4, 4), (23, 0, 8)] = true →
      bothDies B = false →
      (inst s i).st ≠ .absent →
      zeros B [(24, 17, 15), (28, 25, 7), (32, 24, 8)] = true →
      zeroFrom B 40 = true →
      fld B 24 0 17 ≤ 65536 →
      fld B 28 0 25 ≤ 16777216 →
      fld B 32 0 24 ≤ 8388608 →
      ((inst s i).st = .configuring ∨ (inst s i).st = .quiesced) →
      quotaSum s (instDie s i) i (·.maxCtx) + fld B 24 0 17 ≤ 131072 →
      quotaSum s (instDie s i) i (·.maxPosted) + fld B 28 0 25 ≤ 16777216 →
      quotaSum s (instDie s i) i (·.maxUnexp) + fld B 32 0 24 ≤ 8388608 →
      quotaSum s (instDie s i) i (·.maxUnexpKib) + fld B 36 0 32 ≤ 1024 * bits (regVal s (instDie s i) 0xC00018) 0 16 →
      exec (.grantMatching .mailbox b c) s = .next (completeOp (modInst p.1 i fun x => { x with maxCtx := fld B 24 0 17, maxPosted := fld B 28 0 25, maxUnexp := fld B 32 0 24, maxUnexpKib := fld B 36 0 32 }) p.2 { code := 0, result := 0 })) ∧
    (∀ (s : State) (b : Block) (c : List Block),
      let B := rowBlk b 0xE7 [(22, 0, 4, 2), (32, 0, 1, 0)]
      let p := mbxOffer s B
      let i := fld B 20 0 10
      mbxReady s B = true →
      zeros B [(20, 10, 6), (22, 4, 4), (23, 0, 8)] = true →
      bothDies B = false →
      (inst s i).st ≠ .absent →
      zeros B [(24, 12, 20), (28, 18, 14), (32, 1, 7)] = true →
      zeroFrom B 33 = true →
      ((inst s i).colls.any fun g => decide (g.1 = fld B 24 0 12)) = false →
      (inst s i).colls.length < 64 →
      exec (.grantCollective .mailbox b c) s = .next (completeOp (modInst p.1 i fun x => { x with colls := x.colls ++ [(fld B 24 0 12, fld B 28 0 18)] }) p.2 { code := 0, result := 0 })) ∧
    (∀ (s : State) (b : Block) (c : List Block),
      let B := rowBlk b 0xE7 [(22, 0, 4, 2), (32, 0, 1, 1)]
      let p := mbxOffer s B
      let i := fld B 20 0 10
      mbxReady s B = true →
      zeros B [(20, 10, 6), (22, 4, 4), (23, 0, 8)] = true →
      bothDies B = false →
      (inst s i).st ≠ .absent →
      zeros B [(24, 12, 20), (28, 18, 14), (32, 1, 7)] = true →
      zeroFrom B 33 = true →
      fld B 28 0 18 = 0 →
      ((inst s i).colls.any fun g => decide (g.1 = fld B 24 0 12)) = true →
      exec (.revokeCollective .mailbox b c) s = .next (completeOp (instLost (modInst p.1 i fun x => { x with colls := x.colls.filter fun g => decide (g.1 ≠ fld B 24 0 12) }) (instDie s i) i (some (fld B 24 0 12))) p.2 { code := 0, result := 0 })) ∧
    (∀ (s : State) (b : Block) (c : List Block),
      let B := rowBlk b 0xE7 [(22, 0, 4, 3), (27, 0, 1, 0)]
      let p := mbxOffer s B
      let i := fld B 20 0 10
      mbxReady s B = true →
      zeros B [(20, 10, 6), (22, 4, 4), (23, 0, 8)] = true →
      bothDies B = false →
      (inst s i).st ≠ .absent →
      zeros B [(24, 11, 5), (26, 4, 4), (27, 1, 7)] = true →
      zeroFrom B 28 = true →
      fld B 24 0 11 ≤ 1535 →
      tget 0 (inst s i).counters (fld B 26 0 4) = 0 →
      exec (.grantCounter .mailbox b c) s = .next (completeOp (modInst p.1 i fun x => { x with counters := tset 0 x.counters (fld B 26 0 4) (fld B 24 0 11 + 1) }) p.2 { code := 0, result := 0 })) ∧
    (∀ (s : State) (b : Block) (c : List Block),
      let B := rowBlk b 0xE7 [(22, 0, 4, 3), (27, 0, 1, 1)]
      let p := mbxOffer s B
      let i := fld B 20 0 10
      mbxReady s B = true →
      zeros B [(20, 10, 6), (22, 4, 4), (23, 0, 8)] = true →
      bothDies B = false →
      (inst s i).st ≠ .absent →
      zeros B [(24, 11, 5), (26, 4, 4), (27, 1, 7)] = true →
      zeroFrom B 28 = true →
      fld B 24 0 11 ≤ 1535 →
      tget 0 (inst s i).counters (fld B 26 0 4) ≠ 0 →
      exec (.revokeCounter .mailbox b c) s = .next (completeOp (modInst p.1 i fun x => { x with counters := tset 0 x.counters (fld B 26 0 4) 0 }) p.2 { code := 0, result := 0 })) ∧
    (∀ (s : State) (b : Block) (c : List Block),
      let B := rowBlk b 0xE7 [(22, 0, 4, 4), (32, 0, 1, 0)]
      let p := mbxOffer s B
      let i := fld B 20 0 10
      let r : Nat × Nat := (fld B 24 0 22, fld B 28 0 23)
      mbxReady s B = true →
      zeros B [(20, 10, 6), (22, 4, 4), (23, 0, 8)] = true →
      bothDies B = false →
      (inst s i).st ≠ .absent →
      zeros B [(24, 22, 10), (28, 23, 9), (32, 1, 7)] = true →
      zeroFrom B 33 = true →
      1 ≤ r.2 →
      r.1 + r.2 ≤ 4194304 →
      tallyDie r.1 = instDie s i →
      tallyDie (r.1 + r.2 - 1) = instDie s i →
      (s.insts.any fun (_, y) => y.tallies.any (rangesMeet r)) = false →
      (inst s i).tallies.length < 16 →
      exec (.grantTally .mailbox b c) s = .next (completeOp (modInst (onDie p.1 (instDie s i) fun y => { y with tallies := y.tallies.filter fun (n, _) => !(decide (r.1 ≤ n ∧ n < r.1 + r.2)) }) i fun x => { x with tallies := x.tallies ++ [r] }) p.2 { code := 0, result := 0 })) ∧
    (∀ (s : State) (b : Block) (c : List Block),
      let B := rowBlk b 0xE7 [(22, 0, 4, 4), (32, 0, 1, 1)]
      let p := mbxOffer s B
      let i := fld B 20 0 10
      let r : Nat × Nat := (fld B 24 0 22, fld B 28 0 23)
      mbxReady s B = true →
      zeros B [(20, 10, 6), (22, 4, 4), (23, 0, 8)] = true →
      bothDies B = false →
      (inst s i).st ≠ .absent →
      zeros B [(24, 22, 10), (28, 23, 9), (32, 1, 7)] = true →
      zeroFrom B 33 = true →
      1 ≤ r.2 →
      r.1 + r.2 ≤ 4194304 →
      tallyDie r.1 = instDie s i →
      tallyDie (r.1 + r.2 - 1) = instDie s i →
      r ∈ (inst s i).tallies →
      exec (.revokeTally .mailbox b c) s = .next (completeOp (dropTriggers (modInst p.1 i fun x => { x with tallies := without x.tallies r }) r.1 r.2) p.2 { code := 0, result := 0 })) ∧
    (∀ (s : State) (b : Block) (c : List Block),
      let B := rowBlk b 0xE7 [(22, 0, 4, 5), (25, 0, 1, 0)]
      let p := mbxOffer s B
      let i := fld B 20 0 10
      mbxReady s B = true →
      zeros B [(20, 10, 6), (22, 4, 4), (23, 0, 8)] = true →
      bothDies B = false →
      (inst s i).st ≠ .absent →
      zeros B [(24, 4, 4), (25, 1, 7)] = true →
      zeroFrom B 26 = true →
      4 ≤ fld B 24 0 4 →
      fld B 24 0 4 ∉ (inst s i).vstations →
      exec (.grantVstation .mailbox b c) s = .next (completeOp (modInst p.1 i fun x => { x with vstations := x.vstations ++ [fld B 24 0 4] }) p.2 { code := 0, result := 0 })) ∧
    (∀ (s : State) (b : Block) (c : List Block),
      let B := rowBlk b 0xE7 [(22, 0, 4, 5), (25, 0, 1, 1)]
      let p := mbxOffer s B
      let i := fld B 20 0 10
      mbxReady s B = true →
      zeros B [(20, 10, 6), (22, 4, 4), (23, 0, 8)] = true →
      bothDies B = false →
      (inst s i).st ≠ .absent →
      zeros B [(24, 4, 4), (25, 1, 7)] = true →
      zeroFrom B 26 = true →
      4 ≤ fld B 24 0 4 →
      fld B 24 0 4 ∈ (inst s i).vstations →
      exec (.revokeVstation .mailbox b c) s = .next (completeOp (modInst p.1 i fun x => { x with vstations := without x.vstations (fld B 24 0 4) }) p.2 { code := 0, result := 0 })) ∧
    (∀ (s : State) (b : Block) (c : List Block),
      let B := rowBlk b 0xE7 [(22, 0, 4, 6)]
      let p := mbxOffer s B
      let i := fld B 20 0 10
      let w := fld B 24 0 5
      let old := tget {} (inst s i).wins w
      let new := winOfGrant B (nextNonce old.nonce)
      let t := readsOld (tlbDrop (modInst p.1 i fun x => { x with wins := tset {} x.wins w new }) (instDie s i) i (some w)) i (some w)
      mbxReady s B = true →
      zeros B [(20, 10, 6), (22, 4, 4), (23, 0, 8)] = true →
      bothDies B = false →
      (inst s i).st ≠ .absent →
      winForm B = true →
      (new.valid = true → ((inst s i).wins.any fun (v, y) => decide (v ≠ w) && y.valid && rangesMeet (new.base, new.size * 65536) (y.base, y.size * 65536)) = false) →
      (new.valid = false → old.valid = true) →
      winBusy t i w = false →
      exec (.grantWindow .mailbox b c) s = .next (completeOp (t) p.2 { code := 0, result := 0 })) ∧
    (∀ (s : State) (b : Block) (c : List Block),
      let B := rowBlk b 0xE7 [(22, 0, 4, 6)]
      let p := mbxOffer s B
      let i := fld B 20 0 10
      let w := fld B 24 0 5
      let old := tget {} (inst s i).wins w
      let new := winOfGrant B (nextNonce old.nonce)
      let t := readsOld (tlbDrop (modInst p.1 i fun x => { x with wins := tset {} x.wins w new }) (instDie s i) i (some w)) i (some w)
      mbxReady s B = true →
      zeros B [(20, 10, 6), (22, 4, 4), (23, 0, 8)] = true →
      bothDies B = false →
      (inst s i).st ≠ .absent →
      winForm B = true →
      (new.valid = true → ((inst s i).wins.any fun (v, y) => decide (v ≠ w) && y.valid && rangesMeet (new.base, new.size * 65536) (y.base, y.size * 65536)) = false) →
      (new.valid = false → old.valid = true) →
      winBusy t i w = true →
      exec (.grantWindow .mailbox b c) s = .next (modOp t p.2 fun x => { x with phase := .winGrant })) ∧
    (∀ n : Nat, n < 2 ^ 17 → nextNonce n ≠ 0 ∧ nextNonce n < 2 ^ 17 ∧ (n + 1 < 2 ^ 17 → nextNonce n = n + 1))

/-- Through the mailbox: DRAIN from Service or Degraded pauses every running instance command ring and enters Drain; RESUME from
Drain returns to Service or Degraded and resumes the rings Drain paused; STANDBY that no condition of R437 refuses leaves entry
to Standby due; RESET leaves an internal device reset due 1 ms later; FORENSIC writes its record first and then enters Forensic.
Through the mailbox: a register read that the space admits returns its value in RESULT, a write it admits is applied with RESULT
0; PUSH_NOW with every addressed die pushing sends one map per die and returns the sequence numbers, SET_PUSH sets destination
and period, SET_RECEIVE sets the collector. Completes here: modeSetDrain, modeSetResume, modeSetStandby, modeSetReset,
modeSetForensic, mgRegRead, mgRegWrite, cruisePushNow, cruiseSetPush, cruiseSetReceive. Cites R266, R408, R409, R410, R411,
R427, R437, R472. -/
def Obligations.ModesRegistersAndCruiseAct : Prop :=
    (∀ (s : State) (b : Block) (c : List Block),
      let B := rowBlk b 0xE8 [(20, 0, 3, 0)]
      let p := mbxOffer s B
      mbxReady s B = true →
      zeros B [(20, 3, 5)] = true →
      zeroFrom B 21 = true →
      (s.sys.mode = .service ∨ s.sys.mode = .degraded) →
      exec (.modeSetDrain .mailbox b c) s = .next (completeOp (setMode (eachRing p.1 drainRing) .drain 0) p.2 { code := 0, result := 0 })) ∧
    (∀ (s : State) (b : Block) (c : List Block),
      let B := rowBlk b 0xE8 [(20, 0, 3, 1)]
      let p := mbxOffer s B
      mbxReady s B = true →
      zeros B [(20, 3, 5)] = true →
      zeroFrom B 21 = true →
      s.sys.mode = .drain →
      exec (.modeSetResume .mailbox b c) s = .next (completeOp (eachRing (setMode p.1 (serviceMode p.1) 0) undrainRing) p.2 { code := 0, result := 0 })) ∧
    (∀ (s : State) (b : Block) (c : List Block),
      let B := rowBlk b 0xE8 [(20, 0, 3, 2)]
      let p := mbxOffer s B
      mbxReady s B = true →
      zeros B [(20, 3, 5)] = true →
      zeroFrom B 21 = true →
      s.sys.mode = .drain →
      standbyRefusal p.1 = none →
      exec (.modeSetStandby .mailbox b c) s = .next (completeOp ({ p.1 with sys := { p.1.sys with standbyDue := some (s.now + 10000000) } }) p.2 { code := 0, result := 0 })) ∧
    (∀ (s : State) (b : Block) (c : List Block),
      let B := rowBlk b 0xE8 [(20, 0, 3, 3)]
      let p := mbxOffer s B
      mbxReady s B = true →
      zeros B [(20, 3, 5)] = true →
      zeroFrom B 21 = true →
      s.sys.mode ≠ .standby →
      exec (.modeSetReset .mailbox b c) s = .next (completeOp ({ p.1 with sys := { p.1.sys with resetDue := some (s.now + 1000000) } }) p.2 { code := 0, result := 0 })) ∧
    (∀ (s : State) (b : Block) (c : List Block),
      let B := rowBlk b 0xE8 [(20, 0, 3, 4)]
      let p := mbxOffer s B
      mbxReady s B = true →
      zeros B [(20, 3, 5)] = true →
      zeroFrom B 21 = true →
      (s.sys.mode = .service ∨ s.sys.mode = .degraded ∨ s.sys.mode = .drain) →
      exec (.modeSetForensic .mailbox b c) s = .next (forensicEnter (completeOp p.1 p.2 { code := 0 }) 0 none)) ∧
    (∀ (s : State) (b : Block) (c : List Block) (t : State) (v : Nat),
      let B := rowBlk b 0xE9 []
      let p := mbxOffer s B
      mbxReady s B = true →
      regCmdForm B false = true →
      regReadAs p.1 (.host (mgmtFn s)) false (fld B 20 0 28) (fld B 24 0 8) = (t, .done v) →
      exec (.mgRegRead .mailbox b c) s = .next (completeOp (t) p.2 { code := 0, result := v })) ∧
    (∀ (s : State) (b : Block) (c : List Block) (t : State) (v : Nat),
      let B := rowBlk b 0xEA []
      let p := mbxOffer s B
      mbxReady s B = true →
      regCmdForm B true = true →
      regWriteAs p.1 (.host (mgmtFn s)) false (portDie (mgmtFn s).port) (fld B 20 0 28) (fld B 24 0 8) (fld B 32 0 64) = (t, .done v) →
      exec (.mgRegWrite .mailbox b c) s = .next (completeOp (t) p.2 { code := 0, result := v })) ∧
    (∀ (s : State) (b : Block) (c : List Block),
      let B := rowBlk b 0xEB [(20, 0, 2, 0)]
      let p := mbxOffer s B
      let ds := if bothDies B then [Die.west, .east] else [tgtDie B]
      mbxReady s B = true →
      cruiseForm B = true →
      (ds.all fun d => (die s d).crz.mapEn) = true →
      exec (.cruisePushNow .mailbox b c) s = .next (completeOp (ds.foldl pushMap p.1) p.2 { code := 0, result := (ds.map fun d => ((die s d).crz.mapSeq + 1) % 2 ^ 24 * 2 ^ (32 * d.idx)).sum })) ∧
    (∀ (s : State) (b : Block) (c : List Block),
      let B := rowBlk b 0xEB [(20, 0, 2, 1)]
      let p := mbxOffer s B
      let ds := if bothDies B then [Die.west, .east] else [tgtDie B]
      mbxReady s B = true →
      cruiseForm B = true →
      exec (.cruiseSetPush .mailbox b c) s = .next (completeOp (ds.foldl (fun s d => onCrz s d fun c => { c with mapEn := decide (fld B 28 0 16 ≠ 0), mapDest := fld B 24 0 20, mapPeriod := fld B 28 0 16, mapMultiple := s.time.ns / (1000 * max 1 (fld B 28 0 16)) }) p.1) p.2 { code := 0, result := 0 })) ∧
    (∀ (s : State) (b : Block) (c : List Block),
      let B := rowBlk b 0xEB [(20, 0, 2, 2)]
      let p := mbxOffer s B
      let ds := if bothDies B then [Die.west, .east] else [tgtDie B]
      mbxReady s B = true →
      cruiseForm B = true →
      exec (.cruiseSetReceive .mailbox b c) s = .next (completeOp (ds.foldl (fun s d => onCrz s d fun c => { c with rxBase := fld B 32 0 64, rxFirst := fld B 40 0 10, rxGroups := fld B 42 0 11, rx := [] }) p.1) p.2 { code := 0, result := 0 }))

/-- Through the mailbox: MG_SHELF_COLLECT returns the active digest, MACHINE_TAG, staged digest or epoch flags of a domain and
changes nothing; MG_FAULT_RELEASE of a HELD_FAILED unit, or of all HELD_FAILED units of block 0x13 for unit 0xFFFF, starts the
self-test with no recoveries counted; MG_SEM_BANK_RESET of an idle bank resets it; TIME_CTL SET loads device time, or waits for
the next PPS_IN edge on a grandmaster with PPS_IN present, STEP schedules the step at the next whole second, RESELECT chooses a
source again; ARCHIVE DESIGNATE names the buffer and begins a copy that is due, CLEAR forgets it, COPY starts and holds its
record. Completes here: mgShelfCollect, mgFaultRelease, mgSemBankReset, timeCtlSet, timeCtlStep, timeCtlReselect,
archiveDesignate, archiveClear, archiveCopy. Cites R372, R394, R407, R425, R431. -/
def Obligations.AuditFaultTimeCommandsAct : Prop :=
    (∀ (s : State) (b : Block) (c : List Block),
      let B := rowBlk b 0xEC []
      let p := mbxOffer s B
      let d := tgtDie B
      let n := fld B 20 0 3
      mbxReady s B = true →
      zeros B [(20, 3, 5), (21, 2, 6)] = true →
      zeroFrom B 22 = true →
      bothDies B = false →
      exec (.mgShelfCollect .mailbox b c) s = .next (completeOp (p.1) p.2 { code := 0, result := if fld B 21 0 2 = 0 then activeDigest s d n else if fld B 21 0 2 = 1 then (dom s d n).tag else if fld B 21 0 2 = 2 then stagedDigest s d n else (dom s d n).epoch + b2n (dom s d n).pend.isSome * 2 ^ 32 + b2n (dom s d n).stagedValid * 2 ^ 33 + b2n (mismatched s d n) * 2 ^ 34 })) ∧
    (∀ (s : State) (b : Block) (c : List Block),
      let B := rowBlk b 0xED []
      let p := mbxOffer s B
      let d := tgtDie B
      let k := fld B 20 0 8
      let u := fld B 22 0 16
      mbxReady s B = true →
      fld B 21 0 8 = 0 →
      zeroFrom B 24 = true →
      bothDies B = false →
      k ≤ 0x18 →
      k ∉ [0x12, 0x14] →
      (k = 0x13 → u ≤ 7) →
      (unitOf s d k u).st = .heldFailed →
      exec (.mgFaultRelease .mailbox b c) s = .next (completeOp (modUnit p.1 d k u fun x => { x with st := .fault, recoveries := [], quietEnd := p.1.now }) p.2 { code := 0, result := 0 })) ∧
    (∀ (s : State) (b : Block) (c : List Block),
      let B := rowBlk b 0xED []
      let p := mbxOffer s B
      let d := tgtDie B
      let held := (addNew ((List.range 8).filter fun m => decide ((unitOf s d 0x13 m).st = .heldFailed)) 0xFFFF).filter fun u => decide ((unitOf s d 0x13 u).st = .heldFailed)
      mbxReady s B = true →
      fld B 20 0 8 = 0x13 →
      fld B 22 0 16 = 0xFFFF →
      fld B 21 0 8 = 0 →
      zeroFrom B 24 = true →
      bothDies B = false →
      held ≠ [] →
      exec (.mgFaultRelease .mailbox b c) s = .next (completeOp (held.foldl (fun s u => modUnit s d 0x13 u fun x => { x with st := .fault, recoveries := [], quietEnd := s.now }) p.1) p.2 { code := 0, result := 0 })) ∧
    (∀ (s : State) (b : Block) (c : List Block),
      let B := rowBlk b 0xEE []
      let p := mbxOffer s B
      let d := tgtDie B
      mbxReady s B = true →
      zeros B [(20, 3, 5)] = true →
      zeroFrom B 21 = true →
      bothDies B = false →
      bankIdle s d (fld B 20 0 3) = true →
      exec (.mgSemBankReset .mailbox b c) s = .next (completeOp (bankReset p.1 d (fld B 20 0 3)) p.2 { code := 0, result := 0 })) ∧
    (∀ (s : State) (b : Block) (c : List Block),
      let B := rowBlk b 0xEF [(20, 0, 2, 0)]
      let p := mbxOffer s B
      mbxReady s B = true →
      zeros B [(20, 2, 6), (21, 0, 24)] = true →
      zeroFrom B 32 = true →
      fld B 24 0 64 % secNs = 0 →
      pendingAny s = false →
      s.time.st ≠ .locked →
      exec (.timeCtlSet .mailbox b c) s = .next (completeOp (if anyGrandmaster s && ppsPresent s then { p.1 with time := { p.1.time with setAtPps := some (fld B 24 0 64), step := none } } else timeLoad p.1 (fld B 24 0 64)) p.2 { code := 0, result := 0 })) ∧
    (∀ (s : State) (b : Block) (c : List Block),
      let B := rowBlk b 0xEF [(20, 0, 2, 1)]
      let p := mbxOffer s B
      mbxReady s B = true →
      zeros B [(20, 2, 6), (21, 0, 24)] = true →
      zeroFrom B 32 = true →
      Int.ofNat (signed64 (fld B 24 0 64)).natAbs < halfSec →
      pendingAny s = false →
      s.time.step = none →
      exec (.timeCtlStep .mailbox b c) s = .next (completeOp ({ p.1 with time := { p.1.time with step := some (nextSecond s, signed64 (fld B 24 0 64)) } }) p.2 { code := 0, result := 0 })) ∧
    (∀ (s : State) (b : Block) (c : List Block),
      let B := rowBlk b 0xEF [(20, 0, 2, 2)]
      let p := mbxOffer s B
      mbxReady s B = true →
      zeros B [(20, 2, 6), (21, 0, 24)] = true →
      zeroFrom B 32 = true →
      fld B 24 0 64 = 0 →
      exec (.timeCtlReselect .mailbox b c) s = .next (completeOp (timeReselect p.1) p.2 { code := 0, result := 0 })) ∧
    (∀ (s : State) (b : Block) (c : List Block),
      let B := rowBlk b 0xF0 [(20, 0, 2, 0)]
      let p := mbxOffer s B
      mbxReady s B = true →
      zeros B [(20, 2, 6), (21, 0, 24)] = true →
      zeroFrom B 32 = true →
      fld B 24 0 64 % 4096 = 0 →
      exec (.archiveDesignate .mailbox b c) s = .next (completeOp (archiveCopyBegin { p.1 with arch := { p.1.arch with dest := some (fld B 24 0 64) } }) p.2 { code := 0, result := 0 })) ∧
    (∀ (s : State) (b : Block) (c : List Block),
      let B := rowBlk b 0xF0 [(20, 0, 2, 1)]
      let p := mbxOffer s B
      mbxReady s B = true →
      zeros B [(20, 2, 6), (21, 0, 24)] = true →
      zeroFrom B 32 = true →
      fld B 24 0 64 % 4096 = 0 →
      exec (.archiveClear .mailbox b c) s = .next (completeOp ({ p.1 with arch := { p.1.arch with dest := none } }) p.2 { code := 0, result := 0 })) ∧
    (∀ (s : State) (b : Block) (c : List Block),
      let B := rowBlk b 0xF0 [(20, 0, 2, 2)]
      let p := mbxOffer s B
      mbxReady s B = true →
      zeros B [(20, 2, 6), (21, 0, 24)] = true →
      zeroFrom B 32 = true →
      fld B 24 0 64 % 4096 = 0 →
      s.arch.valid = true →
      s.arch.dest.isSome = true →
      exec (.archiveCopy .mailbox b c) s = .next (modOp { p.1 with arch := { p.1.arch with copying := true, copyOps := s.arch.copyOps ++ [p.2] } } p.2 fun x => { x with phase := .archive }))

/-- Through the mailbox, body in form: CONFIGURE_CMD binds a free command ring to its completion ring, reserves its halt slot and
leaves it IDLE; CONFIGURE_CQ leaves the completion ring empty; PAUSE and RESUME act on a ring out of RESET; RESET cancels the
work and holds the record until the ring is IDLE; RELEASE_CMD likewise until it is cleared, also of a ring in RESET; RELEASE_CQ
clears an unbound, drained completion ring. Completes here: ringConfigureCmd, ringConfigureCq, ringPause, ringResume,
ringCtlReset, ringReleaseCmd, ringReleaseCq. Cites R77, R89, R100, R101, R104, R105. -/
def Obligations.RingControlActs : Prop :=
    (∀ (s : State) (b : Block) (c : List Block),
      let B := rowBlk b 0xF1 [(20, 0, 3, 0)]
      let p := mbxOffer s B
      let d := tgtDie B
      let n := fld B 22 0 13
      let r := cmdRing s d n
      let cfg := fld B 32 0 64
      let m := bits cfg 24 13
      let i := bits cfg 40 10
      let q := cqRing s d m
      mbxReady s B = true →
      ringCtlForm B = true →
      r.configured = false →
      q.configured = true →
      q.bound < min 64 (2 ^ (q.log2 - 1)) →
      0 < cqFree q →
      n ≠ 0 →
      m ≠ 0 →
      q.inst = i →
      instHere s d i = true →
      cmdTaken s d i (bits cfg 50 14) = false →
      exec (.ringConfigureCmd .mailbox b c) s = .next (completeOp (setRingSt (modCmdRing (modCq p.1 d m fun q => { q with bound := q.bound + 1, haltHeld := q.haltHeld + 1 }) d n fun _ => { configured := true, base := fld B 24 0 64, log2 := bits cfg 0 5, cq := m, shadowAddr := fld B 40 0 64 / 8 * 8, shadowEn := bit (fld B 40 0 64) 0, instRing := bits cfg 50 14, inst := i, burst := bits cfg 16 7, weight := bits cfg 8 8, prio := bits cfg 5 2, haltSlot := true }) d n .idle) p.2 { code := 0, result := 0 })) ∧
    (∀ (s : State) (b : Block) (c : List Block),
      let B := rowBlk b 0xF1 [(20, 0, 3, 0)]
      let p := mbxOffer s B
      let d := tgtDie B
      let n := fld B 22 0 13
      let r := cmdRing s d n
      mbxReady s B = true →
      ringCtlForm B = true →
      n = 0 →
      r.configured = false →
      (cqRing s d 0).configured = true →
      (cqRing s d 0).bound < min 64 (2 ^ ((cqRing s d 0).log2 - 1)) →
      0 < cqFree (cqRing s d 0) →
      exec (.ringConfigureCmd .mailbox b c) s = .next (completeOp (setRingSt (modCmdRing (modCq p.1 d 0 fun q => { q with bound := q.bound + 1, haltHeld := q.haltHeld + 1 }) d 0 fun _ => { configured := true, base := fld B 24 0 64, log2 := fld B 32 0 5, shadowAddr := fld B 40 0 64 / 8 * 8, shadowEn := bit (fld B 40 0 64) 0, haltSlot := true }) d 0 .idle) p.2 { code := 0, result := 0 })) ∧
    (∀ (s : State) (b : Block) (c : List Block),
      let B := rowBlk b 0xF1 [(20, 0, 3, 1)]
      let p := mbxOffer s B
      let d := tgtDie B
      let n := fld B 22 0 13
      let r := cmdRing s d n
      let cfg := fld B 32 0 64
      mbxReady s B = true →
      ringCtlForm B = true →
      (cqRing s d n).configured = false →
      n ≠ 0 →
      instHere s d (bits cfg 8 10) = true →
      cqTaken s d (bits cfg 8 10) (bits cfg 32 14) = false →
      exec (.ringConfigureCq .mailbox b c) s = .next (completeOp (modCq p.1 d n fun _ => { configured := true, base := fld B 24 0 64, log2 := bits cfg 0 5, intEn := bit cfg 30, intSource := bits cfg 18 12, instRing := bits cfg 32 14, inst := bits cfg 8 10 }) p.2 { code := 0, result := 0 })) ∧
    (∀ (s : State) (b : Block) (c : List Block),
      let B := rowBlk b 0xF1 [(20, 0, 3, 1)]
      let p := mbxOffer s B
      let d := tgtDie B
      let n := fld B 22 0 13
      let r := cmdRing s d n
      let cfg := fld B 32 0 64
      mbxReady s B = true →
      ringCtlForm B = true →
      n = 0 →
      (cqRing s d 0).configured = false →
      exec (.ringConfigureCq .mailbox b c) s = .next (completeOp (modCq p.1 d 0 fun _ => { configured := true, base := fld B 24 0 64, log2 := bits cfg 0 5, intEn := bit cfg 30, intSource := bits cfg 18 12 }) p.2 { code := 0, result := 0 })) ∧
    (∀ (s : State) (b : Block) (c : List Block),
      let B := rowBlk b 0xF1 [(20, 0, 3, 2)]
      let p := mbxOffer s B
      let d := tgtDie B
      let n := fld B 22 0 13
      let r := cmdRing s d n
      mbxReady s B = true →
      ringCtlForm B = true →
      r.configured = true →
      r.st ≠ .reset →
      exec (.ringPause .mailbox b c) s = .next (completeOp (ringPause p.1 d n) p.2 { code := 0, result := 0 })) ∧
    (∀ (s : State) (b : Block) (c : List Block),
      let B := rowBlk b 0xF1 [(20, 0, 3, 3)]
      let p := mbxOffer s B
      let d := tgtDie B
      let n := fld B 22 0 13
      let r := cmdRing s d n
      mbxReady s B = true →
      ringCtlForm B = true →
      r.configured = true →
      r.st ≠ .reset →
      exec (.ringResume .mailbox b c) s = .next (completeOp (ringResume p.1 d n) p.2 { code := 0, result := 0 })) ∧
    (∀ (s : State) (b : Block) (c : List Block),
      let B := rowBlk b 0xF1 [(20, 0, 3, 4)]
      let p := mbxOffer s B
      let d := tgtDie B
      let n := fld B 22 0 13
      let r := cmdRing s d n
      mbxReady s B = true →
      ringCtlForm B = true →
      r.configured = true →
      r.st ≠ .reset →
      exec (.ringCtlReset .mailbox b c) s = .next (modCmdRing (ringToReset (modOp p.1 p.2 fun x => { x with phase := .ringReset }) d n) d n fun r => { r with resetOps := r.resetOps ++ [p.2] })) ∧
    (∀ (s : State) (b : Block) (c : List Block),
      let B := rowBlk b 0xF1 [(20, 0, 3, 5)]
      let p := mbxOffer s B
      let d := tgtDie B
      let n := fld B 22 0 13
      let r := cmdRing s d n
      let x := modOp p.1 p.2 fun x => { x with phase := .ringReset }
      mbxReady s B = true →
      ringCtlForm B = true →
      r.configured = true →
      exec (.ringReleaseCmd .mailbox b c) s = .next (modCmdRing (if r.st = .reset then x else ringToReset x d n) d n fun r => { r with releasing := true, resetOps := r.resetOps ++ [p.2] })) ∧
    (∀ (s : State) (b : Block) (c : List Block),
      let B := rowBlk b 0xF1 [(20, 0, 3, 6)]
      let p := mbxOffer s B
      let d := tgtDie B
      let n := fld B 22 0 13
      let r := cmdRing s d n
      mbxReady s B = true →
      ringCtlForm B = true →
      (cqRing s d n).configured = true →
      (cqRing s d n).bound = 0 →
      (cqRing s d n).written = 0 →
      exec (.ringReleaseCq .mailbox b c) s = .next (completeOp (modCq p.1 d n fun _ => {}) p.2 { code := 0, result := 0 }))

/-- A ring's PUT, GATHER, SCATTER or ZERO that passes its checks on a connection to a router of the active epoch, with no earlier
command of the connection still staging, takes a free engine thread and runs with its number of strides: one per 65,536 bytes,
at least one, or one per element. A PUT of at least one byte needs its source in one readable window. From a ring, past its
checks, a COLL command takes its member's next sequence number in the context and joins the collectives in flight. A barrier,
and a broadcast at a member that is not its root, contributes at once; the root of a broadcast, and every member of a reduce,
allreduce or allgather, reads its source first. Completes here: put, gather, scatter, zero, collBarrier, collBcast, collReduce,
collAllreduce, collAllgather. Cites R54, R67, R68, R69, R119, R122, R183, R184, R185, R186. -/
def Obligations.CommandsBeginTheirWork : Prop :=
    (∀ (s : State) (d : Die) (n : Nat) (b : Block) (c : List Block) (p : State × Nat) (k : Nat) (w : Nat × Nat),
      let o := p.2
      let y := passed4 p.1 o
      let x := opOf y o
      let u := takeConn y o k
      ringOffer s d n (rowBlk b 0x01 []) c = some p →
      passes p.1 p.2 = true →
      connField x.blk = some k →
      opens u d (conn u d k).inst (conn u d k).sealedBy = true →
      destAbsent u d (conn u d k).remoteStation = false →
      connBusy u d k o = false →
      (fld x.blk 40 0 33 ≠ 0 → localOk u x (fld x.blk 16 0 64) (fld x.blk 40 0 33) (·.lr) = true) →
      (freeThreads u d).head? = some w →
      exec (.put (.ring d n) b c) s = .next (runLong (modConn (modOp u o fun z => { z with strides := max 1 ((fld x.blk 40 0 33 + 65535) / 65536), nextStride := 0, psnPerStride := 65536 / mtuBytes (conn u d k).mtu, phase := .long .suspended }) d k fun z => { z with longOp := some o }) o w)) ∧
    (∀ (s : State) (d : Die) (n : Nat) (b : Block) (c : List Block) (p : State × Nat) (k : Nat) (w : Nat × Nat),
      let o := p.2
      let y := passed4 p.1 o
      let x := opOf y o
      let u := takeConn y o k
      ringOffer s d n (rowBlk b 0x04 []) c = some p →
      passes p.1 p.2 = true →
      connField x.blk = some k →
      opens u d (conn u d k).inst (conn u d k).sealedBy = true →
      destAbsent u d (conn u d k).remoteStation = false →
      connBusy u d k o = false →
      (freeThreads u d).head? = some w →
      exec (.gather (.ring d n) b c) s = .next (runLong (modConn (modOp u o fun z => { z with strides := fld x.blk 40 0 5, nextStride := 0, psnPerStride := 65536 / mtuBytes (conn u d k).mtu, phase := .long .suspended }) d k fun z => { z with longOp := some o }) o w)) ∧
    (∀ (s : State) (d : Die) (n : Nat) (b : Block) (c : List Block) (p : State × Nat) (k : Nat) (w : Nat × Nat),
      let o := p.2
      let y := passed4 p.1 o
      let x := opOf y o
      let u := takeConn y o k
      ringOffer s d n (rowBlk b 0x05 []) c = some p →
      passes p.1 p.2 = true →
      connField x.blk = some k →
      opens u d (conn u d k).inst (conn u d k).sealedBy = true →
      destAbsent u d (conn u d k).remoteStation = false →
      connBusy u d k o = false →
      (freeThreads u d).head? = some w →
      exec (.scatter (.ring d n) b c) s = .next (runLong (modConn (modOp u o fun z => { z with strides := fld x.blk 40 0 5, nextStride := 0, psnPerStride := 65536 / mtuBytes (conn u d k).mtu, phase := .long .suspended }) d k fun z => { z with longOp := some o }) o w)) ∧
    (∀ (s : State) (d : Die) (n : Nat) (b : Block) (c : List Block) (p : State × Nat) (k : Nat) (w : Nat × Nat),
      let o := p.2
      let y := passed4 p.1 o
      let x := opOf y o
      let u := takeConn y o k
      ringOffer s d n (rowBlk b 0x06 []) c = some p →
      passes p.1 p.2 = true →
      connField x.blk = some k →
      opens u d (conn u d k).inst (conn u d k).sealedBy = true →
      destAbsent u d (conn u d k).remoteStation = false →
      connBusy u d k o = false →
      (freeThreads u d).head? = some w →
      exec (.zero (.ring d n) b c) s = .next (runLong (modConn (modOp u o fun z => { z with strides := max 1 ((fld x.blk 40 0 33 + 65535) / 65536), nextStride := 0, psnPerStride := 65536 / mtuBytes (conn u d k).mtu, phase := .long .suspended }) d k fun z => { z with longOp := some o }) o w)) ∧
    (∀ (s : State) (d : Die) (n : Nat) (b : Block) (c : List Block) (p : State × Nat) (t : Tree) (ch : Nat),
      let o := p.2
      let y := passed4 p.1 o
      let x := opOf y o
      let i := x.inst.getD 1024
      let q := fld x.blk 16 0 12
      let u := modOp y o fun z => { z with phase := .done }
      let h := collHead x.blk
      let me := ((t.children[ch]?).map (·.index)).getD 0
      let z := tget 0 (bndCtx u d q).memberSeq me
      let k : Coll := { op := o, seq := z, memberIdx := me, child := ch, head := h, src := [], srcRead := !(collReads h me), segsDone := 0, placed := [], nan := false, spill := false }
      let v := modOp (modBnd u d q fun y => { y with memberSeq := tset 0 y.memberSeq me (z + 1), colls := y.colls ++ [k] }) o fun y => { y with phase := .collective, collSeq := z }
      ringOffer s d n (rowBlk b 0x40 []) c = some p →
      passes p.1 p.2 = true →
      treeOf u d q = some t →
      memberChild u d i q t = some ch →
      exec (.collBarrier (.ring d n) b c) s = .next (contributeAll v d q t k)) ∧
    (∀ (s : State) (d : Die) (n : Nat) (b : Block) (c : List Block) (p : State × Nat) (t : Tree) (ch : Nat),
      let o := p.2
      let y := passed4 p.1 o
      let x := opOf y o
      let i := x.inst.getD 1024
      let q := fld x.blk 16 0 12
      let u := modOp y o fun z => { z with phase := .done }
      let h := collHead x.blk
      let me := ((t.children[ch]?).map (·.index)).getD 0
      let z := tget 0 (bndCtx u d q).memberSeq me
      let k : Coll := { op := o, seq := z, memberIdx := me, child := ch, head := h, src := [], srcRead := !(collReads h me), segsDone := 0, placed := [], nan := false, spill := false }
      let v := modOp (modBnd u d q fun y => { y with memberSeq := tset 0 y.memberSeq me (z + 1), colls := y.colls ++ [k] }) o fun y => { y with phase := .collective, collSeq := z }
      ringOffer s d n (rowBlk b 0x41 []) c = some p →
      passes p.1 p.2 = true →
      treeOf u d q = some t →
      memberChild u d i q t = some ch →
      exec (.collBcast (.ring d n) b c) s = .next (if me = fld x.blk 40 0 18 then collRead v o else contributeAll v d q t k)) ∧
    (∀ (s : State) (d : Die) (n : Nat) (b : Block) (c : List Block) (p : State × Nat) (t : Tree) (ch : Nat),
      let o := p.2
      let y := passed4 p.1 o
      let x := opOf y o
      let i := x.inst.getD 1024
      let q := fld x.blk 16 0 12
      let u := modOp y o fun z => { z with phase := .done }
      let h := collHead x.blk
      let me := ((t.children[ch]?).map (·.index)).getD 0
      let z := tget 0 (bndCtx u d q).memberSeq me
      let k : Coll := { op := o, seq := z, memberIdx := me, child := ch, head := h, src := [], srcRead := !(collReads h me), segsDone := 0, placed := [], nan := false, spill := false }
      let v := modOp (modBnd u d q fun y => { y with memberSeq := tset 0 y.memberSeq me (z + 1), colls := y.colls ++ [k] }) o fun y => { y with phase := .collective, collSeq := z }
      ringOffer s d n (rowBlk b 0x42 []) c = some p →
      passes p.1 p.2 = true →
      treeOf u d q = some t →
      memberChild u d i q t = some ch →
      exec (.collReduce (.ring d n) b c) s = .next (collRead v o)) ∧
    (∀ (s : State) (d : Die) (n : Nat) (b : Block) (c : List Block) (p : State × Nat) (t : Tree) (ch : Nat),
      let o := p.2
      let y := passed4 p.1 o
      let x := opOf y o
      let i := x.inst.getD 1024
      let q := fld x.blk 16 0 12
      let u := modOp y o fun z => { z with phase := .done }
      let h := collHead x.blk
      let me := ((t.children[ch]?).map (·.index)).getD 0
      let z := tget 0 (bndCtx u d q).memberSeq me
      let k : Coll := { op := o, seq := z, memberIdx := me, child := ch, head := h, src := [], srcRead := !(collReads h me), segsDone := 0, placed := [], nan := false, spill := false }
      let v := modOp (modBnd u d q fun y => { y with memberSeq := tset 0 y.memberSeq me (z + 1), colls := y.colls ++ [k] }) o fun y => { y with phase := .collective, collSeq := z }
      ringOffer s d n (rowBlk b 0x43 []) c = some p →
      passes p.1 p.2 = true →
      treeOf u d q = some t →
      memberChild u d i q t = some ch →
      exec (.collAllreduce (.ring d n) b c) s = .next (collRead v o)) ∧
    (∀ (s : State) (d : Die) (n : Nat) (b : Block) (c : List Block) (p : State × Nat) (t : Tree) (ch : Nat),
      let o := p.2
      let y := passed4 p.1 o
      let x := opOf y o
      let i := x.inst.getD 1024
      let q := fld x.blk 16 0 12
      let u := modOp y o fun z => { z with phase := .done }
      let h := collHead x.blk
      let me := ((t.children[ch]?).map (·.index)).getD 0
      let z := tget 0 (bndCtx u d q).memberSeq me
      let k : Coll := { op := o, seq := z, memberIdx := me, child := ch, head := h, src := [], srcRead := !(collReads h me), segsDone := 0, placed := [], nan := false, spill := false }
      let v := modOp (modBnd u d q fun y => { y with memberSeq := tset 0 y.memberSeq me (z + 1), colls := y.colls ++ [k] }) o fun y => { y with phase := .collective, collSeq := z }
      ringOffer s d n (rowBlk b 0x44 []) c = some p →
      passes p.1 p.2 = true →
      treeOf u d q = some t →
      memberChild u d i q t = some ch →
      exec (.collAllgather (.ring d n) b c) s = .next (collRead v o))

/-- A ring's PUT_INLINE or ATOMIC that passes its checks, on a connection not absent or busy, stages one single-flit packet with its
target offset, remote key and data or operands: PUT_INLINE the bytes 32 on of its block, ATOMIC its operation and its operands,
from the block or, for 16 bytes, from the extension block. A ring's SEND_INLINE that passes its checks sends the bytes 32 on of
its block as one eager message. A SEND of at most EAGER_MAX bytes reads its payload before any of it is sent; a longer one sends
its request-to-send. Completes here: putInline, atomic, send, sendInline. Cites R119, R123, R156, R157, R159. -/
def Obligations.PacketsAndMessagesAreSent : Prop :=
    (∀ (s : State) (d : Die) (n : Nat) (b : Block) (c : List Block) (p : State × Nat) (k : Nat),
      let o := p.2
      let y := passed4 p.1 o
      let x := opOf y o
      let u := takeConn y o k
      ringOffer s d n (rowBlk b 0x02 []) c = some p →
      passes p.1 p.2 = true →
      connField x.blk = some k →
      opens u d (conn u d k).inst (conn u d k).sealedBy = true →
      destAbsent u d (conn u d k).remoteStation = false →
      connBusy u d k o = false →
      exec (.putInline (.ring d n) b c) s = .next (stagePieces (modOp u o fun y => { y with phase := .sent }) d k o [{ op := .write (fld x.blk 24 0 32) (fld x.blk 16 0 64) (fld x.blk 28 20 6) (fld x.blk 28 20 6) (some (blkBytes x.blk 32 (fld x.blk 28 20 6))) none false, flits := 1, bytes := fld x.blk 28 20 6, first := true, last := true }])) ∧
    (∀ (s : State) (d : Die) (n : Nat) (b : Block) (c : List Block) (p : State × Nat) (k : Nat),
      let o := p.2
      let y := passed4 p.1 o
      let x := opOf y o
      let u := takeConn y o k
      ringOffer s d n (rowBlk b 0x61 []) c = some p →
      passes p.1 p.2 = true →
      connField x.blk = some k →
      opens u d (conn u d k).inst (conn u d k).sealedBy = true →
      destAbsent u d (conn u d k).remoteStation = false →
      connBusy u d k o = false →
      fld x.blk 28 24 1 = 0 →
      exec (.atomic (.ring d n) b c) s = .next (stagePieces (modOp u o fun y => { y with phase := .sent }) d k o [{ op := .atomic (fld x.blk 24 0 32) (fld x.blk 16 0 64) 8 (fld x.blk 28 20 4) (fld x.blk 32 0 64) (fld x.blk 40 0 64), flits := 1, bytes := 8, first := true, last := true }])) ∧
    (∀ (s : State) (d : Die) (n : Nat) (b : Block) (c : List Block) (p : State × Nat) (k : Nat),
      let o := p.2
      let y := passed4 p.1 o
      let x := opOf y o
      let u := takeConn y o k
      ringOffer s d n (rowBlk b 0x61 []) c = some p →
      passes p.1 p.2 = true →
      connField x.blk = some k →
      opens u d (conn u d k).inst (conn u d k).sealedBy = true →
      destAbsent u d (conn u d k).remoteStation = false →
      connBusy u d k o = false →
      fld x.blk 28 24 1 = 1 →
      exec (.atomic (.ring d n) b c) s = .next (stagePieces (modOp u o fun y => { y with phase := .sent }) d k o [{ op := .atomic (fld x.blk 24 0 32) (fld x.blk 16 0 64) 16 (fld x.blk 28 20 4) (fld (x.chain.headD 0) 0 0 128) (fld (x.chain.headD 0) 16 0 128), flits := 1, bytes := 16, first := true, last := true }])) ∧
    (∀ (s : State) (d : Die) (n : Nat) (b : Block) (c : List Block) (p : State × Nat) (k : Nat),
      let o := p.2
      let y := passed4 p.1 o
      let x := opOf y o
      let u := takeConn y o k
      ringOffer s d n (rowBlk b 0x21 []) c = some p →
      passes p.1 p.2 = true →
      connField x.blk = some k →
      opens u d (conn u d k).inst (conn u d k).sealedBy = true →
      destAbsent u d (conn u d k).remoteStation = false →
      connBusy u d k o = false →
      exec (.sendInline (.ring d n) b c) s = .next (sendEager u o k (blkBytes x.blk 32 (fld x.blk 28 20 6)))) ∧
    (∀ (s : State) (d : Die) (n : Nat) (b : Block) (c : List Block) (p : State × Nat) (k : Nat),
      let o := p.2
      let y := passed4 p.1 o
      let x := opOf y o
      let u := takeConn y o k
      ringOffer s d n (rowBlk b 0x20 []) c = some p →
      passes p.1 p.2 = true →
      connField x.blk = some k →
      opens u d (conn u d k).inst (conn u d k).sealedBy = true →
      destAbsent u d (conn u d k).remoteStation = false →
      connBusy u d k o = false →
      fld x.blk 40 0 33 ≤ 256 * bits (regVal u d 0xC00000) 0 9 →
      exec (.send (.ring d n) b c) s = .next (readSend (modConn (modOp u o fun y => { y with phase := .reading }) d k fun y => { y with longOp := some o }) o k)) ∧
    (∀ (s : State) (d : Die) (n : Nat) (b : Block) (c : List Block) (p : State × Nat) (k : Nat),
      let o := p.2
      let y := passed4 p.1 o
      let x := opOf y o
      let u := takeConn y o k
      ringOffer s d n (rowBlk b 0x20 []) c = some p →
      passes p.1 p.2 = true →
      connField x.blk = some k →
      opens u d (conn u d k).inst (conn u d k).sealedBy = true →
      destAbsent u d (conn u d k).remoteStation = false →
      connBusy u d k o = false →
      256 * bits (regVal u d 0xC00000) 0 9 < fld x.blk 40 0 33 →
      (conn u d k).rdv.length < 1024 →
      exec (.send (.ring d n) b c) s = .next (sendRts u o k))

/-- A ring's GET that passes its checks on a connection not absent or busy, whose local range is empty or lies in one writable
window, sends read requests that cut its range at 65,536 bytes, in order, the first marked first and the last marked last; an
empty GET sends one request for no byte. Completes here: get. Cites R120, R335. -/
def Obligations.GetSendsReadRequests : Prop :=
    (∀ (s : State) (d : Die) (n : Nat) (b : Block) (c : List Block) (p : State × Nat) (k : Nat),
      let o := p.2
      let y := passed4 p.1 o
      let x := opOf y o
      let u := takeConn y o k
      let m := fld x.blk 40 0 33
      let l := if m = 0 then [(0, 0)] else cutReads (m / 65536 + 1) 0 m
      ringOffer s d n (rowBlk b 0x03 []) c = some p →
      passes p.1 p.2 = true →
      connField x.blk = some k →
      opens u d (conn u d k).inst (conn u d k).sealedBy = true →
      destAbsent u d (conn u d k).remoteStation = false →
      connBusy u d k o = false →
      (m ≠ 0 → localOk u x (fld x.blk 16 0 64) m (·.lw) = true) →
      exec (.get (.ring d n) b c) s = .next (stagePieces (modOp u o fun y => { y with phase := .sent, since := u.now }) d k o ((l.zip (List.range l.length)).map fun (r, j) => getPiece (opOf u o) o (decide (j = 0)) (decide (j + 1 = l.length)) r))) ∧
    (∀ (m : Nat), 0 < m →
      ((cutReads (m / 65536 + 1) 0 m).map (·.2)).sum = m ∧
      (∀ r ∈ cutReads (m / 65536 + 1) 0 m, 1 ≤ r.2 ∧ r.2 ≤ 65536 ∧ r.1 % 65536 = 0 ∧ r.1 + r.2 ≤ m))

/-- From a ring, past their checks: RECV_POST with no match in the unexpected store joins the posting order with its buffer, source,
tag and mask, and with one takes it; RECV_CANCEL removes the earliest posted receive with its cookie, which completes with
CC_CANCELLED, and itself completes with CC_OK; CTX_OPEN opens the context and completes; CTX_DRAIN leaves it DRAINING and waits;
CTX_CLOSE closes it and waits. From a ring, past their checks: NOP completes with CC_OK; TALLY_WRITE sets the value, clears
saturation, evaluates the triggers of the Tally and completes; TALLY_READ completes with the value in RESULT[47:0] and the
saturation in RESULT[48]; RING_RESET takes another ring of the instance that is not in RESET to RESET and waits; TRIG_ARM whose
deferred block passes its checks, with a trigger slot free, arms; TRIG_DISARM ends the earliest armed trigger of that tag with
CC_CANCELLED and completes with CC_OK. Completes here: recvPost, recvCancel, ctxOpen, ctxDrain, ctxClose, nop, tallyWrite,
tallyRead, ringReset, trigArm, trigDisarm. Cites R58, R61, R62, R64, R65, R102, R140, R146, R151, R152, R167. -/
def Obligations.MatchingSyncAndTriggersAct : Prop :=
    (∀ (s : State) (d : Die) (n : Nat) (b : Block) (c : List Block) (p : State × Nat),
      let o := p.2
      let y := passed4 p.1 o
      let x := opOf y o
      let i := x.inst.getD 1024
      let q := fld x.blk 48 0 16
      let u := modOp y o fun z => { z with phase := .done }
      let r : Recv := { op := o, cookie := x.cookie, bufAddr := fld x.blk 16 0 64, bufLen := fld x.blk 40 0 32, srcConn := fld x.blk 44 0 20, tag := BitVec.ofNat 64 (fld x.blk 24 0 64), ignore := BitVec.ofNat 64 (fld x.blk 32 0 64) }
      ringOffer s d n (rowBlk b 0x22 []) c = some p →
      passes p.1 p.2 = true →
      ((ctxOf u d i q).unexp.find? fun y => recvMatches y.conn y.tag.toNat r && !y.headerBad) = none →
      exec (.recvPost (.ring d n) b c) s = .next (modOp (modCtx u d i q fun y => { y with posted := y.posted ++ [r] }) o fun y => { y with phase := .posted })) ∧
    (∀ (s : State) (d : Die) (n : Nat) (b : Block) (c : List Block) (p : State × Nat) (e : Unexp),
      let o := p.2
      let y := passed4 p.1 o
      let x := opOf y o
      let i := x.inst.getD 1024
      let q := fld x.blk 48 0 16
      let u := modOp y o fun z => { z with phase := .done }
      let r : Recv := { op := o, cookie := x.cookie, bufAddr := fld x.blk 16 0 64, bufLen := fld x.blk 40 0 32, srcConn := fld x.blk 44 0 20, tag := BitVec.ofNat 64 (fld x.blk 24 0 64), ignore := BitVec.ofNat 64 (fld x.blk 32 0 64) }
      ringOffer s d n (rowBlk b 0x22 []) c = some p →
      passes p.1 p.2 = true →
      ((ctxOf u d i q).unexp.find? fun y => recvMatches y.conn y.tag.toNat r && !y.headerBad) = some e →
      exec (.recvPost (.ring d n) b c) s = .next (takeUnexp u d i q o e)) ∧
    (∀ (s : State) (d : Die) (n : Nat) (b : Block) (c : List Block) (p : State × Nat) (r : Recv),
      let o := p.2
      let y := passed4 p.1 o
      let x := opOf y o
      let i := x.inst.getD 1024
      let q := fld x.blk 48 0 16
      let u := modOp y o fun z => { z with phase := .done }
      ringOffer s d n (rowBlk b 0x23 []) c = some p →
      passes p.1 p.2 = true →
      ((ctxOf u d i q).posted.find? fun r => decide (r.cookie = fld x.blk 16 0 64)) = some r →
      exec (.recvCancel (.ring d n) b c) s = .next (completeOp (completeOp (modCtx u d i q fun y => { y with posted := y.posted.filter fun e => decide (e.op ≠ r.op) }) r.op { code := 0x0E }) o { code := 0 })) ∧
    (∀ (s : State) (d : Die) (n : Nat) (b : Block) (c : List Block) (p : State × Nat),
      let o := p.2
      let y := passed4 p.1 o
      let x := opOf y o
      let i := x.inst.getD 1024
      let q := fld x.blk 48 0 16
      let u := modOp y o fun z => { z with phase := .done }
      ringOffer s d n (rowBlk b 0x24 []) c = some p →
      passes p.1 p.2 = true →
      exec (.ctxOpen (.ring d n) b c) s = .next (completeOp (modCtx u d i q fun y => { y with st := .opened }) o { code := 0 })) ∧
    (∀ (s : State) (d : Die) (n : Nat) (b : Block) (c : List Block) (p : State × Nat),
      let o := p.2
      let y := passed4 p.1 o
      let x := opOf y o
      let i := x.inst.getD 1024
      let q := fld x.blk 48 0 16
      let u := modOp y o fun z => { z with phase := .done }
      ringOffer s d n (rowBlk b 0x25 []) c = some p →
      passes p.1 p.2 = true →
      exec (.ctxDrain (.ring d n) b c) s = .next (modOp (modCtx u d i q fun y => { y with st := .draining }) o fun y => { y with phase := .ctxDrain })) ∧
    (∀ (s : State) (d : Die) (n : Nat) (b : Block) (c : List Block) (p : State × Nat),
      let o := p.2
      let y := passed4 p.1 o
      let x := opOf y o
      let i := x.inst.getD 1024
      let q := fld x.blk 48 0 16
      let u := modOp y o fun z => { z with phase := .done }
      ringOffer s d n (rowBlk b 0x26 []) c = some p →
      passes p.1 p.2 = true →
      exec (.ctxClose (.ring d n) b c) s = .next (modOp (closeCtx u d i q) o fun y => { y with phase := .ctxDrain })) ∧
    (∀ (s : State) (d : Die) (n : Nat) (b : Block) (c : List Block) (p : State × Nat),
      let o := p.2
      let y := passed4 p.1 o
      let x := opOf y o
      let u := modOp y o fun z => { z with phase := .done }
      ringOffer s d n (rowBlk b 0x60 []) c = some p →
      passes p.1 p.2 = true →
      exec (.nop (.ring d n) b c) s = .next (completeOp u o { code := 0 })) ∧
    (∀ (s : State) (d : Die) (n : Nat) (b : Block) (c : List Block) (p : State × Nat),
      let o := p.2
      let y := passed4 p.1 o
      let x := opOf y o
      let u := modOp y o fun z => { z with phase := .done }
      ringOffer s d n (rowBlk b 0x62 []) c = some p →
      passes p.1 p.2 = true →
      exec (.tallyWrite (.ring d n) b c) s = .next (completeOp (fireTriggers (setTally u (fld x.blk 16 0 24) { val := fld x.blk 20 0 48, sat := false }) (fld x.blk 16 0 24)) o { code := 0 })) ∧
    (∀ (s : State) (d : Die) (n : Nat) (b : Block) (c : List Block) (p : State × Nat),
      let o := p.2
      let y := passed4 p.1 o
      let x := opOf y o
      let u := modOp y o fun z => { z with phase := .done }
      ringOffer s d n (rowBlk b 0x63 []) c = some p →
      passes p.1 p.2 = true →
      exec (.tallyRead (.ring d n) b c) s = .next (completeOp u o { code := 0, result := (tally u (fld x.blk 16 0 24)).val + b2n (tally u (fld x.blk 16 0 24)).sat * 2 ^ 48 })) ∧
    (∀ (s : State) (d : Die) (n : Nat) (b : Block) (c : List Block) (p : State × Nat) (i : Nat) (g : Die × Nat),
      let o := p.2
      let y := passed4 p.1 o
      let x := opOf y o
      let u := modOp y o fun z => { z with phase := .done }
      ringOffer s d n (rowBlk b 0x64 []) c = some p →
      passes p.1 p.2 = true →
      x.inst = some i →
      findCmdRing u (.inst i) (fld x.blk 16 0 14) = some g →
      g ≠ (d, n) →
      (cmdRing u g.1 g.2).configured = true →
      (cmdRing u g.1 g.2).st ≠ .reset →
      exec (.ringReset (.ring d n) b c) s = .next (modCmdRing (ringToReset (modOp u o fun y => { y with phase := .ringReset }) g.1 g.2) g.1 g.2 fun r => { r with resetOps := r.resetOps ++ [o] })) ∧
    (∀ (s : State) (d : Die) (n : Nat) (b : Block) (c : List Block) (p : State × Nat),
      let o := p.2
      let x := opOf p.1 o
      let v := modOp p.1 o fun y => { y with phase := .armed, handle := p.1.nextOp }
      let w := modCmdRing { v with nextOp := v.nextOp + 1 } d n fun y => { y with outstanding := without y.outstanding o }
      ringOffer s d n (rowBlk b 0x80 []) c = some p →
      staticCheck p.1 x.inst d x.blk [] false = none →
      chainBit x.blk = false →
      opNeeds x = .complete →
      notDeferred (fld (x.chain.headD 0) 0 0 8) = false →
      staticCheck p.1 x.inst d (x.chain.headD 0) x.chain.tail true = none →
      trigRoom p.1 x = true →
      exec (.trigArm (.ring d n) b c) s = .next (fireTriggers (onDie w (tallyDie (fld x.blk 32 0 24)) fun y => { y with trigs := y.trigs ++ [{ op := o, inst := x.inst, ring := n, tally := fld x.blk 32 0 24, threshold := fld x.blk 24 0 48, tag := fld x.blk 30 0 16 }] }) (fld x.blk 32 0 24))) ∧
    (∀ (s : State) (d : Die) (n : Nat) (b : Block) (c : List Block) (p : State × Nat) (g : Trig),
      let o := p.2
      let y := passed4 p.1 o
      let x := opOf y o
      let u := modOp y o fun z => { z with phase := .done }
      ringOffer s d n (rowBlk b 0x81 []) c = some p →
      passes p.1 p.2 = true →
      ((die u (tallyDie (fld x.blk 16 0 24))).trigs.find? fun g => decide (g.tally = fld x.blk 16 0 24 ∧ g.tag = fld x.blk 20 0 16)) = some g →
      exec (.trigDisarm (.ring d n) b c) s = .next (completeOp (completeOp u g.op { code := 0x0E }) o { code := 0 }))

/-- A doorbell of a ring that the requester owns, outside Forensic: in IDLE, while the die may fetch, the ring enters ACTIVE and its
entry is read, and while it may not the doorbell is latched; in ACTIVE it sets the rescan flag and in PAUSED DB_LATCHED; in
RESET and HALTED it changes nothing of the ring's state. The read of the entry at the fetch point comes back: owned in ACTIVE
with a slot and room, it is consumed and the scan goes on; without, it waits; unowned, the scan begins again under the rescan
flag and else the ring is IDLE; a halt cause halts it, in ACTIVE and at a pause; at a pause an owned entry with a slot is
consumed and nothing more is read. A waiting entry whose slot or room has come is read again and consumed. Completes here:
doorbell, ringEntryFetch, ringConsumeRetry. Cites R82, R83, R84, R92, R99, R100. -/
def Obligations.DoorbellsAndEntryReadsAct : Prop :=
    (∀ (s : State) (w : Requester) (j : Nat) (d : Die) (n : Nat),
      let u := pmcHost (modCmdRing s d n fun r => { r with silent := false }) (ringLink s n (cmdRing s d n).inst).1 0 1
      findCmdRing s w j = some (d, n) →
      (cmdRing s d n).configured = true →
      forensic s = false →
      (cmdRing u d n).st = .idle →
      (cmdRing u d n).reading = false →
      canFetch u d = true →
      exec (.doorbell w j) s = .next (issueFetch (setRingSt u d n .active) d n)) ∧
    (∀ (s : State) (w : Requester) (j : Nat) (d : Die) (n : Nat),
      let u := pmcHost (modCmdRing s d n fun r => { r with silent := false }) (ringLink s n (cmdRing s d n).inst).1 0 1
      findCmdRing s w j = some (d, n) →
      (cmdRing s d n).configured = true →
      forensic s = false →
      (cmdRing u d n).st = .idle →
      canFetch u d = false →
      exec (.doorbell w j) s = .next (modCmdRing u d n fun r => { r with dbLatched := true })) ∧
    (∀ (s : State) (w : Requester) (j : Nat) (d : Die) (n : Nat),
      let u := pmcHost (modCmdRing s d n fun r => { r with silent := false }) (ringLink s n (cmdRing s d n).inst).1 0 1
      findCmdRing s w j = some (d, n) →
      (cmdRing s d n).configured = true →
      forensic s = false →
      ((cmdRing u d n).st = .active ∨ (cmdRing u d n).st = .paused) →
      exec (.doorbell w j) s = .next (modCmdRing u d n fun r => { r with dbLatched := true })) ∧
    (∀ (s : State) (w : Requester) (j : Nat) (d : Die) (n : Nat),
      let u := pmcHost (modCmdRing s d n fun r => { r with silent := false }) (ringLink s n (cmdRing s d n).inst).1 0 1
      findCmdRing s w j = some (d, n) →
      (cmdRing s d n).configured = true →
      forensic s = false →
      ((cmdRing u d n).st = .reset ∨ (cmdRing u d n).st = .halted) →
      exec (.doorbell w j) s = .next (u)) ∧
    (∀ (s : State) (d : Die) (n : Nat) (l : List ReadPart) (e : EntryRead) (t : State) (b : Block),
      let r := cmdRing t d n
      let u := modCmdRing t d n fun r => { r with reading := false }
      entryRead l = some e →
      takeReads s (.ring d n) (anyTimeout l) = some (true, t) →
      r.reading = true →
      canFetch u d = true →
      r.st = .active →
      judgeEntry r e = .owned b →
      ringRoom u d r = true →
      exec (.ringEntryFetch d n l) s = .next (issueFetch (ringConsume u d n b) d n)) ∧
    (∀ (s : State) (d : Die) (n : Nat) (l : List ReadPart) (e : EntryRead) (t : State) (b : Block),
      let r := cmdRing t d n
      let u := modCmdRing t d n fun r => { r with reading := false }
      entryRead l = some e →
      takeReads s (.ring d n) (anyTimeout l) = some (true, t) →
      r.reading = true →
      canFetch u d = true →
      r.st = .active →
      judgeEntry r e = .owned b →
      ringRoom u d r = false →
      exec (.ringEntryFetch d n l) s = .next (modCmdRing u d n fun r => { r with waiting := true })) ∧
    (∀ (s : State) (d : Die) (n : Nat) (l : List ReadPart) (e : EntryRead) (t : State),
      let r := cmdRing t d n
      let u := modCmdRing t d n fun r => { r with reading := false }
      entryRead l = some e →
      takeReads s (.ring d n) (anyTimeout l) = some (true, t) →
      r.reading = true →
      canFetch u d = true →
      r.st = .active →
      judgeEntry r e = .unowned →
      r.dbLatched = true →
      exec (.ringEntryFetch d n l) s = .next (issueFetch (modCmdRing u d n fun r => { r with dbLatched := false }) d n)) ∧
    (∀ (s : State) (d : Die) (n : Nat) (l : List ReadPart) (e : EntryRead) (t : State),
      let r := cmdRing t d n
      let u := modCmdRing t d n fun r => { r with reading := false }
      entryRead l = some e →
      takeReads s (.ring d n) (anyTimeout l) = some (true, t) →
      r.reading = true →
      canFetch u d = true →
      r.st = .active →
      judgeEntry r e = .unowned →
      r.dbLatched = false →
      exec (.ringEntryFetch d n l) s = .next (setRingSt u d n .idle)) ∧
    (∀ (s : State) (d : Die) (n : Nat) (l : List ReadPart) (e : EntryRead) (t : State) (k w : Nat),
      let r := cmdRing t d n
      let u := modCmdRing t d n fun r => { r with reading := false }
      entryRead l = some e →
      takeReads s (.ring d n) (anyTimeout l) = some (true, t) →
      r.reading = true →
      canFetch u d = true →
      (r.st = .active ∨ r.st = .paused) →
      judgeEntry r e = .halt k w →
      exec (.ringEntryFetch d n l) s = .next (ringHalt u d n k w)) ∧
    (∀ (s : State) (d : Die) (n : Nat) (l : List ReadPart) (e : EntryRead) (t : State) (b : Block),
      let r := cmdRing t d n
      let u := modCmdRing t d n fun r => { r with reading := false }
      entryRead l = some e →
      takeReads s (.ring d n) (anyTimeout l) = some (true, t) →
      r.reading = true →
      canFetch u d = true →
      r.st = .paused →
      judgeEntry r e = .owned b →
      ringRoom u d r = true →
      exec (.ringEntryFetch d n l) s = .next (ringConsume u d n b)) ∧
    (∀ (s : State) (d : Die) (n : Nat) (l : List ReadPart) (e : EntryRead) (t : State) (b : Block),
      let r := cmdRing t d n
      let u := modCmdRing t d n fun r => { r with reading := false }
      entryRead l = some e →
      takeReads s (.ring d n) (anyTimeout l) = some (true, t) →
      r.reading = true →
      canFetch u d = true →
      r.st = .paused →
      (judgeEntry r e = .unowned ∨ (judgeEntry r e = .owned b ∧ ringRoom u d r = false)) →
      exec (.ringEntryFetch d n l) s = .next (u)) ∧
    (∀ (s : State) (d : Die) (n : Nat) (l : List ReadPart) (e : EntryRead) (b : Block),
      let r := cmdRing s d n
      let t := modCmdRing s d n fun r => { r with waiting := false }
      let u := modCmdRing t d n fun r => { r with reading := false }
      entryRead l = some e →
      r.waiting = true →
      r.st = .active →
      ringRoom s d r = true →
      canFetch s d = true →
      canFetch u d = true →
      (cmdRing t d n).st = .active →
      ringRoom u d (cmdRing t d n) = true →
      judgeEntry (cmdRing t d n) e = .owned b →
      exec (.ringConsumeRetry d n l) s = .next (issueFetch (ringConsume u d n b) d n))

/-- An entry read without failure whose PHASE is the expected phase is owned when its SEQ is the expected SEQ and halts the ring
with SEQ_MISMATCH otherwise; one with the other phase halts it with LAPPED when its SEQ is the expected SEQ + 2^k modulo 2^24
and is unowned otherwise; a read that times out, is poisoned or fails halts it with FETCH_TIMEOUT, FETCH_POISON or FETCH_ERROR.
When such an entry at the fetch point of an ACTIVE or PAUSED ring comes back, the ring is HALTED with that HALT_CAUSE. Cites
R95, R96. -/
def Obligations.EntriesAreJudged : Prop :=
    (∀ (r : CmdRing) (b : Block), (fld b 1 0 1 == 1) = r.consPhase → fld b 2 0 24 = r.consSeq → judgeEntry r (.ok b) = .owned b) ∧
    (∀ (r : CmdRing) (b : Block), (fld b 1 0 1 == 1) = r.consPhase → fld b 2 0 24 ≠ r.consSeq → judgeEntry r (.ok b) = .halt 2 (fld b 0 0 64)) ∧
    (∀ (r : CmdRing) (b : Block), (fld b 1 0 1 == 1) ≠ r.consPhase → fld b 2 0 24 = (r.consSeq + 2 ^ r.log2) % 2 ^ 24 → judgeEntry r (.ok b) = .halt 1 (fld b 0 0 64)) ∧
    (∀ (r : CmdRing) (b : Block), (fld b 1 0 1 == 1) ≠ r.consPhase → fld b 2 0 24 ≠ (r.consSeq + 2 ^ r.log2) % 2 ^ 24 → judgeEntry r (.ok b) = .unowned) ∧
    (∀ r : CmdRing, judgeEntry r (.fail .timeout) = .halt 3 0 ∧ judgeEntry r (.fail .poison) = .halt 4 0 ∧ judgeEntry r (.fail .error) = .halt 5 0) ∧
    (∀ (s : State) (d : Die) (n : Nat) (l : List ReadPart) (e : EntryRead) (u : State) (k w : Nat),
      let r := cmdRing u d n
      entryRead l = some e → takeReads s (.ring d n) (anyTimeout l) = some (true, u) →
      r.reading = true → canFetch u d = true → (r.st = .active ∨ r.st = .paused) → judgeEntry r e = .halt k w → 0 < k →
      ∃ t, exec (.ringEntryFetch d n l) s = .next t ∧ (cmdRing t d n).st = .halted ∧ (cmdRing t d n).haltCause = k ∧
        (cmdRing t d n).consSeq = r.consSeq)

/-- Consuming an entry reserves one slot of the ring's completion ring with the next number of its reservation sequence, appends the
block to the undispatched commands, moves CONS_IDX to the next index modulo 2^k, inverts CONS_PHASE exactly when the index wraps
to 0, and raises CONS_SEQ by one modulo 2^24; other rings, the connections and the Tallies of the die stay. A head write whose
distance does not exceed the records written and not returned sets HEAD and LAP, returns that many slots and sets ARM; with ARM
= 1, INT_EN = 1 and a record already written at the new HEAD it clears ARM and raises the ring's interrupt source at once. A
larger distance leaves the ring as it is and posts EV_CQ_HEAD_BAD to the owner. The distance is taken modulo 2^(k+1). Completes
here: cqHeadWrite. Cites R78, R84, R90, R92, R93, R94. -/
def Obligations.SlotsAndFetchPointAdvance : Prop :=
    (∀ (s : State) (d : Die) (n : Nat) (b : Block),
      let r := cmdRing s d n
      let q := cqRing s d r.cq
      let t := ringConsume s d n b
      (cmdRing t d n).queue = r.queue ++ [{ blk := b, slot := q.resvSeq }] ∧
      (cmdRing t d n).consIdx = (r.consIdx + 1) % 2 ^ r.log2 ∧
      (cmdRing t d n).consPhase = (if r.consIdx + 1 = 2 ^ r.log2 then !r.consPhase else r.consPhase) ∧
      (cmdRing t d n).consSeq = (r.consSeq + 1) % 2 ^ 24 ∧
      (cmdRing t d n).st = r.st ∧
      (cqRing t d r.cq).reserved = q.reserved + 1 ∧ (cqRing t d r.cq).resvSeq = q.resvSeq + 1 ∧
      (cqRing t d r.cq).written = q.written ∧ (cqRing t d r.cq).tail = q.tail ∧
      (∀ m, m ≠ n → cmdRing t d m = cmdRing s d m) ∧ (∀ m, m ≠ r.cq → cqRing t d m = cqRing s d m) ∧
      (die t d).conns = (die s d).conns ∧ (die t d).tallies = (die s d).tallies ∧ t.ops = s.ops ∧ t.insts = s.insts) ∧
    (∀ (s : State) (w : Requester) (j : Nat) (v : BitVec 32) (d : Die) (m : Nat),
      let q := cqRing s d m
      let lap := bit v.toNat 20
      let head := bits v.toNat 0 20
      let dist := headDist q.log2 q.lap q.head lap head
      findCqRing s w j = some (d, m) →
      forensic s = false →
      dist ≤ q.written →
      (bit v.toNat 31 && q.intEn && decide (0 < q.written - dist)) = false →
      exec (.cqHeadWrite w j v) s = .next (modCq s d m fun q => { q with head := head, lap := lap, written := q.written - dist, arm := bit v.toNat 31 })) ∧
    (∀ (s : State) (w : Requester) (j : Nat) (v : BitVec 32) (d : Die) (m : Nat),
      let q := cqRing s d m
      let lap := bit v.toNat 20
      let head := bits v.toNat 0 20
      let dist := headDist q.log2 q.lap q.head lap head
      findCqRing s w j = some (d, m) →
      forensic s = false →
      dist ≤ q.written →
      bit v.toNat 31 = true →
      q.intEn = true →
      0 < q.written - dist →
      exec (.cqHeadWrite w j v) s = .next (raiseSource (modCq s d m fun q => { q with head := head, lap := lap, written := q.written - dist, arm := false }) d q.intSource)) ∧
    (∀ (s : State) (w : Requester) (j : Nat) (v : BitVec 32) (d : Die) (m : Nat),
      let q := cqRing s d m
      let lap := bit v.toNat 20
      let head := bits v.toNat 0 20
      let dist := headDist q.log2 q.lap q.head lap head
      findCqRing s w j = some (d, m) →
      forensic s = false →
      q.written < dist →
      m ≠ 0 →
      exec (.cqHeadWrite w j v) s = .next (postInst s q.inst 0x12 (evb 8 q.instRing + evb 12 v.toNat))) ∧
    (∀ (s : State) (w : Requester) (j : Nat) (v : BitVec 32) (d : Die) (m : Nat),
      let q := cqRing s d m
      let lap := bit v.toNat 20
      let head := bits v.toNat 0 20
      let dist := headDist q.log2 q.lap q.head lap head
      findCqRing s w j = some (d, m) →
      forensic s = false →
      q.written < dist →
      m = 0 →
      exec (.cqHeadWrite w j v) s = .next (postMgmt s d 0x12 (evb 12 v.toNat))) ∧
    (∀ (k : Nat) (lap lap' : Bool) (head head' : Nat), head < 2 ^ k → head' < 2 ^ k →
      headDist k lap head lap' head' < 2 ^ (k + 1) ∧
      headPos k lap' head' = (headPos k lap head + headDist k lap head lap' head') % 2 ^ (k + 1))

/-- RING_RESET_DONE of a ring in RESET whose commands all have records, with its halt slot held or one free: the ring is IDLE with
its halt slot and the waiting resets complete. After 10 ms without a free slot the waiting RING_RESETs complete with
CC_RESOURCE, SUBCAUSE 0x09. At its deadline the shadow word is written, unless the ring is silenced or its instance is
resetting. A level 0 to 2 ring that has held a dispatchable command longer than RNG_PRIO_AGE becomes aged. A command that has
waited 10 ms for a trigger slot, a cached context, an operation slot, its instance's MAX_OPS, an open context or posting room,
and still cannot go on, completes with CC_RESOURCE and the SUBCAUSE of what it waited for. Completes here: ringResetDone,
ringResetSlotTimeout, shadowTimer, ringAgeExpiry, trigSlotTimeout, connCacheWaitTimeout, opsSlotWaitTimeout, maxOpsWaitTimeout,
ctxOpenWaitTimeout, recvPostWaitTimeout. Cites R66, R86, R100, R102, R108, R114, R146, R165, R318, R479. -/
def Obligations.RingTimersAndWaitsAct : Prop :=
    (∀ (s : State) (d : Die) (n : Nat),
      let r := cmdRing s d n
      (n ≠ 0 ∨ mgmtDrained s = false) →
      ringMayLeaveReset s d n = true →
      r.releasing = false →
      r.haltSlot = true →
      r.resetLate = false →
      exec (.ringResetDone d n) s = .next (r.resetOps.foldl (fun s o => completeOp s o { code := 0 }) (modCmdRing (setRingSt s d n .idle) d n fun r => { r with resetOps := [], resetLate := false }))) ∧
    (∀ (s : State) (d : Die) (n : Nat),
      let r := cmdRing s d n
      (n ≠ 0 ∨ mgmtDrained s = false) →
      ringMayLeaveReset s d n = true →
      r.releasing = false →
      r.haltSlot = false →
      r.resetLate = false →
      0 < cqFree (cqRing s d r.cq) →
      exec (.ringResetDone d n) s = .next (r.resetOps.foldl (fun s o => completeOp s o { code := 0 }) (modCmdRing (setRingSt (modCmdRing (modCq s d r.cq fun q => { q with haltHeld := q.haltHeld + 1 }) d n fun r => { r with haltSlot := true }) d n .idle) d n fun r => { r with resetOps := [], resetLate := false }))) ∧
    (∀ (s : State) (d : Die) (n : Nat),
      let r := cmdRing s d n
      ringMayLeaveReset s d n = true →
      r.haltSlot = false →
      r.releasing = false →
      r.resetLate = false →
      cqFree (cqRing s d r.cq) = 0 →
      r.resetAt + 10000000 ≤ s.now →
      exec (.ringResetSlotTimeout d n) s = .next (r.resetOps.foldl (fun s o => failOp s o 0x0F 0x09) (modCmdRing s d n fun r => { r with resetOps := [], resetLate := true }))) ∧
    (∀ (s : State) (d : Die) (n k : Nat),
      let r := cmdRing s d n
      let u := modCmdRing s d n fun r => { r with advSince := 0, shadowDue := none }
      r.shadowDue = some k →
      k ≤ s.now →
      r.shadowEn = true →
      r.silent = false →
      hostSilent u (ringWho u d n) = false →
      exec (.shadowTimer d n) s = .next (emit u (.hostWrite (ringLink u n r.inst).1 (ringLink u n r.inst).2 r.shadowAddr (leBytes 8 (cmdStatus r))))) ∧
    (∀ (s : State) (d : Die) (n k : Nat),
      let r := cmdRing s d n
      r.readyAt = some k →
      n ≠ 0 →
      r.prio < 3 →
      r.queue ≠ [] →
      k + 1000 * bits (regVal s d 0xA80000) 0 16 < s.now →
      n ∉ (die s d).rings.aged →
      r.st ≠ .paused →
      (headFenced r = true → r.outstanding = []) →
      exec (.ringAgeExpiry d n) s = .next (onRings s d fun x => { x with aged := x.aged ++ [n] })) ∧
    (∀ (s : State) (o : Nat),
      (opOf s o).phase = .waitTrig →
      (opOf s o).since + 10000000 ≤ s.now →
      (opOf (retryOp s o) o).phase = .waitTrig →
      exec (.trigSlotTimeout o) s = .next (failOp s o 0x0F 0x06)) ∧
    (∀ (s : State) (o : Nat),
      (opOf s o).phase = .waitCache →
      (opOf s o).since + 10000000 ≤ s.now →
      (opOf (retryOp s o) o).phase = .waitCache →
      exec (.connCacheWaitTimeout o) s = .next (failOp s o 0x0F 0x07)) ∧
    (∀ (s : State) (o : Nat),
      (opOf s o).phase = .waitSlots →
      (opOf s o).since + 10000000 ≤ s.now →
      (opOf (retryOp s o) o).phase = .waitSlots →
      exec (.opsSlotWaitTimeout o) s = .next (failOp s o 0x0F 0x08)) ∧
    (∀ (s : State) (o : Nat),
      (opOf s o).phase = .waitMaxOps →
      (opOf s o).since + 10000000 ≤ s.now →
      (opOf (retryOp s o) o).phase = .waitMaxOps →
      exec (.maxOpsWaitTimeout o) s = .next (failOp s o 0x0F 0x05)) ∧
    (∀ (s : State) (o : Nat),
      (opOf s o).phase = .waitCtx →
      (opOf s o).since + 10000000 ≤ s.now →
      (opOf (retryOp s o) o).phase = .waitCtx →
      exec (.ctxOpenWaitTimeout o) s = .next (failOp s o 0x0F 0x03)) ∧
    (∀ (s : State) (o : Nat),
      (opOf s o).phase = .waitPosted →
      (opOf s o).since + 10000000 ≤ s.now →
      (opOf (retryOp s o) o).phase = .waitPosted →
      exec (.recvPostWaitTimeout o) s = .next (failOp s o 0x0F 0x01))

/-- Outside Forensic and reset, after waiting commands have tried again: with a free engine thread a whole Flume request runs, a
fired trigger's command runs, the management ring or an aged ring dispatches its next command, or the best level dispatches by
its rounds; without a free thread long commands of lower levels are asked to stop. Completes here: commandDispatch. Cites R71,
R106, R107, R108. -/
def Obligations.DispatchTakesTheBestWork : Prop :=
    (∀ (s : State) (d : Die) (l : Nat) (f : FlumeReq),
      let u := retryWaits s d
      forensic s = false →
      s.sys.inReset = false →
      (freeThreads u d).isEmpty = false →
      nextWork u d = some (.request f, l) →
      exec (.commandDispatch d) s = .next (flumeExec u d f)) ∧
    (∀ (s : State) (d : Die) (l o : Nat),
      let u := retryWaits s d
      forensic s = false →
      s.sys.inReset = false →
      (freeThreads u d).isEmpty = false →
      nextWork u d = some (.fired o, l) →
      exec (.commandDispatch d) s = .next (opRun u o)) ∧
    (∀ (s : State) (d : Die) (l n : Nat),
      let u := retryWaits s d
      forensic s = false →
      s.sys.inReset = false →
      (freeThreads u d).isEmpty = false →
      nextWork u d = some (.ring n, l) →
      exec (.commandDispatch d) s = .next (dispatchRing u d n [])) ∧
    (∀ (s : State) (d : Die) (l m : Nat),
      let u := retryWaits s d
      forensic s = false →
      s.sys.inReset = false →
      (freeThreads u d).isEmpty = false →
      nextWork u d = some (.level m, l) →
      exec (.commandDispatch d) s = .next (dispatchLevel u d m)) ∧
    (∀ (s : State) (d : Die) (l : Nat) (w : Work),
      let u := retryWaits s d
      forensic s = false →
      s.sys.inReset = false →
      (freeThreads u d).isEmpty = true →
      nextWork u d = some (w, l) →
      exec (.commandDispatch d) s = .next (preempt u d)) ∧
    (∀ (s : State) (d : Die), ((die s d).sch.flumeReqs.find? fun r => reqWhole r && !r.executing) = none → dispatchable s d 0 = true → nextWork s d = some (.ring 0, 5)) ∧
    (∀ (s : State) (d : Die) (n : Nat), ((die s d).sch.flumeReqs.find? fun r => reqWhole r && !r.executing) = none → dispatchable s d 0 = false → firedAt s d 4 = [] →
      ((die s d).rings.aged.find? fun m => dispatchable s d m) = some n → nextWork s d = some (.ring n, 4))

/-- A running long command whose source has been read stages the stride and stands at its boundary; at a boundary the last stride
leaves it DRAINING with its thread free, a cancellation completes it with the bytes acknowledged, a preemption suspends it and
frees its thread, and otherwise the next stride begins. A suspended command resumes when a thread is free and no better work
waits. A fetched extension block joins the chain and the fetch goes on; a failed one ends the command. Completes here:
strideBoundary, longCommandResume, extBlockFetch. Cites R49, R67, R68, R70, R72, R74. -/
def Obligations.StridesAndFetchesAct : Prop :=
    (∀ (s : State) (o c : Nat) (r : ReadDone),
      let x := opOf s o
      x.conn = some c →
      x.phase = .long .running →
      x.thread.isSome = true →
      x.begun = true →
      x.read = some r →
      exec (.strideBoundary o) s = .next (atBoundary (stageStride s o c r.bytes) o c)) ∧
    (∀ (s : State) (o c : Nat),
      let x := opOf s o
      x.conn = some c →
      x.phase = .long .running →
      x.thread.isSome = true →
      x.begun = false →
      x.cancel = false →
      x.strides ≤ x.nextStride →
      exec (.strideBoundary o) s = .next (retryWaits (deliverOps (connFree (freeThread (modOp s o fun x => { x with phase := .long .draining, preempt := false }) o) x.die c o) x.die c) x.die)) ∧
    (∀ (s : State) (o c : Nat),
      let x := opOf s o
      x.conn = some c →
      x.phase = .long .running →
      x.thread.isSome = true →
      x.begun = false →
      x.cancel = true →
      exec (.strideBoundary o) s = .next (retryWaits (completeOp s o { code := 0x0E, bytes := x.bytesAcked }) x.die)) ∧
    (∀ (s : State) (o c : Nat),
      let x := opOf s o
      x.conn = some c →
      x.phase = .long .running →
      x.thread.isSome = true →
      x.begun = false →
      x.nextStride < x.strides →
      x.cancel = false →
      x.preempt = true →
      exec (.strideBoundary o) s = .next (freeThread (modOp (pmcAt s x.die 643 1 (thrCtx x)) o fun x => { x with phase := .long .suspended, preempt := false }) o)) ∧
    (∀ (s : State) (o c : Nat),
      let x := opOf s o
      x.conn = some c →
      x.phase = .long .running →
      x.thread.isSome = true →
      x.begun = false →
      x.nextStride < x.strides →
      x.cancel = false →
      x.preempt = false →
      exec (.strideBoundary o) s = .next (beginStride s o)) ∧
    (∀ (s : State) (o : Nat) (w : Nat × Nat),
      let x := opOf s o
      x.phase = .long .suspended →
      (freeThreads s x.die).head? = some w →
      nextWork s x.die = none →
      forensic s = false →
      exec (.longCommandResume o) s = .next (runLong s o w)) ∧
    (∀ (s : State) (o l : Nat) (w : Nat × Nat) (k : Work),
      let x := opOf s o
      x.phase = .long .suspended →
      (freeThreads s x.die).head? = some w →
      nextWork s x.die = some (k, l) →
      l ≤ x.level →
      forensic s = false →
      exec (.longCommandResume o) s = .next (runLong s o w)) ∧
    (∀ (s : State) (o a h : Nat) (l : List ReadPart) (t : State) (b : Block),
      let x := opOf t o
      takeReads s (.op o) (anyTimeout l) = some (true, t) →
      entryRead l = some (.ok b) →
      x.phase = .fetching a h →
      opWalking t x.die o = false →
      exec (.extBlockFetch o l) s = .next (afterReads (chainStep (modOp t o fun x => { x with chain := x.chain ++ [b], phase := .fence, xl := [] }) o))) ∧
    (∀ (s : State) (o a h : Nat) (l : List ReadPart) (t : State) (f : ReadFail),
      let x := opOf t o
      takeReads s (.op o) (anyTimeout l) = some (true, t) →
      entryRead l = some (.fail f) →
      x.phase = .fetching a h →
      opWalking t x.die o = false →
      exec (.extBlockFetch o l) s = .next (afterReads (failOp t o (readFailCode f) 0x01)))

/-- A whole host read with every byte gives the running stride its source, sends an eager message, or feeds a collective; a failed
one ends what waited. A valid level-1 entry outside every aperture issues the level-2 read; a valid level-2 entry fills the TLB
and the waiting access goes on; an entry that is not VALID, with RSV set, or whose read failed gives CC_XLT_FAULT. An ATS
invalidation removes the matching answers and is completed. An ATS answer that refuses ends the access that waited with
CC_XLT_FAULT; one that gives a page fills the translation cache with it, unless its window has changed, and the access goes on.
An invalidation of a function without an instance is completed; of one with an instance, the cached answers that it covers go
first, and it is not completed while a host access issued under a cached answer of the instance is outstanding. Completes here:
hostReadComplete, tableWalkComplete, atsTranslationComplete, atsInvalidation. Cites R334, R335, R336, R339, R477. -/
def Obligations.HostTranslationsComplete : Prop :=
    (∀ (s : State) (o : Nat) (l : List ReadPart) (t : State),
      let x := opOf t o
      let rd := readOutcome l
      takeReads s (.op o) (anyTimeout l) = some (true, t) →
      opWalking t x.die o = false →
      rd.fail = none →
      rd.bytes.length = readLength x →
      x.phase = .long .running →
      x.begun = true →
      x.read = none →
      exec (.hostReadComplete o l) s = .next (afterReads (modOp t o fun x => { x with read := some rd }))) ∧
    (∀ (s : State) (o c : Nat) (l : List ReadPart) (t : State),
      let x := opOf t o
      let rd := readOutcome l
      takeReads s (.op o) (anyTimeout l) = some (true, t) →
      opWalking t x.die o = false →
      rd.fail = none →
      rd.bytes.length = readLength x →
      x.phase = .reading →
      x.conn = some c →
      exec (.hostReadComplete o l) s = .next (afterReads (sendEager t o c rd.bytes))) ∧
    (∀ (s : State) (o c : Nat) (l : List ReadPart) (t : State) (f : ReadFail),
      let x := opOf t o
      let rd := readOutcome l
      takeReads s (.op o) (anyTimeout l) = some (true, t) →
      opWalking t x.die o = false →
      rd.fail = some f →
      x.phase = .reading →
      x.conn = some c →
      exec (.hostReadComplete o l) s = .next (afterReads (failOp t o (readFailCode f) 0x01))) ∧
    (∀ (s : State) (d : Die) (n : Nat) (v : Word) (t : State) (w : Walk),
      let a := bits v.toNat 16 48 * 65536 + 8 * (w.page % 8192)
      let w2 : Walk := { w with level := 2, addr := a, e1 := v.toNat }
      takeReads s (.walk d n) (false) = some (true, t) →
      tget none (die t d).hst.walks n = some w →
      w.level = 1 →
      bit v.toNat 0 = true →
      bits v.toNat 2 14 = 0 →
      inAperture t (inst t w.inst).fn.port a = false →
      exec (.tableWalkComplete d n (.ok v)) s = .next (afterReads (issueWalk (onHst t d fun h => { h with walks := tset none h.walks n (some w2) }) n w2))) ∧
    (∀ (s : State) (d : Die) (n : Nat) (v : Word) (t : State) (w : Walk),
      let ps := pageShift w.snap
      let e : TlbEnt := { inst := w.inst, win := w.win, page := w.page, bus := v.toNat / 2 ^ ps * 2 ^ ps, noWrite := bit w.e1 1 || bit v.toNat 1, ats := none }
      takeReads s (.walk d n) (false) = some (true, t) →
      tget none (die t d).hst.walks n = some w →
      w.level = 2 →
      bit v.toNat 0 = true →
      bits v.toNat 2 (ps - 2) = 0 →
      exec (.tableWalkComplete d n (.ok v)) s = .next (afterReads (walkOver (walkGone (if w.stale then t else tlbFill t d e) d n) d w e))) ∧
    (∀ (s : State) (d : Die) (n : Nat) (r : WordRead) (t : State) (w : Walk),
      takeReads s (.walk d n) (decide (r = .fail .timeout)) = some (true, t) →
      tget none (die t d).hst.walks n = some w →
      w.level = 1 ∨ w.level = 2 →
      (∃ f, r = .fail f) ∨ (∃ v : Word, r = .ok v ∧ bit v.toNat 0 = false) →
      exec (.tableWalkComplete d n r) s = .next (afterReads (walkFails t d n w 0x04))) ∧
    (∀ (s : State) (d : Die) (n : Nat) (v : Word) (t : State) (w : Walk),
      takeReads s (.walk d n) (false) = some (true, t) →
      tget none (die t d).hst.walks n = some w →
      w.level = 1 →
      bit v.toNat 0 = true →
      bits v.toNat 2 14 = 0 →
      inAperture t (inst t w.inst).fn.port (bits v.toNat 16 48 * 65536 + 8 * (w.page % 8192)) = true →
      exec (.tableWalkComplete d n (.ok v)) s = .next (afterReads (walkFails t d n w 0x05))) ∧
    (∀ (s : State) (d : Die) (n : Nat) (w : Walk),
      tget none (die s d).hst.walks n = some w →
      w.level = 3 →
      exec (.atsTranslationComplete d n .refused) s = .next (afterReads (walkFails s d n w 0x04))) ∧
    (∀ (s : State) (d : Die) (n a : Nat) (rd wr : Bool) (w : Walk),
      let e : TlbEnt := { inst := w.inst, win := w.win, page := w.page, bus := a / 65536 * 65536, noWrite := false, ats := some (rd, wr) }
      tget none (die s d).hst.walks n = some w →
      w.level = 3 →
      w.stale = false →
      exec (.atsTranslationComplete d n (.page a rd wr)) s = .next (afterReads (walkOver (walkGone (tlbFill s d e) d n) d w e))) ∧
    (∀ (s : State) (f : FnId) (a n : Nat),
      (fnOf s f).inst = none →
      exec (.atsInvalidation f a n) s = .next (emit s (.atsInvDone f))) ∧
    (∀ (s : State) (f : FnId) (i a n : Nat), (fnOf s f).inst = some i →
      ∃ t, exec (.atsInvalidation f a n) s = .next t ∧
        (if s.reads.any (fun r => r.issued && r.ats && decide (r.who = i)) then t.out = s.out ∧ t.atsInvs = s.atsInvs ++ [f]
          else t.out = .atsInvDone f :: s.out ∧ t.atsInvs = s.atsInvs) ∧ (die t (instDie s i)).hst.tlb.Sublist (die s (instDie s i)).hst.tlb ∧
        (∀ e ∈ (die t (instDie s i)).hst.tlb, e.inst = i → e.ats.isSome = true →
          let w := tget {} (inst s i).wins e.win
          w.tabled = false ∧ (a + n ≤ w.target + 65536 * e.page ∨ w.target + 65536 * e.page + 65536 ≤ a)) ∧
        (∀ e ∈ (die s (instDie s i)).hst.tlb, e.inst ≠ i ∨ e.ats = none → e ∈ (die t (instDie s i)).hst.tlb))

/-- At a device with an identity, a connection packet for a station bound here to its instance and for the connection end that it
names: before EXPECTED it is a duplicate, discarded and answered; beyond EXPECTED + 4,095 it is dropped; a PSN already held is
acknowledged; any other is held and the held packets are applied in order from EXPECTED, and if it stays held an acknowledgement
goes. At a station that is not bound or does not serve its instance it is answered at once. The same holds of pull requests and
finish packets. Completes here: dataPacketArrive, pullRequest, finishPacket. Cites R20, R22, R129, R133, R160. -/
def Obligations.PacketsAreReceivedInOrder : Prop :=
    (∀ (s : State) (d : Die) (p : Pkt) (r : ReqPkt) (hr : TargetRead),
      bodyOf p = .req r →
      (isPull r.op || isFinish r.op) = false →
      s.ident.valid = true →
      stationBound s d (stnOf p.dst) = true →
      stationServes s d (stnOf p.dst) r.dstInst = true →
      connDie r.conn = d ∧ ((conn s d r.conn).st = .established ∨ (conn s d r.conn).st = .draining) ∧ (conn s d r.conn).peerConn = r.peer ∧
        (conn s d r.conn).remoteStation = p.src ∧ localAddr s d (conn s d r.conn) = p.dst ∧ (conn s d r.conn).tc = p.tc ∧
        (conn s d r.conn).remoteInst = r.srcInst ∧ (conn s d r.conn).inst = r.dstInst →
      psnBefore r.psn (conn s d r.conn).expected = true →
      exec (.dataPacketArrive d p hr) s = .next (answerDup s d r.conn r)) ∧
    (∀ (s : State) (d : Die) (p : Pkt) (r : ReqPkt) (hr : TargetRead),
      bodyOf p = .req r →
      (isPull r.op || isFinish r.op) = false →
      s.ident.valid = true →
      stationBound s d (stnOf p.dst) = true →
      stationServes s d (stnOf p.dst) r.dstInst = true →
      connDie r.conn = d ∧ ((conn s d r.conn).st = .established ∨ (conn s d r.conn).st = .draining) ∧ (conn s d r.conn).peerConn = r.peer ∧
        (conn s d r.conn).remoteStation = p.src ∧ localAddr s d (conn s d r.conn) = p.dst ∧ (conn s d r.conn).tc = p.tc ∧
        (conn s d r.conn).remoteInst = r.srcInst ∧ (conn s d r.conn).inst = r.dstInst →
      psnBefore r.psn (conn s d r.conn).expected = false →
      4095 < (r.psn - (conn s d r.conn).expected).toNat →
      exec (.dataPacketArrive d p hr) s = .next (s)) ∧
    (∀ (s : State) (d : Die) (p : Pkt) (r : ReqPkt) (hr : TargetRead),
      bodyOf p = .req r →
      (isPull r.op || isFinish r.op) = false →
      s.ident.valid = true →
      stationBound s d (stnOf p.dst) = true →
      stationServes s d (stnOf p.dst) r.dstInst = true →
      connDie r.conn = d ∧ ((conn s d r.conn).st = .established ∨ (conn s d r.conn).st = .draining) ∧ (conn s d r.conn).peerConn = r.peer ∧
        (conn s d r.conn).remoteStation = p.src ∧ localAddr s d (conn s d r.conn) = p.dst ∧ (conn s d r.conn).tc = p.tc ∧
        (conn s d r.conn).remoteInst = r.srcInst ∧ (conn s d r.conn).inst = r.dstInst →
      psnBefore r.psn (conn s d r.conn).expected = false →
      (r.psn - (conn s d r.conn).expected).toNat ≤ 4095 →
      (conn s d r.conn).held.any (fun h => decide (h.psn = r.psn)) = true →
      exec (.dataPacketArrive d p hr) s = .next (sendAck s d r.conn)) ∧
    (∀ (s : State) (d : Die) (p : Pkt) (r : ReqPkt) (hr : TargetRead),
      let t := drainHeld 8192 (holdPkt s d r.conn p r hr) d r.conn
      bodyOf p = .req r →
      (isPull r.op || isFinish r.op) = false →
      s.ident.valid = true →
      stationBound s d (stnOf p.dst) = true →
      stationServes s d (stnOf p.dst) r.dstInst = true →
      connDie r.conn = d ∧ ((conn s d r.conn).st = .established ∨ (conn s d r.conn).st = .draining) ∧ (conn s d r.conn).peerConn = r.peer ∧
        (conn s d r.conn).remoteStation = p.src ∧ localAddr s d (conn s d r.conn) = p.dst ∧ (conn s d r.conn).tc = p.tc ∧
        (conn s d r.conn).remoteInst = r.srcInst ∧ (conn s d r.conn).inst = r.dstInst →
      psnBefore r.psn (conn s d r.conn).expected = false →
      (r.psn - (conn s d r.conn).expected).toNat ≤ 4095 →
      (conn s d r.conn).held.any (fun h => decide (h.psn = r.psn)) = false →
      exec (.dataPacketArrive d p hr) s = .next (if (conn t d r.conn).held.any fun h => decide (h.psn = r.psn) then sendAck t d r.conn else t)) ∧
    (∀ (s : State) (d : Die) (p : Pkt) (r : ReqPkt) (hr : TargetRead),
      bodyOf p = .req r →
      (isPull r.op || isFinish r.op) = false →
      s.ident.valid = true →
      (stationBound s d (stnOf p.dst) && stationServes s d (stnOf p.dst) r.dstInst) = false →
      exec (.dataPacketArrive d p hr) s = .next (bounce s d p r .unbound)) ∧
    (∀ (s : State) (d : Die) (p : Pkt) (r : ReqPkt) (hr : TargetRead),
      let t := drainHeld 8192 (holdPkt s d r.conn p r hr) d r.conn
      bodyOf p = .req r →
      isPull r.op = true →
      s.ident.valid = true →
      stationBound s d (stnOf p.dst) = true →
      stationServes s d (stnOf p.dst) r.dstInst = true →
      connDie r.conn = d ∧ ((conn s d r.conn).st = .established ∨ (conn s d r.conn).st = .draining) ∧ (conn s d r.conn).peerConn = r.peer ∧
        (conn s d r.conn).remoteStation = p.src ∧ localAddr s d (conn s d r.conn) = p.dst ∧ (conn s d r.conn).tc = p.tc ∧
        (conn s d r.conn).remoteInst = r.srcInst ∧ (conn s d r.conn).inst = r.dstInst →
      psnBefore r.psn (conn s d r.conn).expected = false →
      (r.psn - (conn s d r.conn).expected).toNat ≤ 4095 →
      (conn s d r.conn).held.any (fun h => decide (h.psn = r.psn)) = false →
      exec (.pullRequest d p hr) s = .next (if (conn t d r.conn).held.any fun h => decide (h.psn = r.psn) then sendAck t d r.conn else t)) ∧
    (∀ (s : State) (d : Die) (p : Pkt) (r : ReqPkt),
      let t := drainHeld 8192 (holdPkt s d r.conn p r { bytes := [], fail := none }) d r.conn
      bodyOf p = .req r →
      isFinish r.op = true →
      s.ident.valid = true →
      stationBound s d (stnOf p.dst) = true →
      stationServes s d (stnOf p.dst) r.dstInst = true →
      connDie r.conn = d ∧ ((conn s d r.conn).st = .established ∨ (conn s d r.conn).st = .draining) ∧ (conn s d r.conn).peerConn = r.peer ∧
        (conn s d r.conn).remoteStation = p.src ∧ localAddr s d (conn s d r.conn) = p.dst ∧ (conn s d r.conn).tc = p.tc ∧
        (conn s d r.conn).remoteInst = r.srcInst ∧ (conn s d r.conn).inst = r.dstInst →
      psnBefore r.psn (conn s d r.conn).expected = false →
      (r.psn - (conn s d r.conn).expected).toNat ≤ 4095 →
      (conn s d r.conn).held.any (fun h => decide (h.psn = r.psn)) = false →
      exec (.finishPacket d p) s = .next (if (conn t d r.conn).held.any fun h => decide (h.psn = r.psn) then sendAck t d r.conn else t))

/-- Steps 3 to 6 of a target's checks, in order: an instance that is not RUNNING gives CC_ACCESS 0x05; a remote key of another
instance 0x01; a window that is not valid, or another nonce, 0x02; a right the window does not grant 0x03; a range past the end
of the window gives CC_BOUNDS 0x02; a remote Tally outside the instance's grants gives 0x04; an access that passes all of them
is not refused. Cites R126. -/
def Obligations.TargetChecksRunInOrder : Prop :=
    (∀ (s : State) (k : Conn) (key off total : Nat) (a : List Acc) (t : Option Nat),
      let x := inst s k.inst
      let w := tget {} x.wins (rkeyWin key)
      let c := remoteCheck s k key off total a t
      let known := x.st = .running ∧ rkeyInst key = k.inst
      let valid := known ∧ w.valid = true ∧ rkeyNonce key = w.nonce
      let granted := valid ∧ ∀ y ∈ a, winGrants w y = true
      let inside := granted ∧ (total = 0 ∨ off + total ≤ w.size * 65536)
      (x.st ≠ .running → c = some (.refuse 0x0B 0x05 0x1F 0)) ∧
      (x.st = .running → rkeyInst key ≠ k.inst → c = some (.refuse 0x0B 0x01 0x1F 0)) ∧
      (known → ¬valid → c = some (.refuse 0x0B 0x02 0x1F 0)) ∧
      (valid → ¬granted → c = some (.refuse 0x0B 0x03 0x1F 0)) ∧
      (granted → ¬inside → c = some (.refuse 0x06 0x02 0x1F 0)) ∧
      (inside → (∃ n, t = some n ∧ ∀ r ∈ x.tallies, ¬(r.1 ≤ n ∧ n < r.1 + r.2)) → c = some (.refuse 0x0B 0x04 0x1F 0)) ∧
      (inside → (∀ n, t = some n → ∃ r ∈ x.tallies, r.1 ≤ n ∧ n < r.1 + r.2) → c = none))

/-- The acknowledgement timer, when due, sends an acknowledgement; the flush timer starts a flush; a completed flush advances
VIS_PSN past what it covered, and with nothing left waiting lets it follow EXPECTED, else flushes again. At RTO expiry of a live
end each packet overdue is sent again, the window is cut once and unanswered read ranges are requested again. A packet larger
than the window is sent after its pacing interval. An end without progress for 2 s fails with CC_REMOTE, SUBCAUSE 0x04 after a
target that was resetting, else 0x03. A header told to wait is sent again at its time, and one refused for 10 ms is refused with
CC_RESOURCE, SUBCAUSE 0x02, with its event. At a station that serves the instance of the end, an acknowledgement for a live end
of its peer is taken; one that says the station is not bound ends its command and sends on, one that says the station has no
instance fails the connection with SUBCAUSE 0x02. A GET response for a live GET of its connection, whose local range translates,
is written and counted as placed. CTX_DRAIN completes when none of the context's sends is live and CTX_CLOSE when no matched
receive is left. Completes here: ackTimer, flushTimer, flushComplete, rtoExpiry, pacedSend, progressTimeout, rnrResend,
rnrLimitExpiry, ackReceive, getResponseArrive, ctxDrainDone. Cites R120, R130, R131, R132, R136, R141, R143, R144, R146, R166. -/
def Obligations.ConnectionsTimeAndAnswer : Prop :=
    (∀ (s : State) (d : Die) (c : Nat) (t : Nat),
      (conn s d c).ackAt = some t →
      t ≤ s.now →
      exec (.ackTimer d c) s = .next (sendAck s d c)) ∧
    (∀ (s : State) (d : Die) (c : Nat) (t : Nat),
      (conn s d c).flushDueAt = some t →
      t ≤ s.now →
      exec (.flushTimer d c) s = .next (startFlush s d c)) ∧
    (∀ (s : State) (d : Die) (c : Nat) (v : BitVec 32) (u : State),
      let t := visTo (modConn u d c fun k => { k with flushCover := none }) d c v
      takeReads s (.flush d c) false = some (true, u) →
      (conn u d c).flushCover = some v →
      exec (.flushComplete d c none) s = .next (if (conn t d c).awaitVis.isEmpty then visFollow t d c else startFlush t d c)) ∧
    (∀ (s : State) (d : Die) (c : Nat),
      let k := conn s d c
      (k.st = .established ∨ k.st = .draining) →
      rtoDue s d k = [] →
      exec (.rtoExpiry d c) s = .next (reRequest s d c)) ∧
    (∀ (s : State) (d : Die) (c : Nat),
      let k := conn s d c
      let l := rtoDue s d k
      (k.st = .established ∨ k.st = .draining) →
      l ≠ [] →
      exec (.rtoExpiry d c) s = .next (reRequest (lossCut (pmc (l.foldl (fun s p => resend s d c p true) s) d 455 l.length) d c) d c)) ∧
    (∀ (s : State) (d : Die) (c : Nat) (p : TxPkt) (l : List TxPkt),
      let k := conn s d c
      let t := transmit s d c p false
      k.waitTx = p :: l →
      k.cwnd < p.bytes →
      k.unacked.length < 4096 →
      k.lastSent + k.srtt * p.bytes / k.cwnd ≤ s.now →
      exec (.pacedSend d c) s = .next (modConn t d c fun y => { y with waitTx := l, unacked := y.unacked ++ [{ p with sentAt := t.now }], lastSent := t.now, progressAt := match y.progressAt with | some z => some z | none => some t.now })) ∧
    (∀ (s : State) (d : Die) (c : Nat) (t : Nat),
      let k := conn s d c
      (k.st = .established ∨ k.st = .draining) →
      k.progressAt = some t →
      t + 2000000000 ≤ s.now →
      exec (.progressTimeout d c) s = .next (failConn s d c 0x0A (if k.nak4At.isSome then 0x04 else 0x03) true)) ∧
    (∀ (s : State) (d : Die) (c : Nat) (q : BitVec 32) (p : TxPkt),
      let k := conn s d c
      k.rnrPsn = some q →
      k.rnrResendAt ≤ s.now →
      (k.unacked.find? fun p => decide (p.psn = q)) = some p →
      exec (.rnrResend d c) s = .next (resend (modConn s d c fun k => { k with rnrPsn := none }) d c p false)) ∧
    (∀ (s : State) (d : Die) (c : Nat) (t : Nat) (r : ReqPkt),
      let k := conn s d c
      let e := evb 8 (reqCtx r) + evb 10 k.inst + evb 12 c + evb 16 2
      k.rnrSince = some t →
      k.rnrHead = some r →
      t + 10000000 ≤ s.now →
      rnrStill s d c r = true →
      r.psn = k.expected →
      exec (.rnrLimitExpiry d c) s = .next (drainHeld 8192 (postInst (postMgmt (refusePkt s d c k.arrCtr r (.refuse 0x0F 0x02 0x1F 0)) d 0x30 e) k.inst 0x30 e) d c)) ∧
    (∀ (s : State) (d : Die) (p : Pkt) (a : AckPkt) (q : BitVec 32),
      bodyOf p = .ack a →
      ((conn s d a.conn).st = .established ∨ (conn s d a.conn).st = .draining) →
      (conn s d a.conn).peerConn = a.peer →
      connDie a.conn = d →
      stationTakes s d p (conn s d a.conn).inst = true →
      a.nak = some (q, .unbound) →
      exec (.ackReceive d p) s = .next (pumpConn (opUnbound (pmc s d 457 1) d a.conn q) d a.conn)) ∧
    (∀ (s : State) (d : Die) (p : Pkt) (a : AckPkt) (q : BitVec 32),
      bodyOf p = .ack a →
      ((conn s d a.conn).st = .established ∨ (conn s d a.conn).st = .draining) →
      (conn s d a.conn).peerConn = a.peer →
      connDie a.conn = d →
      stationTakes s d p (conn s d a.conn).inst = true →
      a.nak = some (q, .absent) →
      exec (.ackReceive d p) s = .next (failConn (pmc s d 457 1) d a.conn 0x0A 0x02 true)) ∧
    (∀ (s : State) (d : Die) (p : Pkt) (a : AckPkt),
      bodyOf p = .ack a →
      ((conn s d a.conn).st = .established ∨ (conn s d a.conn).st = .draining) →
      (conn s d a.conn).peerConn = a.peer →
      connDie a.conn = d →
      stationTakes s d p (conn s d a.conn).inst = true →
      a.nak = none →
      exec (.ackReceive d p) s = .next (ackReceive s d a)) ∧
    (∀ (s : State) (d : Die) (p : Pkt) (r : RespPkt) (l : List (Nat × Nat)),
      let k := conn s d r.conn
      let x := opOf s r.handle
      let t := writePieces s (x.inst.getD 1024) (fld (opBlk x) 16 0 64 + r.off) l r.data
      bodyOf p = .resp r →
      (k.st = .established ∨ k.st = .draining) →
      k.remoteStation = p.src →
      (inst s k.inst).st ≠ .resetting →
      stationTakes s d p k.inst = true →
      r.pull = false →
      opcode x = 0x03 →
      x.conn = some r.conn →
      x.die = d →
      xltRange s (k.xl ++ x.xl) (x.inst.getD 1024) .lw (.target r.conn) (fld (opBlk x) 16 0 64 + r.off) r.data.length = .ok l →
      exec (.getResponseArrive d p) s = .next (getDone (modOp t r.handle fun y => { y with placed := addNew y.placed (r.off, r.data.length), since := t.now }) r.handle)) ∧
    (∀ (s : State) (o : Nat),
      (opOf s o).phase = .ctxDrain →
      opcode (opOf s o) = 0x25 →
      sendsLive s (opOf s o).die ((opOf s o).inst.getD 1024) (fld (opBlk (opOf s o)) 48 0 16) = false →
      exec (.ctxDrainDone o) s = .next (completeOp s o { code := 0 })) ∧
    (∀ (s : State) (o : Nat),
      let y := ctxOf s (opOf s o).die ((opOf s o).inst.getD 1024) (fld (opBlk (opOf s o)) 48 0 16)
      (opOf s o).phase = .ctxDrain →
      opcode (opOf s o) ≠ 0x25 →
      y.matched = [] →
      exec (.ctxDrainDone o) s = .next (completeOp s o { code := 0 }))

/-- At a station that is bound and serves the instance: a PENDING end that receives a CONNECT or CONNECT_ACK whose descriptor
mirrors its own becomes ESTABLISHED with the peer's initial PSN, a CONNECT being answered; one that does not mirror posts
EV_CONN_MISMATCH with the fields that disagree. An ESTABLISHED end answers a mirroring CONNECT again. TEARDOWN or CLOSE from its
peer fails an ESTABLISHED or DRAINING end with SUBCAUSE 0x05. A PENDING end resends CONNECT every 1 ms. A DRAINING end whose
commands all have records sends CLOSE and is erased; a FAILED one that came from DRAINING is erased. Completes here:
connectReceive, teardownReceive, connectResend, connDrainDone. Cites R112, R113. -/
def Obligations.ConnectionsOpenAndClose : Prop :=
    (∀ (s : State) (d : Die) (p : Pkt) (q : CtlPkt),
      let c := q.peerConn
      let k := conn s d c
      bodyOf p = .ctl q →
      q.kind = .connect →
      stationTakes s d p q.remoteInst = true →
      k.st = .pending →
      mirrorBits s d c q = 0 →
      exec (.connectReceive d p) s = .next (connUp (modConn (sendConnCtl s d c .connectAck) d c fun k => { k with expected := q.psn, vis := q.psn, expKnown := true }) d c)) ∧
    (∀ (s : State) (d : Die) (p : Pkt) (q : CtlPkt),
      let c := q.peerConn
      let k := conn s d c
      bodyOf p = .ctl q →
      q.kind = .connectAck →
      stationTakes s d p q.remoteInst = true →
      k.st = .pending →
      mirrorBits s d c q = 0 →
      exec (.connectReceive d p) s = .next (connUp (modConn s d c fun k => { k with expected := q.psn, vis := q.psn, expKnown := true }) d c)) ∧
    (∀ (s : State) (d : Die) (p : Pkt) (q : CtlPkt),
      let c := q.peerConn
      let k := conn s d c
      bodyOf p = .ctl q →
      (q.kind = .connect ∨ q.kind = .connectAck) →
      stationTakes s d p q.remoteInst = true →
      k.st = .pending →
      mirrorBits s d c q ≠ 0 →
      exec (.connectReceive d p) s = .next (postMgmt s d 0x21 (evb 8 c + evb 12 q.station + evb 16 q.conn + evb 20 q.inst + evb 22 (q.tc + 4 * q.mtu) + evb 23 (mirrorBits s d c q)))) ∧
    (∀ (s : State) (d : Die) (p : Pkt) (q : CtlPkt),
      let c := q.peerConn
      let k := conn s d c
      bodyOf p = .ctl q →
      q.kind = .connect →
      stationTakes s d p q.remoteInst = true →
      k.st = .established →
      mirrorBits s d c q = 0 →
      exec (.connectReceive d p) s = .next (sendConnCtl s d c .connectAck)) ∧
    (∀ (s : State) (d : Die) (p : Pkt) (q : CtlPkt),
      let c := q.peerConn
      let k := conn s d c
      bodyOf p = .ctl q →
      (q.kind = .teardown ∨ q.kind = .close) →
      stationTakes s d p k.inst = true →
      (k.st = .established ∨ k.st = .draining) →
      k.peerConn = q.conn →
      exec (.teardownReceive d p) s = .next (failConn s d c 0x0A 0x05 false)) ∧
    (∀ (s : State) (d : Die) (c : Nat),
      let k := conn s d c
      k.st = .pending →
      k.connectAt + 1000000 ≤ s.now →
      exec (.connectResend d c) s = .next (sendConnCtl (modConn s d c fun k => { k with connectAt := s.now }) d c .connect)) ∧
    (∀ (s : State) (d : Die) (c : Nat),
      let k := conn s d c
      k.st = .draining →
      k.ops = [] →
      k.sides = [] →
      filling s d c = false →
      exec (.connDrainDone d c) s = .next (dropUnexp (eraseConn (sendConnCtl s d c .close) d c) d c)) ∧
    (∀ (s : State) (d : Die) (c : Nat),
      let k := conn s d c
      k.st = .failed →
      k.fromDraining = true →
      k.ops = [] →
      exec (.connDrainDone d c) s = .next (eraseConn s d c))

/-- A sample at or below the target delay adds AI times the bytes newly acknowledged divided by the window; one above it, at least
srtt after the last cut, takes off the fraction BETA times the excess over the sample, at most MAX_MD, in 1/256, and notes the
cut; one above it sooner changes neither window nor cut; the result is held between CWND_MIN and CWND_MAX. A loss cuts by
MAX_MD, at most once per srtt. Cites R134. -/
def Obligations.TheWindowFollowsR134 : Prop :=
    (∀ (s : State) (d : Die) (k : Conn) (rtt acked : Nat), cwndMin s d ≤ cwndMax s d →
      let t := ccTarget s d k.tc
      let f := min (ccBeta s d k.tc * (rtt - t) / rtt) (ccMaxMd s d k.tc)
      let w := ccOnAck s d k rtt acked
      cwndMin s d ≤ w.cwnd ∧ w.cwnd ≤ cwndMax s d ∧
      (rtt ≤ t → w = { k with cwnd := clamp (k.cwnd + ccAi s d k.tc * acked / k.cwnd) (cwndMin s d) (cwndMax s d) }) ∧
      (t < rtt → k.srtt ≤ s.now - k.lastCut → w = { k with cwnd := clamp (k.cwnd - k.cwnd * f / 256) (cwndMin s d) (cwndMax s d), lastCut := s.now }) ∧
      (t < rtt → s.now - k.lastCut < k.srtt → w = { k with cwnd := clamp k.cwnd (cwndMin s d) (cwndMax s d) })) ∧
    (∀ (s : State) (d : Die) (k : Conn),
      (s.now - k.lastCut < k.srtt → ccOnLoss s d k = k) ∧
      (k.srtt ≤ s.now - k.lastCut → ccOnLoss s d k = { k with cwnd := clamp (k.cwnd - k.cwnd * ccMaxMd s d k.tc / 256) (cwndMin s d) (cwndMax s d), lastCut := s.now }))

/-- At an installed node of the packet's generation: a child node's contribution is acknowledged and enters the fold, is counted as
a duplicate when its sequence is over or its child's bit is set, and is answered with the abort when the context is ABORTED; a
parent's result is acknowledged and spread, or counted as a duplicate; a parent's acknowledgement releases the held partial, a
child's marks the result as held by it; an abort from the parent or a child aborts with its sub-cause, leaving their results the
sequences that were rounded. A partial unacknowledged for BND_CTL.RESEND is sent again on the same path, and a result to every
child node that has not acknowledged it. A relay packet for another router, sent through this one, is sent on along its route
and nothing is folded. A READY node that is busy aborts with sub-cause 0x04 when its backup has not answered for 2 s, and with
0x02 when a child and every relay from it have been lost for 2 s. Completes here: bndContribution, bndResult, bndAck,
bndAbortReceive, bndResend, bndRelayPacket, bndBackupTimeout. Cites R196, R197, R198, R200, R201. -/
def Obligations.TheBinderyActs : Prop :=
    (∀ (s : State) (d : Die) (p : BndPkt) (t : Tree) (h : BndHead) (es : List BndElem) (ms : List (Nat × List Nat)),
      let v := learnRelay s d p.cctx t p
      let x := bndCtx v d p.cctx
      let u := bndDown v d p.cctx t p.child p.seq p.seg .ackUp
      bndFor s d p = some t →
      p.body = .partialUp h es ms →
      childIs t p.child p.src = true →
      (bndCtx s d p.cctx).st ≠ .uninstalled →
      x.nextSeq ≤ p.seq →
      (∀ y, findSeg x p.seq p.seg = some y → y.held.any (fun k => decide (k.child = p.child)) = false) →
      x.st ≠ .aborted →
      exec (.bndContribution d p) s = .next (contribute u d p.cctx t p.seq p.seg p.child h es ms)) ∧
    (∀ (s : State) (d : Die) (p : BndPkt) (t : Tree) (h : BndHead) (es : List BndElem) (ms : List (Nat × List Nat)),
      let v := learnRelay s d p.cctx t p
      let x := bndCtx v d p.cctx
      let u := bndDown v d p.cctx t p.child p.seq p.seg .ackUp
      bndFor s d p = some t →
      p.body = .partialUp h es ms →
      childIs t p.child p.src = true →
      (bndCtx s d p.cctx).st ≠ .uninstalled →
      x.nextSeq ≤ p.seq →
      (∀ y, findSeg x p.seq p.seg = some y → y.held.any (fun k => decide (k.child = p.child)) = false) →
      x.st = .aborted →
      exec (.bndContribution d p) s = .next (bndDown v d p.cctx t p.child p.seq 0 (.abort x.abortCause (keptSeqs x t false [])))) ∧
    (∀ (s : State) (d : Die) (p : BndPkt) (t : Tree) (h : BndHead) (es : List BndElem) (ms : List (Nat × List Nat)),
      let v := learnRelay s d p.cctx t p
      let x := bndCtx v d p.cctx
      let u := bndDown v d p.cctx t p.child p.seq p.seg .ackUp
      bndFor s d p = some t →
      p.body = .partialUp h es ms →
      childIs t p.child p.src = true →
      (bndCtx s d p.cctx).st ≠ .uninstalled →
      p.seq < x.nextSeq →
      exec (.bndContribution d p) s = .next (bndDup u d)) ∧
    (∀ (s : State) (d : Die) (p : BndPkt) (t : Tree) (h : BndHead) (es : List BndElem) (ms : List (Nat × List Nat)) (y : Seg),
      let v := learnRelay s d p.cctx t p
      let x := bndCtx v d p.cctx
      let u := bndDown v d p.cctx t p.child p.seq p.seg .ackUp
      bndFor s d p = some t →
      p.body = .partialUp h es ms →
      childIs t p.child p.src = true →
      (bndCtx s d p.cctx).st ≠ .uninstalled →
      findSeg x p.seq p.seg = some y →
      y.held.any (fun k => decide (k.child = p.child)) = true →
      exec (.bndContribution d p) s = .next (bndDup u d)) ∧
    (∀ (s : State) (d : Die) (p : BndPkt) (t : Tree) (h : BndHead) (raw : List Nat) (an ao : Bool) (y : Seg),
      let v := modBnd s d p.cctx fun x => { x with backupDownAt := none }
      let u := bndUp v d p.cctx t p.seq p.seg .ackDown
      let x := bndCtx u d p.cctx
      bndFor s d p = some t →
      p.body = .result h raw an ao →
      p.src = t.parent →
      t.root = false →
      (bndCtx s d p.cctx).st ≠ .uninstalled →
      findSeg x p.seq p.seg = some y →
      y.result = none →
      exec (.bndResult d p) s = .next (spreadResult u d p.cctx t p.seq p.seg p.body)) ∧
    (∀ (s : State) (d : Die) (p : BndPkt) (t : Tree) (h : BndHead) (raw : List Nat) (an ao : Bool) (y : Seg),
      let v := modBnd s d p.cctx fun x => { x with backupDownAt := none }
      let u := bndUp v d p.cctx t p.seq p.seg .ackDown
      let x := bndCtx u d p.cctx
      bndFor s d p = some t →
      p.body = .result h raw an ao →
      p.src = t.parent →
      t.root = false →
      (bndCtx s d p.cctx).st ≠ .uninstalled →
      findSeg x p.seq p.seg = some y →
      y.result.isSome = true →
      exec (.bndResult d p) s = .next (bndDup u d)) ∧
    (∀ (s : State) (d : Die) (p : BndPkt) (t : Tree) (h : BndHead) (raw : List Nat) (an ao : Bool),
      let v := modBnd s d p.cctx fun x => { x with backupDownAt := none }
      let u := bndUp v d p.cctx t p.seq p.seg .ackDown
      let x := bndCtx u d p.cctx
      bndFor s d p = some t →
      p.body = .result h raw an ao →
      p.src = t.parent →
      t.root = false →
      (bndCtx s d p.cctx).st ≠ .uninstalled →
      findSeg x p.seq p.seg = none →
      p.seq < x.nextSeq →
      exec (.bndResult d p) s = .next (bndDup u d)) ∧
    (∀ (s : State) (d : Die) (p : BndPkt) (t : Tree),
      let v := modBnd s d p.cctx fun x => { x with backupDownAt := none }
      bndFor s d p = some t →
      p.body = .ackUp →
      p.src = t.parent →
      exec (.bndAck d p) s = .next (bndTidy 64 (modSeg v d p.cctx p.seq p.seg fun y => { y with partialBody := none }) d p.cctx t)) ∧
    (∀ (s : State) (d : Die) (p : BndPkt) (t : Tree),
      let v := learnRelay s d p.cctx t p
      bndFor s d p = some t →
      p.body = .ackDown →
      childIs t p.child p.src = true →
      exec (.bndAck d p) s = .next (bndTidy 64 (modSeg v d p.cctx p.seq p.seg fun y => { y with acked := addNew y.acked p.child }) d p.cctx t)) ∧
    (∀ (s : State) (d : Die) (p : BndPkt) (t : Tree) (sub : Nat) (kept : List Nat),
      let v := modBnd s d p.cctx fun x => { x with backupDownAt := none }
      let x := bndCtx v d p.cctx
      bndFor s d p = some t →
      p.body = .abort sub kept →
      t.root = false →
      p.src = t.parent →
      x.st = .ready →
      exec (.bndAbortReceive d p) s = .next (bndAbort v d p.cctx t p.seq sub (keptSeqs x t true kept))) ∧
    (∀ (s : State) (d : Die) (p : BndPkt) (t : Tree) (sub : Nat) (kept : List Nat),
      let x := bndCtx s d p.cctx
      bndFor s d p = some t →
      p.body = .abort sub kept →
      (t.root = true ∨ p.src ≠ t.parent) →
      childIs t p.child p.src = true →
      x.st = .ready →
      exec (.bndAbortReceive d p) s = .next (bndAbort s d p.cctx t p.seq sub (keptSeqs x t false []))) ∧
    (∀ (s : State) (d : Die) (c q g : Nat) (t : Tree) (y : Seg) (b : BndBody),
      treeOf s d c = some t →
      findSeg (bndCtx s d c) q g = some y →
      y.partialBody = some b →
      y.result = none →
      y.sentAt + bndResendNs s d ≤ s.now →
      exec (.bndResend d c q g) s = .next (bndUp (modSeg s d c y.seq y.seg fun y => { y with sentAt := s.now }) d c t y.seq y.seg b)) ∧
    (∀ (s : State) (d : Die) (c q g : Nat) (t : Tree) (y : Seg) (b : BndBody),
      treeOf s d c = some t →
      findSeg (bndCtx s d c) q g = some y →
      y.partialBody = none →
      y.result = some b →
      y.resultAt + bndResendNs s d ≤ s.now →
      exec (.bndResend d c q g) s = .next (((List.range t.children.length).filter fun i => !(decide (i ∈ y.acked)) && (match t.children[i]? with | some k => !k.member | none => false)).foldl (fun s i => bndDown s d c t i y.seq y.seg b) (modSeg s d c y.seq y.seg fun y => { y with resultAt := s.now }))) ∧
    (∀ (s : State) (d : Die) (p : BndPkt),
      p.relay = true →
      p.via = routerAddr s d →
      p.dst ≠ routerAddr s d →
      exec (.bndRelayPacket d p) s = .next (pmc (emit s (.toRoute d (bndPkt s d p.dst p))) d 580 1)) ∧
    (∀ (s : State) (d : Die) (c a : Nat) (t : Tree),
      let x := bndCtx s d c
      treeOf s d c = some t →
      x.st = .ready →
      x.backupDownAt = some a →
      a + 2000000000 ≤ s.now →
      bndBusy x = true →
      exec (.bndBackupTimeout d c) s = .next (bndAbort s d c t (oldestSeq x) 0x04 (keptSeqs x t true []))) ∧
    (∀ (s : State) (d : Die) (c : Nat) (t : Tree) (e : Nat × Nat),
      let x := bndCtx s d c
      treeOf s d c = some t →
      x.st = .ready →
      x.backupDownAt = none →
      e ∈ x.childDown →
      e.2 + 2000000000 ≤ s.now →
      bndBusy x = true →
      exec (.bndBackupTimeout d c) s = .next (bndAbort s d c t (oldestSeq x) 0x02 (keptSeqs x t false [])))

/-- At a device with an identity the source router stamps SRC, then: a packet for its own router is handed over there with ORD 0; a
Bindery packet takes its tree edge or relay; one for a station absent in its group is refused; a Flume packet, a notice and a
packet that touches a forerunner is routed deterministically with ORD 0; one whose flow is cooling, whose class is not sprayed
or that no flow state has room for is numbered where it can be and routed deterministically; any other is numbered and sprayed.
A transit router drops and counts a malformed packet, reports and answers one whose next hop is absent, and sends any other to
its next hop; a Flume packet of form 2 goes to its station. Completes here: packetRouteSource, packetForward. Cites R21, R206,
R215, R216, R222, R228. -/
def Obligations.RoutersChooseAPath : Prop :=
    (∀ (s : State) (d : Die) (p : Pkt) (port : Nat),
      form2Port p = some port →
      exec (.packetRouteSource d p) s = .next (flumeOutPort s d { p with src := routerAddr s d } port)) ∧
    (∀ (s : State) (d : Die) (p : Pkt),
      let q := { p with src := routerAddr s d + stnOf p.src }
      let n := numberPkt s d q
      form2Port p = none →
      s.ident.valid = true →
      routerPart p.dst = routerAddr s d →
      exec (.packetRouteSource d p) s = .next (emit s (arrived d { q with ord := false }))) ∧
    (∀ (s : State) (d : Die) (p : Pkt) (b : BndPkt),
      let q := { p with src := routerAddr s d + stnOf p.src }
      let n := numberPkt s d q
      form2Port p = none →
      s.ident.valid = true →
      routerPart p.dst ≠ routerAddr s d →
      bodyOf q = .bnd b →
      exec (.packetRouteSource d p) s = .next (routeBnd s d { q with ord := false, start := false, fseq := 0 } b)) ∧
    (∀ (s : State) (d : Die) (p : Pkt),
      let q := { p with src := routerAddr s d + stnOf p.src }
      let n := numberPkt s d q
      form2Port p = none →
      s.ident.valid = true →
      routerPart p.dst ≠ routerAddr s d →
      (∀ b, bodyOf q ≠ .bnd b) →
      ownDie s p.dst ≠ some d.other →
      destAbsent s d p.dst = true →
      exec (.packetRouteSource d p) s = .next (refuseAbsent s d q)) ∧
    (∀ (s : State) (d : Die) (p : Pkt),
      let q := { p with src := routerAddr s d + stnOf p.src }
      let n := numberPkt s d q
      form2Port p = none →
      s.ident.valid = true →
      routerPart p.dst ≠ routerAddr s d →
      (∀ b, bodyOf q ≠ .bnd b) →
      (ownDie s p.dst = some d.other ∨ destAbsent s d p.dst = false) →
      (neverOrd q = true ∨ touchesFore s d q = true) →
      exec (.packetRouteSource d p) s = .next (routeDet s d { q with ord := false, start := false, fseq := 0 })) ∧
    (∀ (s : State) (d : Die) (p : Pkt),
      let q := { p with src := routerAddr s d + stnOf p.src }
      let n := numberPkt s d q
      form2Port p = none →
      s.ident.valid = true →
      routerPart p.dst ≠ routerAddr s d →
      (∀ b, bodyOf q ≠ .bnd b) →
      (ownDie s p.dst = some d.other ∨ destAbsent s d p.dst = false) →
      neverOrd q = false →
      touchesFore s d q = false →
      (cooling s (flowOf s d (pktFlow q)) = true ∨ bit (regVal s d 0xF00000) q.tc = false ∨ n.2.ord = false) →
      exec (.packetRouteSource d p) s = .next (routeDet n.1 d n.2)) ∧
    (∀ (s : State) (d : Die) (p : Pkt),
      let q := { p with src := routerAddr s d + stnOf p.src }
      let n := numberPkt s d q
      form2Port p = none →
      s.ident.valid = true →
      routerPart p.dst ≠ routerAddr s d →
      (∀ b, bodyOf q ≠ .bnd b) →
      (ownDie s p.dst = some d.other ∨ destAbsent s d p.dst = false) →
      neverOrd q = false →
      touchesFore s d q = false →
      cooling s (flowOf s d (pktFlow q)) = false →
      bit (regVal s d 0xF00000) q.tc = true →
      n.2.ord = true →
      exec (.packetRouteSource d p) s = .next (routeSpray n.1 d n.2)) ∧
    (∀ (s : State) (d : Die) (p : Pkt) (i : Ingress),
      let u := takeBridge s d p i
      (p.kind = 3 ∨ p.rsv ≠ 0 ∨ (p.chan16 = true ∧ 1 < p.len)) →
      exec (.packetForward d i p) s = .next (dropMalformed u d i p)) ∧
    (∀ (s : State) (d : Die) (p : Pkt) (i : Ingress) (f : FlumePkt),
      let u := takeBridge s d p i
      p.kind ≠ 3 →
      p.rsv = 0 →
      (p.chan16 = true → p.len ≤ 1) →
      flumeOf p = some f →
      f.form = 2 →
      exec (.packetForward d i p) s = .next (emit u (.toStation d p))) ∧
    (∀ (s : State) (d : Die) (p : Pkt) (i : Ingress),
      let u := takeBridge s d p i
      p.kind ≠ 3 →
      p.rsv = 0 →
      (p.chan16 = true → p.len ≤ 1) →
      (∀ f, flumeOf p = some f → f.form ≠ 2) →
      u.ident.valid = true →
      nextHop u d p = .absent →
      exec (.packetForward d i p) s = .next (answerAbsent (rteDrop u d p 0x7D) d p)) ∧
    (∀ (s : State) (d : Die) (p : Pkt) (i : Ingress),
      let u := takeBridge s d p i
      p.kind ≠ 3 →
      p.rsv = 0 →
      (p.chan16 = true → p.len ≤ 1) →
      (∀ f, flumeOf p = some f → f.form ≠ 2) →
      u.ident.valid = true →
      nextHop u d p ≠ .absent →
      exec (.packetForward d i p) s = .next (sendHop u d none (nextHop u d p) p))

/-- At a SYNCED flow entry a packet that is not held already: at distance 0 from NEXT it is delivered, NEXT advances and held
packets that follow are delivered; at 1 to 65,535 it is held, if there is room; beyond, below 2^31, it is dropped with a notice;
above, it is delivered late. A START packet at an entry without held packets, or at a new one, sets NEXT to 0 and is delivered
as the first. An entry idle for 512 µs with nothing held is absent again; an entry whose oldest packet has been held for 64 µs
skips to it, with a notice. A Boom notice sets the cooldown of its flow, live or new, to 1 ms after receipt and is counted; the
cooldown ends at its time; a live flow state with no injection for 256 µs and no cooldown retires. Completes here: boomArrival,
boomHoldTimeout, boomEntryIdle, boomNoticeReceive, cooldownExpiry, flowStateRetire. Cites R226, R227, R229, R230, R231, R233. -/
def Obligations.TheBoomAndItsFlows : Prop :=
    (∀ (s : State) (d : Die) (p : Pkt),
      let f := boomOf s d p.src p.tc
      let u := setBoom s d p.src p.tc { f with lastUse := s.now }
      p.ord = true →
      f.st = .synced →
      p.start = false →
      f.held.any (fun h => decide (h.1 = p.fseq)) = false →
      boomDist p.fseq f.next = 0 →
      exec (.boomArrival d p) s = .next (boomRun f.held.length (boomDeliver (setBoom (pmc u d 352 1) d p.src p.tc { f with lastUse := s.now, next := (f.next + 1) % 2 ^ 32 }) d p) d p.src p.tc)) ∧
    (∀ (s : State) (d : Die) (p : Pkt),
      let f := boomOf s d p.src p.tc
      let u := setBoom s d p.src p.tc { f with lastUse := s.now }
      p.ord = true →
      f.st = .synced →
      p.start = false →
      f.held.any (fun h => decide (h.1 = p.fseq)) = false →
      0 < boomDist p.fseq f.next →
      boomDist p.fseq f.next ≤ 65535 →
      boomRoom u d p = true →
      exec (.boomArrival d p) s = .next (setBoom (pmc u d 353 1) d p.src p.tc { f with lastUse := s.now, held := f.held ++ [(p.fseq, s.now, p)] })) ∧
    (∀ (s : State) (d : Die) (p : Pkt),
      let f := boomOf s d p.src p.tc
      let u := setBoom s d p.src p.tc { f with lastUse := s.now }
      p.ord = true →
      f.st = .synced →
      p.start = false →
      f.held.any (fun h => decide (h.1 = p.fseq)) = false →
      65535 < boomDist p.fseq f.next →
      boomDist p.fseq f.next < 2 ^ 31 →
      exec (.boomArrival d p) s = .next (boomNotice (pmc (bumpReg u d 0xE00010) d 354 1) d p.src p.tc)) ∧
    (∀ (s : State) (d : Die) (p : Pkt),
      let f := boomOf s d p.src p.tc
      let u := setBoom s d p.src p.tc { f with lastUse := s.now }
      p.ord = true →
      f.st = .synced →
      p.start = false →
      (f.held.any (fun h => decide (h.1 = p.fseq)) = true ∨ 2 ^ 31 ≤ boomDist p.fseq f.next) →
      exec (.boomArrival d p) s = .next (boomDeliver (pmc (bumpReg u d 0xE00020) d 356 1) d p)) ∧
    (∀ (s : State) (d : Die) (p : Pkt) (u : State),
      p.ord = true →
      (boomOf s d p.src p.tc).st = .absent →
      boomEntry s d = some u →
      p.start = true →
      exec (.boomArrival d p) s = .next (boomWindow (setBoom u d p.src p.tc { st := .synced, next := 0, lastUse := u.now }) d p)) ∧
    (∀ (s : State) (d : Die) (p : Pkt),
      p.ord = true →
      (boomOf s d p.src p.tc).st = .absent →
      boomEntry s d = none →
      exec (.boomArrival d p) s = .next (boomNotice (boomDeliver (pmc (bumpReg s d 0xE00028) d 357 1) d p) d p.src p.tc)) ∧
    (∀ (s : State) (d : Die) (src tc : Nat) (o : Nat × Nat × Pkt),
      boomOldest (boomOf s d src tc) = some o →
      o.2.1 + 64000 ≤ s.now →
      exec (.boomHoldTimeout d src tc) s = .next (boomSkip s d src tc)) ∧
    (∀ (s : State) (d : Die) (src tc : Nat),
      (boomOf s d src tc).st = .synced →
      (boomOf s d src tc).held = [] →
      (boomOf s d src tc).lastUse + 512000 ≤ s.now →
      exec (.boomEntryIdle d src tc) s = .next (setBoom s d src tc {})) ∧
    (∀ (s : State) (d : Die) (p : Pkt) (src tc : Nat),
      let f : FlowId := { src := src, tc := tc, dstRouter := routerPart p.src }
      bodyOf p = .notice src tc →
      (flowOf s d f).live = true →
      exec (.boomNoticeReceive d p) s = .next (pmc (setFlow s d f { flowOf s d f with cooldownTill := some (s.now + 1000000) }) d 343 1)) ∧
    (∀ (s : State) (d : Die) (p : Pkt) (src tc : Nat) (u : State),
      let f : FlowId := { src := src, tc := tc, dstRouter := routerPart p.src }
      bodyOf p = .notice src tc →
      (flowOf s d f).live = false →
      flowRoom s d = some u →
      exec (.boomNoticeReceive d p) s = .next (pmc (setFlow u d f { live := true, cooldownTill := some (u.now + 1000000) }) d 343 1)) ∧
    (∀ (s : State) (d : Die) (f : FlowId) (t : Nat),
      (flowOf s d f).cooldownTill = some t →
      t ≤ s.now →
      exec (.cooldownExpiry d f) s = .next (setFlow s d f { flowOf s d f with cooldownTill := none })) ∧
    (∀ (s : State) (d : Die) (f : FlowId),
      (flowOf s d f).live = true →
      (flowOf s d f).lastInject + 256000 ≤ s.now →
      cooling s (flowOf s d f) = false →
      exec (.flowStateRetire d f) s = .next (setFlow s d f {}))

/-- Outside Forensic, an egress that may send grants its first Flume packet when it is admitted, then a data packet, and then sends
from its stage. Of the data packets a suspended one goes on first where it may; else the urgent tier's pick, else the normal
tier's is granted when the stage has room for it. An injection scheduler serves its first Flume packet, else its urgent pick,
else its normal pick, charging its tags and reading the packet's cells. The head of a queue of non-zero weight at the age limit
enters the end of the urgent tier once. A boost in arrears comes into force. Completes here: egressServe, injectionServe,
agePromotion, semBoostApply. Cites R235, R237, R239, R240, R241. -/
def Obligations.SchedulersServeInTiers : Prop :=
    (∀ (s : State) (d : Die) (eg : Nat) (q : QPkt) (l : List QPkt),
      let u := grantFlume s d eg q
      let g := grantData u d eg
      forensic s = false →
      (egSched s d eg).flume = q :: l →
      flumeOk s d eg q = true →
      exec (.egressServe d eg) s = .next (if 0x7E ≤ eg then (if brgUp g d (egOf eg) then txBridge g d eg else g) else txFrame g d eg)) ∧
    (∀ (s : State) (d : Die) (eg : Nat),
      let u := s
      let g := grantData u d eg
      forensic s = false →
      (∀ q, (egSched s d eg).flume.head? = some q → flumeOk s d eg q = false) →
      exec (.egressServe d eg) s = .next (if 0x7E ≤ eg then (if brgUp g d (egOf eg) then txBridge g d eg else g) else txFrame g d eg)) ∧
    (∀ (s : State) (d : Die) (eg : Nat) (p : Pick),
      let x := egSched s d eg
      (0x7E ≤ eg → (brg s d (egOf eg)).crossing.find? (fun c => decide (0 < bridgeCredit (brg s d (egOf eg)) (brgChan c.q.chan c.q.stage))) = none) →
      (eg < 0x7E → resumable s d eg = none ∧ (link s d eg).txSel = none) →
      pickUrgent x s d (pktEligible s d eg) (egLeaf s d eg) = some p →
      stageSlots x + (p.q.pkt.len + 1) ≤ 1040 →
      grantData s d eg = servePick s d eg p) ∧
    (∀ (s : State) (d : Die) (eg : Nat) (p : Pick),
      let x := egSched s d eg
      (0x7E ≤ eg → (brg s d (egOf eg)).crossing.find? (fun c => decide (0 < bridgeCredit (brg s d (egOf eg)) (brgChan c.q.chan c.q.stage))) = none) →
      (eg < 0x7E → resumable s d eg = none ∧ (link s d eg).txSel = none) →
      pickUrgent x s d (pktEligible s d eg) (egLeaf s d eg) = none →
      pickNormal x s d (egLeaves s d eg) = some p →
      stageSlots x + (p.q.pkt.len + 1) ≤ 1040 →
      grantData s d eg = servePick s d eg p) ∧
    (∀ (s : State) (d : Die) (eg : Nat),
      let x := egSched s d eg
      (0x7E ≤ eg → (brg s d (egOf eg)).crossing.find? (fun c => decide (0 < bridgeCredit (brg s d (egOf eg)) (brgChan c.q.chan c.q.stage))) = none) →
      (eg < 0x7E → resumable s d eg = none ∧ (link s d eg).txSel = none) →
      pickUrgent x s d (pktEligible s d eg) (egLeaf s d eg) = none →
      pickNormal x s d (egLeaves s d eg) = none →
      grantData s d eg = s) ∧
    (∀ (s : State) (d : Die) (eg : Nat) (chan : Nat) (rest : List Block),
      let x := egSched s d eg
      eg < 0x7E →
      resumable s d eg = some (chan, rest) →
      stageSlots x + 66 ≤ 1040 →
      grantData s d eg = resumeSusp s d eg chan rest) ∧
    (∀ (s : State) (d : Die) (port : Nat) (q : QPkt) (l : List QPkt),
      forensic s = false →
      (tget {} (die s d).sch.inject port).flume = q :: l →
      exec (.injectionServe d port) s = .next (emit (onSch s d fun y => { y with inject := tmod {} y.inject port fun z => { z with flume := z.flume.tail } }) (.toRoute d q.pkt))) ∧
    (∀ (s : State) (d : Die) (port : Nat) (p : Pick) (v : State),
      let x := tget {} (die s d).sch.inject port
      let u := onSch s d fun y => { y with inject := tset {} y.inject port (chargePick x p).1, injq := tmod {} y.injq p.key fun q => serveQueue q p.q (chargePick x p).2 (x.urgent.contains (p.tc, p.sub.no, p.q)) }
      forensic s = false →
      x.flume = [] →
      (pickUrgent x s d (fun _ => true) (injLeaf s d port) = some p ∨ (pickUrgent x s d (fun _ => true) (injLeaf s d port) = none ∧ pickNormal x s d (injLeaves s d port) = some p)) →
      cellRead u d 0x10 p.q.owner (if p.sub.no = mgmtWho then none else some p.sub.no) = (true, v) →
      exec (.injectionServe d port) s = .next (emit v (.toRoute d p.q.pkt))) ∧
    (∀ (s : State) (d : Die) (port : Nat) (p : Pick) (v : State),
      let x := tget {} (die s d).sch.inject port
      let u := onSch s d fun y => { y with inject := tset {} y.inject port (chargePick x p).1, injq := tmod {} y.injq p.key fun q => serveQueue q p.q (chargePick x p).2 (x.urgent.contains (p.tc, p.sub.no, p.q)) }
      forensic s = false →
      x.flume = [] →
      (pickUrgent x s d (fun _ => true) (injLeaf s d port) = some p ∨ (pickUrgent x s d (fun _ => true) (injLeaf s d port) = none ∧ pickNormal x s d (injLeaves s d port) = some p)) →
      cellRead u d 0x10 p.q.owner (if p.sub.no = mgmtWho then none else some p.sub.no) = (false, v) →
      exec (.injectionServe d port) s = .next (v)) ∧
    (∀ (s : State) (d : Die) (q : QueueId) (h : QPkt) (l : List QPkt),
      let x := tget {} (die s d).sch.injq (injKey q.at_ q.tc q.who)
      q.inj = true →
      x.pkts = h :: l →
      whoWeight s d q.who q.tc ≠ 0 →
      ageLimit s d ≤ x.age →
      x.promoted = false →
      tcWeight s d q.tc ≠ 0 →
      exec (.agePromotion d q) s = .next (onSch s d fun y => { y with injq := tmod {} y.injq (injKey q.at_ q.tc q.who) (fun z => { z with promoted := true }), inject := tmod {} y.inject q.at_ fun z => { z with urgent := z.urgent ++ [(q.tc, q.who, h)] } })) ∧
    (∀ (s : State) (d : Die) (q : QueueId) (h : QPkt),
      let x := tget {} (die s d).sch.egq (leafKey q.at_ q.tc q.who)
      let u := if q.at_ < 64 then pmcAt s d (256 + 2 * (q.at_ / 2)) 1 (egCtx (kPort d q.at_) h.chan) else s
      q.inj = false →
      leafHead s d q.at_ x.pkts = some h →
      groupWeight s d q.tc q.who ≠ 0 →
      ageLimit s d ≤ x.age →
      x.promoted = false →
      tcWeight s d q.tc ≠ 0 →
      exec (.agePromotion d q) s = .next (onSch u d fun y => { y with egq := tmod {} y.egq (leafKey q.at_ q.tc q.who) (fun z => { z with promoted := true }), egress := tmod {} y.egress q.at_ fun z => { z with urgent := z.urgent ++ [(q.tc, q.who, h)] } })) ∧
    (∀ (s : State) (d : Die) (n : Nat),
      exec (.semBoostApply d n) s = .next (onSch s d fun x => { x with boosts := (x.boosts.filter fun b => !(decide (b.sem = n) && b.withdrawn)).map fun b => if b.sem = n then { b with inForce := true } else b }))

/-- At an entry boundary the gate shows the entry that device time has reached. A pending activation that is due, with no epoch due
before it, puts the staged list in force from its time, or clears the list, and moves the old list to the staged bank, marked
not valid; it bumps the scheduling epoch, posts its event and raises the interrupt. The entry shown at offset t of a cycle is
the one whose durations enclose t, and the time left in it is what remains of its duration. Completes here: gateEntryBoundary,
gateActivation. Cites R242, R245, R246. -/
def Obligations.GatesFollowTheirList : Prop :=
    (∀ (s : State) (d : Die) (port : Nat),
      exec (.gateEntryBoundary d port) s = .next (modGate s d (portK port) fun g => { g with entry := (gateNow s g).1 })) ∧
    (∀ (s : State) (d : Die) (port : Nat),
      let g := gateOf s d (portK port)
      let n : Gate := { g with active := g.staged, guard_ := g.stagedGuard, staged := g.active, stagedGuard := g.guard_, stagedValid := false, actTime := g.pendTime, pending := false, pendClear := false, entry := 0 }
      g.pending = true →
      g.pendTime ≤ s.time.ns →
      epochDue s d g.pendTime = false →
      g.pendClear = false →
      exec (.gateActivation d port) s = .next (raiseLocal (postMgmt (modDom (modGate s d (portK port) fun _ => { n with entry := (gateNow s n).1 }) d 3 fun x => { x with epoch := (x.epoch + 1) % 2 ^ 32 }) d 0x41 (evb 8 d.idx + evb 9 port + evb 10 0 + evb 16 g.pendTime)) d 1893)) ∧
    (∀ (s : State) (d : Die) (port : Nat),
      let g := gateOf s d (portK port)
      let n : Gate := { g with active := [], guard_ := false, staged := g.active, stagedGuard := g.guard_, stagedValid := false, actTime := g.pendTime, pending := false, pendClear := false, entry := 0 }
      g.pending = true →
      g.pendTime ≤ s.time.ns →
      epochDue s d g.pendTime = false →
      g.pendClear = true →
      exec (.gateActivation d port) s = .next (raiseLocal (postMgmt (modDom (modGate s d (portK port) fun _ => { n with entry := (gateNow s n).1 }) d 3 fun x => { x with epoch := (x.epoch + 1) % 2 ^ 32 }) d 0x41 (evb 8 d.idx + evb 9 port + evb 10 2 + evb 16 g.pendTime)) d 1893)) ∧
    (∀ (l : List GateEntry) (i off : Nat), off < gateCycle l →
      ∃ k e, l[k]? = some e ∧ gateAt l i off = (i + k, gateCycle (l.take k) + e.dur - off) ∧ gateCycle (l.take k) ≤ off ∧ off < gateCycle (l.take k) + e.dur)

/-- In a running device, a packet within its source's rate for this control endpoint, or of FORM 2 on a link in use: the first part
of a request already answered is answered again with the kept answer; a part of one that is whole or executing is ignored; any
other part is kept, and a request then whole executes on a free engine thread. An answer goes back as the request came. An
answer received completes the command that waits for it with the outcome in its record. A FORM 1 packet leaves by its port as
FORM 2; a FORM 2 answer goes on as FORM 0 from here with the port it came in by. A forwarded event enters the management ring
with its source. A packet beyond the rate is counted and dropped. A command waiting for a Flume answer is sent again, whole,
each RESEND until ANSWER_LIMIT, and then completes with CC_UNREACHABLE, SUBCAUSE 0x01. A request that is not whole 1 ms after
its first part is discarded; a whole one stays. Completes here: flumeRequest, flumeAnswer, flumeRelay, flumeEventReceive,
flumeResend, flumeAnswerTimeout, flumePartialDiscard. Cites R45, R250, R251, R252, R253, R328. -/
def Obligations.TheFlumeActs : Prop :=
    (∀ (s : State) (d : Die) (w : Ingress) (p : Pkt) (f : FlumePkt) (a : FlumeAns),
      let u := (policed s d p).1
      let via := if f.form = 2 then inPort d w else none
      bodyOf p = .flume f →
      running s = true →
      (flumeHere s d p f = true ∨ f.form = 2 ∧ inUsable s d w = true) →
      f.ftype = 0 →
      f.part = 0 →
      (policed s d p).2 = true →
      ((die u d).sch.flumeAns.find? fun a => decide (a.src = routerPart p.src ∧ a.reqDie = f.reqDie ∧ a.reqSeq = f.reqSeq)) = some a →
      exec (.flumeRequest d w p) s = .next (emit u (.toRoute d (flumePkt u d (routerPart p.src) { ftype := 2, form := if via.isSome then 2 else 0, relayPort := via.getD 0, part := 0, parts := 0, reqSeq := f.reqSeq, reqDie := f.reqDie, blk := BitVec.ofNat 512 (a.answer.toNat * 2 ^ 256) })))) ∧
    (∀ (s : State) (d : Die) (w : Ingress) (p : Pkt) (f : FlumePkt),
      let u := (policed s d p).1
      let via := if f.form = 2 then inPort d w else none
      bodyOf p = .flume f →
      running s = true →
      (flumeHere s d p f = true ∨ f.form = 2 ∧ inUsable s d w = true) →
      (f.ftype = 0 ∧ f.part = 0 ∨ f.ftype = 1 ∧ f.part ≠ 0) →
      (policed s d p).2 = true →
      ((die u d).sch.flumeAns.find? fun a => decide (a.src = routerPart p.src ∧ a.reqDie = f.reqDie ∧ a.reqSeq = f.reqSeq)) = none →
      ((die u d).sch.flumeReqs.any fun q => sameReq q (routerPart p.src) f.reqDie f.reqSeq && (q.executing || reqWhole q)) = false →
      exec (.flumeRequest d w p) s = .next (addPart u d (routerPart p.src) f via)) ∧
    (∀ (s : State) (d : Die) (w : Ingress) (p : Pkt) (f : FlumePkt),
      bodyOf p = .flume f →
      running s = true →
      (flumeHere s d p f = true ∨ f.form = 2 ∧ inUsable s d w = true) →
      (f.ftype = 0 ∧ f.part = 0 ∨ f.ftype = 1 ∧ f.part ≠ 0) →
      (policed s d p).2 = false →
      exec (.flumeRequest d w p) s = .next ((policed s d p).1)) ∧
    (∀ (s : State) (d : Die) (p : Pkt) (f : FlumePkt) (o : Nat) (x : Op),
      let u := (policed s d p).1
      bodyOf p = .flume f →
      running s = true →
      f.form = 0 →
      p.dst = routerAddr s d →
      s.ident.valid = true →
      f.ftype = 2 →
      f.reqDie = d.idx →
      (policed s d p).2 = true →
      (u.ops.find? fun y => decide (y.2.phase = .flume ∧ y.2.die = d ∧ y.2.seq = f.reqSeq ∧ tgtAddr y.2.blk = routerPart p.src)) = some (o, x) →
      exec (.flumeAnswer d p) s = .next (completeOp u o (recordOutcome (f.blk.toNat / 2 ^ 256)))) ∧
    (∀ (s : State) (d : Die) (w : Ingress) (p : Pkt) (f : FlumePkt),
      let u := (policed s d p).1
      bodyOf p = .flume f →
      running s = true →
      s.ident.valid = true →
      f.form = 1 →
      p.dst = routerAddr s d →
      (policed s d p).2 = true →
      portOfDie d f.relayPort = true →
      exec (.flumeRelay d w p) s = .next (flumeOutPort u d { p with body := .flume { f with form := 2 } } f.relayPort)) ∧
    (∀ (s : State) (d : Die) (w : Ingress) (p : Pkt) (f : FlumePkt),
      bodyOf p = .flume f →
      running s = true →
      s.ident.valid = true →
      f.form = 2 →
      f.ftype = 2 →
      inUsable s d w = true →
      exec (.flumeRelay d w p) s = .next (emit s (.toRoute d { p with src := routerAddr s d, body := .flume { f with form := 0, relayPort := (inPort d w).getD 0 } }))) ∧
    (∀ (s : State) (d : Die) (p : Pkt) (f : FlumePkt),
      let u := (policed s d p).1
      let e := f.blk.toNat / 2 ^ 256
      bodyOf p = .flume f →
      running s = true →
      f.form = 0 →
      p.dst = routerAddr s d →
      s.ident.valid = true →
      f.ftype = 4 →
      (policed s d p).2 = true →
      exec (.flumeEventReceive d p) s = .next (mgmtRing u d (bits e 0 64) (bits e 64 128) (bits e 192 16) (routerPart p.src))) ∧
    (∀ (s : State) (o : Nat),
      running s = true →
      (opOf s o).phase = .flume →
      (opOf s o).lastSend + resendNs s (opOf s o).die ≤ s.now →
      s.now < (opOf s o).firstSend + answerLimitNs s (opOf s o).die →
      exec (.flumeResend o) s = .next (flumeSend s o)) ∧
    (∀ (s : State) (o : Nat),
      (opOf s o).phase = .flume →
      (opOf s o).firstSend + answerLimitNs s (opOf s o).die ≤ s.now →
      exec (.flumeAnswerTimeout o) s = .next (failOp s o 0x0A 0x01)) ∧
    (∀ (s : State) (d : Die) (src rd rs : Nat),
      exec (.flumePartialDiscard d src rd rs) s = .next (onSch s d fun x => { x with flumeReqs := x.flumeReqs.filter fun r => !(sameReq r src rd rs && !(reqWhole r) && decide (r.firstAt + 1000000 ≤ s.now)) }))

/-- Every µs of the clock a sample takes the occupancies, raises the peaks and samples each leaf and injection queue. Every 2 µs a
summary goes out of every UP link, in flits, and bridge, outside Forensic. A received summary is counted and, newer than the
record, stored: over a bridge for a router of the group, and over a local link; over a global link as its far router's; a newer
one of the partner die also gives the partner's gateways; a forerunner link gives none. Unforwarded records of the group go over
the bridges once. A record older than STALE is not usable. A map is pushed when device time has reached a multiple of PERIOD not
pushed yet, half a PERIOD or more after the last push. A map part within its source's rate is received. A map open for 100 µs is
closed. The wrap of a counter is sampled with its index, its skid in cycles of the clock and the context of its latest event,
and raises the source that the block names, or, with a sample standing, counts as lost. A snapshot copies the 768 counters.
Completes here: cruiseSample, summarySend, summaryReceive, summaryForward, summaryStale, mapPush, mapPartReceive,
mapCloseTimeout, counterWrapSample, pmcSnap. Cites R256, R258, R259, R260, R261, R262, R265, R272, R273. -/
def Obligations.CruiseMapsAndCountersAct : Prop :=
    (∀ (s : State) (d : Die),
      let t := occNow s d
      let u := onCrz s d fun c => { c with sampleTick := s.now / 1000, sample := t, peak := t.foldl (fun p (k, v) => if v > tget 0 p k then tset 0 p k v else p) c.peak }
      cruiseOn s d = true →
      tickDue s 1000 (die s d).crz.sampleTick = true →
      exec (.cruiseSample d) s = .next (onSch (onCrz s d fun c => { c with sampleTick := s.now / 1000, sample := t, peak := t.foldl (fun p (k, v) => if v > tget 0 p k then tset 0 p k v else p) c.peak }) d fun x => { x with egq := tmapv {} x.egq fun _ q => sampleQueue u q, injq := tmapv {} x.injq fun _ q => sampleQueue u q })) ∧
    (∀ (s : State) (d : Die),
      let m := mkSummary s d
      let v := onCrz s d fun c => { c with sumSeq := m.seq, sumTick := s.now / 2000 }
      let u := pmc v d 706 ((upLinks v d).length + (upBridges v d).length)
      let x := (upLinks u d).foldl (fun s k => putFlits s d k (summaryFlits m)) u
      cruiseOn s d = true →
      tickDue s 2000 (die s d).crz.sumTick = true →
      forensic s = false →
      exec (.summarySend d) s = .next (emits x ((upBridges x d).map fun b => .bridgeSummary d b m))) ∧
    (∀ (s : State) (d : Die) (k : Nat) (m : Summary) (r : PortRec),
      let u := pmc s d 707 1
      portRec u d (kPort d k) = some r →
      (link u d k).forerunner = false →
      r.role = 1 →
      grpOf m.router = u.ident.group →
      exec (.summaryReceive d (.link k) m) s = .next (storeSum u d (rtrOf m.router) m true false)) ∧
    (∀ (s : State) (d : Die) (k : Nat) (m : Summary) (r : PortRec),
      let u := pmc s d 707 1
      portRec u d (kPort d k) = some r →
      (link u d k).forerunner = false →
      r.role = 2 →
      routerPart m.router = routerPart (link u d k).partner →
      exec (.summaryReceive d (.link k) m) s = .next (storeSum u d (farKey (routerPart m.router)) m false true)) ∧
    (∀ (s : State) (d : Die) (b : Bridge) (m : Summary),
      let u := pmc s d 707 1
      let newer := sumNewer (tget none (die u d).crz.view (rtrOf m.router)) m
      let v := storeSum u d (rtrOf m.router) m true true
      grpOf m.router = u.ident.group →
      (newer = false ∨ routerPart m.router ≠ routerAddr v d.other) →
      exec (.summaryReceive d (.bridge b) m) s = .next (v)) ∧
    (∀ (s : State) (d : Die) (b : Bridge) (m : Summary),
      let u := pmc s d 707 1
      let newer := sumNewer (tget none (die u d).crz.view (rtrOf m.router)) m
      let v := storeSum u d (rtrOf m.router) m true true
      grpOf m.router = u.ident.group →
      newer = true →
      routerPart m.router = routerAddr v d.other →
      exec (.summaryReceive d (.bridge b) m) s = .next (onCrz v d fun c => { c with partnerGlobal := m.entries.filter fun e => decide (e.die = d.other.idx) })) ∧
    (∀ (s : State) (d : Die),
      let l := (die s d).crz.view.filterMap fun (k, n) => match n with | some n => if k < 64 && !n.forwarded then some n.sum else none | none => none
      let u := onCrz s d fun c => { c with fwdTick := s.now / 2000, view := c.view.map fun (k, n) => (k, n.map fun n => { n with forwarded := true }) }
      cruiseOn s d = true →
      tickDue s 2000 (die s d).crz.fwdTick = true →
      forensic s = false →
      exec (.summaryForward d) s = .next (emits u (l.flatMap fun m => (upBridges u d).map fun b => .bridgeSummary d b m))) ∧
    (∀ (s : State) (d : Die) (r : Nat) (n : NbrRec),
      viewOf s d r = some n →
      recStale s d n = true →
      exec (.summaryStale d r) s = .next (onCrz s d fun c => { c with view := tset none c.view r (some { n with usable := false }) })) ∧
    (∀ (s : State) (d : Die),
      let c := (die s d).crz
      let x := s.time.ns / (1000 * max 1 c.mapPeriod)
      c.mapEn = true →
      x ≠ c.mapMultiple →
      (∀ t, c.mapAt = some t → t + 500 * c.mapPeriod ≤ s.now) →
      cruiseOn s d = true →
      forensic s = false →
      exec (.mapPush d) s = .next (onCrz (pushMap s d) d fun c => { c with mapAt := some s.now, mapMultiple := x })) ∧
    (∀ (s : State) (d : Die) (p : Pkt) (f : FlumePkt),
      flumeOf p = some f →
      f.ftype = 3 →
      (policed s d p).2 = true →
      exec (.mapPartReceive d p) s = .next (mapReceive (policed s d p).1 d p f)) ∧
    (∀ (s : State) (d : Die) (n : Nat),
      let m := tget {} (die s d).crz.rx n
      m.open_ = true →
      m.firstAt + 100000 ≤ s.now →
      exec (.mapCloseTimeout d n) s = .next (slotWrite (modSlot s d n { m with open_ := false }) d n 0 (leBytes 8 (slotWord { m with open_ := false })))) ∧
    (∀ (s : State) (d : Die) (i part : Nat) (addr : BitVec 24) (w : Nat × Nat),
      let u := onCrz s d fun c => { c with wraps := c.wraps.erase w }
      let v := 768 * d.idx + i + 2 ^ 11 + min 64 (cyclesIn w.2 (s.now - w.2) + part % 4) * 2 ^ 12 + contextOf u d i addr * 2 ^ 32
      ((die s d).crz.wraps.find? fun w => decide (w.1 = i)) = some w →
      bit (regVal u d 0x606008) 11 = false →
      exec (.counterWrapSample d i part addr) s = .next (raiseSource (setReg (setReg u d 0x606008 v) d 0x606010 s.time.ns) d (bits (regVal u d 0x606000) 16 12))) ∧
    (∀ (s : State) (d : Die) (i part : Nat) (addr : BitVec 24) (w : Nat × Nat),
      let u := onCrz s d fun c => { c with wraps := c.wraps.erase w }
      let v := regVal u d 0x606008
      ((die s d).crz.wraps.find? fun w => decide (w.1 = i)) = some w →
      bit v 11 = true →
      exec (.counterWrapSample d i part addr) s = .next (setReg u d 0x606008 (setBits v 24 8 (satInc 8 (bits v 24 8))))) ∧
    (∀ (s : State) (d : Die),
      exec (.pmcSnap d) s = .next ((List.range 768).foldl (fun s i => setReg s d (0x604000 + 8 * i) (regVal s d (pmcCnt i))) s)) ∧
    (∀ (s : State) (d : Die) (i : Nat), twf 0 s.regs = true → i < 768 → ∃ t, exec (.pmcSnap d) s = .next t ∧ regVal t d (0x604000 + 8 * i) = regVal s d (pmcCnt i))

/-- On a link that carries frames: an uncorrectable frame, or one whose CRC-32 differs, is a bad frame; 64 uncorrectable codewords
in a row of a lane are its loss of lock; otherwise its acknowledgement, NAK and credit fields act. An EMPTY frame does nothing
more; the expected frame is delivered and held frames that follow it; one up to 31 ahead is held, and the frames missing before
it are asked for if it is not a retransmission (on a forerunner link the expected one); one from 32 to 2,047 ahead is an
offence; any other is discarded. Completes here: frameReceive. Cites R284, R289, R292, R295, R296. -/
def Obligations.FramesAreReceivedInOrder : Prop :=
    (∀ (s : State) (d : Die) (k : Nat) (f : Frame),
      let q := egCtx (kPort d k) 0
      let u := countRuns (pmcAt (corrected s d k f.corrSym) d (8 * (k / 2) + 4) f.corrSym q) d k f
      carriesFrames (link s d k) = true →
      f.uncorr = true →
      exec (.frameReceive d k f) s = .next (badFrame (pmcAt u d (8 * (k / 2) + 5) 1 q) d k)) ∧
    (∀ (s : State) (d : Die) (k : Nat) (f : Frame),
      let q := egCtx (kPort d k) 0
      let u := countRuns (pmcAt (corrected s d k f.corrSym) d (8 * (k / 2) + 4) f.corrSym q) d k f
      carriesFrames (link s d k) = true →
      f.uncorr = false →
      frameCrc (f.slots.map (·.1)) (f.slots.map (·.2)) (frameCtl f.fsn f.ackFsn f.nakMap.toNat f.retx f.empty f.crCh f.crCount) ≠ f.crc →
      exec (.frameReceive d k f) s = .next (badFrame (pmcAt u d (8 * (k / 2) + 2) 1 q) d k)) ∧
    (∀ (s : State) (d : Die) (k : Nat) (f : Frame),
      let q := egCtx (kPort d k) 0
      let u := countRuns (pmcAt (corrected s d k f.corrSym) d (8 * (k / 2) + 4) f.corrSym q) d k f
      let v := frameControl u d k f
      carriesFrames (link s d k) = true →
      f.uncorr = false →
      frameCrc (f.slots.map (·.1)) (f.slots.map (·.2)) (frameCtl f.fsn f.ackFsn f.nakMap.toNat f.retx f.empty f.crCh f.crCount) = f.crc →
      f.empty = true →
      exec (.frameReceive d k f) s = .next (v)) ∧
    (∀ (s : State) (d : Die) (k : Nat) (f : Frame),
      let q := egCtx (kPort d k) 0
      let u := countRuns (pmcAt (corrected s d k f.corrSym) d (8 * (k / 2) + 4) f.corrSym q) d k f
      let v := frameControl u d k f
      let l := link v d k
      let n := (f.fsn + 4096 - l.expectFsn) % 4096
      let g : RxFrame := { fsn := f.fsn, retx := f.retx, at_ := v.time.ns, slots := f.slots }
      let r := deliverFrame v d k g
      carriesFrames (link s d k) = true →
      f.uncorr = false →
      frameCrc (f.slots.map (·.1)) (f.slots.map (·.2)) (frameCtl f.fsn f.ackFsn f.nakMap.toNat f.retx f.empty f.crCh f.crCount) = f.crc →
      f.empty = false →
      carriesFrames l = true →
      n = 0 →
      r.2 = true →
      exec (.frameReceive d k f) s = .next (drainFrames 32 r.1 d k)) ∧
    (∀ (s : State) (d : Die) (k : Nat) (f : Frame),
      let q := egCtx (kPort d k) 0
      let u := countRuns (pmcAt (corrected s d k f.corrSym) d (8 * (k / 2) + 4) f.corrSym q) d k f
      let v := frameControl u d k f
      let l := link v d k
      let n := (f.fsn + 4096 - l.expectFsn) % 4096
      let g : RxFrame := { fsn := f.fsn, retx := f.retx, at_ := v.time.ns, slots := f.slots }
      let r := deliverFrame v d k g
      carriesFrames (link s d k) = true →
      f.uncorr = false →
      frameCrc (f.slots.map (·.1)) (f.slots.map (·.2)) (frameCtl f.fsn f.ackFsn f.nakMap.toNat f.retx f.empty f.crCh f.crCount) = f.crc →
      f.empty = false →
      carriesFrames l = true →
      n = 0 →
      r.2 = false →
      exec (.frameReceive d k f) s = .next (r.1)) ∧
    (∀ (s : State) (d : Die) (k : Nat) (f : Frame),
      let q := egCtx (kPort d k) 0
      let u := countRuns (pmcAt (corrected s d k f.corrSym) d (8 * (k / 2) + 4) f.corrSym q) d k f
      let v := frameControl u d k f
      let l := link v d k
      let n := (f.fsn + 4096 - l.expectFsn) % 4096
      let g : RxFrame := { fsn := f.fsn, retx := f.retx, at_ := v.time.ns, slots := f.slots }
      carriesFrames (link s d k) = true →
      f.uncorr = false →
      frameCrc (f.slots.map (·.1)) (f.slots.map (·.2)) (frameCtl f.fsn f.ackFsn f.nakMap.toNat f.retx f.empty f.crCh f.crCount) = f.crc →
      f.empty = false →
      carriesFrames l = true →
      0 < n →
      n < 32 →
      l.forerunner = false →
      f.retx = true →
      l.rxHeld.any (fun e => decide (e.fsn = f.fsn)) = false →
      exec (.frameReceive d k f) s = .next (modLink v d k fun l => { l with rxHeld := l.rxHeld ++ [g], missing := l.missing.filter fun n => decide (n ≠ f.fsn) })) ∧
    (∀ (s : State) (d : Die) (k : Nat) (f : Frame),
      let q := egCtx (kPort d k) 0
      let u := countRuns (pmcAt (corrected s d k f.corrSym) d (8 * (k / 2) + 4) f.corrSym q) d k f
      let v := frameControl u d k f
      let l := link v d k
      let n := (f.fsn + 4096 - l.expectFsn) % 4096
      let g : RxFrame := { fsn := f.fsn, retx := f.retx, at_ := v.time.ns, slots := f.slots }
      carriesFrames (link s d k) = true →
      f.uncorr = false →
      frameCrc (f.slots.map (·.1)) (f.slots.map (·.2)) (frameCtl f.fsn f.ackFsn f.nakMap.toNat f.retx f.empty f.crCh f.crCount) = f.crc →
      f.empty = false →
      carriesFrames l = true →
      0 < n →
      n < 32 →
      l.forerunner = false →
      f.retx = false →
      l.rxHeld.any (fun e => decide (e.fsn = f.fsn)) = false →
      exec (.frameReceive d k f) s = .next (modLink v d k fun l => { l with rxHeld := l.rxHeld ++ [g], missing := ((gapOf l f.fsn).foldl addNew l.missing).filter fun n => decide (n ≠ f.fsn) })) ∧
    (∀ (s : State) (d : Die) (k : Nat) (f : Frame),
      let q := egCtx (kPort d k) 0
      let u := countRuns (pmcAt (corrected s d k f.corrSym) d (8 * (k / 2) + 4) f.corrSym q) d k f
      let v := frameControl u d k f
      let l := link v d k
      let n := (f.fsn + 4096 - l.expectFsn) % 4096
      let g : RxFrame := { fsn := f.fsn, retx := f.retx, at_ := v.time.ns, slots := f.slots }
      carriesFrames (link s d k) = true →
      f.uncorr = false →
      frameCrc (f.slots.map (·.1)) (f.slots.map (·.2)) (frameCtl f.fsn f.ackFsn f.nakMap.toNat f.retx f.empty f.crCh f.crCount) = f.crc →
      f.empty = false →
      carriesFrames l = true →
      0 < n →
      n < 32 →
      l.forerunner = true →
      f.retx = false →
      exec (.frameReceive d k f) s = .next (modLink v d k fun l => { l with missing := addNew l.missing l.expectFsn })) ∧
    (∀ (s : State) (d : Die) (k : Nat) (f : Frame),
      let q := egCtx (kPort d k) 0
      let u := countRuns (pmcAt (corrected s d k f.corrSym) d (8 * (k / 2) + 4) f.corrSym q) d k f
      let v := frameControl u d k f
      let l := link v d k
      let n := (f.fsn + 4096 - l.expectFsn) % 4096
      let g : RxFrame := { fsn := f.fsn, retx := f.retx, at_ := v.time.ns, slots := f.slots }
      carriesFrames (link s d k) = true →
      f.uncorr = false →
      frameCrc (f.slots.map (·.1)) (f.slots.map (·.2)) (frameCtl f.fsn f.ackFsn f.nakMap.toNat f.retx f.empty f.crCh f.crCount) = f.crc →
      f.empty = false →
      carriesFrames l = true →
      0 < n →
      n < 32 →
      l.forerunner = false →
      l.rxHeld.any (fun e => decide (e.fsn = f.fsn)) = true →
      exec (.frameReceive d k f) s = .next (v)) ∧
    (∀ (s : State) (d : Die) (k : Nat) (f : Frame),
      let q := egCtx (kPort d k) 0
      let u := countRuns (pmcAt (corrected s d k f.corrSym) d (8 * (k / 2) + 4) f.corrSym q) d k f
      let v := frameControl u d k f
      let l := link v d k
      let n := (f.fsn + 4096 - l.expectFsn) % 4096
      let g : RxFrame := { fsn := f.fsn, retx := f.retx, at_ := v.time.ns, slots := f.slots }
      carriesFrames (link s d k) = true →
      f.uncorr = false →
      frameCrc (f.slots.map (·.1)) (f.slots.map (·.2)) (frameCtl f.fsn f.ackFsn f.nakMap.toNat f.retx f.empty f.crCh f.crCount) = f.crc →
      f.empty = false →
      carriesFrames l = true →
      32 ≤ n →
      n < 2048 →
      exec (.frameReceive d k f) s = .next (offence v d k)) ∧
    (∀ (s : State) (d : Die) (k : Nat) (f : Frame),
      let q := egCtx (kPort d k) 0
      let u := countRuns (pmcAt (corrected s d k f.corrSym) d (8 * (k / 2) + 4) f.corrSym q) d k f
      let v := frameControl u d k f
      let l := link v d k
      let n := (f.fsn + 4096 - l.expectFsn) % 4096
      let g : RxFrame := { fsn := f.fsn, retx := f.retx, at_ := v.time.ns, slots := f.slots }
      carriesFrames (link s d k) = true →
      f.uncorr = false →
      frameCrc (f.slots.map (·.1)) (f.slots.map (·.2)) (frameCtl f.fsn f.ackFsn f.nakMap.toNat f.retx f.empty f.crCh f.crCount) = f.crc →
      f.empty = false →
      carriesFrames l = true →
      2048 ≤ n →
      exec (.frameReceive d k f) s = .next (v))

/-- A frame unacknowledged for TIMEOUT is resent, and its eighth timeout in a row takes the link DOWN with cause 5. Signal on a
granted training link starts adaptation; adapted receivers, their lanes mapped, start the countdown, with precoding as each
direction's receiver asks; streams that begin within 180 ns of each other at RATE 0, 360 ns at the others, are deskewed and
start the exchange of identities. Training unfinished 500 ms after signal takes the link DOWN with cause 8, no signal for 1 s
with cause 7, loss of lock or signal past lock with cause 3 or 2. DOWN for no signal it trains again after 1 s, and after a
fault when its quiet time ends. A DRAINING link with no data packet queued, staged or suspended and no held frame, or after 1
ms, goes to QUARANTINE. A parity error on an UP bridge records its lane and direction, takes the bridge DOWN with cause 1 and
stops its clock; the loss of the partner's clock takes it DOWN with cause 2. Training with at most two failing lanes in every
slice of both directions takes the bridge UP on both dies with every channel's credit, and else DOWN with cause 3. After both
dies' quiet periods it trains again. Completes here: linkRetxTimeout, laneSignalLoss, laneSignalDetect, linkRxReady,
linkAlignDone, trainTimeout, noSignalTimeout, noSignalRetry, linkQuietEnd, linkDrainEnd, bridgeParityError, bridgeClockLoss,
bridgeTrainDone, bridgeQuietEnd. Cites R281, R282, R291, R298, R300, R303, R304, R305. -/
def Obligations.LinksAndBridgesMove : Prop :=
    (∀ (s : State) (d : Die) (k : Nat),
      let l := link s d k
      let t := l.txHeld.filter fun g => decide (g.sentAt + 10 * bits (regVal s d 0x1201008) 0 16 ≤ s.now)
      carriesFrames l = true →
      t ≠ [] →
      (∀ g ∈ t, g.timeouts < 7) →
      l.forerunner = false →
      exec (.linkRetxTimeout d k) s = .next (t.foldl (fun s g => resendFrame s d k g true) s)) ∧
    (∀ (s : State) (d : Die) (k : Nat) (g : TxFrame),
      let l := link s d k
      let t := l.txHeld.filter fun g => decide (g.sentAt + 10 * bits (regVal s d 0x1201008) 0 16 ≤ s.now)
      carriesFrames l = true →
      g ∈ t →
      7 ≤ g.timeouts →
      exec (.linkRetxTimeout d k) s = .next (linkFault s d k 5)) ∧
    (∀ (s : State) (d : Die) (k n : Nat) (lock : Bool),
      let l := link s d k
      (carriesFrames l = true ∨ l.st = .training ∧ l.train ≠ .waitSignal ∧ lock = false) →
      exec (.laneSignalLoss d k n lock) s = .next (linkFault (modLink s d k fun l => { l with lanes := setAt l.lanes n (l.lanes.getD n 0 ||| (if lock then 2 else 1)) }) d k (if lock then 3 else 2))) ∧
    (∀ (s : State) (d : Die) (k : Nat),
      let l := link s d k
      l.st = .training →
      l.train = .waitSignal →
      adaptGranted s d k = true →
      exec (.laneSignalDetect d k) s = .next (modLink s d k fun l => { l with train := .adapting, signalAt := some s.now, lanes := l.lanes.map fun x => setBits x 0 1 0 })) ∧
    (∀ (s : State) (d : Die) (k : Nat) (dfe asked : Bool) (m : List LaneMap),
      let l := link s d k
      l.st = .training →
      l.train = .adapting →
      exec (.linkRxReady d k { dfeHigh := dfe, asked := asked, lanes := m }) s = .next (emit (modLink s d k fun y => { y with train := .countdown, precode := decide (l.rate = 0) || (decide (l.rate = 1) && dfe), txPrecode := decide (l.rate = 0) || (decide (l.rate = 1) && asked), lanes := (List.range 8).map (fun i => if l.split && decide (i ≥ 4) then 0 else match m[i]? with | some m => m.phys % 8 * 8 + b2n m.inv * 4 | none => 0) }) (.rxReady d k))) ∧
    (∀ (s : State) (d : Die) (k : Nat) (a : List Nat),
      let l := link s d k
      l.st = .training →
      l.train = .countdown →
      (∀ x ∈ a, ∀ y ∈ a, x ≤ y + if l.rate = 0 then 180 else 360) →
      exec (.linkAlignDone d k a) s = .next (modLink s d k fun y => { y with train := .ident, identAt := none })) ∧
    (∀ (s : State) (d : Die) (k : Nat) (t : Nat),
      let l := link s d k
      l.signalAt = some t →
      l.st = .training →
      t + 500000000 ≤ s.now →
      exec (.trainTimeout d k) s = .next (linkFault s d k 8)) ∧
    (∀ (s : State) (d : Die) (k : Nat),
      let l := link s d k
      l.st = .training →
      l.train = .waitSignal →
      adaptGranted s d k = true →
      l.stAt + 1000000000 ≤ s.now →
      exec (.noSignalTimeout d k) s = .next (linkGo s d k .down 7)) ∧
    (∀ (s : State) (d : Die) (k : Nat),
      let l := link s d k
      l.st = .down →
      l.adminEn = true →
      l.cause = 7 →
      l.stAt + 1000000000 ≤ s.now →
      macroDown s d k = false →
      exec (.noSignalRetry d k) s = .next (linkGo s d k .training 0)) ∧
    (∀ (s : State) (d : Die) (k : Nat),
      let l := link s d k
      l.st = .down →
      l.adminEn = true →
      l.cause ∈ [2, 3, 4, 5, 6, 8] →
      l.stAt + quietNs s d ≤ s.now →
      macroDown s d k = false →
      exec (.linkQuietEnd d k) s = .next (linkGo s d k .training 0)) ∧
    (∀ (s : State) (d : Die) (k : Nat),
      let l := link s d k
      l.st = .draining →
      ((queuedAt s d k = [] ∧ (∀ g ∈ (tget {} (die s d).sch.egress k).stage, g.q.chan = 16) ∧ l.susp = [] ∧ l.txHeld = []) ∨ l.stAt + 1000000 ≤ s.now) →
      exec (.linkDrainEnd d k) s = .next (linkGo s d k .quarantine 0)) ∧
    (∀ (s : State) (d : Die) (b : Bridge) (ew : Bool) (n : Nat),
      (brg s d b).st = .up →
      exec (.bridgeParityError d b ew n) s = .next (emit (brgFault (pmcAt (modBrg s d b fun x => { x with lane := n, dirEw := ew }) d (320 + 8 * brgNo b + 2) 1 (egCtx (egBridge b) 0)) d b 1) (.clockStop d b))) ∧
    (∀ (s : State) (d : Die) (b : Bridge),
      (brg s d b).st = .up →
      exec (.bridgeClockLoss d b) s = .next (brgFault s d b 2)) ∧
    (∀ (s : State) (b : Bridge) (we ew : List Nat),
      let u := brgGo (modBrg s .west b fun x => { x with sparesWe := we.length, sparesEw := ew.length, room := bridgeRooms, used := [] }) .west b .up 0
      (brg s .west b).st = .training →
      (brg s .east b).st = .training →
      lanesOk we = true →
      lanesOk ew = true →
      exec (.bridgeTrainDone b we ew) s = .next (brgAfter (brgGo (modBrg u .east b fun x => { x with sparesWe := we.length, sparesEw := ew.length, room := bridgeRooms, used := [] }) .east b .up 0))) ∧
    (∀ (s : State) (b : Bridge) (we ew : List Nat),
      (brg s .west b).st = .training →
      (brg s .east b).st = .training →
      (lanesOk we = false ∨ lanesOk ew = false) →
      exec (.bridgeTrainDone b we ew) s = .next (brgAfter (brgRecover (brgGo (brgRecover (brgGo s .west b .down 3) .west b) .east b .down 3) .east b))) ∧
    (∀ (s : State) (b : Bridge),
      (∀ d, (brg s d b).st = .down ∧ (brg s d b).adminEn = true ∧ (brg s d b).downAt + quietNs s d ≤ s.now) →
      s.sys.mode ≠ .standby →
      exec (.bridgeQuietEnd b) s = .next (brgGo (brgGo s .west b .training 0) .east b .training 0))

/-- An IDENT goes out every 1 ms on a link that carries frames, an ON/OFF flit on a forerunner link at every change and every 1 µs,
a SHELF every 125 µs cycling through the domains, on each link that carries frames and over the bridges, a TIME every 100 µs on
an UP link. An IDENT received while training, that agrees on rate, split and generation, is stored and the link admitted or not;
one that disagrees is a training fault; on a live link another partner is a fault, cause 6. ON/OFF sets the channels that are
off. A SHELF flit of a neighbour-compared domain that agrees clears the domain's mark for that link; one that differs in EPOCH
or MACHINE_TAG, while neither side has just activated or is about to, is remembered; a second in a row marks the domain and
posts EV_SHELF_MISMATCH, not again within 1 s and not on a link in QUARANTINE or TRAINING. Completes here: identSend,
identReceive, onoffReceive, onoffSend, shelfSend, timeSend, shelfReceive. Cites R298, R301, R392, R393, R398. -/
def Obligations.LinkFlitsAndShelvesAct : Prop :=
    (∀ (s : State) (d : Die) (k : Nat),
      let l := link s d k
      carriesFrames l = true →
      (∀ t, l.identAt = some t → t + 1000000 ≤ s.now) →
      exec (.identSend d k) s = .next (putFlits (modLink s d k fun l => { l with identAt := some s.now }) d k [identFlit (identOf s d k)])) ∧
    (∀ (s : State) (d : Die) (k : Nat) (m : Ident),
      let l := link s d k
      l.st = .training →
      l.train = .ident →
      (m.rate ≠ l.rate ∨ m.split ≠ l.split ∨ m.forerunner ≠ l.forerunner) →
      exec (.identReceive d k m) s = .next (linkFault s d k 8)) ∧
    (∀ (s : State) (d : Die) (k : Nat) (m : Ident),
      let l := link s d k
      l.st = .training →
      l.train = .ident →
      m.rate = l.rate →
      m.split = l.split →
      m.forerunner = l.forerunner →
      exec (.identReceive d k m) s = .next (linkAdmit (modLink s d k fun l => { l with partner := m.addr, partnerPort := m.port, partnerCredit := m.credit, identSeenTs := m.txTs, identSeenAt := s.now, rtt := if m.echoTs = 0 then l.rtt else s.now - m.echoTs - m.hold }) d k)) ∧
    (∀ (s : State) (d : Die) (k : Nat) (m : Ident),
      let l := link s d k
      (l.st = .up ∨ l.st = .quarantine ∨ l.st = .draining) →
      (m.addr ≠ l.partner ∨ m.port ≠ l.partnerPort) →
      exec (.identReceive d k m) s = .next (linkFault s d k 6)) ∧
    (∀ (s : State) (d : Die) (k m : Nat),
      (link s d k).forerunner = true →
      exec (.onoffReceive d k m) s = .next (modLink s d k fun l => { l with offIn := m % 2 ^ 17 })) ∧
    (∀ (s : State) (d : Die) (k : Nat) (a : List Nat),
      let l := link s d k
      l.forerunner = true →
      carriesFrames l = true →
      ((∀ t, l.onoffAt = some t → t + 1000 ≤ s.now) ∨ offMask l a ≠ l.offOut) →
      exec (.onoffSend d k a) s = .next (putFlits (modLink s d k fun y => { y with offOut := offMask l a, onoffAt := some s.now }) d k [onoffFlit (offMask l a)])) ∧
    (∀ (s : State) (d : Die) (k : Nat),
      let l := link s d k
      k ≠ 64 →
      carriesFrames l = true →
      l.forerunner = false →
      (∀ t, l.shelfAt = some t → t + 125000 ≤ s.now) →
      exec (.shelfSend d k) s = .next (putFlits (modLink s d k fun l => { l with shelfAt := some s.now, shelfDom := (l.shelfDom + 1) % 8 }) d k [shelfFlit (shelfOf s d l.shelfDom)])) ∧
    (∀ (s : State) (d : Die),
      let e := (die s d).epc
      anyBridge s d = true →
      (∀ t, e.brgShelfAt = some t → t + 125000 ≤ s.now) →
      exec (.shelfSend d 64) s = .next (emit (onEpc s d fun e => { e with brgShelfAt := some s.now, brgShelfDom := (e.brgShelfDom + 1) % 8 }) (.bridgeShelf d (shelfOf s d e.brgShelfDom)))) ∧
    (∀ (s : State) (d : Die) (k : Nat),
      let l := link s d k
      l.st = .up →
      (∀ t, l.timeAt = some t → t + 100000 ≤ s.now) →
      exec (.timeSend d k) s = .next (putFlits (modLink s d k fun l => { l with timeAt := some s.now }) d k [timeFlit { st := timeStCode s.time.st, set := s.time.set, stratum := s.time.stratum, gm := s.time.gm, tTx := s.time.ns, tEcho := l.timeTx, tRx := l.timeRx, estErr := s.time.estErr, arrival := 0, retx := false }])) ∧
    (∀ (s : State) (d : Die) (k : Nat) (m : ShelfFlit),
      let n := m.dom % 8
      let x := dom s d n
      let key := 8 * k + n
      let mark := tget {} (die s d).epc.marks key
      let u := onEpc s d fun e => { e with marks := tmod {} e.marks key fun m => { m with last := false, marked := false } }
      (link s d k).forerunner = false →
      n ∉ [3, 6, 7] →
      m.epoch = x.epoch →
      m.tag = x.tag →
      exec (.shelfReceive d k m) s = .next (setLevel u d 1894 ((die u d).epc.marks.any fun (_, m) => m.marked))) ∧
    (∀ (s : State) (d : Die) (k : Nat) (m : ShelfFlit),
      let n := m.dom % 8
      let x := dom s d n
      let key := 8 * k + n
      let mark := tget {} (die s d).epc.marks key
      (link s d k).forerunner = false →
      n ∉ [3, 6, 7] →
      (m.epoch ≠ x.epoch ∨ m.tag ≠ x.tag) →
      (∀ t, x.actAt = some t → t + 1000000 ≤ s.now) →
      (m.pending = false ∨ s.time.ns < m.actTime) →
      mark.last = false →
      exec (.shelfReceive d k m) s = .next (onEpc s d fun e => { e with marks := tmod {} e.marks key fun m => { m with last := true } })) ∧
    (∀ (s : State) (d : Die) (k : Nat) (m : ShelfFlit),
      let n := m.dom % 8
      let x := dom s d n
      let key := 8 * k + n
      let mark := tget {} (die s d).epc.marks key
      let u := onEpc s d fun e => { e with marks := tmod {} e.marks key fun m => { m with marked := true, postedAt := some s.now } }
      (link s d k).forerunner = false →
      n ∉ [3, 6, 7] →
      (m.epoch ≠ x.epoch ∨ m.tag ≠ x.tag) →
      (∀ t, x.actAt = some t → t + 1000000 ≤ s.now) →
      (m.pending = false ∨ s.time.ns < m.actTime) →
      mark.last = true →
      (∀ t, mark.postedAt = some t → t + 1000000000 ≤ s.now) →
      k < 64 →
      (link s d k).st ≠ .quarantine →
      (link s d k).st ≠ .training →
      exec (.shelfReceive d k m) s = .next (postMgmt (setLevel u d 1894 ((die u d).epc.marks.any fun (_, m) => m.marked)) d 0x70 (evb 8 d.idx + evb 9 k + evb 10 n + evb 12 m.epoch + evb 16 m.tag)))

/-- A fresh TIME flit, of a stratum below 15, is kept; from the source of device time with an echo it is measured as the tdiv by 2
of R399. A lost source is replaced or holdover begins. A PPS edge used, with a load waiting for it, loads device time. A step
due and allowed emits the pulse for B, moves device time by Δ modulo 2^64 and posts EV_TIME_STEP; one not allowed slews. After
300 s of HOLDOVER, or an error above 1 µs, the state is FREE-RUN. A due epoch activation of a domain, before no other due one,
takes effect. Completes here: timeReceive, timeSourceTimeout, ppsInEdge, timeStepApply, holdoverExpiry, epochActivation. Cites
R389, R399, R401, R404, R405, R455. -/
def Obligations.TimeFollowsItsSource : Prop :=
    (∀ (s : State) (d : Die) (k : Nat) (m : TimeFlit),
      let u := modLink s d k fun l => { l with timeTx := m.tTx, timeRx := m.arrival, timeFlit := some m, timeSeen := s.now }
      m.retx = false →
      m.stratum ≠ 15 →
      sourceGone u = false →
      s.time.src = .link d k →
      m.tEcho ≠ 0 →
      exec (.timeReceive d k m) s = .next (measured (onTime u fun t => { t with sourceAt := s.now }) (Int.tdiv ((Int.ofNat m.tRx - Int.ofNat m.tEcho) + (Int.ofNat m.tTx - Int.ofNat m.arrival)) 2))) ∧
    (∀ (s : State) (d : Die) (k : Nat) (m : TimeFlit),
      let u := modLink s d k fun l => { l with timeTx := m.tTx, timeRx := m.arrival, timeFlit := some m, timeSeen := s.now }
      m.retx = false →
      m.stratum ≠ 15 →
      sourceGone u = false →
      s.time.src ≠ .none →
      s.time.src ≠ .link d k →
      exec (.timeReceive d k m) s = .next (u)) ∧
    (∀ (s : State),
      sourceGone s = true →
      exec (.timeSourceTimeout) s = .next (sourceLost s)) ∧
    (∀ (s : State) (v : Nat),
      (∀ t, s.time.ppsAt = some t → ppsPresent s = false ∨ t + 999000000 ≤ s.now ∧ s.now ≤ t + 1001000000) →
      s.time.setAtPps = some v →
      exec (.ppsInEdge) s = .next (timeLoad (onTime s fun t => { t with ppsAt := some s.now }) v)) ∧
    (∀ (s : State) (t : Nat),
      s.time.ppsAt = some t →
      s.now < t + 999000000 →
      exec (.ppsInEdge) s = .next (s)) ∧
    (∀ (s : State) (b : Nat) (e : Int),
      s.time.step = some (b, e) →
      b ≤ s.time.ns →
      stepAllowed s b e = true →
      exec (.timeStepApply) s = .next (postBoth (onTime (ppsOut s) fun t => { t with ns := ((Int.ofNat t.ns + e) % 18446744073709551616).toNat, step := none }) 0x72 (evb 8 ((e % 18446744073709551616).toNat) + evb 16 b))) ∧
    (∀ (s : State) (b : Nat) (e : Int),
      s.time.step = some (b, e) →
      b ≤ s.time.ns →
      stepAllowed s b e = false →
      exec (.timeStepApply) s = .next (slewBy (onTime s fun t => { t with step := none, refusedStep := true }) e)) ∧
    (∀ (s : State),
      s.time.st = .holdover →
      (s.time.holdSince + 300000000000 ≤ s.now ∨ 1000 < grownErr s) →
      exec (.holdoverExpiry) s = .next (timeGo s .freeRun)) ∧
    (∀ (s : State) (d : Die) (n : Nat) (p : Pend),
      (dom s d n).pend = some p →
      p.actTime ≤ s.time.ns →
      dueBefore s d n p = false →
      exec (.epochActivation d n) s = .next (if n = 5 then timeReselect (domActivate s d n p) else domActivate s d n p))

/-- FLR resets the function, and the management function returns at once when it has no ring; hot reset, link-down or disable of a
link resets the functions of the link; PERST_N low holds the port and resets every link of it, and its deassertion ends that
and, in Standby, raises its always-on source; D3hot resets the function and leaves it in D3. An instance that has drained, with
its link up, returns; a quiescing one with no command left is QUIESCED. A trained link of an existing port comes up. During
bring-up a configuration request gets Retry Status; later, on an UP link, it sets NumVFs (at most a link's share of the 256
functions), ATS Enable, MSI-X Enable or the completion timeout. An AtomicOp to a BAR is unsupported. Completes here: flr,
hostLinkReset, perstNAssert, perstNDeassert, d3hotEntry, instanceResetDone, instanceQuiesceDone, hostLinkTrained,
hostConfigRequest. Cites R319, R323, R415, R451. -/
def Obligations.ResetsReachInstances : Prop :=
    (∀ (s : State) (f : FnId),
      fnExists s f = true →
      f ≠ mgmtFn s →
      exec (.flr f) s = .next (fnReset s f 1)) ∧
    (∀ (s : State) (f : FnId),
      fnExists s f = true →
      f = mgmtFn s →
      mgmtRings (fnReset s f 1) = false →
      exec (.flr f) s = .next (modFn (fnReset s f 1) f fun x => { x with inReset := false })) ∧
    (∀ (s : State) (p l : Nat),
      linkExists s p l = true →
      exec (.hostLinkReset p l) s = .next (hostLinkDown s p l 2)) ∧
    (∀ (s : State) (p : Nat),
      p < 8 →
      s.sys.inReset = false →
      exec (.perstNAssert p) s = .next ((List.range 4).foldl (fun s l => if linkExists s p l then hostLinkDown s p l 3 else s) (onHst s (portDie p) fun h => { h with perst := addNew h.perst (p % 4) }))) ∧
    (∀ (s : State) (p : Nat),
      p < 8 →
      s.sys.inReset = true →
      exec (.perstNAssert p) s = .next (onHst s (portDie p) fun h => { h with perst := addNew h.perst (p % 4) })) ∧
    (∀ (s : State) (p : Nat),
      p < 8 →
      (s.sys.mode ≠ .standby ∨ s.sys.inReset = true) →
      exec (.perstNDeassert p) s = .next (onHst s (portDie p) fun h => { h with perst := without h.perst (p % 4) })) ∧
    (∀ (s : State) (p : Nat),
      p < 8 →
      s.sys.inReset = false →
      s.sys.mode = .standby →
      exec (.perstNDeassert p) s = .next (raiseLocal (onHst s (portDie p) fun h => { h with perst := without h.perst (p % 4) }) (portDie p) (1987 + p % 4))) ∧
    (∀ (s : State) (f : FnId),
      fnExists s f = true →
      exec (.d3hotEntry f) s = .next (modFn (msixDrop (fnReset s f 4) f) f fun x => { x with d3 := true })) ∧
    (∀ (s : State) (i : Nat),
      (inst s i).st = .resetting →
      hostLinkUp s (inst s i).fn = true →
      resetDrained s i = true →
      exec (.instanceResetDone i) s = .next (instReturn s i)) ∧
    (∀ (s : State) (i : Nat),
      (inst s i).st = .quiescing →
      instOps s i = [] →
      exec (.instanceQuiesceDone i) s = .next (quiesceOver (setInstSt s i .quiesced 0) i)) ∧
    (∀ (s : State) (p l : Nat),
      linkExists s p l = true →
      s.sys.inReset = false →
      p % 4 ∉ (die s (portDie p)).hst.perst →
      unitDown s (portDie p) 0x08 (p % 4) = false →
      s.sys.mode ≠ .standby →
      exec (.hostLinkTrained p l) s = .next (archiveCopyBegin (hostTrained s p l))) ∧
    (∀ (s : State) (p l : Nat) (r : HostReq),
      s.sys.mode = .bringup →
      r ≠ .atomicToBar →
      exec (.hostConfigRequest p { link := l, what := r }) s = .next (emit s (.cfgRetry p l))) ∧
    (∀ (s : State) (p l : Nat),
      (s.sys.mode = .bringup ∨ (hlink s p l).up = true) →
      exec (.hostConfigRequest p { link := l, what := .atomicToBar }) s = .next (emit s (.unsupported p l))) ∧
    (∀ (s : State) (p l : Nat),
      s.sys.mode ≠ .bringup →
      (hlink s p l).up = true →
      exec (.hostConfigRequest p { link := l, what := .read }) s = .next (emit s (.cfgDone p l))) ∧
    (∀ (s : State) (p l n : Nat),
      s.sys.mode ≠ .bringup →
      (hlink s p l).up = true →
      exec (.hostConfigRequest p { link := l, what := .numVfs n }) s = .next (emit (modHlink s p l fun h => { h with numVfs := min n (256 / max 1 (codeLinks (portCode s p))) }) (.cfgDone p l))) ∧
    (∀ (s : State) (p l n : Nat) (on : Bool),
      let f : FnId := { port := p, link := l, fn := n }
      s.sys.mode ≠ .bringup →
      (hlink s p l).up = true →
      fnExists s f = true →
      exec (.hostConfigRequest p { link := l, what := .atsEnable n on }) s = .next (emit (modFn s f fun x => { x with atsEn := on }) (.cfgDone p l))) ∧
    (∀ (s : State) (p l n : Nat),
      let f : FnId := { port := p, link := l, fn := n }
      s.sys.mode ≠ .bringup →
      (hlink s p l).up = true →
      fnExists s f = true →
      exec (.hostConfigRequest p { link := l, what := .msixEnable n true }) s = .next (emit (modFn s f fun x => { x with msixEn := true }) (.cfgDone p l))) ∧
    (∀ (s : State) (p l n : Nat),
      let f : FnId := { port := p, link := l, fn := n }
      s.sys.mode ≠ .bringup →
      (hlink s p l).up = true →
      fnExists s f = true →
      exec (.hostConfigRequest p { link := l, what := .msixEnable n false }) s = .next (emit (msixDrop (modFn s f fun x => { x with msixEn := false }) f) (.cfgDone p l))) ∧
    (∀ (s : State) (p l n : Nat) (off : Bool),
      s.sys.mode ≠ .bringup →
      (hlink s p l).up = true →
      50000 ≤ n →
      n ≤ 64000000000 →
      exec (.hostConfigRequest p { link := l, what := .cplTimeout n off }) s = .next (emit (modHlink s p l fun h => { h with cplTimeout := n, cplOff := off }) (.cfgDone p l)))

/-- A write of a master inside the device that is there, and is admitted, takes effect as the register file gives; a denied one of
the I3C port, JTAG, a Carrel engine or the Flume is answered as denied and changes nothing. A read is answered with the
register's value. A host function without an instance reads zero from its BAR0 and its writes do nothing. The device-global
image, halves of 64-bit registers and views are such accesses. A GO from a host that reaches the management function, when the
mailbox is not busy and the sequence is the next one, takes the block and starts its command, and in Forensic fails any but
those it serves; any other GO raises the count of rejects, up to 255, and changes nothing else. A command that is done leaves
its result, clears BUSY and raises the interrupt. Completes here: registerWrite, globalImageWrite, lowHalfReadLatch,
lowHalfWriteHold, viewSnapshotRead, crzQViewRead, aclRegionWrite, mbxGo, mbxCommandDone. Cites R273, R315, R345, R349, R428,
R467, R468, R470. -/
def Obligations.RegistersAndTheMailboxAct : Prop :=
    (∀ (s : State) (m : Master) (off n : Nat) (x : Word) (u : State) (v : Nat),
      masterThere s m = true →
      (∀ f, m ≠ .host f) →
      regWriteAs s m true (homeDie m) (off) n (x.toNat) = (u, .done v) →
      exec (.registerWrite m off n x) s = .next (u)) ∧
    (∀ (s : State) (m : Master) (off n : Nat) (x : Word) (u : State) (a : Nat),
      masterThere s m = true →
      (∀ f, m ≠ .host f) →
      regWriteAs s m true (homeDie m) off n x.toNat = (u, .denied a) →
      exec (.registerWrite m off n x) s = .next (emit u (.regDenied m a true))) ∧
    (∀ (s : State) (f : FnId) (off n : Nat) (x : Word),
      masterThere s (.host f) = true →
      off < 2 ^ 32 →
      forensic s = false →
      isMgmt s f = false →
      (fnOf s f).inst = none →
      exec (.registerWrite (.host f) off n x) s = .next (s)) ∧
    (∀ (s : State) (m : Master) (off n : Nat) (x : Word) (u : State) (v : Nat),
      masterThere s m = true →
      (∀ f, m ≠ .host f) →
      regWriteAs s m true (homeDie m) (0x8000000 + off % 0x4000000) n (x.toNat) = (u, .done v) →
      exec (.globalImageWrite m off n x) s = .next (u)) ∧
    (∀ (s : State) (m : Master) (off : Nat) (x : BitVec 32) (u : State) (v : Nat),
      masterThere s m = true →
      (∀ f, m ≠ .host f) →
      regWriteAs s m true (homeDie m) (off) 4 (x.toNat) = (u, .done v) →
      exec (.lowHalfWriteHold m off x) s = .next (u)) ∧
    (∀ (s : State) (m : Master) (off : Nat) (u : State) (v : Nat),
      masterThere s m = true →
      (∀ f, m ≠ .host f) →
      regReadAs s m true (off) 4 = (u, .done v) →
      exec (.lowHalfReadLatch m off) s = .next (emit u (.regData m (off) v))) ∧
    (∀ (s : State) (m : Master) (off : Nat) (u : State) (v : Nat),
      masterThere s m = true →
      (∀ f, m ≠ .host f) →
      regReadAs s m true (off) 8 = (u, .done v) →
      exec (.viewSnapshotRead m off) s = .next (emit u (.regData m (off) v))) ∧
    (∀ (s : State) (m : Master) (d : Die) (u : State) (v : Nat),
      masterThere s m = true →
      (∀ f, m ≠ .host f) →
      regReadAs s m true (regOff d 0x1100020) 8 = (u, .done v) →
      exec (.crzQViewRead m d) s = .next (emit u (.regData m (regOff d 0x1100020) v))) ∧
    (∀ (s : State) (n : Nat) (x : Word) (u : State) (v : Nat),
      masterThere s (.cp .west 0) = true →
      regWriteAs s (.cp .west 0) true .west (regOff .west (0x1800000 + 8 * (n % 64))) 8 x.toNat = (u, .done v) →
      exec (.aclRegionWrite n x) s = .next (u)) ∧
    (∀ (s : State) (f : FnId) (off : Nat),
      masterThere s (.host f) = true →
      off < 2 ^ 32 →
      isMgmt s f = false →
      forensic s = false →
      (fnOf s f).inst = none →
      exec (.viewSnapshotRead (.host f) off) s = .next (emit s (.regData (.host f) off 0))) ∧
    (∀ (s : State) (v : BitVec 32),
      hostReach s (mgmtFn s) = true →
      mbxAccepts s v.toNat = true →
      forensic s = false →
      exec (.mbxGo v) s = .next (opStart (mbxTake s v.toNat s.mbx.block).1 (mbxTake s v.toNat s.mbx.block).2)) ∧
    (∀ (s : State) (v : BitVec 32),
      hostReach s (mgmtFn s) = true →
      mbxAccepts s v.toNat = true →
      forensic s = true →
      forensicTakes s.mbx.block = false →
      exec (.mbxGo v) s = .next (failOp (mbxTake s v.toNat s.mbx.block).1 (mbxTake s v.toNat s.mbx.block).2 0x02 0)) ∧
    (∀ (s : State) (v : BitVec 32),
      hostReach s (mgmtFn s) = true →
      mbxAccepts s v.toNat = false →
      exec (.mbxGo v) s = .next ({ s with mbx := { s.mbx with rejects := satInc 8 s.mbx.rejects } })) ∧
    (∀ (s : State) (r : BitVec 256),
      s.mbx.resultDue = some r →
      (asksReset s.mbx.copy = false ∨ s.sys.resetDue = none) →
      exec (.mbxCommandDone) s = .next (mbxInterrupt { s with mbx := { s.mbx with result := r, busy := false, op := none, resultDue := none } }))

/-- A read of a free semaphore by a master that reaches it takes it and returns 0; of a held one it returns its word. Its holder's
release frees it and tells every armed waiter; a release by any other is logged, and posted at most once per 1 ms. Arming a held
semaphore adds the waiter, one per master and at most 16; arming a free one tells the waiter at once; arming one that the master
holds is a fault. Disarming removes the master's waiter. A tenant without the grant reads all ones. Completes here: semAcquire,
semRelease, semArm, semDisarm. Cites R365, R366, R367, R368. -/
def Obligations.SemaphoresAct : Prop :=
    (∀ (s : State) (m : Master) (d : Die) (n : Nat),
      masterThere s m = true →
      semReach s m d n (0x500000 + 16 * n) false = .ok →
      (sem s d n).holder = none →
      exec (.semAcquire m d n) s = .next (emit (modSem (pmc s d 716 1) d n fun x => { x with holder := some m }) (.regData m (regOff d (0x500000 + 16 * n)) 0))) ∧
    (∀ (s : State) (m : Master) (d : Die) (n : Nat),
      masterThere s m = true →
      semReach s m d n (0x500000 + 16 * n) false = .ok →
      (sem s d n).holder ≠ none →
      exec (.semAcquire m d n) s = .next (emit (pmc s d 717 1) (.regData m (regOff d (0x500000 + 16 * n)) (semWord s d n)))) ∧
    (∀ (s : State) (m : Master) (d : Die) (n : Nat),
      masterThere s m = true →
      semReach s m d n (0x500000 + 16 * n) false = .ungranted →
      exec (.semAcquire m d n) s = .next (emit s (.regData m (regOff d (0x500000 + 16 * n)) (2 ^ 64 - 1)))) ∧
    (∀ (s : State) (m : Master) (d : Die) (n : Nat),
      let x := sem s d n
      masterThere s m = true →
      semReach s m d n (0x500008 + 16 * n) true = .ok →
      x.holder = some m →
      x.orphaned = false →
      exec (.semRelease m d n) s = .next (semFree s d n)) ∧
    (∀ (s : State) (m : Master) (d : Die) (n : Nat),
      let x := sem s d n
      let u := semFault s d n 1 m
      masterThere s m = true →
      semReach s m d n (0x500008 + 16 * n) true = .ok →
      (x.holder ≠ some m ∨ x.orphaned = true) →
      (∀ t, (die u d).eng.semBadAt = some t → t + 1000000 ≤ u.now) →
      exec (.semRelease m d n) s = .next (postMgmt (onEng u d fun e => { e with semBadAt := some u.now }) d 0x63 (evb 8 (regVal u d 0x502000) + evb 16 d.idx))) ∧
    (∀ (s : State) (m : Master) (d : Die) (n : Nat) (l q : Nat),
      let x := sem s d n
      let y := x.arms.filter fun a => decide (a.who ≠ m)
      masterThere s m = true →
      semReach s m d n (0x500008 + 16 * n) true = .ok →
      m ≠ .jtag →
      (∀ r, m ≠ .flume r) →
      (∃ k, x.holder = some k ∧ k ≠ m) →
      y.length < 16 →
      exec (.semArm m d n l q) s = .next (semBoost (modSem s d n fun x => { x with arms := y ++ [{ who := m, level := l % 4, source := q % 4096 }] }) d n)) ∧
    (∀ (s : State) (m : Master) (d : Die) (n : Nat) (l q : Nat),
      let x := sem s d n
      masterThere s m = true →
      semReach s m d n (0x500008 + 16 * n) true = .ok →
      m ≠ .jtag →
      (∀ r, m ≠ .flume r) →
      x.holder = none →
      (x.arms.filter fun a => decide (a.who ≠ m)).length < 16 →
      exec (.semArm m d n l q) s = .next (semNotify s d n { who := m, level := l % 4, source := q % 4096 })) ∧
    (∀ (s : State) (m : Master) (d : Die) (n : Nat) (l q : Nat),
      let x := sem s d n
      masterThere s m = true →
      semReach s m d n (0x500008 + 16 * n) true = .ok →
      x.holder = some m →
      exec (.semArm m d n l q) s = .next (semFault s d n 2 m)) ∧
    (∀ (s : State) (m : Master) (d : Die) (n : Nat),
      masterThere s m = true →
      semReach s m d n (0x500008 + 16 * n) true = .ok →
      exec (.semDisarm m d n) s = .next (semBoost (modSem s d n fun x => { x with arms := x.arms.filter fun a => decide (a.who ≠ m) }) d n))

/-- A raised source takes its next state: IDLE becomes PENDING and ACTIVE becomes ACTIVE-PENDING. A pending enabled source of a
group not held off is delivered to its next target, and starts the group's hold-off. The read of the claim register claims the
most urgent active source of the core, or answers 0xFFF. A completion of a claimed source of that core ends it: IDLE, or PENDING
when raised meanwhile or its level stands. A written message ends its source. At the end of a hold-off the group's pending
sources are delivered. A level withdrawn takes back a pending source and a delivery to a core not yet claimed, and no other; an
idle source whose level stands is pending. A head write of an instance with an event ring, outside Forensic, returns the records
it covers, or is ignored, and raises the ring's source when it arms over records already written; likewise the management ring
of a die. Setting EN starts the ring again and keeps its count of lost events. CAT_SPEC.FLUSH empties the predictor. Completes
here: intSourceRaise, intRaiseWrite, intDelivery, intClaim, intComplete, msixMessageWritten, msixEnableCleared, holdoffExpiry,
eventHeadWrite, mgtEvtHeadWrite, mgtEvtEnable, catSpecFlush. Cites R168, R327, R328, R374, R375, R376, R377, R378. -/
def Obligations.InterruptsAndEventRingsAct : Prop :=
    (∀ (s : State) (d : Die) (n : Nat),
      neverRaised n = false →
      (s.sys.mode ≠ .standby ∨ 1984 ≤ n) →
      exec (.intSourceRaise d n) s = .next (modSrc s d n fun x => { x with st := raised x.st })) ∧
    (∀ (s : State) (d : Die) (n : Nat),
      neverRaised n = false →
      (s.sys.mode ≠ .standby ∨ 1984 ≤ n) →
      exec (.intRaiseWrite d n) s = .next (modSrc s d n fun x => { x with st := raised x.st })) ∧
    (∀ (s : State) (d : Die) (n : Nat),
      let r := deliverSrc s d n
      tget 0 (die s d).eng.groupTill (srcGroup s d n) = 0 →
      r.2 = true →
      exec (.intDelivery d n) s = .next (startGroup r.1 d (srcGroup s d n))) ∧
    (∀ (s : State) (d : Die) (n : Nat),
      let r := deliverSrc s d n
      tget 0 (die s d).eng.groupTill (srcGroup s d n) = 0 →
      r.2 = false →
      exec (.intDelivery d n) s = .next (r.1)) ∧
    (∀ (s : State) (d : Die) (c n : Nat),
      claimPick s d c = some n →
      exec (.intClaim d c) s = .next (emit (modSrc s d n fun x => { x with claimed := true }) (.regData (.cp d c) (regOff d (0x411000 + 16 * c)) (2048 * d.idx + n)))) ∧
    (∀ (s : State) (d : Die) (c : Nat),
      claimPick s d c = none →
      exec (.intClaim d c) s = .next (emit (pmc s d 715 1) (.regData (.cp d c) (regOff d (0x411000 + 16 * c)) 0xFFF))) ∧
    (∀ (s : State) (d : Die) (c j : Nat) (v : BitVec 32),
      bits v.toNat 11 1 = d.idx →
      (src s d (bits v.toNat 0 11)).claimed = true →
      (src s d (bits v.toNat 0 11)).cur = some j →
      tgtCore (srcTgt s d (bits v.toNat 0 11) j) = some c →
      exec (.intComplete d c v) s = .next (modSrc s d (bits v.toNat 0 11) srcEnded)) ∧
    (∀ (s : State) (d : Die) (n j : Nat),
      (src s d n).cur = some j →
      ((src s d n).st = .active ∨ (src s d n).st = .activePending) →
      tgtCore (srcTgt s d n j) = none →
      tgtVec (srcTgt s d n j) ∈ (fnOf s (tgtFn d (srcTgt s d n j))).unmasked →
      exec (.msixMessageWritten d n) s = .next (msixSend (modSrc s d n srcEnded) (tgtFn d (srcTgt s d n j)) (tgtVec (srcTgt s d n j)))) ∧
    (∀ (s : State) (f : FnId),
      exec (.msixEnableCleared f) s = .next (msixDrop (modFn s f fun x => { x with msixEn := false }) f)) ∧
    (∀ (s : State) (d : Die) (g : Nat),
      let t := tget 0 (die s d).eng.groupTill g
      let u := onEng s d fun e => { e with groupTill := tset 0 e.groupTill g 0 }
      let l := ((die u d).eng.srcs.filter fun (n, x) => decide (x.st = .pending ∧ srcGroup u d n = g)).map (·.1)
      let r := l.foldl (fun (a : State × Bool) n => ((deliverSrc a.1 d n).1, a.2 || (deliverSrc a.1 d n).2)) (u, false)
      t ≠ 0 →
      t ≤ s.now + 1 →
      exec (.holdoffExpiry d g) s = .next (if r.2 then startGroup r.1 d g else r.1)) ∧
    (∀ x : Src, (srcEnded x).claimed = false ∧ (x.st = .activePending → (srcEnded x).st = .pending) ∧ (x.st = .active → (srcEnded x).st = if x.level then .pending else .idle)) ∧
    (∀ (s : State) (d : Die) (n : Nat) (x : Src),
      x.st = .pending →
      srcWithdrawn s d n x = { x with st := .idle }) ∧
    (∀ (s : State) (d : Die) (n : Nat) (x : Src),
      x.st = .active →
      coreWaits s d n x = true →
      srcWithdrawn s d n x = { x with st := .idle, cur := none }) ∧
    (∀ (s : State) (d : Die) (n : Nat) (x : Src),
      x.st = .active →
      coreWaits s d n x = false →
      srcWithdrawn s d n x = x) ∧
    (∀ (x : Src),
      x.level = true →
      x.st = .idle →
      levelAgain x = { x with st := .pending }) ∧
    (∀ (s : State) (i : Nat) (v : BitVec 32),
      let r := evtHeadWrite (inst s i).evt (inst s i).evtLog2 (inst s i).evtIntEn v
      let u := modInst s i fun x => { x with evt := r.1 }
      forensic s = false →
      (inst s i).st ≠ .absent →
      (inst s i).evtBase ≠ 0 →
      exec (.eventHeadWrite i v) s = .next (if r.2 then raiseSource u (instDie u i) (inst s i).evtIntSource else u)) ∧
    (∀ (s : State) (d : Die) (v : BitVec 32),
      let c := regVal s d 0x308
      let r := evtHeadWrite (die s d).evt (bits c 0 5) (bit c 30) v
      let u := onDie s d fun x => { x with evt := r.1 }
      forensic s = false →
      bit c 31 = true →
      exec (.mgtEvtHeadWrite d v) s = .next (if r.2 then raiseSource u d (bits c 12 12) else u)) ∧
    (∀ (s : State) (d : Die),
      let u := onDie s d fun x => { x with evt := { lost := x.evt.lost } }
      bit (regVal s d 0x308) 31 = false →
      exec (.mgtEvtEnable d) s = .next (setReg u d 0x308 (setBits (regVal u d 0x308) 31 1 1))) ∧
    (∀ (s : State) (d : Die),
      exec (.catSpecFlush d) s = .next (onCat s d fun x => { x with pred := [] })) ∧
    (∀ (e : EvtRing) (k : Nat) (en : Bool) (v : BitVec 32),
      let dist := headDist k e.lap e.head (bit v.toNat 20) (bits v.toNat 0 16)
      let r := evtHeadWrite e k en v
      (e.written < dist → r = (e, false)) ∧
      (dist ≤ e.written → r.1.written = e.written - dist ∧ r.1.head = bits v.toNat 0 16 ∧ r.1.lap = bit v.toNat 20 ∧ r.1.lost = e.lost ∧
        r.2 = (bit v.toNat 31 && en && decide (dist < e.written)) ∧ r.1.arm = (bit v.toNat 31 && !r.2)))

/-- An active pair of a device that is not split: a read of a line it holds is a hit, and of another a miss that leaves it E alone
and S among others, M and E copies becoming O and S; a write leaves it the only holder, M; an eviction removes its copy; the
directory's eviction removes every copy. While split, an access to the other die raises an exception. A mismatch of a pair in
use is reported as its block-fatal fault and the pair fails. Commands of a failed pair are executed again on the threads of a
spare pair made active, or on free threads when none is made. A miss of which no copy is in a cache reads memory; a written line
goes back to memory. Scrubbing counts corrections, which are CORRECTED faults of the HBM block, and uncorrectable units, which
are poisoned, logged and DEFERRED faults of that block (log entry 133). Completes here: cacheRead, cacheWrite, cacheEvict,
directoryEvict, pairReexecute, lockstepMismatch, scrubUnit, scrubFull. Cites R354, R355, R356, R358, R362, R421. -/
def Obligations.EnginesAndMemoryAct : Prop :=
    (∀ (s : State) (d : Die) (p : Nat) (home : Die) (a : Nat),
      (pairOf s d p).st = .active →
      (splitNow s = false ∨ home = d) →
      holds (lineAt s home a) (pairKey d p) ≠ .i →
      exec (.cacheRead d p home a) s = .next (pmcAt s d 640 1 (engCtx p 0))) ∧
    (∀ (s : State) (d : Die) (p : Nat) (home : Die) (a : Nat),
      let u := dirRoom (cacheRoom (pmcAt s d 641 1 (engCtx p 0)) (pairKey d p)) home a
      let v := if (lineAt u home a).holders.any (fun (_, x) => decide (x = .m ∨ x = .o ∨ x = .e)) then u else hbmBurst u home a 672
      (pairOf s d p).st = .active →
      (splitNow s = false ∨ home = d) →
      holds (lineAt s home a) (pairKey d p) = .i →
      exec (.cacheRead d p home a) s = .next (setLine v home a (readLine (lineAt v home a) (pairKey d p)))) ∧
    (∀ (s : State) (d : Die) (p : Nat) (home : Die) (a : Nat),
      let u := dirRoom (cacheRoom (pmcAt s d 641 1 (engCtx p 0)) (pairKey d p)) home a
      let v := if (lineAt u home a).holders.any (fun (_, x) => decide (x = .m ∨ x = .o ∨ x = .e)) then u else hbmBurst u home a 672
      (pairOf s d p).st = .active →
      (splitNow s = false ∨ home = d) →
      holds (lineAt s home a) (pairKey d p) = .i →
      exec (.cacheWrite d p home a) s = .next (setLine v home a { holders := [(pairKey d p, .m)] })) ∧
    (∀ (s : State) (d : Die) (p : Nat) (home : Die) (a : Nat),
      (pairOf s d p).st = .active →
      (splitNow s = false ∨ home = d) →
      holds (lineAt s home a) (pairKey d p) ≠ .i →
      exec (.cacheWrite d p home a) s = .next (setLine (pmcAt s d 640 1 (engCtx p 0)) home a { holders := [(pairKey d p, .m)] })) ∧
    (∀ (s : State) (d : Die) (p : Nat) (home : Die) (a : Nat),
      (pairOf s d p).st = .active →
      (splitNow s = false ∨ home = d) →
      exec (.cacheEvict d p home a) s = .next (writeBack (setLine s home a { holders := tdel (lineAt s home a).holders (pairKey d p) }) home a (dirty (holds (lineAt s home a) (pairKey d p))))) ∧
    (∀ (s : State) (d : Die) (p : Nat) (home : Die) (a : Nat),
      (pairOf s d p).st = .active →
      splitNow s = true →
      home ≠ d →
      exec (.cacheWrite d p home a) s = .next (emit s (.exception d p))) ∧
    (∀ (s : State) (home : Die) (a : Nat),
      (lineAt s home a).holders ≠ [] →
      exec (.directoryEvict home a) s = .next (pmc (writeBack (setLine s home a {}) home a ((lineAt s home a).holders.any fun (_, x) => dirty x)) home 642 1)) ∧
    (∀ (s : State) (d : Die) (p : Nat),
      let o := (pairOf s d p).deadOps.filter fun o => liveOp s o
      let u := s
      let l := o.zip (freeThreads s d)
      let t := l.foldl (fun s m => putThread (modOp s m.1 fun x => { x with read := none, begun := false }) d m.1 m.2) u
      ((pairOf s d p).st = .failed ∨ (pairOf s d p).deadOps ≠ []) →
      (30 ≤ (pairsIn s d .active).length ∨ pairsIn s d .spare = []) →
      exec (.pairReexecute d p) s = .next (modPair (pmcAt t d 644 l.length (match l.getLast? with | some m => engCtx m.2.1 m.2.2 | none => 0)) d p fun x => { x with deadOps := o.drop l.length })) ∧
    (∀ (s : State) (d : Die) (p q : Nat),
      let o := (pairOf s d p).deadOps.filter fun o => liveOp s o
      let u := pairGo s d q .active o.length
      let l := o.zip ((freeThreads u d).filter fun x => decide (x.1 = q))
      let t := l.foldl (fun s m => putThread (modOp s m.1 fun x => { x with read := none, begun := false }) d m.1 m.2) u
      ((pairOf s d p).st = .failed ∨ (pairOf s d p).deadOps ≠ []) →
      (pairsIn s d .active).length < 30 →
      (pairsIn s d .spare).head? = some q →
      exec (.pairReexecute d p) s = .next (modPair (pmcAt t d 644 l.length (match l.getLast? with | some m => engCtx m.2.1 m.2.2 | none => 0)) d p fun x => { x with deadOps := o.drop l.length })) ∧
    (∀ (s : State) (d : Die) (p : Nat),
      let u := reportOwn s d 0x15 p .blockFatal
      p < 32 →
      (pairOf s d p).st ≠ .failed →
      (pairOf s d p).st ≠ .untested →
      exec (.lockstepMismatch d p) s = .next (if (pairOf u d p).st = .failed then u else killPair (unitFault u d 0x15 p) d p)) ∧
    (∀ (s : State) (d : Die) (w : MemUnit),
      let v := pmc s d 676 1
      let u := if w.sram then v else pmc v d 672 1
      s.sys.inReset = false →
      s.sys.mode ≠ .standby →
      exec (.scrubUnit d w .correctable) s = .next (reportOwn (if w.sram then pmc u d 674 1 else pmc (pmc u d 674 1) d 673 1) d 0x16 0xFFFF .corrected)) ∧
    (∀ (s : State) (d : Die) (w : MemUnit) (h : UnitHolds),
      let v := pmc s d 676 1
      let u := if w.sram then v else pmc v d 672 1
      let x := pmc (pmc u d 675 1) d 677 1
      let u := onEng (if w.sram then x else pmc x d 673 1) d fun x => { x with poison := tset 0 x.poison (unitKey w) 1 }
      let r := takeFree (logUncorr u d w)
      s.sys.inReset = false →
      s.sys.mode ≠ .standby →
      exec (.scrubUnit d w (.uncorrectable h)) s = .next (poisonOutcome (evDeferred (noteDeferred r.2 d 0x16 0xFFFF (r.1.toNat % 65536)) d w ((lostCtx h).map (·.2)) (match lostCtx h with | some (i, _) => some i | none => w.owner)) d h)) ∧
    (∀ (s : State) (d : Die),
      exec (.scrubFull d) s = .next (onEng s d fun e => { e with scrubFull := true }))

/-- SYS_RESET_N low for 1 µs resets the device and below 100 ns does nothing; PWRGOOD low for 100 ns resets it too and releases
THERMTRIP_N; the internal reset acts at its time and keeps what R450 keeps. Reset is released, with PWRGOOD for 10 ms, into
bring-up. A good image in the slot that is read takes bring-up to stage 4, from slot B with its status; a bad slot A turns to
slot B and a bad slot B holds the device. Bring-up is complete, with the pairs and stacks that pass their tests, in Service or
Degraded unless what it collects is fatal; after Standby it restores the trees and trains the enabled links. Standby is entered
at its time from Drain. A watched source that is raised wakes the device into bring-up, with the source recorded. The always-on
timer, and a write of 1 to MGT_WAKE, raise their sources on both dies. The Archive written in Forensic is valid and, with a
designation and the link up, its copy begins; a copy that is done writes the image with its header last and completes the
commands that waited for it. Completes here: sysResetAssert, pwrgoodAssert, pwrgoodDeassert, internalDeviceReset, resetRelease,
imageAuthenticated, bringupComplete, standbyEntry, standbyWake, wakeTimerExpiry, mgtWakeWrite, archiveComplete,
archiveHostCopyDone. Cites R409, R412, R413, R429, R431, R432, R437, R439, R449, R450. -/
def Obligations.ResetsBringUpAndModesAct : Prop :=
    (∀ (s : State) (n : Nat),
      1000 ≤ n →
      exec (.sysResetAssert n) s = .next (resetPins (deviceReset s false))) ∧
    (∀ (s : State) (n : Nat),
      n < 100 →
      exec (.sysResetAssert n) s = .next (s)) ∧
    (∀ (s : State),
      s.sys.pwrgood = false →
      exec (.pwrgoodAssert) s = .next (onSys s fun y => { y with pwrgood := true, pwrgoodAt := s.now })) ∧
    (∀ (s : State) (n : Nat),
      100 ≤ n →
      exec (.pwrgoodDeassert n) s = .next (emit (onSys (resetPins (deviceReset s false)) fun y => { y with pwrgood := false, thermtrip := false }) (.pin "THERMTRIP_N" 1))) ∧
    (∀ (s : State) (t : Nat),
      s.sys.resetDue = some t →
      t ≤ s.now →
      exec (.internalDeviceReset) s = .next (resetPins (deviceReset s true))) ∧
    (∀ (s : State) (w : BitVec 32),
      s.sys.inReset = true →
      s.sys.pwrgood = true →
      s.sys.pwrgoodAt + 10000000 ≤ s.now →
      exec (.resetRelease w) s = .next (resetRelease s w.toNat)) ∧
    (∀ (s : State) (n : Nat) (h : List Byte),
      imageWanted s = true →
      n = s.sys.bootSlot →
      s.sys.wakeLinks = false →
      exec (.imageAuthenticated n true true h) s = .next (aclDefault (onSys s fun y => { y with bootStage := 4, bootStatus := if n = 1 then 3 else 0, bootSlot := n, imageSha := h.take 48, heartbeat := .hz500 }))) ∧
    (∀ (s : State) (n : Nat) (h : List Byte),
      imageWanted s = true →
      n = s.sys.bootSlot →
      s.sys.wakeLinks = true →
      exec (.imageAuthenticated n true true h) s = .next (onSys s fun y => { y with bootStage := 4, bootStatus := if n = 1 then 3 else 0, bootSlot := n, imageSha := h.take 48, heartbeat := .hz500 })) ∧
    (∀ (s : State) (a e : Bool) (h : List Byte),
      imageWanted s = true →
      s.sys.bootSlot = 0 →
      (a = false ∨ e = false) →
      exec (.imageAuthenticated 0 a e h) s = .next (onSys s fun y => { y with bootSlot := 1 })) ∧
    (∀ (s : State) (a e : Bool) (h : List Byte),
      imageWanted s = true →
      s.sys.bootSlot = 1 →
      (a = false ∨ e = false) →
      exec (.imageAuthenticated 1 a e h) s = .next (onSys s fun y => { y with bootStatus := 1, heartbeat := .low })) ∧
    (∀ (s : State),
      let b := (selfTests s).1
      let u := brgAfter (bridgeSettled (bridgeSettled (selfTested (selfTested (selfTests s).2 .west b.westPairs b.westHbm) .east b.eastPairs b.eastHbm) .north) .south)
      let v := collectAll (onSys u fun y => { y with bootStage := 7, armed := true, wakeLinks := false })
      s.sys.mode = .bringup →
      4 ≤ s.sys.bootStage →
      s.sys.bootStage < 7 →
      s.sys.inReset = false →
      s.sys.wakeLinks = false →
      exec (.bringupComplete) s = .next (if forensic v then v else setMode v (serviceMode v) 4)) ∧
    (∀ (s : State),
      let b := (selfTests s).1
      let u := brgAfter (bridgeSettled (bridgeSettled (selfTested (selfTested (selfTests s).2 .west b.westPairs b.westHbm) .east b.eastPairs b.eastHbm) .north) .south)
      let v := collectAll (onSys u fun y => { y with bootStage := 7, armed := true, wakeLinks := false })
      let w := if forensic v then v else setMode v (serviceMode v) 3
      s.sys.mode = .bringup →
      4 ≤ s.sys.bootStage →
      s.sys.bootStage < 7 →
      s.sys.inReset = false →
      s.sys.wakeLinks = true →
      exec (.bringupComplete) s = .next (wakeTrain (wakeTrain (treesBack (treesBack w .west) .east) .west) .east)) ∧
    (∀ (s : State) (k : Bool), (deviceReset s k).sys.inReset = true ∧ (deviceReset s k).sys.mode = .bringup ∧ (deviceReset s k).flash = s.flash ∧ (deviceReset s k).pending = s.pending ∧
      (deviceReset s k).sys.thermtrip = s.sys.thermtrip ∧ (deviceReset s false).mbx.valid = false ∧ (deviceReset s true).mbx.lastSeq = s.mbx.lastSeq ∧ (deviceReset s true).mbx.valid = s.mbx.valid ∧
      (deviceReset s true).mbx.result = s.mbx.result ∧ (deviceReset s true).arch.dest = s.arch.dest ∧ (deviceReset s true).arch.valid = s.arch.valid) ∧
    (∀ (s : State),
      s.sys.standbyDue.isSome = true →
      s.sys.mode = .drain →
      exec (.standbyEntry) s = .next (standbyEnter s)) ∧
    (∀ (s : State) (n : Nat),
      s.sys.mode = .standby →
      wakes s n = true →
      exec (.standbyWake n) s = .next (standbyWake s n)) ∧
    (∀ (s : State) (t : Nat),
      s.sys.wakeAt = some t →
      t ≤ s.now →
      s.sys.mode = .standby →
      exec (.wakeTimerExpiry) s = .next (raiseLocal (raiseLocal (onSys s fun y => { y with wakeAt := none }) .west 1991) .east 1991)) ∧
    (∀ (s : State),
      s.sys.inReset = false →
      exec (.mgtWakeWrite) s = .next (raiseLocal (raiseLocal s .west 1984) .east 1984)) ∧
    (∀ (s : State),
      forensic s = true →
      s.arch.valid = false →
      exec (.archiveComplete) s = .next (archiveWritten s)) ∧
    (∀ (s : State) (a : Nat),
      let u := archiveWrites s a
      s.arch.copying = true →
      hostLinkUp s (mgmtFn s) = true →
      s.arch.dest = some a →
      exec (.archiveHostCopyDone) s = .next (s.arch.copyOps.foldl (fun s o => completeOp s o { code := 0 }) { u with arch := { u.arch with copying := false, copied := true, copyOps := [] } })) ∧
    (∀ (s : State) (n : Nat), let t := standbyWake s n
      (n < 4096 ∧ 1984 ≤ n % 2048 ∧ n % 2048 ≤ 2046 ∧ bit (die s (Die.ofCode (n / 2048))).eng.intWatch (n % 2048 - 1984) = true ∧ (src s (Die.ofCode (n / 2048)) (n % 2048)).st ≠ .idle ↔ wakes s n = true) ∧
      t.sys.mode = .bringup ∧ t.sys.wakeSource = n ∧ t.sys.bootStage = 1 ∧ t.sys.wakeLinks = true)

/-- A fault reported out of reset is recorded and has the reaction of its class. A broken wire, while the Lookout collects, is
marked, posted at most once per 1 s and reported as a corrected fault. A block with a broken wire is polled every 1 µs, and
collected then unless a unit of it recovers, until its wires agree again. A unit whose quiet time is over is tested: passing
leaves FAULT, and eight recoveries within 10 s hold it. A missed heartbeat of firmware at 500 Hz is a device-fatal fault.
Completes here: lookoutReport, lookoutWireBroken, lookoutPoll, faultQuietEnd, pairRetest, heartbeatMissed. Cites R416, R417,
R418, R420, R423, R426. -/
def Obligations.TheLookoutActs : Prop :=
    (∀ (s : State) (d : Die) (b u : Nat) (c : FaultClass) (k : Nat),
      s.sys.inReset = false →
      (b % 32 ≠ 0x15 ∨ pairsGone s d = true) →
      exec (.lookoutReport d b u c k) s = .next (reportOne s d (b % 32) (u % 65536) c (k % 65536))) ∧
    (∀ (s : State) (d : Die) (b : Nat) (c : FaultClass),
      let l := tget 0 (errRec s d b).wireEvAt (classCode c)
      collecting s = true →
      l ≠ 0 →
      s.now + 1 < l + 1000000000 →
      exec (.lookoutWireBroken d b c) s = .next (reportOwn (modErr s d b fun e => { e with wireBroken := addNew e.wireBroken (classCode c) }) d 0x01 0xFFFF .corrected)) ∧
    (∀ (s : State) (d : Die) (b : Nat) (c : FaultClass),
      let l := tget 0 (errRec s d b).wireEvAt (classCode c)
      collecting s = true →
      (l = 0 ∨ l + 1000000000 ≤ s.now + 1) →
      exec (.lookoutWireBroken d b c) s = .next (reportOwn (postMgmt (modErr s d b fun e => { e with wireBroken := addNew e.wireBroken (classCode c), wireEvAt := tset 0 e.wireEvAt (classCode c) (s.now + 1) }) d 0x03 (evb 8 d.idx + evb 9 b + evb 10 (classCode c))) d 0x01 0xFFFF .corrected)) ∧
    (∀ (s : State) (d : Die) (b : Nat) (a : Bool),
      let u := modErr s d b fun e => { e with pollAt := s.now, wireBroken := if a then [] else e.wireBroken }
      collecting s = true →
      (errRec s d b).wireBroken ≠ [] →
      (errRec s d b).pollAt + 1000 ≤ s.now →
      recovering u d b = false →
      exec (.lookoutPoll d { blk := b, agree := a }) s = .next (collect u d b)) ∧
    (∀ (s : State) (d : Die) (b : Nat) (a : Bool),
      let u := modErr s d b fun e => { e with pollAt := s.now, wireBroken := if a then [] else e.wireBroken }
      collecting s = true →
      (errRec s d b).wireBroken ≠ [] →
      (errRec s d b).pollAt + 1000 ≤ s.now →
      recovering u d b = true →
      exec (.lookoutPoll d { blk := b, agree := a }) s = .next (u)) ∧
    (∀ (s : State) (d : Die) (b u : Nat) (p : Bool),
      (unitOf s d b u).st = .fault →
      (unitOf s d b u).quietEnd ≤ s.now →
      (b ≠ 0x15 ∨ 32 ≤ u) →
      exec (.faultQuietEnd d b u p) s = .next (unitTested s d b u p)) ∧
    (∀ (s : State) (d : Die) (n : Nat) (p : Bool),
      (unitOf s d 0x15 n).st = .fault →
      (unitOf s d 0x15 n).quietEnd ≤ s.now →
      n < 32 →
      exec (.pairRetest d n p) s = .next (unitTested s d 0x15 n p)) ∧
    (∀ (s : State) (d : Die),
      s.sys.heartbeat = .hz500 →
      exec (.heartbeatMissed d) s = .next (reportOwn { s with sys := { s.sys with heartbeat := .low } } d 0x00 0xFFFF .deviceFatal))

/-- Wanted tokens not held or asked for yet are asked for, in arrival order, with the count of the work; the request at the head is
granted when E + G + n stays within LIMIT and the die does not throttle, and nothing behind it goes first; a request no longer
wanted is dropped. Work that is over releases its tokens. Every 20 µs an eighth is taken, up to 7, while the die must throttle,
and given back while it need not. A new voltage request of 5 mV steps is published as the higher of the two dies' and signalled
with 0xA5. A thermal sample up to THROTTLE and every limit is kept and drives the warn levels; a voltage sample within its bands
is kept with its band and drives the alarm levels. Completes here: tokenRequest, tokenGrant, tokenRelease, throttleStep,
avsRequestChange, thermalSample, voltageSample. Cites R433, R434, R435, R436. -/
def Obligations.PowerIsManaged : Prop :=
    (∀ (s : State) (d : Die) (u : TokenUnit),
      tokenWanted s d u = true →
      tokenHeld s d u = false →
      exec (.tokenRequest d u) s = .next (onPwr (pmc s d 711 1) d fun p => { p with queue := p.queue ++ [{ unit := u, n := tokenCount s d u, at_ := s.now }] })) ∧
    (∀ (s : State) (d : Die) (t : Token) (l : List Token),
      (die s d).pwr.queue = t :: l →
      tokenWanted s d t.unit = true →
      (die s d).pwr.eighths = 0 →
      (die s d).pwr.est + tokensOut s d + t.n ≤ pwrLimit s d →
      exec (.tokenGrant d) s = .next (tokenStart (onPwr s d fun p => { p with queue := l, granted := p.granted ++ [{ t with at_ := s.now }] }) d t.unit)) ∧
    (∀ (s : State) (d : Die) (t : Token) (l : List Token),
      (die s d).pwr.queue = t :: l →
      tokenWanted s d t.unit = true →
      (0 < (die s d).pwr.eighths ∨ pwrLimit s d < (die s d).pwr.est + tokensOut s d + t.n) →
      exec (.tokenGrant d) s = .next (s)) ∧
    (∀ (s : State) (d : Die) (t : Token) (l : List Token),
      (die s d).pwr.queue = t :: l →
      tokenWanted s d t.unit = false →
      exec (.tokenGrant d) s = .next (onPwr s d fun p => { p with queue := l })) ∧
    (∀ (s : State) (d : Die) (k : Nat) (t : Token),
      ((die s d).pwr.granted.find? fun t => decide (t.unit = .adapt k)) = some t →
      tokenDone s d t = true →
      exec (.tokenRelease d (.adapt k)) s = .next (onPwr s d fun p => { p with granted := p.granted.filter fun x => decide (x.unit ≠ .adapt k) })) ∧
    (∀ (s : State) (d : Die),
      let u := onPwr s d fun p => { p with throttleAt := s.now, eighths := if mustThrottle s d then min 7 (p.eighths + 1) else p.eighths - 1 }
      (die s d).pwr.throttleAt + 20000 ≤ s.now →
      exec (.throttleStep d) s = .next (setLevel u d 1897 (decide ((die u d).pwr.eighths ≠ 0)))) ∧
    (∀ (s : State) (w e : Nat),
      let r := takeFree s
      avsForm w = true →
      avsForm e = true →
      max w e ≠ (die s .west).pwr.avsWant →
      s.sys.inReset = false →
      exec (.avsRequestChange w e) s = .next (emit (onPwr (onPwr r.2 .west fun p => { p with avsWant := max w e, appliedMv := bits r.1.toNat 0 16 }) .east fun p => { p with avsWant := max w e, appliedMv := bits r.1.toNat 16 16 }) (.ibi [0xA5]))) ∧
    (∀ (s : State) (d : Die) (n v : Nat),
      let u := onPwr s d fun p => { p with thermal := tset 0 p.thermal n v, critSince := tdel p.critSince n }
      let w := (die u d).pwr.thermal.any fun (_, t) => decide (warnAt u d < t)
      let y := setLevel u d 1985 w
      let z := setLevel y d 1895 w
      n < 32 →
      v ≤ 1000 →
      s.sys.inReset = false →
      s.sys.mode ≠ .standby →
      v ≤ criticalAt s d →
      v ≤ warnAt s d →
      tget 0 (tdel (die s d).pwr.critSince n) n = 0 →
      exec (.thermalSample d n v) s = .next (z)) ∧
    (∀ (s : State) (d : Die) (n mv : Nat),
      let b := sinceTab (sinceTab (die s d).pwr.bandSince (2 * n) false s.now) (2 * n + 1) false s.now
      let u := onPwr s d fun p => { p with volts := tset 0 p.volts n mv, voltBand := tset 0 p.voltBand n 0, bandSince := b }
      let w := (die u d).pwr.voltBand.any fun (_, b) => decide (b ≠ 0)
      let y := setLevel u d 1986 w
      let z := setLevel y d 1896 w
      n < 48 →
      mv < 65536 →
      s.sys.inReset = false →
      s.sys.mode ≠ .standby →
      tget 0 b (2 * n) = 0 →
      tget 0 b (2 * n + 1) = 0 →
      exec (.voltageSample d n mv .normal) s = .next (z))

/-- With an address: a register read or write of 4 or 8 bytes that is admitted answers OK with the data; another size is MALFORMED;
a flash read of 1 to 256 bytes answers with them, an erase clears the 64 KiB sector, a program inside a page ANDs its bytes;
BUSY while the ROMs read and DENIED on the slot in use. STATUS is followed by the data. ENTDAA gives the address and answers
with the Provisioned ID. RSTDAA and TAP reset free what the port held. EXTEST takes its link down, one that is DOWN or FAILED
staying so. An admitted JTAG access acts. Completes here: i3cRegRead, i3cRegWrite, i3cFlashRead, i3cFlashErase, i3cFlashProgram,
i3cStatusRead, i3cEntdaa, i3cBusReset, jtagRegAccess, tapReset, extest. Cites R371, R458, R459, R460, R461. -/
def Obligations.PeripheralPortsAct : Prop :=
    (∀ (s : State) (a n : Nat),
      s.sys.inReset = false →
      s.i3c.dynAddr ≠ 0 →
      n ≠ 4 →
      n ≠ 8 →
      exec (.i3cRegRead a n) s = .next (i3cAnswer s 3 [])) ∧
    (∀ (s : State) (a : Nat) (u : State) (v : Nat),
      s.sys.inReset = false →
      s.i3c.dynAddr ≠ 0 →
      romHold s = false →
      regReadAs s .i3c true a 4 = (u, .done v) →
      exec (.i3cRegRead a 4) s = .next (i3cAnswer u 0 (leBytes 4 v))) ∧
    (∀ (s : State) (a : Nat) (x : Word) (u : State) (v : Nat),
      s.sys.inReset = false →
      s.i3c.dynAddr ≠ 0 →
      romHold s = false →
      regWriteAs s .i3c true .west a 8 x.toNat = (u, .done v) →
      exec (.i3cRegWrite a 8 x) s = .next (i3cAnswer u 0 [])) ∧
    (∀ (s : State) (a n : Nat),
      s.sys.inReset = false →
      s.i3c.dynAddr ≠ 0 →
      (s.sys.mode ≠ .bringup ∨ s.sys.bootStatus ≠ 0 ∨ 4 ≤ s.sys.bootStage) →
      1 ≤ n →
      n ≤ 256 →
      exec (.i3cFlashRead a n) s = .next (i3cAnswer s 0 ((List.range n).map fun j => flashByte s (a % 2 ^ 32 + j)))) ∧
    (∀ (s : State) (a : Nat),
      s.sys.inReset = false →
      s.i3c.dynAddr ≠ 0 →
      (s.sys.mode ≠ .bringup ∨ s.sys.bootStatus ≠ 0 ∨ 4 ≤ s.sys.bootStage) →
      flashGuarded s (a % 2 ^ 32) = false →
      exec (.i3cFlashErase a) s = .next (i3cAnswer { s with flash := s.flash.filter fun (b, _) => decide (b / 65536 ≠ a % 2 ^ 32 / 65536) } 0 [])) ∧
    (∀ (s : State) (a : Nat) (l : List Byte),
      s.sys.inReset = false →
      s.i3c.dynAddr ≠ 0 →
      (s.sys.mode ≠ .bringup ∨ s.sys.bootStatus ≠ 0 ∨ 4 ≤ s.sys.bootStage) →
      flashGuarded s (a % 2 ^ 32) = false →
      l ≠ [] →
      a % 256 + l.length ≤ 256 →
      exec (.i3cFlashProgram a l) s = .next (i3cAnswer ((l.zip (List.range l.length)).foldl (fun s (v, j) => flashPut s (a % 2 ^ 32 + j) v) s) 0 [])) ∧
    (∀ (s : State) (a : Nat),
      s.sys.inReset = false →
      s.i3c.dynAddr ≠ 0 →
      s.sys.mode = .bringup →
      s.sys.bootStatus = 0 →
      s.sys.bootStage < 4 →
      exec (.i3cFlashErase a) s = .next (i3cAnswer s 1 [])) ∧
    (∀ (s : State),
      s.sys.inReset = false →
      s.i3c.dynAddr ≠ 0 →
      exec (.i3cStatusRead) s = .next (emit s (.i3cRead (BitVec.ofNat 8 s.i3c.status :: s.i3c.data)))) ∧
    (∀ (s : State) (a : Nat),
      s.sys.inReset = false →
      s.i3c.dynAddr = 0 →
      0 < a →
      a < 128 →
      exec (.i3cEntdaa a) s = .next (emit { s with i3c := { s.i3c with dynAddr := a } } (.i3cRead ((leBytes 6 Config.i3cPid.toNat).reverse ++ [0x06, 0x00])))) ∧
    (∀ (s : State),
      s.sys.inReset = false →
      exec (.i3cBusReset false) s = .next (orphanAll s fun m => decide (m = .i3c))) ∧
    (∀ (s : State),
      let u := orphanAll s fun m => decide (m = .i3c)
      s.sys.inReset = false →
      exec (.i3cBusReset true) s = .next ({ u with i3c := { u.i3c with dynAddr := 0 } })) ∧
    (∀ (s : State) (a n : Nat) (x : Word) (u : State) (v : Nat),
      s.sys.inReset = false →
      romHold s = false →
      regReadAs s .jtag true a n = (u, .done v) →
      exec (.jtagRegAccess false a n x) s = .next (emit u (.regData .jtag a v))) ∧
    (∀ (s : State) (a n : Nat) (x : Word) (u : State) (v : Nat),
      s.sys.inReset = false →
      romHold s = false →
      regWriteAs s .jtag true .west a n x.toNat = (u, .done v) →
      exec (.jtagRegAccess true a n x) s = .next (u)) ∧
    (∀ (s : State),
      s.sys.inReset = false →
      exec (.tapReset) s = .next (orphanAll s fun m => decide (m = .jtag))) ∧
    (∀ (s : State) (d : Die) (k : Nat),
      s.sys.inReset = false →
      exec (.extest (.network d k)) s = .next (linkFault s d k 2)) ∧
    (∀ (s : State) (p l : Nat),
      s.sys.inReset = false →
      linkExists s p l = true →
      exec (.extest (.host p l)) s = .next (hostLinkDown s p l 2)) ∧
    (∀ (s : State) (a b : Nat), twf 0xFF s.flash = true → a % 65536 = 0 → s.sys.inReset = false → s.i3c.dynAddr ≠ 0 → s.sys.mode = .service → s.sys.bootStage = 7 → a < 2 ^ 32 → a / 0x2000000 ≠ s.sys.bootSlot →
      ∃ t, exec (.i3cFlashErase a) s = .next t ∧ (a ≤ b → b < a + 65536 → flashByte t b = 0xFF) ∧ (b < a ∨ a + 65536 ≤ b → flashByte t b = flashByte s b))

/-- With a command at the front of its queue the step of a state is that command's effect on the state with the rest of the queue.
On an empty queue the step answers a next state in which 2 ns have passed and the queue and the flash stand as they were: that
is the model's own choice, DESIGN CHOICE of log entry 2. No word spells a command, so the state with a word placed for fetching
is the state itself. Cites R397. -/
def Obligations.AStepRunsTheFrontCommand : Prop :=
    (∀ (s : State) (c : Instr) (q : List Instr), s.pending = c :: q → step s = exec c { s with pending := q }) ∧
    (∀ s : State, s.pending = [] → step s = .next (tick s) ∧ (tick s).now = s.now + 2 ∧ (tick s).pending = [] ∧ (tick s).flash = s.flash) ∧
    (∀ (s : State) (nbits w : Nat), decodeTableWord nbits w = none ∧ s.withFetchWord nbits w = s)

/-- After a device reset of any state: every event counter and its configuration read 0, the power budget LIMIT is 750 W, SET is 0,
no instance, ring, connection, Tally, trigger or window is left on a die, the THERMTRIP_N latch and the flash stand as before.
The reset of MG_MODE_SET RESET keeps LAST_SEQ, BUSY, VALID, REJECTS and MBX_RESULT, the Archive designation and the poison marks
of HBM; the other clears mailbox and Archive. The state right after power-on has an empty queue and canonical tables; that it is
held in reset with PWRGOOD low is the model's choice, log entry 5. Cites R275, R406, R433, R450. -/
def Obligations.ResetLeavesWhatTheRulesSay : Prop :=
    (∀ (s : State) (keep : Bool) (d : Die),
      let t := deviceReset s keep
      (∀ i, i < 768 → regVal t d (pmcCnt i) = 0 ∧ regVal t d (pmcCfg i) = 0) ∧ bits (regVal t d 0x200000) 0 10 = 750 ∧
      t.time.set = false ∧ t.insts = [] ∧ t.ops = [] ∧ (die t d).rings = {} ∧ (die t d).conns = [] ∧ (die t d).tallies = [] ∧
      (die t d).trigs = [] ∧ t.sys.thermtrip = s.sys.thermtrip ∧ t.flash = s.flash ∧ t.sys.inReset = true) ∧
    (∀ (s : State) (d : Die),
      let t := deviceReset s true
      t.mbx.lastSeq = s.mbx.lastSeq ∧ t.mbx.busy = s.mbx.busy ∧ t.mbx.valid = s.mbx.valid ∧ t.mbx.rejects = s.mbx.rejects ∧
      t.mbx.result = s.mbx.result ∧ t.arch.dest = s.arch.dest ∧ t.arch.valid = s.arch.valid ∧
      (die t d).eng.poison = (die s d).eng.poison.filter fun p => decide (p.1 % 2 = 0)) ∧
    (∀ s : State, (deviceReset s false).mbx = {} ∧ (deviceReset s false).arch = {}) ∧
    (State.reset.pending = [] ∧ tablesTidy State.reset ∧ State.reset.sys.inReset = true ∧ State.reset.sys.pwrgood = false)

/-- The 32-byte record of an outcome holds COOKIE in W0; BYTES, FAIL_INDEX, zero, SUBCAUSE and CODE in W1; RESULT in W2; SEQ,
CMD_RING, SRC_STATION and zero in W3, and its PHASE bit is 0 until the completion ring puts its own there. Cites R51. -/
def Obligations.CompletionRecordsSpellTheirOutcome : Prop :=
    (∀ cookie bytes failIdx sub code result seq ring station : Nat,
      cookie < 2 ^ 64 → bytes < 2 ^ 40 → failIdx < 2 ^ 5 → sub < 2 ^ 8 → code < 2 ^ 8 → result < 2 ^ 64 → seq < 2 ^ 24 → ring < 2 ^ 14 →
      station < 2 ^ 20 →
      let r := completionRecord cookie bytes failIdx sub code result seq ring station
      bits r 0 64 = cookie ∧ bits r 64 40 = bytes ∧ bits r 104 5 = failIdx ∧ bits r 109 3 = 0 ∧ bits r 112 8 = sub ∧
      bits r 120 8 = code ∧ bits r 128 64 = result ∧ bits r 192 24 = seq ∧ bits r 216 14 = ring ∧ bits r 230 20 = station ∧
      bits r 250 6 = 0 ∧ r < 2 ^ 255)

/-- A completion ring starts with TAIL 0, TAIL_PHASE 1, HEAD 0 and LAP 1. Writing a record to a configured ring puts it at TAIL with
PHASE = TAIL_PHASE, in the host memory of the ring's link, advances TAIL modulo 2^k, inverts TAIL_PHASE exactly when TAIL wraps
to 0, counts one record written and not returned, clears ARM when the interrupt is raised and leaves the other completion rings;
the record of a consumed command gives its reserved slot back first. The free slots are 2^k − B − R − W. Cites R88, R90. -/
def Obligations.CompletionSlotsFillInOrder : Prop :=
    (({} : CqRing).tail = 0 ∧ ({} : CqRing).tailPhase = true ∧ ({} : CqRing).head = 0 ∧ ({} : CqRing).lap = true ∧ ({} : CqRing).reserved = 0) ∧
    (∀ (s : State) (d : Die) (m rec : Nat), rec < 2 ^ 255 → twf 0 s.regs = true →
      let q := cqRing s d m
      let t := cqWrite s d m rec
      let lk := ringLink s m q.inst
      let v := rec + b2n q.tailPhase * 2 ^ 255
      cqRing t d m = { q with tail := (q.tail + 1) % 2 ^ q.log2, tailPhase := if q.tail + 1 = 2 ^ q.log2 then !q.tailPhase else q.tailPhase, written := q.written + 1, arm := q.arm && !q.intEn } ∧
      (∀ k, k ≠ m → cqRing t d k = cqRing s d k) ∧ (die t d).rings.cmd = (die s d).rings.cmd ∧
      (scv32 s lk.1 lk.2 = true → Out.hostWrite lk.1 lk.2 (q.base + 32 * q.tail) (leBytes 32 v) ∈ t.out) ∧
      (scv32 s lk.1 lk.2 = false → Out.hostWrite lk.1 lk.2 (q.base + 32 * q.tail) (leBytes 24 v) ∈ t.out ∧
        Out.hostWrite lk.1 lk.2 (q.base + 32 * q.tail + 24) (leBytes 8 (v / 2 ^ 192)) ∈ t.out)) ∧
    (∀ (s : State) (d : Die) (m rec : Nat), cqSilent s d m = false → (cqRing s d m).configured = true →
      postRecord s d m rec = cqWrite (modCq s d m fun q => { q with reserved := q.reserved - 1 }) d m rec) ∧
    (∀ q : CqRing, cqFree q = 2 ^ q.log2 - (q.haltHeld + q.reserved + q.written) ∧ (0 < cqFree q → cqFree { q with reserved := q.reserved + 1 } + 1 = cqFree q))

/-- An increment of an unsaturated Tally below 2^48 − 1 raises it by one and does not set its flag. One of an unsaturated Tally at
2^48 − 1 leaves the value, sets the flag and posts EV_TALLY_SAT with the Tally's number to its owner; one of a saturated Tally
changes nothing and posts nothing. A command that ends with CC_OK and saturated its local or its remote Tally has CC_TALLY_SAT
in its record; a command that ends with any code but CC_OK and CC_TALLY_SAT increments nothing. A saturated Tally fires no
trigger. Cites R139. -/
def Obligations.TalliesCountAndSaturate : Prop :=
    (∀ (s : State) (n : Nat), (tally s n).sat = false → (tally s n).val + 1 < 2 ^ 48 →
      (tallyInc s n).2 = false ∧ tally (tallyInc s n).1 n = { val := (tally s n).val + 1, sat := false } ∧
      (∀ k, k ≠ n → tally (tallyInc s n).1 k = tally s k)) ∧
    (∀ (s : State) (n : Nat), (tally s n).sat = false → (tally s n).val = 2 ^ 48 - 1 →
      (tallyInc s n).2 = true ∧
      (tallyInc s n).1 = (match tallyOwner s n with
        | some i => postInst (setTally s n { val := 2 ^ 48 - 1, sat := true }) i 0x23 (evb 8 n)
        | none => setTally s n { val := 2 ^ 48 - 1, sat := true }) ∧
      tally (setTally s n { val := 2 ^ 48 - 1, sat := true }) n = { val := 2 ^ 48 - 1, sat := true }) ∧
    (∀ (s : State) (n : Nat), (tally s n).sat = true → tallyInc s n = (s, true)) ∧
    (∀ (s : State) (o : Nat) (r : Outcome), r.code = 0 →
      let x := opOf s o
      let n := localTally (opBlk x)
      let p := if n = noTally then (s, false) else tallyInc s n
      let code := if p.2 = true ∨ x.remoteSat = true then 0x0C else 0
      completeOp s o r = retireOp (deliver p.1 x (completionRecord x.cookie r.bytes r.failIdx r.sub code r.result x.seq (recordRing p.1 x) r.station)) o code) ∧
    (∀ (s : State) (o : Nat) (r : Outcome), r.code ≠ 0 → r.code ≠ 0x0C →
      let x := opOf s o
      completeOp s o r = retireOp (deliver s x (completionRecord x.cookie r.bytes r.failIdx r.sub r.code r.result x.seq (recordRing s x) r.station)) o r.code) ∧
    (∀ (s : State) (n : Nat), (tally s n).sat = true → fireTriggers s n = s)

/-- While the expected index is s mod 2^k and the expected phase 1 − ((s >> k) mod 2) for the expected SEQ s, consuming an entry
raises s by one modulo 2^24 and keeps both; after a reset of the ring (at any time after the first instant), and in a ring never
used, s is 0, the index 0 and the phase 1. k is at most 23 (rings have at most 2^20 entries). Cites R78. -/
def Obligations.RingPositionFollowsSeq : Prop :=
    (∀ (s : State) (d : Die) (n : Nat) (b : Block),
      let r := cmdRing s d n
      let t := cmdRing (ringConsume s d n b) d n
      r.log2 ≤ 23 → r.consSeq < 2 ^ 24 → r.consIdx = r.consSeq % 2 ^ r.log2 → r.consPhase = decide (r.consSeq / 2 ^ r.log2 % 2 = 0) →
      t.log2 = r.log2 ∧ t.consSeq = (r.consSeq + 1) % 2 ^ 24 ∧ t.consIdx = t.consSeq % 2 ^ t.log2 ∧
      t.consPhase = decide (t.consSeq / 2 ^ t.log2 % 2 = 0)) ∧
    (∀ (s : State) (d : Die) (n : Nat), 0 < s.now →
      let t := cmdRing (ringToReset s d n) d n
      t.consSeq = 0 ∧ t.consIdx = 0 ∧ t.consPhase = true ∧ t.st = .reset) ∧
    (({} : CmdRing).consSeq = 0 ∧ ({} : CmdRing).consIdx = 0 ∧ ({} : CmdRing).consPhase = true)

/-- For TYPE int32 and int64 in either mode, combining the elements of two contributions is two's-complement addition for sum, the
signed lesser or greater for min and max, and the bitwise operation for and, or and xor; each operation is commutative and
associative on the elements, so that neither the tree's shape nor the order of arrival matters; and the result at the root is
the element's bits. Cites R189. -/
def Obligations.IntegerReductionsAreExact : Prop :=
    (∀ (a b c : BitVec 32) (x : Bool),
      let h : Nat → BndHead := fun op => { opcode := 0x42, op := op, ty := 0, exact := x, count := 1, root := 0 }
      let e : BitVec 32 → BndElem := fun v => elemIn (h 0) v.toNat
      elemAdd (h 0) (e a) (e b) = e (a + b) ∧ elemAdd (h 1) (e a) (e b) = e (if b.slt a then b else a) ∧
      elemAdd (h 2) (e a) (e b) = e (if a.slt b then b else a) ∧ elemAdd (h 3) (e a) (e b) = e (a &&& b) ∧
      elemAdd (h 4) (e a) (e b) = e (a ||| b) ∧ elemAdd (h 5) (e a) (e b) = e (a ^^^ b) ∧
      (∀ op, op ≤ 5 → elemAdd (h op) (e a) (e b) = elemAdd (h op) (e b) (e a) ∧
        elemAdd (h op) (elemAdd (h op) (e a) (e b)) (e c) = elemAdd (h op) (e a) (elemAdd (h op) (e b) (e c)) ∧
        elemIn (h op) a.toNat = e a ∧ elemOut (h op) (e a) = (a.toNat, false, false))) ∧
    (∀ (a b c : BitVec 64) (x : Bool),
      let h : Nat → BndHead := fun op => { opcode := 0x42, op := op, ty := 1, exact := x, count := 1, root := 0 }
      let e : BitVec 64 → BndElem := fun v => elemIn (h 0) v.toNat
      elemAdd (h 0) (e a) (e b) = e (a + b) ∧ elemAdd (h 1) (e a) (e b) = e (if b.slt a then b else a) ∧
      elemAdd (h 2) (e a) (e b) = e (if a.slt b then b else a) ∧ elemAdd (h 3) (e a) (e b) = e (a &&& b) ∧
      elemAdd (h 4) (e a) (e b) = e (a ||| b) ∧ elemAdd (h 5) (e a) (e b) = e (a ^^^ b) ∧
      (∀ op, op ≤ 5 → elemAdd (h op) (e a) (e b) = elemAdd (h op) (e b) (e a) ∧
        elemAdd (h op) (elemAdd (h op) (e a) (e b)) (e c) = elemAdd (h op) (e a) (elemAdd (h op) (e b) (e c)) ∧
        elemIn (h op) a.toNat = e a ∧ elemOut (h op) (e a) = (a.toNat, false, false)))

/-- For every floating-point TYPE and either mode, folding the contributions of a min or max: if some contribution is a NaN the
root's result is the canonical quiet NaN of the type; otherwise it is one of the contributions, and in the order of the values
with −0 below +0 none is less (for min) or greater (for max). Cites R190. -/
def Obligations.FloatMinMaxAreExact : Prop :=
    (∀ (h : BndHead) (x : Nat) (l : List Nat), 2 ≤ h.ty → h.ty ≤ 5 → (h.op = 1 ∨ h.op = 2) →
      (∀ y ∈ x :: l, y < 2 ^ (8 * elemSize h.ty)) →
      let t := fpOf h.ty
      let r := (elemOut h (l.foldl (fun a y => elemAdd h a (elemIn h y)) (elemIn h x))).1
      ((∃ y ∈ x :: l, (accOf t y).nan = true) → r = t.qnan) ∧
      ((∀ y ∈ x :: l, (accOf t y).nan = false) → r ∈ x :: l ∧
        ∀ y ∈ x :: l, (h.op = 1 → fpKey t r ≤ fpKey t y) ∧ (h.op = 2 → fpKey t y ≤ fpKey t r))) ∧
    (∀ ty : Nat, 2 ≤ ty → ty ≤ 5 →
      let t := fpOf ty
      fpKey t (2 ^ (8 * elemSize ty - 1)) < fpKey t 0 ∧
      (∀ a b, a < 2 ^ (8 * elemSize ty) → b < 2 ^ (8 * elemSize ty) → (accOf t a).nan = false → (accOf t b).nan = false →
        (accOf t a).pinf = false → (accOf t b).pinf = false → (accOf t a).ninf = false → (accOf t b).ninf = false →
        (accOf t a).val < (accOf t b).val → fpKey t a < fpKey t b))

/-- For a floating-point sum in exact mode, folding the contributions of a list from any of its members on gives a total that any
other order of the same contributions gives too, and the total of two lists together is the combination of their totals,
whatever the shape of the tree; so the root's rounded result is the same. Cites R192, R193. -/
def Obligations.ExactSumsIgnoreTheOrder : Prop :=
    (∀ (h : BndHead) (x y : Nat) (l m : List Nat), 2 ≤ h.ty → h.op = 0 → h.exact = true → (x :: l).Perm (y :: m) →
      l.foldl (fun a z => elemAdd h a (elemIn h z)) (elemIn h x) = m.foldl (fun a z => elemAdd h a (elemIn h z)) (elemIn h y)) ∧
    (∀ (h : BndHead) (x y : Nat) (l m : List Nat), 2 ≤ h.ty → h.op = 0 → h.exact = true →
      let f : Nat → List Nat → BndElem := fun x l => l.foldl (fun a z => elemAdd h a (elemIn h z)) (elemIn h x)
      elemAdd h (f x l) (f y m) = f x (l ++ y :: m)) ∧
    (∀ (h : BndHead) (x y : Nat) (l m : List Nat), 2 ≤ h.ty → h.op = 0 → h.exact = true → (x :: l).Perm (y :: m) →
      (elemOut h (l.foldl (fun a z => elemAdd h a (elemIn h z)) (elemIn h x))).1 = (elemOut h (m.foldl (fun a z => elemAdd h a (elemIn h z)) (elemIn h y))).1)

/-- An access of the bytes from off on that stays within an aligned doubleword is admitted exactly when either one and the same
enabled region, and no other, holds each of its bytes and that region's mask for the direction admits the class, or no enabled
region holds any of its bytes and the class is that of the control processors or of JTAG; so bytes in two regions are denied
whatever the masks. Cites R342, R343. -/
def Obligations.RegionsAdmitOneMask : Prop :=
    (∀ (s : State) (cls : Nat) (wr : Bool) (off len : Nat), 0 < len → off % 8 + len ≤ 8 →
      (aclAdmits s cls wr off len = true ↔
        ((∃ a, (∀ k, k < len → regionsAt s (off + k) = [a]) ∧ bit (aclRegion s a) ((if wr then 40 else 32) + cls) = true) ∨
         ((∀ k, k < len → regionsAt s (off + k) = []) ∧ (cls = 2 ∨ cls = 4))))) ∧
    (∀ (s : State) (cls : Nat) (wr : Bool) (off len a b : Nat), 0 < len → a ∈ regionsAt s off → b ∈ regionsAt s off → a ≠ b →
      aclAdmits s cls wr off len = false)

/-- In every state every command of the table has a next state: none ends in a fault or a refusal; and so every step has one. Cites
R51, R315, R349. -/
def Obligations.NoCommandStopsTheMachine : Prop :=
    (∀ (c : Instr) (s : State), isNext (exec c s)) ∧
    (∀ s : State, safeStep s)

/-- A command changes neither the queue of the commands that wait nor the clock, and the count of free values taken never falls;
only a step on an empty queue moves the clock. Cites R397. -/
def Obligations.CommandsLeaveTheQueueAndTheClock : Prop :=
    (∀ (c : Instr) (s t : State), exec c s = .next t → t.pending = s.pending ∧ t.now = s.now ∧ s.freeCtr ≤ t.freeCtr) ∧
    (∀ s t : State, step s = .next t → t.pending = s.pending.tail ∧ t.now = (if s.pending = [] then s.now + 2 else s.now) ∧ s.freeCtr ≤ t.freeCtr)

/-- Once the THERMTRIP_N latch is set, every step of the machine leaves it set, resets among them, unless the command is the
deassertion of PWRGOOD; a deassertion of 100 ns or more clears it. Cites R449, R450. -/
def Obligations.TheThermtripLatchStands : Prop :=
    (∀ s t : State, step s = .next t → s.sys.thermtrip = true → (∀ (w : Nat) (q : List Instr), s.pending ≠ .pwrgoodDeassert w :: q) → t.sys.thermtrip = true) ∧
    (∀ (w : Nat) (s : State), 100 ≤ w → ∃ t, exec (.pwrgoodDeassert w) s = .next t ∧ t.sys.thermtrip = false ∧ t.sys.pwrgood = false ∧ t.sys.inReset = true)

/-- Every command but FLASH_ERASE and FLASH_PROGRAM leaves every byte of the flash, resets and Standby included; so does a step on
an empty queue. A FLASH_PROGRAM clears bits and sets none, and a FLASH_ERASE leaves every byte outside the 64 KiB sector of its
32-bit address. Cites R459, R450. -/
def Obligations.FlashChangesOnlyOverI3c : Prop :=
    (∀ (c : Instr) (s t : State), exec c s = .next t → (∀ a, c ≠ .i3cFlashErase a) → (∀ a l, c ≠ .i3cFlashProgram a l) → t.flash = s.flash) ∧
    (∀ s t : State, s.pending = [] → step s = .next t → t.flash = s.flash) ∧
    (∀ (a : Nat) (l : List Byte) (s t : State), twf 0xFF s.flash = true → exec (.i3cFlashProgram a l) s = .next t →
      ∀ k, flashByte t k &&& flashByte s k = flashByte t k) ∧
    (∀ (a : Nat) (s t : State), twf 0xFF s.flash = true → exec (.i3cFlashErase a) s = .next t →
      ∀ k, k / 65536 ≠ a % 2 ^ 32 / 65536 → flashByte t k = flashByte s k)

/-- From every state in which the flash, the register file, the latched views, the instances, the functions and the operations are
tables in canonical form (keys strictly rising, no entry equal to what an unlisted key reads as), every step leads to such a
state: equal memories stay equal data. Cites R467, R459. -/
def Obligations.EveryStepKeepsTheTablesCanonical : Prop :=
    (∀ s t : State, tablesTidy s → step s = .next t → tablesTidy t)

/-- Writing a register changes that register of that die and no other; changing an instance, an operation, a Tally, a connection, a
command ring or a completion ring changes the one of that number (and die) alone, and it becomes what the change says, in tables
of canonical form. None of these updates changes any other part of the state: a register write only the register file, an
instance's only the instances, an operation's only the operations, and the others only the one die's own table. The statements
that give a command's next state as such updates of the old state thereby say what it leaves unchanged. Cites R75, R137, R467. -/
def Obligations.UpdatesChangeOneThing : Prop :=
    (∀ (s : State) (d d' : Die) (k k' v : Nat), twf 0 s.regs = true → k < 2 ^ 26 → k' < 2 ^ 26 →
      regVal (setReg s d k v) d' k' = if d' = d ∧ k' = k then v else regVal s d' k') ∧
    (∀ (s : State) (d : Die) (k v : Nat), setReg s d k v = { s with regs := (setReg s d k v).regs }) ∧
    (∀ (s : State) (i j : Nat) (f : Inst → Inst), twf {} s.insts = true → inst (modInst s i f) j = if j = i then f (inst s i) else inst s j) ∧
    (∀ (s : State) (i : Nat) (f : Inst → Inst), modInst s i f = { s with insts := (modInst s i f).insts }) ∧
    (∀ (s : State) (i j : Nat) (f : Op → Op), twf {} s.ops = true → opOf (modOp s i f) j = if j = i then f (opOf s i) else opOf s j) ∧
    (∀ (s : State) (i : Nat) (f : Op → Op), modOp s i f = { s with ops := (modOp s i f).ops }) ∧
    (∀ (s : State) (n m : Nat) (v : Tally), twf {} (die s (tallyDie n)).tallies = true → tally (setTally s n v) m = if m = n then v else tally s m) ∧
    (∀ (s : State) (n : Nat) (v : Tally) (d : Die), die (setTally s n v) d = { die s d with tallies := (die (setTally s n v) d).tallies }) ∧
    (∀ (s : State) (d d' : Die) (n m : Nat) (f : Conn → Conn), twf {} (die s d).conns = true → conn (modConn s d n f) d' m = if d' = d ∧ m = n then f (conn s d n) else conn s d' m) ∧
    (∀ (s : State) (d d' : Die) (n : Nat) (f : Conn → Conn), die (modConn s d n f) d' = { die s d' with conns := (die (modConn s d n f) d').conns }) ∧
    (∀ (s : State) (d d' : Die) (n m : Nat) (f : CmdRing → CmdRing), twf {} (die s d).rings.cmd = true → cmdRing (modCmdRing s d n f) d' m = if d' = d ∧ m = n then f (cmdRing s d n) else cmdRing s d' m) ∧
    (∀ (s : State) (d d' : Die) (n m : Nat) (f : CqRing → CqRing), twf {} (die s d).rings.cq = true → cqRing (modCq s d n f) d' m = if d' = d ∧ m = n then f (cqRing s d n) else cqRing s d' m) ∧
    (∀ (s : State) (d d' : Die) (n m : Nat) (f : CmdRing → CmdRing) (g : CqRing → CqRing), die (modCmdRing s d n f) d' = { die s d' with rings := { (die s d').rings with cmd := (die (modCmdRing s d n f) d').rings.cmd } } ∧ die (modCq s d m g) d' = { die s d' with rings := { (die s d').rings with cq := (die (modCq s d m g) d').rings.cq } }) ∧
    (∀ (s : State) (d : Die) (f : DieState → DieState), onDie s d f = { s with west := (onDie s d f).west, east := (onDie s d f).east } ∧ die (onDie s d f) d = f (die s d) ∧ ∀ d', d' ≠ d → die (onDie s d f) d' = die s d')
end

