-- ==== Sys2Proof/Laws/Bits.lean ====
section
/-! SUPPORT. Laws of bit fields: what a field of a block reads after one field has been replaced. -/

namespace Sys2Proof.Machine

open Sys2Proof

theorem testBit_bits (w lo n i : Nat) : (bits w lo n).testBit i = (decide (i < n) && w.testBit (lo + i)) := by
  simp [bits, Nat.testBit_mod_two_pow, Nat.testBit_div_two_pow, Nat.add_comm]

/-- Splitting a number at a field. -/
theorem setBits_eq (w lo n v : Nat) : setBits w lo n v = w % 2 ^ lo + 2 ^ lo * (v % 2 ^ n + 2 ^ n * (w / 2 ^ (lo + n))) := by
  unfold setBits bits
  have h1 : w = w % 2 ^ lo + 2 ^ lo * (w / 2 ^ lo) := (Nat.mod_add_div w (2 ^ lo)).symm
  have h2 : w / 2 ^ lo = w / 2 ^ lo % 2 ^ n + 2 ^ n * (w / 2 ^ (lo + n)) := by
    rw [Nat.pow_add, ← Nat.div_div_eq_div_mul]; exact (Nat.mod_add_div _ _).symm
  generalize hx : w / 2 ^ lo % 2 ^ n = x at *
  generalize w / 2 ^ (lo + n) = y at *
  have h3 : w = w % 2 ^ lo + 2 ^ lo * (x + 2 ^ n * y) := by rw [← h2]; exact h1
  generalize w % 2 ^ lo = z at *
  rw [h3]
  have h4 : 2 ^ lo * (x + 2 ^ n * y) = x * 2 ^ lo + 2 ^ lo * (2 ^ n * y) := by ring
  have h5 : 2 ^ lo * (v % 2 ^ n + 2 ^ n * y) = v % 2 ^ n * 2 ^ lo + 2 ^ lo * (2 ^ n * y) := by ring
  rw [h4, h5]
  omega

theorem testBit_setBits (w lo n v i : Nat) :
    (setBits w lo n v).testBit i = if lo ≤ i ∧ i < lo + n then v.testBit (i - lo) else w.testBit i := by
  rw [setBits_eq, Nat.add_comm, Nat.testBit_two_pow_mul_add _ (Nat.mod_lt _ (Nat.two_pow_pos lo))]
  split
  · next h =>
    rw [Nat.testBit_mod_two_pow, if_neg (by omega)]; simp [h]
  · next h =>
    rw [Nat.add_comm, Nat.testBit_two_pow_mul_add _ (Nat.mod_lt _ (Nat.two_pow_pos n))]
    split
    · next h2 => rw [Nat.testBit_mod_two_pow, if_pos (by omega)]; simp [h2]
    · next h2 => rw [Nat.testBit_div_two_pow, if_neg (by omega)]; congr 1; omega

/-- A field that does not overlap the replaced one reads as before. -/
theorem bits_setBits_other (w lo n v lo' n' : Nat) (h : lo' + n' ≤ lo ∨ lo + n ≤ lo') : bits (setBits w lo n v) lo' n' = bits w lo' n' := by
  apply Nat.eq_of_testBit_eq
  intro i
  rw [testBit_bits, testBit_bits, testBit_setBits]
  by_cases hi : i < n'
  · rw [if_neg (by omega)]
  · simp [hi]

/-- The replaced field reads as the new value. -/
theorem bits_setBits_same (w lo n v : Nat) : bits (setBits w lo n v) lo n = v % 2 ^ n := by
  apply Nat.eq_of_testBit_eq
  intro i
  rw [testBit_bits, testBit_setBits, Nat.testBit_mod_two_pow]
  by_cases hi : i < n
  · rw [if_pos (by omega)]; simp [hi]
  · simp [hi]

set_option exponentiation.threshold 600

theorem bits_mod (w k lo n : Nat) (h : lo + n ≤ k) : bits (w % 2 ^ k) lo n = bits w lo n := by
  apply Nat.eq_of_testBit_eq
  intro i
  rw [testBit_bits, testBit_bits, Nat.testBit_mod_two_pow]
  by_cases hi : i < n
  · have : lo + i < k := by omega
    simp [hi, this]
  · simp [hi]

/-- A field of a block apart from the one replaced reads as before. -/
theorem fld_putFld_other (b : Block) (y lo n v y' lo' n' : Nat) (h : 8 * y' + lo' + n' ≤ 8 * y + lo ∨ 8 * y + lo + n ≤ 8 * y' + lo')
    (h' : 8 * y' + lo' + n' ≤ 512) : fld (putFld b y lo n v) y' lo' n' = fld b y' lo' n' := by
  unfold fld putFld
  rw [BitVec.toNat_ofNat, bits_mod _ _ _ _ h', bits_setBits_other _ _ _ _ _ _ h]

/-- The replaced field of a block reads as the new value. -/
theorem fld_putFld_same (b : Block) (y lo n v : Nat) (h : 8 * y + lo + n ≤ 512) : fld (putFld b y lo n v) y lo n = v % 2 ^ n := by
  unfold fld putFld
  rw [BitVec.toNat_ofNat, bits_mod _ _ _ _ h, bits_setBits_same]

/-- A field below byte `k` reads as before when every replaced field lies at or above it. -/
theorem fld_fold_other (fs : List (Nat × Nat × Nat × Nat)) (b : Block) (y lo n : Nat) (h' : 8 * y + lo + n ≤ 512)
    (h : ∀ f ∈ fs, 8 * y + lo + n ≤ 8 * f.1 + f.2.1 ∨ 8 * f.1 + f.2.1 + f.2.2.1 ≤ 8 * y + lo) :
    fld (fs.foldl (fun b f => putFld b f.1 f.2.1 f.2.2.1 f.2.2.2) b) y lo n = fld b y lo n := by
  induction fs generalizing b with
  | nil => rfl
  | cons f fs ih =>
    rw [List.foldl_cons, ih _ (fun g hg => h g (List.mem_cons_of_mem _ hg))]
    exact fld_putFld_other _ _ _ _ _ _ _ _ (h f (List.mem_cons_self ..)) h'

/-- The opcode of a row's block. -/
theorem fld_rowBlk_op (b : Block) (op : Nat) (fs : List (Nat × Nat × Nat × Nat)) (h : ∀ f ∈ fs, 8 ≤ 8 * f.1 + f.2.1) :
    fld (rowBlk b op fs) 0 0 8 = op % 256 := by
  unfold rowBlk
  rw [fld_fold_other fs _ _ _ _ (by omega) (fun f hf => Or.inl (by have := h f hf; omega)), fld_putFld_same _ _ _ _ _ (by omega)]
  norm_num

/-- The last field that a row sets reads as set. -/
theorem fld_rowBlk_last (b : Block) (op : Nat) (fs : List (Nat × Nat × Nat × Nat)) (y lo n v : Nat) (h : 8 * y + lo + n ≤ 512) :
    fld (rowBlk b op (fs ++ [(y, lo, n, v)])) y lo n = v % 2 ^ n := by
  unfold rowBlk
  rw [List.foldl_append]
  exact fld_putFld_same _ _ _ _ _ h

/-- The one field that a row sets. -/
theorem fld_rowBlk_one (b : Block) (op y lo n v : Nat) (h : 8 * y + lo + n ≤ 512) : fld (rowBlk b op [(y, lo, n, v)]) y lo n = v % 2 ^ n :=
  fld_rowBlk_last b op [] y lo n v h

/-- The second of two fields. -/
theorem fld_rowBlk_snd (b : Block) (op : Nat) (f : Nat × Nat × Nat × Nat) (y lo n v : Nat) (h : 8 * y + lo + n ≤ 512) :
    fld (rowBlk b op [f, (y, lo, n, v)]) y lo n = v % 2 ^ n := fld_rowBlk_last b op [f] y lo n v h

/-- The first of two fields that do not overlap. -/
theorem fld_rowBlk_fst (b : Block) (op : Nat) (y lo n v : Nat) (g : Nat × Nat × Nat × Nat) (h : 8 * y + lo + n ≤ 512)
    (hg : 8 * y + lo + n ≤ 8 * g.1 + g.2.1 ∨ 8 * g.1 + g.2.1 + g.2.2.1 ≤ 8 * y + lo) :
    fld (rowBlk b op [(y, lo, n, v), g]) y lo n = v % 2 ^ n := by
  rw [rowBlk]
  simp only [List.foldl_cons, List.foldl_nil]
  rw [fld_putFld_other _ _ _ _ _ _ _ _ hg h, fld_putFld_same _ _ _ _ _ h]

end Sys2Proof.Machine
end

