-- ==== Sys2Proof/Laws/Tables.lean ====
section
/-! SUPPORT. Laws of the sparse tables: a read after a write, and the canonical form, which every table operation keeps. -/

namespace Sys2Proof

variable {α : Type}

/-- Reading the key just put gives the value. -/
@[simp] theorem tget_tput_same (dflt : α) (t : Tab α) (k : Nat) (v : α) : tget dflt (tput t k v) k = v := by
  induction t with
  | nil => simp [tput, tget]
  | cons p t ih =>
    obtain ⟨j, w⟩ := p
    simp only [tput]
    split
    · simp [tget]
    · split
      · simp [tget]
      · simp_all [tget]

/-- Putting one key leaves the reading of every other. -/
theorem tget_tput_other (dflt : α) (t : Tab α) {k k' : Nat} (v : α) (h : k' ≠ k) : tget dflt (tput t k v) k' = tget dflt t k' := by
  induction t with
  | nil => simp [tput, tget, Ne.symm h]
  | cons p t ih =>
    obtain ⟨j, w⟩ := p
    simp only [tput]
    split
    · subst_vars; simp [tget, Ne.symm h]
    · split
      · simp only [tget, Ne.symm h, if_false]
        split_ifs <;> first | rfl | omega
      · simp only [tget, ih]

variable [DecidableEq α]

/-- A non-default value written is the value read. -/
theorem tget_tset_same (dflt : α) (t : Tab α) (k : Nat) {v : α} (h : v ≠ dflt) : tget dflt (tset dflt t k v) k = v := by
  simp [tset, h]

/-- A smaller lower bound still bounds. -/
theorem twfFrom_mono (dflt : α) (t : Tab α) {lo hi : Nat} (hl : lo ≤ hi) (h : twfFrom dflt hi t = true) : twfFrom dflt lo t = true := by
  cases t with
  | nil => rfl
  | cons p t =>
    obtain ⟨j, v⟩ := p
    simp only [twfFrom, Bool.and_eq_true, decide_eq_true_eq] at h ⊢
    exact ⟨⟨by omega, h.1.2⟩, h.2⟩

/-- Below the lower bound of its keys a table reads the default. -/
theorem tget_below (dflt : α) (t : Tab α) {lo k : Nat} (h : twfFrom dflt lo t = true) (hk : k < lo) : tget dflt t k = dflt := by
  cases t with
  | nil => rfl
  | cons p t =>
    obtain ⟨j, v⟩ := p
    simp only [twfFrom, Bool.and_eq_true, decide_eq_true_eq] at h
    have h1 : j ≠ k := by omega
    have h2 : k < j := by omega
    simp [tget, h1, h2]

/-- Removing a key keeps the form and its lower bound. -/
theorem tdel_wf (dflt : α) (t : Tab α) {lo : Nat} (k : Nat) (h : twfFrom dflt lo t = true) : twfFrom dflt lo (tdel t k) = true := by
  induction t generalizing lo with
  | nil => rfl
  | cons p t ih =>
    obtain ⟨j, v⟩ := p
    have h' := h
    simp only [twfFrom, Bool.and_eq_true, decide_eq_true_eq] at h
    simp only [tdel]
    split
    · exact twfFrom_mono dflt t (by omega) h.2
    · split
      · exact h'
      · simp only [twfFrom, Bool.and_eq_true, decide_eq_true_eq]
        exact ⟨h.1, ih h.2⟩

/-- Putting a value that is no default, at a key not below the bound, keeps the form. -/
theorem tput_wf (dflt : α) (t : Tab α) {lo k : Nat} {v : α} (hk : lo ≤ k) (hv : v ≠ dflt) (h : twfFrom dflt lo t = true) :
    twfFrom dflt lo (tput t k v) = true := by
  induction t generalizing lo with
  | nil => simp [tput, twfFrom, hk, hv]
  | cons p t ih =>
    obtain ⟨j, w⟩ := p
    have h' := h
    simp only [twfFrom, Bool.and_eq_true, decide_eq_true_eq] at h
    simp only [tput]
    split
    · subst_vars
      simp only [twfFrom, Bool.and_eq_true, decide_eq_true_eq]
      exact ⟨⟨hk, hv⟩, h.2⟩
    · split
      · simp only [twfFrom, Bool.and_eq_true, decide_eq_true_eq]
        exact ⟨⟨hk, hv⟩, ⟨by omega, h.1.2⟩, h.2⟩
      · simp only [twfFrom, Bool.and_eq_true, decide_eq_true_eq]
        exact ⟨h.1, ih (by omega) h.2⟩

/-- A write keeps the canonical form. -/
theorem tset_wf (dflt : α) (t : Tab α) (k : Nat) (v : α) (h : twf dflt t = true) : twf dflt (tset dflt t k v) = true := by
  unfold twf tset at *
  split
  · exact tdel_wf dflt t k h
  · next hv => exact tput_wf dflt t (Nat.zero_le k) hv h

/-- A change of one value keeps the canonical form. -/
theorem tmod_wf (dflt : α) (t : Tab α) (k : Nat) (f : α → α) (h : twf dflt t = true) : twf dflt (tmod dflt t k f) = true :=
  tset_wf dflt t k _ h

/-- Removing an entry keeps the canonical form. -/
theorem twf_tdel (dflt : α) (t : Tab α) (k : Nat) (h : twf dflt t = true) : twf dflt (tdel t k) = true := tdel_wf dflt t k h

/-- In canonical form a removed key reads the default. -/
theorem tget_tdel_same (dflt : α) (t : Tab α) {lo : Nat} (k : Nat) (h : twfFrom dflt lo t = true) : tget dflt (tdel t k) k = dflt := by
  induction t generalizing lo with
  | nil => rfl
  | cons p t ih =>
    obtain ⟨j, v⟩ := p
    simp only [twfFrom, Bool.and_eq_true, decide_eq_true_eq] at h
    simp only [tdel]
    split
    · next hj => exact tget_below dflt t h.2 (by omega)
    · split
      · next h1 h2 => simp [tget, h1, h2]
      · next h1 h2 => simp [tget, h1, h2, ih h.2]

/-- In canonical form removing one key leaves the reading of every other. -/
theorem tget_tdel_other (dflt : α) (t : Tab α) {lo k k' : Nat} (h : twfFrom dflt lo t = true) (hk : k' ≠ k) :
    tget dflt (tdel t k) k' = tget dflt t k' := by
  induction t generalizing lo with
  | nil => rfl
  | cons p t ih =>
    obtain ⟨j, v⟩ := p
    simp only [twfFrom, Bool.and_eq_true, decide_eq_true_eq] at h
    simp only [tdel]
    split
    · next hj =>
      subst hj
      simp only [tget, Ne.symm hk, if_false]
      split
      · exact tget_below dflt t h.2 (by omega)
      · rfl
    · split
      · rfl
      · simp only [tget, ih h.2]

/-- A read after a write, in canonical form. -/
theorem tget_tset (dflt : α) (t : Tab α) (k k' : Nat) (v : α) (h : twf dflt t = true) :
    tget dflt (tset dflt t k v) k' = if k' = k then v else tget dflt t k' := by
  unfold tset
  split
  · next hv =>
    split
    · next hk => subst hk; rw [tget_tdel_same dflt t k' h, hv]
    · next hk => exact tget_tdel_other dflt t h hk
  · split
    · next hk => subst hk; simp
    · next hk => exact tget_tput_other dflt t v hk

/-- Mapping the values keeps the form: an entry that becomes the default goes. -/
theorem tmapv_wfFrom (dflt : α) (t : Tab α) (f : Nat → α → α) {lo : Nat} (h : twfFrom dflt lo t = true) :
    twfFrom dflt lo (tmapv dflt t f) = true := by
  induction t generalizing lo with
  | nil => rfl
  | cons p t ih =>
    obtain ⟨j, v⟩ := p
    simp only [twfFrom, Bool.and_eq_true, decide_eq_true_eq] at h
    have ht := ih h.2
    simp only [tmapv, List.map, List.filter] at ht ⊢
    split
    · rename_i hv
      simp only [twfFrom, Bool.and_eq_true, decide_eq_true_eq]
      exact ⟨⟨h.1.1, by simpa using hv⟩, ht⟩
    · exact twfFrom_mono dflt _ (by omega) ht

theorem tmapv_wf (dflt : α) (t : Tab α) (f : Nat → α → α) (h : twf dflt t = true) : twf dflt (tmapv dflt t f) = true :=
  tmapv_wfFrom dflt t f h

end Sys2Proof
end

