-- ==== Sys2Proof/Laws/Keeps.lean ====
section
/-! SUPPORT. What no operation of the machine does: it takes no command from the queue, moves no clock, writes no flash, takes no
free value back, leaves the tables of State canonical and does not let the THERMTRIP_N latch go. One lemma for each operation
says so (`keeps_<operation>`); the commands that do one of these things have none. -/

set_option linter.unusedVariables false

namespace Sys2Proof.Laws

open Sys2Proof Sys2Proof.Machine

/-- What every operation leaves from `s` to `t`. -/
structure Keeps (s t : State) : Prop where
  pending : t.pending = s.pending
  now : t.now = s.now
  flash : t.flash = s.flash
  free : s.freeCtr ≤ t.freeCtr
  tidy : tablesTidy s → tablesTidy t
  therm : s.sys.thermtrip = true → t.sys.thermtrip = true

theorem Keeps.refl (s : State) : Keeps s s := ⟨rfl, rfl, rfl, Nat.le_refl _, id, id⟩

theorem Keeps.trans {s t u : State} (a : Keeps s t) (b : Keeps t u) : Keeps s u :=
  ⟨b.pending.trans a.pending, b.now.trans a.now, b.flash.trans a.flash, Nat.le_trans a.free b.free, fun h => b.tidy (a.tidy h),
   fun h => b.therm (a.therm h)⟩

/-- An update of the other fields. -/
theorem Keeps.upd {q s : State} {keyCtr reads nextRead tagWait atsInvs out west east ident sys time mbx arch i3c latches holds nextOp} (h : Keeps q s)
    (hs : s.sys.thermtrip = true → sys.thermtrip = true) :
    Keeps q { pending := s.pending, now := s.now, freeCtr := s.freeCtr, keyCtr := keyCtr, reads := reads, nextRead := nextRead,
              tagWait := tagWait, atsInvs := atsInvs, out := out, west := west, east := east, ident := ident, sys := sys,
              time := time, mbx := mbx, arch := arch, i3c := i3c, flash := s.flash, regs := s.regs, latches := latches, holds := holds,
              views := s.views, insts := s.insts, fns := s.fns, ops := s.ops, nextOp := nextOp } :=
  h.trans ⟨rfl, rfl, rfl, Nat.le_refl _, id, hs⟩

/-- Taking free values. -/
theorem keeps_freeSucc {q s : State} (h : Keeps q s) : Keeps q { s with freeCtr := s.freeCtr + 1 } :=
  h.trans ⟨rfl, rfl, rfl, Nat.le_succ _, id, id⟩

theorem keeps_ite {c : Prop} [Decidable c] {q a b : State} (ha : Keeps q a) (hb : Keeps q b) : Keeps q (if c then a else b) := by
  split
  · exact ha
  · exact hb

theorem keeps_foldl {α : Type} {q : State} {f : State → α → State} (l : List α) (s : State) (hf : ∀ s x, Keeps q s → Keeps q (f s x))
    (h : Keeps q s) : Keeps q (l.foldl f s) := by
  induction l generalizing s with
  | nil => exact h
  | cons x l ih => exact ih _ (hf s x h)

theorem keeps_foldl_fst {α β : Type} {q : State} {f : State × β → α → State × β} (l : List α) (p : State × β)
    (hf : ∀ p x, Keeps q p.1 → Keeps q (f p x).1) (h : Keeps q p.1) : Keeps q (l.foldl f p).1 := by
  induction l generalizing p with
  | nil => exact h
  | cons x l ih => exact ih _ (hf p x h)

/-- The same of an operation that may answer no state. -/
def KeepsOpt (q : State) : Option State → Prop
  | some t => Keeps q t
  | none => True

theorem keepsOpt_some {q t : State} (h : Keeps q t) : KeepsOpt q (some t) := h

theorem keepsOpt_none {q : State} : KeepsOpt q none := trivial

theorem keepsOpt_ite {c : Prop} [Decidable c] {q : State} {a b : Option State} (ha : KeepsOpt q a) (hb : KeepsOpt q b) :
    KeepsOpt q (if c then a else b) := by
  split
  · exact ha
  · exact hb

theorem keeps_getD {q d : State} {o : Option State} (ho : KeepsOpt q o) (hd : Keeps q d) : Keeps q (o.getD d) := by
  cases o with
  | none => exact hd
  | some t => exact ho

/-- The same of a management command. -/
def KeepsRes (q : State) : MgRes → Prop
  | .ok s _ => Keeps q s
  | .hold s => Keeps q s
  | .err _ _ => True

theorem keepsRes_ok {q s : State} {n : Nat} (h : Keeps q s) : KeepsRes q (.ok s n) := h

theorem keepsRes_hold {q s : State} (h : Keeps q s) : KeepsRes q (.hold s) := h

theorem keepsRes_err {q : State} {n k : Nat} : KeepsRes q (.err n k) := trivial

theorem keepsRes_mgState {q : State} {n : Nat} : KeepsRes q (mgState n) := trivial

theorem keepsRes_mgMalformed {q : State} : KeepsRes q mgMalformed := trivial

theorem keepsRes_mgAccess {q : State} : KeepsRes q mgAccess := trivial

theorem keepsRes_ite {c : Prop} [Decidable c] {q : State} {a b : MgRes} (ha : KeepsRes q a) (hb : KeepsRes q b) :
    KeepsRes q (if c then a else b) := by
  split
  · exact ha
  · exact hb

/-- The same of a request at its target. -/
def KeepsApp (q : State) : ApplyRes → Prop
  | .done s => Keeps q s
  | .refuse s _ => Keeps q s
  | .notReady => True
  | .walk _ => True

theorem keepsApp_done {q s : State} (h : Keeps q s) : KeepsApp q (.done s) := h

theorem keepsApp_refuse {q s : State} {k : NakKind} (h : Keeps q s) : KeepsApp q (.refuse s k) := h

theorem keepsApp_notReady {q : State} : KeepsApp q .notReady := trivial

theorem keepsApp_walk {q : State} {w : Walk} : KeepsApp q (.walk w) := trivial

theorem keepsApp_ite {c : Prop} [Decidable c] {q : State} {a b : ApplyRes} (ha : KeepsApp q a) (hb : KeepsApp q b) :
    KeepsApp q (if c then a else b) := by
  split
  · exact ha
  · exact hb

theorem keepsApp_eq_done {q s : State} {r : ApplyRes} (e : r = .done s) (h : KeepsApp q r) : Keeps q s := by rw [e] at h; exact h

theorem keepsApp_eq_refuse {q s : State} {k : NakKind} {r : ApplyRes} (e : r = .refuse s k) (h : KeepsApp q r) : Keeps q s := by
  rw [e] at h; exact h

/-- The same of a command. -/
def KeepsOut (q : State) : Host.Outcome State Fault Refusal → Prop
  | .next s => Keeps q s
  | _ => True

theorem keepsOut_next {q s : State} (h : Keeps q s) : KeepsOut q (.next s) := h

theorem keepsOut_ite {c : Prop} [Decidable c] {q : State} {a b : Host.Outcome State Fault Refusal} (ha : KeepsOut q a) (hb : KeepsOut q b) :
    KeepsOut q (if c then a else b) := by
  split
  · exact ha
  · exact hb

/-- A filtered table is canonical. -/
theorem twfFrom_filter {α : Type} [DecidableEq α] (dflt : α) (p : Nat × α → Bool) (t : Tab α) {lo : Nat} (h : twfFrom dflt lo t = true) :
    twfFrom dflt lo (t.filter p) = true := by
  induction t generalizing lo with
  | nil => rfl
  | cons x t ih =>
    obtain ⟨j, v⟩ := x
    simp only [twfFrom, Bool.and_eq_true] at h
    have ht := ih h.2
    simp only [List.filter]
    split
    · simp only [twfFrom, Bool.and_eq_true]
      exact ⟨h.1, ht⟩
    · exact twfFrom_mono dflt _ (Nat.le_succ_of_le (of_decide_eq_true h.1.1)) ht

/-- Registers and latched views dropped. -/
theorem keeps_dropRegs {q s : State} (p r : Nat × Nat → Bool) (h : Keeps q s) : Keeps q { s with regs := s.regs.filter p, views := s.views.filter r } :=
  h.trans ⟨rfl, rfl, rfl, Nat.le_refl _,
    fun w => ⟨w.1, twfFrom_filter 0 p s.regs w.2.1, twfFrom_filter 0 r s.views w.2.2.1, w.2.2.2⟩, id⟩

theorem keeps_dropReg {q s : State} (p : Nat × Nat → Bool) (h : Keeps q s) : Keeps q { s with regs := s.regs.filter p } :=
  h.trans ⟨rfl, rfl, rfl, Nat.le_refl _, fun w => ⟨w.1, twfFrom_filter 0 p s.regs w.2.1, w.2.2⟩, id⟩

/-- Every function changed. -/
theorem keeps_fnsMap {q s : State} (f : Nat → Fn → Fn) (h : Keeps q s) : Keeps q { s with fns := tmapv {} s.fns f } :=
  h.trans ⟨rfl, rfl, rfl, Nat.le_refl _, fun w => ⟨w.1, w.2.1, w.2.2.1, w.2.2.2.1, tmapv_wf {} s.fns f w.2.2.2.2.1, w.2.2.2.2.2⟩, id⟩

/-- Programming a flash byte keeps the flash canonical. -/
theorem flashPut_tidy (s : State) (a : Nat) (v : Byte) (h : twf 0xFF s.flash = true) : twf 0xFF (flashPut s a v).flash = true :=
  tset_wf 0xFF _ _ _ h

/-- Programming a page keeps the flash canonical. -/
theorem flashProgram_tidy (s : State) (addr : Nat) (data : List (Byte × Nat)) (h : twf 0xFF s.flash = true) :
    twf 0xFF (data.foldl (fun s (v, j) => flashPut s (addr + j) v) s).flash = true := by
  induction data generalizing s with
  | nil => exact h
  | cons x l ih => exact ih _ (flashPut_tidy s _ _ h)

end Sys2Proof.Laws
end

