-- ==== Sys2Proof/Laws/Keeps1.lean ====
section
/-! SUPPORT. `Keeps`, one lemma for each operation and command: the records, connections, message catalog, packets and their arrival. -/

set_option linter.unusedVariables false
set_option linter.unusedTactic false
set_option linter.unreachableTactic false
set_option maxRecDepth 10000

namespace Sys2Proof.Laws

open Sys2Proof Sys2Proof.Machine

variable {q0 : State}

theorem keeps_onDie (s : State) (d : Die) (f : DieState → DieState) (hk : Keeps q0 s) :
    Keeps q0 (onDie s d f) := by
  unfold onDie
  try dsimp only
  iterate 48 (all_goals (try first | (with_reducible first | exact hk | assumption | exact id | rfl | intro _ | apply keeps_ite) | split | (with_reducible apply Keeps.upd)))

theorem keeps_takeFree (s : State) (hk : Keeps q0 s) : Keeps q0 (takeFree s).2 :=
  hk.trans ⟨rfl, rfl, rfl, Nat.le_succ _, id, id⟩
theorem keeps_takeFree_eq {s t : State} {b : BitVec 64} (he : takeFree s = (b, t)) (hk : Keeps q0 s) : Keeps q0 t := by
  have := keeps_takeFree s hk; rw [he] at this; exact this

theorem keeps_onRings (s : State) (d : Die) (f : Rings → Rings) (hk : Keeps q0 s) :
    Keeps q0 (onRings s d f) := by
  unfold onRings
  try dsimp only
  iterate 48 (all_goals (try first | (with_reducible first | exact hk | apply keeps_onDie | assumption | exact id | rfl | intro _ | apply keeps_ite) | split | (with_reducible apply Keeps.upd)))

theorem keeps_modCmdRing (s : State) (d : Die) (n : Nat) (f : CmdRing → CmdRing) (hk : Keeps q0 s) :
    Keeps q0 (modCmdRing s d n f) := by
  unfold modCmdRing
  try dsimp only
  iterate 48 (all_goals (try first | (with_reducible first | exact hk | apply keeps_onRings | assumption | exact id | rfl | intro _ | apply keeps_ite) | split | (with_reducible apply Keeps.upd)))

theorem keeps_modCq (s : State) (d : Die) (m : Nat) (f : CqRing → CqRing) (hk : Keeps q0 s) :
    Keeps q0 (modCq s d m f) := by
  unfold modCq
  try dsimp only
  iterate 48 (all_goals (try first | (with_reducible first | exact hk | apply keeps_onRings | assumption | exact id | rfl | intro _ | apply keeps_ite) | split | (with_reducible apply Keeps.upd)))

theorem keeps_modConn (s : State) (d : Die) (c : Nat) (f : Conn → Conn) (hk : Keeps q0 s) :
    Keeps q0 (modConn s d c f) := by
  unfold modConn
  try dsimp only
  iterate 48 (all_goals (try first | (with_reducible first | exact hk | apply keeps_onDie | assumption | exact id | rfl | intro _ | apply keeps_ite) | split | (with_reducible apply Keeps.upd)))

theorem keeps_setTally (s : State) (n : Nat) (t : Tally) (hk : Keeps q0 s) :
    Keeps q0 (setTally s n t) := by
  unfold setTally
  try dsimp only
  iterate 48 (all_goals (try first | (with_reducible first | exact hk | apply keeps_onDie | assumption | exact id | rfl | intro _ | apply keeps_ite) | split | (with_reducible apply Keeps.upd)))

theorem keeps_modInst (s : State) (i : Nat) (f : Inst → Inst) (hk : Keeps q0 s) : Keeps q0 (modInst s i f) :=
  hk.trans ⟨rfl, rfl, rfl, Nat.le_refl _, fun w => ⟨w.1, w.2.1, w.2.2.1, tmod_wf _ _ _ _ w.2.2.2.1, w.2.2.2.2⟩, id⟩

theorem keeps_modFn (s : State) (f : FnId) (g : Fn → Fn) (hk : Keeps q0 s) : Keeps q0 (modFn s f g) :=
  hk.trans ⟨rfl, rfl, rfl, Nat.le_refl _, fun w => ⟨w.1, w.2.1, w.2.2.1, w.2.2.2.1, tmod_wf _ _ _ _ w.2.2.2.2.1, w.2.2.2.2.2⟩, id⟩

theorem keeps_modOp (s : State) (o : Nat) (f : Op → Op) (hk : Keeps q0 s) : Keeps q0 (modOp s o f) :=
  hk.trans ⟨rfl, rfl, rfl, Nat.le_refl _, fun w => ⟨w.1, w.2.1, w.2.2.1, w.2.2.2.1, w.2.2.2.2.1, tmod_wf _ _ _ _ w.2.2.2.2.2⟩, id⟩

theorem keeps_delOp (s : State) (o : Nat) (hk : Keeps q0 s) : Keeps q0 (delOp s o) :=
  hk.trans ⟨rfl, rfl, rfl, Nat.le_refl _, fun w => ⟨w.1, w.2.1, w.2.2.1, w.2.2.2.1, w.2.2.2.2.1, tdel_wf _ _ _ w.2.2.2.2.2⟩, id⟩

theorem keeps_onCat (s : State) (d : Die) (f : Cat → Cat) (hk : Keeps q0 s) :
    Keeps q0 (onCat s d f) := by
  unfold onCat
  try dsimp only
  iterate 48 (all_goals (try first | (with_reducible first | exact hk | apply keeps_onDie | assumption | exact id | rfl | intro _ | apply keeps_ite) | split | (with_reducible apply Keeps.upd)))

theorem keeps_modCtx (s : State) (d : Die) (i c : Nat) (f : Ctx → Ctx) (hk : Keeps q0 s) :
    Keeps q0 (modCtx s d i c f) := by
  unfold modCtx
  try dsimp only
  iterate 48 (all_goals (try first | (with_reducible first | exact hk | apply keeps_onCat | assumption | exact id | rfl | intro _ | apply keeps_ite) | split | (with_reducible apply Keeps.upd)))

theorem keeps_modBnd (s : State) (d : Die) (c : Nat) (f : BndCtx → BndCtx) (hk : Keeps q0 s) :
    Keeps q0 (modBnd s d c f) := by
  unfold modBnd
  try dsimp only
  iterate 48 (all_goals (try first | (with_reducible first | exact hk | apply keeps_onDie | assumption | exact id | rfl | intro _ | apply keeps_ite) | split | (with_reducible apply Keeps.upd)))

theorem keeps_onRtr (s : State) (d : Die) (f : Router → Router) (hk : Keeps q0 s) :
    Keeps q0 (onRtr s d f) := by
  unfold onRtr
  try dsimp only
  iterate 48 (all_goals (try first | (with_reducible first | exact hk | apply keeps_onDie | assumption | exact id | rfl | intro _ | apply keeps_ite) | split | (with_reducible apply Keeps.upd)))

theorem keeps_onSch (s : State) (d : Die) (f : Sch → Sch) (hk : Keeps q0 s) :
    Keeps q0 (onSch s d f) := by
  unfold onSch
  try dsimp only
  iterate 48 (all_goals (try first | (with_reducible first | exact hk | apply keeps_onDie | assumption | exact id | rfl | intro _ | apply keeps_ite) | split | (with_reducible apply Keeps.upd)))

theorem keeps_onCrz (s : State) (d : Die) (f : Cruise → Cruise) (hk : Keeps q0 s) :
    Keeps q0 (onCrz s d f) := by
  unfold onCrz
  try dsimp only
  iterate 48 (all_goals (try first | (with_reducible first | exact hk | apply keeps_onDie | assumption | exact id | rfl | intro _ | apply keeps_ite) | split | (with_reducible apply Keeps.upd)))

theorem keeps_onHst (s : State) (d : Die) (f : Hst → Hst) (hk : Keeps q0 s) :
    Keeps q0 (onHst s d f) := by
  unfold onHst
  try dsimp only
  iterate 48 (all_goals (try first | (with_reducible first | exact hk | apply keeps_onDie | assumption | exact id | rfl | intro _ | apply keeps_ite) | split | (with_reducible apply Keeps.upd)))

theorem keeps_onEng (s : State) (d : Die) (f : Eng → Eng) (hk : Keeps q0 s) :
    Keeps q0 (onEng s d f) := by
  unfold onEng
  try dsimp only
  iterate 48 (all_goals (try first | (with_reducible first | exact hk | apply keeps_onDie | assumption | exact id | rfl | intro _ | apply keeps_ite) | split | (with_reducible apply Keeps.upd)))

theorem keeps_onLko (s : State) (d : Die) (f : Lko → Lko) (hk : Keeps q0 s) :
    Keeps q0 (onLko s d f) := by
  unfold onLko
  try dsimp only
  iterate 48 (all_goals (try first | (with_reducible first | exact hk | apply keeps_onDie | assumption | exact id | rfl | intro _ | apply keeps_ite) | split | (with_reducible apply Keeps.upd)))

theorem keeps_onPwr (s : State) (d : Die) (f : Pwr → Pwr) (hk : Keeps q0 s) :
    Keeps q0 (onPwr s d f) := by
  unfold onPwr
  try dsimp only
  iterate 48 (all_goals (try first | (with_reducible first | exact hk | apply keeps_onDie | assumption | exact id | rfl | intro _ | apply keeps_ite) | split | (with_reducible apply Keeps.upd)))

theorem keeps_onEpc (s : State) (d : Die) (f : Epc → Epc) (hk : Keeps q0 s) :
    Keeps q0 (onEpc s d f) := by
  unfold onEpc
  try dsimp only
  iterate 48 (all_goals (try first | (with_reducible first | exact hk | apply keeps_onDie | assumption | exact id | rfl | intro _ | apply keeps_ite) | split | (with_reducible apply Keeps.upd)))

theorem keeps_modLink (s : State) (d : Die) (k : Nat) (f : Link → Link) (hk : Keeps q0 s) :
    Keeps q0 (modLink s d k f) := by
  unfold modLink
  try dsimp only
  iterate 48 (all_goals (try first | (with_reducible first | exact hk | apply keeps_onDie | assumption | exact id | rfl | intro _ | apply keeps_ite) | split | (with_reducible apply Keeps.upd)))

theorem keeps_modBrg (s : State) (d : Die) (b : Bridge) (f : Brg → Brg) (hk : Keeps q0 s) :
    Keeps q0 (modBrg s d b f) := by
  unfold modBrg
  try dsimp only
  iterate 48 (all_goals (try first | (with_reducible first | exact hk | apply keeps_onDie | assumption | exact id | rfl | intro _ | apply keeps_ite) | split | (with_reducible apply Keeps.upd)))

theorem keeps_modDom (s : State) (d : Die) (n : Nat) (f : Dom → Dom) (hk : Keeps q0 s) :
    Keeps q0 (modDom s d n f) := by
  unfold modDom
  try dsimp only
  iterate 48 (all_goals (try first | (with_reducible first | exact hk | apply keeps_onEpc | assumption | exact id | rfl | intro _ | apply keeps_ite) | split | (with_reducible apply Keeps.upd)))

theorem keeps_setReg (s : State) (d : Die) (off v : Nat) (h : Keeps q0 s) : Keeps q0 (setReg s d off v) :=
  h.trans ⟨rfl, rfl, rfl, Nat.le_refl _, fun w => ⟨w.1, tset_wf 0 _ _ _ w.2.1, w.2.2⟩, id⟩

theorem keeps_bumpReg (s : State) (d : Die) (off : Nat) (hk : Keeps q0 s) :
    Keeps q0 (bumpReg s d off) := by
  unfold bumpReg
  try dsimp only
  iterate 48 (all_goals (try first | (with_reducible first | exact hk | apply keeps_setReg | assumption | exact id | rfl | intro _ | apply keeps_ite) | split | (with_reducible apply Keeps.upd)))

theorem keeps_pmcAdd (k : Nat) (s : State) (a0 : Die) (a1 : Nat) (a2 : Nat) (hk : Keeps q0 s) : Keeps q0 (pmcAdd k s a0 a1 a2) := by
  induction k generalizing s a0 a1 a2 with
  | zero => exact hk
  | succ k ih =>
    unfold pmcAdd
    try dsimp only
    iterate 48 (all_goals (try first | (with_reducible first | exact hk | apply ih | apply keeps_setReg | apply keeps_onCrz | apply keeps_foldl | apply keeps_foldl_fst | assumption | exact id | rfl | intro _ | apply keeps_ite) | split | (with_reducible apply Keeps.upd)))

theorem keeps_pmc (s : State) (d : Die) (i n : Nat) (hk : Keeps q0 s) :
    Keeps q0 (pmc s d i n) := by
  unfold pmc
  try dsimp only
  iterate 48 (all_goals (try first | (with_reducible first | exact hk | apply keeps_pmcAdd | assumption | exact id | rfl | intro _ | apply keeps_ite) | split | (with_reducible apply Keeps.upd)))

theorem keeps_pmcAt (s : State) (d : Die) (i n ctx : Nat) (hk : Keeps q0 s) :
    Keeps q0 (pmcAt s d i n ctx) := by
  unfold pmcAt
  try dsimp only
  iterate 48 (all_goals (try first | (with_reducible first | exact hk | apply keeps_onCrz | apply keeps_pmc | assumption | exact id | rfl | intro _ | apply keeps_ite) | split | (with_reducible apply Keeps.upd)))

theorem keeps_pmcHost (s : State) (port e n : Nat) (hk : Keeps q0 s) :
    Keeps q0 (pmcHost s port e n) := by
  unfold pmcHost
  try dsimp only
  iterate 48 (all_goals (try first | (with_reducible first | exact hk | apply keeps_pmc | assumption | exact id | rfl | intro _ | apply keeps_ite) | split | (with_reducible apply Keeps.upd)))

theorem keeps_countOut (s : State) (a0 : Out) (hk : Keeps q0 s) :
    Keeps q0 (countOut s a0) := by
  unfold countOut
  try dsimp only
  iterate 48 (all_goals (try first | (with_reducible first | exact hk | apply keeps_pmcHost | assumption | exact id | rfl | intro _ | apply keeps_ite) | split | (with_reducible apply Keeps.upd)))

theorem keeps_emit (s : State) (o : Out) (hk : Keeps q0 s) :
    Keeps q0 (emit s o) := by
  unfold emit
  try dsimp only
  iterate 48 (all_goals (try first | (with_reducible first | exact hk | apply keeps_countOut | assumption | exact id | rfl | intro _ | apply keeps_ite) | split | (with_reducible apply Keeps.upd)))

theorem keeps_emits (s : State) (l : List Out) (hk : Keeps q0 s) :
    Keeps q0 (emits s l) := by
  unfold emits
  try dsimp only
  iterate 48 (all_goals (try first | (with_reducible first | exact hk | apply keeps_emit | apply keeps_foldl | apply keeps_foldl_fst | assumption | exact id | rfl | intro _ | apply keeps_ite) | split | (with_reducible apply Keeps.upd)))

theorem keeps_writeRecord (s : State) (port link addr rec : Nat) (hk : Keeps q0 s) :
    Keeps q0 (writeRecord s port link addr rec) := by
  unfold writeRecord
  try dsimp only
  iterate 48 (all_goals (try first | (with_reducible first | exact hk | apply keeps_emit | assumption | exact id | rfl | intro _ | apply keeps_ite) | split | (with_reducible apply Keeps.upd)))

theorem keeps_modSrc (s : State) (d : Die) (n : Nat) (f : Src → Src) (hk : Keeps q0 s) :
    Keeps q0 (modSrc s d n f) := by
  unfold modSrc
  try dsimp only
  iterate 48 (all_goals (try first | (with_reducible first | exact hk | apply keeps_onEng | assumption | exact id | rfl | intro _ | apply keeps_ite) | split | (with_reducible apply Keeps.upd)))

theorem keeps_raiseLocal (s : State) (d : Die) (n : Nat) (hk : Keeps q0 s) :
    Keeps q0 (raiseLocal s d n) := by
  unfold raiseLocal
  try dsimp only
  iterate 48 (all_goals (try first | (with_reducible first | exact hk | apply keeps_modSrc | assumption | exact id | rfl | intro _ | apply keeps_ite) | split | (with_reducible apply Keeps.upd)))

theorem keeps_raiseSource (s : State) (d : Die) (n : Nat) (hk : Keeps q0 s) :
    Keeps q0 (raiseSource s d n) := by
  unfold raiseSource
  try dsimp only
  iterate 48 (all_goals (try first | (with_reducible first | exact hk | apply keeps_raiseLocal | assumption | exact id | rfl | intro _ | apply keeps_ite) | split | (with_reducible apply Keeps.upd)))

theorem keeps_setLevel (s : State) (d : Die) (n : Nat) (on : Bool) (hk : Keeps q0 s) :
    Keeps q0 (setLevel s d n on) := by
  unfold setLevel
  try dsimp only
  iterate 48 (all_goals (try first | (with_reducible first | exact hk | apply keeps_modSrc | assumption | exact id | rfl | intro _ | apply keeps_ite) | split | (with_reducible apply Keeps.upd)))

theorem keeps_postInst (s : State) (i code data : Nat) (hk : Keeps q0 s) :
    Keeps q0 (postInst s i code data) := by
  unfold postInst
  try dsimp only
  iterate 48 (all_goals (try first | (with_reducible first | exact hk | apply keeps_modInst | apply keeps_raiseSource | apply keeps_writeRecord | assumption | exact id | rfl | intro _ | apply keeps_ite) | split | (with_reducible apply Keeps.upd)))

theorem keeps_mgmtRing (s : State) (d : Die) (time data code source : Nat) (hk : Keeps q0 s) :
    Keeps q0 (mgmtRing s d time data code source) := by
  unfold mgmtRing
  try dsimp only
  iterate 48 (all_goals (try first | (with_reducible first | exact hk | apply keeps_onDie | apply keeps_raiseSource | apply keeps_writeRecord | assumption | exact id | rfl | intro _ | apply keeps_ite) | split | (with_reducible apply Keeps.upd)))

theorem keeps_postMgmt (s : State) (d : Die) (code data : Nat) (hk : Keeps q0 s) :
    Keeps q0 (postMgmt s d code data) := by
  unfold postMgmt
  try dsimp only
  iterate 48 (all_goals (try first | (with_reducible first | exact hk | apply keeps_emit | apply keeps_mgmtRing | apply keeps_onDie | assumption | exact id | rfl | intro _ | apply keeps_ite) | split | (with_reducible apply Keeps.upd)))

theorem keeps_postBoth (s : State) (code data : Nat) (hk : Keeps q0 s) :
    Keeps q0 (postBoth s code data) := by
  unfold postBoth
  try dsimp only
  iterate 48 (all_goals (try first | (with_reducible first | exact hk | apply keeps_postMgmt | assumption | exact id | rfl | intro _ | apply keeps_ite) | split | (with_reducible apply Keeps.upd)))

theorem keeps_setInstSt (s : State) (i : Nat) (st : InstSt) (cause : Nat) (hk : Keeps q0 s) :
    Keeps q0 (setInstSt s i st cause) := by
  unfold setInstSt
  try dsimp only
  iterate 48 (all_goals (try first | (with_reducible first | exact hk | apply keeps_modInst | apply keeps_postMgmt | assumption | exact id | rfl | intro _ | apply keeps_ite) | split | (with_reducible apply Keeps.upd)))

theorem keeps_cqWrite (s : State) (d : Die) (m rec : Nat) (hk : Keeps q0 s) :
    Keeps q0 (cqWrite s d m rec) := by
  unfold cqWrite
  try dsimp only
  iterate 48 (all_goals (try first | (with_reducible first | exact hk | apply keeps_modCq | apply keeps_pmcHost | apply keeps_raiseSource | apply keeps_writeRecord | assumption | exact id | rfl | intro _ | apply keeps_ite) | split | (with_reducible apply Keeps.upd)))

theorem keeps_postRecord (s : State) (d : Die) (m rec : Nat) (hk : Keeps q0 s) :
    Keeps q0 (postRecord s d m rec) := by
  unfold postRecord
  try dsimp only
  iterate 48 (all_goals (try first | (with_reducible first | exact hk | apply keeps_cqWrite | apply keeps_modCq | assumption | exact id | rfl | intro _ | apply keeps_ite) | split | (with_reducible apply Keeps.upd)))

theorem keeps_fireTriggers (s : State) (n : Nat) (hk : Keeps q0 s) :
    Keeps q0 (fireTriggers s n) := by
  unfold fireTriggers
  try dsimp only
  iterate 48 (all_goals (try first | (with_reducible first | exact hk | apply keeps_foldl | apply keeps_modOp | apply keeps_onDie | apply keeps_foldl_fst | assumption | exact id | rfl | intro _ | apply keeps_ite) | split | (with_reducible apply Keeps.upd)))

theorem keeps_tallyInc (s : State) (n : Nat) (hk : Keeps q0 s) :
    Keeps q0 (tallyInc s n).1 := by
  unfold tallyInc
  try dsimp only
  iterate 48 (all_goals (try first | (with_reducible first | exact hk | apply keeps_fireTriggers | apply keeps_postInst | apply keeps_setTally | assumption | exact id | rfl | intro _ | apply keeps_ite) | split | (with_reducible apply Keeps.upd)))
theorem keeps_tallyInc_eq {s : State}  {n : Nat} {t0 : State} {b0 : Bool} (he : tallyInc s n = (t0, b0)) (hk : Keeps q0 s) : Keeps q0 t0 := by
  have := keeps_tallyInc s n hk; rw [he] at this; exact this

theorem keeps_freeThread (s : State) (o : Nat) (hk : Keeps q0 s) :
    Keeps q0 (freeThread s o) := by
  unfold freeThread
  try dsimp only
  iterate 48 (all_goals (try first | (with_reducible first | exact hk | apply keeps_modOp | apply keeps_onEng | assumption | exact id | rfl | intro _ | apply keeps_ite) | split | (with_reducible apply Keeps.upd)))

theorem keeps_retireOp (s : State) (o code : Nat) (hk : Keeps q0 s) :
    Keeps q0 (retireOp s o code) := by
  unfold retireOp
  try dsimp only
  iterate 48 (all_goals (try first | (with_reducible first | exact hk | apply keeps_delOp | apply keeps_freeThread | apply keeps_modCmdRing | apply keeps_modConn | apply keeps_modCtx | apply keeps_onDie | assumption | exact id | rfl | intro _ | apply keeps_ite) | split | (with_reducible apply Keeps.upd)))

theorem keeps_deliver (s : State) (x : Op) (rec : Nat) (hk : Keeps q0 s) :
    Keeps q0 (deliver s x rec) := by
  unfold deliver
  try dsimp only
  iterate 48 (all_goals (try first | (with_reducible first | exact hk | apply keeps_emit | apply keeps_getD | apply keeps_onSch | apply keeps_postRecord | assumption | exact id | rfl | intro _ | apply keeps_ite) | split | (with_reducible apply Keeps.upd)))

theorem keeps_completeOp (s : State) (o : Nat) (r : Outcome) (hk : Keeps q0 s) :
    Keeps q0 (completeOp s o r) := by
  unfold completeOp
  try dsimp only
  iterate 48 (all_goals (try first | (with_reducible first | exact hk | apply keeps_deliver | apply keeps_retireOp | apply keeps_tallyInc | refine keeps_tallyInc_eq (by assumption) ?_ | assumption | exact id | rfl | intro _ | apply keeps_ite) | split | (with_reducible apply Keeps.upd)))

theorem keeps_failOp (s : State) (o code sub : Nat) (hk : Keeps q0 s) :
    Keeps q0 (failOp s o code sub) := by
  unfold failOp
  try dsimp only
  iterate 48 (all_goals (try first | (with_reducible first | exact hk | apply keeps_completeOp | assumption | exact id | rfl | intro _ | apply keeps_ite) | split | (with_reducible apply Keeps.upd)))

theorem keeps_modErr (s : State) (d : Die) (b : Nat) (f : ErrRec → ErrRec) (hk : Keeps q0 s) :
    Keeps q0 (modErr s d b f) := by
  unfold modErr
  try dsimp only
  iterate 48 (all_goals (try first | (with_reducible first | exact hk | apply keeps_onLko | assumption | exact id | rfl | intro _ | apply keeps_ite) | split | (with_reducible apply Keeps.upd)))

theorem keeps_modUnit (s : State) (d : Die) (b u : Nat) (f : FaultUnit → FaultUnit) (hk : Keeps q0 s) :
    Keeps q0 (modUnit s d b u f) := by
  unfold modUnit
  try dsimp only
  iterate 48 (all_goals (try first | (with_reducible first | exact hk | apply keeps_onLko | assumption | exact id | rfl | intro _ | apply keeps_ite) | split | (with_reducible apply Keeps.upd)))

theorem keeps_errLevel (s : State) (d : Die) (b : Nat) (hk : Keeps q0 s) :
    Keeps q0 (errLevel s d b) := by
  unfold errLevel
  try dsimp only
  iterate 48 (all_goals (try first | (with_reducible first | exact hk | apply keeps_setLevel | assumption | exact id | rfl | intro _ | apply keeps_ite) | split | (with_reducible apply Keeps.upd)))

theorem keeps_recordErr (s : State) (d : Die) (b u : Nat) (c : FaultClass) (code : Nat) (hk : Keeps q0 s) :
    Keeps q0 (recordErr s d b u c code) := by
  unfold recordErr
  try dsimp only
  iterate 48 (all_goals (try first | (with_reducible first | exact hk | apply keeps_errLevel | apply keeps_modErr | assumption | exact id | rfl | intro _ | apply keeps_ite) | split | (with_reducible apply Keeps.upd)))

theorem keeps_logErr (s : State) (d : Die) (b : Nat) (hk : Keeps q0 s) :
    Keeps q0 (logErr s d b) := by
  unfold logErr
  try dsimp only
  iterate 48 (all_goals (try first | (with_reducible first | exact hk | apply keeps_onLko | assumption | exact id | rfl | intro _ | apply keeps_ite) | split | (with_reducible apply Keeps.upd)))

theorem keeps_ownInt (s : State) (d : Die) (b : Nat) (new : Bool) (hk : Keeps q0 s) :
    Keeps q0 (ownInt s d b new) := by
  unfold ownInt
  try dsimp only
  iterate 48 (all_goals (try first | (with_reducible first | exact hk | apply keeps_raiseSource | assumption | exact id | rfl | intro _ | apply keeps_ite) | split | (with_reducible apply Keeps.upd)))

theorem keeps_noteDeferred (s : State) (d : Die) (b u code : Nat) (hk : Keeps q0 s) :
    Keeps q0 (noteDeferred s d b u code) := by
  unfold noteDeferred
  try dsimp only
  iterate 48 (all_goals (try first | (with_reducible first | exact hk | apply keeps_errLevel | apply keeps_logErr | apply keeps_modErr | apply keeps_ownInt | apply keeps_recordErr | assumption | exact id | rfl | intro _ | apply keeps_ite) | split | (with_reducible apply Keeps.upd)))

theorem keeps_tellDeferred (s : State) (d : Die) (hk : Keeps q0 s) :
    Keeps q0 (tellDeferred s d) := by
  unfold tellDeferred
  try dsimp only
  iterate 48 (all_goals (try first | (with_reducible first | exact hk | apply keeps_postMgmt | assumption | exact id | rfl | intro _ | apply keeps_ite) | split | (with_reducible apply Keeps.upd)))

theorem keeps_cellRead (s : State) (d : Die) (b : Nat) (owner reader : Option Nat) (hk : Keeps q0 s) :
    Keeps q0 (cellRead s d b owner reader).2 := by
  unfold cellRead
  try dsimp only
  iterate 48 (all_goals (try first | (with_reducible first | exact hk | apply keeps_noteDeferred | apply keeps_takeFree | apply keeps_tellDeferred | refine keeps_takeFree_eq (by assumption) ?_ | assumption | exact id | rfl | intro _ | apply keeps_ite) | split | (with_reducible apply Keeps.upd)))
theorem keeps_cellRead_eq {s : State}  {d : Die}  {b : Nat}  {owner reader : Option Nat} {t0 : State} {b0 : Bool} (he : cellRead s d b owner reader = (b0, t0)) (hk : Keeps q0 s) : Keeps q0 t0 := by
  have := keeps_cellRead s d b owner reader hk; rw [he] at this; exact this

theorem keeps_sendRead (s : State) (r : HostRead) (hk : Keeps q0 s) :
    Keeps q0 (sendRead s r) := by
  unfold sendRead
  try dsimp only
  iterate 48 (all_goals (try first | (with_reducible first | exact hk | apply keeps_emit | apply keeps_pmcHost | assumption | exact id | rfl | intro _ | apply keeps_ite) | split | (with_reducible apply Keeps.upd)))

theorem keeps_issueWaiting (s : State) (hk : Keeps q0 s) :
    Keeps q0 (issueWaiting s) := by
  unfold issueWaiting
  try dsimp only
  iterate 48 (all_goals (try first | (with_reducible first | exact hk | apply keeps_emits | apply keeps_foldl | apply keeps_sendRead | apply keeps_foldl_fst | assumption | exact id | rfl | intro _ | apply keeps_ite) | split | (with_reducible apply Keeps.upd)))

theorem keeps_askRead (s : State) (o : ReadOwner) (who : Nat) (win : Option Nat) (old ats : Bool) (addr len : Nat) (hk : Keeps q0 s) :
    Keeps q0 (askRead s o who win old ats addr len) := by
  unfold askRead
  try dsimp only
  iterate 48 (all_goals (try first | (with_reducible first | exact hk | apply keeps_issueWaiting | assumption | exact id | rfl | intro _ | apply keeps_ite) | split | (with_reducible apply Keeps.upd)))

theorem keeps_takeReads_eq {s : State} {o : ReadOwner} {x b0 : Bool} {t0 : State} (he : takeReads s o x = some (b0, t0)) (hk : Keeps q0 s) :
    Keeps q0 t0 := by
  unfold takeReads at he
  split at he
  · simp only [Option.some.injEq, Prod.mk.injEq] at he
    exact he.2 ▸ hk
  · dsimp only at he
    split at he
    · cases he
    · simp only [Option.some.injEq, Prod.mk.injEq] at he
      rw [← he.2]
      apply keeps_issueWaiting
      apply Keeps.upd _ id
      split
      · exact keeps_pmcHost _ _ _ _ hk
      · exact hk

theorem keeps_abandonReads (s : State) (p : HostRead → Bool) (hk : Keeps q0 s) :
    Keeps q0 (abandonReads s p) := by
  unfold abandonReads
  try dsimp only
  iterate 48 (all_goals (try first | (with_reducible first | exact hk | assumption | exact id | rfl | intro _ | apply keeps_ite) | split | (with_reducible apply Keeps.upd)))

theorem keeps_issueWalk (s : State) (n : Nat) (w : Walk) (hk : Keeps q0 s) :
    Keeps q0 (issueWalk s n w) := by
  unfold issueWalk
  try dsimp only
  iterate 48 (all_goals (try first | (with_reducible first | exact hk | apply keeps_askRead | apply keeps_emit | apply keeps_pmc | assumption | exact id | rfl | intro _ | apply keeps_ite) | split | (with_reducible apply Keeps.upd)))

theorem keeps_startWalk (s : State) (w : Walk) (hk : Keeps q0 s) :
    Keeps q0 (startWalk s w) := by
  unfold startWalk
  try dsimp only
  iterate 48 (all_goals (try first | (with_reducible first | exact hk | apply keeps_issueWalk | apply keeps_onHst | apply keeps_pmc | assumption | exact id | rfl | intro _ | apply keeps_ite) | split | (with_reducible apply Keeps.upd)))

theorem keeps_nextWalk (s : State) (d : Die) (hk : Keeps q0 s) :
    Keeps q0 (nextWalk s d) := by
  unfold nextWalk
  try dsimp only
  iterate 48 (all_goals (try first | (with_reducible first | exact hk | apply keeps_issueWalk | apply keeps_onHst | assumption | exact id | rfl | intro _ | apply keeps_ite) | split | (with_reducible apply Keeps.upd)))

theorem keeps_tlbFill (s : State) (d : Die) (e : TlbEnt) (hk : Keeps q0 s) :
    Keeps q0 (tlbFill s d e) := by
  unfold tlbFill
  try dsimp only
  iterate 48 (all_goals (try first | (with_reducible first | exact hk | apply keeps_onHst | assumption | exact id | rfl | intro _ | apply keeps_ite) | split | (with_reducible apply Keeps.upd)))

theorem keeps_tlbTouch (s : State) (d : Die) (i w page : Nat) (ats : Bool) (hk : Keeps q0 s) :
    Keeps q0 (tlbTouch s d i w page ats) := by
  unfold tlbTouch
  try dsimp only
  iterate 48 (all_goals (try first | (with_reducible first | exact hk | apply keeps_onHst | assumption | exact id | rfl | intro _ | apply keeps_ite) | split | (with_reducible apply Keeps.upd)))

theorem keeps_tlbUse (s : State) (xl : List TlbEnt) (i a len : Nat) (hk : Keeps q0 s) :
    Keeps q0 (tlbUse s xl i a len) := by
  unfold tlbUse
  try dsimp only
  iterate 48 (all_goals (try first | (with_reducible first | exact hk | apply keeps_foldl | apply keeps_pmc | apply keeps_tlbTouch | apply keeps_foldl_fst | assumption | exact id | rfl | intro _ | apply keeps_ite) | split | (with_reducible apply Keeps.upd)))

theorem keeps_tlbDrop (s : State) (d : Die) (i : Nat) (w : Option Nat) (hk : Keeps q0 s) :
    Keeps q0 (tlbDrop s d i w) := by
  unfold tlbDrop
  try dsimp only
  iterate 48 (all_goals (try first | (with_reducible first | exact hk | apply keeps_onHst | assumption | exact id | rfl | intro _ | apply keeps_ite) | split | (with_reducible apply Keeps.upd)))

theorem keeps_readsOld (s : State) (i : Nat) (w : Option Nat) (hk : Keeps q0 s) :
    Keeps q0 (readsOld s i w) := by
  unfold readsOld
  try dsimp only
  iterate 48 (all_goals (try first | (with_reducible first | exact hk | assumption | exact id | rfl | intro _ | apply keeps_ite) | split | (with_reducible apply Keeps.upd)))

theorem keeps_writePieces (s : State) (i a : Nat) (pieces : List (Nat × Nat)) (bytes : List Byte) (payload : Bool) (hk : Keeps q0 s) :
    Keeps q0 (writePieces s i a pieces bytes payload) := by
  unfold writePieces
  try dsimp only
  iterate 48 (all_goals (try first | (with_reducible first | exact hk | apply keeps_emit | apply keeps_foldl | apply keeps_tlbUse | apply keeps_foldl_fst | assumption | exact id | rfl | intro _ | apply keeps_ite) | split | (with_reducible apply Keeps.upd)))

theorem keeps_readPieces (s : State) (o : ReadOwner) (xl : List TlbEnt) (i a : Nat) (pieces : List (Nat × Nat)) (hk : Keeps q0 s) :
    Keeps q0 (readPieces s o xl i a pieces) := by
  unfold readPieces
  try dsimp only
  iterate 48 (all_goals (try first | (with_reducible first | exact hk | apply keeps_askRead | apply keeps_foldl | apply keeps_tlbUse | apply keeps_foldl_fst | apply keeps_emit | assumption | exact id | rfl | intro _ | apply keeps_ite) | split | (with_reducible apply Keeps.upd)))

theorem keeps_readNow (s : State) (xl : List TlbEnt) (i a : Nat) (pieces : List (Nat × Nat)) (hk : Keeps q0 s) :
    Keeps q0 (readNow s xl i a pieces) := by
  unfold readNow
  try dsimp only
  iterate 48 (all_goals (try first | (with_reducible first | exact hk | apply keeps_emit | apply keeps_foldl | apply keeps_tlbUse | apply keeps_foldl_fst | assumption | exact id | rfl | intro _ | apply keeps_ite) | split | (with_reducible apply Keeps.upd)))

theorem keeps_shadowWrite (s : State) (d : Die) (n : Nat) (hk : Keeps q0 s) :
    Keeps q0 (shadowWrite s d n) := by
  unfold shadowWrite
  try dsimp only
  iterate 48 (all_goals (try first | (with_reducible first | exact hk | apply keeps_emit | apply keeps_modCmdRing | assumption | exact id | rfl | intro _ | apply keeps_ite) | split | (with_reducible apply Keeps.upd)))

theorem keeps_shadowLater (s : State) (d : Die) (n : Nat) (hk : Keeps q0 s) :
    Keeps q0 (shadowLater s d n) := by
  unfold shadowLater
  try dsimp only
  iterate 48 (all_goals (try first | (with_reducible first | exact hk | apply keeps_modCmdRing | assumption | exact id | rfl | intro _ | apply keeps_ite) | split | (with_reducible apply Keeps.upd)))

theorem keeps_setRingSt (s : State) (d : Die) (n : Nat) (st : RingSt) (hk : Keeps q0 s) :
    Keeps q0 (setRingSt s d n st) := by
  unfold setRingSt
  try dsimp only
  iterate 48 (all_goals (try first | (with_reducible first | exact hk | apply keeps_modCmdRing | apply keeps_shadowLater | assumption | exact id | rfl | intro _ | apply keeps_ite) | split | (with_reducible apply Keeps.upd)))

theorem keeps_issueFetch (s : State) (d : Die) (n : Nat) (hk : Keeps q0 s) :
    Keeps q0 (issueFetch s d n) := by
  unfold issueFetch
  try dsimp only
  iterate 48 (all_goals (try first | (with_reducible first | exact hk | apply keeps_askRead | apply keeps_modCmdRing | apply keeps_emit | assumption | exact id | rfl | intro _ | apply keeps_ite) | split | (with_reducible apply Keeps.upd)))

theorem keeps_dropFetch (s : State) (d : Die) (n : Nat) (hk : Keeps q0 s) :
    Keeps q0 (dropFetch s d n) := by
  unfold dropFetch
  try dsimp only
  iterate 48 (all_goals (try first | (with_reducible first | exact hk | apply keeps_abandonReads | assumption | exact id | rfl | intro _ | apply keeps_ite) | split | (with_reducible apply Keeps.upd)))

theorem keeps_scan (s : State) (d : Die) (n : Nat) (hk : Keeps q0 s) :
    Keeps q0 (scan s d n) := by
  unfold scan
  try dsimp only
  iterate 48 (all_goals (try first | (with_reducible first | exact hk | apply keeps_issueFetch | apply keeps_modCmdRing | assumption | exact id | rfl | intro _ | apply keeps_ite) | split | (with_reducible apply Keeps.upd)))

theorem keeps_ringDoorbell (s : State) (d : Die) (n : Nat) (hk : Keeps q0 s) :
    Keeps q0 (ringDoorbell s d n) := by
  unfold ringDoorbell
  try dsimp only
  iterate 48 (all_goals (try first | (with_reducible first | exact hk | apply keeps_modCmdRing | apply keeps_pmcHost | apply keeps_scan | apply keeps_setRingSt | assumption | exact id | rfl | intro _ | apply keeps_ite) | split | (with_reducible apply Keeps.upd)))

theorem keeps_execDoorbell (who : Requester) (idx : Nat) (s : State) (hk : Keeps q0 s) :
    KeepsOut q0 (execDoorbell who idx s) := by
  unfold execDoorbell
  try dsimp only
  iterate 48 (all_goals (try first | (with_reducible first | exact hk | apply keeps_ringDoorbell | apply keepsOut_next | apply keepsOut_ite | assumption | exact id | rfl | intro _ | apply keeps_ite | apply keepsOut_next | apply keepsOut_ite) | split | (with_reducible apply Keeps.upd)))

theorem keeps_ringHalt (s : State) (d : Die) (n cause word0 : Nat) (hk : Keeps q0 s) :
    Keeps q0 (ringHalt s d n cause word0) := by
  unfold ringHalt
  try dsimp only
  iterate 48 (all_goals (try first | (with_reducible first | exact hk | apply keeps_cqWrite | apply keeps_dropFetch | apply keeps_modCmdRing | apply keeps_modCq | apply keeps_pmcHost | apply keeps_postInst | apply keeps_postMgmt | apply keeps_setRingSt | assumption | exact id | rfl | intro _ | apply keeps_ite) | split | (with_reducible apply Keeps.upd)))

theorem keeps_ringConsume (s : State) (d : Die) (n : Nat) (b : Block) (hk : Keeps q0 s) :
    Keeps q0 (ringConsume s d n b) := by
  unfold ringConsume
  try dsimp only
  iterate 48 (all_goals (try first | (with_reducible first | exact hk | apply keeps_modCmdRing | apply keeps_modCq | apply keeps_pmcHost | apply keeps_shadowLater | apply keeps_shadowWrite | assumption | exact id | rfl | intro _ | apply keeps_ite) | split | (with_reducible apply Keeps.upd)))

theorem keeps_ringFetched (s : State) (d : Die) (n : Nat) (e : EntryRead) (hk : Keeps q0 s) :
    Keeps q0 (ringFetched s d n e) := by
  unfold ringFetched
  dsimp only
  refine keeps_ite ?_ ?_
  rotate_left
  cases judgeEntry (cmdRing s d n) e <;> cases (cmdRing s d n).st <;> dsimp only
  iterate 48 (all_goals (try first | (with_reducible first | exact hk | apply keeps_modCmdRing | apply keeps_ringHalt | apply keeps_issueFetch | apply keeps_ringConsume | apply keeps_setRingSt | assumption | exact id | intro _ | apply keeps_ite) | split | (with_reducible apply Keeps.upd)))

theorem keeps_execRingEntryFetch (d : Die) (n : Nat) (parts : List ReadPart) (s : State) (hk : Keeps q0 s) :
    KeepsOut q0 (execRingEntryFetch d n parts s) := by
  unfold execRingEntryFetch
  try dsimp only
  iterate 48 (all_goals (try first | (with_reducible first | exact hk | apply keeps_ringFetched | apply keepsOut_next | apply keepsOut_ite | refine keeps_takeReads_eq (by assumption) ?_ | assumption | exact id | rfl | intro _ | apply keeps_ite | apply keepsOut_next | apply keepsOut_ite) | split | (with_reducible apply Keeps.upd)))

theorem keeps_execRingConsumeRetry (d : Die) (n : Nat) (parts : List ReadPart) (s : State) (hk : Keeps q0 s) :
    KeepsOut q0 (execRingConsumeRetry d n parts s) := by
  unfold execRingConsumeRetry
  try dsimp only
  iterate 48 (all_goals (try first | (with_reducible first | exact hk | apply keeps_modCmdRing | apply keeps_ringFetched | apply keepsOut_next | apply keepsOut_ite | assumption | exact id | rfl | intro _ | apply keeps_ite | apply keepsOut_next | apply keepsOut_ite) | split | (with_reducible apply Keeps.upd)))

theorem keeps_rescanRings (s : State) (d : Die) (hk : Keeps q0 s) :
    Keeps q0 (rescanRings s d) := by
  unfold rescanRings
  try dsimp only
  iterate 48 (all_goals (try first | (with_reducible first | exact hk | apply keeps_foldl | apply keeps_modCmdRing | apply keeps_scan | apply keeps_setRingSt | apply keeps_foldl_fst | assumption | exact id | rfl | intro _ | apply keeps_ite) | split | (with_reducible apply Keeps.upd)))

theorem keeps_ringPause (s : State) (d : Die) (n : Nat) (hk : Keeps q0 s) :
    Keeps q0 (ringPause s d n) := by
  unfold ringPause
  try dsimp only
  iterate 48 (all_goals (try first | (with_reducible first | exact hk | apply keeps_modCmdRing | apply keeps_setRingSt | assumption | exact id | rfl | intro _ | apply keeps_ite) | split | (with_reducible apply Keeps.upd)))

theorem keeps_ringResume (s : State) (d : Die) (n : Nat) (hk : Keeps q0 s) :
    Keeps q0 (ringResume s d n) := by
  unfold ringResume
  try dsimp only
  iterate 48 (all_goals (try first | (with_reducible first | exact hk | apply keeps_modCmdRing | apply keeps_scan | apply keeps_setRingSt | assumption | exact id | rfl | intro _ | apply keeps_ite) | split | (with_reducible apply Keeps.upd)))

theorem keeps_cancelEntry (s : State) (d : Die) (n : Nat) (e : QEntry) (hk : Keeps q0 s) :
    Keeps q0 (cancelEntry s d n e) := by
  unfold cancelEntry
  try dsimp only
  iterate 48 (all_goals (try first | (with_reducible first | exact hk | apply keeps_postRecord | assumption | exact id | rfl | intro _ | apply keeps_ite) | split | (with_reducible apply Keeps.upd)))

theorem keeps_cancelOp (s : State) (o : Nat) (hk : Keeps q0 s) :
    Keeps q0 (cancelOp s o) := by
  unfold cancelOp
  try dsimp only
  iterate 48 (all_goals (try first | (with_reducible first | exact hk | apply keeps_completeOp | apply keeps_modOp | assumption | exact id | rfl | intro _ | apply keeps_ite) | split | (with_reducible apply Keeps.upd)))

theorem keeps_unage (s : State) (d : Die) (n : Nat) (hk : Keeps q0 s) :
    Keeps q0 (unage s d n) := by
  unfold unage
  try dsimp only
  iterate 48 (all_goals (try first | (with_reducible first | exact hk | apply keeps_onRings | assumption | exact id | rfl | intro _ | apply keeps_ite) | split | (with_reducible apply Keeps.upd)))

theorem keeps_ringToReset (s : State) (d : Die) (n : Nat) (hk : Keeps q0 s) :
    Keeps q0 (ringToReset s d n) := by
  unfold ringToReset
  try dsimp only
  iterate 48 (all_goals (try first | (with_reducible first | exact hk | apply keeps_cancelEntry | apply keeps_cancelOp | apply keeps_dropFetch | apply keeps_foldl | apply keeps_modCmdRing | apply keeps_setRingSt | apply keeps_unage | apply keeps_foldl_fst | assumption | exact id | rfl | intro _ | apply keeps_ite) | split | (with_reducible apply Keeps.upd)))

theorem keeps_ringClear (s : State) (d : Die) (n : Nat) (hk : Keeps q0 s) :
    Keeps q0 (ringClear s d n) := by
  unfold ringClear
  try dsimp only
  iterate 48 (all_goals (try first | (with_reducible first | exact hk | apply keeps_completeOp | apply keeps_foldl | apply keeps_modCmdRing | apply keeps_modCq | apply keeps_unage | apply keeps_foldl_fst | assumption | exact id | rfl | intro _ | apply keeps_ite) | split | (with_reducible apply Keeps.upd)))

theorem keeps_ringResetDone (s : State) (d : Die) (n : Nat) (hk : Keeps q0 s) :
    Keeps q0 (ringResetDone s d n) := by
  unfold ringResetDone
  try dsimp only
  iterate 48 (all_goals (try first | (with_reducible first | exact hk | apply keeps_completeOp | apply keeps_foldl | apply keeps_modCmdRing | apply keeps_modCq | apply keeps_postInst | apply keeps_postMgmt | apply keeps_ringClear | apply keeps_setRingSt | apply keeps_foldl_fst | assumption | exact id | rfl | intro _ | apply keeps_ite) | split | (with_reducible apply Keeps.upd)))

theorem keeps_cqRestart (s : State) (d : Die) (m : Nat) (hk : Keeps q0 s) :
    Keeps q0 (cqRestart s d m) := by
  unfold cqRestart
  try dsimp only
  iterate 48 (all_goals (try first | (with_reducible first | exact hk | apply keeps_modCq | assumption | exact id | rfl | intro _ | apply keeps_ite) | split | (with_reducible apply Keeps.upd)))

theorem keeps_ringRestart (s : State) (d : Die) (n : Nat) (hk : Keeps q0 s) :
    Keeps q0 (ringRestart s d n) := by
  unfold ringRestart
  try dsimp only
  iterate 48 (all_goals (try first | (with_reducible first | exact hk | apply keeps_completeOp | apply keeps_foldl | apply keeps_modCmdRing | apply keeps_ringClear | apply keeps_foldl_fst | assumption | exact id | rfl | intro _ | apply keeps_ite) | split | (with_reducible apply Keeps.upd)))

theorem keeps_mgmtReturn (s : State) (hk : Keeps q0 s) :
    Keeps q0 (mgmtReturn s) := by
  unfold mgmtReturn
  try dsimp only
  iterate 48 (all_goals (try first | (with_reducible first | exact hk | apply keeps_cqRestart | apply keeps_modFn | apply keeps_ringRestart | assumption | exact id | rfl | intro _ | apply keeps_ite) | split | (with_reducible apply Keeps.upd)))

theorem keeps_execRingResetDone (d : Die) (n : Nat) (s : State) (hk : Keeps q0 s) :
    KeepsOut q0 (execRingResetDone d n s) := by
  unfold execRingResetDone
  try dsimp only
  iterate 48 (all_goals (try first | (with_reducible first | exact hk | apply keeps_mgmtReturn | apply keeps_ringResetDone | apply keepsOut_next | apply keepsOut_ite | assumption | exact id | rfl | intro _ | apply keeps_ite | apply keepsOut_next | apply keepsOut_ite) | split | (with_reducible apply Keeps.upd)))

theorem keeps_execRingResetSlotTimeout (d : Die) (n : Nat) (s : State) (hk : Keeps q0 s) :
    KeepsOut q0 (execRingResetSlotTimeout d n s) := by
  unfold execRingResetSlotTimeout
  try dsimp only
  iterate 48 (all_goals (try first | (with_reducible first | exact hk | apply keeps_failOp | apply keeps_foldl | apply keeps_modCmdRing | apply keeps_foldl_fst | apply keepsOut_next | apply keepsOut_ite | assumption | exact id | rfl | intro _ | apply keeps_ite | apply keepsOut_next | apply keepsOut_ite) | split | (with_reducible apply Keeps.upd)))

theorem keeps_execShadowTimer (d : Die) (n : Nat) (s : State) (hk : Keeps q0 s) :
    KeepsOut q0 (execShadowTimer d n s) := by
  unfold execShadowTimer
  try dsimp only
  iterate 48 (all_goals (try first | (with_reducible first | exact hk | apply keeps_shadowWrite | apply keepsOut_next | apply keepsOut_ite | assumption | exact id | rfl | intro _ | apply keeps_ite | apply keepsOut_next | apply keepsOut_ite) | split | (with_reducible apply Keeps.upd)))

theorem keeps_execRingAgeExpiry (d : Die) (n : Nat) (s : State) (hk : Keeps q0 s) :
    KeepsOut q0 (execRingAgeExpiry d n s) := by
  unfold execRingAgeExpiry
  try dsimp only
  iterate 48 (all_goals (try first | (with_reducible first | exact hk | apply keeps_onRings | apply keepsOut_next | apply keepsOut_ite | assumption | exact id | rfl | intro _ | apply keeps_ite | apply keepsOut_next | apply keepsOut_ite) | split | (with_reducible apply Keeps.upd)))

theorem keeps_cqHeadWrite (s : State) (d : Die) (m : Nat) (v : BitVec 32) (hk : Keeps q0 s) :
    Keeps q0 (cqHeadWrite s d m v) := by
  unfold cqHeadWrite
  try dsimp only
  iterate 48 (all_goals (try first | (with_reducible first | exact hk | apply keeps_modCq | apply keeps_postInst | apply keeps_postMgmt | apply keeps_raiseSource | assumption | exact id | rfl | intro _ | apply keeps_ite) | split | (with_reducible apply Keeps.upd)))

theorem keeps_execCqHeadWrite (who : Requester) (idx : Nat) (v : BitVec 32) (s : State) (hk : Keeps q0 s) :
    KeepsOut q0 (execCqHeadWrite who idx v s) := by
  unfold execCqHeadWrite
  try dsimp only
  iterate 48 (all_goals (try first | (with_reducible first | exact hk | apply keeps_cqHeadWrite | apply keepsOut_next | apply keepsOut_ite | assumption | exact id | rfl | intro _ | apply keeps_ite | apply keepsOut_next | apply keepsOut_ite) | split | (with_reducible apply Keeps.upd)))

theorem keeps_instHeadWrite (s : State) (i : Nat) (v : BitVec 32) (hk : Keeps q0 s) :
    Keeps q0 (instHeadWrite s i v) := by
  unfold instHeadWrite
  try dsimp only
  iterate 48 (all_goals (try first | (with_reducible first | exact hk | apply keeps_modInst | apply keeps_raiseSource | assumption | exact id | rfl | intro _ | apply keeps_ite) | split | (with_reducible apply Keeps.upd)))

theorem keeps_execEventHeadWrite (i : Nat) (v : BitVec 32) (s : State) (hk : Keeps q0 s) :
    KeepsOut q0 (execEventHeadWrite i v s) := by
  unfold execEventHeadWrite
  try dsimp only
  iterate 48 (all_goals (try first | (with_reducible first | exact hk | apply keeps_instHeadWrite | apply keepsOut_next | apply keepsOut_ite | assumption | exact id | rfl | intro _ | apply keeps_ite | apply keepsOut_next | apply keepsOut_ite) | split | (with_reducible apply Keeps.upd)))

theorem keeps_mgtHeadWrite (s : State) (d : Die) (v : BitVec 32) (hk : Keeps q0 s) :
    Keeps q0 (mgtHeadWrite s d v) := by
  unfold mgtHeadWrite
  try dsimp only
  iterate 48 (all_goals (try first | (with_reducible first | exact hk | apply keeps_onDie | apply keeps_raiseSource | assumption | exact id | rfl | intro _ | apply keeps_ite) | split | (with_reducible apply Keeps.upd)))

theorem keeps_execMgtEvtHeadWrite (d : Die) (v : BitVec 32) (s : State) (hk : Keeps q0 s) :
    KeepsOut q0 (execMgtEvtHeadWrite d v s) := by
  unfold execMgtEvtHeadWrite
  try dsimp only
  iterate 48 (all_goals (try first | (with_reducible first | exact hk | apply keeps_mgtHeadWrite | apply keepsOut_next | apply keepsOut_ite | assumption | exact id | rfl | intro _ | apply keeps_ite | apply keepsOut_next | apply keepsOut_ite) | split | (with_reducible apply Keeps.upd)))

theorem keeps_mgtEvtStart (s : State) (d : Die) (hk : Keeps q0 s) :
    Keeps q0 (mgtEvtStart s d) := by
  unfold mgtEvtStart
  try dsimp only
  iterate 48 (all_goals (try first | (with_reducible first | exact hk | apply keeps_onDie | apply keeps_setReg | assumption | exact id | rfl | intro _ | apply keeps_ite) | split | (with_reducible apply Keeps.upd)))

theorem keeps_execMgtEvtEnable (d : Die) (s : State) (hk : Keeps q0 s) :
    KeepsOut q0 (execMgtEvtEnable d s) := by
  unfold execMgtEvtEnable
  try dsimp only
  iterate 48 (all_goals (try first | (with_reducible first | exact hk | apply keeps_mgtEvtStart | apply keepsOut_next | apply keepsOut_ite | assumption | exact id | rfl | intro _ | apply keeps_ite | apply keepsOut_next | apply keepsOut_ite) | split | (with_reducible apply Keeps.upd)))

theorem keeps_injPush (s : State) (d : Die) (port tc who : Nat) (p : Pkt) (hk : Keeps q0 s) :
    Keeps q0 (injPush s d port tc who p) := by
  unfold injPush
  try dsimp only
  iterate 48 (all_goals (try first | (with_reducible first | exact hk | apply keeps_onSch | assumption | exact id | rfl | intro _ | apply keeps_ite) | split | (with_reducible apply Keeps.upd)))

theorem keeps_transmit (s : State) (d : Die) (c : Nat) (p : TxPkt) (retx : Bool) (hk : Keeps q0 s) :
    Keeps q0 (transmit s d c p retx) := by
  unfold transmit
  try dsimp only
  iterate 48 (all_goals (try first | (with_reducible first | exact hk | apply keeps_injPush | assumption | exact id | rfl | intro _ | apply keeps_ite) | split | (with_reducible apply Keeps.upd)))

theorem keeps_pump (k : Nat) (s : State) (a0 : Die) (a1 : Nat) (hk : Keeps q0 s) : Keeps q0 (pump k s a0 a1) := by
  induction k generalizing s a0 a1 with
  | zero => exact hk
  | succ k ih =>
    unfold pump
    try dsimp only
    iterate 48 (all_goals (try first | (with_reducible first | exact hk | apply ih | apply keeps_transmit | apply keeps_modConn | apply keeps_foldl | apply keeps_foldl_fst | assumption | exact id | rfl | intro _ | apply keeps_ite) | split | (with_reducible apply Keeps.upd)))

theorem keeps_pumpConn (s : State) (d : Die) (c : Nat) (hk : Keeps q0 s) :
    Keeps q0 (pumpConn s d c) := by
  unfold pumpConn
  try dsimp only
  iterate 48 (all_goals (try first | (with_reducible first | exact hk | apply keeps_pump | assumption | exact id | rfl | intro _ | apply keeps_ite) | split | (with_reducible apply Keeps.upd)))

theorem keeps_stageFrom (s : State) (d : Die) (c o : Nat) (start : BitVec 32) (ps : List Piece) (hk : Keeps q0 s) :
    Keeps q0 (stageFrom s d c o start ps) := by
  unfold stageFrom
  try dsimp only
  iterate 48 (all_goals (try first | (with_reducible first | exact hk | apply keeps_modConn | apply keeps_modOp | apply keeps_pumpConn | assumption | exact id | rfl | intro _ | apply keeps_ite) | split | (with_reducible apply Keeps.upd)))

theorem keeps_stagePieces (s : State) (d : Die) (c o : Nat) (ps : List Piece) (hk : Keeps q0 s) :
    Keeps q0 (stagePieces s d c o ps) := by
  unfold stagePieces
  try dsimp only
  iterate 48 (all_goals (try first | (with_reducible first | exact hk | apply keeps_stageFrom | apply keeps_modConn | apply keeps_modOp | apply keeps_pumpConn | assumption | exact id | rfl | intro _ | apply keeps_ite) | split | (with_reducible apply Keeps.upd)))

theorem keeps_stageSide (s : State) (d : Die) (c o : Nat) (ps : List Piece) (hk : Keeps q0 s) :
    Keeps q0 (stageSide s d c o ps) := by
  unfold stageSide
  try dsimp only
  iterate 48 (all_goals (try first | (with_reducible first | exact hk | apply keeps_modConn | apply keeps_stagePieces | assumption | exact id | rfl | intro _ | apply keeps_ite) | split | (with_reducible apply Keeps.upd)))

theorem keeps_flushSides (k : Nat) (s : State) (a0 : Die) (a1 : Nat) (hk : Keeps q0 s) : Keeps q0 (flushSides k s a0 a1) := by
  induction k generalizing s a0 a1 with
  | zero => exact hk
  | succ k ih =>
    unfold flushSides
    try dsimp only
    iterate 48 (all_goals (try first | (with_reducible first | exact hk | apply ih | apply keeps_stagePieces | apply keeps_modConn | assumption | exact id | intro _ | apply keeps_ite) | split | (with_reducible apply Keeps.upd)))

theorem keeps_sendCtl (s : State) (d : Die) (k : Conn) (flits : Nat) (b : Body) (hk : Keeps q0 s) :
    Keeps q0 (sendCtl s d k flits b) := by
  unfold sendCtl
  try dsimp only
  iterate 48 (all_goals (try first | (with_reducible first | exact hk | apply keeps_emit | assumption | exact id | rfl | intro _ | apply keeps_ite) | split | (with_reducible apply Keeps.upd)))

theorem keeps_sendConnCtl (s : State) (d : Die) (c : Nat) (kind : CtlKind) (hk : Keeps q0 s) :
    Keeps q0 (sendConnCtl s d c kind) := by
  unfold sendConnCtl
  try dsimp only
  iterate 48 (all_goals (try first | (with_reducible first | exact hk | apply keeps_sendCtl | assumption | exact id | rfl | intro _ | apply keeps_ite) | split | (with_reducible apply Keeps.upd)))

theorem keeps_deliverOps (s : State) (d : Die) (c : Nat) (hk : Keeps q0 s) :
    Keeps q0 (deliverOps s d c) := by
  unfold deliverOps
  try dsimp only
  iterate 48 (all_goals (try first | (with_reducible first | exact hk | apply keeps_completeOp | apply keeps_foldl | apply keeps_foldl_fst | assumption | exact id | rfl | intro _ | apply keeps_ite) | split | (with_reducible apply Keeps.upd)))

theorem keeps_failAfter (s : State) (o : Nat) (code sub fi bytes : Nat) (hk : Keeps q0 s) :
    Keeps q0 (failAfter s o code sub fi bytes) := by
  unfold failAfter
  try dsimp only
  iterate 48 (all_goals (try first | (with_reducible first | exact hk | apply keeps_completeOp | apply keeps_deliverOps | apply keeps_freeThread | apply keeps_modConn | apply keeps_modOp | assumption | exact id | rfl | intro _ | apply keeps_ite) | split | (with_reducible apply Keeps.upd)))

theorem keeps_ackBytes (s : State) (d : Die) (c : Nat) (hk : Keeps q0 s) :
    Keeps q0 (ackBytes s d c) := by
  unfold ackBytes
  try dsimp only
  iterate 48 (all_goals (try first | (with_reducible first | exact hk | apply keeps_foldl | apply keeps_modOp | apply keeps_foldl_fst | assumption | exact id | rfl | intro _ | apply keeps_ite) | split | (with_reducible apply Keeps.upd)))

theorem keeps_failRecvs (s : State) (d : Die) (c code sub : Nat) (hk : Keeps q0 s) :
    Keeps q0 (failRecvs s d c code sub) := by
  unfold failRecvs
  try dsimp only
  iterate 48 (all_goals (try first | (with_reducible first | exact hk | apply keeps_completeOp | apply keeps_foldl | apply keeps_getD | apply keeps_foldl_fst | assumption | exact id | rfl | intro _ | apply keeps_ite) | split | (with_reducible apply Keeps.upd)))

theorem keeps_dropUnexp (s : State) (d : Die) (c : Nat) (hk : Keeps q0 s) :
    Keeps q0 (dropUnexp s d c) := by
  unfold dropUnexp
  try dsimp only
  iterate 48 (all_goals (try first | (with_reducible first | exact hk | apply keeps_onCat | assumption | exact id | rfl | intro _ | apply keeps_ite) | split | (with_reducible apply Keeps.upd)))

theorem keeps_failConn (s : State) (d : Die) (c code sub : Nat) (teardown : Bool) (hk : Keeps q0 s) :
    Keeps q0 (failConn s d c code sub teardown) := by
  unfold failConn
  try dsimp only
  iterate 48 (all_goals (try first | (with_reducible first | exact hk | apply keeps_completeOp | apply keeps_dropUnexp | apply keeps_failRecvs | apply keeps_foldl | apply keeps_modConn | apply keeps_postInst | apply keeps_postMgmt | apply keeps_sendConnCtl | apply keeps_foldl_fst | assumption | exact id | rfl | intro _ | apply keeps_ite) | split | (with_reducible apply Keeps.upd)))

theorem keeps_eraseConn (s : State) (d : Die) (c : Nat) (hk : Keeps q0 s) :
    Keeps q0 (eraseConn s d c) := by
  unfold eraseConn
  try dsimp only
  iterate 48 (all_goals (try first | (with_reducible first | exact hk | apply keeps_modConn | assumption | exact id | rfl | intro _ | apply keeps_ite) | split | (with_reducible apply Keeps.upd)))

theorem keeps_grantConn (s : State) (d : Die) (c : Nat) (k : Conn) (hk : Keeps q0 s) :
    Keeps q0 (grantConn s d c k) := by
  unfold grantConn
  try dsimp only
  iterate 48 (all_goals (try first | (with_reducible first | exact hk | apply keeps_modConn | apply keeps_sendConnCtl | apply keeps_takeFree | refine keeps_takeFree_eq (by assumption) ?_ | assumption | exact id | rfl | intro _ | apply keeps_ite) | split | (with_reducible apply Keeps.upd)))

theorem keeps_revokeConn (s : State) (d : Die) (c : Nat) (hk : Keeps q0 s) :
    Keeps q0 (revokeConn s d c) := by
  unfold revokeConn
  try dsimp only
  iterate 48 (all_goals (try first | (with_reducible first | exact hk | apply keeps_eraseConn | apply keeps_modConn | assumption | exact id | rfl | intro _ | apply keeps_ite) | split | (with_reducible apply Keeps.upd)))

theorem keeps_cacheConn (s : State) (d : Die) (c : Nat) (hk : Keeps q0 s) :
    KeepsOpt q0 (cacheConn s d c) := by
  unfold cacheConn
  try dsimp only
  iterate 48 (all_goals (try first | (with_reducible first | exact hk | apply keeps_modConn | apply keeps_pmc | apply keepsOpt_some | apply keepsOpt_ite | assumption | exact id | rfl | intro _ | apply keeps_ite | apply keepsOpt_some | exact keepsOpt_none | apply keepsOpt_ite) | split | (with_reducible apply Keeps.upd)))
theorem keeps_cacheConn_eq {s : State}  {d : Die}  {c : Nat} {t : State} (he : cacheConn s d c = some t) (hk : Keeps q0 s) : Keeps q0 t := by
  have := keeps_cacheConn s d c hk; rw [he] at this; exact this

theorem keeps_connUp (s : State) (d : Die) (c : Nat) (hk : Keeps q0 s) :
    Keeps q0 (connUp s d c) := by
  unfold connUp
  try dsimp only
  iterate 48 (all_goals (try first | (with_reducible first | exact hk | apply keeps_modConn | apply keeps_postInst | apply keeps_postMgmt | assumption | exact id | rfl | intro _ | apply keeps_ite) | split | (with_reducible apply Keeps.upd)))

theorem keeps_connectArrive (s : State) (d : Die) (p : CtlPkt) (hk : Keeps q0 s) :
    Keeps q0 (connectArrive s d p) := by
  unfold connectArrive
  try dsimp only
  iterate 48 (all_goals (try first | (with_reducible first | exact hk | apply keeps_connUp | apply keeps_modConn | apply keeps_postMgmt | apply keeps_sendConnCtl | assumption | exact id | rfl | intro _ | apply keeps_ite) | split | (with_reducible apply Keeps.upd)))

theorem keeps_execConnectReceive (d : Die) (p : Pkt) (s : State) (hk : Keeps q0 s) :
    KeepsOut q0 (execConnectReceive d p s) := by
  unfold execConnectReceive
  try dsimp only
  iterate 48 (all_goals (try first | (with_reducible first | exact hk | apply keeps_connectArrive | apply keepsOut_next | apply keepsOut_ite | assumption | exact id | rfl | intro _ | apply keeps_ite | apply keepsOut_next | apply keepsOut_ite) | split | (with_reducible apply Keeps.upd)))

theorem keeps_execConnectResend (d : Die) (c : Nat) (s : State) (hk : Keeps q0 s) :
    KeepsOut q0 (execConnectResend d c s) := by
  unfold execConnectResend
  try dsimp only
  iterate 48 (all_goals (try first | (with_reducible first | exact hk | apply keeps_modConn | apply keeps_sendConnCtl | apply keepsOut_next | apply keepsOut_ite | assumption | exact id | rfl | intro _ | apply keeps_ite | apply keepsOut_next | apply keepsOut_ite) | split | (with_reducible apply Keeps.upd)))

theorem keeps_execTeardownReceive (d : Die) (p : Pkt) (s : State) (hk : Keeps q0 s) :
    KeepsOut q0 (execTeardownReceive d p s) := by
  unfold execTeardownReceive
  try dsimp only
  iterate 48 (all_goals (try first | (with_reducible first | exact hk | apply keeps_failConn | apply keepsOut_next | apply keepsOut_ite | assumption | exact id | rfl | intro _ | apply keeps_ite | apply keepsOut_next | apply keepsOut_ite) | split | (with_reducible apply Keeps.upd)))

theorem keeps_execConnDrainDone (d : Die) (c : Nat) (s : State) (hk : Keeps q0 s) :
    KeepsOut q0 (execConnDrainDone d c s) := by
  unfold execConnDrainDone
  try dsimp only
  iterate 48 (all_goals (try first | (with_reducible first | exact hk | apply keeps_dropUnexp | apply keeps_eraseConn | apply keeps_sendConnCtl | apply keepsOut_next | apply keepsOut_ite | assumption | exact id | rfl | intro _ | apply keeps_ite | apply keepsOut_next | apply keepsOut_ite) | split | (with_reducible apply Keeps.upd)))

theorem keeps_execPacedSend (d : Die) (c : Nat) (s : State) (hk : Keeps q0 s) :
    KeepsOut q0 (execPacedSend d c s) := by
  unfold execPacedSend
  try dsimp only
  iterate 48 (all_goals (try first | (with_reducible first | exact hk | apply keeps_modConn | apply keeps_transmit | apply keepsOut_next | apply keepsOut_ite | assumption | exact id | rfl | intro _ | apply keeps_ite | apply keepsOut_next | apply keepsOut_ite) | split | (with_reducible apply Keeps.upd)))

theorem keeps_execProgressTimeout (d : Die) (c : Nat) (s : State) (hk : Keeps q0 s) :
    KeepsOut q0 (execProgressTimeout d c s) := by
  unfold execProgressTimeout
  try dsimp only
  iterate 48 (all_goals (try first | (with_reducible first | exact hk | apply keeps_failConn | apply keepsOut_next | apply keepsOut_ite | assumption | exact id | rfl | intro _ | apply keeps_ite | apply keepsOut_next | apply keepsOut_ite) | split | (with_reducible apply Keeps.upd)))

theorem keeps_flushMatched (k : Nat) (s : State) (a0 : Die) (a1 : Nat) (a2 : Nat) (hk : Keeps q0 s) : Keeps q0 (flushMatched k s a0 a1 a2) := by
  induction k generalizing s a0 a1 a2 with
  | zero => exact hk
  | succ k ih =>
    unfold flushMatched
    try dsimp only
    iterate 48 (all_goals (try first | (with_reducible first | exact hk | apply ih | apply keeps_modCtx | apply keeps_completeOp | apply keeps_foldl | apply keeps_foldl_fst | assumption | exact id | rfl | intro _ | apply keeps_ite) | split | (with_reducible apply Keeps.upd)))

theorem keeps_flushCtx (s : State) (d : Die) (i c : Nat) (hk : Keeps q0 s) :
    Keeps q0 (flushCtx s d i c) := by
  unfold flushCtx
  try dsimp only
  iterate 48 (all_goals (try first | (with_reducible first | exact hk | apply keeps_flushMatched | assumption | exact id | rfl | intro _ | apply keeps_ite) | split | (with_reducible apply Keeps.upd)))

theorem keeps_recvReady (s : State) (o code sub bytes : Nat) (hk : Keeps q0 s) :
    Keeps q0 (recvReady s o code sub bytes) := by
  unfold recvReady
  try dsimp only
  iterate 48 (all_goals (try first | (with_reducible first | exact hk | apply keeps_flushCtx | apply keeps_getD | apply keeps_modCtx | assumption | exact id | rfl | intro _ | apply keeps_ite) | split | (with_reducible apply Keeps.upd)))

theorem keeps_placeBytes (s : State) (own : WalkFor) (extra : List TlbEnt) (o off : Nat) (data : List Byte) (hk : Keeps q0 s) :
    KeepsApp q0 (placeBytes s own extra o off data) := by
  unfold placeBytes
  try dsimp only
  iterate 48 (all_goals (try first | (with_reducible first | exact hk | apply keeps_getD | apply keeps_modOp | apply keeps_recvReady | apply keeps_writePieces | apply keepsApp_done | apply keepsApp_refuse | assumption | exact id | rfl | intro _ | apply keeps_ite | apply keepsApp_done | apply keepsApp_refuse | exact keepsApp_notReady | exact keepsApp_walk | apply keepsApp_ite) | split | (with_reducible apply Keeps.upd)))

theorem keeps_takeRecv (s : State) (d : Die) (i c : Nat) (o cn len tag : Nat) (handle : Option Nat) (station : Nat) (hk : Keeps q0 s) :
    Keeps q0 (takeRecv s d i c o cn len tag handle station) := by
  unfold takeRecv
  try dsimp only
  iterate 48 (all_goals (try first | (with_reducible first | exact hk | apply keeps_modCtx | apply keeps_modOp | apply keeps_pmc | assumption | exact id | rfl | intro _ | apply keeps_ite) | split | (with_reducible apply Keeps.upd)))

theorem keeps_sendFinish (s : State) (d : Die) (c o handle bytes code sub : Nat) (hk : Keeps q0 s) :
    Keeps q0 (sendFinish s d c o handle bytes code sub) := by
  unfold sendFinish
  try dsimp only
  iterate 48 (all_goals (try first | (with_reducible first | exact hk | apply keeps_stageSide | apply keeps_stagePieces | assumption | exact id | rfl | intro _ | apply keeps_ite) | split | (with_reducible apply Keeps.upd)))

theorem keeps_startPull (s : State) (d : Die) (cn o handle len : Nat) (hk : Keeps q0 s) :
    Keeps q0 (startPull s d cn o handle len) := by
  unfold startPull
  try dsimp only
  iterate 48 (all_goals (try first | (with_reducible first | exact hk | apply keeps_modOp | apply keeps_recvReady | apply keeps_sendFinish | apply keeps_stageSide | apply keeps_stagePieces | assumption | exact id | rfl | intro _ | apply keeps_ite) | split | (with_reducible apply Keeps.upd)))

theorem keeps_pullData (s : State) (d : Die) (r : RespPkt) (hk : Keeps q0 s) :
    KeepsApp q0 (pullData s d r) := by
  unfold pullData
  try dsimp only
  iterate 48 (all_goals (try first | (with_reducible first | exact hk | refine keepsApp_eq_done (by assumption) ?_ | refine keepsApp_eq_refuse (by assumption) ?_ | apply keeps_getD | apply keeps_modOp | apply keeps_recvReady | apply keeps_sendFinish | apply keeps_writePieces | apply keepsApp_done | apply keepsApp_refuse | apply keepsApp_ite | assumption | exact id | rfl | intro _ | apply keeps_ite | apply keepsApp_done | apply keepsApp_refuse | exact keepsApp_notReady | exact keepsApp_walk | apply keepsApp_ite) | split | (with_reducible apply Keeps.upd)))

theorem keeps_trainPred (s : State) (d : Die) (i c cn tag : Nat) (proposal confirmed : Option Nat) (hk : Keeps q0 s) :
    Keeps q0 (trainPred s d i c cn tag proposal confirmed) := by
  unfold trainPred
  try dsimp only
  iterate 48 (all_goals (try first | (with_reducible first | exact hk | apply keeps_onCat | assumption | exact id | rfl | intro _ | apply keeps_ite) | split | (with_reducible apply Keeps.upd)))

theorem keeps_speculate (s : State) (d : Die) (i c cn tag o len : Nat) (data : List Byte) (hk : Keeps q0 s) :
    Keeps q0 (speculate s d i c cn tag o len data).1 := by
  unfold speculate
  try dsimp only
  iterate 48 (all_goals (try first | (with_reducible first | exact hk | apply keeps_writePieces | assumption | exact id | rfl | intro _ | apply keeps_ite) | split | (with_reducible apply Keeps.upd)))

theorem keeps_speculateMore (s : State) (d : Die) (c : Nat) (psn : BitVec 32) (data : List Byte) (hk : Keeps q0 s) :
    Keeps q0 (speculateMore s d c psn data).1 := by
  unfold speculateMore
  try dsimp only
  iterate 48 (all_goals (try first | (with_reducible first | exact hk | apply keeps_modConn | apply keeps_writePieces | assumption | exact id | rfl | intro _ | apply keeps_ite) | split | (with_reducible apply Keeps.upd)))
theorem keeps_speculateMore_eq {s : State}  {d : Die}  {c : Nat}  {psn : BitVec 32}  {data : List Byte} {t0 : State} {b0 : Nat} (he : speculateMore s d c psn data = (t0, b0)) (hk : Keeps q0 s) : Keeps q0 t0 := by
  have := keeps_speculateMore s d c psn data hk; rw [he] at this; exact this

theorem keeps_confirmSpec (s : State) (d : Die) (i c cn tag : Nat) (prop : Option Nat) (spec : SpecSt) (got : Option Nat) (hk : Keeps q0 s) :
    Keeps q0 (confirmSpec s d i c cn tag prop spec got) := by
  unfold confirmSpec
  try dsimp only
  iterate 48 (all_goals (try first | (with_reducible first | exact hk | apply keeps_bumpReg | apply keeps_pmc | apply keeps_trainPred | assumption | exact id | rfl | intro _ | apply keeps_ite) | split | (with_reducible apply Keeps.upd)))

theorem keeps_specFlush (s : State) (d : Die) (hk : Keeps q0 s) :
    Keeps q0 (specFlush s d) := by
  unfold specFlush
  try dsimp only
  iterate 48 (all_goals (try first | (with_reducible first | exact hk | apply keeps_onCat | assumption | exact id | rfl | intro _ | apply keeps_ite) | split | (with_reducible apply Keeps.upd)))

theorem keeps_execCatSpecFlush (d : Die) (s : State) (hk : Keeps q0 s) :
    KeepsOut q0 (execCatSpecFlush d s) := by
  unfold execCatSpecFlush
  try dsimp only
  iterate 48 (all_goals (try first | (with_reducible first | exact hk | apply keeps_specFlush | apply keepsOut_next | assumption | exact id | rfl | intro _ | apply keeps_ite | apply keepsOut_next | apply keepsOut_ite) | split | (with_reducible apply Keeps.upd)))

theorem keeps_applyMsg (s : State) (d : Die) (cn ctx tag len : Nat) (data : List Byte) (poison last : Bool) (prop : Option Nat) (spec : SpecSt)
    (psn : BitVec 32) (hk : Keeps q0 s) :
    KeepsApp q0 (applyMsg s d cn ctx tag len data poison last prop spec psn) := by
  unfold applyMsg
  try dsimp only
  iterate 48 (all_goals (try first | (with_reducible first | exact hk | refine keepsApp_eq_done (by assumption) ?_ | refine keepsApp_eq_refuse (by assumption) ?_ | apply keeps_confirmSpec | apply keeps_modConn | apply keeps_modCtx | apply keeps_onCat | apply keeps_placeBytes | apply keeps_pmc | apply keeps_recvReady | apply keeps_takeRecv | apply keepsApp_done | apply keepsApp_refuse | apply keepsApp_ite | assumption | exact id | rfl | intro _ | apply keeps_ite | apply keepsApp_done | apply keepsApp_refuse | exact keepsApp_notReady | exact keepsApp_walk | apply keepsApp_ite) | split | (with_reducible apply Keeps.upd)))

theorem keeps_applyMore (s : State) (d : Die) (cn : Nat) (data : List Byte) (poison last : Bool) (hk : Keeps q0 s) :
    KeepsApp q0 (applyMore s d cn data poison last) := by
  unfold applyMore
  try dsimp only
  iterate 48 (all_goals (try first | (with_reducible first | exact hk | refine keepsApp_eq_done (by assumption) ?_ | refine keepsApp_eq_refuse (by assumption) ?_ | apply keeps_modConn | apply keeps_modCtx | apply keeps_placeBytes | apply keeps_recvReady | apply keepsApp_done | apply keepsApp_refuse | apply keepsApp_ite | assumption | exact id | rfl | intro _ | apply keeps_ite | apply keepsApp_done | apply keepsApp_refuse | exact keepsApp_notReady | exact keepsApp_walk | apply keepsApp_ite) | split | (with_reducible apply Keeps.upd)))

theorem keeps_applyRts (s : State) (d : Die) (cn ctx tag len handle : Nat) (psn : BitVec 32) (hk : Keeps q0 s) :
    KeepsApp q0 (applyRts s d cn ctx tag len handle psn) := by
  unfold applyRts
  try dsimp only
  iterate 48 (all_goals (try first | (with_reducible first | exact hk | refine keepsApp_eq_done (by assumption) ?_ | refine keepsApp_eq_refuse (by assumption) ?_ | apply keeps_modCtx | apply keeps_onCat | apply keeps_pmc | apply keeps_startPull | apply keeps_takeRecv | apply keepsApp_done | apply keepsApp_refuse | apply keepsApp_ite | assumption | exact id | rfl | intro _ | apply keeps_ite | apply keepsApp_done | apply keepsApp_refuse | exact keepsApp_notReady | exact keepsApp_walk | apply keepsApp_ite) | split | (with_reducible apply Keeps.upd)))

theorem keeps_placeStash (s : State) (o len : Nat) (complete : Bool) (hk : Keeps q0 s) :
    Keeps q0 (placeStash s o len complete) := by
  unfold placeStash
  try dsimp only
  iterate 48 (all_goals (try first | (with_reducible first | exact hk | refine keepsApp_eq_done (by assumption) ?_ | refine keepsApp_eq_refuse (by assumption) ?_ | apply keeps_modOp | apply keeps_placeBytes | apply keeps_recvReady | apply keeps_startWalk | assumption | exact id | rfl | intro _ | apply keeps_ite) | split | (with_reducible apply Keeps.upd)))

theorem keeps_takeUnexp (s : State) (d : Die) (i ctx o : Nat) (u : Unexp) (hk : Keeps q0 s) :
    Keeps q0 (takeUnexp s d i ctx o u) := by
  unfold takeUnexp
  try dsimp only
  iterate 48 (all_goals (try first | (with_reducible first | exact hk | apply keeps_modConn | apply keeps_modCtx | apply keeps_modOp | apply keeps_placeStash | apply keeps_pmc | apply keeps_recvReady | apply keeps_startPull | apply keeps_takeRecv | assumption | exact id | rfl | intro _ | apply keeps_ite) | split | (with_reducible apply Keeps.upd)))

theorem keeps_postRecv (s : State) (o : Nat) (hk : Keeps q0 s) :
    Keeps q0 (postRecv s o) := by
  unfold postRecv
  try dsimp only
  iterate 48 (all_goals (try first | (with_reducible first | exact hk | apply keeps_getD | apply keeps_modCtx | apply keeps_modOp | apply keeps_takeUnexp | assumption | exact id | rfl | intro _ | apply keeps_ite) | split | (with_reducible apply Keeps.upd)))

theorem keeps_refuseRts (s : State) (d : Die) (u : Unexp) (hk : Keeps q0 s) :
    Keeps q0 (refuseRts s d u) := by
  unfold refuseRts
  try dsimp only
  iterate 48 (all_goals (try first | (with_reducible first | exact hk | apply keeps_sendCtl | assumption | exact id | rfl | intro _ | apply keeps_ite) | split | (with_reducible apply Keeps.upd)))

theorem keeps_closeCtx (s : State) (d : Die) (i c : Nat) (hk : Keeps q0 s) :
    Keeps q0 (closeCtx s d i c) := by
  unfold closeCtx
  try dsimp only
  iterate 48 (all_goals (try first | (with_reducible first | exact hk | apply keeps_completeOp | apply keeps_foldl | apply keeps_modConn | apply keeps_modCtx | apply keeps_postInst | apply keeps_refuseRts | apply keeps_foldl_fst | assumption | exact id | rfl | intro _ | apply keeps_ite) | split | (with_reducible apply Keeps.upd)))

theorem keeps_closeInstCtxs (s : State) (d : Die) (i : Nat) (hk : Keeps q0 s) :
    Keeps q0 (closeInstCtxs s d i) := by
  unfold closeInstCtxs
  try dsimp only
  iterate 48 (all_goals (try first | (with_reducible first | exact hk | apply keeps_closeCtx | apply keeps_foldl | apply keeps_foldl_fst | assumption | exact id | rfl | intro _ | apply keeps_ite) | split | (with_reducible apply Keeps.upd)))

theorem keeps_execCtxDrainDone (o : Nat) (s : State) (hk : Keeps q0 s) :
    KeepsOut q0 (execCtxDrainDone o s) := by
  unfold execCtxDrainDone
  try dsimp only
  iterate 48 (all_goals (try first | (with_reducible first | exact hk | apply keeps_completeOp | apply keeps_getD | apply keepsOut_next | apply keepsOut_ite | assumption | exact id | rfl | intro _ | apply keeps_ite | apply keepsOut_next | apply keepsOut_ite) | split | (with_reducible apply Keeps.upd)))

theorem keeps_sendAckWith (s : State) (d : Die) (c : Nat) (f : AckPkt → AckPkt) (hk : Keeps q0 s) :
    Keeps q0 (sendAckWith s d c f) := by
  unfold sendAckWith
  try dsimp only
  iterate 48 (all_goals (try first | (with_reducible first | exact hk | apply keeps_modConn | apply keeps_sendCtl | assumption | exact id | rfl | intro _ | apply keeps_ite) | split | (with_reducible apply Keeps.upd)))

theorem keeps_sendAck (s : State) (d : Die) (c : Nat) (hk : Keeps q0 s) :
    Keeps q0 (sendAck s d c) := by
  unfold sendAck
  try dsimp only
  iterate 48 (all_goals (try first | (with_reducible first | exact hk | apply keeps_sendAckWith | assumption | exact id | rfl | intro _ | apply keeps_ite) | split | (with_reducible apply Keeps.upd)))

theorem keeps_sendNak (s : State) (d : Die) (c : Nat) (psn : BitVec 32) (n : NakKind) (hk : Keeps q0 s) :
    Keeps q0 (sendNak s d c psn n) := by
  unfold sendNak
  try dsimp only
  iterate 48 (all_goals (try first | (with_reducible first | exact hk | apply keeps_sendAckWith | assumption | exact id | rfl | intro _ | apply keeps_ite) | split | (with_reducible apply Keeps.upd)))

theorem keeps_bounce (s : State) (d : Die) (p : Pkt) (r : ReqPkt) (n : NakKind) (hk : Keeps q0 s) :
    Keeps q0 (bounce s d p r n) := by
  unfold bounce
  try dsimp only
  iterate 48 (all_goals (try first | (with_reducible first | exact hk | apply keeps_emit | assumption | exact id | rfl | intro _ | apply keeps_ite) | split | (with_reducible apply Keeps.upd)))

theorem keeps_recvVisible (s : State) (o : Nat) (hk : Keeps q0 s) :
    Keeps q0 (recvVisible s o) := by
  unfold recvVisible
  try dsimp only
  iterate 48 (all_goals (try first | (with_reducible first | exact hk | apply keeps_getD | apply keeps_recvReady | assumption | exact id | rfl | intro _ | apply keeps_ite) | split | (with_reducible apply Keeps.upd)))

theorem keeps_visTo (s : State) (d : Die) (c : Nat) (v : BitVec 32) (hk : Keeps q0 s) :
    Keeps q0 (visTo s d c v) := by
  unfold visTo
  try dsimp only
  iterate 48 (all_goals (try first | (with_reducible first | exact hk | apply keeps_foldl | apply keeps_modConn | apply keeps_recvVisible | apply keeps_sendAck | apply keeps_tallyInc | apply keeps_foldl_fst | refine keeps_tallyInc_eq (by assumption) ?_ | assumption | exact id | rfl | intro _ | apply keeps_ite) | split | (with_reducible apply Keeps.upd)))

theorem keeps_startFlush (s : State) (d : Die) (c : Nat) (hk : Keeps q0 s) :
    Keeps q0 (startFlush s d c) := by
  unfold startFlush
  try dsimp only
  iterate 48 (all_goals (try first | (with_reducible first | exact hk | apply keeps_askRead | apply keeps_modConn | apply keeps_emit | assumption | exact id | rfl | intro _ | apply keeps_ite) | split | (with_reducible apply Keeps.upd)))

theorem keeps_visFollow (s : State) (d : Die) (c : Nat) (hk : Keeps q0 s) :
    Keeps q0 (visFollow s d c) := by
  unfold visFollow
  try dsimp only
  iterate 48 (all_goals (try first | (with_reducible first | exact hk | apply keeps_visTo | assumption | exact id | rfl | intro _ | apply keeps_ite) | split | (with_reducible apply Keeps.upd)))

theorem keeps_performAtomic (s : State) (i a : Nat) (ps : List (Nat × Nat)) (op size v operand compare : Nat) (hk : Keeps q0 s) :
    Keeps q0 (performAtomic s i a ps op size v operand compare) := by
  unfold performAtomic
  try dsimp only
  iterate 48 (all_goals (try first | (with_reducible first | exact hk | apply keeps_emit | apply keeps_foldl | apply keeps_readNow | apply keeps_writePieces | apply keeps_foldl_fst | assumption | exact id | rfl | intro _ | apply keeps_ite) | split | (with_reducible apply Keeps.upd)))

theorem keeps_sendResps (s : State) (d : Die) (c : Nat) (l : List RespPkt) (hk : Keeps q0 s) :
    Keeps q0 (sendResps s d c l) := by
  unfold sendResps
  try dsimp only
  iterate 48 (all_goals (try first | (with_reducible first | exact hk | apply keeps_foldl | apply keeps_sendCtl | apply keeps_foldl_fst | assumption | exact id | rfl | intro _ | apply keeps_ite) | split | (with_reducible apply Keeps.upd)))

theorem keeps_applyRead (s : State) (d : Die) (c rkey off len total handle dest : Nat) (first : Bool) (hr : TargetRead) (hk : Keeps q0 s) :
    KeepsApp q0 (applyRead s d c rkey off len total handle dest first hr) := by
  unfold applyRead
  try dsimp only
  iterate 48 (all_goals (try first | (with_reducible first | exact hk | refine keepsApp_eq_done (by assumption) ?_ | refine keepsApp_eq_refuse (by assumption) ?_ | apply keeps_modConn | apply keeps_readNow | apply keeps_sendResps | apply keeps_readPieces | apply keepsApp_done | apply keepsApp_refuse | apply keepsApp_ite | assumption | exact id | rfl | intro _ | apply keeps_ite | apply keepsApp_done | apply keepsApp_refuse | exact keepsApp_notReady | exact keepsApp_walk | apply keepsApp_ite) | split | (with_reducible apply Keeps.upd)))

theorem keeps_applyAtomic (s : State) (d : Die) (c : Nat) (psn : BitVec 32) (rkey off size op operand compare : Nat) (hr : TargetRead) (hk : Keeps q0 s) :
    KeepsApp q0 (applyAtomic s d c psn rkey off size op operand compare hr) := by
  unfold applyAtomic
  try dsimp only
  iterate 48 (all_goals (try first | (with_reducible first | exact hk | refine keepsApp_eq_done (by assumption) ?_ | refine keepsApp_eq_refuse (by assumption) ?_ | apply keeps_modConn | apply keeps_performAtomic | apply keeps_pmc | apply keeps_readNow | apply keeps_readPieces | apply keeps_writePieces | apply keepsApp_done | apply keepsApp_refuse | assumption | exact id | rfl | intro _ | apply keeps_ite | apply keepsApp_done | apply keepsApp_refuse | exact keepsApp_notReady | exact keepsApp_walk | apply keepsApp_ite) | split | (with_reducible apply Keeps.upd)))

theorem keeps_applyWrite (s : State) (d : Die) (c rkey off len total : Nat) (data : Option (List Byte)) (tally : Option Nat)
    (first elem : Bool) (hk : Keeps q0 s) :
    KeepsApp q0 (applyWrite s d c rkey off len total data tally first elem) := by
  unfold applyWrite
  try dsimp only
  iterate 48 (all_goals (try first | (with_reducible first | exact hk | refine keepsApp_eq_done (by assumption) ?_ | refine keepsApp_eq_refuse (by assumption) ?_ | apply keeps_getD | apply keeps_writePieces | apply keepsApp_done | apply keepsApp_refuse | apply keepsApp_ite | assumption | exact id | rfl | intro _ | apply keeps_ite | apply keepsApp_done | apply keepsApp_refuse | exact keepsApp_notReady | exact keepsApp_walk | apply keepsApp_ite) | split | (with_reducible apply Keeps.upd)))

theorem keeps_applyPull (s : State) (d : Die) (c handle off len : Nat) (hr : TargetRead) (hk : Keeps q0 s) :
    KeepsApp q0 (applyPull s d c handle off len hr) := by
  unfold applyPull
  try dsimp only
  iterate 48 (all_goals (try first | (with_reducible first | exact hk | apply keeps_readNow | apply keeps_sendResps | apply keeps_readPieces | apply keepsApp_done | apply keepsApp_refuse | assumption | exact id | rfl | intro _ | apply keeps_ite | apply keepsApp_done | apply keepsApp_refuse | exact keepsApp_notReady | exact keepsApp_walk | apply keepsApp_ite) | split | (with_reducible apply Keeps.upd)))

theorem keeps_applyFinish (s : State) (_d : Die) (k : Conn) (handle bytes code sub : Nat) (hk : Keeps q0 s) :
    Keeps q0 (applyFinish s _d k handle bytes code sub) := by
  unfold applyFinish
  try dsimp only
  iterate 48 (all_goals (try first | (with_reducible first | exact hk | apply keeps_completeOp | assumption | exact id | rfl | intro _ | apply keeps_ite) | split | (with_reducible apply Keeps.upd)))

theorem keeps_applyReq (s : State) (d : Die) (c : Nat) (h : HeldPkt) (r : ReqPkt) (hk : Keeps q0 s) :
    KeepsApp q0 (applyReq s d c h r) := by
  unfold applyReq
  try dsimp only
  iterate 48 (all_goals (try first | (with_reducible first | exact hk | refine keepsApp_eq_done (by assumption) ?_ | refine keepsApp_eq_refuse (by assumption) ?_ | apply keeps_applyAtomic | apply keeps_applyFinish | apply keeps_applyMore | apply keeps_applyMsg | apply keeps_applyPull | apply keeps_applyRead | apply keeps_applyRts | apply keeps_applyWrite | apply keepsApp_done | apply keepsApp_refuse | apply keepsApp_ite | assumption | exact id | rfl | intro _ | apply keeps_ite | apply keepsApp_done | apply keepsApp_refuse | exact keepsApp_notReady | exact keepsApp_walk | apply keepsApp_ite) | split | (with_reducible apply Keeps.upd)))

theorem keeps_advance (s0 s : State) (d : Die) (c : Nat) (h : HeldPkt) (r : ReqPkt) (hk : Keeps q0 s) :
    Keeps q0 (advance s0 s d c h r) := by
  unfold advance
  try dsimp only
  iterate 48 (all_goals (try first | (with_reducible first | exact hk | apply keeps_modConn | apply keeps_sendAck | apply keeps_sendAckWith | apply keeps_startFlush | apply keeps_visFollow | assumption | exact id | intro _ | apply keeps_ite) | split | (with_reducible apply Keeps.upd)))

theorem keeps_refusePkt (s : State) (d : Die) (c arr : Nat) (r : ReqPkt) (n : NakKind) (hk : Keeps q0 s) :
    Keeps q0 (refusePkt s d c arr r n) := by
  unfold refusePkt
  try dsimp only
  iterate 48 (all_goals (try first | (with_reducible first | exact hk | apply keeps_modConn | apply keeps_sendNak | apply keeps_startFlush | apply keeps_visFollow | assumption | exact id | rfl | intro _ | apply keeps_ite) | split | (with_reducible apply Keeps.upd)))

theorem keeps_dropHeld (s : State) (d : Die) (c : Nat) (psn : BitVec 32) (hk : Keeps q0 s) :
    Keeps q0 (dropHeld s d c psn) := by
  unfold dropHeld
  try dsimp only
  iterate 48 (all_goals (try first | (with_reducible first | exact hk | apply keeps_modConn | assumption | exact id | rfl | intro _ | apply keeps_ite) | split | (with_reducible apply Keeps.upd)))

theorem keeps_heldRead (s : State) (d : Die) (c : Nat) (h : HeldPkt) (hk : Keeps q0 s) :
    Keeps q0 (heldRead s d c h).2 := by
  unfold heldRead
  try dsimp only
  iterate 48 (all_goals (try first | (with_reducible first | exact hk | apply keeps_cellRead | refine keeps_cellRead_eq (by assumption) ?_ | assumption | exact id | rfl | intro _ | apply keeps_ite) | split | (with_reducible apply Keeps.upd)))
theorem keeps_heldRead_eq {s : State}  {d : Die}  {c : Nat}  {h : HeldPkt} {t0 : State} {b0 : Bool} (he : heldRead s d c h = (b0, t0)) (hk : Keeps q0 s) : Keeps q0 t0 := by
  have := keeps_heldRead s d c h hk; rw [he] at this; exact this

theorem keeps_drainHeld (k : Nat) (s : State) (a0 : Die) (a1 : Nat) (hk : Keeps q0 s) : Keeps q0 (drainHeld k s a0 a1) := by
  induction k generalizing s a0 a1 with
  | zero => exact hk
  | succ k ih =>
    unfold drainHeld
    try dsimp only
    iterate 48 (all_goals (try first | (with_reducible first | exact hk | apply ih | refine keepsApp_eq_done (by assumption) ?_ | refine keepsApp_eq_refuse (by assumption) ?_ | refine keeps_heldRead_eq (by assumption) ?_ | apply keeps_modConn | apply keeps_applyReq | apply keeps_advance | apply keeps_sendNak | apply keeps_dropHeld | apply keeps_refusePkt | apply keeps_pmc | apply keeps_startWalk | assumption | exact id | rfl | intro _ | apply keeps_ite) | split | (with_reducible apply Keeps.upd)))

theorem keeps_holdPkt (s : State) (d : Die) (c : Nat) (p : Pkt) (r : ReqPkt) (hr : TargetRead) (hk : Keeps q0 s) :
    Keeps q0 (holdPkt s d c p r hr) := by
  unfold holdPkt
  try dsimp only
  iterate 48 (all_goals (try first | (with_reducible first | exact hk | apply keeps_modConn | apply keeps_speculate | apply keeps_speculateMore | refine keeps_speculateMore_eq (by assumption) ?_ | assumption | exact id | rfl | intro _ | apply keeps_ite) | split | (with_reducible apply Keeps.upd)))

theorem keeps_answerDup (s : State) (d : Die) (c : Nat) (r : ReqPkt) (hk : Keeps q0 s) :
    Keeps q0 (answerDup s d c r) := by
  unfold answerDup
  try dsimp only
  iterate 48 (all_goals (try first | (with_reducible first | exact hk | apply keeps_sendAckWith | apply keeps_sendNak | assumption | exact id | rfl | intro _ | apply keeps_ite) | split | (with_reducible apply Keeps.upd)))

theorem keeps_receiveReq (s : State) (d : Die) (p : Pkt) (r : ReqPkt) (hr : TargetRead) (hk : Keeps q0 s) :
    Keeps q0 (receiveReq s d p r hr) := by
  unfold receiveReq
  try dsimp only
  iterate 48 (all_goals (try first | (with_reducible first | exact hk | apply keeps_answerDup | apply keeps_drainHeld | apply keeps_emit | apply keeps_holdPkt | apply keeps_sendAck | assumption | exact id | rfl | intro _ | apply keeps_ite) | split | (with_reducible apply Keeps.upd)))

theorem keeps_arriveReq (s : State) (d : Die) (p : Pkt) (r : ReqPkt) (hr : TargetRead) (hk : Keeps q0 s) :
    Keeps q0 (arriveReq s d p r hr) := by
  unfold arriveReq
  try dsimp only
  iterate 48 (all_goals (try first | (with_reducible first | exact hk | apply keeps_bounce | apply keeps_receiveReq | assumption | exact id | rfl | intro _ | apply keeps_ite) | split | (with_reducible apply Keeps.upd)))

theorem keeps_execDataPacketArrive (d : Die) (p : Pkt) (hr : TargetRead) (s : State) (hk : Keeps q0 s) :
    KeepsOut q0 (execDataPacketArrive d p hr s) := by
  unfold execDataPacketArrive
  try dsimp only
  iterate 48 (all_goals (try first | (with_reducible first | exact hk | apply keeps_arriveReq | apply keepsOut_next | apply keepsOut_ite | assumption | exact id | rfl | intro _ | apply keeps_ite | apply keepsOut_next | apply keepsOut_ite) | split | (with_reducible apply Keeps.upd)))

theorem keeps_execPullRequest (d : Die) (p : Pkt) (hr : TargetRead) (s : State) (hk : Keeps q0 s) :
    KeepsOut q0 (execPullRequest d p hr s) := by
  unfold execPullRequest
  try dsimp only
  iterate 48 (all_goals (try first | (with_reducible first | exact hk | apply keeps_arriveReq | apply keepsOut_next | apply keepsOut_ite | assumption | exact id | rfl | intro _ | apply keeps_ite | apply keepsOut_next | apply keepsOut_ite) | split | (with_reducible apply Keeps.upd)))

theorem keeps_execFinishPacket (d : Die) (p : Pkt) (s : State) (hk : Keeps q0 s) :
    KeepsOut q0 (execFinishPacket d p s) := by
  unfold execFinishPacket
  try dsimp only
  iterate 48 (all_goals (try first | (with_reducible first | exact hk | apply keeps_arriveReq | apply keepsOut_next | apply keepsOut_ite | assumption | exact id | rfl | intro _ | apply keeps_ite | apply keepsOut_next | apply keepsOut_ite) | split | (with_reducible apply Keeps.upd)))

theorem keeps_execAckTimer (d : Die) (c : Nat) (s : State) (hk : Keeps q0 s) :
    KeepsOut q0 (execAckTimer d c s) := by
  unfold execAckTimer
  try dsimp only
  iterate 48 (all_goals (try first | (with_reducible first | exact hk | apply keeps_sendAck | apply keepsOut_next | apply keepsOut_ite | assumption | exact id | rfl | intro _ | apply keeps_ite | apply keepsOut_next | apply keepsOut_ite) | split | (with_reducible apply Keeps.upd)))

theorem keeps_execFlushTimer (d : Die) (c : Nat) (s : State) (hk : Keeps q0 s) :
    KeepsOut q0 (execFlushTimer d c s) := by
  unfold execFlushTimer
  try dsimp only
  iterate 48 (all_goals (try first | (with_reducible first | exact hk | apply keeps_startFlush | apply keepsOut_next | apply keepsOut_ite | assumption | exact id | rfl | intro _ | apply keeps_ite | apply keepsOut_next | apply keepsOut_ite) | split | (with_reducible apply Keeps.upd)))

theorem keeps_tagWaiters (s : State) (hk : Keeps q0 s) :
    Keeps q0 (tagWaiters s) := by
  unfold tagWaiters
  try dsimp only
  iterate 48 (all_goals (try first | (with_reducible first | exact hk | apply keeps_drainHeld | apply keeps_foldl | apply keeps_foldl_fst | assumption | exact id | rfl | intro _ | apply keeps_ite) | split | (with_reducible apply Keeps.upd)))

theorem keeps_flushDone (s : State) (d : Die) (c : Nat) (fail : Option ReadFail) (hk : Keeps q0 s) :
    Keeps q0 (flushDone s d c fail) := by
  unfold flushDone
  try dsimp only
  iterate 48 (all_goals (try first | (with_reducible first | exact hk | apply keeps_foldl | apply keeps_modConn | apply keeps_recvReady | apply keeps_sendNak | apply keeps_startFlush | apply keeps_visFollow | apply keeps_visTo | apply keeps_foldl_fst | assumption | exact id | rfl | intro _ | apply keeps_ite) | split | (with_reducible apply Keeps.upd)))

theorem keeps_execFlushComplete (d : Die) (c : Nat) (fail : Option ReadFail) (s : State) (hk : Keeps q0 s) :
    KeepsOut q0 (execFlushComplete d c fail s) := by
  unfold execFlushComplete
  try dsimp only
  iterate 48 (all_goals (try first | (with_reducible first | exact hk | apply keeps_flushDone | apply keepsOut_next | refine keeps_takeReads_eq (by assumption) ?_ | assumption | exact id | rfl | intro _ | apply keeps_ite | apply keepsOut_next | apply keepsOut_ite) | split | (with_reducible apply Keeps.upd)))

theorem keeps_execRnrLimitExpiry (d : Die) (c : Nat) (s : State) (hk : Keeps q0 s) :
    KeepsOut q0 (execRnrLimitExpiry d c s) := by
  unfold execRnrLimitExpiry
  try dsimp only
  iterate 48 (all_goals (try first | (with_reducible first | exact hk | apply keeps_drainHeld | apply keeps_postInst | apply keeps_postMgmt | apply keeps_refusePkt | apply keepsOut_next | apply keepsOut_ite | assumption | exact id | rfl | intro _ | apply keeps_ite | apply keepsOut_next | apply keepsOut_ite) | split | (with_reducible apply Keeps.upd)))

theorem keeps_resend (s : State) (d : Die) (c : Nat) (p : TxPkt) (byTimeout : Bool) (hk : Keeps q0 s) :
    Keeps q0 (resend s d c p byTimeout) := by
  unfold resend
  try dsimp only
  iterate 48 (all_goals (try first | (with_reducible first | exact hk | apply keeps_modConn | apply keeps_pmc | apply keeps_transmit | assumption | exact id | rfl | intro _ | apply keeps_ite) | split | (with_reducible apply Keeps.upd)))

theorem keeps_lossCut (s : State) (d : Die) (c : Nat) (hk : Keeps q0 s) :
    Keeps q0 (lossCut s d c) := by
  unfold lossCut
  try dsimp only
  iterate 48 (all_goals (try first | (with_reducible first | exact hk | apply keeps_modConn | apply keeps_pmc | assumption | exact id | rfl | intro _ | apply keeps_ite) | split | (with_reducible apply Keeps.upd)))

theorem keeps_getDone (s : State) (o : Nat) (hk : Keeps q0 s) :
    Keeps q0 (getDone s o) := by
  unfold getDone
  try dsimp only
  iterate 48 (all_goals (try first | (with_reducible first | exact hk | apply keeps_completeOp | assumption | exact id | rfl | intro _ | apply keeps_ite) | split | (with_reducible apply Keeps.upd)))

theorem keeps_reRequest (s : State) (d : Die) (c : Nat) (hk : Keeps q0 s) :
    Keeps q0 (reRequest s d c) := by
  unfold reRequest
  try dsimp only
  iterate 48 (all_goals (try first | (with_reducible first | exact hk | apply keeps_foldl | apply keeps_modOp | apply keeps_stageSide | apply keeps_foldl_fst | apply keeps_stagePieces | assumption | exact id | rfl | intro _ | apply keeps_ite) | split | (with_reducible apply Keeps.upd)))

theorem keeps_execRtoExpiry (d : Die) (c : Nat) (s : State) (hk : Keeps q0 s) :
    KeepsOut q0 (execRtoExpiry d c s) := by
  unfold execRtoExpiry
  try dsimp only
  iterate 48 (all_goals (try first | (with_reducible first | exact hk | apply keeps_foldl | apply keeps_lossCut | apply keeps_pmc | apply keeps_reRequest | apply keeps_resend | apply keeps_foldl_fst | apply keepsOut_next | apply keepsOut_ite | assumption | exact id | rfl | intro _ | apply keeps_ite | apply keepsOut_next | apply keepsOut_ite) | split | (with_reducible apply Keeps.upd)))

theorem keeps_getResponse (s : State) (d : Die) (r : RespPkt) (hk : Keeps q0 s) :
    KeepsApp q0 (getResponse s d r) := by
  unfold getResponse
  try dsimp only
  iterate 48 (all_goals (try first | (with_reducible first | exact hk | refine keepsApp_eq_done (by assumption) ?_ | refine keepsApp_eq_refuse (by assumption) ?_ | apply keeps_completeOp | apply keeps_getD | apply keeps_getDone | apply keeps_modOp | apply keeps_writePieces | apply keepsApp_done | apply keepsApp_refuse | apply keepsApp_ite | assumption | exact id | rfl | intro _ | apply keeps_ite | apply keepsApp_done | apply keepsApp_refuse | exact keepsApp_notReady | exact keepsApp_walk | apply keepsApp_ite) | split | (with_reducible apply Keeps.upd)))

theorem keeps_takeResp (s : State) (d : Die) (r : RespPkt) (hk : Keeps q0 s) :
    Keeps q0 (takeResp s d r) := by
  unfold takeResp
  try dsimp only
  iterate 48 (all_goals (try first | (with_reducible first | exact hk | refine keepsApp_eq_done (by assumption) ?_ | refine keepsApp_eq_refuse (by assumption) ?_ | apply keeps_getResponse | apply keeps_modConn | apply keeps_pullData | apply keeps_startWalk | assumption | exact id | rfl | intro _ | apply keeps_ite) | split | (with_reducible apply Keeps.upd)))

theorem keeps_execGetResponseArrive (d : Die) (p : Pkt) (s : State) (hk : Keeps q0 s) :
    KeepsOut q0 (execGetResponseArrive d p s) := by
  unfold execGetResponseArrive
  try dsimp only
  iterate 48 (all_goals (try first | (with_reducible first | exact hk | apply keeps_takeResp | apply keepsOut_next | apply keepsOut_ite | assumption | exact id | rfl | intro _ | apply keeps_ite | apply keepsOut_next | apply keepsOut_ite) | split | (with_reducible apply Keeps.upd)))

theorem keeps_resumeTarget (s : State) (d : Die) (c : Nat) (hk : Keeps q0 s) :
    Keeps q0 (resumeTarget s d c) := by
  unfold resumeTarget
  try dsimp only
  iterate 48 (all_goals (try first | (with_reducible first | exact hk | apply keeps_drainHeld | apply keeps_foldl | apply keeps_modConn | apply keeps_takeResp | apply keeps_foldl_fst | assumption | exact id | rfl | intro _ | apply keeps_ite) | split | (with_reducible apply Keeps.upd)))

theorem keeps_opRefused (s : State) (d : Die) (c o : Nat) (psn : BitVec 32) (code sub : Nat) (hk : Keeps q0 s) :
    Keeps q0 (opRefused s d c o psn code sub) := by
  unfold opRefused
  try dsimp only
  iterate 48 (all_goals (try first | (with_reducible first | exact hk | apply keeps_completeOp | apply keeps_freeThread | apply keeps_getD | apply keeps_getDone | apply keeps_modConn | apply keeps_modOp | assumption | exact id | rfl | intro _ | apply keeps_ite) | split | (with_reducible apply Keeps.upd)))

theorem keeps_opUnbound (s : State) (d : Die) (c : Nat) (psn : BitVec 32) (hk : Keeps q0 s) :
    Keeps q0 (opUnbound s d c psn) := by
  unfold opUnbound
  try dsimp only
  iterate 48 (all_goals (try first | (with_reducible first | exact hk | apply keeps_completeOp | apply keeps_modConn | assumption | exact id | rfl | intro _ | apply keeps_ite) | split | (with_reducible apply Keeps.upd)))

theorem keeps_atomicResult (s : State) (d : Die) (c : Nat) (psn : BitVec 32) (v scope : Nat) (hk : Keeps q0 s) :
    Keeps q0 (atomicResult s d c psn v scope) := by
  unfold atomicResult
  try dsimp only
  iterate 48 (all_goals (try first | (with_reducible first | exact hk | apply keeps_completeOp | apply keeps_getD | apply keeps_modOp | apply keeps_startWalk | apply keeps_writePieces | apply keeps_modConn | assumption | exact id | rfl | intro _ | apply keeps_ite) | split | (with_reducible apply Keeps.upd)))

theorem keeps_cumTo (s : State) (d : Die) (c : Nat) (a : AckPkt) (hk : Keeps q0 s) :
    Keeps q0 (cumTo s d c a) := by
  unfold cumTo
  try dsimp only
  iterate 48 (all_goals (try first | (with_reducible first | exact hk | apply keeps_modConn | assumption | exact id | rfl | intro _ | apply keeps_ite) | split | (with_reducible apply Keeps.upd)))

theorem keeps_ackReceive (s : State) (d : Die) (a : AckPkt) (hk : Keeps q0 s) :
    Keeps q0 (ackReceive s d a) := by
  unfold ackReceive
  try dsimp only
  iterate 48 (all_goals (try first | (with_reducible first | exact hk | apply keeps_ackBytes | apply keeps_atomicResult | apply keeps_cumTo | apply keeps_deliverOps | apply keeps_failConn | apply keeps_foldl | apply keeps_lossCut | apply keeps_modConn | apply keeps_modOp | apply keeps_opRefused | apply keeps_opUnbound | apply keeps_pmc | apply keeps_pumpConn | apply keeps_resend | apply keeps_foldl_fst | assumption | exact id | rfl | intro _ | apply keeps_ite) | split | (with_reducible apply Keeps.upd)))

theorem keeps_execAckReceive (d : Die) (p : Pkt) (s : State) (hk : Keeps q0 s) :
    KeepsOut q0 (execAckReceive d p s) := by
  unfold execAckReceive
  try dsimp only
  iterate 48 (all_goals (try first | (with_reducible first | exact hk | apply keeps_ackReceive | apply keepsOut_next | apply keepsOut_ite | assumption | exact id | rfl | intro _ | apply keeps_ite | apply keepsOut_next | apply keepsOut_ite) | split | (with_reducible apply Keeps.upd)))

theorem keeps_execRnrResend (d : Die) (c : Nat) (s : State) (hk : Keeps q0 s) :
    KeepsOut q0 (execRnrResend d c s) := by
  unfold execRnrResend
  try dsimp only
  iterate 48 (all_goals (try first | (with_reducible first | exact hk | apply keeps_modConn | apply keeps_resend | apply keepsOut_next | apply keepsOut_ite | assumption | exact id | rfl | intro _ | apply keeps_ite | apply keepsOut_next | apply keepsOut_ite) | split | (with_reducible apply Keeps.upd)))

end Sys2Proof.Laws
end

