-- ==== Sys2Proof/Laws/Keeps2.lean ====
section
/-! SUPPORT. `Keeps`, one lemma for each operation and command: collectives, routing, links, schedulers, Cruise. -/

set_option linter.unusedVariables false
set_option linter.unusedTactic false
set_option linter.unreachableTactic false
set_option maxRecDepth 10000

namespace Sys2Proof.Laws

open Sys2Proof Sys2Proof.Machine

variable {q0 : State}

theorem keeps_modSeg (s : State) (d : Die) (c q g : Nat) (f : Seg → Seg) (hk : Keeps q0 s) :
    Keeps q0 (modSeg s d c q g f) := by
  unfold modSeg
  try dsimp only
  iterate 48 (all_goals (try first | (with_reducible first | exact hk | apply keeps_modBnd | assumption | exact id | rfl | intro _ | apply keeps_ite) | split | (with_reducible apply Keeps.upd)))

theorem keeps_bndSend (s : State) (d : Die) (c dst : Nat) (via : Option Nat) (gen q g child : Nat) (b : BndBody) (hk : Keeps q0 s) :
    Keeps q0 (bndSend s d c dst via gen q g child b) := by
  unfold bndSend
  try dsimp only
  iterate 48 (all_goals (try first | (with_reducible first | exact hk | apply keeps_emit | apply keeps_getD | assumption | exact id | rfl | intro _ | apply keeps_ite) | split | (with_reducible apply Keeps.upd)))

theorem keeps_bndUp (s : State) (d : Die) (c : Nat) (t : Tree) (q g : Nat) (b : BndBody) (hk : Keeps q0 s) :
    Keeps q0 (bndUp s d c t q g b) := by
  unfold bndUp
  try dsimp only
  iterate 48 (all_goals (try first | (with_reducible first | exact hk | apply keeps_bndSend | apply keeps_modBnd | assumption | exact id | rfl | intro _ | apply keeps_ite) | split | (with_reducible apply Keeps.upd)))

theorem keeps_bndDown (s : State) (d : Die) (c : Nat) (t : Tree) (child q g : Nat) (b : BndBody) (hk : Keeps q0 s) :
    Keeps q0 (bndDown s d c t child q g b) := by
  unfold bndDown
  try dsimp only
  iterate 48 (all_goals (try first | (with_reducible first | exact hk | apply keeps_bndSend | apply keeps_getD | assumption | exact id | rfl | intro _ | apply keeps_ite) | split | (with_reducible apply Keeps.upd)))

theorem keeps_endSeqs (s : State) (d : Die) (c sub : Nat) (kept : List Nat) (hk : Keeps q0 s) :
    Keeps q0 (endSeqs s d c sub kept) := by
  unfold endSeqs
  try dsimp only
  iterate 48 (all_goals (try first | (with_reducible first | exact hk | apply keeps_completeOp | apply keeps_foldl | apply keeps_modBnd | apply keeps_foldl_fst | assumption | exact id | rfl | intro _ | apply keeps_ite) | split | (with_reducible apply Keeps.upd)))

theorem keeps_bndAbort (s : State) (d : Die) (c : Nat) (t : Tree) (q sub : Nat) (kept : List Nat) (hk : Keeps q0 s) :
    Keeps q0 (bndAbort s d c t q sub kept) := by
  unfold bndAbort
  try dsimp only
  iterate 48 (all_goals (try first | (with_reducible first | exact hk | apply keeps_bndDown | apply keeps_bndUp | apply keeps_endSeqs | apply keeps_foldl | apply keeps_getD | apply keeps_modBnd | apply keeps_pmc | apply keeps_postInst | apply keeps_postMgmt | apply keeps_foldl_fst | apply keeps_completeOp | assumption | exact id | rfl | intro _ | apply keeps_ite) | split | (with_reducible apply Keeps.upd)))

theorem keeps_bndNarrow (s : State) (d : Die) (c : Nat) (t : Tree) (more : List Nat) (hk : Keeps q0 s) :
    Keeps q0 (bndNarrow s d c t more) := by
  unfold bndNarrow
  try dsimp only
  iterate 48 (all_goals (try first | (with_reducible first | exact hk | apply keeps_bndDown | apply keeps_endSeqs | apply keeps_foldl | apply keeps_foldl_fst | assumption | exact id | rfl | intro _ | apply keeps_ite) | split | (with_reducible apply Keeps.upd)))

theorem keeps_bndFail (s : State) (d : Die) (c sub : Nat) (cut : Bool) (hk : Keeps q0 s) :
    Keeps q0 (bndFail s d c sub cut) := by
  unfold bndFail
  try dsimp only
  iterate 48 (all_goals (try first | (with_reducible first | exact hk | apply keeps_bndAbort | apply keeps_bndNarrow | assumption | exact id | rfl | intro _ | apply keeps_ite) | split | (with_reducible apply Keeps.upd)))

theorem keeps_collsLost (s : State) (d : Die) (c : Nat) (l : List Coll) (code csub sub : Nat) (hk : Keeps q0 s) :
    Keeps q0 (collsLost s d c l code csub sub) := by
  unfold collsLost
  try dsimp only
  iterate 48 (all_goals (try first | (with_reducible first | exact hk | apply keeps_bndAbort | apply keeps_completeOp | apply keeps_foldl | apply keeps_modBnd | apply keeps_foldl_fst | assumption | exact id | rfl | intro _ | apply keeps_ite) | split | (with_reducible apply Keeps.upd)))

theorem keeps_instLost (s : State) (d : Die) (i : Nat) (only : Option Nat) (hk : Keeps q0 s) :
    Keeps q0 (instLost s d i only) := by
  unfold instLost
  try dsimp only
  iterate 48 (all_goals (try first | (with_reducible first | exact hk | apply keeps_collsLost | apply keeps_foldl | apply keeps_foldl_fst | assumption | exact id | rfl | intro _ | apply keeps_ite) | split | (with_reducible apply Keeps.upd)))

theorem keeps_dstBytes (s : State) (k : Coll) (b : Block) (members : Nat) (data : List Byte) (hk : Keeps q0 s) :
    Keeps q0 (dstBytes s k b members data).2 := by
  unfold dstBytes
  try dsimp only
  iterate 48 (all_goals (try first | (with_reducible first | exact hk | assumption | exact id | rfl | intro _ | apply keeps_ite | apply keeps_freeSucc) | split | (with_reducible apply Keeps.upd)))
theorem keeps_dstBytes_eq {s : State}  {k : Coll}  {b : Block}  {members : Nat}  {data : List Byte} {t0 : State} {b0 : List Byte} (he : dstBytes s k b members data = (b0, t0)) (hk : Keeps q0 s) : Keeps q0 t0 := by
  have := keeps_dstBytes s k b members data hk; rw [he] at this; exact this

theorem keeps_memberResult (s : State) (d : Die) (c : Nat) (t : Tree) (child q g : Nat) (b : BndBody) (hk : Keeps q0 s) :
    Keeps q0 (memberResult s d c t child q g b) := by
  unfold memberResult
  try dsimp only
  iterate 48 (all_goals (try first | (with_reducible first | exact hk | apply keeps_completeOp | apply keeps_dstBytes | apply keeps_getD | apply keeps_modBnd | apply keeps_modOp | apply keeps_modSeg | apply keeps_startWalk | apply keeps_writePieces | refine keeps_dstBytes_eq (by assumption) ?_ | assumption | exact id | rfl | intro _ | apply keeps_ite) | split | (with_reducible apply Keeps.upd)))

theorem keeps_bndTidy (k : Nat) (s : State) (a0 : Die) (a1 : Nat) (a2 : Tree) (hk : Keeps q0 s) : Keeps q0 (bndTidy k s a0 a1 a2) := by
  induction k generalizing s a0 a1 a2 with
  | zero => exact hk
  | succ k ih =>
    unfold bndTidy
    try dsimp only
    iterate 48 (all_goals (try first | (with_reducible first | exact hk | apply ih | apply keeps_modBnd | apply keeps_foldl | apply keeps_foldl_fst | assumption | exact id | rfl | intro _ | apply keeps_ite) | split | (with_reducible apply Keeps.upd)))

theorem keeps_spreadResult (s : State) (d : Die) (c : Nat) (t : Tree) (q g : Nat) (b : BndBody) (hk : Keeps q0 s) :
    Keeps q0 (spreadResult s d c t q g b) := by
  unfold spreadResult
  try dsimp only
  iterate 48 (all_goals (try first | (with_reducible first | exact hk | apply keeps_bndDown | apply keeps_bndTidy | apply keeps_foldl | apply keeps_memberResult | apply keeps_modSeg | apply keeps_foldl_fst | assumption | exact id | rfl | intro _ | apply keeps_ite) | split | (with_reducible apply Keeps.upd)))

theorem keeps_foldSeg (s : State) (d : Die) (c : Nat) (t : Tree) (y : Seg) (hk : Keeps q0 s) :
    Keeps q0 (foldSeg s d c t y) := by
  unfold foldSeg
  try dsimp only
  iterate 48 (all_goals (try first | (with_reducible first | exact hk | apply keeps_bndUp | apply keeps_modBnd | apply keeps_modSeg | apply keeps_pmc | apply keeps_spreadResult | assumption | exact id | rfl | intro _ | apply keeps_ite) | split | (with_reducible apply Keeps.upd)))

theorem keeps_bndFold (k : Nat) (s : State) (a0 : Die) (a1 : Nat) (a2 : Tree) (hk : Keeps q0 s) : Keeps q0 (bndFold k s a0 a1 a2) := by
  induction k generalizing s a0 a1 a2 with
  | zero => exact hk
  | succ k ih =>
    unfold bndFold
    try dsimp only
    iterate 48 (all_goals (try first | (with_reducible first | exact hk | apply ih | apply keeps_foldSeg | apply keeps_foldl | apply keeps_foldl_fst | assumption | exact id | rfl | intro _ | apply keeps_ite) | split | (with_reducible apply Keeps.upd)))

theorem keeps_bndReparent (s : State) (d : Die) (c : Nat) (t : Tree) (hk : Keeps q0 s) :
    Keeps q0 (bndReparent s d c t) := by
  unfold bndReparent
  try dsimp only
  iterate 48 (all_goals (try first | (with_reducible first | exact hk | apply keeps_bndFail | apply keeps_bndUp | apply keeps_foldl | apply keeps_modBnd | apply keeps_modSeg | apply keeps_postMgmt | apply keeps_foldl_fst | assumption | exact id | rfl | intro _ | apply keeps_ite) | split | (with_reducible apply Keeps.upd)))

theorem keeps_beginSeq (s : State) (d : Die) (c : Nat) (t : Tree) (q : Nat) (hk : Keeps q0 s) :
    Keeps q0 (beginSeq s d c t q) := by
  unfold beginSeq
  try dsimp only
  iterate 48 (all_goals (try first | (with_reducible first | exact hk | apply keeps_modBnd | apply keeps_postMgmt | assumption | exact id | rfl | intro _ | apply keeps_ite) | split | (with_reducible apply Keeps.upd)))

theorem keeps_contribute (s : State) (d : Die) (c : Nat) (t : Tree) (q g child : Nat) (h : BndHead) (es : List BndElem)
    (members : List (Nat × List Nat)) (hk : Keeps q0 s) :
    Keeps q0 (contribute s d c t q g child h es members) := by
  unfold contribute
  try dsimp only
  iterate 48 (all_goals (try first | (with_reducible first | exact hk | apply keeps_beginSeq | apply keeps_bndAbort | apply keeps_bndFold | apply keeps_bndReparent | apply keeps_modBnd | apply keeps_modSeg | assumption | exact id | rfl | intro _ | apply keeps_ite) | split | (with_reducible apply Keeps.upd)))

theorem keeps_bndDup (s : State) (d : Die) (hk : Keeps q0 s) :
    Keeps q0 (bndDup s d) := by
  unfold bndDup
  try dsimp only
  iterate 48 (all_goals (try first | (with_reducible first | exact hk | apply keeps_bumpReg | apply keeps_pmc | assumption | exact id | rfl | intro _ | apply keeps_ite) | split | (with_reducible apply Keeps.upd)))

theorem keeps_learnRelay (s : State) (d : Die) (c : Nat) (t : Tree) (p : BndPkt) (hk : Keeps q0 s) :
    Keeps q0 (learnRelay s d c t p) := by
  unfold learnRelay
  try dsimp only
  iterate 48 (all_goals (try first | (with_reducible first | exact hk | apply keeps_bndDown | apply keeps_foldl | apply keeps_modBnd | apply keeps_foldl_fst | assumption | exact id | rfl | intro _ | apply keeps_ite) | split | (with_reducible apply Keeps.upd)))

theorem keeps_execBndContribution (d : Die) (p : BndPkt) (s : State) (hk : Keeps q0 s) :
    KeepsOut q0 (execBndContribution d p s) := by
  unfold execBndContribution
  try dsimp only
  iterate 48 (all_goals (try first | (with_reducible first | exact hk | apply keeps_bndDown | apply keeps_bndDup | apply keeps_contribute | apply keeps_learnRelay | apply keepsOut_next | apply keepsOut_ite | assumption | exact id | rfl | intro _ | apply keeps_ite | apply keepsOut_next | apply keepsOut_ite) | split | (with_reducible apply Keeps.upd)))

theorem keeps_execBndResult (d : Die) (p : BndPkt) (s : State) (hk : Keeps q0 s) :
    KeepsOut q0 (execBndResult d p s) := by
  unfold execBndResult
  try dsimp only
  iterate 48 (all_goals (try first | (with_reducible first | exact hk | apply keeps_bndDup | apply keeps_bndUp | apply keeps_modBnd | apply keeps_spreadResult | apply keepsOut_next | apply keepsOut_ite | assumption | exact id | rfl | intro _ | apply keeps_ite | apply keepsOut_next | apply keepsOut_ite) | split | (with_reducible apply Keeps.upd)))

theorem keeps_execBndAck (d : Die) (p : BndPkt) (s : State) (hk : Keeps q0 s) :
    KeepsOut q0 (execBndAck d p s) := by
  unfold execBndAck
  try dsimp only
  iterate 48 (all_goals (try first | (with_reducible first | exact hk | apply keeps_bndTidy | apply keeps_learnRelay | apply keeps_modBnd | apply keeps_modSeg | apply keepsOut_next | apply keepsOut_ite | assumption | exact id | rfl | intro _ | apply keeps_ite | apply keepsOut_next | apply keepsOut_ite) | split | (with_reducible apply Keeps.upd)))

theorem keeps_resendSeg (s : State) (d : Die) (c : Nat) (t : Tree) (y : Seg) (hk : Keeps q0 s) :
    Keeps q0 (resendSeg s d c t y) := by
  unfold resendSeg
  try dsimp only
  iterate 48 (all_goals (try first | (with_reducible first | exact hk | apply keeps_bndDown | apply keeps_bndUp | apply keeps_foldl | apply keeps_modSeg | apply keeps_foldl_fst | assumption | exact id | rfl | intro _ | apply keeps_ite) | split | (with_reducible apply Keeps.upd)))

theorem keeps_execBndResend (d : Die) (c q g : Nat) (s : State) (hk : Keeps q0 s) :
    KeepsOut q0 (execBndResend d c q g s) := by
  unfold execBndResend
  try dsimp only
  iterate 48 (all_goals (try first | (with_reducible first | exact hk | apply keeps_resendSeg | apply keepsOut_next | assumption | exact id | rfl | intro _ | apply keeps_ite | apply keepsOut_next | apply keepsOut_ite) | split | (with_reducible apply Keeps.upd)))

theorem keeps_execBndRelayPacket (d : Die) (p : BndPkt) (s : State) (hk : Keeps q0 s) :
    KeepsOut q0 (execBndRelayPacket d p s) := by
  unfold execBndRelayPacket
  try dsimp only
  iterate 48 (all_goals (try first | (with_reducible first | exact hk | apply keeps_emit | apply keeps_pmc | apply keepsOut_next | apply keepsOut_ite | assumption | exact id | rfl | intro _ | apply keeps_ite | apply keepsOut_next | apply keepsOut_ite) | split | (with_reducible apply Keeps.upd)))

theorem keeps_execBndAbortReceive (d : Die) (p : BndPkt) (s : State) (hk : Keeps q0 s) :
    KeepsOut q0 (execBndAbortReceive d p s) := by
  unfold execBndAbortReceive
  try dsimp only
  iterate 48 (all_goals (try first | (with_reducible first | exact hk | apply keeps_bndAbort | apply keeps_bndNarrow | apply keeps_modBnd | apply keepsOut_next | apply keepsOut_ite | assumption | exact id | rfl | intro _ | apply keeps_ite | apply keepsOut_next | apply keepsOut_ite) | split | (with_reducible apply Keeps.upd)))

theorem keeps_execBndBackupTimeout (d : Die) (c : Nat) (s : State) (hk : Keeps q0 s) :
    KeepsOut q0 (execBndBackupTimeout d c s) := by
  unfold execBndBackupTimeout
  try dsimp only
  iterate 48 (all_goals (try first | (with_reducible first | exact hk | apply keeps_bndFail | apply keeps_bndAbort | apply keepsOut_next | apply keepsOut_ite | assumption | exact id | rfl | intro _ | apply keeps_ite | apply keepsOut_next | apply keepsOut_ite) | split | (with_reducible apply Keeps.upd)))

theorem keeps_bndEdges (s : State) (d : Die) (hk : Keeps q0 s) :
    Keeps q0 (bndEdges s d) := by
  unfold bndEdges
  try dsimp only
  iterate 48 (all_goals (try first | (with_reducible first | exact hk | apply keeps_bndReparent | apply keeps_foldl | apply keeps_getD | apply keeps_modBnd | apply keeps_foldl_fst | assumption | exact id | rfl | intro _ | apply keeps_ite) | split | (with_reducible apply Keeps.upd)))

theorem keeps_contributeAll (s : State) (d : Die) (c : Nat) (t : Tree) (k : Coll) (hk : Keeps q0 s) :
    Keeps q0 (contributeAll s d c t k) := by
  unfold contributeAll
  try dsimp only
  iterate 48 (all_goals (try first | (with_reducible first | exact hk | apply keeps_contribute | apply keeps_foldl | apply keeps_foldl_fst | assumption | exact id | rfl | intro _ | apply keeps_ite) | split | (with_reducible apply Keeps.upd)))

theorem keeps_collRead (s : State) (o : Nat) (hk : Keeps q0 s) :
    Keeps q0 (collRead s o) := by
  unfold collRead
  try dsimp only
  iterate 48 (all_goals (try first | (with_reducible first | exact hk | apply keeps_collsLost | apply keeps_getD | apply keeps_readPieces | apply keeps_startWalk | assumption | exact id | rfl | intro _ | apply keeps_ite) | split | (with_reducible apply Keeps.upd)))

theorem keeps_collStart (s : State) (o : Nat) (hk : Keeps q0 s) :
    Keeps q0 (collStart s o) := by
  unfold collStart
  try dsimp only
  iterate 48 (all_goals (try first | (with_reducible first | exact hk | apply keeps_collRead | apply keeps_contributeAll | apply keeps_getD | apply keeps_modBnd | apply keeps_modOp | assumption | exact id | rfl | intro _ | apply keeps_ite) | split | (with_reducible apply Keeps.upd)))

theorem keeps_collSource (s : State) (o : Nat) (r : ReadDone) (hk : Keeps q0 s) :
    Keeps q0 (collSource s o r) := by
  unfold collSource
  try dsimp only
  iterate 48 (all_goals (try first | (with_reducible first | exact hk | apply keeps_collsLost | apply keeps_contributeAll | apply keeps_modBnd | apply keeps_modOp | assumption | exact id | rfl | intro _ | apply keeps_ite) | split | (with_reducible apply Keeps.upd)))

theorem keeps_collResume (s : State) (o : Nat) (hk : Keeps q0 s) :
    Keeps q0 (collResume s o) := by
  unfold collResume
  try dsimp only
  iterate 48 (all_goals (try first | (with_reducible first | exact hk | apply keeps_bndTidy | apply keeps_collRead | apply keeps_foldl | apply keeps_memberResult | apply keeps_foldl_fst | assumption | exact id | rfl | intro _ | apply keeps_ite) | split | (with_reducible apply Keeps.upd)))

theorem keeps_bndInstall (s : State) (d : Die) (c : Nat) (old new : Option (List Byte)) (hk : Keeps q0 s) :
    Keeps q0 (bndInstall s d c old new) := by
  unfold bndInstall
  try dsimp only
  iterate 48 (all_goals (try first | (with_reducible first | exact hk | apply keeps_bndAbort | apply keeps_endSeqs | apply keeps_modBnd | assumption | exact id | rfl | intro _ | apply keeps_ite) | split | (with_reducible apply Keeps.upd)))

theorem keeps_enqueue (s : State) (d : Die) (eg stage : Nat) (p : Pkt) (hk : Keeps q0 s) :
    Keeps q0 (enqueue s d eg stage p) := by
  unfold enqueue
  try dsimp only
  iterate 48 (all_goals (try first | (with_reducible first | exact hk | apply keeps_onSch | assumption | exact id | rfl | intro _ | apply keeps_ite) | split | (with_reducible apply Keeps.upd)))

theorem keeps_rteDrop (s : State) (d : Die) (p : Pkt) (eg : Nat) (hk : Keeps q0 s) :
    Keeps q0 (rteDrop s d p eg) := by
  unfold rteDrop
  try dsimp only
  iterate 48 (all_goals (try first | (with_reducible first | exact hk | apply keeps_bumpReg | apply keeps_onRtr | apply keeps_pmc | apply keeps_postMgmt | assumption | exact id | rfl | intro _ | apply keeps_ite) | split | (with_reducible apply Keeps.upd)))

theorem keeps_sendHop (s : State) (d : Die) (asked : Option Bridge) (a0 : Hop) (a1 : Pkt) (hk : Keeps q0 s) :
    Keeps q0 (sendHop s d asked a0 a1) := by
  unfold sendHop
  try dsimp only
  iterate 48 (all_goals (try first | (with_reducible first | exact hk | apply keeps_emit | apply keeps_enqueue | apply keeps_rteDrop | assumption | exact id | rfl | intro _ | apply keeps_ite) | split | (with_reducible apply Keeps.upd)))

theorem keeps_setFlow (s : State) (d : Die) (f : FlowId) (x : Flow) (hk : Keeps q0 s) :
    Keeps q0 (setFlow s d f x) := by
  unfold setFlow
  try dsimp only
  iterate 48 (all_goals (try first | (with_reducible first | exact hk | apply keeps_onRtr | assumption | exact id | rfl | intro _ | apply keeps_ite) | split | (with_reducible apply Keeps.upd)))

theorem keeps_flowRoom (s : State) (d : Die) (hk : Keeps q0 s) :
    KeepsOpt q0 (flowRoom s d) := by
  unfold flowRoom
  try dsimp only
  iterate 48 (all_goals (try first | (with_reducible first | exact hk | apply keeps_onRtr | apply keepsOpt_some | apply keepsOpt_ite | assumption | exact id | rfl | intro _ | apply keeps_ite | apply keepsOpt_some | exact keepsOpt_none | apply keepsOpt_ite) | split | (with_reducible apply Keeps.upd)))
theorem keeps_flowRoom_eq {s : State}  {d : Die} {t : State} (he : flowRoom s d = some t) (hk : Keeps q0 s) : Keeps q0 t := by
  have := keeps_flowRoom s d hk; rw [he] at this; exact this

theorem keeps_numberPkt (s : State) (d : Die) (p : Pkt) (hk : Keeps q0 s) :
    Keeps q0 (numberPkt s d p).1 := by
  unfold numberPkt
  try dsimp only
  iterate 48 (all_goals (try first | (with_reducible first | exact hk | apply keeps_flowRoom | apply keeps_pmc | apply keeps_setFlow | refine keeps_flowRoom_eq (by assumption) ?_ | assumption | exact id | rfl | intro _ | apply keeps_ite) | split | (with_reducible apply Keeps.upd)))
theorem keeps_numberPkt_eq {s : State}  {d : Die}  {p : Pkt} {t0 : State} {b0 : Pkt} (he : numberPkt s d p = (t0, b0)) (hk : Keeps q0 s) : Keeps q0 t0 := by
  have := keeps_numberPkt s d p hk; rw [he] at this; exact this

theorem keeps_draw (s : State) (d : Die) (hk : Keeps q0 s) :
    Keeps q0 (draw s d).2 := by
  unfold draw
  try dsimp only
  iterate 48 (all_goals (try first | (with_reducible first | exact hk | apply keeps_onRtr | assumption | exact id | rfl | intro _ | apply keeps_ite) | split | (with_reducible apply Keeps.upd)))
theorem keeps_draw_eq {s : State}  {d : Die} {t0 : State} {b0 : Nat} (he : draw s d = (b0, t0)) (hk : Keeps q0 s) : Keeps q0 t0 := by
  have := keeps_draw s d hk; rw [he] at this; exact this

theorem keeps_routeDet (s : State) (d : Die) (p : Pkt) (hk : Keeps q0 s) :
    Keeps q0 (routeDet s d p) := by
  unfold routeDet
  try dsimp only
  iterate 48 (all_goals (try first | (with_reducible first | exact hk | apply keeps_pmc | apply keeps_rteDrop | apply keeps_sendHop | assumption | exact id | rfl | intro _ | apply keeps_ite) | split | (with_reducible apply Keeps.upd)))

theorem keeps_sendEdge (s : State) (d : Die) (p : Pkt) (hk : Keeps q0 s) :
    Keeps q0 (sendEdge s d p) := by
  unfold sendEdge
  try dsimp only
  iterate 48 (all_goals (try first | (with_reducible first | exact hk | apply keeps_enqueue | apply keeps_rteDrop | apply keeps_sendHop | assumption | exact id | rfl | intro _ | apply keeps_ite) | split | (with_reducible apply Keeps.upd)))

theorem keeps_routeBnd (s : State) (d : Die) (p : Pkt) (b : BndPkt) (hk : Keeps q0 s) :
    Keeps q0 (routeBnd s d p b) := by
  unfold routeBnd
  try dsimp only
  iterate 48 (all_goals (try first | (with_reducible first | exact hk | apply keeps_routeDet | apply keeps_sendEdge | assumption | exact id | rfl | intro _ | apply keeps_ite) | split | (with_reducible apply Keeps.upd)))

theorem keeps_routeSpray (s : State) (d : Die) (p : Pkt) (hk : Keeps q0 s) :
    Keeps q0 (routeSpray s d p) := by
  unfold routeSpray
  try dsimp only
  iterate 48 (all_goals (try first | (with_reducible first | exact hk | apply keeps_draw | apply keeps_pmc | apply keeps_routeDet | apply keeps_sendHop | refine keeps_draw_eq (by assumption) ?_ | assumption | exact id | rfl | intro _ | apply keeps_ite) | split | (with_reducible apply Keeps.upd)))

theorem keeps_refuseAbsent (s : State) (d : Die) (p : Pkt) (hk : Keeps q0 s) :
    Keeps q0 (refuseAbsent s d p) := by
  unfold refuseAbsent
  try dsimp only
  iterate 48 (all_goals (try first | (with_reducible first | exact hk | apply keeps_failConn | apply keeps_rteDrop | assumption | exact id | rfl | intro _ | apply keeps_ite) | split | (with_reducible apply Keeps.upd)))

theorem keeps_flumeOutPort (s : State) (d : Die) (p : Pkt) (port : Nat) (hk : Keeps q0 s) :
    Keeps q0 (flumeOutPort s d p port) := by
  unfold flumeOutPort
  try dsimp only
  iterate 48 (all_goals (try first | (with_reducible first | exact hk | apply keeps_enqueue | apply keeps_rteDrop | assumption | exact id | rfl | intro _ | apply keeps_ite) | split | (with_reducible apply Keeps.upd)))

theorem keeps_routeSource (s : State) (d : Die) (p : Pkt) (hk : Keeps q0 s) :
    Keeps q0 (routeSource s d p) := by
  unfold routeSource
  try dsimp only
  iterate 48 (all_goals (try first | (with_reducible first | exact hk | apply keeps_emit | apply keeps_flumeOutPort | apply keeps_numberPkt | apply keeps_refuseAbsent | apply keeps_routeBnd | apply keeps_routeDet | apply keeps_routeSpray | refine keeps_numberPkt_eq (by assumption) ?_ | assumption | exact id | rfl | intro _ | apply keeps_ite) | split | (with_reducible apply Keeps.upd)))

theorem keeps_execPacketRouteSource (d : Die) (p : Pkt) (s : State) (hk : Keeps q0 s) :
    KeepsOut q0 (execPacketRouteSource d p s) := by
  unfold execPacketRouteSource
  try dsimp only
  iterate 48 (all_goals (try first | (with_reducible first | exact hk | apply keeps_routeSource | apply keepsOut_next | assumption | exact id | rfl | intro _ | apply keeps_ite | apply keepsOut_next | apply keepsOut_ite) | split | (with_reducible apply Keeps.upd)))

theorem keeps_execCooldownExpiry (d : Die) (f : FlowId) (s : State) (hk : Keeps q0 s) :
    KeepsOut q0 (execCooldownExpiry d f s) := by
  unfold execCooldownExpiry
  try dsimp only
  iterate 48 (all_goals (try first | (with_reducible first | exact hk | apply keeps_setFlow | apply keepsOut_next | apply keepsOut_ite | assumption | exact id | rfl | intro _ | apply keeps_ite | apply keepsOut_next | apply keepsOut_ite) | split | (with_reducible apply Keeps.upd)))

theorem keeps_execFlowStateRetire (d : Die) (f : FlowId) (s : State) (hk : Keeps q0 s) :
    KeepsOut q0 (execFlowStateRetire d f s) := by
  unfold execFlowStateRetire
  try dsimp only
  iterate 48 (all_goals (try first | (with_reducible first | exact hk | apply keeps_setFlow | apply keepsOut_next | apply keepsOut_ite | assumption | exact id | rfl | intro _ | apply keeps_ite | apply keepsOut_next | apply keepsOut_ite) | split | (with_reducible apply Keeps.upd)))

theorem keeps_execBoomNoticeReceive (d : Die) (p : Pkt) (s : State) (hk : Keeps q0 s) :
    KeepsOut q0 (execBoomNoticeReceive d p s) := by
  unfold execBoomNoticeReceive
  try dsimp only
  iterate 48 (all_goals (try first | (with_reducible first | exact hk | apply keeps_flowRoom | apply keeps_pmc | apply keeps_setFlow | apply keepsOut_next | apply keepsOut_ite | refine keeps_flowRoom_eq (by assumption) ?_ | assumption | exact id | rfl | intro _ | apply keeps_ite | apply keepsOut_next | apply keepsOut_ite) | split | (with_reducible apply Keeps.upd)))

theorem keeps_setBoom (s : State) (d : Die) (src tc : Nat) (f : BoomFlow) (hk : Keeps q0 s) :
    Keeps q0 (setBoom s d src tc f) := by
  unfold setBoom
  try dsimp only
  iterate 48 (all_goals (try first | (with_reducible first | exact hk | apply keeps_onRtr | assumption | exact id | rfl | intro _ | apply keeps_ite) | split | (with_reducible apply Keeps.upd)))

theorem keeps_boomDeliver (s : State) (d : Die) (p : Pkt) (hk : Keeps q0 s) :
    Keeps q0 (boomDeliver s d p) := by
  unfold boomDeliver
  try dsimp only
  iterate 48 (all_goals (try first | (with_reducible first | exact hk | apply keeps_emit | assumption | exact id | rfl | intro _ | apply keeps_ite) | split | (with_reducible apply Keeps.upd)))

theorem keeps_boomNotice (s : State) (d : Die) (src tc : Nat) (hk : Keeps q0 s) :
    Keeps q0 (boomNotice s d src tc) := by
  unfold boomNotice
  try dsimp only
  iterate 48 (all_goals (try first | (with_reducible first | exact hk | apply keeps_emit | apply keeps_onRtr | apply keeps_pmc | assumption | exact id | rfl | intro _ | apply keeps_ite) | split | (with_reducible apply Keeps.upd)))

theorem keeps_boomRun (k : Nat) (s : State) (a0 : Die) (a1 : Nat) (a2 : Nat) (hk : Keeps q0 s) : Keeps q0 (boomRun k s a0 a1 a2) := by
  induction k generalizing s a0 a1 a2 with
  | zero => exact hk
  | succ k ih =>
    unfold boomRun
    try dsimp only
    iterate 48 (all_goals (try first | (with_reducible first | exact hk | apply ih | apply keeps_boomDeliver | apply keeps_setBoom | apply keeps_foldl | apply keeps_foldl_fst | assumption | exact id | rfl | intro _ | apply keeps_ite) | split | (with_reducible apply Keeps.upd)))

theorem keeps_boomHold (s : State) (d : Die) (p : Pkt) (hk : Keeps q0 s) :
    Keeps q0 (boomHold s d p) := by
  unfold boomHold
  try dsimp only
  iterate 48 (all_goals (try first | (with_reducible first | exact hk | apply keeps_boomNotice | apply keeps_bumpReg | apply keeps_pmc | apply keeps_setBoom | assumption | exact id | rfl | intro _ | apply keeps_ite) | split | (with_reducible apply Keeps.upd)))

theorem keeps_boomLate (s : State) (d : Die) (p : Pkt) (hk : Keeps q0 s) :
    Keeps q0 (boomLate s d p) := by
  unfold boomLate
  try dsimp only
  iterate 48 (all_goals (try first | (with_reducible first | exact hk | apply keeps_boomDeliver | apply keeps_bumpReg | apply keeps_pmc | assumption | exact id | rfl | intro _ | apply keeps_ite) | split | (with_reducible apply Keeps.upd)))

theorem keeps_boomWindow (s : State) (d : Die) (p : Pkt) (hk : Keeps q0 s) :
    Keeps q0 (boomWindow s d p) := by
  unfold boomWindow
  try dsimp only
  iterate 48 (all_goals (try first | (with_reducible first | exact hk | apply keeps_boomDeliver | apply keeps_boomHold | apply keeps_boomLate | apply keeps_boomNotice | apply keeps_boomRun | apply keeps_bumpReg | apply keeps_pmc | apply keeps_setBoom | assumption | exact id | rfl | intro _ | apply keeps_ite) | split | (with_reducible apply Keeps.upd)))

theorem keeps_boomEntry (s : State) (d : Die) (hk : Keeps q0 s) :
    KeepsOpt q0 (boomEntry s d) := by
  unfold boomEntry
  try dsimp only
  iterate 48 (all_goals (try first | (with_reducible first | exact hk | apply keeps_foldl | apply keeps_onRtr | apply keeps_foldl_fst | apply keepsOpt_some | apply keepsOpt_ite | assumption | exact id | rfl | intro _ | apply keeps_ite | apply keepsOpt_some | exact keepsOpt_none | apply keepsOpt_ite) | split | (with_reducible apply Keeps.upd)))
theorem keeps_boomEntry_eq {s : State}  {d : Die} {t : State} (he : boomEntry s d = some t) (hk : Keeps q0 s) : Keeps q0 t := by
  have := keeps_boomEntry s d hk; rw [he] at this; exact this

theorem keeps_boomSince (s : State) (d : Die) (src tc : Nat) (old : List (Nat × Nat × Pkt)) (hk : Keeps q0 s) :
    Keeps q0 (boomSince s d src tc old) := by
  unfold boomSince
  try dsimp only
  iterate 48 (all_goals (try first | (with_reducible first | exact hk | apply keeps_setBoom | assumption | exact id | rfl | intro _ | apply keeps_ite) | split | (with_reducible apply Keeps.upd)))

theorem keeps_boomArrive (s : State) (d : Die) (p : Pkt) (hk : Keeps q0 s) :
    Keeps q0 (boomArrive s d p) := by
  unfold boomArrive
  try dsimp only
  iterate 48 (all_goals (try first | (with_reducible first | exact hk | apply keeps_boomDeliver | apply keeps_boomEntry | apply keeps_boomHold | apply keeps_boomLate | apply keeps_boomNotice | apply keeps_boomSince | apply keeps_boomWindow | apply keeps_bumpReg | apply keeps_foldl | apply keeps_pmc | apply keeps_setBoom | apply keeps_foldl_fst | refine keeps_boomEntry_eq (by assumption) ?_ | assumption | exact id | rfl | intro _ | apply keeps_ite) | split | (with_reducible apply Keeps.upd)))

theorem keeps_execBoomArrival (d : Die) (p : Pkt) (s : State) (hk : Keeps q0 s) :
    KeepsOut q0 (execBoomArrival d p s) := by
  unfold execBoomArrival
  try dsimp only
  iterate 48 (all_goals (try first | (with_reducible first | exact hk | apply keeps_boomArrive | apply keepsOut_next | apply keepsOut_ite | assumption | exact id | rfl | intro _ | apply keeps_ite | apply keepsOut_next | apply keepsOut_ite) | split | (with_reducible apply Keeps.upd)))

theorem keeps_boomSkip (s : State) (d : Die) (src tc : Nat) (hk : Keeps q0 s) :
    Keeps q0 (boomSkip s d src tc) := by
  unfold boomSkip
  try dsimp only
  iterate 48 (all_goals (try first | (with_reducible first | exact hk | apply keeps_boomDeliver | apply keeps_boomNotice | apply keeps_boomRun | apply keeps_bumpReg | apply keeps_foldl | apply keeps_pmc | apply keeps_setBoom | apply keeps_foldl_fst | assumption | exact id | rfl | intro _ | apply keeps_ite) | split | (with_reducible apply Keeps.upd)))

theorem keeps_execBoomHoldTimeout (d : Die) (src tc : Nat) (s : State) (hk : Keeps q0 s) :
    KeepsOut q0 (execBoomHoldTimeout d src tc s) := by
  unfold execBoomHoldTimeout
  try dsimp only
  iterate 48 (all_goals (try first | (with_reducible first | exact hk | apply keeps_boomSkip | apply keepsOut_next | apply keepsOut_ite | assumption | exact id | rfl | intro _ | apply keeps_ite | apply keepsOut_next | apply keepsOut_ite) | split | (with_reducible apply Keeps.upd)))

theorem keeps_execBoomEntryIdle (d : Die) (src tc : Nat) (s : State) (hk : Keeps q0 s) :
    KeepsOut q0 (execBoomEntryIdle d src tc s) := by
  unfold execBoomEntryIdle
  try dsimp only
  iterate 48 (all_goals (try first | (with_reducible first | exact hk | apply keeps_setBoom | apply keepsOut_next | apply keepsOut_ite | assumption | exact id | rfl | intro _ | apply keeps_ite | apply keepsOut_next | apply keepsOut_ite) | split | (with_reducible apply Keeps.upd)))

theorem keeps_sendFrame (s : State) (d : Die) (k fsn : Nat) (retx empty : Bool) (chan : Nat) (slots : List (Bool × Block)) (hk : Keeps q0 s) :
    Keeps q0 (sendFrame s d k fsn retx empty chan slots) := by
  unfold sendFrame
  try dsimp only
  iterate 48 (all_goals (try first | (with_reducible first | exact hk | apply keeps_emit | apply keeps_modLink | apply keeps_pmcAt | apply keeps_pmc | assumption | exact id | rfl | intro _ | apply keeps_ite) | split | (with_reducible apply Keeps.upd)))

theorem keeps_sendSlots (s : State) (d : Die) (k chan : Nat) (l : List (Bool × Block)) (hk : Keeps q0 s) :
    Keeps q0 (sendSlots s d k chan l) := by
  unfold sendSlots
  try dsimp only
  iterate 48 (all_goals (try first | (with_reducible first | exact hk | apply keeps_modLink | apply keeps_sendFrame | assumption | exact id | rfl | intro _ | apply keeps_ite) | split | (with_reducible apply Keeps.upd)))

theorem keeps_sendEmpty (s : State) (d : Die) (k : Nat) (hk : Keeps q0 s) :
    Keeps q0 (sendEmpty s d k) := by
  unfold sendEmpty
  try dsimp only
  iterate 48 (all_goals (try first | (with_reducible first | exact hk | apply keeps_sendFrame | assumption | exact id | rfl | intro _ | apply keeps_ite) | split | (with_reducible apply Keeps.upd)))

theorem keeps_resendFrame (s : State) (d : Die) (k : Nat) (f : TxFrame) (byTimeout : Bool) (hk : Keeps q0 s) :
    Keeps q0 (resendFrame s d k f byTimeout) := by
  unfold resendFrame
  try dsimp only
  iterate 48 (all_goals (try first | (with_reducible first | exact hk | apply keeps_modLink | apply keeps_pmcAt | apply keeps_sendFrame | apply keeps_pmc | assumption | exact id | rfl | intro _ | apply keeps_ite) | split | (with_reducible apply Keeps.upd)))

theorem keeps_txFrame (s : State) (d : Die) (k : Nat) (hk : Keeps q0 s) :
    Keeps q0 (txFrame s d k) := by
  unfold txFrame
  try dsimp only
  iterate 48 (all_goals (try first | (with_reducible first | exact hk | apply keeps_modLink | apply keeps_onSch | apply keeps_sendEmpty | apply keeps_sendSlots | assumption | exact id | rfl | intro _ | apply keeps_ite) | split | (with_reducible apply Keeps.upd)))

theorem keeps_putFlits (s : State) (d : Die) (k : Nat) (l : List Block) (hk : Keeps q0 s) :
    Keeps q0 (putFlits s d k l) := by
  unfold putFlits
  try dsimp only
  iterate 48 (all_goals (try first | (with_reducible first | exact hk | apply keeps_modLink | apply keeps_txFrame | assumption | exact id | rfl | intro _ | apply keeps_ite) | split | (with_reducible apply Keeps.upd)))

theorem keeps_clearQueues (s : State) (d : Die) (eg : Nat) (flume : Bool) (hk : Keeps q0 s) :
    Keeps q0 (clearQueues s d eg flume) := by
  unfold clearQueues
  try dsimp only
  iterate 48 (all_goals (try first | (with_reducible first | exact hk | apply keeps_onSch | assumption | exact id | rfl | intro _ | apply keeps_ite) | split | (with_reducible apply Keeps.upd)))

theorem keeps_rechoose (s : State) (d : Die) (eg : Nat) (p : Pkt) (hk : Keeps q0 s) :
    Keeps q0 (rechoose s d eg p) := by
  unfold rechoose
  try dsimp only
  iterate 48 (all_goals (try first | (with_reducible first | exact hk | apply keeps_routeDet | apply keeps_routeSpray | apply keeps_rteDrop | assumption | exact id | rfl | intro _ | apply keeps_ite) | split | (with_reducible apply Keeps.upd)))

theorem keeps_reroute (s : State) (d : Die) (eg name : Nat) (flume : Bool) (hk : Keeps q0 s) :
    Keeps q0 (reroute s d eg name flume) := by
  unfold reroute
  try dsimp only
  iterate 48 (all_goals (try first | (with_reducible first | exact hk | apply keeps_clearQueues | apply keeps_foldl | apply keeps_rechoose | apply keeps_foldl_fst | assumption | exact id | rfl | intro _ | apply keeps_ite) | split | (with_reducible apply Keeps.upd)))

theorem keeps_cutBegun (s : State) (d : Die) (k : Nat) (hk : Keeps q0 s) :
    Keeps q0 (cutBegun s d k) := by
  unfold cutBegun
  try dsimp only
  iterate 48 (all_goals (try first | (with_reducible first | exact hk | apply keeps_modLink | assumption | exact id | rfl | intro _ | apply keeps_ite) | split | (with_reducible apply Keeps.upd)))

theorem keeps_linkGo (s : State) (d : Die) (k : Nat) (st : LinkSt) (cause : Nat) (hk : Keeps q0 s) :
    Keeps q0 (linkGo s d k st cause) := by
  unfold linkGo
  try dsimp only
  iterate 48 (all_goals (try first | (with_reducible first | exact hk | apply keeps_bndEdges | apply keeps_clearQueues | apply keeps_cutBegun | apply keeps_emit | apply keeps_modLink | apply keeps_postMgmt | apply keeps_raiseLocal | apply keeps_reroute | assumption | exact id | rfl | intro _ | apply keeps_ite) | split | (with_reducible apply Keeps.upd)))

theorem keeps_linkTrain (s : State) (d : Die) (k : Nat) (hk : Keeps q0 s) :
    Keeps q0 (linkTrain s d k) := by
  unfold linkTrain
  try dsimp only
  iterate 48 (all_goals (try first | (with_reducible first | exact hk | apply keeps_linkGo | assumption | exact id | rfl | intro _ | apply keeps_ite) | split | (with_reducible apply Keeps.upd)))

theorem keeps_linkFault (s : State) (d : Die) (k cause : Nat) (hk : Keeps q0 s) :
    Keeps q0 (linkFault s d k cause) := by
  unfold linkFault
  try dsimp only
  iterate 48 (all_goals (try first | (with_reducible first | exact hk | apply keeps_linkGo | apply keeps_modLink | assumption | exact id | rfl | intro _ | apply keeps_ite) | split | (with_reducible apply Keeps.upd)))

theorem keeps_linkAdmit (s : State) (d : Die) (k : Nat) (hk : Keeps q0 s) :
    Keeps q0 (linkAdmit s d k) := by
  unfold linkAdmit
  try dsimp only
  iterate 48 (all_goals (try first | (with_reducible first | exact hk | apply keeps_linkGo | apply keeps_postMgmt | assumption | exact id | rfl | intro _ | apply keeps_ite) | split | (with_reducible apply Keeps.upd)))

theorem keeps_linksJudge (s : State) (d : Die) (hk : Keeps q0 s) :
    Keeps q0 (linksJudge s d) := by
  unfold linksJudge
  try dsimp only
  iterate 48 (all_goals (try first | (with_reducible first | exact hk | apply keeps_foldl | apply keeps_linkGo | apply keeps_foldl_fst | assumption | exact id | rfl | intro _ | apply keeps_ite) | split | (with_reducible apply Keeps.upd)))

theorem keeps_offence (s : State) (d : Die) (k : Nat) (hk : Keeps q0 s) :
    Keeps q0 (offence s d k) := by
  unfold offence
  try dsimp only
  iterate 48 (all_goals (try first | (with_reducible first | exact hk | apply keeps_linkGo | apply keeps_modLink | apply keeps_postMgmt | apply keeps_raiseLocal | assumption | exact id | rfl | intro _ | apply keeps_ite) | split | (with_reducible apply Keeps.upd)))

theorem keeps_badFrame (s : State) (d : Die) (k : Nat) (hk : Keeps q0 s) :
    Keeps q0 (badFrame s d k) := by
  unfold badFrame
  try dsimp only
  iterate 48 (all_goals (try first | (with_reducible first | exact hk | apply keeps_linkFault | apply keeps_modLink | assumption | exact id | rfl | intro _ | apply keeps_ite) | split | (with_reducible apply Keeps.upd)))

theorem keeps_corrected (s : State) (d : Die) (k n : Nat) (hk : Keeps q0 s) :
    Keeps q0 (corrected s d k n) := by
  unfold corrected
  try dsimp only
  iterate 48 (all_goals (try first | (with_reducible first | exact hk | apply keeps_modLink | apply keeps_postMgmt | assumption | exact id | rfl | intro _ | apply keeps_ite) | split | (with_reducible apply Keeps.upd)))

theorem keeps_takeSummary (s : State) (d : Die) (k : Nat) (b : Block) (hk : Keeps q0 s) :
    Keeps q0 (takeSummary s d k b) := by
  unfold takeSummary
  try dsimp only
  iterate 48 (all_goals (try first | (with_reducible first | exact hk | apply keeps_emit | apply keeps_modLink | assumption | exact id | rfl | intro _ | apply keeps_ite) | split | (with_reducible apply Keeps.upd)))

theorem keeps_takeFlit (s : State) (d : Die) (k : Nat) (retx : Bool) (at_ : Nat) (b : Block) (hk : Keeps q0 s) :
    Keeps q0 (takeFlit s d k retx at_ b) := by
  unfold takeFlit
  try dsimp only
  iterate 48 (all_goals (try first | (with_reducible first | exact hk | apply keeps_emit | apply keeps_takeSummary | assumption | exact id | rfl | intro _ | apply keeps_ite) | split | (with_reducible apply Keeps.upd)))

theorem keeps_deliverFrame (s : State) (d : Die) (k : Nat) (f : RxFrame) (hk : Keeps q0 s) :
    Keeps q0 (deliverFrame s d k f).1 := by
  unfold deliverFrame
  try dsimp only
  iterate 48 (all_goals (try first | (with_reducible first | exact hk | apply keeps_emit | apply keeps_foldl | apply keeps_modLink | apply keeps_offence | apply keeps_pmcAt | apply keeps_takeFlit | apply keeps_foldl_fst | apply keeps_pmc | assumption | exact id | rfl | intro _ | apply keeps_ite) | split | (with_reducible apply Keeps.upd)))
theorem keeps_deliverFrame_eq {s : State}  {d : Die}  {k : Nat}  {f : RxFrame} {t0 : State} {b0 : Bool} (he : deliverFrame s d k f = (t0, b0)) (hk : Keeps q0 s) : Keeps q0 t0 := by
  have := keeps_deliverFrame s d k f hk; rw [he] at this; exact this

theorem keeps_drainFrames (k : Nat) (s : State) (a0 : Die) (a1 : Nat) (hk : Keeps q0 s) : Keeps q0 (drainFrames k s a0 a1) := by
  induction k generalizing s a0 a1 with
  | zero => exact hk
  | succ k ih =>
    unfold drainFrames
    try dsimp only
    iterate 48 (all_goals (try first | (with_reducible first | exact hk | apply ih | apply keeps_deliverFrame | apply keeps_modLink | refine keeps_deliverFrame_eq (by assumption) ?_ | apply keeps_foldl | apply keeps_foldl_fst | assumption | exact id | rfl | intro _ | apply keeps_ite) | split | (with_reducible apply Keeps.upd)))

theorem keeps_frameControl (s : State) (d : Die) (k : Nat) (f : Frame) (hk : Keeps q0 s) :
    Keeps q0 (frameControl s d k f) := by
  unfold frameControl
  try dsimp only
  iterate 48 (all_goals (try first | (with_reducible first | exact hk | apply keeps_foldl | apply keeps_modLink | apply keeps_offence | apply keeps_resendFrame | apply keeps_foldl_fst | assumption | exact id | rfl | intro _ | apply keeps_ite) | split | (with_reducible apply Keeps.upd)))

theorem keeps_countRuns (s : State) (d : Die) (k : Nat) (f : Frame) (hk : Keeps q0 s) :
    Keeps q0 (countRuns s d k f) := by
  unfold countRuns
  try dsimp only
  iterate 48 (all_goals (try first | (with_reducible first | exact hk | apply keeps_linkFault | apply keeps_modLink | assumption | exact id | rfl | intro _ | apply keeps_ite) | split | (with_reducible apply Keeps.upd)))

theorem keeps_frameAhead (s : State) (d : Die) (k : Nat) (f : RxFrame) (hk : Keeps q0 s) :
    Keeps q0 (frameAhead s d k f) := by
  unfold frameAhead
  try dsimp only
  iterate 48 (all_goals (try first | (with_reducible first | exact hk | apply keeps_foldl | apply keeps_modLink | apply keeps_foldl_fst | assumption | exact id | rfl | intro _ | apply keeps_ite) | split | (with_reducible apply Keeps.upd)))

theorem keeps_frameReceive (s : State) (d : Die) (k : Nat) (f : Frame) (hk : Keeps q0 s) :
    Keeps q0 (frameReceive s d k f) := by
  unfold frameReceive
  try dsimp only
  iterate 48 (all_goals (try first | (with_reducible first | exact hk | apply keeps_badFrame | apply keeps_corrected | apply keeps_countRuns | apply keeps_deliverFrame | apply keeps_drainFrames | apply keeps_frameAhead | apply keeps_frameControl | apply keeps_offence | apply keeps_pmcAt | apply keeps_pmc | apply keeps_modLink | refine keeps_deliverFrame_eq (by assumption) ?_ | assumption | exact id | rfl | intro _ | apply keeps_ite) | split | (with_reducible apply Keeps.upd)))

theorem keeps_execFrameReceive (d : Die) (k : Nat) (f : Frame) (s : State) (hk : Keeps q0 s) :
    KeepsOut q0 (execFrameReceive d k f s) := by
  unfold execFrameReceive
  try dsimp only
  iterate 48 (all_goals (try first | (with_reducible first | exact hk | apply keeps_frameReceive | apply keepsOut_next | apply keepsOut_ite | assumption | exact id | rfl | intro _ | apply keeps_ite | apply keepsOut_next | apply keepsOut_ite) | split | (with_reducible apply Keeps.upd)))

theorem keeps_execLinkRetxTimeout (d : Die) (k : Nat) (s : State) (hk : Keeps q0 s) :
    KeepsOut q0 (execLinkRetxTimeout d k s) := by
  unfold execLinkRetxTimeout
  try dsimp only
  iterate 48 (all_goals (try first | (with_reducible first | exact hk | apply keeps_foldl | apply keeps_linkFault | apply keeps_resendFrame | apply keeps_foldl_fst | apply keepsOut_next | apply keepsOut_ite | assumption | exact id | rfl | intro _ | apply keeps_ite | apply keepsOut_next | apply keepsOut_ite) | split | (with_reducible apply Keeps.upd)))

theorem keeps_dropMalformed (s : State) (d : Die) (at_ : Ingress) (_p : Pkt) (hk : Keeps q0 s) :
    Keeps q0 (dropMalformed s d at_ _p) := by
  unfold dropMalformed
  try dsimp only
  iterate 48 (all_goals (try first | (with_reducible first | exact hk | apply keeps_badFrame | apply keeps_bumpReg | apply keeps_offence | apply keeps_pmc | assumption | exact id | rfl | intro _ | apply keeps_ite) | split | (with_reducible apply Keeps.upd)))

theorem keeps_takeBridge (s : State) (d : Die) (p : Pkt) (a0 : Ingress) (hk : Keeps q0 s) :
    Keeps q0 (takeBridge s d p a0) := by
  unfold takeBridge
  try dsimp only
  iterate 48 (all_goals (try first | (with_reducible first | exact hk | apply keeps_modBrg | apply keeps_pmcAt | assumption | exact id | rfl | intro _ | apply keeps_ite) | split | (with_reducible apply Keeps.upd)))

theorem keeps_answerAbsent (s : State) (d : Die) (p : Pkt) (hk : Keeps q0 s) :
    Keeps q0 (answerAbsent s d p) := by
  unfold answerAbsent
  try dsimp only
  iterate 48 (all_goals (try first | (with_reducible first | exact hk | apply keeps_bounce | assumption | exact id | rfl | intro _ | apply keeps_ite) | split | (with_reducible apply Keeps.upd)))

theorem keeps_forwardPkt (s : State) (d : Die) (at_ : Ingress) (p : Pkt) (hk : Keeps q0 s) :
    Keeps q0 (forwardPkt s d at_ p) := by
  unfold forwardPkt
  try dsimp only
  iterate 48 (all_goals (try first | (with_reducible first | exact hk | apply keeps_answerAbsent | apply keeps_dropMalformed | apply keeps_emit | apply keeps_rteDrop | apply keeps_sendHop | apply keeps_bounce | apply keeps_pmc | apply keeps_bumpReg | assumption | exact id | rfl | intro _ | apply keeps_ite) | split | (with_reducible apply Keeps.upd)))

theorem keeps_execPacketForward (d : Die) (from_ : Ingress) (p : Pkt) (s : State) (hk : Keeps q0 s) :
    KeepsOut q0 (execPacketForward d from_ p s) := by
  unfold execPacketForward
  try dsimp only
  iterate 48 (all_goals (try first | (with_reducible first | exact hk | apply keeps_forwardPkt | apply keeps_takeBridge | apply keepsOut_next | assumption | exact id | rfl | intro _ | apply keeps_ite | apply keepsOut_next | apply keepsOut_ite) | split | (with_reducible apply Keeps.upd)))

theorem keeps_identReceive (s : State) (d : Die) (k : Nat) (m : Ident) (hk : Keeps q0 s) :
    Keeps q0 (identReceive s d k m) := by
  unfold identReceive
  try dsimp only
  iterate 48 (all_goals (try first | (with_reducible first | exact hk | apply keeps_linkAdmit | apply keeps_linkFault | apply keeps_modLink | assumption | exact id | rfl | intro _ | apply keeps_ite) | split | (with_reducible apply Keeps.upd)))

theorem keeps_execIdentReceive (d : Die) (k : Nat) (m : Ident) (s : State) (hk : Keeps q0 s) :
    KeepsOut q0 (execIdentReceive d k m s) := by
  unfold execIdentReceive
  try dsimp only
  iterate 48 (all_goals (try first | (with_reducible first | exact hk | apply keeps_identReceive | apply keepsOut_next | assumption | exact id | rfl | intro _ | apply keeps_ite | apply keepsOut_next | apply keepsOut_ite) | split | (with_reducible apply Keeps.upd)))

theorem keeps_execIdentSend (d : Die) (k : Nat) (s : State) (hk : Keeps q0 s) :
    KeepsOut q0 (execIdentSend d k s) := by
  unfold execIdentSend
  try dsimp only
  iterate 48 (all_goals (try first | (with_reducible first | exact hk | apply keeps_modLink | apply keeps_putFlits | apply keeps_emit | apply keepsOut_next | apply keepsOut_ite | assumption | exact id | rfl | intro _ | apply keeps_ite | apply keepsOut_next | apply keepsOut_ite) | split | (with_reducible apply Keeps.upd)))

theorem keeps_identsChanged (s : State) (d : Die) (hk : Keeps q0 s) :
    Keeps q0 (identsChanged s d) := by
  unfold identsChanged
  try dsimp only
  iterate 48 (all_goals (try first | (with_reducible first | exact hk | apply keeps_foldl | apply keeps_modLink | apply keeps_foldl_fst | assumption | exact id | rfl | intro _ | apply keeps_ite) | split | (with_reducible apply Keeps.upd)))

theorem keeps_execOnoffReceive (d : Die) (k mask : Nat) (s : State) (hk : Keeps q0 s) :
    KeepsOut q0 (execOnoffReceive d k mask s) := by
  unfold execOnoffReceive
  try dsimp only
  iterate 48 (all_goals (try first | (with_reducible first | exact hk | apply keeps_modLink | apply keepsOut_next | apply keepsOut_ite | assumption | exact id | rfl | intro _ | apply keeps_ite | apply keepsOut_next | apply keepsOut_ite) | split | (with_reducible apply Keeps.upd)))

theorem keeps_execOnoffSend (d : Die) (k : Nat) (waits : List Nat) (s : State) (hk : Keeps q0 s) :
    KeepsOut q0 (execOnoffSend d k waits s) := by
  unfold execOnoffSend
  try dsimp only
  iterate 48 (all_goals (try first | (with_reducible first | exact hk | apply keeps_modLink | apply keeps_putFlits | apply keeps_emit | apply keepsOut_next | apply keepsOut_ite | assumption | exact id | rfl | intro _ | apply keeps_ite | apply keepsOut_next | apply keepsOut_ite) | split | (with_reducible apply Keeps.upd)))

theorem keeps_execLaneSignalLoss (d : Die) (k lane : Nat) (lock : Bool) (s : State) (hk : Keeps q0 s) :
    KeepsOut q0 (execLaneSignalLoss d k lane lock s) := by
  unfold execLaneSignalLoss
  try dsimp only
  iterate 48 (all_goals (try first | (with_reducible first | exact hk | apply keeps_getD | apply keeps_linkFault | apply keeps_modLink | apply keepsOut_next | apply keepsOut_ite | assumption | exact id | rfl | intro _ | apply keeps_ite | apply keepsOut_next | apply keepsOut_ite) | split | (with_reducible apply Keeps.upd)))

theorem keeps_execLaneSignalDetect (d : Die) (k : Nat) (s : State) (hk : Keeps q0 s) :
    KeepsOut q0 (execLaneSignalDetect d k s) := by
  unfold execLaneSignalDetect
  try dsimp only
  iterate 48 (all_goals (try first | (with_reducible first | exact hk | apply keeps_modLink | apply keepsOut_next | apply keepsOut_ite | assumption | exact id | rfl | intro _ | apply keeps_ite | apply keepsOut_next | apply keepsOut_ite) | split | (with_reducible apply Keeps.upd)))

theorem keeps_execLinkRxReady (d : Die) (k : Nat) (r : RxReady) (s : State) (hk : Keeps q0 s) :
    KeepsOut q0 (execLinkRxReady d k r s) := by
  unfold execLinkRxReady
  try dsimp only
  iterate 48 (all_goals (try first | (with_reducible first | exact hk | apply keeps_emit | apply keeps_modLink | apply keepsOut_next | apply keepsOut_ite | assumption | exact id | rfl | intro _ | apply keeps_ite | apply keepsOut_next | apply keepsOut_ite) | split | (with_reducible apply Keeps.upd)))

theorem keeps_execLinkAlignDone (d : Die) (k : Nat) (starts : List Nat) (s : State) (hk : Keeps q0 s) :
    KeepsOut q0 (execLinkAlignDone d k starts s) := by
  unfold execLinkAlignDone
  try dsimp only
  iterate 48 (all_goals (try first | (with_reducible first | exact hk | apply keeps_modLink | apply keepsOut_next | apply keepsOut_ite | assumption | exact id | rfl | intro _ | apply keeps_ite | apply keepsOut_next | apply keepsOut_ite) | split | (with_reducible apply Keeps.upd)))

theorem keeps_execTrainTimeout (d : Die) (k : Nat) (s : State) (hk : Keeps q0 s) :
    KeepsOut q0 (execTrainTimeout d k s) := by
  unfold execTrainTimeout
  try dsimp only
  iterate 48 (all_goals (try first | (with_reducible first | exact hk | apply keeps_linkFault | apply keepsOut_next | apply keepsOut_ite | assumption | exact id | rfl | intro _ | apply keeps_ite | apply keepsOut_next | apply keepsOut_ite) | split | (with_reducible apply Keeps.upd)))

theorem keeps_execNoSignalTimeout (d : Die) (k : Nat) (s : State) (hk : Keeps q0 s) :
    KeepsOut q0 (execNoSignalTimeout d k s) := by
  unfold execNoSignalTimeout
  try dsimp only
  iterate 48 (all_goals (try first | (with_reducible first | exact hk | apply keeps_linkGo | apply keepsOut_next | apply keepsOut_ite | assumption | exact id | rfl | intro _ | apply keeps_ite | apply keepsOut_next | apply keepsOut_ite) | split | (with_reducible apply Keeps.upd)))

theorem keeps_execNoSignalRetry (d : Die) (k : Nat) (s : State) (hk : Keeps q0 s) :
    KeepsOut q0 (execNoSignalRetry d k s) := by
  unfold execNoSignalRetry
  try dsimp only
  iterate 48 (all_goals (try first | (with_reducible first | exact hk | apply keeps_linkTrain | apply keepsOut_next | apply keepsOut_ite | assumption | exact id | rfl | intro _ | apply keeps_ite | apply keepsOut_next | apply keepsOut_ite) | split | (with_reducible apply Keeps.upd)))

theorem keeps_execLinkQuietEnd (d : Die) (k : Nat) (s : State) (hk : Keeps q0 s) :
    KeepsOut q0 (execLinkQuietEnd d k s) := by
  unfold execLinkQuietEnd
  try dsimp only
  iterate 48 (all_goals (try first | (with_reducible first | exact hk | apply keeps_linkTrain | apply keepsOut_next | apply keepsOut_ite | assumption | exact id | rfl | intro _ | apply keeps_ite | apply keepsOut_next | apply keepsOut_ite) | split | (with_reducible apply Keeps.upd)))

theorem keeps_execLinkDrainEnd (d : Die) (k : Nat) (s : State) (hk : Keeps q0 s) :
    KeepsOut q0 (execLinkDrainEnd d k s) := by
  unfold execLinkDrainEnd
  try dsimp only
  iterate 48 (all_goals (try first | (with_reducible first | exact hk | apply keeps_linkGo | apply keepsOut_next | apply keepsOut_ite | assumption | exact id | rfl | intro _ | apply keeps_ite | apply keepsOut_next | apply keepsOut_ite) | split | (with_reducible apply Keeps.upd)))

theorem keeps_linkExtest (s : State) (d : Die) (k : Nat) (hk : Keeps q0 s) :
    Keeps q0 (linkExtest s d k) := by
  unfold linkExtest
  try dsimp only
  iterate 48 (all_goals (try first | (with_reducible first | exact hk | apply keeps_linkFault | assumption | exact id | rfl | intro _ | apply keeps_ite) | split | (with_reducible apply Keeps.upd)))

theorem keeps_linkEnable (s : State) (d : Die) (k : Nat) (hk : Keeps q0 s) :
    KeepsOpt q0 (linkEnable s d k) := by
  unfold linkEnable
  try dsimp only
  iterate 48 (all_goals (try first | (with_reducible first | exact hk | apply keeps_linkTrain | apply keeps_modLink | apply keepsOpt_some | apply keepsOpt_ite | assumption | exact id | rfl | intro _ | apply keeps_ite | apply keepsOpt_some | exact keepsOpt_none | apply keepsOpt_ite) | split | (with_reducible apply Keeps.upd)))
theorem keeps_linkEnable_eq {s : State}  {d : Die}  {k : Nat} {t : State} (he : linkEnable s d k = some t) (hk : Keeps q0 s) : Keeps q0 t := by
  have := keeps_linkEnable s d k hk; rw [he] at this; exact this

theorem keeps_linkDisable (s : State) (d : Die) (k : Nat) (hk : Keeps q0 s) :
    KeepsOpt q0 (linkDisable s d k) := by
  unfold linkDisable
  try dsimp only
  iterate 48 (all_goals (try first | (with_reducible first | exact hk | apply keeps_linkGo | apply keeps_modLink | apply keeps_clearQueues | apply keepsOpt_some | apply keepsOpt_ite | assumption | exact id | rfl | intro _ | apply keeps_ite | apply keepsOpt_some | exact keepsOpt_none | apply keepsOpt_ite) | split | (with_reducible apply Keeps.upd)))
theorem keeps_linkDisable_eq {s : State}  {d : Die}  {k : Nat} {t : State} (he : linkDisable s d k = some t) (hk : Keeps q0 s) : Keeps q0 t := by
  have := keeps_linkDisable s d k hk; rw [he] at this; exact this

theorem keeps_linkDrain (s : State) (d : Die) (k : Nat) (hk : Keeps q0 s) :
    KeepsOpt q0 (linkDrain s d k) := by
  unfold linkDrain
  try dsimp only
  iterate 48 (all_goals (try first | (with_reducible first | exact hk | apply keeps_linkGo | apply keepsOpt_some | apply keepsOpt_ite | assumption | exact id | rfl | intro _ | apply keeps_ite | apply keepsOpt_some | exact keepsOpt_none | apply keepsOpt_ite) | split | (with_reducible apply Keeps.upd)))
theorem keeps_linkDrain_eq {s : State}  {d : Die}  {k : Nat} {t : State} (he : linkDrain s d k = some t) (hk : Keeps q0 s) : Keeps q0 t := by
  have := keeps_linkDrain s d k hk; rw [he] at this; exact this

theorem keeps_linkRetrain (s : State) (d : Die) (k : Nat) (hk : Keeps q0 s) :
    KeepsOpt q0 (linkRetrain s d k) := by
  unfold linkRetrain
  try dsimp only
  iterate 48 (all_goals (try first | (with_reducible first | exact hk | apply keeps_linkGo | apply keeps_modLink | apply keepsOpt_some | assumption | exact id | rfl | intro _ | apply keeps_ite | apply keepsOpt_some | exact keepsOpt_none | apply keepsOpt_ite) | split | (with_reducible apply Keeps.upd)))
theorem keeps_linkRetrain_eq {s : State}  {d : Die}  {k : Nat} {t : State} (he : linkRetrain s d k = some t) (hk : Keeps q0 s) : Keeps q0 t := by
  have := keeps_linkRetrain s d k hk; rw [he] at this; exact this

theorem keeps_linkRelease (s : State) (d : Die) (k : Nat) (hk : Keeps q0 s) :
    KeepsOpt q0 (linkRelease s d k) := by
  unfold linkRelease
  try dsimp only
  iterate 48 (all_goals (try first | (with_reducible first | exact hk | apply keeps_linkGo | apply keeps_linkTrain | apply keeps_modLink | apply keepsOpt_some | apply keepsOpt_ite | assumption | exact id | rfl | intro _ | apply keeps_ite | apply keepsOpt_some | exact keepsOpt_none | apply keepsOpt_ite) | split | (with_reducible apply Keeps.upd)))
theorem keeps_linkRelease_eq {s : State}  {d : Die}  {k : Nat} {t : State} (he : linkRelease s d k = some t) (hk : Keeps q0 s) : Keeps q0 t := by
  have := keeps_linkRelease s d k hk; rw [he] at this; exact this

theorem keeps_portConfigure (s : State) (d : Die) (p rate : Nat) (split fore : Bool) (credit : Nat) (hk : Keeps q0 s) :
    KeepsOpt q0 (portConfigure s d p rate split fore credit) := by
  unfold portConfigure
  try dsimp only
  iterate 48 (all_goals (try first | (with_reducible first | exact hk | apply keeps_modLink | apply keepsOpt_some | apply keepsOpt_ite | assumption | exact id | rfl | intro _ | apply keeps_ite | apply keepsOpt_some | exact keepsOpt_none | apply keepsOpt_ite) | split | (with_reducible apply Keeps.upd)))
theorem keeps_portConfigure_eq {s : State}  {d : Die}  {p rate : Nat}  {split fore : Bool}  {credit : Nat} {t : State} (he : portConfigure s d p rate split fore credit = some t) (hk : Keeps q0 s) : Keeps q0 t := by
  have := keeps_portConfigure s d p rate split fore credit hk; rw [he] at this; exact this

theorem keeps_setMode (s : State) (m : Mode) (cause : Nat) (hk : Keeps q0 s) :
    Keeps q0 (setMode s m cause) := by
  unfold setMode
  try dsimp only
  iterate 48 (all_goals (try first | (with_reducible first | exact hk | apply keeps_postBoth | assumption | exact id | rfl | intro _ | apply keeps_ite) | split | (with_reducible apply Keeps.upd)))

theorem keeps_judgeMode (s : State) (hk : Keeps q0 s) :
    Keeps q0 (judgeMode s) := by
  unfold judgeMode
  try dsimp only
  iterate 48 (all_goals (try first | (with_reducible first | exact hk | apply keeps_setMode | assumption | exact id | rfl | intro _ | apply keeps_ite) | split | (with_reducible apply Keeps.upd)))

theorem keeps_reclaim (s : State) (home : Die) (dead : Nat → Bool) (hk : Keeps q0 s) :
    Keeps q0 (reclaim s home dead) := by
  unfold reclaim
  try dsimp only
  iterate 48 (all_goals (try first | (with_reducible first | exact hk | apply keeps_foldl | apply keeps_onEng | apply keeps_pmc | apply keeps_foldl_fst | assumption | exact id | rfl | intro _ | apply keeps_ite) | split | (with_reducible apply Keeps.upd)))

theorem keeps_splitCoherence (s : State) (hk : Keeps q0 s) :
    Keeps q0 (splitCoherence s) := by
  unfold splitCoherence
  try dsimp only
  iterate 48 (all_goals (try first | (with_reducible first | exact hk | apply keeps_reclaim | assumption | exact id | rfl | intro _ | apply keeps_ite) | split | (with_reducible apply Keeps.upd)))

theorem keeps_setSplit (s : State) (on : Bool) (hk : Keeps q0 s) :
    Keeps q0 (setSplit s on) := by
  unfold setSplit
  try dsimp only
  iterate 48 (all_goals (try first | (with_reducible first | exact hk | apply keeps_postMgmt | apply keeps_raiseLocal | apply keeps_splitCoherence | assumption | exact id | rfl | intro _ | apply keeps_ite) | split | (with_reducible apply Keeps.upd)))

theorem keeps_brgGo (s : State) (d : Die) (b : Bridge) (st : LinkSt) (cause : Nat) (hk : Keeps q0 s) :
    Keeps q0 (brgGo s d b st cause) := by
  unfold brgGo
  try dsimp only
  iterate 48 (all_goals (try first | (with_reducible first | exact hk | apply keeps_modBrg | apply keeps_postMgmt | apply keeps_raiseLocal | assumption | exact id | rfl | intro _ | apply keeps_ite) | split | (with_reducible apply Keeps.upd)))

theorem keeps_joinQueue (s : State) (d : Die) (key : Nat) (l : List QPkt) (hk : Keeps q0 s) :
    Keeps q0 (joinQueue s d key l) := by
  unfold joinQueue
  try dsimp only
  iterate 48 (all_goals (try first | (with_reducible first | exact hk | apply keeps_onSch | assumption | exact id | rfl | intro _ | apply keeps_ite) | split | (with_reducible apply Keeps.upd)))

theorem keeps_moveQueues (s : State) (d : Die) (b : Bridge) (hk : Keeps q0 s) :
    Keeps q0 (moveQueues s d b) := by
  unfold moveQueues
  try dsimp only
  iterate 48 (all_goals (try first | (with_reducible first | exact hk | apply keeps_clearQueues | apply keeps_foldl | apply keeps_joinQueue | apply keeps_onSch | apply keeps_reroute | apply keeps_foldl_fst | assumption | exact id | rfl | intro _ | apply keeps_ite) | split | (with_reducible apply Keeps.upd)))

theorem keeps_brgAfter (s : State) (hk : Keeps q0 s) :
    Keeps q0 (brgAfter s) := by
  unfold brgAfter
  try dsimp only
  iterate 48 (all_goals (try first | (with_reducible first | exact hk | apply keeps_bndEdges | apply keeps_judgeMode | apply keeps_setSplit | assumption | exact id | rfl | intro _ | apply keeps_ite) | split | (with_reducible apply Keeps.upd)))

theorem keeps_brgRecover (s : State) (d : Die) (b : Bridge) (hk : Keeps q0 s) :
    Keeps q0 (brgRecover s d b) := by
  unfold brgRecover
  try dsimp only
  iterate 48 (all_goals (try first | (with_reducible first | exact hk | apply keeps_brgGo | apply keeps_modBrg | assumption | exact id | rfl | intro _ | apply keeps_ite) | split | (with_reducible apply Keeps.upd)))

theorem keeps_brgFault (s : State) (d : Die) (b : Bridge) (cause : Nat) (hk : Keeps q0 s) :
    Keeps q0 (brgFault s d b cause) := by
  unfold brgFault
  try dsimp only
  iterate 48 (all_goals (try first | (with_reducible first | exact hk | apply keeps_brgAfter | apply keeps_brgGo | apply keeps_brgRecover | apply keeps_moveQueues | assumption | exact id | rfl | intro _ | apply keeps_ite) | split | (with_reducible apply Keeps.upd)))

theorem keeps_bridgeParity (s : State) (d : Die) (b : Bridge) (ew : Bool) (lane : Nat) (hk : Keeps q0 s) :
    Keeps q0 (bridgeParity s d b ew lane) := by
  unfold bridgeParity
  try dsimp only
  iterate 48 (all_goals (try first | (with_reducible first | exact hk | apply keeps_brgFault | apply keeps_emit | apply keeps_modBrg | apply keeps_pmcAt | apply keeps_pmc | assumption | exact id | rfl | intro _ | apply keeps_ite) | split | (with_reducible apply Keeps.upd)))

theorem keeps_execBridgeParityError (d : Die) (b : Bridge) (ew : Bool) (lane : Nat) (s : State) (hk : Keeps q0 s) :
    KeepsOut q0 (execBridgeParityError d b ew lane s) := by
  unfold execBridgeParityError
  try dsimp only
  iterate 48 (all_goals (try first | (with_reducible first | exact hk | apply keeps_bridgeParity | apply keepsOut_next | assumption | exact id | rfl | intro _ | apply keeps_ite | apply keepsOut_next | apply keepsOut_ite) | split | (with_reducible apply Keeps.upd)))

theorem keeps_execBridgeClockLoss (d : Die) (b : Bridge) (s : State) (hk : Keeps q0 s) :
    KeepsOut q0 (execBridgeClockLoss d b s) := by
  unfold execBridgeClockLoss
  try dsimp only
  iterate 48 (all_goals (try first | (with_reducible first | exact hk | apply keeps_brgFault | apply keepsOut_next | apply keepsOut_ite | assumption | exact id | rfl | intro _ | apply keeps_ite | apply keepsOut_next | apply keepsOut_ite) | split | (with_reducible apply Keeps.upd)))

theorem keeps_bridgeTrained (s : State) (b : Bridge) (we ew : List Nat) (hk : Keeps q0 s) :
    Keeps q0 (bridgeTrained s b we ew) := by
  unfold bridgeTrained
  try dsimp only
  iterate 48 (all_goals (try first | (with_reducible first | exact hk | apply keeps_brgAfter | apply keeps_brgGo | apply keeps_brgRecover | apply keeps_modBrg | assumption | exact id | rfl | intro _ | apply keeps_ite) | split | (with_reducible apply Keeps.upd)))

theorem keeps_execBridgeTrainDone (b : Bridge) (we ew : List Nat) (s : State) (hk : Keeps q0 s) :
    KeepsOut q0 (execBridgeTrainDone b we ew s) := by
  unfold execBridgeTrainDone
  try dsimp only
  iterate 48 (all_goals (try first | (with_reducible first | exact hk | apply keeps_bridgeTrained | apply keepsOut_next | assumption | exact id | rfl | intro _ | apply keeps_ite | apply keepsOut_next | apply keepsOut_ite) | split | (with_reducible apply Keeps.upd)))

theorem keeps_bridgeTrain (s : State) (b : Bridge) (hk : Keeps q0 s) :
    Keeps q0 (bridgeTrain s b) := by
  unfold bridgeTrain
  try dsimp only
  iterate 48 (all_goals (try first | (with_reducible first | exact hk | apply keeps_brgGo | assumption | exact id | rfl | intro _ | apply keeps_ite) | split | (with_reducible apply Keeps.upd)))

theorem keeps_execBridgeQuietEnd (b : Bridge) (s : State) (hk : Keeps q0 s) :
    KeepsOut q0 (execBridgeQuietEnd b s) := by
  unfold execBridgeQuietEnd
  try dsimp only
  iterate 48 (all_goals (try first | (with_reducible first | exact hk | apply keeps_bridgeTrain | apply keepsOut_next | apply keepsOut_ite | assumption | exact id | rfl | intro _ | apply keeps_ite | apply keepsOut_next | apply keepsOut_ite) | split | (with_reducible apply Keeps.upd)))

theorem keeps_setBrgAdmin (s : State) (b : Bridge) (on : Bool) (hk : Keeps q0 s) :
    Keeps q0 (setBrgAdmin s b on) := by
  unfold setBrgAdmin
  try dsimp only
  iterate 48 (all_goals (try first | (with_reducible first | exact hk | apply keeps_modBrg | assumption | exact id | rfl | intro _ | apply keeps_ite) | split | (with_reducible apply Keeps.upd)))

theorem keeps_bridgeEnable (s : State) (b : Bridge) (hk : Keeps q0 s) :
    KeepsOpt q0 (bridgeEnable s b) := by
  unfold bridgeEnable
  try dsimp only
  iterate 48 (all_goals (try first | (with_reducible first | exact hk | apply keeps_bridgeTrain | apply keeps_setBrgAdmin | apply keepsOpt_some | apply keepsOpt_ite | assumption | exact id | rfl | intro _ | apply keeps_ite | apply keepsOpt_some | exact keepsOpt_none | apply keepsOpt_ite) | split | (with_reducible apply Keeps.upd)))
theorem keeps_bridgeEnable_eq {s : State}  {b : Bridge} {t : State} (he : bridgeEnable s b = some t) (hk : Keeps q0 s) : Keeps q0 t := by
  have := keeps_bridgeEnable s b hk; rw [he] at this; exact this

theorem keeps_bridgeDisable (s : State) (b : Bridge) (hk : Keeps q0 s) :
    KeepsOpt q0 (bridgeDisable s b) := by
  unfold bridgeDisable
  try dsimp only
  iterate 48 (all_goals (try first | (with_reducible first | exact hk | apply keeps_brgAfter | apply keeps_brgGo | apply keeps_moveQueues | apply keeps_setBrgAdmin | apply keepsOpt_some | apply keepsOpt_ite | assumption | exact id | rfl | intro _ | apply keeps_ite | apply keepsOpt_some | exact keepsOpt_none | apply keepsOpt_ite) | split | (with_reducible apply Keeps.upd)))
theorem keeps_bridgeDisable_eq {s : State}  {b : Bridge} {t : State} (he : bridgeDisable s b = some t) (hk : Keeps q0 s) : Keeps q0 t := by
  have := keeps_bridgeDisable s b hk; rw [he] at this; exact this

theorem keeps_bridgeRelease (s : State) (b : Bridge) (hk : Keeps q0 s) :
    KeepsOpt q0 (bridgeRelease s b) := by
  unfold bridgeRelease
  try dsimp only
  iterate 48 (all_goals (try first | (with_reducible first | exact hk | apply keeps_brgGo | apply keeps_modBrg | apply keepsOpt_some | apply keepsOpt_ite | assumption | exact id | rfl | intro _ | apply keeps_ite | apply keepsOpt_some | exact keepsOpt_none | apply keepsOpt_ite) | split | (with_reducible apply Keeps.upd)))
theorem keeps_bridgeRelease_eq {s : State}  {b : Bridge} {t : State} (he : bridgeRelease s b = some t) (hk : Keeps q0 s) : Keeps q0 t := by
  have := keeps_bridgeRelease s b hk; rw [he] at this; exact this

theorem keeps_boostApply (s : State) (d : Die) (n : Nat) (hk : Keeps q0 s) :
    Keeps q0 (boostApply s d n) := by
  unfold boostApply
  try dsimp only
  iterate 48 (all_goals (try first | (with_reducible first | exact hk | apply keeps_onSch | assumption | exact id | rfl | intro _ | apply keeps_ite) | split | (with_reducible apply Keeps.upd)))

theorem keeps_execSemBoostApply (d : Die) (n : Nat) (s : State) (hk : Keeps q0 s) :
    KeepsOut q0 (execSemBoostApply d n s) := by
  unfold execSemBoostApply
  try dsimp only
  iterate 48 (all_goals (try first | (with_reducible first | exact hk | apply keeps_boostApply | apply keepsOut_next | assumption | exact id | rfl | intro _ | apply keeps_ite | apply keepsOut_next | apply keepsOut_ite) | split | (with_reducible apply Keeps.upd)))

theorem keeps_modGate (s : State) (d : Die) (k : Nat) (f : Gate → Gate) (hk : Keeps q0 s) :
    Keeps q0 (modGate s d k f) := by
  unfold modGate
  try dsimp only
  iterate 48 (all_goals (try first | (with_reducible first | exact hk | apply keeps_onSch | assumption | exact id | rfl | intro _ | apply keeps_ite) | split | (with_reducible apply Keeps.upd)))

theorem keeps_execGateEntryBoundary (d : Die) (port : Nat) (s : State) (hk : Keeps q0 s) :
    KeepsOut q0 (execGateEntryBoundary d port s) := by
  unfold execGateEntryBoundary
  try dsimp only
  iterate 48 (all_goals (try first | (with_reducible first | exact hk | apply keeps_modGate | apply keepsOut_next | assumption | exact id | rfl | intro _ | apply keeps_ite | apply keepsOut_next | apply keepsOut_ite) | split | (with_reducible apply Keeps.upd)))

theorem keeps_gatesFollow (s : State) (d : Die) (hk : Keeps q0 s) :
    Keeps q0 (gatesFollow s d) := by
  unfold gatesFollow
  try dsimp only
  iterate 48 (all_goals (try first | (with_reducible first | exact hk | apply keeps_onSch | assumption | exact id | rfl | intro _ | apply keeps_ite) | split | (with_reducible apply Keeps.upd)))

theorem keeps_gateActivate (s : State) (d : Die) (port : Nat) (hk : Keeps q0 s) :
    Keeps q0 (gateActivate s d port) := by
  unfold gateActivate
  try dsimp only
  iterate 48 (all_goals (try first | (with_reducible first | exact hk | apply keeps_modDom | apply keeps_modGate | apply keeps_postMgmt | apply keeps_raiseLocal | assumption | exact id | rfl | intro _ | apply keeps_ite) | split | (with_reducible apply Keeps.upd)))

theorem keeps_gateSettle (s : State) (d : Die) (port : Nat) (hk : Keeps q0 s) :
    Keeps q0 (gateSettle s d port) := by
  unfold gateSettle
  try dsimp only
  iterate 48 (all_goals (try first | (with_reducible first | exact hk | apply keeps_gateActivate | assumption | exact id | rfl | intro _ | apply keeps_ite) | split | (with_reducible apply Keeps.upd)))

theorem keeps_execGateActivation (d : Die) (port : Nat) (s : State) (hk : Keeps q0 s) :
    KeepsOut q0 (execGateActivation d port s) := by
  unfold execGateActivation
  try dsimp only
  iterate 48 (all_goals (try first | (with_reducible first | exact hk | apply keeps_gateSettle | apply keeps_gateActivate | apply keepsOut_next | apply keepsOut_ite | assumption | exact id | rfl | intro _ | apply keeps_ite | apply keepsOut_next | apply keepsOut_ite) | split | (with_reducible apply Keeps.upd)))

theorem keeps_modSched (s : State) (d : Die) (eg : Nat) (f : Sched → Sched) (hk : Keeps q0 s) :
    Keeps q0 (modSched s d eg f) := by
  unfold modSched
  try dsimp only
  iterate 48 (all_goals (try first | (with_reducible first | exact hk | apply keeps_onSch | assumption | exact id | rfl | intro _ | apply keeps_ite) | split | (with_reducible apply Keeps.upd)))

theorem keeps_useCredit (s : State) (d : Die) (eg : Nat) (q : QPkt) (n : Nat) (hk : Keeps q0 s) :
    Keeps q0 (useCredit s d eg q n) := by
  unfold useCredit
  try dsimp only
  iterate 48 (all_goals (try first | (with_reducible first | exact hk | apply keeps_modBrg | apply keeps_modLink | assumption | exact id | rfl | intro _ | apply keeps_ite) | split | (with_reducible apply Keeps.upd)))

theorem keeps_grantFlits (s : State) (d : Die) (eg : Nat) (q : QPkt) (sel begun last : Bool) (fl : List Block) (hk : Keeps q0 s) :
    Keeps q0 (grantFlits s d eg q sel begun last fl) := by
  unfold grantFlits
  try dsimp only
  iterate 48 (all_goals (try first | (with_reducible first | exact hk | apply keeps_modSched | apply keeps_useCredit | assumption | exact id | rfl | intro _ | apply keeps_ite) | split | (with_reducible apply Keeps.upd)))

theorem keeps_grantPkt (s : State) (d : Die) (eg : Nat) (q : QPkt) (hk : Keeps q0 s) :
    Keeps q0 (grantPkt s d eg q) := by
  unfold grantPkt
  try dsimp only
  iterate 48 (all_goals (try first | (with_reducible first | exact hk | apply keeps_grantFlits | apply keeps_modBrg | apply keeps_modLink | assumption | exact id | rfl | intro _ | apply keeps_ite) | split | (with_reducible apply Keeps.upd)))

theorem keeps_grantFlume (s : State) (d : Die) (eg : Nat) (q : QPkt) (hk : Keeps q0 s) :
    Keeps q0 (grantFlume s d eg q) := by
  unfold grantFlume
  try dsimp only
  iterate 48 (all_goals (try first | (with_reducible first | exact hk | apply keeps_grantFlits | apply keeps_modLink | apply keeps_modSched | assumption | exact id | rfl | intro _ | apply keeps_ite) | split | (with_reducible apply Keeps.upd)))

theorem keeps_resumeSusp (s : State) (d : Die) (k chan : Nat) (rest : List Block) (hk : Keeps q0 s) :
    Keeps q0 (resumeSusp s d k chan rest) := by
  unfold resumeSusp
  try dsimp only
  iterate 48 (all_goals (try first | (with_reducible first | exact hk | apply keeps_grantFlits | apply keeps_modLink | assumption | exact id | rfl | intro _ | apply keeps_ite) | split | (with_reducible apply Keeps.upd)))

theorem keeps_resumeCrossing (s : State) (d : Die) (b : Bridge) (c : Crossing) (hk : Keeps q0 s) :
    Keeps q0 (resumeCrossing s d b c) := by
  unfold resumeCrossing
  try dsimp only
  iterate 48 (all_goals (try first | (with_reducible first | exact hk | apply keeps_grantFlits | apply keeps_modBrg | assumption | exact id | rfl | intro _ | apply keeps_ite) | split | (with_reducible apply Keeps.upd)))

theorem keeps_servePick (s : State) (d : Die) (eg : Nat) (p : Pick) (hk : Keeps q0 s) :
    Keeps q0 (servePick s d eg p) := by
  unfold servePick
  try dsimp only
  iterate 48 (all_goals (try first | (with_reducible first | exact hk | apply keeps_grantPkt | apply keeps_onSch | assumption | exact id | rfl | intro _ | apply keeps_ite) | split | (with_reducible apply Keeps.upd)))

theorem keeps_grantData (s : State) (d : Die) (eg : Nat) (hk : Keeps q0 s) :
    Keeps q0 (grantData s d eg) := by
  unfold grantData
  try dsimp only
  iterate 48 (all_goals (try first | (with_reducible first | exact hk | apply keeps_resumeCrossing | apply keeps_resumeSusp | apply keeps_servePick | assumption | exact id | rfl | intro _ | apply keeps_ite) | split | (with_reducible apply Keeps.upd)))

theorem keeps_txBridge (s : State) (d : Die) (eg : Nat) (hk : Keeps q0 s) :
    Keeps q0 (txBridge s d eg) := by
  unfold txBridge
  try dsimp only
  iterate 48 (all_goals (try first | (with_reducible first | exact hk | apply keeps_emit | apply keeps_foldl | apply keeps_modSched | apply keeps_pmcAt | apply keeps_foldl_fst | assumption | exact id | rfl | intro _ | apply keeps_ite) | split | (with_reducible apply Keeps.upd)))

theorem keeps_egressServe (s : State) (d : Die) (eg : Nat) (hk : Keeps q0 s) :
    Keeps q0 (egressServe s d eg) := by
  unfold egressServe
  try dsimp only
  iterate 48 (all_goals (try first | (with_reducible first | exact hk | apply keeps_grantData | apply keeps_grantFlume | apply keeps_txBridge | apply keeps_txFrame | apply keeps_onSch | assumption | exact id | rfl | intro _ | apply keeps_ite) | split | (with_reducible apply Keeps.upd)))

theorem keeps_execEgressServe (d : Die) (eg : Nat) (s : State) (hk : Keeps q0 s) :
    KeepsOut q0 (execEgressServe d eg s) := by
  unfold execEgressServe
  try dsimp only
  iterate 48 (all_goals (try first | (with_reducible first | exact hk | apply keeps_egressServe | apply keepsOut_next | assumption | exact id | rfl | intro _ | apply keeps_ite | apply keepsOut_next | apply keepsOut_ite) | split | (with_reducible apply Keeps.upd)))

theorem keeps_injectionServe (s : State) (d : Die) (port : Nat) (hk : Keeps q0 s) :
    Keeps q0 (injectionServe s d port) := by
  unfold injectionServe
  try dsimp only
  iterate 48 (all_goals (try first | (with_reducible first | exact hk | apply keeps_cellRead | apply keeps_emit | apply keeps_onSch | refine keeps_cellRead_eq (by assumption) ?_ | assumption | exact id | rfl | intro _ | apply keeps_ite) | split | (with_reducible apply Keeps.upd)))

theorem keeps_execInjectionServe (d : Die) (port : Nat) (s : State) (hk : Keeps q0 s) :
    KeepsOut q0 (execInjectionServe d port s) := by
  unfold execInjectionServe
  try dsimp only
  iterate 48 (all_goals (try first | (with_reducible first | exact hk | apply keeps_injectionServe | apply keepsOut_next | assumption | exact id | rfl | intro _ | apply keeps_ite | apply keepsOut_next | apply keepsOut_ite) | split | (with_reducible apply Keeps.upd)))

theorem keeps_agePromote (s : State) (d : Die) (q : QueueId) (hk : Keeps q0 s) :
    Keeps q0 (agePromote s d q) := by
  unfold agePromote
  try dsimp only
  iterate 48 (all_goals (try first | (with_reducible first | exact hk | apply keeps_onSch | apply keeps_pmcAt | apply keeps_pmc | assumption | exact id | rfl | intro _ | apply keeps_ite) | split | (with_reducible apply Keeps.upd)))

theorem keeps_execAgePromotion (d : Die) (q : QueueId) (s : State) (hk : Keeps q0 s) :
    KeepsOut q0 (execAgePromotion d q s) := by
  unfold execAgePromotion
  try dsimp only
  iterate 48 (all_goals (try first | (with_reducible first | exact hk | apply keeps_agePromote | apply keepsOut_next | assumption | exact id | rfl | intro _ | apply keeps_ite | apply keepsOut_next | apply keepsOut_ite) | split | (with_reducible apply Keeps.upd)))

theorem keeps_ageQueues (s : State) (d : Die) (dt : Nat) (hk : Keeps q0 s) :
    Keeps q0 (ageQueues s d dt) := by
  unfold ageQueues
  try dsimp only
  iterate 48 (all_goals (try first | (with_reducible first | exact hk | apply keeps_onSch | assumption | exact id | rfl | intro _ | apply keeps_ite) | split | (with_reducible apply Keeps.upd)))

theorem keeps_police (s : State) (d : Die) (src : Nat) (hk : Keeps q0 s) :
    Keeps q0 (police s d src).1 := by
  unfold police
  try dsimp only
  iterate 48 (all_goals (try first | (with_reducible first | exact hk | apply keeps_foldl | apply keeps_getD | apply keeps_onSch | apply keeps_foldl_fst | assumption | exact id | rfl | intro _ | apply keeps_ite) | split | (with_reducible apply Keeps.upd)))
theorem keeps_police_eq {s : State}  {d : Die}  {src : Nat} {t0 : State} {b0 : Bool} (he : police s d src = (t0, b0)) (hk : Keeps q0 s) : Keeps q0 t0 := by
  have := keeps_police s d src hk; rw [he] at this; exact this

theorem keeps_policed (s : State) (d : Die) (p : Pkt) (hk : Keeps q0 s) :
    Keeps q0 (policed s d p).1 := by
  unfold policed
  try dsimp only
  iterate 48 (all_goals (try first | (with_reducible first | exact hk | apply keeps_bumpReg | apply keeps_onSch | apply keeps_pmc | apply keeps_police | apply keeps_postMgmt | refine keeps_police_eq (by assumption) ?_ | assumption | exact id | rfl | intro _ | apply keeps_ite) | split | (with_reducible apply Keeps.upd)))
theorem keeps_policed_eq {s : State}  {d : Die}  {p : Pkt} {t0 : State} {b0 : Bool} (he : policed s d p = (t0, b0)) (hk : Keeps q0 s) : Keeps q0 t0 := by
  have := keeps_policed s d p hk; rw [he] at this; exact this

theorem keeps_cruiseSample (s : State) (d : Die) (hk : Keeps q0 s) :
    Keeps q0 (cruiseSample s d) := by
  unfold cruiseSample
  try dsimp only
  iterate 48 (all_goals (try first | (with_reducible first | exact hk | apply keeps_foldl | apply keeps_onCrz | apply keeps_onSch | apply keeps_foldl_fst | assumption | exact id | rfl | intro _ | apply keeps_ite) | split | (with_reducible apply Keeps.upd)))

theorem keeps_execCruiseSample (d : Die) (s : State) (hk : Keeps q0 s) :
    KeepsOut q0 (execCruiseSample d s) := by
  unfold execCruiseSample
  try dsimp only
  iterate 48 (all_goals (try first | (with_reducible first | exact hk | apply keeps_cruiseSample | apply keepsOut_next | assumption | exact id | rfl | intro _ | apply keeps_ite | apply keepsOut_next | apply keepsOut_ite) | split | (with_reducible apply Keeps.upd)))

theorem keeps_qViewRead (s : State) (d : Die) (hk : Keeps q0 s) :
    Keeps q0 (qViewRead s d) := by
  unfold qViewRead
  try dsimp only
  iterate 48 (all_goals (try first | (with_reducible first | exact hk | apply keeps_onSch | apply keeps_setReg | assumption | exact id | rfl | intro _ | apply keeps_ite) | split | (with_reducible apply Keeps.upd)))

theorem keeps_summarySend (s : State) (d : Die) (hk : Keeps q0 s) :
    Keeps q0 (summarySend s d) := by
  unfold summarySend
  try dsimp only
  iterate 48 (all_goals (try first | (with_reducible first | exact hk | apply keeps_emits | apply keeps_foldl | apply keeps_onCrz | apply keeps_pmc | apply keeps_putFlits | apply keeps_foldl_fst | assumption | exact id | rfl | intro _ | apply keeps_ite) | split | (with_reducible apply Keeps.upd)))

theorem keeps_execSummarySend (d : Die) (s : State) (hk : Keeps q0 s) :
    KeepsOut q0 (execSummarySend d s) := by
  unfold execSummarySend
  try dsimp only
  iterate 48 (all_goals (try first | (with_reducible first | exact hk | apply keeps_summarySend | apply keepsOut_next | assumption | exact id | rfl | intro _ | apply keeps_ite | apply keepsOut_next | apply keepsOut_ite) | split | (with_reducible apply Keeps.upd)))

theorem keeps_storeSum (s : State) (d : Die) (key : Nat) (m : Summary) (usable forwarded : Bool) (hk : Keeps q0 s) :
    Keeps q0 (storeSum s d key m usable forwarded) := by
  unfold storeSum
  try dsimp only
  iterate 48 (all_goals (try first | (with_reducible first | exact hk | apply keeps_onCrz | assumption | exact id | rfl | intro _ | apply keeps_ite) | split | (with_reducible apply Keeps.upd)))

theorem keeps_summaryReceive (s : State) (d : Die) (at_ : Ingress) (m : Summary) (hk : Keeps q0 s) :
    Keeps q0 (summaryReceive s d at_ m) := by
  unfold summaryReceive
  try dsimp only
  iterate 48 (all_goals (try first | (with_reducible first | exact hk | apply keeps_onCrz | apply keeps_pmc | apply keeps_storeSum | assumption | exact id | rfl | intro _ | apply keeps_ite) | split | (with_reducible apply Keeps.upd)))

theorem keeps_execSummaryReceive (d : Die) (from_ : Ingress) (m : Summary) (s : State) (hk : Keeps q0 s) :
    KeepsOut q0 (execSummaryReceive d from_ m s) := by
  unfold execSummaryReceive
  try dsimp only
  iterate 48 (all_goals (try first | (with_reducible first | exact hk | apply keeps_summaryReceive | apply keepsOut_next | assumption | exact id | rfl | intro _ | apply keeps_ite | apply keepsOut_next | apply keepsOut_ite) | split | (with_reducible apply Keeps.upd)))

theorem keeps_summaryForward (s : State) (d : Die) (hk : Keeps q0 s) :
    Keeps q0 (summaryForward s d) := by
  unfold summaryForward
  try dsimp only
  iterate 48 (all_goals (try first | (with_reducible first | exact hk | apply keeps_emits | apply keeps_onCrz | assumption | exact id | rfl | intro _ | apply keeps_ite) | split | (with_reducible apply Keeps.upd)))

theorem keeps_execSummaryForward (d : Die) (s : State) (hk : Keeps q0 s) :
    KeepsOut q0 (execSummaryForward d s) := by
  unfold execSummaryForward
  try dsimp only
  iterate 48 (all_goals (try first | (with_reducible first | exact hk | apply keeps_summaryForward | apply keepsOut_next | assumption | exact id | rfl | intro _ | apply keeps_ite | apply keepsOut_next | apply keepsOut_ite) | split | (with_reducible apply Keeps.upd)))

theorem keeps_summaryStale (s : State) (d : Die) (r : Nat) (hk : Keeps q0 s) :
    Keeps q0 (summaryStale s d r) := by
  unfold summaryStale
  try dsimp only
  iterate 48 (all_goals (try first | (with_reducible first | exact hk | apply keeps_onCrz | assumption | exact id | rfl | intro _ | apply keeps_ite) | split | (with_reducible apply Keeps.upd)))

theorem keeps_execSummaryStale (d : Die) (r : Nat) (s : State) (hk : Keeps q0 s) :
    KeepsOut q0 (execSummaryStale d r s) := by
  unfold execSummaryStale
  try dsimp only
  iterate 48 (all_goals (try first | (with_reducible first | exact hk | apply keeps_summaryStale | apply keepsOut_next | assumption | exact id | rfl | intro _ | apply keeps_ite | apply keepsOut_next | apply keepsOut_ite) | split | (with_reducible apply Keeps.upd)))

theorem keeps_pushMap (s : State) (d : Die) (hk : Keeps q0 s) :
    Keeps q0 (pushMap s d) := by
  unfold pushMap
  try dsimp only
  iterate 48 (all_goals (try first | (with_reducible first | exact hk | apply keeps_emits | apply keeps_onCrz | apply keeps_onSch | apply keeps_pmc | assumption | exact id | rfl | intro _ | apply keeps_ite) | split | (with_reducible apply Keeps.upd)))

theorem keeps_execMapPush (d : Die) (s : State) (hk : Keeps q0 s) :
    KeepsOut q0 (execMapPush d s) := by
  unfold execMapPush
  try dsimp only
  iterate 48 (all_goals (try first | (with_reducible first | exact hk | apply keeps_onCrz | apply keeps_pushMap | apply keepsOut_next | apply keepsOut_ite | assumption | exact id | rfl | intro _ | apply keeps_ite | apply keepsOut_next | apply keepsOut_ite) | split | (with_reducible apply Keeps.upd)))

theorem keeps_slotWrite (s : State) (d : Die) (slot off : Nat) (bytes : List Byte) (hk : Keeps q0 s) :
    Keeps q0 (slotWrite s d slot off bytes) := by
  unfold slotWrite
  try dsimp only
  iterate 48 (all_goals (try first | (with_reducible first | exact hk | apply keeps_emit | assumption | exact id | rfl | intro _ | apply keeps_ite) | split | (with_reducible apply Keeps.upd)))

theorem keeps_modSlot (s : State) (d : Die) (slot : Nat) (m : MapSlot) (hk : Keeps q0 s) :
    Keeps q0 (modSlot s d slot m) := by
  unfold modSlot
  try dsimp only
  iterate 48 (all_goals (try first | (with_reducible first | exact hk | apply keeps_onCrz | assumption | exact id | rfl | intro _ | apply keeps_ite) | split | (with_reducible apply Keeps.upd)))

theorem keeps_closeMap (s : State) (d : Die) (slot : Nat) (hk : Keeps q0 s) :
    Keeps q0 (closeMap s d slot) := by
  unfold closeMap
  try dsimp only
  iterate 48 (all_goals (try first | (with_reducible first | exact hk | apply keeps_modSlot | apply keeps_slotWrite | assumption | exact id | rfl | intro _ | apply keeps_ite) | split | (with_reducible apply Keeps.upd)))

theorem keeps_mapPart (s : State) (d : Die) (slot : Nat) (f : FlumePkt) (hk : Keeps q0 s) :
    Keeps q0 (mapPart s d slot f) := by
  unfold mapPart
  try dsimp only
  iterate 48 (all_goals (try first | (with_reducible first | exact hk | apply keeps_closeMap | apply keeps_modSlot | apply keeps_slotWrite | assumption | exact id | rfl | intro _ | apply keeps_ite) | split | (with_reducible apply Keeps.upd)))

theorem keeps_mapReceive (s : State) (d : Die) (p : Pkt) (f : FlumePkt) (hk : Keeps q0 s) :
    Keeps q0 (mapReceive s d p f) := by
  unfold mapReceive
  try dsimp only
  iterate 48 (all_goals (try first | (with_reducible first | exact hk | apply keeps_closeMap | apply keeps_mapPart | apply keeps_modSlot | apply keeps_pmc | apply keeps_slotWrite | assumption | exact id | rfl | intro _ | apply keeps_ite) | split | (with_reducible apply Keeps.upd)))

theorem keeps_execMapPartReceive (d : Die) (p : Pkt) (s : State) (hk : Keeps q0 s) :
    KeepsOut q0 (execMapPartReceive d p s) := by
  unfold execMapPartReceive
  try dsimp only
  iterate 48 (all_goals (try first | (with_reducible first | exact hk | apply keeps_mapReceive | apply keeps_policed | apply keepsOut_next | apply keepsOut_ite | refine keeps_policed_eq (by assumption) ?_ | assumption | exact id | rfl | intro _ | apply keeps_ite | apply keepsOut_next | apply keepsOut_ite) | split | (with_reducible apply Keeps.upd)))

theorem keeps_execMapCloseTimeout (d : Die) (slot : Nat) (s : State) (hk : Keeps q0 s) :
    KeepsOut q0 (execMapCloseTimeout d slot s) := by
  unfold execMapCloseTimeout
  try dsimp only
  iterate 48 (all_goals (try first | (with_reducible first | exact hk | apply keeps_closeMap | apply keepsOut_next | apply keepsOut_ite | assumption | exact id | rfl | intro _ | apply keeps_ite | apply keepsOut_next | apply keepsOut_ite) | split | (with_reducible apply Keeps.upd)))

theorem keeps_wrapSample (s : State) (d : Die) (i part : Nat) (addr : BitVec 24) (hk : Keeps q0 s) :
    Keeps q0 (wrapSample s d i part addr) := by
  unfold wrapSample
  try dsimp only
  iterate 48 (all_goals (try first | (with_reducible first | exact hk | apply keeps_onCrz | apply keeps_raiseSource | apply keeps_setReg | assumption | exact id | rfl | intro _ | apply keeps_ite) | split | (with_reducible apply Keeps.upd)))

theorem keeps_execCounterWrapSample (d : Die) (i part : Nat) (addr : BitVec 24) (s : State) (hk : Keeps q0 s) :
    KeepsOut q0 (execCounterWrapSample d i part addr s) := by
  unfold execCounterWrapSample
  try dsimp only
  iterate 48 (all_goals (try first | (with_reducible first | exact hk | apply keeps_wrapSample | apply keepsOut_next | assumption | exact id | rfl | intro _ | apply keeps_ite | apply keepsOut_next | apply keepsOut_ite) | split | (with_reducible apply Keeps.upd)))

theorem keeps_pmcSnap (s : State) (d : Die) (hk : Keeps q0 s) :
    Keeps q0 (pmcSnap s d) := by
  unfold pmcSnap
  try dsimp only
  iterate 48 (all_goals (try first | (with_reducible first | exact hk | apply keeps_foldl | apply keeps_setReg | apply keeps_foldl_fst | assumption | exact id | rfl | intro _ | apply keeps_ite) | split | (with_reducible apply Keeps.upd)))

theorem keeps_execPmcSnap (d : Die) (s : State) (hk : Keeps q0 s) :
    KeepsOut q0 (execPmcSnap d s) := by
  unfold execPmcSnap
  try dsimp only
  iterate 48 (all_goals (try first | (with_reducible first | exact hk | apply keeps_pmcSnap | apply keepsOut_next | assumption | exact id | rfl | intro _ | apply keeps_ite | apply keepsOut_next | apply keepsOut_ite) | split | (with_reducible apply Keeps.upd)))

theorem keeps_overThresh (s : State) (d : Die) (i occ n ctx : Nat) (hk : Keeps q0 s) :
    Keeps q0 (overThresh s d i occ n ctx) := by
  unfold overThresh
  try dsimp only
  iterate 48 (all_goals (try first | (with_reducible first | exact hk | apply keeps_pmcAt | apply keeps_pmc | assumption | exact id | rfl | intro _ | apply keeps_ite) | split | (with_reducible apply Keeps.upd)))

theorem keeps_countHeld (s : State) (d : Die) (i n : Nat) (l : List (Nat × Option Nat)) (hk : Keeps q0 s) :
    Keeps q0 (countHeld s d i n l) := by
  unfold countHeld
  try dsimp only
  iterate 48 (all_goals (try first | (with_reducible first | exact hk | apply keeps_pmcAt | assumption | exact id | rfl | intro _ | apply keeps_ite) | split | (with_reducible apply Keeps.upd)))

theorem keeps_pairBusy (s : State) (d : Die) (k n : Nat) (p : Pair) (hk : Keeps q0 s) :
    Keeps q0 (pairBusy s d k n p) := by
  unfold pairBusy
  try dsimp only
  iterate 48 (all_goals (try first | (with_reducible first | exact hk | apply keeps_getD | apply keeps_pmcAt | assumption | exact id | rfl | intro _ | apply keeps_ite) | split | (with_reducible apply Keeps.upd)))

theorem keeps_pmcTick (s : State) (d : Die) (dt : Nat) (hk : Keeps q0 s) :
    Keeps q0 (pmcTick s d dt) := by
  unfold pmcTick
  try dsimp only
  iterate 48 (all_goals (try first | (with_reducible first | exact hk | apply keeps_countHeld | apply keeps_foldl | apply keeps_overThresh | apply keeps_pairBusy | apply keeps_pmc | apply keeps_pmcHost | apply keeps_foldl_fst | assumption | exact id | rfl | intro _ | apply keeps_ite) | split | (with_reducible apply Keeps.upd)))

end Sys2Proof.Laws
end

