-- ==== Sys2Proof/Laws/Keeps3.lean ====
section
/-! SUPPORT. `Keeps`, one lemma for each operation and command: interrupts, instances, epochs, time, engines, the lookout, power, modes. -/

set_option linter.unusedVariables false
set_option linter.unusedTactic false
set_option linter.unreachableTactic false
set_option maxRecDepth 10000

namespace Sys2Proof.Laws

open Sys2Proof Sys2Proof.Machine

variable {q0 : State}

theorem keeps_aclDenied (s : State) (m : Master) (off : Nat) (hk : Keeps q0 s) :
    Keeps q0 (aclDenied s m off) := by
  unfold aclDenied
  try dsimp only
  iterate 48 (all_goals (try first | (with_reducible first | exact hk | apply keeps_onHst | apply keeps_postMgmt | apply keeps_setLevel | apply keeps_setReg | assumption | exact id | rfl | intro _ | apply keeps_ite) | split | (with_reducible apply Keeps.upd)))

theorem keeps_denyAccess (s : State) (m : Master) (off : Nat) (write : Bool) (hk : Keeps q0 s) :
    Keeps q0 (denyAccess s m off write) := by
  unfold denyAccess
  try dsimp only
  iterate 48 (all_goals (try first | (with_reducible first | exact hk | apply keeps_aclDenied | apply keeps_emit | assumption | exact id | rfl | intro _ | apply keeps_ite) | split | (with_reducible apply Keeps.upd)))

theorem keeps_deliverSrc (s : State) (d : Die) (n : Nat) (hk : Keeps q0 s) :
    Keeps q0 (deliverSrc s d n).1 := by
  unfold deliverSrc
  try dsimp only
  iterate 48 (all_goals (try first | (with_reducible first | exact hk | apply keeps_emit | apply keeps_modSrc | apply keeps_pmc | assumption | exact id | rfl | intro _ | apply keeps_ite) | split | (with_reducible apply Keeps.upd)))
theorem keeps_deliverSrc_eq {s : State}  {d : Die}  {n : Nat} {t0 : State} {b0 : Bool} (he : deliverSrc s d n = (t0, b0)) (hk : Keeps q0 s) : Keeps q0 t0 := by
  have := keeps_deliverSrc s d n hk; rw [he] at this; exact this

theorem keeps_startGroup (s : State) (d : Die) (g : Nat) (hk : Keeps q0 s) :
    Keeps q0 (startGroup s d g) := by
  unfold startGroup
  try dsimp only
  iterate 48 (all_goals (try first | (with_reducible first | exact hk | apply keeps_onEng | assumption | exact id | rfl | intro _ | apply keeps_ite) | split | (with_reducible apply Keeps.upd)))

theorem keeps_intDeliver (s : State) (d : Die) (n : Nat) (hk : Keeps q0 s) :
    Keeps q0 (intDeliver s d n) := by
  unfold intDeliver
  try dsimp only
  iterate 48 (all_goals (try first | (with_reducible first | exact hk | apply keeps_deliverSrc | apply keeps_startGroup | refine keeps_deliverSrc_eq (by assumption) ?_ | assumption | exact id | rfl | intro _ | apply keeps_ite) | split | (with_reducible apply Keeps.upd)))

theorem keeps_execIntDelivery (d : Die) (n : Nat) (s : State) (hk : Keeps q0 s) :
    KeepsOut q0 (execIntDelivery d n s) := by
  unfold execIntDelivery
  try dsimp only
  iterate 48 (all_goals (try first | (with_reducible first | exact hk | apply keeps_intDeliver | apply keepsOut_next | assumption | exact id | rfl | intro _ | apply keeps_ite | apply keepsOut_next | apply keepsOut_ite) | split | (with_reducible apply Keeps.upd)))

theorem keeps_holdoffExpire (s : State) (d : Die) (g : Nat) (hk : Keeps q0 s) :
    Keeps q0 (holdoffExpire s d g) := by
  unfold holdoffExpire
  try dsimp only
  iterate 48 (all_goals (try first | (with_reducible first | exact hk | apply keeps_deliverSrc | apply keeps_foldl | apply keeps_onEng | apply keeps_startGroup | apply keeps_foldl_fst | refine keeps_deliverSrc_eq (by assumption) ?_ | assumption | exact id | rfl | intro _ | apply keeps_ite) | split | (with_reducible apply Keeps.upd)))

theorem keeps_execHoldoffExpiry (d : Die) (g : Nat) (s : State) (hk : Keeps q0 s) :
    KeepsOut q0 (execHoldoffExpiry d g s) := by
  unfold execHoldoffExpiry
  try dsimp only
  iterate 48 (all_goals (try first | (with_reducible first | exact hk | apply keeps_holdoffExpire | apply keepsOut_next | assumption | exact id | rfl | intro _ | apply keeps_ite | apply keepsOut_next | apply keepsOut_ite) | split | (with_reducible apply Keeps.upd)))

theorem keeps_msixSend (s : State) (f : FnId) (vec : Nat) (hk : Keeps q0 s) :
    Keeps q0 (msixSend s f vec) := by
  unfold msixSend
  try dsimp only
  iterate 48 (all_goals (try first | (with_reducible first | exact hk | apply keeps_emit | assumption | exact id | rfl | intro _ | apply keeps_ite) | split | (with_reducible apply Keeps.upd)))

theorem keeps_msixWritten (s : State) (d : Die) (n : Nat) (hk : Keeps q0 s) :
    Keeps q0 (msixWritten s d n) := by
  unfold msixWritten
  try dsimp only
  iterate 48 (all_goals (try first | (with_reducible first | exact hk | apply keeps_modSrc | apply keeps_msixSend | assumption | exact id | rfl | intro _ | apply keeps_ite) | split | (with_reducible apply Keeps.upd)))

theorem keeps_execMsixMessageWritten (d : Die) (n : Nat) (s : State) (hk : Keeps q0 s) :
    KeepsOut q0 (execMsixMessageWritten d n s) := by
  unfold execMsixMessageWritten
  try dsimp only
  iterate 48 (all_goals (try first | (with_reducible first | exact hk | apply keeps_msixWritten | apply keepsOut_next | assumption | exact id | rfl | intro _ | apply keeps_ite | apply keepsOut_next | apply keepsOut_ite) | split | (with_reducible apply Keeps.upd)))

theorem keeps_msixDrop (s : State) (f : FnId) (hk : Keeps q0 s) :
    Keeps q0 (msixDrop s f) := by
  unfold msixDrop
  try dsimp only
  iterate 48 (all_goals (try first | (with_reducible first | exact hk | apply keeps_onEng | assumption | exact id | rfl | intro _ | apply keeps_ite) | split | (with_reducible apply Keeps.upd)))

theorem keeps_execMsixEnableCleared (f : FnId) (s : State) (hk : Keeps q0 s) :
    KeepsOut q0 (execMsixEnableCleared f s) := by
  unfold execMsixEnableCleared
  try dsimp only
  iterate 48 (all_goals (try first | (with_reducible first | exact hk | apply keeps_modFn | apply keeps_msixDrop | apply keepsOut_next | assumption | exact id | rfl | intro _ | apply keeps_ite | apply keepsOut_next | apply keepsOut_ite) | split | (with_reducible apply Keeps.upd)))

theorem keeps_setMasked (s : State) (f : FnId) (vec : Nat) (on : Bool) (hk : Keeps q0 s) :
    Keeps q0 (setMasked s f vec on) := by
  unfold setMasked
  try dsimp only
  iterate 48 (all_goals (try first | (with_reducible first | exact hk | apply keeps_modFn | apply keeps_onEng | assumption | exact id | rfl | intro _ | apply keeps_ite) | split | (with_reducible apply Keeps.upd)))

theorem keeps_execIntSourceRaise (d : Die) (n : Nat) (s : State) (hk : Keeps q0 s) :
    KeepsOut q0 (execIntSourceRaise d n s) := by
  unfold execIntSourceRaise
  try dsimp only
  iterate 48 (all_goals (try first | (with_reducible first | exact hk | apply keeps_raiseLocal | apply keepsOut_next | assumption | exact id | rfl | intro _ | apply keeps_ite | apply keepsOut_next | apply keepsOut_ite) | split | (with_reducible apply Keeps.upd)))

theorem keeps_execIntRaiseWrite (d : Die) (n : Nat) (s : State) (hk : Keeps q0 s) :
    KeepsOut q0 (execIntRaiseWrite d n s) := by
  unfold execIntRaiseWrite
  try dsimp only
  iterate 48 (all_goals (try first | (with_reducible first | exact hk | apply keeps_raiseLocal | apply keepsOut_next | assumption | exact id | rfl | intro _ | apply keeps_ite | apply keepsOut_next | apply keepsOut_ite) | split | (with_reducible apply Keeps.upd)))

theorem keeps_srcDisabled (s : State) (d : Die) (n : Nat) (hk : Keeps q0 s) :
    Keeps q0 (srcDisabled s d n) := by
  unfold srcDisabled
  try dsimp only
  iterate 48 (all_goals (try first | (with_reducible first | exact hk | apply keeps_modSrc | assumption | exact id | rfl | intro _ | apply keeps_ite) | split | (with_reducible apply Keeps.upd)))

theorem keeps_srcRetarget (s : State) (d : Die) (n : Nat) (hk : Keeps q0 s) :
    Keeps q0 (srcRetarget s d n) := by
  unfold srcRetarget
  try dsimp only
  iterate 48 (all_goals (try first | (with_reducible first | exact hk | apply keeps_modSrc | assumption | exact id | rfl | intro _ | apply keeps_ite) | split | (with_reducible apply Keeps.upd)))

theorem keeps_intClaim (s : State) (d : Die) (c : Nat) (hk : Keeps q0 s) :
    Keeps q0 (intClaim s d c).1 := by
  unfold intClaim
  try dsimp only
  iterate 48 (all_goals (try first | (with_reducible first | exact hk | apply keeps_modSrc | apply keeps_pmc | assumption | exact id | rfl | intro _ | apply keeps_ite) | split | (with_reducible apply Keeps.upd)))
theorem keeps_intClaim_eq {s : State}  {d : Die}  {c : Nat} {t0 : State} {b0 : Nat} (he : intClaim s d c = (t0, b0)) (hk : Keeps q0 s) : Keeps q0 t0 := by
  have := keeps_intClaim s d c hk; rw [he] at this; exact this

theorem keeps_execIntClaim (d : Die) (c : Nat) (s : State) (hk : Keeps q0 s) :
    KeepsOut q0 (execIntClaim d c s) := by
  unfold execIntClaim
  try dsimp only
  iterate 48 (all_goals (try first | (with_reducible first | exact hk | apply keeps_emit | apply keeps_intClaim | apply keepsOut_next | refine keeps_intClaim_eq (by assumption) ?_ | assumption | exact id | rfl | intro _ | apply keeps_ite | apply keepsOut_next | apply keepsOut_ite) | split | (with_reducible apply Keeps.upd)))

theorem keeps_intComplete (s : State) (d : Die) (c v : Nat) (hk : Keeps q0 s) :
    Keeps q0 (intComplete s d c v) := by
  unfold intComplete
  try dsimp only
  iterate 48 (all_goals (try first | (with_reducible first | exact hk | apply keeps_modSrc | assumption | exact id | rfl | intro _ | apply keeps_ite) | split | (with_reducible apply Keeps.upd)))

theorem keeps_execIntComplete (d : Die) (c : Nat) (v : BitVec 32) (s : State) (hk : Keeps q0 s) :
    KeepsOut q0 (execIntComplete d c v s) := by
  unfold execIntComplete
  try dsimp only
  iterate 48 (all_goals (try first | (with_reducible first | exact hk | apply keeps_intComplete | apply keepsOut_next | assumption | exact id | rfl | intro _ | apply keeps_ite | apply keepsOut_next | apply keepsOut_ite) | split | (with_reducible apply Keeps.upd)))

theorem keeps_modSem (s : State) (d : Die) (n : Nat) (f : Sem → Sem) (hk : Keeps q0 s) :
    Keeps q0 (modSem s d n f) := by
  unfold modSem
  try dsimp only
  iterate 48 (all_goals (try first | (with_reducible first | exact hk | apply keeps_onEng | assumption | exact id | rfl | intro _ | apply keeps_ite) | split | (with_reducible apply Keeps.upd)))

theorem keeps_semBoost (s : State) (d : Die) (n : Nat) (hk : Keeps q0 s) :
    Keeps q0 (semBoost s d n) := by
  unfold semBoost
  try dsimp only
  iterate 48 (all_goals (try first | (with_reducible first | exact hk | apply keeps_modSem | apply keeps_onSch | assumption | exact id | rfl | intro _ | apply keeps_ite) | split | (with_reducible apply Keeps.upd)))

theorem keeps_semRead (s : State) (m : Master) (d : Die) (n : Nat) (hk : Keeps q0 s) :
    Keeps q0 (semRead s m d n).1 := by
  unfold semRead
  try dsimp only
  iterate 48 (all_goals (try first | (with_reducible first | exact hk | apply keeps_modSem | apply keeps_pmc | assumption | exact id | rfl | intro _ | apply keeps_ite) | split | (with_reducible apply Keeps.upd)))
theorem keeps_semRead_eq {s : State}  {m : Master}  {d : Die}  {n : Nat} {t0 : State} {b0 : Nat} (he : semRead s m d n = (t0, b0)) (hk : Keeps q0 s) : Keeps q0 t0 := by
  have := keeps_semRead s m d n hk; rw [he] at this; exact this

theorem keeps_semFault (s : State) (d : Die) (n op : Nat) (m : Master) (hk : Keeps q0 s) :
    Keeps q0 (semFault s d n op m) := by
  unfold semFault
  try dsimp only
  iterate 48 (all_goals (try first | (with_reducible first | exact hk | apply keeps_setLevel | apply keeps_setReg | assumption | exact id | rfl | intro _ | apply keeps_ite) | split | (with_reducible apply Keeps.upd)))

theorem keeps_semNotify (s : State) (d : Die) (n : Nat) (a : SemArm) (hk : Keeps q0 s) :
    Keeps q0 (semNotify s d n a) := by
  unfold semNotify
  try dsimp only
  iterate 48 (all_goals (try first | (with_reducible first | exact hk | apply keeps_emit | apply keeps_postInst | apply keeps_raiseSource | assumption | exact id | rfl | intro _ | apply keeps_ite) | split | (with_reducible apply Keeps.upd)))

theorem keeps_semFree (s : State) (d : Die) (n : Nat) (hk : Keeps q0 s) :
    Keeps q0 (semFree s d n) := by
  unfold semFree
  try dsimp only
  iterate 48 (all_goals (try first | (with_reducible first | exact hk | apply keeps_foldl | apply keeps_modSem | apply keeps_semBoost | apply keeps_semNotify | apply keeps_foldl_fst | assumption | exact id | rfl | intro _ | apply keeps_ite) | split | (with_reducible apply Keeps.upd)))

theorem keeps_semReleaseOp (s : State) (m : Master) (d : Die) (n : Nat) (hk : Keeps q0 s) :
    Keeps q0 (semReleaseOp s m d n) := by
  unfold semReleaseOp
  try dsimp only
  iterate 48 (all_goals (try first | (with_reducible first | exact hk | apply keeps_onEng | apply keeps_postMgmt | apply keeps_semFault | apply keeps_semFree | assumption | exact id | rfl | intro _ | apply keeps_ite) | split | (with_reducible apply Keeps.upd)))

theorem keeps_semArmOp (s : State) (m : Master) (d : Die) (n level source : Nat) (hk : Keeps q0 s) :
    Keeps q0 (semArmOp s m d n level source) := by
  unfold semArmOp
  try dsimp only
  iterate 48 (all_goals (try first | (with_reducible first | exact hk | apply keeps_modSem | apply keeps_semBoost | apply keeps_semFault | apply keeps_semNotify | assumption | exact id | rfl | intro _ | apply keeps_ite) | split | (with_reducible apply Keeps.upd)))

theorem keeps_semDisarmOp (s : State) (m : Master) (d : Die) (n : Nat) (hk : Keeps q0 s) :
    Keeps q0 (semDisarmOp s m d n) := by
  unfold semDisarmOp
  try dsimp only
  iterate 48 (all_goals (try first | (with_reducible first | exact hk | apply keeps_modSem | apply keeps_semBoost | assumption | exact id | rfl | intro _ | apply keeps_ite) | split | (with_reducible apply Keeps.upd)))

theorem keeps_semAcquire (s : State) (m : Master) (d : Die) (n : Nat) (hk : Keeps q0 s) :
    Keeps q0 (semAcquire s m d n) := by
  unfold semAcquire
  try dsimp only
  iterate 48 (all_goals (try first | (with_reducible first | exact hk | apply keeps_denyAccess | apply keeps_emit | apply keeps_semRead | refine keeps_semRead_eq (by assumption) ?_ | assumption | exact id | rfl | intro _ | apply keeps_ite) | split | (with_reducible apply Keeps.upd)))

theorem keeps_semWrite (s : State) (m : Master) (d : Die) (n : Nat) (f : State → State) (h_f : ∀ s, Keeps q0 s → Keeps q0 (f s)) (hk : Keeps q0 s) :
    Keeps q0 (semWrite s m d n f) := by
  unfold semWrite
  try dsimp only
  iterate 48 (all_goals (try first | (with_reducible first | exact hk | apply h_f | apply keeps_denyAccess | assumption | exact id | rfl | intro _ | apply keeps_ite) | split | (with_reducible apply Keeps.upd)))

theorem keeps_semOrphan (s : State) (d : Die) (n : Nat) (hk : Keeps q0 s) :
    Keeps q0 (semOrphan s d n) := by
  unfold semOrphan
  try dsimp only
  iterate 48 (all_goals (try first | (with_reducible first | exact hk | apply keeps_modSem | apply keeps_postMgmt | apply keeps_semBoost | assumption | exact id | rfl | intro _ | apply keeps_ite) | split | (with_reducible apply Keeps.upd)))

theorem keeps_orphanDie (s : State) (d : Die) (dead : Master → Bool) (hk : Keeps q0 s) :
    Keeps q0 (orphanDie s d dead) := by
  unfold orphanDie
  try dsimp only
  iterate 48 (all_goals (try first | (with_reducible first | exact hk | apply keeps_foldl | apply keeps_semOrphan | apply keeps_foldl_fst | assumption | exact id | rfl | intro _ | apply keeps_ite) | split | (with_reducible apply Keeps.upd)))

theorem keeps_orphanAll (s : State) (dead : Master → Bool) (hk : Keeps q0 s) :
    Keeps q0 (orphanAll s dead) := by
  unfold orphanAll
  try dsimp only
  iterate 48 (all_goals (try first | (with_reducible first | exact hk | apply keeps_orphanDie | assumption | exact id | rfl | intro _ | apply keeps_ite) | split | (with_reducible apply Keeps.upd)))

theorem keeps_bankReset (s : State) (d : Die) (b : Nat) (hk : Keeps q0 s) :
    Keeps q0 (bankReset s d b) := by
  unfold bankReset
  try dsimp only
  iterate 48 (all_goals (try first | (with_reducible first | exact hk | apply keeps_foldl | apply keeps_semFree | apply keeps_foldl_fst | assumption | exact id | rfl | intro _ | apply keeps_ite) | split | (with_reducible apply Keeps.upd)))

theorem keeps_mgOpt (r : Option State) (h : KeepsOpt q0 r) : KeepsRes q0 (mgOpt r) := by
  cases r with
  | none => exact trivial
  | some t => exact h

theorem keeps_ringConfigureCmd (s : State) (d : Die) (n : Nat) (base cfg sh : Nat) (hk : Keeps q0 s) :
    KeepsRes q0 (ringConfigureCmd s d n base cfg sh) := by
  unfold ringConfigureCmd
  try dsimp only
  iterate 48 (all_goals (try first | (with_reducible first | exact hk | apply keeps_modCmdRing | apply keeps_modCq | apply keeps_setRingSt | apply keepsRes_ok | apply keepsRes_hold | apply keepsRes_ite | assumption | exact id | rfl | intro _ | apply keeps_ite | apply keepsRes_ok | apply keepsRes_hold | exact keepsRes_err | exact keepsRes_mgState | exact keepsRes_mgMalformed | exact keepsRes_mgAccess | apply keepsRes_ite) | split | (with_reducible apply Keeps.upd)))

theorem keeps_ringConfigureCq (s : State) (d : Die) (m : Nat) (base cfg : Nat) (hk : Keeps q0 s) :
    KeepsRes q0 (ringConfigureCq s d m base cfg) := by
  unfold ringConfigureCq
  try dsimp only
  iterate 48 (all_goals (try first | (with_reducible first | exact hk | apply keeps_modCq | apply keepsRes_ok | apply keepsRes_hold | apply keepsRes_ite | assumption | exact id | rfl | intro _ | apply keeps_ite | apply keepsRes_ok | apply keepsRes_hold | exact keepsRes_err | exact keepsRes_mgState | exact keepsRes_mgMalformed | exact keepsRes_mgAccess | apply keepsRes_ite) | split | (with_reducible apply Keeps.upd)))

theorem keeps_ringCtlReset (s : State) (o : Nat) (d : Die) (n : Nat) (hk : Keeps q0 s) :
    KeepsRes q0 (ringCtlReset s o d n) := by
  unfold ringCtlReset
  try dsimp only
  iterate 48 (all_goals (try first | (with_reducible first | exact hk | apply keeps_modCmdRing | apply keeps_modOp | apply keeps_ringToReset | apply keepsRes_ok | apply keepsRes_hold | apply keepsRes_ite | assumption | exact id | rfl | intro _ | apply keeps_ite | apply keepsRes_ok | apply keepsRes_hold | exact keepsRes_err | exact keepsRes_mgState | exact keepsRes_mgMalformed | exact keepsRes_mgAccess | apply keepsRes_ite) | split | (with_reducible apply Keeps.upd)))

theorem keeps_ringReleaseCmd (s : State) (o : Nat) (d : Die) (n : Nat) (hk : Keeps q0 s) :
    KeepsRes q0 (ringReleaseCmd s o d n) := by
  unfold ringReleaseCmd
  try dsimp only
  iterate 48 (all_goals (try first | (with_reducible first | exact hk | apply keeps_modCmdRing | apply keeps_modOp | apply keeps_ringToReset | apply keepsRes_ok | apply keepsRes_hold | apply keepsRes_ite | assumption | exact id | rfl | intro _ | apply keeps_ite | apply keepsRes_ok | apply keepsRes_hold | exact keepsRes_err | exact keepsRes_mgState | exact keepsRes_mgMalformed | exact keepsRes_mgAccess | apply keepsRes_ite) | split | (with_reducible apply Keeps.upd)))

theorem keeps_ringReleaseCq (s : State) (d : Die) (m : Nat) (hk : Keeps q0 s) :
    KeepsRes q0 (ringReleaseCq s d m) := by
  unfold ringReleaseCq
  try dsimp only
  iterate 48 (all_goals (try first | (with_reducible first | exact hk | apply keeps_modCq | apply keepsRes_ok | apply keepsRes_hold | apply keepsRes_ite | assumption | exact id | rfl | intro _ | apply keeps_ite | apply keepsRes_ok | apply keepsRes_hold | exact keepsRes_err | exact keepsRes_mgState | exact keepsRes_mgMalformed | exact keepsRes_mgAccess | apply keepsRes_ite) | split | (with_reducible apply Keeps.upd)))

theorem keeps_mgRingCtl (s : State) (o : Nat) (b : Block) (hk : Keeps q0 s) :
    KeepsRes q0 (mgRingCtl s o b) := by
  unfold mgRingCtl
  try dsimp only
  iterate 48 (all_goals (try first | (with_reducible first | exact hk | apply keeps_ringConfigureCmd | apply keeps_ringConfigureCq | apply keeps_ringCtlReset | apply keeps_ringPause | apply keeps_ringReleaseCmd | apply keeps_ringReleaseCq | apply keeps_ringResume | apply keepsRes_ok | apply keepsRes_hold | apply keepsRes_ite | assumption | exact id | rfl | intro _ | apply keeps_ite | apply keepsRes_ok | apply keepsRes_hold | exact keepsRes_err | exact keepsRes_mgState | exact keepsRes_mgMalformed | exact keepsRes_mgAccess | apply keepsRes_ite) | split | (with_reducible apply Keeps.upd)))

theorem keeps_syncRingReset (s : State) (o : Nat) (b : Block) (hk : Keeps q0 s) :
    KeepsRes q0 (syncRingReset s o b) := by
  unfold syncRingReset
  try dsimp only
  iterate 48 (all_goals (try first | (with_reducible first | exact hk | apply keeps_ringCtlReset | apply keepsRes_ok | apply keepsRes_hold | apply keepsRes_ite | assumption | exact id | rfl | intro _ | apply keeps_ite | apply keepsRes_ok | apply keepsRes_hold | exact keepsRes_err | exact keepsRes_mgState | exact keepsRes_mgMalformed | exact keepsRes_mgAccess | apply keepsRes_ite) | split | (with_reducible apply Keeps.upd)))

theorem keeps_keyDraw (s : State) (i : Nat) (hk : Keeps q0 s) :
    Keeps q0 (keyDraw s i) := by
  unfold keyDraw
  try dsimp only
  iterate 48 (all_goals (try first | (with_reducible first | exact hk | assumption | exact id | rfl | intro _ | apply keeps_ite) | split | (with_reducible apply Keeps.upd)))

theorem keeps_keyErase (s : State) (i : Nat) (hk : Keeps q0 s) :
    Keeps q0 (keyErase s i) := by
  unfold keyErase
  try dsimp only
  iterate 48 (all_goals (try first | (with_reducible first | exact hk | assumption | exact id | rfl | intro _ | apply keeps_ite) | split | (with_reducible apply Keeps.upd)))

theorem keeps_instCreate (s : State) (b : Block) (hk : Keeps q0 s) :
    KeepsRes q0 (instCreate s b) := by
  unfold instCreate
  try dsimp only
  iterate 48 (all_goals (try first | (with_reducible first | exact hk | apply keeps_keyDraw | apply keeps_modFn | apply keeps_modInst | apply keeps_setInstSt | apply keepsRes_ok | apply keepsRes_hold | apply keepsRes_ite | assumption | exact id | rfl | intro _ | apply keeps_ite | apply keepsRes_ok | apply keepsRes_hold | exact keepsRes_err | exact keepsRes_mgState | exact keepsRes_mgMalformed | exact keepsRes_mgAccess | apply keepsRes_ite) | split | (with_reducible apply Keeps.upd)))

theorem keeps_quiesceWork (s : State) (d : Die) (i : Nat) (hk : Keeps q0 s) :
    Keeps q0 (quiesceWork s d i) := by
  unfold quiesceWork
  try dsimp only
  iterate 48 (all_goals (try first | (with_reducible first | exact hk | apply keeps_cancelOp | apply keeps_closeInstCtxs | apply keeps_foldl | apply keeps_instLost | apply keeps_ringPause | apply keeps_foldl_fst | assumption | exact id | rfl | intro _ | apply keeps_ite) | split | (with_reducible apply Keeps.upd)))

theorem keeps_instQuiesce (s : State) (o i : Nat) (hk : Keeps q0 s) :
    KeepsRes q0 (instQuiesce s o i) := by
  unfold instQuiesce
  try dsimp only
  iterate 48 (all_goals (try first | (with_reducible first | exact hk | apply keeps_foldl | apply keeps_modInst | apply keeps_modOp | apply keeps_quiesceWork | apply keeps_ringPause | apply keeps_setInstSt | apply keeps_foldl_fst | apply keepsRes_ok | apply keepsRes_hold | assumption | exact id | rfl | intro _ | apply keeps_ite | apply keepsRes_ok | apply keepsRes_hold | exact keepsRes_err | exact keepsRes_mgState | exact keepsRes_mgMalformed | exact keepsRes_mgAccess | apply keepsRes_ite) | split | (with_reducible apply Keeps.upd)))

theorem keeps_quiesceOver (s : State) (i : Nat) (hk : Keeps q0 s) :
    Keeps q0 (quiesceOver s i) := by
  unfold quiesceOver
  try dsimp only
  iterate 48 (all_goals (try first | (with_reducible first | exact hk | apply keeps_completeOp | apply keeps_foldl | apply keeps_modInst | apply keeps_foldl_fst | assumption | exact id | rfl | intro _ | apply keeps_ite) | split | (with_reducible apply Keeps.upd)))

theorem keeps_execInstanceQuiesceDone (i : Nat) (s : State) (hk : Keeps q0 s) :
    KeepsOut q0 (execInstanceQuiesceDone i s) := by
  unfold execInstanceQuiesceDone
  try dsimp only
  iterate 48 (all_goals (try first | (with_reducible first | exact hk | apply keeps_quiesceOver | apply keeps_setInstSt | apply keepsOut_next | apply keepsOut_ite | assumption | exact id | rfl | intro _ | apply keeps_ite | apply keepsOut_next | apply keepsOut_ite) | split | (with_reducible apply Keeps.upd)))

theorem keeps_dropTriggers (s : State) (first count : Nat) (hk : Keeps q0 s) :
    Keeps q0 (dropTriggers s first count) := by
  unfold dropTriggers
  try dsimp only
  iterate 48 (all_goals (try first | (with_reducible first | exact hk | apply keeps_completeOp | apply keeps_foldl | apply keeps_foldl_fst | assumption | exact id | rfl | intro _ | apply keeps_ite) | split | (with_reducible apply Keeps.upd)))

theorem keeps_instRemove (s : State) (i : Nat) (hk : Keeps q0 s) :
    Keeps q0 (instRemove s i) := by
  unfold instRemove
  try dsimp only
  iterate 48 (all_goals (try first | (with_reducible first | exact hk | apply keeps_closeInstCtxs | apply keeps_dropTriggers | apply keeps_eraseConn | apply keeps_foldl | apply keeps_keyErase | apply keeps_modCq | apply keeps_modFn | apply keeps_modInst | apply keeps_msixDrop | apply keeps_orphanAll | apply keeps_ringClear | apply keeps_ringToReset | apply keeps_sendConnCtl | apply keeps_setInstSt | apply keeps_tlbDrop | apply keeps_foldl_fst | assumption | exact id | rfl | intro _ | apply keeps_ite) | split | (with_reducible apply Keeps.upd)))

theorem keeps_mgInstanceCtl (s : State) (o : Nat) (b : Block) (hk : Keeps q0 s) :
    KeepsRes q0 (mgInstanceCtl s o b) := by
  unfold mgInstanceCtl
  try dsimp only
  iterate 48 (all_goals (try first | (with_reducible first | exact hk | apply keeps_foldl | apply keeps_instCreate | apply keeps_instQuiesce | apply keeps_instRemove | apply keeps_modInst | apply keeps_ringResume | apply keeps_setInstSt | apply keeps_foldl_fst | apply keepsRes_ok | apply keepsRes_hold | apply keepsRes_ite | assumption | exact id | rfl | intro _ | apply keeps_ite | apply keepsRes_ok | apply keepsRes_hold | exact keepsRes_err | exact keepsRes_mgState | exact keepsRes_mgMalformed | exact keepsRes_mgAccess | apply keepsRes_ite) | split | (with_reducible apply Keeps.upd)))

theorem keeps_grantMatch (s : State) (b : Block) (i : Nat) (hk : Keeps q0 s) :
    KeepsRes q0 (grantMatch s b i) := by
  unfold grantMatch
  try dsimp only
  iterate 48 (all_goals (try first | (with_reducible first | exact hk | apply keeps_modInst | apply keepsRes_ok | apply keepsRes_hold | apply keepsRes_ite | assumption | exact id | rfl | intro _ | apply keeps_ite | apply keepsRes_ok | apply keepsRes_hold | exact keepsRes_err | exact keepsRes_mgState | exact keepsRes_mgMalformed | exact keepsRes_mgAccess | apply keepsRes_ite) | split | (with_reducible apply Keeps.upd)))

theorem keeps_grantConnection (s : State) (b : Block) (i : Nat) (hk : Keeps q0 s) :
    KeepsRes q0 (grantConnection s b i) := by
  unfold grantConnection
  try dsimp only
  iterate 48 (all_goals (try first | (with_reducible first | exact hk | apply keeps_grantConn | apply keeps_revokeConn | apply keepsRes_ok | apply keepsRes_hold | apply keepsRes_ite | assumption | exact id | rfl | intro _ | apply keeps_ite | apply keepsRes_ok | apply keepsRes_hold | exact keepsRes_err | exact keepsRes_mgState | exact keepsRes_mgMalformed | exact keepsRes_mgAccess | apply keepsRes_ite) | split | (with_reducible apply Keeps.upd)))

theorem keeps_grantColl (s : State) (b : Block) (i : Nat) (hk : Keeps q0 s) :
    KeepsRes q0 (grantColl s b i) := by
  unfold grantColl
  try dsimp only
  iterate 48 (all_goals (try first | (with_reducible first | exact hk | apply keeps_instLost | apply keeps_modInst | apply keepsRes_ok | apply keepsRes_hold | apply keepsRes_ite | assumption | exact id | rfl | intro _ | apply keeps_ite | apply keepsRes_ok | apply keepsRes_hold | exact keepsRes_err | exact keepsRes_mgState | exact keepsRes_mgMalformed | exact keepsRes_mgAccess | apply keepsRes_ite) | split | (with_reducible apply Keeps.upd)))

theorem keeps_grantCtr (s : State) (b : Block) (i : Nat) (hk : Keeps q0 s) :
    KeepsRes q0 (grantCtr s b i) := by
  unfold grantCtr
  try dsimp only
  iterate 48 (all_goals (try first | (with_reducible first | exact hk | apply keeps_modInst | apply keepsRes_ok | apply keepsRes_hold | apply keepsRes_ite | assumption | exact id | rfl | intro _ | apply keeps_ite | apply keepsRes_ok | apply keepsRes_hold | exact keepsRes_err | exact keepsRes_mgState | exact keepsRes_mgMalformed | exact keepsRes_mgAccess | apply keepsRes_ite) | split | (with_reducible apply Keeps.upd)))

theorem keeps_grantTallies (s : State) (b : Block) (i : Nat) (hk : Keeps q0 s) :
    KeepsRes q0 (grantTallies s b i) := by
  unfold grantTallies
  try dsimp only
  iterate 48 (all_goals (try first | (with_reducible first | exact hk | apply keeps_dropTriggers | apply keeps_modInst | apply keeps_onDie | apply keepsRes_ok | apply keepsRes_hold | apply keepsRes_ite | assumption | exact id | rfl | intro _ | apply keeps_ite | apply keepsRes_ok | apply keepsRes_hold | exact keepsRes_err | exact keepsRes_mgState | exact keepsRes_mgMalformed | exact keepsRes_mgAccess | apply keepsRes_ite) | split | (with_reducible apply Keeps.upd)))

theorem keeps_grantVstn (s : State) (b : Block) (i : Nat) (hk : Keeps q0 s) :
    KeepsRes q0 (grantVstn s b i) := by
  unfold grantVstn
  try dsimp only
  iterate 48 (all_goals (try first | (with_reducible first | exact hk | apply keeps_modInst | apply keepsRes_ok | apply keepsRes_hold | apply keepsRes_ite | assumption | exact id | rfl | intro _ | apply keeps_ite | apply keepsRes_ok | apply keepsRes_hold | exact keepsRes_err | exact keepsRes_mgState | exact keepsRes_mgMalformed | exact keepsRes_mgAccess | apply keepsRes_ite) | split | (with_reducible apply Keeps.upd)))

theorem keeps_grantWin (s : State) (o : Nat) (b : Block) (i : Nat) (hk : Keeps q0 s) :
    KeepsRes q0 (grantWin s o b i) := by
  unfold grantWin
  try dsimp only
  iterate 48 (all_goals (try first | (with_reducible first | exact hk | apply keeps_modInst | apply keeps_modOp | apply keeps_readsOld | apply keeps_tlbDrop | apply keepsRes_ok | apply keepsRes_hold | apply keepsRes_ite | assumption | exact id | rfl | intro _ | apply keeps_ite | apply keepsRes_ok | apply keepsRes_hold | exact keepsRes_err | exact keepsRes_mgState | exact keepsRes_mgMalformed | exact keepsRes_mgAccess | apply keepsRes_ite) | split | (with_reducible apply Keeps.upd)))

theorem keeps_windowsSettle (s : State) (hk : Keeps q0 s) :
    Keeps q0 (windowsSettle s) := by
  unfold windowsSettle
  try dsimp only
  iterate 48 (all_goals (try first | (with_reducible first | exact hk | apply keeps_completeOp | apply keeps_foldl | apply keeps_foldl_fst | assumption | exact id | rfl | intro _ | apply keeps_ite) | split | (with_reducible apply Keeps.upd)))

theorem keeps_mgGrant (s : State) (o : Nat) (b0 : Block) (hk : Keeps q0 s) :
    KeepsRes q0 (mgGrant s o b0) := by
  unfold mgGrant
  try dsimp only
  iterate 48 (all_goals (try first | (with_reducible first | exact hk | apply keeps_grantColl | apply keeps_grantConnection | apply keeps_grantCtr | apply keeps_grantMatch | apply keeps_grantTallies | apply keeps_grantVstn | apply keeps_grantWin | apply keepsRes_ok | apply keepsRes_hold | apply keepsRes_ite | assumption | exact id | rfl | intro _ | apply keeps_ite | apply keepsRes_ok | apply keepsRes_hold | exact keepsRes_err | exact keepsRes_mgState | exact keepsRes_mgMalformed | exact keepsRes_mgAccess | apply keepsRes_ite) | split | (with_reducible apply Keeps.upd)))

theorem keeps_instReset (s : State) (i cause : Nat) (hk : Keeps q0 s) :
    Keeps q0 (instReset s i cause) := by
  unfold instReset
  try dsimp only
  iterate 48 (all_goals (try first | (with_reducible first | exact hk | apply keeps_abandonReads | apply keeps_cancelOp | apply keeps_closeInstCtxs | apply keeps_foldl | apply keeps_instLost | apply keeps_modFn | apply keeps_modInst | apply keeps_msixDrop | apply keeps_onHst | apply keeps_orphanAll | apply keeps_ringToReset | apply keeps_setInstSt | apply keeps_tlbDrop | apply keeps_foldl_fst | assumption | exact id | rfl | intro _ | apply keeps_ite) | split | (with_reducible apply Keeps.upd)))

theorem keeps_mgmtReset (s : State) (hk : Keeps q0 s) :
    Keeps q0 (mgmtReset s) := by
  unfold mgmtReset
  try dsimp only
  iterate 48 (all_goals (try first | (with_reducible first | exact hk | apply keeps_abandonReads | apply keeps_modFn | apply keeps_msixDrop | apply keeps_orphanAll | apply keeps_ringToReset | assumption | exact id | rfl | intro _ | apply keeps_ite) | split | (with_reducible apply Keeps.upd)))

theorem keeps_fnReset (s : State) (f : FnId) (cause : Nat) (hk : Keeps q0 s) :
    Keeps q0 (fnReset s f cause) := by
  unfold fnReset
  try dsimp only
  iterate 48 (all_goals (try first | (with_reducible first | exact hk | apply keeps_instReset | apply keeps_mgmtReset | apply keeps_modFn | apply keeps_msixDrop | assumption | exact id | rfl | intro _ | apply keeps_ite) | split | (with_reducible apply Keeps.upd)))

theorem keeps_flrFn (s : State) (f : FnId) (hk : Keeps q0 s) :
    Keeps q0 (flrFn s f) := by
  unfold flrFn
  try dsimp only
  iterate 48 (all_goals (try first | (with_reducible first | exact hk | apply keeps_fnReset | apply keeps_modFn | assumption | exact id | rfl | intro _ | apply keeps_ite) | split | (with_reducible apply Keeps.upd)))

theorem keeps_execFlr (f : FnId) (s : State) (hk : Keeps q0 s) :
    KeepsOut q0 (execFlr f s) := by
  unfold execFlr
  try dsimp only
  iterate 48 (all_goals (try first | (with_reducible first | exact hk | apply keeps_flrFn | apply keepsOut_next | apply keepsOut_ite | assumption | exact id | rfl | intro _ | apply keeps_ite | apply keepsOut_next | apply keepsOut_ite) | split | (with_reducible apply Keeps.upd)))

theorem keeps_hostLinkDown (s : State) (p l cause : Nat) (hk : Keeps q0 s) :
    Keeps q0 (hostLinkDown s p l cause) := by
  unfold hostLinkDown
  try dsimp only
  iterate 48 (all_goals (try first | (with_reducible first | exact hk | apply keeps_foldl | apply keeps_instReset | apply keeps_issueWaiting | apply keeps_mgmtReset | apply keeps_onHst | apply keeps_foldl_fst | apply keeps_fnsMap | assumption | exact id | rfl | intro _ | apply keeps_ite) | split | (with_reducible apply Keeps.upd)))

theorem keeps_execHostLinkReset (p l : Nat) (s : State) (hk : Keeps q0 s) :
    KeepsOut q0 (execHostLinkReset p l s) := by
  unfold execHostLinkReset
  try dsimp only
  iterate 48 (all_goals (try first | (with_reducible first | exact hk | apply keeps_hostLinkDown | apply keepsOut_next | apply keepsOut_ite | assumption | exact id | rfl | intro _ | apply keeps_ite | apply keepsOut_next | apply keepsOut_ite) | split | (with_reducible apply Keeps.upd)))

theorem keeps_perstAssert (s : State) (p : Nat) (hk : Keeps q0 s) :
    Keeps q0 (perstAssert s p) := by
  unfold perstAssert
  try dsimp only
  iterate 48 (all_goals (try first | (with_reducible first | exact hk | apply keeps_foldl | apply keeps_hostLinkDown | apply keeps_onHst | apply keeps_foldl_fst | assumption | exact id | rfl | intro _ | apply keeps_ite) | split | (with_reducible apply Keeps.upd)))

theorem keeps_execPerstNAssert (p : Nat) (s : State) (hk : Keeps q0 s) :
    KeepsOut q0 (execPerstNAssert p s) := by
  unfold execPerstNAssert
  try dsimp only
  iterate 48 (all_goals (try first | (with_reducible first | exact hk | apply keeps_perstAssert | apply keepsOut_next | apply keepsOut_ite | assumption | exact id | rfl | intro _ | apply keeps_ite | apply keepsOut_next | apply keepsOut_ite) | split | (with_reducible apply Keeps.upd)))

theorem keeps_perstDeassert (s : State) (p : Nat) (hk : Keeps q0 s) :
    Keeps q0 (perstDeassert s p) := by
  unfold perstDeassert
  try dsimp only
  iterate 48 (all_goals (try first | (with_reducible first | exact hk | apply keeps_onHst | apply keeps_raiseLocal | assumption | exact id | rfl | intro _ | apply keeps_ite) | split | (with_reducible apply Keeps.upd)))

theorem keeps_execPerstNDeassert (p : Nat) (s : State) (hk : Keeps q0 s) :
    KeepsOut q0 (execPerstNDeassert p s) := by
  unfold execPerstNDeassert
  try dsimp only
  iterate 48 (all_goals (try first | (with_reducible first | exact hk | apply keeps_perstDeassert | apply keepsOut_next | apply keepsOut_ite | assumption | exact id | rfl | intro _ | apply keeps_ite | apply keepsOut_next | apply keepsOut_ite) | split | (with_reducible apply Keeps.upd)))

theorem keeps_execD3hotEntry (f : FnId) (s : State) (hk : Keeps q0 s) :
    KeepsOut q0 (execD3hotEntry f s) := by
  unfold execD3hotEntry
  try dsimp only
  iterate 48 (all_goals (try first | (with_reducible first | exact hk | apply keeps_fnReset | apply keeps_modFn | apply keeps_msixDrop | apply keepsOut_next | apply keepsOut_ite | assumption | exact id | rfl | intro _ | apply keeps_ite | apply keepsOut_next | apply keepsOut_ite) | split | (with_reducible apply Keeps.upd)))

theorem keeps_instReturn (s : State) (i : Nat) (hk : Keeps q0 s) :
    Keeps q0 (instReturn s i) := by
  unfold instReturn
  try dsimp only
  iterate 48 (all_goals (try first | (with_reducible first | exact hk | apply keeps_completeOp | apply keeps_cqRestart | apply keeps_foldl | apply keeps_modFn | apply keeps_modInst | apply keeps_quiesceOver | apply keeps_ringRestart | apply keeps_setInstSt | apply keeps_foldl_fst | assumption | exact id | rfl | intro _ | apply keeps_ite) | split | (with_reducible apply Keeps.upd)))

theorem keeps_execInstanceResetDone (i : Nat) (s : State) (hk : Keeps q0 s) :
    KeepsOut q0 (execInstanceResetDone i s) := by
  unfold execInstanceResetDone
  try dsimp only
  iterate 48 (all_goals (try first | (with_reducible first | exact hk | apply keeps_instReturn | apply keepsOut_next | apply keepsOut_ite | assumption | exact id | rfl | intro _ | apply keeps_ite | apply keepsOut_next | apply keepsOut_ite) | split | (with_reducible apply Keeps.upd)))

theorem keeps_hostTrained (s : State) (p l : Nat) (hk : Keeps q0 s) :
    Keeps q0 (hostTrained s p l) := by
  unfold hostTrained
  try dsimp only
  iterate 48 (all_goals (try first | (with_reducible first | exact hk | apply keeps_emit | apply keeps_modFn | apply keeps_onHst | apply keeps_takeFree | refine keeps_takeFree_eq (by assumption) ?_ | assumption | exact id | rfl | intro _ | apply keeps_ite) | split | (with_reducible apply Keeps.upd)))

theorem keeps_archiveCopyBegin (s : State) (hk : Keeps q0 s) :
    Keeps q0 (archiveCopyBegin s) := by
  unfold archiveCopyBegin
  try dsimp only
  iterate 48 (all_goals (try first | (with_reducible first | exact hk | assumption | exact id | rfl | intro _ | apply keeps_ite) | split | (with_reducible apply Keeps.upd)))

theorem keeps_execHostLinkTrained (p l : Nat) (s : State) (hk : Keeps q0 s) :
    KeepsOut q0 (execHostLinkTrained p l s) := by
  unfold execHostLinkTrained
  try dsimp only
  iterate 48 (all_goals (try first | (with_reducible first | exact hk | apply keeps_archiveCopyBegin | apply keeps_hostTrained | apply keepsOut_next | apply keepsOut_ite | assumption | exact id | rfl | intro _ | apply keeps_ite | apply keepsOut_next | apply keepsOut_ite) | split | (with_reducible apply Keeps.upd)))

theorem keeps_modHlink (s : State) (p l : Nat) (f : HLink → HLink) (hk : Keeps q0 s) :
    Keeps q0 (modHlink s p l f) := by
  unfold modHlink
  try dsimp only
  iterate 48 (all_goals (try first | (with_reducible first | exact hk | apply keeps_onHst | assumption | exact id | rfl | intro _ | apply keeps_ite) | split | (with_reducible apply Keeps.upd)))

theorem keeps_hostRequest (s : State) (p l : Nat) (r : HostReq) (hk : Keeps q0 s) :
    Keeps q0 (hostRequest s p l r) := by
  unfold hostRequest
  try dsimp only
  iterate 48 (all_goals (try first | (with_reducible first | exact hk | apply keeps_emit | apply keeps_modFn | apply keeps_modHlink | apply keeps_msixDrop | assumption | exact id | rfl | intro _ | apply keeps_ite) | split | (with_reducible apply Keeps.upd)))

theorem keeps_execHostConfigRequest (p : Nat) (r : HostCfg) (s : State) (hk : Keeps q0 s) :
    KeepsOut q0 (execHostConfigRequest p r s) := by
  unfold execHostConfigRequest
  try dsimp only
  iterate 48 (all_goals (try first | (with_reducible first | exact hk | apply keeps_emit | apply keeps_hostRequest | apply keepsOut_next | apply keepsOut_ite | assumption | exact id | rfl | intro _ | apply keeps_ite | apply keepsOut_next | apply keepsOut_ite) | split | (with_reducible apply Keeps.upd)))

theorem keeps_atsInvalidate (s : State) (f : FnId) (addr len : Nat) (hk : Keeps q0 s) :
    Keeps q0 (atsInvalidate s f addr len) := by
  unfold atsInvalidate
  try dsimp only
  iterate 48 (all_goals (try first | (with_reducible first | exact hk | apply keeps_emit | apply keeps_onHst | assumption | exact id | rfl | intro _ | apply keeps_ite) | split | (with_reducible apply Keeps.upd)))

theorem keeps_execAtsInvalidation (f : FnId) (addr len : Nat) (s : State) (hk : Keeps q0 s) :
    KeepsOut q0 (execAtsInvalidation f addr len s) := by
  unfold execAtsInvalidation
  try dsimp only
  iterate 48 (all_goals (try first | (with_reducible first | exact hk | apply keeps_atsInvalidate | apply keepsOut_next | assumption | exact id | rfl | intro _ | apply keeps_ite | apply keepsOut_next | apply keepsOut_ite) | split | (with_reducible apply Keeps.upd)))

theorem keeps_bumpEpoch (s : State) (d : Die) (n : Nat) (hk : Keeps q0 s) :
    Keeps q0 (bumpEpoch s d n) := by
  unfold bumpEpoch
  try dsimp only
  iterate 48 (all_goals (try first | (with_reducible first | exact hk | apply keeps_modDom | assumption | exact id | rfl | intro _ | apply keeps_ite) | split | (with_reducible apply Keeps.upd)))

theorem keeps_mgEpochWrite (s : State) (b : Block) (c : List Block) (hk : Keeps q0 s) :
    KeepsRes q0 (mgEpochWrite s b c) := by
  unfold mgEpochWrite
  try dsimp only
  iterate 48 (all_goals (try first | (with_reducible first | exact hk | apply keeps_foldl | apply keeps_modDom | apply keeps_foldl_fst | apply keepsRes_ok | apply keepsRes_hold | apply keepsRes_ite | assumption | exact id | rfl | intro _ | apply keeps_ite | apply keepsRes_ok | apply keepsRes_hold | exact keepsRes_err | exact keepsRes_mgState | exact keepsRes_mgMalformed | exact keepsRes_mgAccess | apply keepsRes_ite) | split | (with_reducible apply Keeps.upd)))

theorem keeps_mgEpochActivate (s : State) (b : Block) (hk : Keeps q0 s) :
    KeepsRes q0 (mgEpochActivate s b) := by
  unfold mgEpochActivate
  try dsimp only
  iterate 48 (all_goals (try first | (with_reducible first | exact hk | apply keeps_modDom | apply keepsRes_ok | apply keepsRes_hold | apply keepsRes_ite | assumption | exact id | rfl | intro _ | apply keeps_ite | apply keepsRes_ok | apply keepsRes_hold | exact keepsRes_err | exact keepsRes_mgState | exact keepsRes_mgMalformed | exact keepsRes_mgAccess | apply keepsRes_ite) | split | (with_reducible apply Keeps.upd)))

theorem keeps_loadChannel (s : State) (d : Die) (l : List CfgRec) (hk : Keeps q0 s) :
    Keeps q0 (loadChannel s d l) := by
  unfold loadChannel
  try dsimp only
  iterate 48 (all_goals (try first | (with_reducible first | exact hk | apply keeps_foldl | apply keeps_getD | apply keeps_setReg | apply keeps_foldl_fst | assumption | exact id | rfl | intro _ | apply keeps_ite) | split | (with_reducible apply Keeps.upd)))

theorem keeps_failAbsent (s : State) (d : Die) (hk : Keeps q0 s) :
    Keeps q0 (failAbsent s d) := by
  unfold failAbsent
  try dsimp only
  iterate 48 (all_goals (try first | (with_reducible first | exact hk | apply keeps_failConn | apply keeps_foldl | apply keeps_foldl_fst | assumption | exact id | rfl | intro _ | apply keeps_ite) | split | (with_reducible apply Keeps.upd)))

theorem keeps_orphanLeft (s : State) (d : Die) (hk : Keeps q0 s) :
    Keeps q0 (orphanLeft s d) := by
  unfold orphanLeft
  try dsimp only
  iterate 48 (all_goals (try first | (with_reducible first | exact hk | apply keeps_orphanAll | assumption | exact id | rfl | intro _ | apply keeps_ite) | split | (with_reducible apply Keeps.upd)))

theorem keeps_membersJudge (s : State) (d : Die) (hk : Keeps q0 s) :
    Keeps q0 (membersJudge s d) := by
  unfold membersJudge
  try dsimp only
  iterate 48 (all_goals (try first | (with_reducible first | exact hk | apply keeps_collsLost | apply keeps_foldl | apply keeps_foldl_fst | assumption | exact id | rfl | intro _ | apply keeps_ite) | split | (with_reducible apply Keeps.upd)))

theorem keeps_domGoverns (s : State) (d : Die) (n : Nat) (old new : List CfgRec) (hk : Keeps q0 s) :
    Keeps q0 (domGoverns s d n old new) := by
  unfold domGoverns
  try dsimp only
  iterate 48 (all_goals (try first | (with_reducible first | exact hk | apply keeps_bndInstall | apply keeps_failAbsent | apply keeps_foldl | apply keeps_linksJudge | apply keeps_loadChannel | apply keeps_membersJudge | apply keeps_orphanLeft | apply keeps_foldl_fst | assumption | exact id | rfl | intro _ | apply keeps_ite) | split | (with_reducible apply Keeps.upd)))

theorem keeps_domActivate (s : State) (d : Die) (n : Nat) (p : Pend) (hk : Keeps q0 s) :
    Keeps q0 (domActivate s d n p) := by
  unfold domActivate
  try dsimp only
  iterate 48 (all_goals (try first | (with_reducible first | exact hk | apply keeps_domGoverns | apply keeps_modDom | apply keeps_postMgmt | apply keeps_raiseLocal | assumption | exact id | rfl | intro _ | apply keeps_ite) | split | (with_reducible apply Keeps.upd)))

theorem keeps_mgGateStage (s : State) (b : Block) (c : List Block) (hk : Keeps q0 s) :
    KeepsRes q0 (mgGateStage s b c) := by
  unfold mgGateStage
  try dsimp only
  iterate 48 (all_goals (try first | (with_reducible first | exact hk | apply keeps_gateSettle | apply keeps_modGate | apply keepsRes_ok | apply keepsRes_hold | apply keepsRes_ite | assumption | exact id | rfl | intro _ | apply keeps_ite | apply keepsRes_ok | apply keepsRes_hold | exact keepsRes_err | exact keepsRes_mgState | exact keepsRes_mgMalformed | exact keepsRes_mgAccess | apply keepsRes_ite) | split | (with_reducible apply Keeps.upd)))

theorem keeps_mgGateActivate (s : State) (b : Block) (hk : Keeps q0 s) :
    KeepsRes q0 (mgGateActivate s b) := by
  unfold mgGateActivate
  try dsimp only
  iterate 48 (all_goals (try first | (with_reducible first | exact hk | apply keeps_gateSettle | apply keeps_modGate | apply keepsRes_ok | apply keepsRes_hold | apply keepsRes_ite | assumption | exact id | rfl | intro _ | apply keeps_ite | apply keepsRes_ok | apply keepsRes_hold | exact keepsRes_err | exact keepsRes_mgState | exact keepsRes_mgMalformed | exact keepsRes_mgAccess | apply keepsRes_ite) | split | (with_reducible apply Keeps.upd)))

theorem keeps_mgShelfCollect (s : State) (b : Block) (hk : Keeps q0 s) :
    KeepsRes q0 (mgShelfCollect s b) := by
  unfold mgShelfCollect
  try dsimp only
  iterate 48 (all_goals (try first | (with_reducible first | exact hk | apply keepsRes_ok | apply keepsRes_hold | apply keepsRes_ite | assumption | exact id | rfl | intro _ | apply keeps_ite | apply keepsRes_ok | apply keepsRes_hold | exact keepsRes_err | exact keepsRes_mgState | exact keepsRes_mgMalformed | exact keepsRes_mgAccess | apply keepsRes_ite) | split | (with_reducible apply Keeps.upd)))

theorem keeps_identLoad (s : State) (new : Identity) (hk : Keeps q0 s) :
    Keeps q0 (identLoad s new) := by
  unfold identLoad
  try dsimp only
  iterate 48 (all_goals (try first | (with_reducible first | exact hk | apply keeps_bumpEpoch | apply keeps_identsChanged | apply keeps_linksJudge | assumption | exact id | rfl | intro _ | apply keeps_ite) | split | (with_reducible apply Keeps.upd)))

theorem keeps_mgIdentitySet (s : State) (b : Block) (hk : Keeps q0 s) :
    KeepsRes q0 (mgIdentitySet s b) := by
  unfold mgIdentitySet
  try dsimp only
  iterate 48 (all_goals (try first | (with_reducible first | exact hk | apply keeps_identLoad | apply keepsRes_ok | apply keepsRes_hold | apply keepsRes_ite | assumption | exact id | rfl | intro _ | apply keeps_ite | apply keepsRes_ok | apply keepsRes_hold | exact keepsRes_err | exact keepsRes_mgState | exact keepsRes_mgMalformed | exact keepsRes_mgAccess | apply keepsRes_ite) | split | (with_reducible apply Keeps.upd)))

theorem keeps_execShelfSend (d : Die) (k : Nat) (s : State) (hk : Keeps q0 s) :
    KeepsOut q0 (execShelfSend d k s) := by
  unfold execShelfSend
  try dsimp only
  iterate 48 (all_goals (try first | (with_reducible first | exact hk | apply keeps_emit | apply keeps_modLink | apply keeps_onEpc | apply keeps_putFlits | apply keepsOut_next | apply keepsOut_ite | assumption | exact id | rfl | intro _ | apply keeps_ite | apply keepsOut_next | apply keepsOut_ite) | split | (with_reducible apply Keeps.upd)))

theorem keeps_shelfReceive (s : State) (d : Die) (k : Nat) (m : ShelfFlit) (hk : Keeps q0 s) :
    Keeps q0 (shelfReceive s d k m) := by
  unfold shelfReceive
  try dsimp only
  iterate 48 (all_goals (try first | (with_reducible first | exact hk | apply keeps_onEpc | apply keeps_postMgmt | apply keeps_setLevel | assumption | exact id | rfl | intro _ | apply keeps_ite) | split | (with_reducible apply Keeps.upd)))

theorem keeps_execShelfReceive (d : Die) (k : Nat) (m : ShelfFlit) (s : State) (hk : Keeps q0 s) :
    KeepsOut q0 (execShelfReceive d k m s) := by
  unfold execShelfReceive
  try dsimp only
  iterate 48 (all_goals (try first | (with_reducible first | exact hk | apply keeps_shelfReceive | apply keepsOut_next | apply keepsOut_ite | assumption | exact id | rfl | intro _ | apply keeps_ite | apply keepsOut_next | apply keepsOut_ite) | split | (with_reducible apply Keeps.upd)))

theorem keeps_onTime (s : State) (f : Time → Time) (hk : Keeps q0 s) :
    Keeps q0 (onTime s f) := by
  unfold onTime
  try dsimp only
  iterate 48 (all_goals (try first | (with_reducible first | exact hk | assumption | exact id | rfl | intro _ | apply keeps_ite) | split | (with_reducible apply Keeps.upd)))

theorem keeps_timeGo (s : State) (st : TimeSt) (hk : Keeps q0 s) :
    Keeps q0 (timeGo s st) := by
  unfold timeGo
  try dsimp only
  iterate 48 (all_goals (try first | (with_reducible first | exact hk | apply keeps_onTime | apply keeps_postBoth | apply keeps_raiseLocal | assumption | exact id | rfl | intro _ | apply keeps_ite) | split | (with_reducible apply Keeps.upd)))

theorem keeps_timeHoldover (s : State) (hk : Keeps q0 s) :
    Keeps q0 (timeHoldover s) := by
  unfold timeHoldover
  try dsimp only
  iterate 48 (all_goals (try first | (with_reducible first | exact hk | apply keeps_onTime | apply keeps_timeGo | assumption | exact id | rfl | intro _ | apply keeps_ite) | split | (with_reducible apply Keeps.upd)))

theorem keeps_takeSource (s : State) (hk : Keeps q0 s) :
    Keeps q0 (takeSource s) := by
  unfold takeSource
  try dsimp only
  iterate 48 (all_goals (try first | (with_reducible first | exact hk | apply keeps_onTime | assumption | exact id | rfl | intro _ | apply keeps_ite) | split | (with_reducible apply Keeps.upd)))

theorem keeps_sourceLost (s : State) (hk : Keeps q0 s) :
    Keeps q0 (sourceLost s) := by
  unfold sourceLost
  try dsimp only
  iterate 48 (all_goals (try first | (with_reducible first | exact hk | apply keeps_takeSource | apply keeps_timeHoldover | assumption | exact id | rfl | intro _ | apply keeps_ite) | split | (with_reducible apply Keeps.upd)))

theorem keeps_timeReselect (s : State) (hk : Keeps q0 s) :
    Keeps q0 (timeReselect s) := by
  unfold timeReselect
  try dsimp only
  iterate 48 (all_goals (try first | (with_reducible first | exact hk | apply keeps_takeSource | apply keeps_timeHoldover | assumption | exact id | rfl | intro _ | apply keeps_ite) | split | (with_reducible apply Keeps.upd)))

theorem keeps_timeLoad (s : State) (ns : Nat) (hk : Keeps q0 s) :
    Keeps q0 (timeLoad s ns) := by
  unfold timeLoad
  try dsimp only
  iterate 48 (all_goals (try first | (with_reducible first | exact hk | apply keeps_onTime | assumption | exact id | rfl | intro _ | apply keeps_ite) | split | (with_reducible apply Keeps.upd)))

theorem keeps_freqDraw (s : State) (hk : Keeps q0 s) :
    Keeps q0 (freqDraw s) := by
  unfold freqDraw
  try dsimp only
  iterate 48 (all_goals (try first | (with_reducible first | exact hk | apply keeps_onTime | apply keeps_takeFree | refine keeps_takeFree_eq (by assumption) ?_ | assumption | exact id | rfl | intro _ | apply keeps_ite) | split | (with_reducible apply Keeps.upd)))

theorem keeps_slewBy (s : State) (delta : Int) (hk : Keeps q0 s) :
    Keeps q0 (slewBy s delta) := by
  unfold slewBy
  try dsimp only
  iterate 48 (all_goals (try first | (with_reducible first | exact hk | apply keeps_onTime | assumption | exact id | rfl | intro _ | apply keeps_ite) | split | (with_reducible apply Keeps.upd)))

theorem keeps_correct (s : State) (delta : Int) (hk : Keeps q0 s) :
    Keeps q0 (correct s delta) := by
  unfold correct
  try dsimp only
  iterate 48 (all_goals (try first | (with_reducible first | exact hk | apply keeps_onTime | apply keeps_slewBy | assumption | exact id | rfl | intro _ | apply keeps_ite) | split | (with_reducible apply Keeps.upd)))

theorem keeps_timeFar (s : State) (delta : Int) (hk : Keeps q0 s) :
    Keeps q0 (timeFar s delta) := by
  unfold timeFar
  try dsimp only
  iterate 48 (all_goals (try first | (with_reducible first | exact hk | apply keeps_onTime | apply keeps_postBoth | assumption | exact id | rfl | intro _ | apply keeps_ite) | split | (with_reducible apply Keeps.upd)))

theorem keeps_measured (s : State) (delta : Int) (hk : Keeps q0 s) :
    Keeps q0 (measured s delta) := by
  unfold measured
  try dsimp only
  iterate 48 (all_goals (try first | (with_reducible first | exact hk | apply keeps_correct | apply keeps_freqDraw | apply keeps_onTime | apply keeps_slewBy | apply keeps_takeFree | apply keeps_timeFar | apply keeps_timeGo | apply keeps_timeLoad | refine keeps_takeFree_eq (by assumption) ?_ | assumption | exact id | rfl | intro _ | apply keeps_ite) | split | (with_reducible apply Keeps.upd)))

theorem keeps_ppsOut (s : State) (hk : Keeps q0 s) :
    Keeps q0 (ppsOut s) := by
  unfold ppsOut
  try dsimp only
  iterate 48 (all_goals (try first | (with_reducible first | exact hk | apply keeps_emit | apply keeps_onTime | assumption | exact id | rfl | intro _ | apply keeps_ite) | split | (with_reducible apply Keeps.upd)))

theorem keeps_timeTick (s : State) (hk : Keeps q0 s) :
    Keeps q0 (timeTick s) := by
  unfold timeTick
  try dsimp only
  iterate 48 (all_goals (try first | (with_reducible first | exact hk | apply keeps_onTime | apply keeps_ppsOut | assumption | exact id | rfl | intro _ | apply keeps_ite) | split | (with_reducible apply Keeps.upd)))

theorem keeps_stepApply (s : State) (hk : Keeps q0 s) :
    Keeps q0 (stepApply s) := by
  unfold stepApply
  try dsimp only
  iterate 48 (all_goals (try first | (with_reducible first | exact hk | apply keeps_onTime | apply keeps_postBoth | apply keeps_ppsOut | apply keeps_slewBy | assumption | exact id | rfl | intro _ | apply keeps_ite) | split | (with_reducible apply Keeps.upd)))

theorem keeps_execTimeSend (d : Die) (k : Nat) (s : State) (hk : Keeps q0 s) :
    KeepsOut q0 (execTimeSend d k s) := by
  unfold execTimeSend
  try dsimp only
  iterate 48 (all_goals (try first | (with_reducible first | exact hk | apply keeps_modLink | apply keeps_putFlits | apply keeps_emit | apply keepsOut_next | apply keepsOut_ite | assumption | exact id | rfl | intro _ | apply keeps_ite | apply keepsOut_next | apply keepsOut_ite) | split | (with_reducible apply Keeps.upd)))

theorem keeps_timeReceive (s : State) (d : Die) (k : Nat) (m : TimeFlit) (hk : Keeps q0 s) :
    Keeps q0 (timeReceive s d k m) := by
  unfold timeReceive
  try dsimp only
  iterate 48 (all_goals (try first | (with_reducible first | exact hk | apply keeps_measured | apply keeps_modLink | apply keeps_onTime | apply keeps_sourceLost | apply keeps_takeSource | assumption | exact id | rfl | intro _ | apply keeps_ite) | split | (with_reducible apply Keeps.upd)))

theorem keeps_execTimeReceive (d : Die) (k : Nat) (m : TimeFlit) (s : State) (hk : Keeps q0 s) :
    KeepsOut q0 (execTimeReceive d k m s) := by
  unfold execTimeReceive
  try dsimp only
  iterate 48 (all_goals (try first | (with_reducible first | exact hk | apply keeps_timeReceive | apply keepsOut_next | assumption | exact id | rfl | intro _ | apply keeps_ite | apply keepsOut_next | apply keepsOut_ite) | split | (with_reducible apply Keeps.upd)))

theorem keeps_execTimeSourceTimeout (s : State) (hk : Keeps q0 s) :
    KeepsOut q0 (execTimeSourceTimeout s) := by
  unfold execTimeSourceTimeout
  try dsimp only
  iterate 48 (all_goals (try first | (with_reducible first | exact hk | apply keeps_sourceLost | apply keepsOut_next | apply keepsOut_ite | assumption | exact id | rfl | intro _ | apply keeps_ite | apply keepsOut_next | apply keepsOut_ite) | split | (with_reducible apply Keeps.upd)))

theorem keeps_ppsEdge (s : State) (hk : Keeps q0 s) :
    Keeps q0 (ppsEdge s) := by
  unfold ppsEdge
  try dsimp only
  iterate 48 (all_goals (try first | (with_reducible first | exact hk | apply keeps_measured | apply keeps_onTime | apply keeps_sourceLost | apply keeps_takeSource | apply keeps_timeLoad | assumption | exact id | rfl | intro _ | apply keeps_ite) | split | (with_reducible apply Keeps.upd)))

theorem keeps_execPpsInEdge (s : State) (hk : Keeps q0 s) :
    KeepsOut q0 (execPpsInEdge s) := by
  unfold execPpsInEdge
  try dsimp only
  iterate 48 (all_goals (try first | (with_reducible first | exact hk | apply keeps_ppsEdge | apply keepsOut_next | assumption | exact id | rfl | intro _ | apply keeps_ite | apply keepsOut_next | apply keepsOut_ite) | split | (with_reducible apply Keeps.upd)))

theorem keeps_execHoldoverExpiry (s : State) (hk : Keeps q0 s) :
    KeepsOut q0 (execHoldoverExpiry s) := by
  unfold execHoldoverExpiry
  try dsimp only
  iterate 48 (all_goals (try first | (with_reducible first | exact hk | apply keeps_timeGo | apply keepsOut_next | apply keepsOut_ite | assumption | exact id | rfl | intro _ | apply keeps_ite | apply keepsOut_next | apply keepsOut_ite) | split | (with_reducible apply Keeps.upd)))

theorem keeps_execTimeStepApply (s : State) (hk : Keeps q0 s) :
    KeepsOut q0 (execTimeStepApply s) := by
  unfold execTimeStepApply
  try dsimp only
  iterate 48 (all_goals (try first | (with_reducible first | exact hk | apply keeps_stepApply | apply keepsOut_next | assumption | exact id | rfl | intro _ | apply keeps_ite | apply keepsOut_next | apply keepsOut_ite) | split | (with_reducible apply Keeps.upd)))

theorem keeps_epochSettle (s : State) (d : Die) (n : Nat) (hk : Keeps q0 s) :
    Keeps q0 (epochSettle s d n) := by
  unfold epochSettle
  try dsimp only
  iterate 48 (all_goals (try first | (with_reducible first | exact hk | apply keeps_domActivate | apply keeps_timeReselect | assumption | exact id | rfl | intro _ | apply keeps_ite) | split | (with_reducible apply Keeps.upd)))

theorem keeps_execEpochActivation (d : Die) (n : Nat) (s : State) (hk : Keeps q0 s) :
    KeepsOut q0 (execEpochActivation d n s) := by
  unfold execEpochActivation
  try dsimp only
  iterate 48 (all_goals (try first | (with_reducible first | exact hk | apply keeps_epochSettle | apply keeps_domActivate | apply keeps_timeReselect | apply keepsOut_next | apply keepsOut_ite | assumption | exact id | rfl | intro _ | apply keeps_ite | apply keepsOut_next | apply keepsOut_ite) | split | (with_reducible apply Keeps.upd)))

theorem keeps_actsSettle (s : State) (d : Die) (hk : Keeps q0 s) :
    Keeps q0 (actsSettle s d) := by
  unfold actsSettle
  try dsimp only
  iterate 48 (all_goals (try first | (with_reducible first | exact hk | apply keeps_epochSettle | apply keeps_foldl | apply keeps_gateSettle | apply keeps_foldl_fst | assumption | exact id | rfl | intro _ | apply keeps_ite) | split | (with_reducible apply Keeps.upd)))

theorem keeps_mgTimeCtl (s : State) (b : Block) (hk : Keeps q0 s) :
    KeepsRes q0 (mgTimeCtl s b) := by
  unfold mgTimeCtl
  try dsimp only
  iterate 48 (all_goals (try first | (with_reducible first | exact hk | apply keeps_onTime | apply keeps_timeLoad | apply keeps_timeReselect | apply keepsRes_ok | apply keepsRes_hold | apply keepsRes_ite | assumption | exact id | rfl | intro _ | apply keeps_ite | apply keepsRes_ok | apply keepsRes_hold | exact keepsRes_err | exact keepsRes_mgState | exact keepsRes_mgMalformed | exact keepsRes_mgAccess | apply keepsRes_ite) | split | (with_reducible apply Keeps.upd)))

theorem keeps_setLine (s : State) (home : Die) (a : Nat) (l : Line) (hk : Keeps q0 s) :
    Keeps q0 (setLine s home a l) := by
  unfold setLine
  try dsimp only
  iterate 48 (all_goals (try first | (with_reducible first | exact hk | apply keeps_onEng | assumption | exact id | rfl | intro _ | apply keeps_ite) | split | (with_reducible apply Keeps.upd)))

theorem keeps_hbmBurst (s : State) (home : Die) (a i : Nat) (hk : Keeps q0 s) :
    Keeps q0 (hbmBurst s home a i) := by
  unfold hbmBurst
  try dsimp only
  iterate 48 (all_goals (try first | (with_reducible first | exact hk | apply keeps_pmc | assumption | exact id | rfl | intro _ | apply keeps_ite) | split | (with_reducible apply Keeps.upd)))

theorem keeps_writeBack (s : State) (home : Die) (a : Nat) (yes : Bool) (hk : Keeps q0 s) :
    Keeps q0 (writeBack s home a yes) := by
  unfold writeBack
  try dsimp only
  iterate 48 (all_goals (try first | (with_reducible first | exact hk | apply keeps_hbmBurst | assumption | exact id | rfl | intro _ | apply keeps_ite) | split | (with_reducible apply Keeps.upd)))

theorem keeps_dirEvict (s : State) (home : Die) (a : Nat) (hk : Keeps q0 s) :
    Keeps q0 (dirEvict s home a) := by
  unfold dirEvict
  try dsimp only
  iterate 48 (all_goals (try first | (with_reducible first | exact hk | apply keeps_pmc | apply keeps_setLine | apply keeps_writeBack | assumption | exact id | rfl | intro _ | apply keeps_ite) | split | (with_reducible apply Keeps.upd)))

theorem keeps_dirRoom (s : State) (home : Die) (a : Nat) (hk : Keeps q0 s) :
    Keeps q0 (dirRoom s home a) := by
  unfold dirRoom
  try dsimp only
  iterate 48 (all_goals (try first | (with_reducible first | exact hk | apply keeps_dirEvict | apply keeps_takeFree | refine keeps_takeFree_eq (by assumption) ?_ | assumption | exact id | rfl | intro _ | apply keeps_ite) | split | (with_reducible apply Keeps.upd)))

theorem keeps_evictOwn (s : State) (k : Nat) (home : Die) (a : Nat) (hk : Keeps q0 s) :
    Keeps q0 (evictOwn s k home a) := by
  unfold evictOwn
  try dsimp only
  iterate 48 (all_goals (try first | (with_reducible first | exact hk | apply keeps_setLine | apply keeps_writeBack | assumption | exact id | rfl | intro _ | apply keeps_ite) | split | (with_reducible apply Keeps.upd)))

theorem keeps_cacheRoom (s : State) (k : Nat) (hk : Keeps q0 s) :
    Keeps q0 (cacheRoom s k) := by
  unfold cacheRoom
  try dsimp only
  iterate 48 (all_goals (try first | (with_reducible first | exact hk | apply keeps_evictOwn | apply keeps_takeFree | refine keeps_takeFree_eq (by assumption) ?_ | assumption | exact id | rfl | intro _ | apply keeps_ite) | split | (with_reducible apply Keeps.upd)))

theorem keeps_lineMiss (s : State) (d : Die) (p : Nat) (home : Die) (a : Nat) (hk : Keeps q0 s) :
    Keeps q0 (lineMiss s d p home a) := by
  unfold lineMiss
  try dsimp only
  iterate 48 (all_goals (try first | (with_reducible first | exact hk | apply keeps_cacheRoom | apply keeps_dirRoom | apply keeps_hbmBurst | apply keeps_pmcAt | assumption | exact id | rfl | intro _ | apply keeps_ite) | split | (with_reducible apply Keeps.upd)))

theorem keeps_lineAccess (s : State) (d : Die) (p : Nat) (home : Die) (f : State → State) (h_f : ∀ s, Keeps q0 s → Keeps q0 (f s)) (hk : Keeps q0 s) :
    Keeps q0 (lineAccess s d p home f) := by
  unfold lineAccess
  try dsimp only
  iterate 48 (all_goals (try first | (with_reducible first | exact hk | apply h_f | apply keeps_emit | assumption | exact id | rfl | intro _ | apply keeps_ite) | split | (with_reducible apply Keeps.upd)))

theorem keeps_cacheRead (s : State) (d : Die) (p : Nat) (home : Die) (a : Nat) (hk : Keeps q0 s) :
    Keeps q0 (cacheRead s d p home a) := by
  unfold cacheRead
  try dsimp only
  iterate 48 (all_goals (try first | (with_reducible first | exact hk | apply keeps_lineAccess | apply keeps_lineMiss | apply keeps_pmcAt | apply keeps_setLine | apply keeps_pmc | apply keeps_dirRoom | assumption | exact id | rfl | intro _ | apply keeps_ite) | split | (with_reducible apply Keeps.upd)))

theorem keeps_execCacheRead (d : Die) (p : Nat) (home : Die) (a : Nat) (s : State) (hk : Keeps q0 s) :
    KeepsOut q0 (execCacheRead d p home a s) := by
  unfold execCacheRead
  try dsimp only
  iterate 48 (all_goals (try first | (with_reducible first | exact hk | apply keeps_cacheRead | apply keepsOut_next | assumption | exact id | rfl | intro _ | apply keeps_ite | apply keepsOut_next | apply keepsOut_ite) | split | (with_reducible apply Keeps.upd)))

theorem keeps_cacheWrite (s : State) (d : Die) (p : Nat) (home : Die) (a : Nat) (hk : Keeps q0 s) :
    Keeps q0 (cacheWrite s d p home a) := by
  unfold cacheWrite
  try dsimp only
  iterate 48 (all_goals (try first | (with_reducible first | exact hk | apply keeps_lineAccess | apply keeps_lineMiss | apply keeps_pmcAt | apply keeps_setLine | apply keeps_pmc | apply keeps_dirRoom | assumption | exact id | rfl | intro _ | apply keeps_ite) | split | (with_reducible apply Keeps.upd)))

theorem keeps_execCacheWrite (d : Die) (p : Nat) (home : Die) (a : Nat) (s : State) (hk : Keeps q0 s) :
    KeepsOut q0 (execCacheWrite d p home a s) := by
  unfold execCacheWrite
  try dsimp only
  iterate 48 (all_goals (try first | (with_reducible first | exact hk | apply keeps_cacheWrite | apply keepsOut_next | assumption | exact id | rfl | intro _ | apply keeps_ite | apply keepsOut_next | apply keepsOut_ite) | split | (with_reducible apply Keeps.upd)))

theorem keeps_cacheEvict (s : State) (d : Die) (p : Nat) (home : Die) (a : Nat) (hk : Keeps q0 s) :
    Keeps q0 (cacheEvict s d p home a) := by
  unfold cacheEvict
  try dsimp only
  iterate 48 (all_goals (try first | (with_reducible first | exact hk | apply keeps_evictOwn | apply keeps_lineAccess | apply keeps_setLine | assumption | exact id | rfl | intro _ | apply keeps_ite) | split | (with_reducible apply Keeps.upd)))

theorem keeps_execCacheEvict (d : Die) (p : Nat) (home : Die) (a : Nat) (s : State) (hk : Keeps q0 s) :
    KeepsOut q0 (execCacheEvict d p home a s) := by
  unfold execCacheEvict
  try dsimp only
  iterate 48 (all_goals (try first | (with_reducible first | exact hk | apply keeps_cacheEvict | apply keepsOut_next | assumption | exact id | rfl | intro _ | apply keeps_ite | apply keepsOut_next | apply keepsOut_ite) | split | (with_reducible apply Keeps.upd)))

theorem keeps_execDirectoryEvict (home : Die) (a : Nat) (s : State) (hk : Keeps q0 s) :
    KeepsOut q0 (execDirectoryEvict home a s) := by
  unfold execDirectoryEvict
  try dsimp only
  iterate 48 (all_goals (try first | (with_reducible first | exact hk | apply keeps_dirEvict | apply keepsOut_next | assumption | exact id | rfl | intro _ | apply keeps_ite | apply keepsOut_next | apply keepsOut_ite) | split | (with_reducible apply Keeps.upd)))

theorem keeps_modPair (s : State) (d : Die) (p : Nat) (f : Pair → Pair) (hk : Keeps q0 s) :
    Keeps q0 (modPair s d p f) := by
  unfold modPair
  try dsimp only
  iterate 48 (all_goals (try first | (with_reducible first | exact hk | apply keeps_onEng | assumption | exact id | rfl | intro _ | apply keeps_ite) | split | (with_reducible apply Keeps.upd)))

theorem keeps_pairGo (s : State) (d : Die) (p : Nat) (st : PairSt) (moved : Nat) (hk : Keeps q0 s) :
    Keeps q0 (pairGo s d p st moved) := by
  unfold pairGo
  try dsimp only
  iterate 48 (all_goals (try first | (with_reducible first | exact hk | apply keeps_modPair | apply keeps_postMgmt | apply keeps_raiseLocal | assumption | exact id | rfl | intro _ | apply keeps_ite) | split | (with_reducible apply Keeps.upd)))

theorem keeps_killPair (s : State) (d : Die) (p : Nat) (hk : Keeps q0 s) :
    Keeps q0 (killPair s d p) := by
  unfold killPair
  try dsimp only
  iterate 48 (all_goals (try first | (with_reducible first | exact hk | apply keeps_abandonReads | apply keeps_foldl | apply keeps_judgeMode | apply keeps_modOp | apply keeps_modPair | apply keeps_orphanAll | apply keeps_pairGo | apply keeps_pmcAt | apply keeps_reclaim | apply keeps_foldl_fst | apply keeps_pmc | assumption | exact id | rfl | intro _ | apply keeps_ite) | split | (with_reducible apply Keeps.upd)))

theorem keeps_putThread (s : State) (d : Die) (o : Nat) (p : Nat × Nat) (hk : Keeps q0 s) :
    Keeps q0 (putThread s d o p) := by
  unfold putThread
  try dsimp only
  iterate 48 (all_goals (try first | (with_reducible first | exact hk | apply keeps_modOp | apply keeps_modPair | assumption | exact id | rfl | intro _ | apply keeps_ite) | split | (with_reducible apply Keeps.upd)))

theorem keeps_reexecute (s : State) (d : Die) (p : Nat) (hk : Keeps q0 s) :
    Keeps q0 (reexecute s d p) := by
  unfold reexecute
  try dsimp only
  iterate 48 (all_goals (try first | (with_reducible first | exact hk | apply keeps_foldl | apply keeps_modOp | apply keeps_modPair | apply keeps_pairGo | apply keeps_pmcAt | apply keeps_putThread | apply keeps_foldl_fst | apply keeps_pmc | assumption | exact id | rfl | intro _ | apply keeps_ite) | split | (with_reducible apply Keeps.upd)))

theorem keeps_execPairReexecute (d : Die) (p : Nat) (s : State) (hk : Keeps q0 s) :
    KeepsOut q0 (execPairReexecute d p s) := by
  unfold execPairReexecute
  try dsimp only
  iterate 48 (all_goals (try first | (with_reducible first | exact hk | apply keeps_reexecute | apply keepsOut_next | assumption | exact id | rfl | intro _ | apply keeps_ite | apply keepsOut_next | apply keepsOut_ite) | split | (with_reducible apply Keeps.upd)))

theorem keeps_safeIdle (s : State) (d : Die) (hk : Keeps q0 s) :
    Keeps q0 (safeIdle s d) := by
  unfold safeIdle
  try dsimp only
  iterate 48 (all_goals (try first | (with_reducible first | exact hk | apply keeps_emit | apply keeps_foldl | apply keeps_linkTrain | apply keeps_modLink | apply keeps_foldl_fst | assumption | exact id | rfl | intro _ | apply keeps_ite) | split | (with_reducible apply Keeps.upd)))

theorem keeps_forensicEnter (s : State) (why : Nat) (cause : Option Nat) (hk : Keeps q0 s) :
    Keeps q0 (forensicEnter s why cause) := by
  unfold forensicEnter
  try dsimp only
  iterate 48 (all_goals (try first | (with_reducible first | exact hk | apply keeps_emits | apply keeps_safeIdle | apply keeps_setMode | assumption | exact id | rfl | intro _ | apply keeps_ite) | split | (with_reducible apply Keeps.upd)))

theorem keeps_unitFault (s : State) (d : Die) (b u : Nat) (hk : Keeps q0 s) :
    Keeps q0 (unitFault s d b u) := by
  unfold unitFault
  try dsimp only
  iterate 48 (all_goals (try first | (with_reducible first | exact hk | apply keeps_modUnit | assumption | exact id | rfl | intro _ | apply keeps_ite) | split | (with_reducible apply Keeps.upd)))

theorem keeps_failHomed (s : State) (d : Die) (hk : Keeps q0 s) :
    Keeps q0 (failHomed s d) := by
  unfold failHomed
  try dsimp only
  iterate 48 (all_goals (try first | (with_reducible first | exact hk | apply keeps_failConn | apply keeps_foldl | apply keeps_foldl_fst | assumption | exact id | rfl | intro _ | apply keeps_ite) | split | (with_reducible apply Keeps.upd)))

theorem keeps_hbmLose (s : State) (d : Die) (hk : Keeps q0 s) :
    Keeps q0 (hbmLose s d) := by
  unfold hbmLose
  try dsimp only
  iterate 48 (all_goals (try first | (with_reducible first | exact hk | apply keeps_failHomed | apply keeps_failOp | apply keeps_foldl | apply keeps_judgeMode | apply keeps_ringPause | apply keeps_setInstSt | apply keeps_foldl_fst | assumption | exact id | rfl | intro _ | apply keeps_ite) | split | (with_reducible apply Keeps.upd)))

theorem keeps_catLose (s : State) (d : Die) (hk : Keeps q0 s) :
    Keeps q0 (catLose s d) := by
  unfold catLose
  try dsimp only
  iterate 48 (all_goals (try first | (with_reducible first | exact hk | apply keeps_failOp | apply keeps_foldl | apply keeps_modCtx | apply keeps_postInst | apply keeps_refuseRts | apply keeps_foldl_fst | assumption | exact id | rfl | intro _ | apply keeps_ite) | split | (with_reducible apply Keeps.upd)))

theorem keeps_portHold (s : State) (d : Die) (u : Nat) (hk : Keeps q0 s) :
    Keeps q0 (portHold s d u) := by
  unfold portHold
  try dsimp only
  iterate 48 (all_goals (try first | (with_reducible first | exact hk | apply keeps_foldl | apply keeps_hostLinkDown | apply keeps_foldl_fst | assumption | exact id | rfl | intro _ | apply keeps_ite) | split | (with_reducible apply Keeps.upd)))

theorem keeps_blockFatal (s : State) (d : Die) (b u : Nat) (hk : Keeps q0 s) :
    Keeps q0 (blockFatal s d b u) := by
  unfold blockFatal
  try dsimp only
  iterate 48 (all_goals (try first | (with_reducible first | exact hk | apply keeps_bndFail | apply keeps_brgFault | apply keeps_catLose | apply keeps_emit | apply keeps_foldl | apply keeps_hbmLose | apply keeps_linkFault | apply keeps_onDie | apply keeps_onEng | apply keeps_onHst | apply keeps_onRtr | apply keeps_orphanDie | apply keeps_portHold | apply keeps_timeHoldover | apply keeps_unitFault | apply keeps_foldl_fst | assumption | exact id | rfl | intro _ | apply keeps_ite) | split | (with_reducible apply Keeps.upd)))

theorem keeps_evFault (s : State) (d : Die) (b : Nat) (hk : Keeps q0 s) :
    Keeps q0 (evFault s d b) := by
  unfold evFault
  try dsimp only
  iterate 48 (all_goals (try first | (with_reducible first | exact hk | apply keeps_postMgmt | assumption | exact id | rfl | intro _ | apply keeps_ite) | split | (with_reducible apply Keeps.upd)))

theorem keeps_deviceFatal (s : State) (d : Die) (b : Nat) (hk : Keeps q0 s) :
    Keeps q0 (deviceFatal s d b) := by
  unfold deviceFatal
  try dsimp only
  iterate 48 (all_goals (try first | (with_reducible first | exact hk | apply keeps_forensicEnter | assumption | exact id | rfl | intro _ | apply keeps_ite) | split | (with_reducible apply Keeps.upd)))

theorem keeps_westFirst (s : State) (d : Die) (b : Nat) (hk : Keeps q0 s) :
    Keeps q0 (westFirst s d b) := by
  unfold westFirst
  try dsimp only
  iterate 48 (all_goals (try first | (with_reducible first | exact hk | assumption | exact id | rfl | intro _ | apply keeps_ite) | split | (with_reducible apply Keeps.upd)))

theorem keeps_reactErr (s : State) (d : Die) (b : Nat) (hk : Keeps q0 s) :
    Keeps q0 (reactErr s d b) := by
  unfold reactErr
  try dsimp only
  iterate 48 (all_goals (try first | (with_reducible first | exact hk | apply keeps_blockFatal | apply keeps_deviceFatal | apply keeps_evFault | apply keeps_killPair | apply keeps_modErr | apply keeps_tellDeferred | assumption | exact id | rfl | intro _ | apply keeps_ite) | split | (with_reducible apply Keeps.upd)))

theorem keeps_collect (s : State) (d : Die) (b : Nat) (hk : Keeps q0 s) :
    Keeps q0 (collect s d b) := by
  unfold collect
  try dsimp only
  iterate 48 (all_goals (try first | (with_reducible first | exact hk | apply keeps_errLevel | apply keeps_logErr | apply keeps_modErr | apply keeps_reactErr | assumption | exact id | rfl | intro _ | apply keeps_ite) | split | (with_reducible apply Keeps.upd)))

theorem keeps_reportOne (s : State) (d : Die) (b u : Nat) (cls : FaultClass) (code : Nat) (hk : Keeps q0 s) :
    Keeps q0 (reportOne s d b u cls code) := by
  unfold reportOne
  try dsimp only
  iterate 48 (all_goals (try first | (with_reducible first | exact hk | apply keeps_blockFatal | apply keeps_collect | apply keeps_deviceFatal | apply keeps_logErr | apply keeps_modErr | apply keeps_ownInt | apply keeps_recordErr | apply keeps_unitFault | apply keeps_westFirst | apply keeps_raiseSource | assumption | exact id | rfl | intro _ | apply keeps_ite) | split | (with_reducible apply Keeps.upd)))

theorem keeps_report (s : State) (d : Die) (b u : Nat) (cls : FaultClass) (code : Nat) (hk : Keeps q0 s) :
    Keeps q0 (report s d b u cls code) := by
  unfold report
  try dsimp only
  iterate 48 (all_goals (try first | (with_reducible first | exact hk | apply keeps_blockFatal | apply keeps_reportOne | apply keeps_takeFree | refine keeps_takeFree_eq (by assumption) ?_ | assumption | exact id | rfl | intro _ | apply keeps_ite) | split | (with_reducible apply Keeps.upd)))

theorem keeps_execLookoutReport (d : Die) (b u : Nat) (cls : FaultClass) (code : Nat) (s : State) (hk : Keeps q0 s) :
    KeepsOut q0 (execLookoutReport d b u cls code s) := by
  unfold execLookoutReport
  try dsimp only
  iterate 48 (all_goals (try first | (with_reducible first | exact hk | apply keeps_report | apply keepsOut_next | apply keepsOut_ite | assumption | exact id | rfl | intro _ | apply keeps_ite | apply keepsOut_next | apply keepsOut_ite) | split | (with_reducible apply Keeps.upd)))

theorem keeps_reportOwn (s : State) (d : Die) (b u : Nat) (cls : FaultClass) (hk : Keeps q0 s) :
    Keeps q0 (reportOwn s d b u cls) := by
  unfold reportOwn
  try dsimp only
  iterate 48 (all_goals (try first | (with_reducible first | exact hk | apply keeps_report | apply keeps_takeFree | refine keeps_takeFree_eq (by assumption) ?_ | assumption | exact id | rfl | intro _ | apply keeps_ite) | split | (with_reducible apply Keeps.upd)))

theorem keeps_lockstep (s : State) (d : Die) (p : Nat) (hk : Keeps q0 s) :
    Keeps q0 (lockstep s d p) := by
  unfold lockstep
  try dsimp only
  iterate 48 (all_goals (try first | (with_reducible first | exact hk | apply keeps_blockFatal | apply keeps_killPair | apply keeps_reportOwn | apply keeps_unitFault | assumption | exact id | rfl | intro _ | apply keeps_ite) | split | (with_reducible apply Keeps.upd)))

theorem keeps_execLockstepMismatch (d : Die) (p : Nat) (s : State) (hk : Keeps q0 s) :
    KeepsOut q0 (execLockstepMismatch d p s) := by
  unfold execLockstepMismatch
  try dsimp only
  iterate 48 (all_goals (try first | (with_reducible first | exact hk | apply keeps_lockstep | apply keepsOut_next | apply keepsOut_ite | assumption | exact id | rfl | intro _ | apply keeps_ite | apply keepsOut_next | apply keepsOut_ite) | split | (with_reducible apply Keeps.upd)))

theorem keeps_wireBroken (s : State) (d : Die) (b : Nat) (cls : FaultClass) (hk : Keeps q0 s) :
    Keeps q0 (wireBroken s d b cls) := by
  unfold wireBroken
  try dsimp only
  iterate 48 (all_goals (try first | (with_reducible first | exact hk | apply keeps_corrected | apply keeps_modErr | apply keeps_postMgmt | apply keeps_reportOwn | assumption | exact id | rfl | intro _ | apply keeps_ite) | split | (with_reducible apply Keeps.upd)))

theorem keeps_execLookoutWireBroken (d : Die) (b : Nat) (cls : FaultClass) (s : State) (hk : Keeps q0 s) :
    KeepsOut q0 (execLookoutWireBroken d b cls s) := by
  unfold execLookoutWireBroken
  try dsimp only
  iterate 48 (all_goals (try first | (with_reducible first | exact hk | apply keeps_wireBroken | apply keepsOut_next | apply keepsOut_ite | assumption | exact id | rfl | intro _ | apply keeps_ite | apply keepsOut_next | apply keepsOut_ite) | split | (with_reducible apply Keeps.upd)))

theorem keeps_lookoutPoll (s : State) (d : Die) (b : Nat) (agree : Bool) (hk : Keeps q0 s) :
    Keeps q0 (lookoutPoll s d b agree) := by
  unfold lookoutPoll
  try dsimp only
  iterate 48 (all_goals (try first | (with_reducible first | exact hk | apply keeps_collect | apply keeps_modErr | apply keeps_wireBroken | assumption | exact id | rfl | intro _ | apply keeps_ite) | split | (with_reducible apply Keeps.upd)))

theorem keeps_execLookoutPoll (d : Die) (p : WirePoll) (s : State) (hk : Keeps q0 s) :
    KeepsOut q0 (execLookoutPoll d p s) := by
  unfold execLookoutPoll
  try dsimp only
  iterate 48 (all_goals (try first | (with_reducible first | exact hk | apply keeps_lookoutPoll | apply keeps_wireBroken | apply keeps_collect | apply keepsOut_next | apply keepsOut_ite | assumption | exact id | rfl | intro _ | apply keeps_ite | apply keepsOut_next | apply keepsOut_ite) | split | (with_reducible apply Keeps.upd)))

theorem keeps_statusReset (s : State) (d : Die) (b u : Nat) (hk : Keeps q0 s) :
    Keeps q0 (statusReset s d b u) := by
  unfold statusReset
  try dsimp only
  iterate 48 (all_goals (try first | (with_reducible first | exact hk | apply keeps_setLevel | apply keeps_dropRegs | assumption | exact id | rfl | intro _ | apply keeps_ite) | split | (with_reducible apply Keeps.upd)))

theorem keeps_unitBack (s : State) (d : Die) (b u : Nat) (hk : Keeps q0 s) :
    Keeps q0 (unitBack s d b u) := by
  unfold unitBack
  try dsimp only
  iterate 48 (all_goals (try first | (with_reducible first | exact hk | apply keeps_foldl | apply keeps_judgeMode | apply keeps_linkTrain | apply keeps_onEng | apply keeps_raiseLocal | apply keeps_rescanRings | apply keeps_setReg | apply keeps_foldl_fst | assumption | exact id | rfl | intro _ | apply keeps_ite) | split | (with_reducible apply Keeps.upd)))

theorem keeps_unitTested (s : State) (d : Die) (b u : Nat) (pass : Bool) (hk : Keeps q0 s) :
    Keeps q0 (unitTested s d b u pass) := by
  unfold unitTested
  try dsimp only
  iterate 48 (all_goals (try first | (with_reducible first | exact hk | apply keeps_collect | apply keeps_judgeMode | apply keeps_modUnit | apply keeps_pairGo | apply keeps_statusReset | apply keeps_unitBack | apply keeps_unitFault | assumption | exact id | rfl | intro _ | apply keeps_ite) | split | (with_reducible apply Keeps.upd)))

theorem keeps_execFaultQuietEnd (d : Die) (b u : Nat) (pass : Bool) (s : State) (hk : Keeps q0 s) :
    KeepsOut q0 (execFaultQuietEnd d b u pass s) := by
  unfold execFaultQuietEnd
  try dsimp only
  iterate 48 (all_goals (try first | (with_reducible first | exact hk | apply keeps_unitTested | apply keepsOut_next | apply keepsOut_ite | assumption | exact id | rfl | intro _ | apply keeps_ite | apply keepsOut_next | apply keepsOut_ite) | split | (with_reducible apply Keeps.upd)))

theorem keeps_execPairRetest (d : Die) (p : Nat) (pass : Bool) (s : State) (hk : Keeps q0 s) :
    KeepsOut q0 (execPairRetest d p pass s) := by
  unfold execPairRetest
  try dsimp only
  iterate 48 (all_goals (try first | (with_reducible first | exact hk | apply keeps_unitTested | apply keepsOut_next | apply keepsOut_ite | assumption | exact id | rfl | intro _ | apply keeps_ite | apply keepsOut_next | apply keepsOut_ite) | split | (with_reducible apply Keeps.upd)))

theorem keeps_mgFaultRelease (s : State) (b : Block) (hk : Keeps q0 s) :
    KeepsRes q0 (mgFaultRelease s b) := by
  unfold mgFaultRelease
  try dsimp only
  iterate 48 (all_goals (try first | (with_reducible first | exact hk | apply keeps_foldl | apply keeps_modUnit | apply keeps_foldl_fst | apply keepsRes_ok | apply keepsRes_hold | apply keepsRes_ite | assumption | exact id | rfl | intro _ | apply keeps_ite | apply keepsRes_ok | apply keepsRes_hold | exact keepsRes_err | exact keepsRes_mgState | exact keepsRes_mgMalformed | exact keepsRes_mgAccess | apply keepsRes_ite) | split | (with_reducible apply Keeps.upd)))

theorem keeps_heartbeatMissed (s : State) (d : Die) (hk : Keeps q0 s) :
    Keeps q0 (heartbeatMissed s d) := by
  unfold heartbeatMissed
  try dsimp only
  iterate 48 (all_goals (try first | (with_reducible first | exact hk | apply keeps_deviceFatal | apply keeps_reportOwn | assumption | exact id | rfl | intro _ | apply keeps_ite) | split | (with_reducible apply Keeps.upd)))

theorem keeps_execHeartbeatMissed (d : Die) (s : State) (hk : Keeps q0 s) :
    KeepsOut q0 (execHeartbeatMissed d s) := by
  unfold execHeartbeatMissed
  try dsimp only
  iterate 48 (all_goals (try first | (with_reducible first | exact hk | apply keeps_heartbeatMissed | apply keepsOut_next | assumption | exact id | rfl | intro _ | apply keeps_ite | apply keepsOut_next | apply keepsOut_ite) | split | (with_reducible apply Keeps.upd)))

theorem keeps_execTokenRequest (d : Die) (u : TokenUnit) (s : State) (hk : Keeps q0 s) :
    KeepsOut q0 (execTokenRequest d u s) := by
  unfold execTokenRequest
  try dsimp only
  iterate 48 (all_goals (try first | (with_reducible first | exact hk | apply keeps_onPwr | apply keeps_pmc | apply keepsOut_next | apply keepsOut_ite | assumption | exact id | rfl | intro _ | apply keeps_ite | apply keepsOut_next | apply keepsOut_ite) | split | (with_reducible apply Keeps.upd)))

theorem keeps_tokenStart (s : State) (d : Die) (a0 : TokenUnit) (hk : Keeps q0 s) :
    Keeps q0 (tokenStart s d a0) := by
  unfold tokenStart
  try dsimp only
  iterate 48 (all_goals (try first | (with_reducible first | exact hk | apply keeps_bndFold | apply keeps_bndTidy | apply keeps_emit | apply keeps_linkTrain | apply keeps_modBnd | apply keeps_modLink | apply keeps_modOp | assumption | exact id | rfl | intro _ | apply keeps_ite) | split | (with_reducible apply Keeps.upd)))

theorem keeps_tokenGrant (s : State) (d : Die) (hk : Keeps q0 s) :
    Keeps q0 (tokenGrant s d) := by
  unfold tokenGrant
  try dsimp only
  iterate 48 (all_goals (try first | (with_reducible first | exact hk | apply keeps_onPwr | apply keeps_tokenStart | assumption | exact id | rfl | intro _ | apply keeps_ite) | split | (with_reducible apply Keeps.upd)))

theorem keeps_execTokenGrant (d : Die) (s : State) (hk : Keeps q0 s) :
    KeepsOut q0 (execTokenGrant d s) := by
  unfold execTokenGrant
  try dsimp only
  iterate 48 (all_goals (try first | (with_reducible first | exact hk | apply keeps_tokenGrant | apply keepsOut_next | assumption | exact id | rfl | intro _ | apply keeps_ite | apply keepsOut_next | apply keepsOut_ite) | split | (with_reducible apply Keeps.upd)))

theorem keeps_tokenRelease (s : State) (d : Die) (u : TokenUnit) (hk : Keeps q0 s) :
    Keeps q0 (tokenRelease s d u) := by
  unfold tokenRelease
  try dsimp only
  iterate 48 (all_goals (try first | (with_reducible first | exact hk | apply keeps_modBnd | apply keeps_onEng | apply keeps_onPwr | apply keeps_takeFree | refine keeps_takeFree_eq (by assumption) ?_ | assumption | exact id | rfl | intro _ | apply keeps_ite) | split | (with_reducible apply Keeps.upd)))

theorem keeps_execTokenRelease (d : Die) (u : TokenUnit) (s : State) (hk : Keeps q0 s) :
    KeepsOut q0 (execTokenRelease d u s) := by
  unfold execTokenRelease
  try dsimp only
  iterate 48 (all_goals (try first | (with_reducible first | exact hk | apply keeps_tokenRelease | apply keepsOut_next | assumption | exact id | rfl | intro _ | apply keeps_ite | apply keepsOut_next | apply keepsOut_ite) | split | (with_reducible apply Keeps.upd)))

theorem keeps_pwrTick (s : State) (d : Die) (hk : Keeps q0 s) :
    Keeps q0 (pwrTick s d) := by
  unfold pwrTick
  try dsimp only
  iterate 48 (all_goals (try first | (with_reducible first | exact hk | apply keeps_getD | apply keeps_onPwr | apply keeps_takeFree | refine keeps_takeFree_eq (by assumption) ?_ | assumption | exact id | rfl | intro _ | apply keeps_ite) | split | (with_reducible apply Keeps.upd)))

theorem keeps_throttleStep (s : State) (d : Die) (hk : Keeps q0 s) :
    Keeps q0 (throttleStep s d) := by
  unfold throttleStep
  try dsimp only
  iterate 48 (all_goals (try first | (with_reducible first | exact hk | apply keeps_onPwr | apply keeps_setLevel | assumption | exact id | rfl | intro _ | apply keeps_ite) | split | (with_reducible apply Keeps.upd)))

theorem keeps_execThrottleStep (d : Die) (s : State) (hk : Keeps q0 s) :
    KeepsOut q0 (execThrottleStep d s) := by
  unfold execThrottleStep
  try dsimp only
  iterate 48 (all_goals (try first | (with_reducible first | exact hk | apply keeps_throttleStep | apply keepsOut_next | assumption | exact id | rfl | intro _ | apply keeps_ite | apply keepsOut_next | apply keepsOut_ite) | split | (with_reducible apply Keeps.upd)))

theorem keeps_thermTrip (s : State) (hk : Keeps q0 s) :
    Keeps q0 (thermTrip s) := by
  unfold thermTrip
  try dsimp only
  iterate 48 (all_goals (try first | (with_reducible first | exact hk | apply keeps_emit | assumption | exact id | rfl | intro _ | apply keeps_ite) | split | (with_reducible apply Keeps.upd)))

theorem keeps_thermalSample (s : State) (d : Die) (n val : Nat) (hk : Keeps q0 s) :
    Keeps q0 (thermalSample s d n val) := by
  unfold thermalSample
  try dsimp only
  iterate 48 (all_goals (try first | (with_reducible first | exact hk | apply keeps_deviceFatal | apply keeps_onPwr | apply keeps_postMgmt | apply keeps_reportOwn | apply keeps_setLevel | apply keeps_thermTrip | assumption | exact id | rfl | intro _ | apply keeps_ite) | split | (with_reducible apply Keeps.upd)))

theorem keeps_execThermalSample (d : Die) (n val : Nat) (s : State) (hk : Keeps q0 s) :
    KeepsOut q0 (execThermalSample d n val s) := by
  unfold execThermalSample
  try dsimp only
  iterate 48 (all_goals (try first | (with_reducible first | exact hk | apply keeps_thermalSample | apply keepsOut_next | apply keepsOut_ite | assumption | exact id | rfl | intro _ | apply keeps_ite | apply keepsOut_next | apply keepsOut_ite) | split | (with_reducible apply Keeps.upd)))

theorem keeps_voltageSample (s : State) (d : Die) (n mv : Nat) (band : MonBand) (hk : Keeps q0 s) :
    Keeps q0 (voltageSample s d n mv band) := by
  unfold voltageSample
  try dsimp only
  iterate 48 (all_goals (try first | (with_reducible first | exact hk | apply keeps_deviceFatal | apply keeps_onPwr | apply keeps_postMgmt | apply keeps_reportOwn | apply keeps_setLevel | assumption | exact id | rfl | intro _ | apply keeps_ite) | split | (with_reducible apply Keeps.upd)))

theorem keeps_execVoltageSample (d : Die) (n mv : Nat) (band : MonBand) (s : State) (hk : Keeps q0 s) :
    KeepsOut q0 (execVoltageSample d n mv band s) := by
  unfold execVoltageSample
  try dsimp only
  iterate 48 (all_goals (try first | (with_reducible first | exact hk | apply keeps_voltageSample | apply keepsOut_next | apply keepsOut_ite | assumption | exact id | rfl | intro _ | apply keeps_ite | apply keepsOut_next | apply keepsOut_ite) | split | (with_reducible apply Keeps.upd)))

theorem keeps_avsRequest (s : State) (w e : Nat) (hk : Keeps q0 s) :
    Keeps q0 (avsRequest s w e) := by
  unfold avsRequest
  try dsimp only
  iterate 48 (all_goals (try first | (with_reducible first | exact hk | apply keeps_emit | apply keeps_onPwr | apply keeps_takeFree | refine keeps_takeFree_eq (by assumption) ?_ | assumption | exact id | rfl | intro _ | apply keeps_ite) | split | (with_reducible apply Keeps.upd)))

theorem keeps_execAvsRequestChange (w e : Nat) (s : State) (hk : Keeps q0 s) :
    KeepsOut q0 (execAvsRequestChange w e s) := by
  unfold execAvsRequestChange
  try dsimp only
  iterate 48 (all_goals (try first | (with_reducible first | exact hk | apply keeps_avsRequest | apply keepsOut_next | assumption | exact id | rfl | intro _ | apply keeps_ite | apply keepsOut_next | apply keepsOut_ite) | split | (with_reducible apply Keeps.upd)))

theorem keeps_logUncorr (s : State) (d : Die) (u : MemUnit) (hk : Keeps q0 s) :
    Keeps q0 (logUncorr s d u) := by
  unfold logUncorr
  try dsimp only
  iterate 48 (all_goals (try first | (with_reducible first | exact hk | apply keeps_setLevel | apply keeps_setReg | assumption | exact id | rfl | intro _ | apply keeps_ite) | split | (with_reducible apply Keeps.upd)))

theorem keeps_evDeferred (s : State) (d : Die) (u : MemUnit) (ctx : Option Nat) (owner : Option Nat) (hk : Keeps q0 s) :
    Keeps q0 (evDeferred s d u ctx owner) := by
  unfold evDeferred
  try dsimp only
  iterate 48 (all_goals (try first | (with_reducible first | exact hk | apply keeps_getD | apply keeps_postInst | apply keeps_postMgmt | assumption | exact id | rfl | intro _ | apply keeps_ite) | split | (with_reducible apply Keeps.upd)))

theorem keeps_dropLeaving (s : State) (d : Die) (eg chan : Nat) (hk : Keeps q0 s) :
    Keeps q0 (dropLeaving s d eg chan) := by
  unfold dropLeaving
  try dsimp only
  iterate 48 (all_goals (try first | (with_reducible first | exact hk | apply keeps_foldl | apply keeps_modBrg | apply keeps_modLink | apply keeps_onSch | apply keeps_foldl_fst | assumption | exact id | rfl | intro _ | apply keeps_ite) | split | (with_reducible apply Keeps.upd)))

theorem keeps_dropInFlight (s : State) (d : Die) (a0 : InFlight) (hk : Keeps q0 s) :
    Keeps q0 (dropInFlight s d a0) := by
  unfold dropInFlight
  try dsimp only
  iterate 48 (all_goals (try first | (with_reducible first | exact hk | apply keeps_dropLeaving | apply keeps_onSch | assumption | exact id | rfl | intro _ | apply keeps_ite) | split | (with_reducible apply Keeps.upd)))

theorem keeps_poisonOutcome (s : State) (d : Die) (a0 : UnitHolds) (hk : Keeps q0 s) :
    Keeps q0 (poisonOutcome s d a0) := by
  unfold poisonOutcome
  try dsimp only
  iterate 48 (all_goals (try first | (with_reducible first | exact hk | apply keeps_blockFatal | apply keeps_dropInFlight | apply keeps_failConn | apply keeps_failOp | apply keeps_modConn | apply keeps_modCtx | apply keeps_refuseRts | apply keeps_reportOwn | assumption | exact id | rfl | intro _ | apply keeps_ite) | split | (with_reducible apply Keeps.upd)))

theorem keeps_scrubUnit (s : State) (d : Die) (u : MemUnit) (e : UnitError) (hk : Keeps q0 s) :
    Keeps q0 (scrubUnit s d u e) := by
  unfold scrubUnit
  try dsimp only
  iterate 48 (all_goals (try first | (with_reducible first | exact hk | apply keeps_corrected | apply keeps_evDeferred | apply keeps_logUncorr | apply keeps_noteDeferred | apply keeps_onEng | apply keeps_pmc | apply keeps_poisonOutcome | apply keeps_reportOwn | apply keeps_takeFree | refine keeps_takeFree_eq (by assumption) ?_ | assumption | exact id | rfl | intro _ | apply keeps_ite) | split | (with_reducible apply Keeps.upd)))

theorem keeps_execScrubUnit (d : Die) (u : MemUnit) (e : UnitError) (s : State) (hk : Keeps q0 s) :
    KeepsOut q0 (execScrubUnit d u e s) := by
  unfold execScrubUnit
  try dsimp only
  iterate 48 (all_goals (try first | (with_reducible first | exact hk | apply keeps_scrubUnit | apply keepsOut_next | apply keepsOut_ite | assumption | exact id | rfl | intro _ | apply keeps_ite | apply keepsOut_next | apply keepsOut_ite) | split | (with_reducible apply Keeps.upd)))

theorem keeps_scrubStart (s : State) (d : Die) (hk : Keeps q0 s) :
    Keeps q0 (scrubStart s d) := by
  unfold scrubStart
  try dsimp only
  iterate 48 (all_goals (try first | (with_reducible first | exact hk | apply keeps_onEng | assumption | exact id | rfl | intro _ | apply keeps_ite) | split | (with_reducible apply Keeps.upd)))

theorem keeps_execScrubFull (d : Die) (s : State) (hk : Keeps q0 s) :
    KeepsOut q0 (execScrubFull d s) := by
  unfold execScrubFull
  try dsimp only
  iterate 48 (all_goals (try first | (with_reducible first | exact hk | apply keeps_scrubStart | apply keepsOut_next | assumption | exact id | rfl | intro _ | apply keeps_ite | apply keepsOut_next | apply keepsOut_ite) | split | (with_reducible apply Keeps.upd)))

theorem keeps_mgSemBankReset (s : State) (b : Block) (hk : Keeps q0 s) :
    KeepsRes q0 (mgSemBankReset s b) := by
  unfold mgSemBankReset
  try dsimp only
  iterate 48 (all_goals (try first | (with_reducible first | exact hk | apply keeps_bankReset | apply keepsRes_ok | apply keepsRes_hold | apply keepsRes_ite | assumption | exact id | rfl | intro _ | apply keeps_ite | apply keepsRes_ok | apply keepsRes_hold | exact keepsRes_err | exact keepsRes_mgState | exact keepsRes_mgMalformed | exact keepsRes_mgAccess | apply keepsRes_ite) | split | (with_reducible apply Keeps.upd)))

theorem keeps_onSys (s : State) (f : Sys → Sys) (hf : ∀ y : Sys, y.thermtrip = true → (f y).thermtrip = true)
    (hk : Keeps q0 s) : Keeps q0 (onSys s f) := hk.trans ⟨rfl, rfl, rfl, Nat.le_refl _, id, hf _⟩

theorem keeps_drainRing (s : State) (d : Die) (n : Nat) (hk : Keeps q0 s) :
    Keeps q0 (drainRing s d n) := by
  unfold drainRing
  try dsimp only
  iterate 48 (all_goals (try first | (with_reducible first | exact hk | apply keeps_modCmdRing | apply keeps_ringPause | assumption | exact id | rfl | intro _ | apply keeps_ite) | split | (with_reducible apply Keeps.upd)))

theorem keeps_undrainRing (s : State) (d : Die) (n : Nat) (hk : Keeps q0 s) :
    Keeps q0 (undrainRing s d n) := by
  unfold undrainRing
  try dsimp only
  iterate 48 (all_goals (try first | (with_reducible first | exact hk | apply keeps_modCmdRing | apply keeps_ringResume | assumption | exact id | rfl | intro _ | apply keeps_ite) | split | (with_reducible apply Keeps.upd)))

theorem keeps_eachRing (s : State) (f : State → Die → Nat → State) (hf : ∀ s d n, Keeps q0 s → Keeps q0 (f s d n))
    (hk : Keeps q0 s) : Keeps q0 (eachRing s f) := by
  unfold eachRing
  exact keeps_foldl _ _ (fun s n h => hf s _ n h) (keeps_foldl _ _ (fun s n h => hf s _ n h) hk)

theorem keeps_mgModeSet (s : State) (o : Nat) (b : Block) (hk : Keeps q0 s) :
    KeepsRes q0 (mgModeSet s o b) := by
  unfold mgModeSet
  try dsimp only
  iterate 48 (all_goals (try first | (with_reducible first | exact hk | apply keeps_completeOp | apply keeps_drainRing | apply keeps_eachRing | apply keeps_forensicEnter | apply keeps_onSys | apply keeps_setMode | apply keeps_undrainRing | apply keepsRes_ok | apply keepsRes_hold | apply keepsRes_ite | assumption | exact id | rfl | intro _ | apply keeps_ite | apply keepsRes_ok | apply keepsRes_hold | exact keepsRes_err | exact keepsRes_mgState | exact keepsRes_mgMalformed | exact keepsRes_mgAccess | apply keepsRes_ite) | split | (with_reducible apply Keeps.upd)))

theorem keeps_mgArchiveCtl (s : State) (o : Nat) (b : Block) (hk : Keeps q0 s) :
    KeepsRes q0 (mgArchiveCtl s o b) := by
  unfold mgArchiveCtl
  try dsimp only
  iterate 48 (all_goals (try first | (with_reducible first | exact hk | apply keeps_archiveCopyBegin | apply keeps_modOp | apply keepsRes_ok | apply keepsRes_hold | apply keepsRes_ite | assumption | exact id | rfl | intro _ | apply keeps_ite | apply keepsRes_ok | apply keepsRes_hold | exact keepsRes_err | exact keepsRes_mgState | exact keepsRes_mgMalformed | exact keepsRes_mgAccess | apply keepsRes_ite) | split | (with_reducible apply Keeps.upd)))

theorem keeps_archiveWritten (s : State) (hk : Keeps q0 s) :
    Keeps q0 (archiveWritten s) := by
  unfold archiveWritten
  try dsimp only
  iterate 48 (all_goals (try first | (with_reducible first | exact hk | apply keeps_archiveCopyBegin | apply keeps_takeFree | refine keeps_takeFree_eq (by assumption) ?_ | assumption | exact id | rfl | intro _ | apply keeps_ite) | split | (with_reducible apply Keeps.upd)))

theorem keeps_execArchiveComplete (s : State) (hk : Keeps q0 s) :
    KeepsOut q0 (execArchiveComplete s) := by
  unfold execArchiveComplete
  try dsimp only
  iterate 48 (all_goals (try first | (with_reducible first | exact hk | apply keeps_archiveWritten | apply keepsOut_next | apply keepsOut_ite | assumption | exact id | rfl | intro _ | apply keeps_ite | apply keepsOut_next | apply keepsOut_ite) | split | (with_reducible apply Keeps.upd)))

theorem keeps_archiveWrites (s : State) (a : Nat) (hk : Keeps q0 s) :
    Keeps q0 (archiveWrites s a) := by
  unfold archiveWrites
  try dsimp only
  iterate 48 (all_goals (try first | (with_reducible first | exact hk | apply keeps_emit | assumption | exact id | rfl | intro _ | apply keeps_ite) | split | (with_reducible apply Keeps.upd)))

theorem keeps_archiveCopied (s : State) (hk : Keeps q0 s) :
    Keeps q0 (archiveCopied s) := by
  unfold archiveCopied
  try dsimp only
  iterate 48 (all_goals (try first | (with_reducible first | exact hk | apply keeps_archiveWrites | apply keeps_completeOp | apply keeps_foldl | apply keeps_foldl_fst | assumption | exact id | rfl | intro _ | apply keeps_ite) | split | (with_reducible apply Keeps.upd)))

theorem keeps_execArchiveHostCopyDone (s : State) (hk : Keeps q0 s) :
    KeepsOut q0 (execArchiveHostCopyDone s) := by
  unfold execArchiveHostCopyDone
  try dsimp only
  iterate 48 (all_goals (try first | (with_reducible first | exact hk | apply keeps_archiveCopied | apply keepsOut_next | apply keepsOut_ite | assumption | exact id | rfl | intro _ | apply keeps_ite | apply keepsOut_next | apply keepsOut_ite) | split | (with_reducible apply Keeps.upd)))

theorem keeps_deviceReset (s : State) (keep : Bool) (hk : Keeps q0 s) : Keeps q0 (deviceReset s keep) :=
  hk.trans ⟨rfl, rfl, rfl, Nat.le_refl _, fun w => ⟨w.1, rfl, rfl, rfl, rfl, rfl⟩, id⟩

theorem keeps_resetPins (s : State) (hk : Keeps q0 s) :
    Keeps q0 (resetPins s) := by
  unfold resetPins
  try dsimp only
  iterate 48 (all_goals (try first | (with_reducible first | exact hk | apply keeps_emits | assumption | exact id | rfl | intro _ | apply keeps_ite) | split | (with_reducible apply Keeps.upd)))

theorem keeps_execSysResetAssert (lowNs : Nat) (s : State) (hk : Keeps q0 s) :
    KeepsOut q0 (execSysResetAssert lowNs s) := by
  unfold execSysResetAssert
  try dsimp only
  iterate 48 (all_goals (try first | (with_reducible first | exact hk | apply keeps_deviceReset | apply keeps_resetPins | apply keeps_takeFree | apply keepsOut_next | apply keepsOut_ite | refine keeps_takeFree_eq (by assumption) ?_ | assumption | exact id | rfl | intro _ | apply keeps_ite | apply keepsOut_next | apply keepsOut_ite) | split | (with_reducible apply Keeps.upd)))

theorem keeps_execPwrgoodAssert (s : State) (hk : Keeps q0 s) :
    KeepsOut q0 (execPwrgoodAssert s) := by
  unfold execPwrgoodAssert
  try dsimp only
  iterate 48 (all_goals (try first | (with_reducible first | exact hk | apply keeps_onSys | apply keepsOut_next | apply keepsOut_ite | assumption | exact id | rfl | intro _ | apply keeps_ite | apply keepsOut_next | apply keepsOut_ite) | split | (with_reducible apply Keeps.upd)))

theorem keeps_execInternalDeviceReset (s : State) (hk : Keeps q0 s) :
    KeepsOut q0 (execInternalDeviceReset s) := by
  unfold execInternalDeviceReset
  try dsimp only
  iterate 48 (all_goals (try first | (with_reducible first | exact hk | apply keeps_deviceReset | apply keeps_resetPins | apply keepsOut_next | apply keepsOut_ite | assumption | exact id | rfl | intro _ | apply keeps_ite | apply keepsOut_next | apply keepsOut_ite) | split | (with_reducible apply Keeps.upd)))

theorem keeps_bridgesStart (s : State) (hk : Keeps q0 s) :
    Keeps q0 (bridgesStart s) := by
  unfold bridgesStart
  try dsimp only
  iterate 48 (all_goals (try first | (with_reducible first | exact hk | apply keeps_bridgeTrain | apply keeps_setBrgAdmin | assumption | exact id | rfl | intro _ | apply keeps_ite) | split | (with_reducible apply Keeps.upd)))

theorem keeps_resetRelease (s : State) (w : Nat) (hk : Keeps q0 s) :
    Keeps q0 (resetRelease s w) := by
  unfold resetRelease
  try dsimp only
  iterate 48 (all_goals (try first | (with_reducible first | exact hk | apply keeps_bridgesStart | apply keeps_onDie | apply keeps_onSys | apply keeps_takeFree | refine keeps_takeFree_eq (by assumption) ?_ | assumption | exact id | rfl | intro _ | apply keeps_ite) | split | (with_reducible apply Keeps.upd)))

theorem keeps_execResetRelease (straps : BitVec 32) (s : State) (hk : Keeps q0 s) :
    KeepsOut q0 (execResetRelease straps s) := by
  unfold execResetRelease
  try dsimp only
  iterate 48 (all_goals (try first | (with_reducible first | exact hk | apply keeps_resetRelease | apply keepsOut_next | apply keepsOut_ite | assumption | exact id | rfl | intro _ | apply keeps_ite | apply keepsOut_next | apply keepsOut_ite) | split | (with_reducible apply Keeps.upd)))

theorem keeps_aclDefault (s : State) (hk : Keeps q0 s) :
    Keeps q0 (aclDefault s) := by
  unfold aclDefault
  try dsimp only
  iterate 48 (all_goals (try first | (with_reducible first | exact hk | apply keeps_bumpEpoch | apply keeps_setReg | assumption | exact id | rfl | intro _ | apply keeps_ite) | split | (with_reducible apply Keeps.upd)))

theorem keeps_imageChecked (s : State) (slot : Nat) (ok : Bool) (sha : List Byte) (hk : Keeps q0 s) :
    Keeps q0 (imageChecked s slot ok sha) := by
  unfold imageChecked
  try dsimp only
  iterate 48 (all_goals (try first | (with_reducible first | exact hk | apply keeps_aclDefault | apply keeps_onSys | assumption | exact id | rfl | intro _ | apply keeps_ite) | split | (with_reducible apply Keeps.upd)))

theorem keeps_execImageAuthenticated (slot : Nat) (westOk eastOk : Bool) (sha : List Byte) (s : State) (hk : Keeps q0 s) :
    KeepsOut q0 (execImageAuthenticated slot westOk eastOk sha s) := by
  unfold execImageAuthenticated
  try dsimp only
  iterate 48 (all_goals (try first | (with_reducible first | exact hk | apply keeps_imageChecked | apply keepsOut_next | apply keepsOut_ite | assumption | exact id | rfl | intro _ | apply keeps_ite | apply keepsOut_next | apply keepsOut_ite) | split | (with_reducible apply Keeps.upd)))

theorem keeps_pairsReady (s : State) (d : Die) (pass : BitVec 32) (hk : Keeps q0 s) :
    Keeps q0 (pairsReady s d pass) := by
  unfold pairsReady
  try dsimp only
  iterate 48 (all_goals (try first | (with_reducible first | exact hk | apply keeps_onEng | assumption | exact id | rfl | intro _ | apply keeps_ite) | split | (with_reducible apply Keeps.upd)))

theorem keeps_selfTested (s : State) (d : Die) (pairs : BitVec 32) (hbm : Bool) (hk : Keeps q0 s) :
    Keeps q0 (selfTested s d pairs hbm) := by
  unfold selfTested
  try dsimp only
  iterate 48 (all_goals (try first | (with_reducible first | exact hk | apply keeps_blockFatal | apply keeps_pairsReady | apply keeps_reportOwn | assumption | exact id | rfl | intro _ | apply keeps_ite) | split | (with_reducible apply Keeps.upd)))

theorem keeps_bridgeSettled (s : State) (b : Bridge) (hk : Keeps q0 s) :
    Keeps q0 (bridgeSettled s b) := by
  unfold bridgeSettled
  try dsimp only
  iterate 48 (all_goals (try first | (with_reducible first | exact hk | apply keeps_bridgeTrained | assumption | exact id | rfl | intro _ | apply keeps_ite) | split | (with_reducible apply Keeps.upd)))

theorem keeps_collectAll (s : State) (hk : Keeps q0 s) :
    Keeps q0 (collectAll s) := by
  unfold collectAll
  try dsimp only
  iterate 48 (all_goals (try first | (with_reducible first | exact hk | apply keeps_collect | apply keeps_foldl | apply keeps_foldl_fst | assumption | exact id | rfl | intro _ | apply keeps_ite) | split | (with_reducible apply Keeps.upd)))

theorem keeps_wakeTrain (s : State) (d : Die) (hk : Keeps q0 s) :
    Keeps q0 (wakeTrain s d) := by
  unfold wakeTrain
  try dsimp only
  iterate 48 (all_goals (try first | (with_reducible first | exact hk | apply keeps_foldl | apply keeps_linkTrain | apply keeps_foldl_fst | assumption | exact id | rfl | intro _ | apply keeps_ite) | split | (with_reducible apply Keeps.upd)))

theorem keeps_treesBack (s : State) (d : Die) (hk : Keeps q0 s) :
    Keeps q0 (treesBack s d) := by
  unfold treesBack
  try dsimp only
  iterate 48 (all_goals (try first | (with_reducible first | exact hk | apply keeps_bndInstall | apply keeps_foldl | apply keeps_foldl_fst | assumption | exact id | rfl | intro _ | apply keeps_ite) | split | (with_reducible apply Keeps.upd)))

theorem keeps_serviceBegins (s : State) (waking : Bool) (hk : Keeps q0 s) :
    Keeps q0 (serviceBegins s waking) := by
  unfold serviceBegins
  try dsimp only
  iterate 48 (all_goals (try first | (with_reducible first | exact hk | apply keeps_setMode | assumption | exact id | rfl | intro _ | apply keeps_ite) | split | (with_reducible apply Keeps.upd)))

theorem keeps_selfTests (s : State) (hk : Keeps q0 s) :
    Keeps q0 (selfTests s).2 := by
  unfold selfTests
  try dsimp only
  iterate 48 (all_goals (try first | (with_reducible first | exact hk | apply keeps_takeFree | refine keeps_takeFree_eq (by assumption) ?_ | assumption | exact id | rfl | intro _ | apply keeps_ite) | split | (with_reducible apply Keeps.upd)))
theorem keeps_selfTests_eq {s : State} {t0 : State} {b0 : SelfTest} (he : selfTests s = (b0, t0)) (hk : Keeps q0 s) : Keeps q0 t0 := by
  have := keeps_selfTests s hk; rw [he] at this; exact this

theorem keeps_bringupDone (s : State) (t : SelfTest) (hk : Keeps q0 s) :
    Keeps q0 (bringupDone s t) := by
  unfold bringupDone
  try dsimp only
  iterate 48 (all_goals (try first | (with_reducible first | exact hk | apply keeps_brgAfter | apply keeps_bridgeSettled | apply keeps_collectAll | apply keeps_onSys | apply keeps_selfTested | apply keeps_serviceBegins | apply keeps_treesBack | apply keeps_wakeTrain | apply keeps_pairsReady | apply keeps_setMode | assumption | exact id | rfl | intro _ | apply keeps_ite) | split | (with_reducible apply Keeps.upd)))

theorem keeps_execBringupComplete (s : State) (hk : Keeps q0 s) :
    KeepsOut q0 (execBringupComplete s) := by
  unfold execBringupComplete
  try dsimp only
  iterate 48 (all_goals (try first | (with_reducible first | exact hk | apply keeps_bringupDone | apply keeps_selfTests | apply keepsOut_next | apply keepsOut_ite | refine keeps_selfTests_eq (by assumption) ?_ | assumption | exact id | rfl | intro _ | apply keeps_ite | apply keepsOut_next | apply keepsOut_ite) | split | (with_reducible apply Keeps.upd)))

theorem keeps_hostLinksDown (s : State) (hk : Keeps q0 s) :
    Keeps q0 (hostLinksDown s) := by
  unfold hostLinksDown
  try dsimp only
  iterate 48 (all_goals (try first | (with_reducible first | exact hk | apply keeps_foldl | apply keeps_hostLinkDown | apply keeps_foldl_fst | assumption | exact id | rfl | intro _ | apply keeps_ite) | split | (with_reducible apply Keeps.upd)))

theorem keeps_standby {s : State} {west east i3c latches holds} {p : Nat × Nat → Bool} {pi : Nat × Inst → Bool} {pf : Nat × Fn → Bool}
    (hk : Keeps q0 s) :
    Keeps q0 { s with west := west, east := east, i3c := i3c, latches := latches, holds := holds, views := [], insts := s.insts.filter pi,
                      fns := s.fns.filter pf, ops := [], regs := s.regs.filter p } :=
  hk.trans ⟨rfl, rfl, rfl, Nat.le_refl _, fun w => ⟨w.1, twfFrom_filter 0 _ _ w.2.1, rfl, twfFrom_filter _ _ _ w.2.2.2.1,
    twfFrom_filter _ _ _ w.2.2.2.2.1, rfl⟩, id⟩

theorem keeps_standbyEnter (s : State) (hk : Keeps q0 s) : Keeps q0 (standbyEnter s) := by
  unfold standbyEnter
  refine keeps_standby ?_
  iterate 12 (all_goals (try first | with_reducible exact hk | with_reducible apply keeps_onSys | with_reducible apply keeps_hostLinksDown | with_reducible apply keeps_setMode | with_reducible apply keeps_ite | with_reducible apply keeps_timeHoldover | with_reducible exact fun _ => id))

theorem keeps_execStandbyEntry (s : State) (hk : Keeps q0 s) :
    KeepsOut q0 (execStandbyEntry s) := by
  unfold execStandbyEntry
  try dsimp only
  iterate 48 (all_goals (try first | (with_reducible first | exact hk | apply keeps_standbyEnter | apply keepsOut_next | apply keepsOut_ite | assumption | exact id | rfl | intro _ | apply keeps_ite | apply keepsOut_next | apply keepsOut_ite) | split | (with_reducible apply Keeps.upd)))

theorem keeps_wakePins (s : State) (d : Die) (hk : Keeps q0 s) :
    Keeps q0 (wakePins s d) := by
  unfold wakePins
  try dsimp only
  iterate 48 (all_goals (try first | (with_reducible first | exact hk | apply keeps_emit | apply keeps_foldl | apply keeps_onHst | apply keeps_foldl_fst | assumption | exact id | rfl | intro _ | apply keeps_ite) | split | (with_reducible apply Keeps.upd)))

theorem keeps_pmcClear (s : State) (hk : Keeps q0 s) :
    Keeps q0 (pmcClear s) := by
  unfold pmcClear
  try dsimp only
  iterate 48 (all_goals (try first | (with_reducible first | exact hk | apply keeps_onCrz | apply keeps_dropReg | assumption | exact id | rfl | intro _ | apply keeps_ite) | split | (with_reducible apply Keeps.upd)))

theorem keeps_standbyWake (s : State) (n : Nat) (hk : Keeps q0 s) :
    Keeps q0 (standbyWake s n) := by
  unfold standbyWake
  try dsimp only
  iterate 48 (all_goals (try first | (with_reducible first | exact hk | apply keeps_bridgeTrain | apply keeps_onSys | apply keeps_pmcClear | apply keeps_wakePins | assumption | exact id | rfl | intro _ | apply keeps_ite) | split | (with_reducible apply Keeps.upd)))

theorem keeps_execStandbyWake (n : Nat) (s : State) (hk : Keeps q0 s) :
    KeepsOut q0 (execStandbyWake n s) := by
  unfold execStandbyWake
  try dsimp only
  iterate 48 (all_goals (try first | (with_reducible first | exact hk | apply keeps_standby | apply keeps_standbyWake | apply keepsOut_next | apply keepsOut_ite | assumption | exact id | rfl | intro _ | apply keeps_ite | apply keepsOut_next | apply keepsOut_ite) | split | (with_reducible apply Keeps.upd)))

theorem keeps_raiseAon (s : State) (n : Nat) (hk : Keeps q0 s) :
    Keeps q0 (raiseAon s n) := by
  unfold raiseAon
  try dsimp only
  iterate 48 (all_goals (try first | (with_reducible first | exact hk | apply keeps_raiseLocal | assumption | exact id | rfl | intro _ | apply keeps_ite) | split | (with_reducible apply Keeps.upd)))

theorem keeps_execWakeTimerExpiry (s : State) (hk : Keeps q0 s) :
    KeepsOut q0 (execWakeTimerExpiry s) := by
  unfold execWakeTimerExpiry
  try dsimp only
  iterate 48 (all_goals (try first | (with_reducible first | exact hk | apply keeps_onSys | apply keeps_raiseAon | apply keeps_standby | apply keepsOut_next | apply keepsOut_ite | assumption | exact id | rfl | intro _ | apply keeps_ite | apply keepsOut_next | apply keepsOut_ite) | split | (with_reducible apply Keeps.upd)))

theorem keeps_execMgtWakeWrite (s : State) (hk : Keeps q0 s) :
    KeepsOut q0 (execMgtWakeWrite s) := by
  unfold execMgtWakeWrite
  try dsimp only
  iterate 48 (all_goals (try first | (with_reducible first | exact hk | apply keeps_raiseAon | apply keepsOut_next | apply keepsOut_ite | assumption | exact id | rfl | intro _ | apply keeps_ite | apply keepsOut_next | apply keepsOut_ite) | split | (with_reducible apply Keeps.upd)))

end Sys2Proof.Laws
end

