-- ==== Sys2Proof/Laws/Keeps4.lean ====
section
/-! SUPPORT. `Keeps`, one lemma for each operation and command: registers, the mailbox, the command engine and the ports. -/

set_option linter.unusedVariables false
set_option linter.unusedTactic false
set_option linter.unreachableTactic false
set_option maxRecDepth 10000

namespace Sys2Proof.Laws

open Sys2Proof Sys2Proof.Machine

variable {q0 : State}

theorem keeps_regNow (s : State) (d : Die) (off : Nat) (hk : Keeps q0 s) :
    Keeps q0 (regNow s d off).1 := by
  unfold regNow
  try dsimp only
  iterate 48 (all_goals (try first | (with_reducible first | exact hk | apply keeps_takeFree | refine keeps_takeFree_eq (by assumption) ?_ | assumption | exact id | rfl | intro _ | apply keeps_ite) | split | (with_reducible apply Keeps.upd)))
theorem keeps_regNow_eq {s : State}  {d : Die}  {off : Nat} {t0 : State} {b0 : Nat} (he : regNow s d off = (t0, b0)) (hk : Keeps q0 s) : Keeps q0 t0 := by
  have := keeps_regNow s d off hk; rw [he] at this; exact this

theorem unview_tidy (d : Die) (offs : List Nat) (t : Tab Nat) (h : twf 0 t = true) :
    twf 0 (offs.foldl (fun t o => tset 0 t (regKey d o) 0) t) = true := by
  induction offs generalizing t with
  | nil => exact h
  | cons o l ih => exact ih _ (tset_wf 0 _ _ _ h)

theorem keeps_unview (s : State) (d : Die) (offs : List Nat) (hk : Keeps q0 s) : Keeps q0 (unview s d offs) :=
  hk.trans ⟨rfl, rfl, rfl, Nat.le_refl _, fun w => ⟨w.1, w.2.1, unview_tidy d offs _ w.2.2.1, w.2.2.2⟩, id⟩

theorem keeps_logCleared (s : State) (d : Die) (off lo n level : Nat) (hk : Keeps q0 s) :
    Keeps q0 (logCleared s d off lo n level) := by
  unfold logCleared
  try dsimp only
  iterate 48 (all_goals (try first | (with_reducible first | exact hk | apply keeps_setLevel | apply keeps_setReg | assumption | exact id | rfl | intro _ | apply keeps_ite) | split | (with_reducible apply Keeps.upd)))

theorem keeps_errClear (s : State) (d : Die) (b v : Nat) (hk : Keeps q0 s) :
    Keeps q0 (errClear s d b v) := by
  unfold errClear
  try dsimp only
  iterate 48 (all_goals (try first | (with_reducible first | exact hk | apply keeps_errLevel | apply keeps_modErr | assumption | exact id | rfl | intro _ | apply keeps_ite) | split | (with_reducible apply Keeps.upd)))

theorem keeps_semCtl (s : State) (m : Master) (d : Die) (n v : Nat) (hk : Keeps q0 s) :
    Keeps q0 (semCtl s m d n v) := by
  unfold semCtl
  try dsimp only
  iterate 48 (all_goals (try first | (with_reducible first | exact hk | apply keeps_semArmOp | apply keeps_semDisarmOp | apply keeps_semReleaseOp | assumption | exact id | rfl | intro _ | apply keeps_ite) | split | (with_reducible apply Keeps.upd)))

theorem keeps_aclWrite (s : State) (n v : Nat) (hk : Keeps q0 s) :
    Keeps q0 (aclWrite s n v) := by
  unfold aclWrite
  try dsimp only
  iterate 48 (all_goals (try first | (with_reducible first | exact hk | apply keeps_bumpEpoch | apply keeps_postBoth | apply keeps_setReg | assumption | exact id | rfl | intro _ | apply keeps_ite) | split | (with_reducible apply Keeps.upd)))

theorem keeps_regEffect (s : State) (m : Master) (d : Die) (off old data : Nat) (hk : Keeps q0 s) :
    Keeps q0 (regEffect s m d off old data) := by
  unfold regEffect
  try dsimp only
  iterate 48 (all_goals (try first | (with_reducible first | exact hk | apply keeps_cqHeadWrite | apply keeps_errClear | apply keeps_intComplete | apply keeps_logCleared | apply keeps_mgtEvtStart | apply keeps_mgtHeadWrite | apply keeps_onEng | apply keeps_pmcSnap | apply keeps_raiseAon | apply keeps_raiseLocal | apply keeps_scrubStart | apply keeps_semCtl | apply keeps_setReg | apply keeps_specFlush | apply keeps_srcDisabled | apply keeps_srcRetarget | apply keeps_unview | assumption | exact id | rfl | intro _ | apply keeps_ite) | split | (with_reducible apply Keeps.upd)))

theorem keeps_regStore (s : State) (m : Master) (d : Die) (off : Nat) (f : RegFam) (data : Nat) (hk : Keeps q0 s) :
    Keeps q0 (regStore s m d off f data) := by
  unfold regStore
  try dsimp only
  iterate 48 (all_goals (try first | (with_reducible first | exact hk | apply keeps_aclWrite | apply keeps_regEffect | apply keeps_setReg | assumption | exact id | rfl | intro _ | apply keeps_ite) | split | (with_reducible apply Keeps.upd)))

theorem keeps_regStoreHigh (s : State) (m : Master) (d : Die) (off : Nat) (f : RegFam) (data : Nat) (hk : Keeps q0 s) :
    Keeps q0 (regStoreHigh s m d off f data) := by
  unfold regStoreHigh
  try dsimp only
  iterate 48 (all_goals (try first | (with_reducible first | exact hk | apply keeps_regStore | assumption | exact id | rfl | intro _ | apply keeps_ite) | split | (with_reducible apply Keeps.upd)))

theorem keeps_unhold (s : State) (m : Master) (hk : Keeps q0 s) :
    Keeps q0 (unhold s m) := by
  unfold unhold
  try dsimp only
  iterate 48 (all_goals (try first | (with_reducible first | exact hk | assumption | exact id | rfl | intro _ | apply keeps_ite) | split | (with_reducible apply Keeps.upd)))

theorem keeps_latchHigh (s : State) (m : Master) (off val : Nat) (hk : Keeps q0 s) :
    Keeps q0 (latchHigh s m off val) := by
  unfold latchHigh
  try dsimp only
  iterate 48 (all_goals (try first | (with_reducible first | exact hk | assumption | exact id | rfl | intro _ | apply keeps_ite) | split | (with_reducible apply Keeps.upd)))

theorem keeps_unlatch (s : State) (m : Master) (hk : Keeps q0 s) :
    Keeps q0 (unlatch s m) := by
  unfold unlatch
  try dsimp only
  iterate 48 (all_goals (try first | (with_reducible first | exact hk | assumption | exact id | rfl | intro _ | apply keeps_ite) | split | (with_reducible apply Keeps.upd)))

theorem keeps_viewPut (s : State) (k v : Nat) (hk : Keeps q0 s) : Keeps q0 { s with views := tset 0 s.views k v } :=
  hk.trans ⟨rfl, rfl, rfl, Nat.le_refl _, fun w => ⟨w.1, w.2.1, tset_wf 0 _ _ _ w.2.2.1, w.2.2.2⟩, id⟩

theorem keeps_viewRead (s : State) (d : Die) (off : Nat) (hk : Keeps q0 s) : Keeps q0 (viewRead s d off) := by
  unfold viewRead
  refine keeps_ite (keeps_viewPut _ _ _ (keeps_viewPut _ _ _ hk)) (keeps_ite (keeps_viewPut _ _ _ hk) (keeps_ite (keeps_viewPut _ _ _ hk)
    (keeps_ite (keeps_foldl _ _ (fun s o h => keeps_viewPut _ _ _ h) hk) (keeps_ite (keeps_qViewRead _ _ hk) hk))))

theorem keeps_readWhole (s : State) (m : Master) (d : Die) (off : Nat) (hk : Keeps q0 s) :
    Keeps q0 (readWhole s m d off).1 := by
  unfold readWhole
  try dsimp only
  iterate 48 (all_goals (try first | (with_reducible first | exact hk | apply keeps_intClaim | apply keeps_regNow | apply keeps_semRead | apply keeps_viewRead | refine keeps_intClaim_eq (by assumption) ?_ | refine keeps_regNow_eq (by assumption) ?_ | refine keeps_semRead_eq (by assumption) ?_ | assumption | exact id | rfl | intro _ | apply keeps_ite) | split | (with_reducible apply Keeps.upd)))
theorem keeps_readWhole_eq {s : State}  {m : Master}  {d : Die}  {off : Nat} {t0 : State} {b0 : Nat} (he : readWhole s m d off = (t0, b0)) (hk : Keeps q0 s) : Keeps q0 t0 := by
  have := keeps_readWhole s m d off hk; rw [he] at this; exact this

theorem keeps_readHalf (s : State) (m : Master) (d : Die) (off key : Nat) (high : Bool) (hk : Keeps q0 s) :
    Keeps q0 (readHalf s m d off key high).1 := by
  unfold readHalf
  try dsimp only
  iterate 48 (all_goals (try first | (with_reducible first | exact hk | apply keeps_latchHigh | apply keeps_regNow | apply keeps_unlatch | refine keeps_regNow_eq (by assumption) ?_ | assumption | exact id | rfl | intro _ | apply keeps_ite) | split | (with_reducible apply Keeps.upd)))
theorem keeps_readHalf_eq {s : State}  {m : Master}  {d : Die}  {off key : Nat}  {high : Bool} {t0 : State} {b0 : Nat} (he : readHalf s m d off key high = (t0, b0)) (hk : Keeps q0 s) : Keeps q0 t0 := by
  have := keeps_readHalf s m d off key high hk; rw [he] at this; exact this

theorem keeps_readDie (s : State) (m : Master) (d : Die) (o off size : Nat) (hk : Keeps q0 s) :
    Keeps q0 (readDie s m d o off size).1 := by
  unfold readDie
  try dsimp only
  iterate 48 (all_goals (try first | (with_reducible first | exact hk | apply keeps_readHalf | apply keeps_readWhole | apply keeps_regNow | apply keeps_takeFree | refine keeps_readHalf_eq (by assumption) ?_ | refine keeps_readWhole_eq (by assumption) ?_ | refine keeps_regNow_eq (by assumption) ?_ | refine keeps_takeFree_eq (by assumption) ?_ | assumption | exact id | rfl | intro _ | apply keeps_ite) | split | (with_reducible apply Keeps.upd)))
theorem keeps_readDie_eq {s : State}  {m : Master}  {d : Die}  {o off size : Nat} {t0 : State} {b0 : Nat} (he : readDie s m d o off size = (t0, b0)) (hk : Keeps q0 s) : Keeps q0 t0 := by
  have := keeps_readDie s m d o off size hk; rw [he] at this; exact this

theorem keeps_regReadAs (s : State) (m : Master) (bar : Bool) (off size : Nat) (hk : Keeps q0 s) :
    Keeps q0 (regReadAs s m bar off size).1 := by
  unfold regReadAs
  try dsimp only
  iterate 48 (all_goals (try first | (with_reducible first | exact hk | apply keeps_readDie | apply keeps_unhold | refine keeps_readDie_eq (by assumption) ?_ | assumption | exact id | rfl | intro _ | apply keeps_ite) | split | (with_reducible apply Keeps.upd)))
theorem keeps_regReadAs_eq {s : State}  {m : Master}  {bar : Bool}  {off size : Nat} {t0 : State} {b0 : Access} (he : regReadAs s m bar off size = (t0, b0)) (hk : Keeps q0 s) : Keeps q0 t0 := by
  have := keeps_regReadAs s m bar off size hk; rw [he] at this; exact this

theorem keeps_writeDie (s : State) (m : Master) (d : Die) (o size data : Nat) (low : Option Nat) (key : Nat) (hk : Keeps q0 s) :
    Keeps q0 (writeDie s m d o size data low key).1 := by
  unfold writeDie
  try dsimp only
  iterate 48 (all_goals (try first | (with_reducible first | exact hk | apply keeps_regStore | apply keeps_regStoreHigh | apply keeps_ringDoorbell | assumption | exact id | rfl | intro _ | apply keeps_ite) | split | (with_reducible apply Keeps.upd)))
theorem keeps_writeDie_eq {s : State}  {m : Master}  {d : Die}  {o size data : Nat}  {low : Option Nat}  {key : Nat} {t0 : State} {b0 : Bool} (he : writeDie s m d o size data low key = (t0, b0)) (hk : Keeps q0 s) : Keeps q0 t0 := by
  have := keeps_writeDie s m d o size data low key hk; rw [he] at this; exact this

theorem keeps_imageWrite (s : State) (m : Master) (home : Die) (x size data : Nat) (low : Option Nat) (hk : Keeps q0 s) :
    Keeps q0 (imageWrite s m home x size data low).1 := by
  unfold imageWrite
  try dsimp only
  iterate 48 (all_goals (try first | (with_reducible first | exact hk | apply keeps_aclDenied | apply keeps_foldl | apply keeps_writeDie | apply keeps_foldl_fst | refine keeps_writeDie_eq (by assumption) ?_ | assumption | exact id | rfl | intro _ | apply keeps_ite) | split | (with_reducible apply Keeps.upd)))
theorem keeps_imageWrite_eq {s : State}  {m : Master}  {home : Die}  {x size data : Nat}  {low : Option Nat} {t0 : State} {b0 : Access} (he : imageWrite s m home x size data low = (t0, b0)) (hk : Keeps q0 s) : Keeps q0 t0 := by
  have := keeps_imageWrite s m home x size data low hk; rw [he] at this; exact this

theorem keeps_onceHeld (s : State) (m : Master) (hk : Keeps q0 s) :
    Keeps q0 (onceHeld s m) := by
  unfold onceHeld
  try dsimp only
  iterate 48 (all_goals (try first | (with_reducible first | exact hk | assumption | exact id | rfl | intro _ | apply keeps_ite) | split | (with_reducible apply Keeps.upd)))

theorem keeps_regWriteAs (s : State) (m : Master) (bar : Bool) (home : Die) (off size data : Nat) (hk : Keeps q0 s) :
    Keeps q0 (regWriteAs s m bar home off size data).1 := by
  unfold regWriteAs
  try dsimp only
  iterate 48 (all_goals (try first | (with_reducible first | exact hk | apply keeps_aclDenied | apply keeps_imageWrite | apply keeps_onceHeld | apply keeps_unhold | apply keeps_writeDie | refine keeps_imageWrite_eq (by assumption) ?_ | refine keeps_writeDie_eq (by assumption) ?_ | assumption | exact id | rfl | intro _ | apply keeps_ite) | split | (with_reducible apply Keeps.upd)))
theorem keeps_regWriteAs_eq {s : State}  {m : Master}  {bar : Bool}  {home : Die}  {off size data : Nat} {t0 : State} {b0 : Access} (he : regWriteAs s m bar home off size data = (t0, b0)) (hk : Keeps q0 s) : Keeps q0 t0 := by
  have := keeps_regWriteAs s m bar home off size data hk; rw [he] at this; exact this

theorem keeps_bridgeAct (s : State) (b : Bridge) (a0 : Nat) (hk : Keeps q0 s) :
    KeepsOpt q0 (bridgeAct s b a0) := by
  unfold bridgeAct
  try dsimp only
  iterate 48 (all_goals (try first | (with_reducible first | exact hk | apply keeps_bridgeDisable | apply keeps_bridgeEnable | apply keeps_bridgeRelease | apply keepsOpt_some | refine keeps_bridgeDisable_eq (by assumption) ?_ | refine keeps_bridgeEnable_eq (by assumption) ?_ | refine keeps_bridgeRelease_eq (by assumption) ?_ | assumption | exact id | rfl | intro _ | apply keeps_ite | apply keepsOpt_some | exact keepsOpt_none | apply keepsOpt_ite) | split | (with_reducible apply Keeps.upd)))
theorem keeps_bridgeAct_eq {s : State}  {b : Bridge}  {a0 : Nat} {t : State} (he : bridgeAct s b a0 = some t) (hk : Keeps q0 s) : Keeps q0 t := by
  have := keeps_bridgeAct s b a0 hk; rw [he] at this; exact this

theorem keeps_linkAct (s : State) (d : Die) (k : Nat) (a0 : Nat) (hk : Keeps q0 s) :
    KeepsOpt q0 (linkAct s d k a0) := by
  unfold linkAct
  try dsimp only
  iterate 48 (all_goals (try first | (with_reducible first | exact hk | apply keeps_linkDisable | apply keeps_linkDrain | apply keeps_linkEnable | apply keeps_linkRelease | apply keeps_linkRetrain | apply keepsOpt_some | refine keeps_linkDisable_eq (by assumption) ?_ | refine keeps_linkDrain_eq (by assumption) ?_ | refine keeps_linkEnable_eq (by assumption) ?_ | refine keeps_linkRelease_eq (by assumption) ?_ | refine keeps_linkRetrain_eq (by assumption) ?_ | assumption | exact id | rfl | intro _ | apply keeps_ite | apply keepsOpt_some | exact keepsOpt_none | apply keepsOpt_ite) | split | (with_reducible apply Keeps.upd)))
theorem keeps_linkAct_eq {s : State}  {d : Die}  {k : Nat}  {a0 : Nat} {t : State} (he : linkAct s d k a0 = some t) (hk : Keeps q0 s) : Keeps q0 t := by
  have := keeps_linkAct s d k a0 hk; rw [he] at this; exact this

theorem keeps_mgPortCtl (s : State) (b : Block) (hk : Keeps q0 s) :
    KeepsRes q0 (mgPortCtl s b) := by
  unfold mgPortCtl
  try dsimp only
  iterate 48 (all_goals (try first | (with_reducible first | exact hk | apply keeps_bridgeAct | apply keeps_linkAct | apply keeps_mgOpt | apply keeps_portConfigure | apply keepsRes_ok | apply keepsRes_hold | apply keepsRes_ite | refine keeps_bridgeAct_eq (by assumption) ?_ | refine keeps_linkAct_eq (by assumption) ?_ | refine keeps_portConfigure_eq (by assumption) ?_ | assumption | exact id | rfl | intro _ | apply keeps_ite | apply keepsRes_ok | apply keepsRes_hold | exact keepsRes_err | exact keepsRes_mgState | exact keepsRes_mgMalformed | exact keepsRes_mgAccess | apply keepsRes_ite) | split | (with_reducible apply Keeps.upd)))

theorem keeps_setPush (s : State) (d : Die) (dest period : Nat) (hk : Keeps q0 s) :
    Keeps q0 (setPush s d dest period) := by
  unfold setPush
  try dsimp only
  iterate 48 (all_goals (try first | (with_reducible first | exact hk | apply keeps_onCrz | assumption | exact id | rfl | intro _ | apply keeps_ite) | split | (with_reducible apply Keeps.upd)))

theorem keeps_setReceive (s : State) (d : Die) (base first groups : Nat) (hk : Keeps q0 s) :
    Keeps q0 (setReceive s d base first groups) := by
  unfold setReceive
  try dsimp only
  iterate 48 (all_goals (try first | (with_reducible first | exact hk | apply keeps_onCrz | assumption | exact id | rfl | intro _ | apply keeps_ite) | split | (with_reducible apply Keeps.upd)))

theorem keeps_mgCruise (s : State) (b : Block) (hk : Keeps q0 s) :
    KeepsRes q0 (mgCruise s b) := by
  unfold mgCruise
  try dsimp only
  iterate 48 (all_goals (try first | (with_reducible first | exact hk | apply keeps_foldl | apply keeps_pushMap | apply keeps_setPush | apply keeps_setReceive | apply keeps_foldl_fst | apply keepsRes_ok | apply keepsRes_hold | apply keepsRes_ite | assumption | exact id | rfl | intro _ | apply keeps_ite | apply keepsRes_ok | apply keepsRes_hold | exact keepsRes_err | exact keepsRes_mgState | exact keepsRes_mgMalformed | exact keepsRes_mgAccess | apply keepsRes_ite) | split | (with_reducible apply Keeps.upd)))

theorem keeps_regCmdRes (r : State × Access) (h : Keeps q0 r.1) : KeepsRes q0 (regCmdRes r) := by
  unfold regCmdRes
  split
  · exact h
  all_goals exact trivial

theorem keeps_mgRegRead (s : State) (o : Nat) (b : Block) (hk : Keeps q0 s) :
    KeepsRes q0 (mgRegRead s o b) := by
  unfold mgRegRead
  try dsimp only
  iterate 48 (all_goals (try first | (with_reducible first | exact hk | apply keeps_regCmdRes | apply keeps_regReadAs | apply keepsRes_ok | apply keepsRes_hold | apply keepsRes_ite | refine keeps_regReadAs_eq (by assumption) ?_ | assumption | exact id | rfl | intro _ | apply keeps_ite | apply keepsRes_ok | apply keepsRes_hold | exact keepsRes_err | exact keepsRes_mgState | exact keepsRes_mgMalformed | exact keepsRes_mgAccess | apply keepsRes_ite) | split | (with_reducible apply Keeps.upd)))

theorem keeps_mgRegWrite (s : State) (o : Nat) (b : Block) (hk : Keeps q0 s) :
    KeepsRes q0 (mgRegWrite s o b) := by
  unfold mgRegWrite
  try dsimp only
  iterate 48 (all_goals (try first | (with_reducible first | exact hk | apply keeps_regCmdRes | apply keeps_regWriteAs | apply keepsRes_ok | apply keepsRes_hold | apply keepsRes_ite | refine keeps_regWriteAs_eq (by assumption) ?_ | assumption | exact id | rfl | intro _ | apply keeps_ite | apply keepsRes_ok | apply keepsRes_hold | exact keepsRes_err | exact keepsRes_mgState | exact keepsRes_mgMalformed | exact keepsRes_mgAccess | apply keepsRes_ite) | split | (with_reducible apply Keeps.upd)))

theorem keeps_mgRun (s : State) (o : Nat) (b : Block) (c : List Block) (hk : Keeps q0 s) :
    KeepsRes q0 (mgRun s o b c) := by
  unfold mgRun
  try dsimp only
  iterate 48 (all_goals (try first | (with_reducible first | exact hk | apply keeps_mgArchiveCtl | apply keeps_mgCruise | apply keeps_mgEpochActivate | apply keeps_mgEpochWrite | apply keeps_mgFaultRelease | apply keeps_mgGateActivate | apply keeps_mgGateStage | apply keeps_mgGrant | apply keeps_mgIdentitySet | apply keeps_mgInstanceCtl | apply keeps_mgModeSet | apply keeps_mgPortCtl | apply keeps_mgRegRead | apply keeps_mgRegWrite | apply keeps_mgRingCtl | apply keeps_mgSemBankReset | apply keeps_mgShelfCollect | apply keeps_mgTimeCtl | apply keepsRes_ok | apply keepsRes_hold | apply keepsRes_ite | assumption | exact id | rfl | intro _ | apply keeps_ite | apply keepsRes_ok | apply keepsRes_hold | exact keepsRes_err | exact keepsRes_mgState | exact keepsRes_mgMalformed | exact keepsRes_mgAccess | apply keepsRes_ite) | split | (with_reducible apply Keeps.upd)))

theorem keeps_newOp (s : State) (x : Op) (hk : Keeps q0 s) : Keeps q0 (newOp s x).1 :=
  hk.trans ⟨rfl, rfl, rfl, Nat.le_refl _, fun w => ⟨w.1, w.2.1, w.2.2.1, w.2.2.2.1, w.2.2.2.2.1, tset_wf _ _ _ _ w.2.2.2.2.2⟩, id⟩
theorem keeps_newOp_eq {s : State} {x : Op} {t : State} {b : Nat} (he : newOp s x = (t, b)) (hk : Keeps q0 s) : Keeps q0 t := by
  have := keeps_newOp s x hk; rw [he] at this; exact this

theorem keeps_waitFor (s : State) (o : Nat) (p : Phase) (hk : Keeps q0 s) :
    Keeps q0 (waitFor s o p) := by
  unfold waitFor
  try dsimp only
  iterate 48 (all_goals (try first | (with_reducible first | exact hk | apply keeps_modOp | assumption | exact id | rfl | intro _ | apply keeps_ite) | split | (with_reducible apply Keeps.upd)))

theorem keeps_readBlock (s : State) (o a hops : Nat) (hk : Keeps q0 s) :
    Keeps q0 (readBlock s o a hops) := by
  unfold readBlock
  try dsimp only
  iterate 48 (all_goals (try first | (with_reducible first | exact hk | apply keeps_askRead | apply keeps_failOp | apply keeps_modOp | apply keeps_readPieces | apply keeps_startWalk | apply keeps_emit | assumption | exact id | rfl | intro _ | apply keeps_ite) | split | (with_reducible apply Keeps.upd)))

theorem keeps_strideFail (s : State) (o code : Nat) (hk : Keeps q0 s) :
    Keeps q0 (strideFail s o code) := by
  unfold strideFail
  try dsimp only
  iterate 48 (all_goals (try first | (with_reducible first | exact hk | apply keeps_failAfter | assumption | exact id | rfl | intro _ | apply keeps_ite) | split | (with_reducible apply Keeps.upd)))

theorem keeps_readStride (s : State) (o : Nat) (hk : Keeps q0 s) :
    Keeps q0 (readStride s o) := by
  unfold readStride
  try dsimp only
  iterate 48 (all_goals (try first | (with_reducible first | exact hk | apply keeps_getD | apply keeps_modOp | apply keeps_readPieces | apply keeps_startWalk | apply keeps_strideFail | assumption | exact id | rfl | intro _ | apply keeps_ite) | split | (with_reducible apply Keeps.upd)))

theorem keeps_beginStride (s : State) (o : Nat) (hk : Keeps q0 s) :
    Keeps q0 (beginStride s o) := by
  unfold beginStride
  try dsimp only
  iterate 48 (all_goals (try first | (with_reducible first | exact hk | apply keeps_modOp | apply keeps_readStride | assumption | exact id | rfl | intro _ | apply keeps_ite) | split | (with_reducible apply Keeps.upd)))

theorem keeps_runLong (s : State) (o : Nat) (p : Nat × Nat) (hk : Keeps q0 s) :
    Keeps q0 (runLong s o p) := by
  unfold runLong
  try dsimp only
  iterate 48 (all_goals (try first | (with_reducible first | exact hk | apply keeps_beginStride | apply keeps_modOp | apply keeps_putThread | assumption | exact id | rfl | intro _ | apply keeps_ite) | split | (with_reducible apply Keeps.upd)))

theorem keeps_startLong (s : State) (o c : Nat) (hk : Keeps q0 s) :
    Keeps q0 (startLong s o c) := by
  unfold startLong
  try dsimp only
  iterate 48 (all_goals (try first | (with_reducible first | exact hk | apply keeps_failOp | apply keeps_modConn | apply keeps_modOp | apply keeps_runLong | apply keeps_getD | assumption | exact id | rfl | intro _ | apply keeps_ite) | split | (with_reducible apply Keeps.upd)))

theorem keeps_connFree (s : State) (d : Die) (c o : Nat) (hk : Keeps q0 s) :
    Keeps q0 (connFree s d c o) := by
  unfold connFree
  try dsimp only
  iterate 48 (all_goals (try first | (with_reducible first | exact hk | apply keeps_flushSides | apply keeps_modConn | assumption | exact id | rfl | intro _ | apply keeps_ite) | split | (with_reducible apply Keeps.upd)))

theorem keeps_goPutInline (s : State) (o c : Nat) (hk : Keeps q0 s) :
    Keeps q0 (goPutInline s o c) := by
  unfold goPutInline
  try dsimp only
  iterate 48 (all_goals (try first | (with_reducible first | exact hk | apply keeps_modOp | apply keeps_stagePieces | assumption | exact id | rfl | intro _ | apply keeps_ite) | split | (with_reducible apply Keeps.upd)))

theorem keeps_goGet (s : State) (o c : Nat) (hk : Keeps q0 s) :
    Keeps q0 (goGet s o c) := by
  unfold goGet
  try dsimp only
  iterate 48 (all_goals (try first | (with_reducible first | exact hk | apply keeps_failOp | apply keeps_modOp | apply keeps_stagePieces | apply keeps_getD | assumption | exact id | rfl | intro _ | apply keeps_ite) | split | (with_reducible apply Keeps.upd)))

theorem keeps_goAtomic (s : State) (o c : Nat) (hk : Keeps q0 s) :
    Keeps q0 (goAtomic s o c) := by
  unfold goAtomic
  try dsimp only
  iterate 48 (all_goals (try first | (with_reducible first | exact hk | apply keeps_modOp | apply keeps_stagePieces | assumption | exact id | rfl | intro _ | apply keeps_ite) | split | (with_reducible apply Keeps.upd)))

theorem keeps_sendEager (s : State) (o c : Nat) (data : List Byte) (hk : Keeps q0 s) :
    Keeps q0 (sendEager s o c data) := by
  unfold sendEager
  try dsimp only
  iterate 48 (all_goals (try first | (with_reducible first | exact hk | apply keeps_connFree | apply keeps_getD | apply keeps_modOp | apply keeps_stagePieces | assumption | exact id | rfl | intro _ | apply keeps_ite) | split | (with_reducible apply Keeps.upd)))

theorem keeps_readSend (s : State) (o c : Nat) (hk : Keeps q0 s) :
    Keeps q0 (readSend s o c) := by
  unfold readSend
  try dsimp only
  iterate 48 (all_goals (try first | (with_reducible first | exact hk | apply keeps_failOp | apply keeps_getD | apply keeps_readPieces | apply keeps_sendEager | apply keeps_startWalk | assumption | exact id | rfl | intro _ | apply keeps_ite) | split | (with_reducible apply Keeps.upd)))

theorem keeps_sendRts (s : State) (o c : Nat) (hk : Keeps q0 s) :
    Keeps q0 (sendRts s o c) := by
  unfold sendRts
  try dsimp only
  iterate 48 (all_goals (try first | (with_reducible first | exact hk | apply keeps_getD | apply keeps_modConn | apply keeps_modOp | apply keeps_stagePieces | assumption | exact id | rfl | intro _ | apply keeps_ite) | split | (with_reducible apply Keeps.upd)))

theorem keeps_goSend (s : State) (o c : Nat) (hk : Keeps q0 s) :
    Keeps q0 (goSend s o c) := by
  unfold goSend
  try dsimp only
  iterate 48 (all_goals (try first | (with_reducible first | exact hk | apply keeps_modConn | apply keeps_modOp | apply keeps_readSend | apply keeps_sendRts | assumption | exact id | rfl | intro _ | apply keeps_ite) | split | (with_reducible apply Keeps.upd)))

theorem keeps_goSendInline (s : State) (o c : Nat) (hk : Keeps q0 s) :
    Keeps q0 (goSendInline s o c) := by
  unfold goSendInline
  try dsimp only
  iterate 48 (all_goals (try first | (with_reducible first | exact hk | apply keeps_sendEager | assumption | exact id | rfl | intro _ | apply keeps_ite) | split | (with_reducible apply Keeps.upd)))

theorem keeps_goRecvCancel (s : State) (o : Nat) (hk : Keeps q0 s) :
    Keeps q0 (goRecvCancel s o) := by
  unfold goRecvCancel
  try dsimp only
  iterate 48 (all_goals (try first | (with_reducible first | exact hk | apply keeps_completeOp | apply keeps_failOp | apply keeps_getD | apply keeps_modCtx | assumption | exact id | rfl | intro _ | apply keeps_ite) | split | (with_reducible apply Keeps.upd)))

theorem keeps_goCtxOpen (s : State) (o : Nat) (hk : Keeps q0 s) :
    Keeps q0 (goCtxOpen s o) := by
  unfold goCtxOpen
  try dsimp only
  iterate 48 (all_goals (try first | (with_reducible first | exact hk | apply keeps_completeOp | apply keeps_getD | apply keeps_modCtx | assumption | exact id | rfl | intro _ | apply keeps_ite) | split | (with_reducible apply Keeps.upd)))

theorem keeps_goCtxDrain (s : State) (o : Nat) (hk : Keeps q0 s) :
    Keeps q0 (goCtxDrain s o) := by
  unfold goCtxDrain
  try dsimp only
  iterate 48 (all_goals (try first | (with_reducible first | exact hk | apply keeps_getD | apply keeps_modCtx | apply keeps_modOp | assumption | exact id | rfl | intro _ | apply keeps_ite) | split | (with_reducible apply Keeps.upd)))

theorem keeps_goCtxClose (s : State) (o : Nat) (hk : Keeps q0 s) :
    Keeps q0 (goCtxClose s o) := by
  unfold goCtxClose
  try dsimp only
  iterate 48 (all_goals (try first | (with_reducible first | exact hk | apply keeps_closeCtx | apply keeps_getD | apply keeps_modOp | assumption | exact id | rfl | intro _ | apply keeps_ite) | split | (with_reducible apply Keeps.upd)))

theorem keeps_goTallyWrite (s : State) (o : Nat) (hk : Keeps q0 s) :
    Keeps q0 (goTallyWrite s o) := by
  unfold goTallyWrite
  try dsimp only
  iterate 48 (all_goals (try first | (with_reducible first | exact hk | apply keeps_completeOp | apply keeps_fireTriggers | apply keeps_setTally | assumption | exact id | rfl | intro _ | apply keeps_ite) | split | (with_reducible apply Keeps.upd)))

theorem keeps_goTallyRead (s : State) (o : Nat) (hk : Keeps q0 s) :
    Keeps q0 (goTallyRead s o) := by
  unfold goTallyRead
  try dsimp only
  iterate 48 (all_goals (try first | (with_reducible first | exact hk | apply keeps_completeOp | assumption | exact id | rfl | intro _ | apply keeps_ite) | split | (with_reducible apply Keeps.upd)))

theorem keeps_goTrigDisarm (s : State) (o : Nat) (hk : Keeps q0 s) :
    Keeps q0 (goTrigDisarm s o) := by
  unfold goTrigDisarm
  try dsimp only
  iterate 48 (all_goals (try first | (with_reducible first | exact hk | apply keeps_completeOp | apply keeps_failOp | assumption | exact id | rfl | intro _ | apply keeps_ite) | split | (with_reducible apply Keeps.upd)))

theorem keeps_settle (s : State) (o : Nat) (r : MgRes) (hr : KeepsRes q0 r) (hk : Keeps q0 s) : Keeps q0 (settle s o r) := by
  cases r with
  | ok t n => exact keeps_completeOp _ _ _ hr
  | err c n => exact keeps_failOp _ _ _ _ hk
  | hold t => exact hr

theorem keeps_goConn (s : State) (o c : Nat) (hk : Keeps q0 s) :
    Keeps q0 (goConn s o c) := by
  unfold goConn
  try dsimp only
  iterate 48 (all_goals (try first | (with_reducible first | exact hk | apply keeps_goAtomic | apply keeps_goGet | apply keeps_goPutInline | apply keeps_goSend | apply keeps_goSendInline | apply keeps_startLong | assumption | exact id | rfl | intro _ | apply keeps_ite) | split | (with_reducible apply Keeps.upd)))

theorem keeps_goPlain (s : State) (o : Nat) (hk : Keeps q0 s) :
    Keeps q0 (goPlain s o) := by
  unfold goPlain
  try dsimp only
  iterate 48 (all_goals (try first | (with_reducible first | exact hk | apply keeps_collStart | apply keeps_completeOp | apply keeps_goCtxClose | apply keeps_goCtxDrain | apply keeps_goCtxOpen | apply keeps_goRecvCancel | apply keeps_goTallyRead | apply keeps_goTallyWrite | apply keeps_goTrigDisarm | apply keeps_postRecv | apply keeps_settle | apply keeps_syncRingReset | assumption | exact id | rfl | intro _ | apply keeps_ite) | split | (with_reducible apply Keeps.upd)))

theorem keeps_takeConn (s : State) (o c : Nat) (hk : Keeps q0 s) :
    Keeps q0 (takeConn s o c) := by
  unfold takeConn
  try dsimp only
  iterate 48 (all_goals (try first | (with_reducible first | exact hk | apply keeps_cacheConn | apply keeps_getD | apply keeps_modConn | apply keeps_modOp | refine keeps_cacheConn_eq (by assumption) ?_ | assumption | exact id | rfl | intro _ | apply keeps_ite) | split | (with_reducible apply Keeps.upd)))

theorem keeps_execute (s : State) (o : Nat) (hk : Keeps q0 s) :
    Keeps q0 (execute s o) := by
  unfold execute
  try dsimp only
  iterate 48 (all_goals (try first | (with_reducible first | exact hk | apply keeps_failConn | apply keeps_goConn | apply keeps_goPlain | apply keeps_modOp | apply keeps_takeConn | assumption | exact id | rfl | intro _ | apply keeps_ite) | split | (with_reducible apply Keeps.upd)))

theorem keeps_flumeSend (s : State) (o : Nat) (hk : Keeps q0 s) :
    Keeps q0 (flumeSend s o) := by
  unfold flumeSend
  try dsimp only
  iterate 48 (all_goals (try first | (with_reducible first | exact hk | apply keeps_modOp | apply keeps_onSch | assumption | exact id | rfl | intro _ | apply keeps_ite) | split | (with_reducible apply Keeps.upd)))

theorem keeps_flumeBegin (s : State) (o : Nat) (hk : Keeps q0 s) :
    Keeps q0 (flumeBegin s o) := by
  unfold flumeBegin
  try dsimp only
  iterate 48 (all_goals (try first | (with_reducible first | exact hk | apply keeps_flumeSend | apply keeps_modOp | apply keeps_waitFor | assumption | exact id | rfl | intro _ | apply keeps_ite) | split | (with_reducible apply Keeps.upd)))

theorem keepsRes_ite_some {c : Prop} [Decidable c] {x r : MgRes} (e : (if c then none else some x) = some r) (h : KeepsRes q0 x) :
    KeepsRes q0 r := by
  split at e
  · cases e
  · exact Option.some.inj e ▸ h

theorem keeps_mgmtGo (s : State) (o : Nat) (hk : Keeps q0 s) :
    Keeps q0 (mgmtGo s o) := by
  unfold mgmtGo
  try dsimp only
  iterate 48 (all_goals (try first | (with_reducible first | exact hk | apply keeps_failOp | apply keeps_flumeBegin | refine keepsRes_ite_some (by assumption) ?_ | apply keeps_mgRun | apply keeps_settle | apply keeps_waitFor | assumption | exact id | rfl | intro _ | apply keeps_ite) | split | (with_reducible apply Keeps.upd)))

theorem keeps_passed4 (s : State) (o : Nat) (hk : Keeps q0 s) :
    Keeps q0 (passed4 s o) := by
  unfold passed4
  try dsimp only
  iterate 48 (all_goals (try first | (with_reducible first | exact hk | apply keeps_modOp | assumption | exact id | rfl | intro _ | apply keeps_ite) | split | (with_reducible apply Keeps.upd)))

theorem keeps_opRun (s : State) (o : Nat) (hk : Keeps q0 s) :
    Keeps q0 (opRun s o) := by
  unfold opRun
  try dsimp only
  iterate 48 (all_goals (try first | (with_reducible first | exact hk | apply keeps_execute | apply keeps_failOp | apply keeps_mgmtGo | apply keeps_passed4 | apply keeps_waitFor | assumption | exact id | rfl | intro _ | apply keeps_ite) | split | (with_reducible apply Keeps.upd)))

theorem keeps_arm (s : State) (o : Nat) (hk : Keeps q0 s) :
    Keeps q0 (arm s o) := by
  unfold arm
  try dsimp only
  iterate 48 (all_goals (try first | (with_reducible first | exact hk | apply keeps_fireTriggers | apply keeps_modCmdRing | apply keeps_modOp | apply keeps_onDie | assumption | exact id | rfl | intro _ | apply keeps_ite) | split | (with_reducible apply Keeps.upd)))

theorem keeps_armChecked (s : State) (o : Nat) (hk : Keeps q0 s) :
    Keeps q0 (armChecked s o) := by
  unfold armChecked
  try dsimp only
  iterate 48 (all_goals (try first | (with_reducible first | exact hk | apply keeps_arm | apply keeps_failOp | apply keeps_waitFor | assumption | exact id | rfl | intro _ | apply keeps_ite) | split | (with_reducible apply Keeps.upd)))

theorem keeps_mgmtChecked (s : State) (o : Nat) (hk : Keeps q0 s) :
    Keeps q0 (mgmtChecked s o) := by
  unfold mgmtChecked
  try dsimp only
  iterate 48 (all_goals (try first | (with_reducible first | exact hk | apply keeps_failOp | apply keeps_mgRun | apply keeps_opRun | apply keeps_flumeBegin | apply keeps_settle | assumption | exact id | rfl | intro _ | apply keeps_ite) | split | (with_reducible apply Keeps.upd)))

theorem keeps_opChecked (s : State) (o : Nat) (hk : Keeps q0 s) :
    Keeps q0 (opChecked s o) := by
  unfold opChecked
  try dsimp only
  iterate 48 (all_goals (try first | (with_reducible first | exact hk | apply keeps_actsSettle | apply keeps_failOp | apply keeps_mgmtChecked | apply keeps_opRun | assumption | exact id | rfl | intro _ | apply keeps_ite) | split | (with_reducible apply Keeps.upd)))

theorem keeps_chainStep (s : State) (o : Nat) (hk : Keeps q0 s) :
    Keeps q0 (chainStep s o) := by
  unfold chainStep
  try dsimp only
  iterate 48 (all_goals (try first | (with_reducible first | exact hk | apply keeps_armChecked | apply keeps_failOp | apply keeps_opChecked | apply keeps_readBlock | assumption | exact id | rfl | intro _ | apply keeps_ite) | split | (with_reducible apply Keeps.upd)))

theorem keeps_opStart (s : State) (o : Nat) (hk : Keeps q0 s) :
    Keeps q0 (opStart s o) := by
  unfold opStart
  try dsimp only
  iterate 48 (all_goals (try first | (with_reducible first | exact hk | apply keeps_chainStep | apply keeps_failOp | apply keeps_opChecked | assumption | exact id | rfl | intro _ | apply keeps_ite) | split | (with_reducible apply Keeps.upd)))

theorem keeps_flumeExec (s : State) (d : Die) (r : FlumeReq) (hk : Keeps q0 s) :
    Keeps q0 (flumeExec s d r) := by
  unfold flumeExec
  try dsimp only
  iterate 48 (all_goals (try first | (with_reducible first | exact hk | apply keeps_newOp | apply keeps_onSch | apply keeps_opStart | apply keeps_postMgmt | refine keeps_newOp_eq (by assumption) ?_ | assumption | exact id | rfl | intro _ | apply keeps_ite) | split | (with_reducible apply Keeps.upd)))

theorem keeps_retryOp (s : State) (o : Nat) (hk : Keeps q0 s) :
    Keeps q0 (retryOp s o) := by
  unfold retryOp
  try dsimp only
  iterate 48 (all_goals (try first | (with_reducible first | exact hk | apply keeps_arm | apply keeps_flumeBegin | apply keeps_goConn | apply keeps_opRun | assumption | exact id | rfl | intro _ | apply keeps_ite) | split | (with_reducible apply Keeps.upd)))

theorem keeps_flushConns (s : State) (d : Die) (hk : Keeps q0 s) :
    Keeps q0 (flushConns s d) := by
  unfold flushConns
  try dsimp only
  iterate 48 (all_goals (try first | (with_reducible first | exact hk | apply keeps_flushSides | apply keeps_foldl | apply keeps_foldl_fst | assumption | exact id | rfl | intro _ | apply keeps_ite) | split | (with_reducible apply Keeps.upd)))

theorem keeps_retryWaits (s : State) (d : Die) (hk : Keeps q0 s) :
    Keeps q0 (retryWaits s d) := by
  unfold retryWaits
  try dsimp only
  iterate 48 (all_goals (try first | (with_reducible first | exact hk | apply keeps_flushConns | apply keeps_foldl | apply keeps_retryOp | apply keeps_foldl_fst | assumption | exact id | rfl | intro _ | apply keeps_ite) | split | (with_reducible apply Keeps.upd)))

theorem keeps_waitExpired (s : State) (o : Nat) (p : Phase) (sub : Nat) (hk : Keeps q0 s) :
    Keeps q0 (waitExpired s o p sub) := by
  unfold waitExpired
  try dsimp only
  iterate 48 (all_goals (try first | (with_reducible first | exact hk | apply keeps_failOp | apply keeps_retryOp | assumption | exact id | rfl | intro _ | apply keeps_ite) | split | (with_reducible apply Keeps.upd)))

theorem keeps_execTrigSlotTimeout (o : Nat) (s : State) (hk : Keeps q0 s) :
    KeepsOut q0 (execTrigSlotTimeout o s) := by
  unfold execTrigSlotTimeout
  try dsimp only
  iterate 48 (all_goals (try first | (with_reducible first | exact hk | apply keeps_waitExpired | apply keepsOut_next | assumption | exact id | rfl | intro _ | apply keeps_ite | apply keepsOut_next | apply keepsOut_ite) | split | (with_reducible apply Keeps.upd)))

theorem keeps_execConnCacheWaitTimeout (o : Nat) (s : State) (hk : Keeps q0 s) :
    KeepsOut q0 (execConnCacheWaitTimeout o s) := by
  unfold execConnCacheWaitTimeout
  try dsimp only
  iterate 48 (all_goals (try first | (with_reducible first | exact hk | apply keeps_waitExpired | apply keepsOut_next | assumption | exact id | rfl | intro _ | apply keeps_ite | apply keepsOut_next | apply keepsOut_ite) | split | (with_reducible apply Keeps.upd)))

theorem keeps_execOpsSlotWaitTimeout (o : Nat) (s : State) (hk : Keeps q0 s) :
    KeepsOut q0 (execOpsSlotWaitTimeout o s) := by
  unfold execOpsSlotWaitTimeout
  try dsimp only
  iterate 48 (all_goals (try first | (with_reducible first | exact hk | apply keeps_waitExpired | apply keepsOut_next | assumption | exact id | rfl | intro _ | apply keeps_ite | apply keepsOut_next | apply keepsOut_ite) | split | (with_reducible apply Keeps.upd)))

theorem keeps_execMaxOpsWaitTimeout (o : Nat) (s : State) (hk : Keeps q0 s) :
    KeepsOut q0 (execMaxOpsWaitTimeout o s) := by
  unfold execMaxOpsWaitTimeout
  try dsimp only
  iterate 48 (all_goals (try first | (with_reducible first | exact hk | apply keeps_waitExpired | apply keepsOut_next | assumption | exact id | rfl | intro _ | apply keeps_ite | apply keepsOut_next | apply keepsOut_ite) | split | (with_reducible apply Keeps.upd)))

theorem keeps_execCtxOpenWaitTimeout (o : Nat) (s : State) (hk : Keeps q0 s) :
    KeepsOut q0 (execCtxOpenWaitTimeout o s) := by
  unfold execCtxOpenWaitTimeout
  try dsimp only
  iterate 48 (all_goals (try first | (with_reducible first | exact hk | apply keeps_waitExpired | apply keepsOut_next | assumption | exact id | rfl | intro _ | apply keeps_ite | apply keepsOut_next | apply keepsOut_ite) | split | (with_reducible apply Keeps.upd)))

theorem keeps_execRecvPostWaitTimeout (o : Nat) (s : State) (hk : Keeps q0 s) :
    KeepsOut q0 (execRecvPostWaitTimeout o s) := by
  unfold execRecvPostWaitTimeout
  try dsimp only
  iterate 48 (all_goals (try first | (with_reducible first | exact hk | apply keeps_waitExpired | apply keepsOut_next | assumption | exact id | rfl | intro _ | apply keeps_ite | apply keepsOut_next | apply keepsOut_ite) | split | (with_reducible apply Keeps.upd)))

theorem keeps_takeEntry (s : State) (d : Die) (n : Nat) (e : QEntry) (rest : List QEntry) (chain : List Block) (hk : Keeps q0 s) :
    Keeps q0 (takeEntry s d n e rest chain).1 := by
  unfold takeEntry
  try dsimp only
  iterate 48 (all_goals (try first | (with_reducible first | exact hk | apply keeps_modCmdRing | apply keeps_newOp | apply keeps_onRings | refine keeps_newOp_eq (by assumption) ?_ | assumption | exact id | rfl | intro _ | apply keeps_ite) | split | (with_reducible apply Keeps.upd)))
theorem keeps_takeEntry_eq {s : State}  {d : Die}  {n : Nat}  {e : QEntry}  {rest : List QEntry}  {chain : List Block} {t0 : State} {b0 : Nat} (he : takeEntry s d n e rest chain = (t0, b0)) (hk : Keeps q0 s) : Keeps q0 t0 := by
  have := keeps_takeEntry s d n e rest chain hk; rw [he] at this; exact this

theorem keeps_dispatchRing (s : State) (d : Die) (n : Nat) (chain : List Block) (hk : Keeps q0 s) :
    Keeps q0 (dispatchRing s d n chain) := by
  unfold dispatchRing
  try dsimp only
  iterate 48 (all_goals (try first | (with_reducible first | exact hk | apply keeps_failOp | apply keeps_opStart | apply keeps_takeEntry | refine keeps_takeEntry_eq (by assumption) ?_ | assumption | exact id | rfl | intro _ | apply keeps_ite) | split | (with_reducible apply Keeps.upd)))

theorem keeps_newRound (s : State) (d : Die) (p l : Nat) (hk : Keeps q0 s) :
    Keeps q0 (newRound s d p l) := by
  unfold newRound
  try dsimp only
  iterate 48 (all_goals (try first | (with_reducible first | exact hk | apply keeps_onRings | assumption | exact id | rfl | intro _ | apply keeps_ite) | split | (with_reducible apply Keeps.upd)))

theorem keeps_dispatchLevel (s : State) (d : Die) (l : Nat) (hk : Keeps q0 s) :
    Keeps q0 (dispatchLevel s d l) := by
  unfold dispatchLevel
  try dsimp only
  iterate 48 (all_goals (try first | (with_reducible first | exact hk | apply keeps_dispatchRing | apply keeps_modCmdRing | apply keeps_newRound | apply keeps_onRings | assumption | exact id | rfl | intro _ | apply keeps_ite) | split | (with_reducible apply Keeps.upd)))

theorem keeps_preempt (s : State) (d : Die) (hk : Keeps q0 s) :
    Keeps q0 (preempt s d) := by
  unfold preempt
  try dsimp only
  iterate 48 (all_goals (try first | (with_reducible first | exact hk | apply keeps_foldl | apply keeps_modOp | apply keeps_foldl_fst | assumption | exact id | rfl | intro _ | apply keeps_ite) | split | (with_reducible apply Keeps.upd)))

theorem keeps_commandDispatch (s : State) (d : Die) (hk : Keeps q0 s) :
    Keeps q0 (commandDispatch s d) := by
  unfold commandDispatch
  try dsimp only
  iterate 48 (all_goals (try first | (with_reducible first | exact hk | apply keeps_dispatchLevel | apply keeps_dispatchRing | apply keeps_flumeExec | apply keeps_opRun | apply keeps_preempt | apply keeps_retryWaits | assumption | exact id | rfl | intro _ | apply keeps_ite) | split | (with_reducible apply Keeps.upd)))

theorem keeps_execCommandDispatch (d : Die) (s : State) (hk : Keeps q0 s) :
    KeepsOut q0 (execCommandDispatch d s) := by
  unfold execCommandDispatch
  try dsimp only
  iterate 48 (all_goals (try first | (with_reducible first | exact hk | apply keeps_commandDispatch | apply keepsOut_next | assumption | exact id | rfl | intro _ | apply keeps_ite | apply keepsOut_next | apply keepsOut_ite) | split | (with_reducible apply Keeps.upd)))

theorem keeps_stageStride (s : State) (o c : Nat) (data : List Byte) (hk : Keeps q0 s) :
    Keeps q0 (stageStride s o c data) := by
  unfold stageStride
  try dsimp only
  iterate 48 (all_goals (try first | (with_reducible first | exact hk | apply keeps_modOp | apply keeps_pmcAt | apply keeps_stageFrom | apply keeps_pmc | apply keeps_stagePieces | assumption | exact id | rfl | intro _ | apply keeps_ite) | split | (with_reducible apply Keeps.upd)))

theorem keeps_atBoundary (s : State) (o c : Nat) (hk : Keeps q0 s) :
    Keeps q0 (atBoundary s o c) := by
  unfold atBoundary
  try dsimp only
  iterate 48 (all_goals (try first | (with_reducible first | exact hk | apply keeps_beginStride | apply keeps_completeOp | apply keeps_connFree | apply keeps_deliverOps | apply keeps_freeThread | apply keeps_modOp | apply keeps_pmcAt | apply keeps_preempt | apply keeps_retryWaits | apply keeps_pmc | assumption | exact id | rfl | intro _ | apply keeps_ite) | split | (with_reducible apply Keeps.upd)))

theorem keeps_strideBoundary (s : State) (o : Nat) (hk : Keeps q0 s) :
    Keeps q0 (strideBoundary s o) := by
  unfold strideBoundary
  try dsimp only
  iterate 48 (all_goals (try first | (with_reducible first | exact hk | apply keeps_atBoundary | apply keeps_getD | apply keeps_stageStride | assumption | exact id | rfl | intro _ | apply keeps_ite) | split | (with_reducible apply Keeps.upd)))

theorem keeps_execStrideBoundary (o : Nat) (s : State) (hk : Keeps q0 s) :
    KeepsOut q0 (execStrideBoundary o s) := by
  unfold execStrideBoundary
  try dsimp only
  iterate 48 (all_goals (try first | (with_reducible first | exact hk | apply keeps_strideBoundary | apply keepsOut_next | assumption | exact id | rfl | intro _ | apply keeps_ite | apply keepsOut_next | apply keepsOut_ite) | split | (with_reducible apply Keeps.upd)))

theorem keeps_longResume (s : State) (o : Nat) (hk : Keeps q0 s) :
    Keeps q0 (longResume s o) := by
  unfold longResume
  try dsimp only
  iterate 48 (all_goals (try first | (with_reducible first | exact hk | apply keeps_runLong | assumption | exact id | rfl | intro _ | apply keeps_ite) | split | (with_reducible apply Keeps.upd)))

theorem keeps_execLongCommandResume (o : Nat) (s : State) (hk : Keeps q0 s) :
    KeepsOut q0 (execLongCommandResume o s) := by
  unfold execLongCommandResume
  try dsimp only
  iterate 48 (all_goals (try first | (with_reducible first | exact hk | apply keeps_longResume | apply keepsOut_next | assumption | exact id | rfl | intro _ | apply keeps_ite | apply keepsOut_next | apply keepsOut_ite) | split | (with_reducible apply Keeps.upd)))

theorem keeps_afterReads (s : State) (hk : Keeps q0 s) :
    Keeps q0 (afterReads s) := by
  unfold afterReads
  try dsimp only
  iterate 48 (all_goals (try first | (with_reducible first | exact hk | apply keeps_tagWaiters | apply keeps_windowsSettle | assumption | exact id | rfl | intro _ | apply keeps_ite) | split | (with_reducible apply Keeps.upd)))

theorem keeps_readReturns (s : State) (o : Nat) (parts : List ReadPart) (f : State → State) (h_f : ∀ s, Keeps q0 s → Keeps q0 (f s)) (hk : Keeps q0 s) :
    Keeps q0 (readReturns s o parts f) := by
  unfold readReturns
  try dsimp only
  iterate 48 (all_goals (try first | (with_reducible first | exact hk | apply h_f | apply keeps_afterReads | refine keeps_takeReads_eq (by assumption) ?_ | assumption | exact id | rfl | intro _ | apply keeps_ite) | split | (with_reducible apply Keeps.upd)))

theorem keeps_extBlockFetch (s : State) (o : Nat) (parts : List ReadPart) (hk : Keeps q0 s) :
    Keeps q0 (extBlockFetch s o parts) := by
  unfold extBlockFetch
  try dsimp only
  iterate 48 (all_goals (try first | (with_reducible first | exact hk | apply keeps_chainStep | apply keeps_failOp | apply keeps_modOp | assumption | exact id | rfl | intro _ | apply keeps_ite) | split | (with_reducible apply Keeps.upd)))

theorem keeps_execExtBlockFetch (o : Nat) (parts : List ReadPart) (s : State) (hk : Keeps q0 s) :
    KeepsOut q0 (execExtBlockFetch o parts s) := by
  unfold execExtBlockFetch
  try dsimp only
  iterate 48 (all_goals (try first | (with_reducible first | exact hk | apply keeps_extBlockFetch | apply keeps_readReturns | apply keepsOut_next | assumption | exact id | rfl | intro _ | apply keeps_ite | apply keepsOut_next | apply keepsOut_ite) | split | (with_reducible apply Keeps.upd)))

theorem keeps_readDone (s : State) (o : Nat) (r : ReadDone) (hk : Keeps q0 s) :
    Keeps q0 (readDone s o r) := by
  unfold readDone
  try dsimp only
  iterate 48 (all_goals (try first | (with_reducible first | exact hk | apply keeps_collSource | apply keeps_failOp | apply keeps_modOp | apply keeps_sendEager | apply keeps_strideFail | assumption | exact id | rfl | intro _ | apply keeps_ite) | split | (with_reducible apply Keeps.upd)))

theorem keeps_hostReadComplete (s : State) (o : Nat) (parts : List ReadPart) (hk : Keeps q0 s) :
    Keeps q0 (hostReadComplete s o parts) := by
  unfold hostReadComplete
  try dsimp only
  iterate 48 (all_goals (try first | (with_reducible first | exact hk | apply keeps_readDone | assumption | exact id | rfl | intro _ | apply keeps_ite) | split | (with_reducible apply Keeps.upd)))

theorem keeps_execHostReadComplete (o : Nat) (parts : List ReadPart) (s : State) (hk : Keeps q0 s) :
    KeepsOut q0 (execHostReadComplete o parts s) := by
  unfold execHostReadComplete
  try dsimp only
  iterate 48 (all_goals (try first | (with_reducible first | exact hk | apply keeps_hostReadComplete | apply keeps_readReturns | apply keepsOut_next | assumption | exact id | rfl | intro _ | apply keeps_ite | apply keepsOut_next | apply keepsOut_ite) | split | (with_reducible apply Keeps.upd)))

theorem keeps_opResume (s : State) (o : Nat) (hk : Keeps q0 s) :
    Keeps q0 (opResume s o) := by
  unfold opResume
  try dsimp only
  iterate 48 (all_goals (try first | (with_reducible first | exact hk | apply keeps_collResume | apply keeps_completeOp | apply keeps_getD | apply keeps_placeStash | apply keeps_readBlock | apply keeps_readSend | apply keeps_readStride | apply keeps_startWalk | apply keeps_writePieces | assumption | exact id | rfl | intro _ | apply keeps_ite) | split | (with_reducible apply Keeps.upd)))

theorem keeps_walkOver (s : State) (d : Die) (w : Walk) (e : TlbEnt) (hk : Keeps q0 s) :
    Keeps q0 (walkOver s d w e) := by
  unfold walkOver
  try dsimp only
  iterate 48 (all_goals (try first | (with_reducible first | exact hk | apply keeps_modConn | apply keeps_modOp | apply keeps_opResume | apply keeps_resumeTarget | assumption | exact id | rfl | intro _ | apply keeps_ite) | split | (with_reducible apply Keeps.upd)))

theorem keeps_walkGone (s : State) (d : Die) (n : Nat) (hk : Keeps q0 s) :
    Keeps q0 (walkGone s d n) := by
  unfold walkGone
  try dsimp only
  iterate 48 (all_goals (try first | (with_reducible first | exact hk | apply keeps_nextWalk | apply keeps_onHst | assumption | exact id | rfl | intro _ | apply keeps_ite) | split | (with_reducible apply Keeps.upd)))

theorem keeps_walkFails (s : State) (d : Die) (n : Nat) (w : Walk) (code : Nat) (hk : Keeps q0 s) :
    Keeps q0 (walkFails s d n w code) := by
  unfold walkFails
  try dsimp only
  iterate 48 (all_goals (try first | (with_reducible first | exact hk | apply keeps_walkGone | apply keeps_walkOver | assumption | exact id | rfl | intro _ | apply keeps_ite) | split | (with_reducible apply Keeps.upd)))

theorem keeps_walkStep (s : State) (d : Die) (n : Nat) (w : Walk) (v : Nat) (hk : Keeps q0 s) :
    Keeps q0 (walkStep s d n w v) := by
  unfold walkStep
  try dsimp only
  iterate 48 (all_goals (try first | (with_reducible first | exact hk | apply keeps_issueWalk | apply keeps_onHst | apply keeps_tlbFill | apply keeps_walkFails | apply keeps_walkGone | apply keeps_walkOver | assumption | exact id | rfl | intro _ | apply keeps_ite) | split | (with_reducible apply Keeps.upd)))

theorem keeps_tableWalkComplete (s : State) (d : Die) (n : Nat) (r : WordRead) (hk : Keeps q0 s) :
    Keeps q0 (tableWalkComplete s d n r) := by
  unfold tableWalkComplete
  try dsimp only
  iterate 48 (all_goals (try first | (with_reducible first | exact hk | apply keeps_walkFails | apply keeps_walkStep | assumption | exact id | rfl | intro _ | apply keeps_ite) | split | (with_reducible apply Keeps.upd)))

theorem keeps_execTableWalkComplete (d : Die) (n : Nat) (r : WordRead) (s : State) (hk : Keeps q0 s) :
    KeepsOut q0 (execTableWalkComplete d n r s) := by
  unfold execTableWalkComplete
  try dsimp only
  iterate 48 (all_goals (try first | (with_reducible first | exact hk | apply keeps_afterReads | apply keeps_tableWalkComplete | apply keepsOut_next | refine keeps_takeReads_eq (by assumption) ?_ | assumption | exact id | rfl | intro _ | apply keeps_ite | apply keepsOut_next | apply keepsOut_ite) | split | (with_reducible apply Keeps.upd)))

theorem keeps_atsComplete (s : State) (d : Die) (n : Nat) (a : AtsAnswer) (hk : Keeps q0 s) :
    Keeps q0 (atsComplete s d n a) := by
  unfold atsComplete
  try dsimp only
  iterate 48 (all_goals (try first | (with_reducible first | exact hk | apply keeps_tlbFill | apply keeps_walkFails | apply keeps_walkGone | apply keeps_walkOver | assumption | exact id | rfl | intro _ | apply keeps_ite) | split | (with_reducible apply Keeps.upd)))

theorem keeps_execAtsTranslationComplete (d : Die) (n : Nat) (a : AtsAnswer) (s : State) (hk : Keeps q0 s) :
    KeepsOut q0 (execAtsTranslationComplete d n a s) := by
  unfold execAtsTranslationComplete
  try dsimp only
  iterate 48 (all_goals (try first | (with_reducible first | exact hk | apply keeps_afterReads | apply keeps_atsComplete | apply keepsOut_next | assumption | exact id | rfl | intro _ | apply keeps_ite | apply keepsOut_next | apply keepsOut_ite) | split | (with_reducible apply Keeps.upd)))

theorem keeps_takeWhole (s : State) (d : Die) (hk : Keeps q0 s) :
    Keeps q0 (takeWhole s d) := by
  unfold takeWhole
  try dsimp only
  iterate 48 (all_goals (try first | (with_reducible first | exact hk | apply keeps_flumeExec | apply keeps_preempt | assumption | exact id | rfl | intro _ | apply keeps_ite) | split | (with_reducible apply Keeps.upd)))

theorem keeps_addPart (s : State) (d : Die) (src : Nat) (f : FlumePkt) (via : Option Nat) (hk : Keeps q0 s) :
    Keeps q0 (addPart s d src f via) := by
  unfold addPart
  try dsimp only
  iterate 48 (all_goals (try first | (with_reducible first | exact hk | apply keeps_getD | apply keeps_onSch | apply keeps_takeWhole | apply keeps_flumeExec | assumption | exact id | rfl | intro _ | apply keeps_ite) | split | (with_reducible apply Keeps.upd)))

theorem keeps_flumeRequest (s : State) (d : Die) (from_ : Ingress) (p : Pkt) (hk : Keeps q0 s) :
    Keeps q0 (flumeRequest s d from_ p) := by
  unfold flumeRequest
  try dsimp only
  iterate 48 (all_goals (try first | (with_reducible first | exact hk | apply keeps_addPart | apply keeps_emit | apply keeps_getD | apply keeps_policed | refine keeps_policed_eq (by assumption) ?_ | assumption | exact id | rfl | intro _ | apply keeps_ite) | split | (with_reducible apply Keeps.upd)))

theorem keeps_execFlumeRequest (d : Die) (from_ : Ingress) (p : Pkt) (s : State) (hk : Keeps q0 s) :
    KeepsOut q0 (execFlumeRequest d from_ p s) := by
  unfold execFlumeRequest
  try dsimp only
  iterate 48 (all_goals (try first | (with_reducible first | exact hk | apply keeps_flumeRequest | apply keepsOut_next | assumption | exact id | rfl | intro _ | apply keeps_ite | apply keepsOut_next | apply keepsOut_ite) | split | (with_reducible apply Keeps.upd)))

theorem keeps_flumeDiscard (s : State) (d : Die) (src reqDie reqSeq : Nat) (hk : Keeps q0 s) :
    Keeps q0 (flumeDiscard s d src reqDie reqSeq) := by
  unfold flumeDiscard
  try dsimp only
  iterate 48 (all_goals (try first | (with_reducible first | exact hk | apply keeps_onSch | assumption | exact id | rfl | intro _ | apply keeps_ite) | split | (with_reducible apply Keeps.upd)))

theorem keeps_execFlumePartialDiscard (d : Die) (src reqDie reqSeq : Nat) (s : State) (hk : Keeps q0 s) :
    KeepsOut q0 (execFlumePartialDiscard d src reqDie reqSeq s) := by
  unfold execFlumePartialDiscard
  try dsimp only
  iterate 48 (all_goals (try first | (with_reducible first | exact hk | apply keeps_flumeDiscard | apply keepsOut_next | assumption | exact id | rfl | intro _ | apply keeps_ite | apply keepsOut_next | apply keepsOut_ite) | split | (with_reducible apply Keeps.upd)))

theorem keeps_flumeResend (s : State) (o : Nat) (hk : Keeps q0 s) :
    Keeps q0 (flumeResend s o) := by
  unfold flumeResend
  try dsimp only
  iterate 48 (all_goals (try first | (with_reducible first | exact hk | apply keeps_flumeSend | assumption | exact id | rfl | intro _ | apply keeps_ite) | split | (with_reducible apply Keeps.upd)))

theorem keeps_execFlumeResend (o : Nat) (s : State) (hk : Keeps q0 s) :
    KeepsOut q0 (execFlumeResend o s) := by
  unfold execFlumeResend
  try dsimp only
  iterate 48 (all_goals (try first | (with_reducible first | exact hk | apply keeps_flumeResend | apply keepsOut_next | assumption | exact id | rfl | intro _ | apply keeps_ite | apply keepsOut_next | apply keepsOut_ite) | split | (with_reducible apply Keeps.upd)))

theorem keeps_flumeTimeout (s : State) (o : Nat) (hk : Keeps q0 s) :
    Keeps q0 (flumeTimeout s o) := by
  unfold flumeTimeout
  try dsimp only
  iterate 48 (all_goals (try first | (with_reducible first | exact hk | apply keeps_failOp | assumption | exact id | rfl | intro _ | apply keeps_ite) | split | (with_reducible apply Keeps.upd)))

theorem keeps_execFlumeAnswerTimeout (o : Nat) (s : State) (hk : Keeps q0 s) :
    KeepsOut q0 (execFlumeAnswerTimeout o s) := by
  unfold execFlumeAnswerTimeout
  try dsimp only
  iterate 48 (all_goals (try first | (with_reducible first | exact hk | apply keeps_flumeTimeout | apply keepsOut_next | assumption | exact id | rfl | intro _ | apply keeps_ite | apply keepsOut_next | apply keepsOut_ite) | split | (with_reducible apply Keeps.upd)))

theorem keeps_flumeAnswer (s : State) (d : Die) (p : Pkt) (hk : Keeps q0 s) :
    Keeps q0 (flumeAnswer s d p) := by
  unfold flumeAnswer
  try dsimp only
  iterate 48 (all_goals (try first | (with_reducible first | exact hk | apply keeps_completeOp | apply keeps_policed | refine keeps_policed_eq (by assumption) ?_ | assumption | exact id | rfl | intro _ | apply keeps_ite) | split | (with_reducible apply Keeps.upd)))

theorem keeps_execFlumeAnswer (d : Die) (p : Pkt) (s : State) (hk : Keeps q0 s) :
    KeepsOut q0 (execFlumeAnswer d p s) := by
  unfold execFlumeAnswer
  try dsimp only
  iterate 48 (all_goals (try first | (with_reducible first | exact hk | apply keeps_flumeAnswer | apply keepsOut_next | assumption | exact id | rfl | intro _ | apply keeps_ite | apply keepsOut_next | apply keepsOut_ite) | split | (with_reducible apply Keeps.upd)))

theorem keeps_flumeRelay (s : State) (d : Die) (from_ : Ingress) (p : Pkt) (hk : Keeps q0 s) :
    Keeps q0 (flumeRelay s d from_ p) := by
  unfold flumeRelay
  try dsimp only
  iterate 48 (all_goals (try first | (with_reducible first | exact hk | apply keeps_emit | apply keeps_flumeOutPort | apply keeps_getD | apply keeps_policed | apply keeps_rteDrop | refine keeps_policed_eq (by assumption) ?_ | assumption | exact id | rfl | intro _ | apply keeps_ite) | split | (with_reducible apply Keeps.upd)))

theorem keeps_execFlumeRelay (d : Die) (from_ : Ingress) (p : Pkt) (s : State) (hk : Keeps q0 s) :
    KeepsOut q0 (execFlumeRelay d from_ p s) := by
  unfold execFlumeRelay
  try dsimp only
  iterate 48 (all_goals (try first | (with_reducible first | exact hk | apply keeps_flumeRelay | apply keepsOut_next | assumption | exact id | rfl | intro _ | apply keeps_ite | apply keepsOut_next | apply keepsOut_ite) | split | (with_reducible apply Keeps.upd)))

theorem keeps_flumeEvent (s : State) (d : Die) (p : Pkt) (hk : Keeps q0 s) :
    Keeps q0 (flumeEvent s d p) := by
  unfold flumeEvent
  try dsimp only
  iterate 48 (all_goals (try first | (with_reducible first | exact hk | apply keeps_mgmtRing | apply keeps_policed | refine keeps_policed_eq (by assumption) ?_ | assumption | exact id | rfl | intro _ | apply keeps_ite) | split | (with_reducible apply Keeps.upd)))

theorem keeps_execFlumeEventReceive (d : Die) (p : Pkt) (s : State) (hk : Keeps q0 s) :
    KeepsOut q0 (execFlumeEventReceive d p s) := by
  unfold execFlumeEventReceive
  try dsimp only
  iterate 48 (all_goals (try first | (with_reducible first | exact hk | apply keeps_flumeEvent | apply keepsOut_next | assumption | exact id | rfl | intro _ | apply keeps_ite | apply keepsOut_next | apply keepsOut_ite) | split | (with_reducible apply Keeps.upd)))

theorem keeps_mbxTake (s : State) (v : Nat) (b : Block) (hk : Keeps q0 s) :
    Keeps q0 (mbxTake s v b).1 := by
  unfold mbxTake
  try dsimp only
  iterate 48 (all_goals (try first | (with_reducible first | exact hk | apply keeps_newOp | refine keeps_newOp_eq (by assumption) ?_ | assumption | exact id | rfl | intro _ | apply keeps_ite) | split | (with_reducible apply Keeps.upd)))
theorem keeps_mbxTake_eq {s : State}  {v : Nat}  {b : Block} {t0 : State} {b0 : Nat} (he : mbxTake s v b = (t0, b0)) (hk : Keeps q0 s) : Keeps q0 t0 := by
  have := keeps_mbxTake s v b hk; rw [he] at this; exact this

theorem keeps_mbxRun (s : State) (v : Nat) (b : Block) (hk : Keeps q0 s) :
    Keeps q0 (mbxRun s v b) := by
  unfold mbxRun
  try dsimp only
  iterate 48 (all_goals (try first | (with_reducible first | exact hk | apply keeps_failOp | apply keeps_mbxTake | apply keeps_opStart | refine keeps_mbxTake_eq (by assumption) ?_ | assumption | exact id | rfl | intro _ | apply keeps_ite) | split | (with_reducible apply Keeps.upd)))

theorem keeps_mbxGo (s : State) (v : Nat) (hk : Keeps q0 s) :
    Keeps q0 (mbxGo s v) := by
  unfold mbxGo
  try dsimp only
  iterate 48 (all_goals (try first | (with_reducible first | exact hk | apply keeps_mbxRun | assumption | exact id | rfl | intro _ | apply keeps_ite) | split | (with_reducible apply Keeps.upd)))

theorem keeps_execMbxGo (v : BitVec 32) (s : State) (hk : Keeps q0 s) :
    KeepsOut q0 (execMbxGo v s) := by
  unfold execMbxGo
  try dsimp only
  iterate 48 (all_goals (try first | (with_reducible first | exact hk | apply keeps_mbxGo | apply keepsOut_next | apply keepsOut_ite | assumption | exact id | rfl | intro _ | apply keeps_ite | apply keepsOut_next | apply keepsOut_ite) | split | (with_reducible apply Keeps.upd)))

theorem keeps_mbxInterrupt (s : State) (hk : Keeps q0 s) :
    Keeps q0 (mbxInterrupt s) := by
  unfold mbxInterrupt
  try dsimp only
  iterate 48 (all_goals (try first | (with_reducible first | exact hk | apply keeps_msixSend | assumption | exact id | rfl | intro _ | apply keeps_ite) | split | (with_reducible apply Keeps.upd)))

theorem keeps_mbxDone (s : State) (hk : Keeps q0 s) :
    Keeps q0 (mbxDone s) := by
  unfold mbxDone
  try dsimp only
  iterate 48 (all_goals (try first | (with_reducible first | exact hk | apply keeps_mbxInterrupt | apply keeps_onSys | assumption | exact id | rfl | intro _ | apply keeps_ite) | split | (with_reducible apply Keeps.upd)))

theorem keeps_execMbxCommandDone (s : State) (hk : Keeps q0 s) :
    KeepsOut q0 (execMbxCommandDone s) := by
  unfold execMbxCommandDone
  try dsimp only
  iterate 48 (all_goals (try first | (with_reducible first | exact hk | apply keeps_mbxDone | apply keepsOut_next | assumption | exact id | rfl | intro _ | apply keeps_ite | apply keepsOut_next | apply keepsOut_ite) | split | (with_reducible apply Keeps.upd)))

theorem keeps_entryComes (s : State) (d : Die) (n : Nat) (b : Block) (hk : Keeps q0 s) :
    Keeps q0 (entryComes s d n b) := by
  unfold entryComes
  try dsimp only
  iterate 48 (all_goals (try first | (with_reducible first | exact hk | apply keeps_modCmdRing | apply keeps_ringDoorbell | apply keeps_ringFetched | refine keeps_takeReads_eq (by assumption) ?_ | assumption | exact id | rfl | intro _ | apply keeps_ite) | split | (with_reducible apply Keeps.upd)))

theorem keeps_taxiaRing (s : State) (d : Die) (n : Nat) (b : Block) (chain : List Block) (hk : Keeps q0 s) :
    Keeps q0 (taxiaRing s d n b chain) := by
  unfold taxiaRing
  try dsimp only
  iterate 48 (all_goals (try first | (with_reducible first | exact hk | apply keeps_dispatchRing | apply keeps_entryComes | assumption | exact id | rfl | intro _ | apply keeps_ite) | split | (with_reducible apply Keeps.upd)))

theorem keeps_taxiaMailbox (s : State) (b : Block) (hk : Keeps q0 s) :
    Keeps q0 (taxiaMailbox s b) := by
  unfold taxiaMailbox
  try dsimp only
  iterate 48 (all_goals (try first | (with_reducible first | exact hk | apply keeps_mbxGo | assumption | exact id | rfl | intro _ | apply keeps_ite) | split | (with_reducible apply Keeps.upd)))

theorem keeps_taxiaFlume (s : State) (d : Die) (src reqDie reqSeq : Nat) (b : Block) (chain : List Block) (hk : Keeps q0 s) :
    Keeps q0 (taxiaFlume s d src reqDie reqSeq b chain) := by
  unfold taxiaFlume
  try dsimp only
  iterate 48 (all_goals (try first | (with_reducible first | exact hk | apply keeps_emit | apply keeps_getD | apply keeps_onSch | apply keeps_takeWhole | apply keeps_flumeExec | assumption | exact id | rfl | intro _ | apply keeps_ite) | split | (with_reducible apply Keeps.upd)))

theorem keeps_taxia (s : State) (iss : Issuer) (b : Block) (chain : List Block) (hk : Keeps q0 s) :
    Keeps q0 (taxia s iss b chain) := by
  unfold taxia
  try dsimp only
  iterate 48 (all_goals (try first | (with_reducible first | exact hk | apply keeps_taxiaFlume | apply keeps_taxiaMailbox | apply keeps_taxiaRing | assumption | exact id | rfl | intro _ | apply keeps_ite) | split | (with_reducible apply Keeps.upd)))

theorem keeps_execPut (iss : Issuer) (b : Block) (chain : List Block) (s : State) (hk : Keeps q0 s) :
    KeepsOut q0 (execPut iss b chain s) := by
  unfold execPut
  try dsimp only
  iterate 48 (all_goals (try first | (with_reducible first | exact hk | apply keeps_taxia | apply keepsOut_next | assumption | exact id | rfl | intro _ | apply keeps_ite | apply keepsOut_next | apply keepsOut_ite) | split | (with_reducible apply Keeps.upd)))

theorem keeps_execPutInline (iss : Issuer) (b : Block) (chain : List Block) (s : State) (hk : Keeps q0 s) :
    KeepsOut q0 (execPutInline iss b chain s) := by
  unfold execPutInline
  try dsimp only
  iterate 48 (all_goals (try first | (with_reducible first | exact hk | apply keeps_taxia | apply keepsOut_next | assumption | exact id | rfl | intro _ | apply keeps_ite | apply keepsOut_next | apply keepsOut_ite) | split | (with_reducible apply Keeps.upd)))

theorem keeps_execGet (iss : Issuer) (b : Block) (chain : List Block) (s : State) (hk : Keeps q0 s) :
    KeepsOut q0 (execGet iss b chain s) := by
  unfold execGet
  try dsimp only
  iterate 48 (all_goals (try first | (with_reducible first | exact hk | apply keeps_taxia | apply keepsOut_next | assumption | exact id | rfl | intro _ | apply keeps_ite | apply keepsOut_next | apply keepsOut_ite) | split | (with_reducible apply Keeps.upd)))

theorem keeps_execGather (iss : Issuer) (b : Block) (chain : List Block) (s : State) (hk : Keeps q0 s) :
    KeepsOut q0 (execGather iss b chain s) := by
  unfold execGather
  try dsimp only
  iterate 48 (all_goals (try first | (with_reducible first | exact hk | apply keeps_taxia | apply keepsOut_next | assumption | exact id | rfl | intro _ | apply keeps_ite | apply keepsOut_next | apply keepsOut_ite) | split | (with_reducible apply Keeps.upd)))

theorem keeps_execScatter (iss : Issuer) (b : Block) (chain : List Block) (s : State) (hk : Keeps q0 s) :
    KeepsOut q0 (execScatter iss b chain s) := by
  unfold execScatter
  try dsimp only
  iterate 48 (all_goals (try first | (with_reducible first | exact hk | apply keeps_taxia | apply keepsOut_next | assumption | exact id | rfl | intro _ | apply keeps_ite | apply keepsOut_next | apply keepsOut_ite) | split | (with_reducible apply Keeps.upd)))

theorem keeps_execZero (iss : Issuer) (b : Block) (chain : List Block) (s : State) (hk : Keeps q0 s) :
    KeepsOut q0 (execZero iss b chain s) := by
  unfold execZero
  try dsimp only
  iterate 48 (all_goals (try first | (with_reducible first | exact hk | apply keeps_taxia | apply keepsOut_next | assumption | exact id | rfl | intro _ | apply keeps_ite | apply keepsOut_next | apply keepsOut_ite) | split | (with_reducible apply Keeps.upd)))

theorem keeps_execSend (iss : Issuer) (b : Block) (chain : List Block) (s : State) (hk : Keeps q0 s) :
    KeepsOut q0 (execSend iss b chain s) := by
  unfold execSend
  try dsimp only
  iterate 48 (all_goals (try first | (with_reducible first | exact hk | apply keeps_taxia | apply keepsOut_next | assumption | exact id | rfl | intro _ | apply keeps_ite | apply keepsOut_next | apply keepsOut_ite) | split | (with_reducible apply Keeps.upd)))

theorem keeps_execSendInline (iss : Issuer) (b : Block) (chain : List Block) (s : State) (hk : Keeps q0 s) :
    KeepsOut q0 (execSendInline iss b chain s) := by
  unfold execSendInline
  try dsimp only
  iterate 48 (all_goals (try first | (with_reducible first | exact hk | apply keeps_taxia | apply keepsOut_next | assumption | exact id | rfl | intro _ | apply keeps_ite | apply keepsOut_next | apply keepsOut_ite) | split | (with_reducible apply Keeps.upd)))

theorem keeps_execRecvPost (iss : Issuer) (b : Block) (chain : List Block) (s : State) (hk : Keeps q0 s) :
    KeepsOut q0 (execRecvPost iss b chain s) := by
  unfold execRecvPost
  try dsimp only
  iterate 48 (all_goals (try first | (with_reducible first | exact hk | apply keeps_taxia | apply keepsOut_next | assumption | exact id | rfl | intro _ | apply keeps_ite | apply keepsOut_next | apply keepsOut_ite) | split | (with_reducible apply Keeps.upd)))

theorem keeps_execRecvCancel (iss : Issuer) (b : Block) (chain : List Block) (s : State) (hk : Keeps q0 s) :
    KeepsOut q0 (execRecvCancel iss b chain s) := by
  unfold execRecvCancel
  try dsimp only
  iterate 48 (all_goals (try first | (with_reducible first | exact hk | apply keeps_taxia | apply keepsOut_next | assumption | exact id | rfl | intro _ | apply keeps_ite | apply keepsOut_next | apply keepsOut_ite) | split | (with_reducible apply Keeps.upd)))

theorem keeps_execCtxOpen (iss : Issuer) (b : Block) (chain : List Block) (s : State) (hk : Keeps q0 s) :
    KeepsOut q0 (execCtxOpen iss b chain s) := by
  unfold execCtxOpen
  try dsimp only
  iterate 48 (all_goals (try first | (with_reducible first | exact hk | apply keeps_taxia | apply keepsOut_next | assumption | exact id | rfl | intro _ | apply keeps_ite | apply keepsOut_next | apply keepsOut_ite) | split | (with_reducible apply Keeps.upd)))

theorem keeps_execCtxDrain (iss : Issuer) (b : Block) (chain : List Block) (s : State) (hk : Keeps q0 s) :
    KeepsOut q0 (execCtxDrain iss b chain s) := by
  unfold execCtxDrain
  try dsimp only
  iterate 48 (all_goals (try first | (with_reducible first | exact hk | apply keeps_taxia | apply keepsOut_next | assumption | exact id | rfl | intro _ | apply keeps_ite | apply keepsOut_next | apply keepsOut_ite) | split | (with_reducible apply Keeps.upd)))

theorem keeps_execCtxClose (iss : Issuer) (b : Block) (chain : List Block) (s : State) (hk : Keeps q0 s) :
    KeepsOut q0 (execCtxClose iss b chain s) := by
  unfold execCtxClose
  try dsimp only
  iterate 48 (all_goals (try first | (with_reducible first | exact hk | apply keeps_taxia | apply keepsOut_next | assumption | exact id | rfl | intro _ | apply keeps_ite | apply keepsOut_next | apply keepsOut_ite) | split | (with_reducible apply Keeps.upd)))

theorem keeps_execCollBarrier (iss : Issuer) (b : Block) (chain : List Block) (s : State) (hk : Keeps q0 s) :
    KeepsOut q0 (execCollBarrier iss b chain s) := by
  unfold execCollBarrier
  try dsimp only
  iterate 48 (all_goals (try first | (with_reducible first | exact hk | apply keeps_taxia | apply keepsOut_next | assumption | exact id | rfl | intro _ | apply keeps_ite | apply keepsOut_next | apply keepsOut_ite) | split | (with_reducible apply Keeps.upd)))

theorem keeps_execCollBcast (iss : Issuer) (b : Block) (chain : List Block) (s : State) (hk : Keeps q0 s) :
    KeepsOut q0 (execCollBcast iss b chain s) := by
  unfold execCollBcast
  try dsimp only
  iterate 48 (all_goals (try first | (with_reducible first | exact hk | apply keeps_taxia | apply keepsOut_next | assumption | exact id | rfl | intro _ | apply keeps_ite | apply keepsOut_next | apply keepsOut_ite) | split | (with_reducible apply Keeps.upd)))

theorem keeps_execCollReduce (iss : Issuer) (b : Block) (chain : List Block) (s : State) (hk : Keeps q0 s) :
    KeepsOut q0 (execCollReduce iss b chain s) := by
  unfold execCollReduce
  try dsimp only
  iterate 48 (all_goals (try first | (with_reducible first | exact hk | apply keeps_taxia | apply keepsOut_next | assumption | exact id | rfl | intro _ | apply keeps_ite | apply keepsOut_next | apply keepsOut_ite) | split | (with_reducible apply Keeps.upd)))

theorem keeps_execCollAllreduce (iss : Issuer) (b : Block) (chain : List Block) (s : State) (hk : Keeps q0 s) :
    KeepsOut q0 (execCollAllreduce iss b chain s) := by
  unfold execCollAllreduce
  try dsimp only
  iterate 48 (all_goals (try first | (with_reducible first | exact hk | apply keeps_taxia | apply keepsOut_next | assumption | exact id | rfl | intro _ | apply keeps_ite | apply keepsOut_next | apply keepsOut_ite) | split | (with_reducible apply Keeps.upd)))

theorem keeps_execCollAllgather (iss : Issuer) (b : Block) (chain : List Block) (s : State) (hk : Keeps q0 s) :
    KeepsOut q0 (execCollAllgather iss b chain s) := by
  unfold execCollAllgather
  try dsimp only
  iterate 48 (all_goals (try first | (with_reducible first | exact hk | apply keeps_taxia | apply keepsOut_next | assumption | exact id | rfl | intro _ | apply keeps_ite | apply keepsOut_next | apply keepsOut_ite) | split | (with_reducible apply Keeps.upd)))

theorem keeps_execNop (iss : Issuer) (b : Block) (chain : List Block) (s : State) (hk : Keeps q0 s) :
    KeepsOut q0 (execNop iss b chain s) := by
  unfold execNop
  try dsimp only
  iterate 48 (all_goals (try first | (with_reducible first | exact hk | apply keeps_taxia | apply keepsOut_next | assumption | exact id | rfl | intro _ | apply keeps_ite | apply keepsOut_next | apply keepsOut_ite) | split | (with_reducible apply Keeps.upd)))

theorem keeps_execAtomic (iss : Issuer) (b : Block) (chain : List Block) (s : State) (hk : Keeps q0 s) :
    KeepsOut q0 (execAtomic iss b chain s) := by
  unfold execAtomic
  try dsimp only
  iterate 48 (all_goals (try first | (with_reducible first | exact hk | apply keeps_taxia | apply keepsOut_next | assumption | exact id | rfl | intro _ | apply keeps_ite | apply keepsOut_next | apply keepsOut_ite) | split | (with_reducible apply Keeps.upd)))

theorem keeps_execTallyWrite (iss : Issuer) (b : Block) (chain : List Block) (s : State) (hk : Keeps q0 s) :
    KeepsOut q0 (execTallyWrite iss b chain s) := by
  unfold execTallyWrite
  try dsimp only
  iterate 48 (all_goals (try first | (with_reducible first | exact hk | apply keeps_taxia | apply keepsOut_next | assumption | exact id | rfl | intro _ | apply keeps_ite | apply keepsOut_next | apply keepsOut_ite) | split | (with_reducible apply Keeps.upd)))

theorem keeps_execTallyRead (iss : Issuer) (b : Block) (chain : List Block) (s : State) (hk : Keeps q0 s) :
    KeepsOut q0 (execTallyRead iss b chain s) := by
  unfold execTallyRead
  try dsimp only
  iterate 48 (all_goals (try first | (with_reducible first | exact hk | apply keeps_taxia | apply keepsOut_next | assumption | exact id | rfl | intro _ | apply keeps_ite | apply keepsOut_next | apply keepsOut_ite) | split | (with_reducible apply Keeps.upd)))

theorem keeps_execRingReset (iss : Issuer) (b : Block) (chain : List Block) (s : State) (hk : Keeps q0 s) :
    KeepsOut q0 (execRingReset iss b chain s) := by
  unfold execRingReset
  try dsimp only
  iterate 48 (all_goals (try first | (with_reducible first | exact hk | apply keeps_taxia | apply keepsOut_next | assumption | exact id | rfl | intro _ | apply keeps_ite | apply keepsOut_next | apply keepsOut_ite) | split | (with_reducible apply Keeps.upd)))

theorem keeps_execTrigArm (iss : Issuer) (b : Block) (chain : List Block) (s : State) (hk : Keeps q0 s) :
    KeepsOut q0 (execTrigArm iss b chain s) := by
  unfold execTrigArm
  try dsimp only
  iterate 48 (all_goals (try first | (with_reducible first | exact hk | apply keeps_taxia | apply keepsOut_next | assumption | exact id | rfl | intro _ | apply keeps_ite | apply keepsOut_next | apply keepsOut_ite) | split | (with_reducible apply Keeps.upd)))

theorem keeps_execTrigDisarm (iss : Issuer) (b : Block) (chain : List Block) (s : State) (hk : Keeps q0 s) :
    KeepsOut q0 (execTrigDisarm iss b chain s) := by
  unfold execTrigDisarm
  try dsimp only
  iterate 48 (all_goals (try first | (with_reducible first | exact hk | apply keeps_taxia | apply keepsOut_next | assumption | exact id | rfl | intro _ | apply keeps_ite | apply keepsOut_next | apply keepsOut_ite) | split | (with_reducible apply Keeps.upd)))

theorem keeps_execMgIdentitySet (iss : Issuer) (b : Block) (chain : List Block) (s : State) (hk : Keeps q0 s) :
    KeepsOut q0 (execMgIdentitySet iss b chain s) := by
  unfold execMgIdentitySet
  try dsimp only
  iterate 48 (all_goals (try first | (with_reducible first | exact hk | apply keeps_taxia | apply keepsOut_next | assumption | exact id | rfl | intro _ | apply keeps_ite | apply keepsOut_next | apply keepsOut_ite) | split | (with_reducible apply Keeps.upd)))

theorem keeps_execPortEnable (iss : Issuer) (b : Block) (chain : List Block) (s : State) (hk : Keeps q0 s) :
    KeepsOut q0 (execPortEnable iss b chain s) := by
  unfold execPortEnable
  try dsimp only
  iterate 48 (all_goals (try first | (with_reducible first | exact hk | apply keeps_taxia | apply keepsOut_next | assumption | exact id | rfl | intro _ | apply keeps_ite | apply keepsOut_next | apply keepsOut_ite) | split | (with_reducible apply Keeps.upd)))

theorem keeps_execPortDisable (iss : Issuer) (b : Block) (chain : List Block) (s : State) (hk : Keeps q0 s) :
    KeepsOut q0 (execPortDisable iss b chain s) := by
  unfold execPortDisable
  try dsimp only
  iterate 48 (all_goals (try first | (with_reducible first | exact hk | apply keeps_taxia | apply keepsOut_next | assumption | exact id | rfl | intro _ | apply keeps_ite | apply keepsOut_next | apply keepsOut_ite) | split | (with_reducible apply Keeps.upd)))

theorem keeps_execPortDrain (iss : Issuer) (b : Block) (chain : List Block) (s : State) (hk : Keeps q0 s) :
    KeepsOut q0 (execPortDrain iss b chain s) := by
  unfold execPortDrain
  try dsimp only
  iterate 48 (all_goals (try first | (with_reducible first | exact hk | apply keeps_taxia | apply keepsOut_next | assumption | exact id | rfl | intro _ | apply keeps_ite | apply keepsOut_next | apply keepsOut_ite) | split | (with_reducible apply Keeps.upd)))

theorem keeps_execPortRetrain (iss : Issuer) (b : Block) (chain : List Block) (s : State) (hk : Keeps q0 s) :
    KeepsOut q0 (execPortRetrain iss b chain s) := by
  unfold execPortRetrain
  try dsimp only
  iterate 48 (all_goals (try first | (with_reducible first | exact hk | apply keeps_taxia | apply keepsOut_next | assumption | exact id | rfl | intro _ | apply keeps_ite | apply keepsOut_next | apply keepsOut_ite) | split | (with_reducible apply Keeps.upd)))

theorem keeps_execPortRelease (iss : Issuer) (b : Block) (chain : List Block) (s : State) (hk : Keeps q0 s) :
    KeepsOut q0 (execPortRelease iss b chain s) := by
  unfold execPortRelease
  try dsimp only
  iterate 48 (all_goals (try first | (with_reducible first | exact hk | apply keeps_taxia | apply keepsOut_next | assumption | exact id | rfl | intro _ | apply keeps_ite | apply keepsOut_next | apply keepsOut_ite) | split | (with_reducible apply Keeps.upd)))

theorem keeps_execPortConfigure (iss : Issuer) (b : Block) (chain : List Block) (s : State) (hk : Keeps q0 s) :
    KeepsOut q0 (execPortConfigure iss b chain s) := by
  unfold execPortConfigure
  try dsimp only
  iterate 48 (all_goals (try first | (with_reducible first | exact hk | apply keeps_taxia | apply keepsOut_next | assumption | exact id | rfl | intro _ | apply keeps_ite | apply keepsOut_next | apply keepsOut_ite) | split | (with_reducible apply Keeps.upd)))

theorem keeps_execEpochWriteClear (iss : Issuer) (b : Block) (chain : List Block) (s : State) (hk : Keeps q0 s) :
    KeepsOut q0 (execEpochWriteClear iss b chain s) := by
  unfold execEpochWriteClear
  try dsimp only
  iterate 48 (all_goals (try first | (with_reducible first | exact hk | apply keeps_taxia | apply keepsOut_next | assumption | exact id | rfl | intro _ | apply keeps_ite | apply keepsOut_next | apply keepsOut_ite) | split | (with_reducible apply Keeps.upd)))

theorem keeps_execEpochWriteCopyActive (iss : Issuer) (b : Block) (chain : List Block) (s : State) (hk : Keeps q0 s) :
    KeepsOut q0 (execEpochWriteCopyActive iss b chain s) := by
  unfold execEpochWriteCopyActive
  try dsimp only
  iterate 48 (all_goals (try first | (with_reducible first | exact hk | apply keeps_taxia | apply keepsOut_next | assumption | exact id | rfl | intro _ | apply keeps_ite | apply keepsOut_next | apply keepsOut_ite) | split | (with_reducible apply Keeps.upd)))

theorem keeps_execEpochWritePut (iss : Issuer) (b : Block) (chain : List Block) (s : State) (hk : Keeps q0 s) :
    KeepsOut q0 (execEpochWritePut iss b chain s) := by
  unfold execEpochWritePut
  try dsimp only
  iterate 48 (all_goals (try first | (with_reducible first | exact hk | apply keeps_taxia | apply keepsOut_next | assumption | exact id | rfl | intro _ | apply keeps_ite | apply keepsOut_next | apply keepsOut_ite) | split | (with_reducible apply Keeps.upd)))

theorem keeps_execEpochWriteRemove (iss : Issuer) (b : Block) (chain : List Block) (s : State) (hk : Keeps q0 s) :
    KeepsOut q0 (execEpochWriteRemove iss b chain s) := by
  unfold execEpochWriteRemove
  try dsimp only
  iterate 48 (all_goals (try first | (with_reducible first | exact hk | apply keeps_taxia | apply keepsOut_next | assumption | exact id | rfl | intro _ | apply keeps_ite | apply keepsOut_next | apply keepsOut_ite) | split | (with_reducible apply Keeps.upd)))

theorem keeps_execEpochActivate (iss : Issuer) (b : Block) (chain : List Block) (s : State) (hk : Keeps q0 s) :
    KeepsOut q0 (execEpochActivate iss b chain s) := by
  unfold execEpochActivate
  try dsimp only
  iterate 48 (all_goals (try first | (with_reducible first | exact hk | apply keeps_taxia | apply keepsOut_next | assumption | exact id | rfl | intro _ | apply keeps_ite | apply keepsOut_next | apply keepsOut_ite) | split | (with_reducible apply Keeps.upd)))

theorem keeps_execEpochWithdraw (iss : Issuer) (b : Block) (chain : List Block) (s : State) (hk : Keeps q0 s) :
    KeepsOut q0 (execEpochWithdraw iss b chain s) := by
  unfold execEpochWithdraw
  try dsimp only
  iterate 48 (all_goals (try first | (with_reducible first | exact hk | apply keeps_taxia | apply keepsOut_next | assumption | exact id | rfl | intro _ | apply keeps_ite | apply keepsOut_next | apply keepsOut_ite) | split | (with_reducible apply Keeps.upd)))

theorem keeps_execMgGateStage (iss : Issuer) (b : Block) (chain : List Block) (s : State) (hk : Keeps q0 s) :
    KeepsOut q0 (execMgGateStage iss b chain s) := by
  unfold execMgGateStage
  try dsimp only
  iterate 48 (all_goals (try first | (with_reducible first | exact hk | apply keeps_taxia | apply keepsOut_next | assumption | exact id | rfl | intro _ | apply keeps_ite | apply keepsOut_next | apply keepsOut_ite) | split | (with_reducible apply Keeps.upd)))

theorem keeps_execGateActivate (iss : Issuer) (b : Block) (chain : List Block) (s : State) (hk : Keeps q0 s) :
    KeepsOut q0 (execGateActivate iss b chain s) := by
  unfold execGateActivate
  try dsimp only
  iterate 48 (all_goals (try first | (with_reducible first | exact hk | apply keeps_taxia | apply keepsOut_next | assumption | exact id | rfl | intro _ | apply keeps_ite | apply keepsOut_next | apply keepsOut_ite) | split | (with_reducible apply Keeps.upd)))

theorem keeps_execGateWithdraw (iss : Issuer) (b : Block) (chain : List Block) (s : State) (hk : Keeps q0 s) :
    KeepsOut q0 (execGateWithdraw iss b chain s) := by
  unfold execGateWithdraw
  try dsimp only
  iterate 48 (all_goals (try first | (with_reducible first | exact hk | apply keeps_taxia | apply keepsOut_next | assumption | exact id | rfl | intro _ | apply keeps_ite | apply keepsOut_next | apply keepsOut_ite) | split | (with_reducible apply Keeps.upd)))

theorem keeps_execGateClear (iss : Issuer) (b : Block) (chain : List Block) (s : State) (hk : Keeps q0 s) :
    KeepsOut q0 (execGateClear iss b chain s) := by
  unfold execGateClear
  try dsimp only
  iterate 48 (all_goals (try first | (with_reducible first | exact hk | apply keeps_taxia | apply keepsOut_next | assumption | exact id | rfl | intro _ | apply keeps_ite | apply keepsOut_next | apply keepsOut_ite) | split | (with_reducible apply Keeps.upd)))

theorem keeps_execInstanceCreate (iss : Issuer) (b : Block) (chain : List Block) (s : State) (hk : Keeps q0 s) :
    KeepsOut q0 (execInstanceCreate iss b chain s) := by
  unfold execInstanceCreate
  try dsimp only
  iterate 48 (all_goals (try first | (with_reducible first | exact hk | apply keeps_taxia | apply keepsOut_next | assumption | exact id | rfl | intro _ | apply keeps_ite | apply keepsOut_next | apply keepsOut_ite) | split | (with_reducible apply Keeps.upd)))

theorem keeps_execInstanceStart (iss : Issuer) (b : Block) (chain : List Block) (s : State) (hk : Keeps q0 s) :
    KeepsOut q0 (execInstanceStart iss b chain s) := by
  unfold execInstanceStart
  try dsimp only
  iterate 48 (all_goals (try first | (with_reducible first | exact hk | apply keeps_taxia | apply keepsOut_next | assumption | exact id | rfl | intro _ | apply keeps_ite | apply keepsOut_next | apply keepsOut_ite) | split | (with_reducible apply Keeps.upd)))

theorem keeps_execInstanceQuiesce (iss : Issuer) (b : Block) (chain : List Block) (s : State) (hk : Keeps q0 s) :
    KeepsOut q0 (execInstanceQuiesce iss b chain s) := by
  unfold execInstanceQuiesce
  try dsimp only
  iterate 48 (all_goals (try first | (with_reducible first | exact hk | apply keeps_taxia | apply keepsOut_next | assumption | exact id | rfl | intro _ | apply keeps_ite | apply keepsOut_next | apply keepsOut_ite) | split | (with_reducible apply Keeps.upd)))

theorem keeps_execInstanceResume (iss : Issuer) (b : Block) (chain : List Block) (s : State) (hk : Keeps q0 s) :
    KeepsOut q0 (execInstanceResume iss b chain s) := by
  unfold execInstanceResume
  try dsimp only
  iterate 48 (all_goals (try first | (with_reducible first | exact hk | apply keeps_taxia | apply keepsOut_next | assumption | exact id | rfl | intro _ | apply keeps_ite | apply keepsOut_next | apply keepsOut_ite) | split | (with_reducible apply Keeps.upd)))

theorem keeps_execInstanceResize (iss : Issuer) (b : Block) (chain : List Block) (s : State) (hk : Keeps q0 s) :
    KeepsOut q0 (execInstanceResize iss b chain s) := by
  unfold execInstanceResize
  try dsimp only
  iterate 48 (all_goals (try first | (with_reducible first | exact hk | apply keeps_taxia | apply keepsOut_next | assumption | exact id | rfl | intro _ | apply keeps_ite | apply keepsOut_next | apply keepsOut_ite) | split | (with_reducible apply Keeps.upd)))

theorem keeps_execInstanceRemove (iss : Issuer) (b : Block) (chain : List Block) (s : State) (hk : Keeps q0 s) :
    KeepsOut q0 (execInstanceRemove iss b chain s) := by
  unfold execInstanceRemove
  try dsimp only
  iterate 48 (all_goals (try first | (with_reducible first | exact hk | apply keeps_taxia | apply keepsOut_next | assumption | exact id | rfl | intro _ | apply keeps_ite | apply keepsOut_next | apply keepsOut_ite) | split | (with_reducible apply Keeps.upd)))

theorem keeps_execGrantConnection (iss : Issuer) (b : Block) (chain : List Block) (s : State) (hk : Keeps q0 s) :
    KeepsOut q0 (execGrantConnection iss b chain s) := by
  unfold execGrantConnection
  try dsimp only
  iterate 48 (all_goals (try first | (with_reducible first | exact hk | apply keeps_taxia | apply keepsOut_next | assumption | exact id | rfl | intro _ | apply keeps_ite | apply keepsOut_next | apply keepsOut_ite) | split | (with_reducible apply Keeps.upd)))

theorem keeps_execRevokeConnection (iss : Issuer) (b : Block) (chain : List Block) (s : State) (hk : Keeps q0 s) :
    KeepsOut q0 (execRevokeConnection iss b chain s) := by
  unfold execRevokeConnection
  try dsimp only
  iterate 48 (all_goals (try first | (with_reducible first | exact hk | apply keeps_taxia | apply keepsOut_next | assumption | exact id | rfl | intro _ | apply keeps_ite | apply keepsOut_next | apply keepsOut_ite) | split | (with_reducible apply Keeps.upd)))

theorem keeps_execGrantMatching (iss : Issuer) (b : Block) (chain : List Block) (s : State) (hk : Keeps q0 s) :
    KeepsOut q0 (execGrantMatching iss b chain s) := by
  unfold execGrantMatching
  try dsimp only
  iterate 48 (all_goals (try first | (with_reducible first | exact hk | apply keeps_taxia | apply keepsOut_next | assumption | exact id | rfl | intro _ | apply keeps_ite | apply keepsOut_next | apply keepsOut_ite) | split | (with_reducible apply Keeps.upd)))

theorem keeps_execGrantCollective (iss : Issuer) (b : Block) (chain : List Block) (s : State) (hk : Keeps q0 s) :
    KeepsOut q0 (execGrantCollective iss b chain s) := by
  unfold execGrantCollective
  try dsimp only
  iterate 48 (all_goals (try first | (with_reducible first | exact hk | apply keeps_taxia | apply keepsOut_next | assumption | exact id | rfl | intro _ | apply keeps_ite | apply keepsOut_next | apply keepsOut_ite) | split | (with_reducible apply Keeps.upd)))

theorem keeps_execRevokeCollective (iss : Issuer) (b : Block) (chain : List Block) (s : State) (hk : Keeps q0 s) :
    KeepsOut q0 (execRevokeCollective iss b chain s) := by
  unfold execRevokeCollective
  try dsimp only
  iterate 48 (all_goals (try first | (with_reducible first | exact hk | apply keeps_taxia | apply keepsOut_next | assumption | exact id | rfl | intro _ | apply keeps_ite | apply keepsOut_next | apply keepsOut_ite) | split | (with_reducible apply Keeps.upd)))

theorem keeps_execGrantCounter (iss : Issuer) (b : Block) (chain : List Block) (s : State) (hk : Keeps q0 s) :
    KeepsOut q0 (execGrantCounter iss b chain s) := by
  unfold execGrantCounter
  try dsimp only
  iterate 48 (all_goals (try first | (with_reducible first | exact hk | apply keeps_taxia | apply keepsOut_next | assumption | exact id | rfl | intro _ | apply keeps_ite | apply keepsOut_next | apply keepsOut_ite) | split | (with_reducible apply Keeps.upd)))

theorem keeps_execRevokeCounter (iss : Issuer) (b : Block) (chain : List Block) (s : State) (hk : Keeps q0 s) :
    KeepsOut q0 (execRevokeCounter iss b chain s) := by
  unfold execRevokeCounter
  try dsimp only
  iterate 48 (all_goals (try first | (with_reducible first | exact hk | apply keeps_taxia | apply keepsOut_next | assumption | exact id | rfl | intro _ | apply keeps_ite | apply keepsOut_next | apply keepsOut_ite) | split | (with_reducible apply Keeps.upd)))

theorem keeps_execGrantTally (iss : Issuer) (b : Block) (chain : List Block) (s : State) (hk : Keeps q0 s) :
    KeepsOut q0 (execGrantTally iss b chain s) := by
  unfold execGrantTally
  try dsimp only
  iterate 48 (all_goals (try first | (with_reducible first | exact hk | apply keeps_taxia | apply keepsOut_next | assumption | exact id | rfl | intro _ | apply keeps_ite | apply keepsOut_next | apply keepsOut_ite) | split | (with_reducible apply Keeps.upd)))

theorem keeps_execRevokeTally (iss : Issuer) (b : Block) (chain : List Block) (s : State) (hk : Keeps q0 s) :
    KeepsOut q0 (execRevokeTally iss b chain s) := by
  unfold execRevokeTally
  try dsimp only
  iterate 48 (all_goals (try first | (with_reducible first | exact hk | apply keeps_taxia | apply keepsOut_next | assumption | exact id | rfl | intro _ | apply keeps_ite | apply keepsOut_next | apply keepsOut_ite) | split | (with_reducible apply Keeps.upd)))

theorem keeps_execGrantVstation (iss : Issuer) (b : Block) (chain : List Block) (s : State) (hk : Keeps q0 s) :
    KeepsOut q0 (execGrantVstation iss b chain s) := by
  unfold execGrantVstation
  try dsimp only
  iterate 48 (all_goals (try first | (with_reducible first | exact hk | apply keeps_taxia | apply keepsOut_next | assumption | exact id | rfl | intro _ | apply keeps_ite | apply keepsOut_next | apply keepsOut_ite) | split | (with_reducible apply Keeps.upd)))

theorem keeps_execRevokeVstation (iss : Issuer) (b : Block) (chain : List Block) (s : State) (hk : Keeps q0 s) :
    KeepsOut q0 (execRevokeVstation iss b chain s) := by
  unfold execRevokeVstation
  try dsimp only
  iterate 48 (all_goals (try first | (with_reducible first | exact hk | apply keeps_taxia | apply keepsOut_next | assumption | exact id | rfl | intro _ | apply keeps_ite | apply keepsOut_next | apply keepsOut_ite) | split | (with_reducible apply Keeps.upd)))

theorem keeps_execGrantWindow (iss : Issuer) (b : Block) (chain : List Block) (s : State) (hk : Keeps q0 s) :
    KeepsOut q0 (execGrantWindow iss b chain s) := by
  unfold execGrantWindow
  try dsimp only
  iterate 48 (all_goals (try first | (with_reducible first | exact hk | apply keeps_taxia | apply keepsOut_next | assumption | exact id | rfl | intro _ | apply keeps_ite | apply keepsOut_next | apply keepsOut_ite) | split | (with_reducible apply Keeps.upd)))

theorem keeps_execModeSetDrain (iss : Issuer) (b : Block) (chain : List Block) (s : State) (hk : Keeps q0 s) :
    KeepsOut q0 (execModeSetDrain iss b chain s) := by
  unfold execModeSetDrain
  try dsimp only
  iterate 48 (all_goals (try first | (with_reducible first | exact hk | apply keeps_taxia | apply keepsOut_next | assumption | exact id | rfl | intro _ | apply keeps_ite | apply keepsOut_next | apply keepsOut_ite) | split | (with_reducible apply Keeps.upd)))

theorem keeps_execModeSetResume (iss : Issuer) (b : Block) (chain : List Block) (s : State) (hk : Keeps q0 s) :
    KeepsOut q0 (execModeSetResume iss b chain s) := by
  unfold execModeSetResume
  try dsimp only
  iterate 48 (all_goals (try first | (with_reducible first | exact hk | apply keeps_taxia | apply keepsOut_next | assumption | exact id | rfl | intro _ | apply keeps_ite | apply keepsOut_next | apply keepsOut_ite) | split | (with_reducible apply Keeps.upd)))

theorem keeps_execModeSetStandby (iss : Issuer) (b : Block) (chain : List Block) (s : State) (hk : Keeps q0 s) :
    KeepsOut q0 (execModeSetStandby iss b chain s) := by
  unfold execModeSetStandby
  try dsimp only
  iterate 48 (all_goals (try first | (with_reducible first | exact hk | apply keeps_taxia | apply keepsOut_next | assumption | exact id | rfl | intro _ | apply keeps_ite | apply keepsOut_next | apply keepsOut_ite) | split | (with_reducible apply Keeps.upd)))

theorem keeps_execModeSetReset (iss : Issuer) (b : Block) (chain : List Block) (s : State) (hk : Keeps q0 s) :
    KeepsOut q0 (execModeSetReset iss b chain s) := by
  unfold execModeSetReset
  try dsimp only
  iterate 48 (all_goals (try first | (with_reducible first | exact hk | apply keeps_taxia | apply keepsOut_next | assumption | exact id | rfl | intro _ | apply keeps_ite | apply keepsOut_next | apply keepsOut_ite) | split | (with_reducible apply Keeps.upd)))

theorem keeps_execModeSetForensic (iss : Issuer) (b : Block) (chain : List Block) (s : State) (hk : Keeps q0 s) :
    KeepsOut q0 (execModeSetForensic iss b chain s) := by
  unfold execModeSetForensic
  try dsimp only
  iterate 48 (all_goals (try first | (with_reducible first | exact hk | apply keeps_taxia | apply keepsOut_next | assumption | exact id | rfl | intro _ | apply keeps_ite | apply keepsOut_next | apply keepsOut_ite) | split | (with_reducible apply Keeps.upd)))

theorem keeps_execMgRegRead (iss : Issuer) (b : Block) (chain : List Block) (s : State) (hk : Keeps q0 s) :
    KeepsOut q0 (execMgRegRead iss b chain s) := by
  unfold execMgRegRead
  try dsimp only
  iterate 48 (all_goals (try first | (with_reducible first | exact hk | apply keeps_taxia | apply keepsOut_next | assumption | exact id | rfl | intro _ | apply keeps_ite | apply keepsOut_next | apply keepsOut_ite) | split | (with_reducible apply Keeps.upd)))

theorem keeps_execMgRegWrite (iss : Issuer) (b : Block) (chain : List Block) (s : State) (hk : Keeps q0 s) :
    KeepsOut q0 (execMgRegWrite iss b chain s) := by
  unfold execMgRegWrite
  try dsimp only
  iterate 48 (all_goals (try first | (with_reducible first | exact hk | apply keeps_taxia | apply keepsOut_next | assumption | exact id | rfl | intro _ | apply keeps_ite | apply keepsOut_next | apply keepsOut_ite) | split | (with_reducible apply Keeps.upd)))

theorem keeps_execCruisePushNow (iss : Issuer) (b : Block) (chain : List Block) (s : State) (hk : Keeps q0 s) :
    KeepsOut q0 (execCruisePushNow iss b chain s) := by
  unfold execCruisePushNow
  try dsimp only
  iterate 48 (all_goals (try first | (with_reducible first | exact hk | apply keeps_taxia | apply keepsOut_next | assumption | exact id | rfl | intro _ | apply keeps_ite | apply keepsOut_next | apply keepsOut_ite) | split | (with_reducible apply Keeps.upd)))

theorem keeps_execCruiseSetPush (iss : Issuer) (b : Block) (chain : List Block) (s : State) (hk : Keeps q0 s) :
    KeepsOut q0 (execCruiseSetPush iss b chain s) := by
  unfold execCruiseSetPush
  try dsimp only
  iterate 48 (all_goals (try first | (with_reducible first | exact hk | apply keeps_taxia | apply keepsOut_next | assumption | exact id | rfl | intro _ | apply keeps_ite | apply keepsOut_next | apply keepsOut_ite) | split | (with_reducible apply Keeps.upd)))

theorem keeps_execCruiseSetReceive (iss : Issuer) (b : Block) (chain : List Block) (s : State) (hk : Keeps q0 s) :
    KeepsOut q0 (execCruiseSetReceive iss b chain s) := by
  unfold execCruiseSetReceive
  try dsimp only
  iterate 48 (all_goals (try first | (with_reducible first | exact hk | apply keeps_taxia | apply keepsOut_next | assumption | exact id | rfl | intro _ | apply keeps_ite | apply keepsOut_next | apply keepsOut_ite) | split | (with_reducible apply Keeps.upd)))

theorem keeps_execMgShelfCollect (iss : Issuer) (b : Block) (chain : List Block) (s : State) (hk : Keeps q0 s) :
    KeepsOut q0 (execMgShelfCollect iss b chain s) := by
  unfold execMgShelfCollect
  try dsimp only
  iterate 48 (all_goals (try first | (with_reducible first | exact hk | apply keeps_taxia | apply keepsOut_next | assumption | exact id | rfl | intro _ | apply keeps_ite | apply keepsOut_next | apply keepsOut_ite) | split | (with_reducible apply Keeps.upd)))

theorem keeps_execMgFaultRelease (iss : Issuer) (b : Block) (chain : List Block) (s : State) (hk : Keeps q0 s) :
    KeepsOut q0 (execMgFaultRelease iss b chain s) := by
  unfold execMgFaultRelease
  try dsimp only
  iterate 48 (all_goals (try first | (with_reducible first | exact hk | apply keeps_taxia | apply keepsOut_next | assumption | exact id | rfl | intro _ | apply keeps_ite | apply keepsOut_next | apply keepsOut_ite) | split | (with_reducible apply Keeps.upd)))

theorem keeps_execMgSemBankReset (iss : Issuer) (b : Block) (chain : List Block) (s : State) (hk : Keeps q0 s) :
    KeepsOut q0 (execMgSemBankReset iss b chain s) := by
  unfold execMgSemBankReset
  try dsimp only
  iterate 48 (all_goals (try first | (with_reducible first | exact hk | apply keeps_taxia | apply keepsOut_next | assumption | exact id | rfl | intro _ | apply keeps_ite | apply keepsOut_next | apply keepsOut_ite) | split | (with_reducible apply Keeps.upd)))

theorem keeps_execTimeCtlSet (iss : Issuer) (b : Block) (chain : List Block) (s : State) (hk : Keeps q0 s) :
    KeepsOut q0 (execTimeCtlSet iss b chain s) := by
  unfold execTimeCtlSet
  try dsimp only
  iterate 48 (all_goals (try first | (with_reducible first | exact hk | apply keeps_taxia | apply keepsOut_next | assumption | exact id | rfl | intro _ | apply keeps_ite | apply keepsOut_next | apply keepsOut_ite) | split | (with_reducible apply Keeps.upd)))

theorem keeps_execTimeCtlStep (iss : Issuer) (b : Block) (chain : List Block) (s : State) (hk : Keeps q0 s) :
    KeepsOut q0 (execTimeCtlStep iss b chain s) := by
  unfold execTimeCtlStep
  try dsimp only
  iterate 48 (all_goals (try first | (with_reducible first | exact hk | apply keeps_taxia | apply keepsOut_next | assumption | exact id | rfl | intro _ | apply keeps_ite | apply keepsOut_next | apply keepsOut_ite) | split | (with_reducible apply Keeps.upd)))

theorem keeps_execTimeCtlReselect (iss : Issuer) (b : Block) (chain : List Block) (s : State) (hk : Keeps q0 s) :
    KeepsOut q0 (execTimeCtlReselect iss b chain s) := by
  unfold execTimeCtlReselect
  try dsimp only
  iterate 48 (all_goals (try first | (with_reducible first | exact hk | apply keeps_taxia | apply keepsOut_next | assumption | exact id | rfl | intro _ | apply keeps_ite | apply keepsOut_next | apply keepsOut_ite) | split | (with_reducible apply Keeps.upd)))

theorem keeps_execArchiveDesignate (iss : Issuer) (b : Block) (chain : List Block) (s : State) (hk : Keeps q0 s) :
    KeepsOut q0 (execArchiveDesignate iss b chain s) := by
  unfold execArchiveDesignate
  try dsimp only
  iterate 48 (all_goals (try first | (with_reducible first | exact hk | apply keeps_taxia | apply keepsOut_next | assumption | exact id | rfl | intro _ | apply keeps_ite | apply keepsOut_next | apply keepsOut_ite) | split | (with_reducible apply Keeps.upd)))

theorem keeps_execArchiveClear (iss : Issuer) (b : Block) (chain : List Block) (s : State) (hk : Keeps q0 s) :
    KeepsOut q0 (execArchiveClear iss b chain s) := by
  unfold execArchiveClear
  try dsimp only
  iterate 48 (all_goals (try first | (with_reducible first | exact hk | apply keeps_taxia | apply keepsOut_next | assumption | exact id | rfl | intro _ | apply keeps_ite | apply keepsOut_next | apply keepsOut_ite) | split | (with_reducible apply Keeps.upd)))

theorem keeps_execArchiveCopy (iss : Issuer) (b : Block) (chain : List Block) (s : State) (hk : Keeps q0 s) :
    KeepsOut q0 (execArchiveCopy iss b chain s) := by
  unfold execArchiveCopy
  try dsimp only
  iterate 48 (all_goals (try first | (with_reducible first | exact hk | apply keeps_taxia | apply keepsOut_next | assumption | exact id | rfl | intro _ | apply keeps_ite | apply keepsOut_next | apply keepsOut_ite) | split | (with_reducible apply Keeps.upd)))

theorem keeps_execRingConfigureCmd (iss : Issuer) (b : Block) (chain : List Block) (s : State) (hk : Keeps q0 s) :
    KeepsOut q0 (execRingConfigureCmd iss b chain s) := by
  unfold execRingConfigureCmd
  try dsimp only
  iterate 48 (all_goals (try first | (with_reducible first | exact hk | apply keeps_taxia | apply keepsOut_next | assumption | exact id | rfl | intro _ | apply keeps_ite | apply keepsOut_next | apply keepsOut_ite) | split | (with_reducible apply Keeps.upd)))

theorem keeps_execRingConfigureCq (iss : Issuer) (b : Block) (chain : List Block) (s : State) (hk : Keeps q0 s) :
    KeepsOut q0 (execRingConfigureCq iss b chain s) := by
  unfold execRingConfigureCq
  try dsimp only
  iterate 48 (all_goals (try first | (with_reducible first | exact hk | apply keeps_taxia | apply keepsOut_next | assumption | exact id | rfl | intro _ | apply keeps_ite | apply keepsOut_next | apply keepsOut_ite) | split | (with_reducible apply Keeps.upd)))

theorem keeps_execRingPause (iss : Issuer) (b : Block) (chain : List Block) (s : State) (hk : Keeps q0 s) :
    KeepsOut q0 (execRingPause iss b chain s) := by
  unfold execRingPause
  try dsimp only
  iterate 48 (all_goals (try first | (with_reducible first | exact hk | apply keeps_taxia | apply keepsOut_next | assumption | exact id | rfl | intro _ | apply keeps_ite | apply keepsOut_next | apply keepsOut_ite) | split | (with_reducible apply Keeps.upd)))

theorem keeps_execRingResume (iss : Issuer) (b : Block) (chain : List Block) (s : State) (hk : Keeps q0 s) :
    KeepsOut q0 (execRingResume iss b chain s) := by
  unfold execRingResume
  try dsimp only
  iterate 48 (all_goals (try first | (with_reducible first | exact hk | apply keeps_taxia | apply keepsOut_next | assumption | exact id | rfl | intro _ | apply keeps_ite | apply keepsOut_next | apply keepsOut_ite) | split | (with_reducible apply Keeps.upd)))

theorem keeps_execRingCtlReset (iss : Issuer) (b : Block) (chain : List Block) (s : State) (hk : Keeps q0 s) :
    KeepsOut q0 (execRingCtlReset iss b chain s) := by
  unfold execRingCtlReset
  try dsimp only
  iterate 48 (all_goals (try first | (with_reducible first | exact hk | apply keeps_taxia | apply keepsOut_next | assumption | exact id | rfl | intro _ | apply keeps_ite | apply keepsOut_next | apply keepsOut_ite) | split | (with_reducible apply Keeps.upd)))

theorem keeps_execRingReleaseCmd (iss : Issuer) (b : Block) (chain : List Block) (s : State) (hk : Keeps q0 s) :
    KeepsOut q0 (execRingReleaseCmd iss b chain s) := by
  unfold execRingReleaseCmd
  try dsimp only
  iterate 48 (all_goals (try first | (with_reducible first | exact hk | apply keeps_taxia | apply keepsOut_next | assumption | exact id | rfl | intro _ | apply keeps_ite | apply keepsOut_next | apply keepsOut_ite) | split | (with_reducible apply Keeps.upd)))

theorem keeps_execRingReleaseCq (iss : Issuer) (b : Block) (chain : List Block) (s : State) (hk : Keeps q0 s) :
    KeepsOut q0 (execRingReleaseCq iss b chain s) := by
  unfold execRingReleaseCq
  try dsimp only
  iterate 48 (all_goals (try first | (with_reducible first | exact hk | apply keeps_taxia | apply keepsOut_next | assumption | exact id | rfl | intro _ | apply keeps_ite | apply keepsOut_next | apply keepsOut_ite) | split | (with_reducible apply Keeps.upd)))

theorem keeps_spaceRead (s : State) (m : Master) (off size : Nat) (hk : Keeps q0 s) :
    Keeps q0 (spaceRead s m off size) := by
  unfold spaceRead
  try dsimp only
  iterate 48 (all_goals (try first | (with_reducible first | exact hk | apply keeps_denyAccess | apply keeps_emit | apply keeps_regReadAs | refine keeps_regReadAs_eq (by assumption) ?_ | assumption | exact id | rfl | intro _ | apply keeps_ite) | split | (with_reducible apply Keeps.upd)))

theorem keeps_spaceWrite (s : State) (m : Master) (off size data : Nat) (hk : Keeps q0 s) :
    Keeps q0 (spaceWrite s m off size data) := by
  unfold spaceWrite
  try dsimp only
  iterate 48 (all_goals (try first | (with_reducible first | exact hk | apply keeps_denyAccess | apply keeps_emit | apply keeps_regWriteAs | refine keeps_regWriteAs_eq (by assumption) ?_ | assumption | exact id | rfl | intro _ | apply keeps_ite) | split | (with_reducible apply Keeps.upd)))

theorem keeps_partRead (s : State) (m : Master) (b width off size v : Nat) (hk : Keeps q0 s) :
    Keeps q0 (partRead s m b width off size v).1 := by
  unfold partRead
  try dsimp only
  iterate 48 (all_goals (try first | (with_reducible first | exact hk | apply keeps_latchHigh | apply keeps_unlatch | assumption | exact id | rfl | intro _ | apply keeps_ite) | split | (with_reducible apply Keeps.upd)))
theorem keeps_partRead_eq {s : State}  {m : Master}  {b width off size v : Nat} {t0 : State} {b0 : Nat} (he : partRead s m b width off size v = (t0, b0)) (hk : Keeps q0 s) : Keeps q0 t0 := by
  have := keeps_partRead s m b width off size v hk; rw [he] at this; exact this

theorem keeps_tenantSem (s : State) (m : Master) (d : Die) (n off size : Nat) (hk : Keeps q0 s) :
    Keeps q0 (tenantSem s m d n off size).1 := by
  unfold tenantSem
  try dsimp only
  iterate 48 (all_goals (try first | (with_reducible first | exact hk | apply keeps_partRead | apply keeps_semRead | refine keeps_partRead_eq (by assumption) ?_ | refine keeps_semRead_eq (by assumption) ?_ | assumption | exact id | rfl | intro _ | apply keeps_ite) | split | (with_reducible apply Keeps.upd)))
theorem keeps_tenantSem_eq {s : State}  {m : Master}  {d : Die}  {n off size : Nat} {t0 : State} {b0 : Nat} (he : tenantSem s m d n off size = (t0, b0)) (hk : Keeps q0 s) : Keeps q0 t0 := by
  have := keeps_tenantSem s m d n off size hk; rw [he] at this; exact this

theorem keeps_tenantVal (s : State) (m : Master) (i off size : Nat) (hk : Keeps q0 s) :
    Keeps q0 (tenantVal s m i off size).1 := by
  unfold tenantVal
  try dsimp only
  iterate 48 (all_goals (try first | (with_reducible first | exact hk | apply keeps_arm | apply keeps_partRead | apply keeps_tenantSem | refine keeps_partRead_eq (by assumption) ?_ | refine keeps_tenantSem_eq (by assumption) ?_ | assumption | exact id | rfl | intro _ | apply keeps_ite) | split | (with_reducible apply Keeps.upd)))
theorem keeps_tenantVal_eq {s : State}  {m : Master}  {i off size : Nat} {t0 : State} {b0 : Nat} (he : tenantVal s m i off size = (t0, b0)) (hk : Keeps q0 s) : Keeps q0 t0 := by
  have := keeps_tenantVal s m i off size hk; rw [he] at this; exact this

theorem keeps_tenantRead (s : State) (f : FnId) (off size : Nat) (hk : Keeps q0 s) :
    Keeps q0 (tenantRead s f off size) := by
  unfold tenantRead
  try dsimp only
  iterate 48 (all_goals (try first | (with_reducible first | exact hk | apply keeps_emit | apply keeps_tenantVal | apply keeps_unhold | refine keeps_tenantVal_eq (by assumption) ?_ | assumption | exact id | rfl | intro _ | apply keeps_ite) | split | (with_reducible apply Keeps.upd)))

theorem keeps_tenantSemCtl (s : State) (m : Master) (d : Die) (off size data : Nat) (low : Option Nat) (hk : Keeps q0 s) :
    Keeps q0 (tenantSemCtl s m d off size data low) := by
  unfold tenantSemCtl
  try dsimp only
  iterate 48 (all_goals (try first | (with_reducible first | exact hk | apply keeps_semCtl | apply keeps_semWrite | assumption | exact id | rfl | intro _ | apply keeps_ite) | split | (with_reducible apply Keeps.upd)))

theorem keeps_tenantWrite (s : State) (f : FnId) (i off size data : Nat) (hk : Keeps q0 s) :
    Keeps q0 (tenantWrite s f i off size data) := by
  unfold tenantWrite
  try dsimp only
  iterate 48 (all_goals (try first | (with_reducible first | exact hk | apply keeps_cqHeadWrite | apply keeps_instHeadWrite | apply keeps_ringDoorbell | apply keeps_tenantSemCtl | apply keeps_unhold | assumption | exact id | rfl | intro _ | apply keeps_ite) | split | (with_reducible apply Keeps.upd)))

theorem keeps_bar2Read (s : State) (f : FnId) (o size : Nat) (hk : Keeps q0 s) :
    Keeps q0 (bar2Read s f o size) := by
  unfold bar2Read
  try dsimp only
  iterate 48 (all_goals (try first | (with_reducible first | exact hk | apply keeps_emit | apply keeps_partRead | apply keeps_unhold | refine keeps_partRead_eq (by assumption) ?_ | assumption | exact id | rfl | intro _ | apply keeps_ite) | split | (with_reducible apply Keeps.upd)))

theorem keeps_msixWrite (s : State) (f : FnId) (v k data : Nat) (hk : Keeps q0 s) :
    Keeps q0 (msixWrite s f v k data) := by
  unfold msixWrite
  try dsimp only
  iterate 48 (all_goals (try first | (with_reducible first | exact hk | apply keeps_modFn | apply keeps_msixSend | apply keeps_setMasked | assumption | exact id | rfl | intro _ | apply keeps_ite) | split | (with_reducible apply Keeps.upd)))

theorem keeps_blockWrite (s : State) (o size data : Nat) (hk : Keeps q0 s) :
    Keeps q0 (blockWrite s o size data) := by
  unfold blockWrite
  try dsimp only
  iterate 48 (all_goals (try first | (with_reducible first | exact hk | assumption | exact id | rfl | intro _ | apply keeps_ite) | split | (with_reducible apply Keeps.upd)))

theorem keeps_bar2Write (s : State) (f : FnId) (o size data : Nat) (hk : Keeps q0 s) :
    Keeps q0 (bar2Write s f o size data) := by
  unfold bar2Write
  try dsimp only
  iterate 48 (all_goals (try first | (with_reducible first | exact hk | apply keeps_blockWrite | apply keeps_mbxGo | apply keeps_msixWrite | apply keeps_unhold | assumption | exact id | rfl | intro _ | apply keeps_ite) | split | (with_reducible apply Keeps.upd)))

theorem keeps_accessRead (s : State) (m : Master) (off size : Nat) (hk : Keeps q0 s) :
    Keeps q0 (accessRead s m off size) := by
  unfold accessRead
  try dsimp only
  iterate 48 (all_goals (try first | (with_reducible first | exact hk | apply keeps_bar2Read | apply keeps_emit | apply keeps_spaceRead | apply keeps_tenantRead | assumption | exact id | rfl | intro _ | apply keeps_ite) | split | (with_reducible apply Keeps.upd)))

theorem keeps_accessWrite (s : State) (m : Master) (off size data : Nat) (hk : Keeps q0 s) :
    Keeps q0 (accessWrite s m off size data) := by
  unfold accessWrite
  try dsimp only
  iterate 48 (all_goals (try first | (with_reducible first | exact hk | apply keeps_bar2Write | apply keeps_spaceWrite | apply keeps_tenantWrite | assumption | exact id | rfl | intro _ | apply keeps_ite) | split | (with_reducible apply Keeps.upd)))

theorem keeps_execRegisterWrite (m : Master) (off size : Nat) (data : Word) (s : State) (hk : Keeps q0 s) :
    KeepsOut q0 (execRegisterWrite m off size data s) := by
  unfold execRegisterWrite
  try dsimp only
  iterate 48 (all_goals (try first | (with_reducible first | exact hk | apply keeps_accessWrite | apply keepsOut_next | assumption | exact id | rfl | intro _ | apply keeps_ite | apply keepsOut_next | apply keepsOut_ite) | split | (with_reducible apply Keeps.upd)))

theorem keeps_execGlobalImageWrite (m : Master) (off size : Nat) (data : Word) (s : State) (hk : Keeps q0 s) :
    KeepsOut q0 (execGlobalImageWrite m off size data s) := by
  unfold execGlobalImageWrite
  try dsimp only
  iterate 48 (all_goals (try first | (with_reducible first | exact hk | apply keeps_accessWrite | apply keepsOut_next | assumption | exact id | rfl | intro _ | apply keeps_ite | apply keepsOut_next | apply keepsOut_ite) | split | (with_reducible apply Keeps.upd)))

theorem keeps_execLowHalfReadLatch (m : Master) (off : Nat) (s : State) (hk : Keeps q0 s) :
    KeepsOut q0 (execLowHalfReadLatch m off s) := by
  unfold execLowHalfReadLatch
  try dsimp only
  iterate 48 (all_goals (try first | (with_reducible first | exact hk | apply keeps_accessRead | apply keepsOut_next | assumption | exact id | rfl | intro _ | apply keeps_ite | apply keepsOut_next | apply keepsOut_ite) | split | (with_reducible apply Keeps.upd)))

theorem keeps_execLowHalfWriteHold (m : Master) (off : Nat) (data : BitVec 32) (s : State) (hk : Keeps q0 s) :
    KeepsOut q0 (execLowHalfWriteHold m off data s) := by
  unfold execLowHalfWriteHold
  try dsimp only
  iterate 48 (all_goals (try first | (with_reducible first | exact hk | apply keeps_accessWrite | apply keepsOut_next | assumption | exact id | rfl | intro _ | apply keeps_ite | apply keepsOut_next | apply keepsOut_ite) | split | (with_reducible apply Keeps.upd)))

theorem keeps_execViewSnapshotRead (m : Master) (off : Nat) (s : State) (hk : Keeps q0 s) :
    KeepsOut q0 (execViewSnapshotRead m off s) := by
  unfold execViewSnapshotRead
  try dsimp only
  iterate 48 (all_goals (try first | (with_reducible first | exact hk | apply keeps_accessRead | apply keepsOut_next | assumption | exact id | rfl | intro _ | apply keeps_ite | apply keepsOut_next | apply keepsOut_ite) | split | (with_reducible apply Keeps.upd)))

theorem keeps_execCrzQViewRead (m : Master) (d : Die) (s : State) (hk : Keeps q0 s) :
    KeepsOut q0 (execCrzQViewRead m d s) := by
  unfold execCrzQViewRead
  try dsimp only
  iterate 48 (all_goals (try first | (with_reducible first | exact hk | apply keeps_accessRead | apply keepsOut_next | assumption | exact id | rfl | intro _ | apply keeps_ite | apply keepsOut_next | apply keepsOut_ite) | split | (with_reducible apply Keeps.upd)))

theorem keeps_execAclRegionWrite (n : Nat) (val : Word) (s : State) (hk : Keeps q0 s) :
    KeepsOut q0 (execAclRegionWrite n val s) := by
  unfold execAclRegionWrite
  try dsimp only
  iterate 48 (all_goals (try first | (with_reducible first | exact hk | apply keeps_accessWrite | apply keepsOut_next | assumption | exact id | rfl | intro _ | apply keeps_ite | apply keepsOut_next | apply keepsOut_ite) | split | (with_reducible apply Keeps.upd)))

theorem keeps_execSemAcquire (m : Master) (d : Die) (n : Nat) (s : State) (hk : Keeps q0 s) :
    KeepsOut q0 (execSemAcquire m d n s) := by
  unfold execSemAcquire
  try dsimp only
  iterate 48 (all_goals (try first | (with_reducible first | exact hk | apply keeps_semAcquire | apply keepsOut_next | apply keepsOut_ite | assumption | exact id | rfl | intro _ | apply keeps_ite | apply keepsOut_next | apply keepsOut_ite) | split | (with_reducible apply Keeps.upd)))

theorem keeps_execSemRelease (m : Master) (d : Die) (n : Nat) (s : State) (hk : Keeps q0 s) :
    KeepsOut q0 (execSemRelease m d n s) := by
  unfold execSemRelease
  try dsimp only
  iterate 48 (all_goals (try first | (with_reducible first | exact hk | apply keeps_semReleaseOp | apply keeps_semWrite | apply keepsOut_next | apply keepsOut_ite | assumption | exact id | rfl | intro _ | apply keeps_ite | apply keepsOut_next | apply keepsOut_ite) | split | (with_reducible apply Keeps.upd)))

theorem keeps_execSemArm (m : Master) (d : Die) (n level source : Nat) (s : State) (hk : Keeps q0 s) :
    KeepsOut q0 (execSemArm m d n level source s) := by
  unfold execSemArm
  try dsimp only
  iterate 48 (all_goals (try first | (with_reducible first | exact hk | apply keeps_semArmOp | apply keeps_semWrite | apply keepsOut_next | apply keepsOut_ite | assumption | exact id | rfl | intro _ | apply keeps_ite | apply keepsOut_next | apply keepsOut_ite) | split | (with_reducible apply Keeps.upd)))

theorem keeps_execSemDisarm (m : Master) (d : Die) (n : Nat) (s : State) (hk : Keeps q0 s) :
    KeepsOut q0 (execSemDisarm m d n s) := by
  unfold execSemDisarm
  try dsimp only
  iterate 48 (all_goals (try first | (with_reducible first | exact hk | apply keeps_semDisarmOp | apply keeps_semWrite | apply keepsOut_next | apply keepsOut_ite | assumption | exact id | rfl | intro _ | apply keeps_ite | apply keepsOut_next | apply keepsOut_ite) | split | (with_reducible apply Keeps.upd)))

theorem keeps_i3cAnswer (s : State) (status : Nat) (data : List Byte) (hk : Keeps q0 s) :
    Keeps q0 (i3cAnswer s status data) := by
  unfold i3cAnswer
  try dsimp only
  iterate 48 (all_goals (try first | (with_reducible first | exact hk | assumption | exact id | rfl | intro _ | apply keeps_ite) | split | (with_reducible apply Keeps.upd)))

theorem keeps_i3cRegAnswer (size : Nat) (rd : Bool) (r : State × Access) (h : Keeps q0 r.1) : Keeps q0 (i3cRegAnswer size rd r) := by
  obtain ⟨s, a⟩ := r
  cases a <;> exact keeps_i3cAnswer _ _ _ h

theorem keeps_i3cRegRead (s : State) (addr size : Nat) (hk : Keeps q0 s) :
    Keeps q0 (i3cRegRead s addr size) := by
  unfold i3cRegRead
  try dsimp only
  iterate 48 (all_goals (try first | (with_reducible first | exact hk | apply keeps_i3cAnswer | apply keeps_i3cRegAnswer | apply keeps_regReadAs | refine keeps_regReadAs_eq (by assumption) ?_ | assumption | exact id | rfl | intro _ | apply keeps_ite) | split | (with_reducible apply Keeps.upd)))

theorem keeps_i3cRegWrite (s : State) (addr size data : Nat) (hk : Keeps q0 s) :
    Keeps q0 (i3cRegWrite s addr size data) := by
  unfold i3cRegWrite
  try dsimp only
  iterate 48 (all_goals (try first | (with_reducible first | exact hk | apply keeps_i3cAnswer | apply keeps_i3cRegAnswer | apply keeps_regWriteAs | refine keeps_regWriteAs_eq (by assumption) ?_ | assumption | exact id | rfl | intro _ | apply keeps_ite) | split | (with_reducible apply Keeps.upd)))

theorem keeps_execI3cRegRead (addr size : Nat) (s : State) (hk : Keeps q0 s) :
    KeepsOut q0 (execI3cRegRead addr size s) := by
  unfold execI3cRegRead
  try dsimp only
  iterate 48 (all_goals (try first | (with_reducible first | exact hk | apply keeps_i3cRegRead | apply keepsOut_next | apply keepsOut_ite | assumption | exact id | rfl | intro _ | apply keeps_ite | apply keepsOut_next | apply keepsOut_ite) | split | (with_reducible apply Keeps.upd)))

theorem keeps_execI3cRegWrite (addr size : Nat) (data : Word) (s : State) (hk : Keeps q0 s) :
    KeepsOut q0 (execI3cRegWrite addr size data s) := by
  unfold execI3cRegWrite
  try dsimp only
  iterate 48 (all_goals (try first | (with_reducible first | exact hk | apply keeps_i3cRegWrite | apply keepsOut_next | apply keepsOut_ite | assumption | exact id | rfl | intro _ | apply keeps_ite | apply keepsOut_next | apply keepsOut_ite) | split | (with_reducible apply Keeps.upd)))

theorem keeps_i3cFlashRead (s : State) (addr len : Nat) (hk : Keeps q0 s) :
    Keeps q0 (i3cFlashRead s addr len) := by
  unfold i3cFlashRead
  try dsimp only
  iterate 48 (all_goals (try first | (with_reducible first | exact hk | apply keeps_i3cAnswer | assumption | exact id | rfl | intro _ | apply keeps_ite) | split | (with_reducible apply Keeps.upd)))

theorem keeps_execI3cFlashRead (addr len : Nat) (s : State) (hk : Keeps q0 s) :
    KeepsOut q0 (execI3cFlashRead addr len s) := by
  unfold execI3cFlashRead
  try dsimp only
  iterate 48 (all_goals (try first | (with_reducible first | exact hk | apply keeps_i3cFlashRead | apply keepsOut_next | apply keepsOut_ite | assumption | exact id | rfl | intro _ | apply keeps_ite | apply keepsOut_next | apply keepsOut_ite) | split | (with_reducible apply Keeps.upd)))

theorem keeps_execI3cStatusRead (s : State) (hk : Keeps q0 s) :
    KeepsOut q0 (execI3cStatusRead s) := by
  unfold execI3cStatusRead
  try dsimp only
  iterate 48 (all_goals (try first | (with_reducible first | exact hk | apply keeps_emit | apply keepsOut_next | apply keepsOut_ite | assumption | exact id | rfl | intro _ | apply keeps_ite | apply keepsOut_next | apply keepsOut_ite) | split | (with_reducible apply Keeps.upd)))

theorem keeps_execI3cEntdaa (addr : Nat) (s : State) (hk : Keeps q0 s) :
    KeepsOut q0 (execI3cEntdaa addr s) := by
  unfold execI3cEntdaa
  try dsimp only
  iterate 48 (all_goals (try first | (with_reducible first | exact hk | apply keeps_emit | apply keepsOut_next | apply keepsOut_ite | assumption | exact id | rfl | intro _ | apply keeps_ite | apply keepsOut_next | apply keepsOut_ite) | split | (with_reducible apply Keeps.upd)))

theorem keeps_execI3cBusReset (rstdaa : Bool) (s : State) (hk : Keeps q0 s) :
    KeepsOut q0 (execI3cBusReset rstdaa s) := by
  unfold execI3cBusReset
  try dsimp only
  iterate 48 (all_goals (try first | (with_reducible first | exact hk | apply keeps_orphanAll | apply keepsOut_next | apply keepsOut_ite | assumption | exact id | rfl | intro _ | apply keeps_ite | apply keepsOut_next | apply keepsOut_ite) | split | (with_reducible apply Keeps.upd)))

theorem keeps_execJtagRegAccess (write : Bool) (addr size : Nat) (data : Word) (s : State) (hk : Keeps q0 s) :
    KeepsOut q0 (execJtagRegAccess write addr size data s) := by
  unfold execJtagRegAccess
  try dsimp only
  iterate 48 (all_goals (try first | (with_reducible first | exact hk | apply keeps_accessRead | apply keeps_accessWrite | apply keepsOut_next | apply keepsOut_ite | assumption | exact id | rfl | intro _ | apply keeps_ite | apply keepsOut_next | apply keepsOut_ite) | split | (with_reducible apply Keeps.upd)))

theorem keeps_execTapReset (s : State) (hk : Keeps q0 s) :
    KeepsOut q0 (execTapReset s) := by
  unfold execTapReset
  try dsimp only
  iterate 48 (all_goals (try first | (with_reducible first | exact hk | apply keeps_orphanAll | apply keepsOut_next | apply keepsOut_ite | assumption | exact id | rfl | intro _ | apply keeps_ite | apply keepsOut_next | apply keepsOut_ite) | split | (with_reducible apply Keeps.upd)))

theorem keeps_execExtest (lane : TapLane) (s : State) (hk : Keeps q0 s) :
    KeepsOut q0 (execExtest lane s) := by
  unfold execExtest
  try dsimp only
  iterate 48 (all_goals (try first | (with_reducible first | exact hk | apply keeps_hostLinkDown | apply keeps_linkExtest | apply keepsOut_next | apply keepsOut_ite | assumption | exact id | rfl | intro _ | apply keeps_ite | apply keepsOut_next | apply keepsOut_ite) | split | (with_reducible apply Keeps.upd)))

theorem keeps_boostsFollow (s : State) (d : Die) (hk : Keeps q0 s) :
    Keeps q0 (boostsFollow s d) := by
  unfold boostsFollow
  try dsimp only
  iterate 48 (all_goals (try first | (with_reducible first | exact hk | apply keeps_foldl | apply keeps_semBoost | apply keeps_foldl_fst | assumption | exact id | rfl | intro _ | apply keeps_ite) | split | (with_reducible apply Keeps.upd)))

theorem keeps_dieTick (s : State) (d : Die) (hk : Keeps q0 s) :
    Keeps q0 (dieTick s d) := by
  unfold dieTick
  try dsimp only
  iterate 48 (all_goals (try first | (with_reducible first | exact hk | apply keeps_ageQueues | apply keeps_boostsFollow | apply keeps_gatesFollow | apply keeps_pmcTick | assumption | exact id | rfl | intro _ | apply keeps_ite) | split | (with_reducible apply Keeps.upd)))

/-- 2 ns of the clock: only `now` moves besides. -/
theorem keeps_tick (s : State) : Keeps { s with now := s.now + 2 } (tick s) :=
  keeps_pwrTick _ _ (keeps_pwrTick _ _ (keeps_timeTick _ (keeps_dieTick _ _ (keeps_dieTick _ _ (Keeps.refl _)))))

end Sys2Proof.Laws
end

