-- ==== Sys2Proof/Laws/Ops.lean ====
section
/-! SUPPORT. Laws of the shared operations: a new operation, the mailbox's and a ring's path to a command's meaning. -/

namespace Sys2Proof.Machine

open Sys2Proof

/-- A new operation is read back. -/
theorem opOf_newOp (s : State) (x : Op) (h : x ≠ {}) : opOf (newOp s x).1 (newOp s x).2 = x := tget_tset_same _ _ _ h

/-- An operation in any phase but `done` is no unused number. -/
theorem op_ne_of_phase (x : Op) (h : x.phase ≠ .done) : x ≠ {} := fun e => h (by rw [e])

/-- The class of an opcode is its upper three bits (R35). -/
theorem classOf_eq (b : Block) : classOf b = fld b 0 0 8 / 32 := by
  unfold classOf fld bits
  generalize b.toNat = w
  norm_num
  omega

/-- With no activation due check 4 judges the state as it is. -/
theorem actsSettle_of (s : State) (h : settled s = true) : actsSettle (actsSettle s .west) .east = s := by
  simp only [settled, Bool.and_eq_true, Bool.not_eq_true'] at h
  simp only [actsSettle, h.1, h.2, Bool.false_eq_true, if_false]

/-- The mailbox's operation. -/
theorem mbxOffer_op (s : State) (b : Block) :
    opOf (mbxOffer s b).1 (mbxOffer s b).2 =
      { iss := .mailbox, die := portDie (mgmtFn s).port, level := 5, cookie := cookieOf b, seq := (s.mbx.lastSeq + 1) % 2 ^ 32 % 2 ^ 24, blk := b
        phase := .fence, since := s.now, dispatchedAt := s.now } := by
  exact tget_tset_same _ _ _ (op_ne_of_phase _ (by simp))

/-- A MGMT command in the mailbox runs and its answer becomes its record (R350). -/
theorem mbx_runs (s : State) (b : Block) (chain : List Block) (h : mbxReady s b = true) (hop : 0xE0 ≤ fld b 0 0 8) (hop' : fld b 0 0 8 < 256) :
    taxia s .mailbox b chain = settle (mbxOffer s b).1 (mbxOffer s b).2 (mgRun (mbxOffer s b).1 (mbxOffer s b).2 b []) := by
  simp only [mbxReady, Bool.and_eq_true, Bool.not_eq_true'] at h
  obtain ⟨⟨⟨⟨⟨⟨⟨⟨h1, h2⟩, h3⟩, h4⟩, h5⟩, h6⟩, h7⟩, h8⟩, h9⟩ := h
  have hs : settled (mbxOffer s b).1 = true := h8
  have hx := mbxOffer_op s b
  have hc : classOf b = 7 := by rw [classOf_eq]; omega
  have hf : ∀ m, forensic { s with mbx := m } = false := fun _ => h3
  have ha : mbxAccepts { s with mbx := { s.mbx with block := b } } ((s.mbx.lastSeq + 1) % 2 ^ 32) = true := by simp [mbxAccepts, h2]
  have hr : taxia s .mailbox b chain = opStart (mbxOffer s b).1 (mbxOffer s b).2 := by
    unfold taxia taxiaMailbox mbxGo
    simp only [h1, ha, if_true, mbxRun, hf, Bool.false_and, Bool.false_eq_true, if_false]
    rfl
  rw [hr]
  simp only [opStart, hx, h5, Bool.false_eq_true, if_false, opChecked, actsSettle_of _ hs, hc, if_true, mgmtChecked, plainOp, h4, h7, Bool.not_true,
    Bool.false_and, opRun, mgmtGo]
  rw [of_decide_eq_true h9]
  cases mgRun (mbxOffer s b).1 (mbxOffer s b).2 b [] <;> rfl

/-- A MGMT command in the mailbox whose operation answers CC_OK. -/
theorem mbx_ok (s : State) (b : Block) (chain : List Block) (op : Nat) (t : State) (r : Nat) (hb : fld b 0 0 8 = op) (h1 : 0xE0 ≤ op) (h2 : op < 256)
    (h : mbxReady s b = true) (hm : mgRun (mbxOffer s b).1 (mbxOffer s b).2 b [] = .ok t r) :
    taxia s .mailbox b chain = completeOp t (mbxOffer s b).2 { code := 0, result := r } := by
  rw [mbx_runs s b chain h (by omega) (by omega), hm, settle]

/-- A MGMT command in the mailbox whose record comes later. -/
theorem mbx_hold (s : State) (b : Block) (chain : List Block) (op : Nat) (t : State) (hb : fld b 0 0 8 = op) (h1 : 0xE0 ≤ op) (h2 : op < 256)
    (h : mbxReady s b = true) (hm : mgRun (mbxOffer s b).1 (mbxOffer s b).2 b [] = .hold t) :
    taxia s .mailbox b chain = t := by
  rw [mbx_runs s b chain h (by omega) (by omega), hm, settle]

/-- A ready MGMT command's TARGET is in form. -/
theorem mbxReady_target (s : State) (b : Block) (h : mbxReady s b = true) : targetOk b = true := by
  simp only [mbxReady, Bool.and_eq_true] at h; exact h.1.1.1.2

/-- A ready MGMT command has no chain. -/
theorem mbxReady_chain (s : State) (b : Block) (h : mbxReady s b = true) : chainBit b = false := by
  simp only [mbxReady, Bool.and_eq_true, Bool.not_eq_true'] at h; exact h.1.1.1.1.2

/-- A ring's offered command starts. -/
theorem ring_runs (s : State) (d : Die) (n : Nat) (b : Block) (chain : List Block) (p : State × Nat) (h : ringOffer s d n b chain = some p) :
    taxia s (.ring d n) b chain = opStart p.1 p.2 := by
  unfold ringOffer at h
  simp only at h
  split at h
  · next e he =>
    split at h
    · next hc =>
      simp only [Bool.and_eq_true, Bool.not_eq_true', decide_eq_true_eq] at hc
      obtain ⟨⟨⟨⟨⟨h1, h2⟩, h3⟩, h4⟩, h5⟩, h6⟩ := hc
      cases h
      simp only [taxia, taxiaRing, h1, h2, h3, h4, Bool.not_true, Bool.or_false, Bool.and_true, Bool.false_eq_true, if_false, if_true, dispatchRing, he]
      rw [if_neg]
      rintro ⟨ha, hb⟩
      simp [ha, hb] at h6
    · cases h
  · cases h

/-- The operation of a ring's offered command. -/
theorem ringOffer_op (s : State) (d : Die) (n : Nat) (b : Block) (chain : List Block) (p : State × Nat) (h : ringOffer s d n b chain = some p) :
    ∃ e, e.blk = entryBlk (cmdRing s d n) b ∧ opOf p.1 p.2 = entryOp (entryComes s d n b) d n e chain := by
  unfold ringOffer at h
  simp only at h
  split at h
  · next e he =>
    split at h
    · next hc =>
      simp only [Bool.and_eq_true, decide_eq_true_eq] at hc
      cases h
      refine ⟨e, hc.1.2, ?_⟩
      have : opOf (takeEntry (entryComes s d n b) d n e [] chain).1 (takeEntry (entryComes s d n b) d n e [] chain).2
          = opOf (newOp (entryComes s d n b) (entryOp (entryComes s d n b) d n e chain)).1 (newOp (entryComes s d n b) (entryOp (entryComes s d n b) d n e chain)).2 := by
        cases d <;> rfl
      rw [this, opOf_newOp]
      exact op_ne_of_phase _ (by simp [entryOp])
    · cases h
  · cases h

/-- An operation of a ring that passes its checks executes, but for TRIG_ARM, whose checks begin again on its deferred block. -/
theorem passes_runs (s : State) (o : Nat) (d : Die) (n : Nat) (hi : (opOf s o).iss = .ring d n) (hd : (opOf s o).deferred = false)
    (hop : fld (opOf s o).blk 0 0 8 < 0x80) (h : passes s o = true) : opStart s o = execute (passed4 s o) o := by
  simp only [passes, Bool.and_eq_true, decide_eq_true_eq] at h
  obtain ⟨⟨⟨h1, h2, h3⟩, h4⟩, h5⟩ := h
  have ha : armsDeferred (opOf s o) = false := by
    have : fld (opOf s o).blk 0 0 8 ≠ 128 := by omega
    simp [armsDeferred, this]
  have hc : ¬ classOf (opOf s o).blk = 7 := by rw [classOf_eq]; omega
  have hp : plainOp (opOf s o) = false := by simp [plainOp, hi, hd]
  simp [opStart, hi, ha, chainStep, h1, opChecked, actsSettle_of _ h5, hc, hp, h2, opRun, h4, h3]

end Sys2Proof.Machine
end

