-- ==== Sys2Proof/Laws/Mgmt.lean ====
section
/-! SUPPORT. The MGMT operation that each opcode runs (R36). -/

namespace Sys2Proof.Machine

open Sys2Proof

/-! What a MGMT operation observes is the same after its command has been taken. -/

@[simp] theorem identityFree_mbxOffer (s : State) (b : Block) : identityFree (mbxOffer s b).1 = identityFree s := rfl
@[simp] theorem portCtlForm_mbxOffer (s : State) (b : Block) (b' : Block) : portCtlForm (mbxOffer s b).1 b' = portCtlForm s b' := rfl
@[simp] theorem link_mbxOffer (s : State) (b : Block) (d : Die) (k : Nat) : link (mbxOffer s b).1 d k = link s d k := rfl
@[simp] theorem dom_mbxOffer (s : State) (b : Block) (d : Die) (n : Nat) : dom (mbxOffer s b).1 d n = dom s d n := rfl
@[simp] theorem gateOf_mbxOffer (s : State) (b : Block) (d : Die) (k : Nat) : gateOf (mbxOffer s b).1 d k = gateOf s d k := rfl
@[simp] theorem inst_mbxOffer (s : State) (b : Block) (i : Nat) : inst (mbxOffer s b).1 i = inst s i := rfl
@[simp] theorem instDie_mbxOffer (s : State) (b : Block) (i : Nat) : instDie (mbxOffer s b).1 i = instDie s i := rfl
@[simp] theorem fnOf_mbxOffer (s : State) (b : Block) (f : FnId) : fnOf (mbxOffer s b).1 f = fnOf s f := rfl
@[simp] theorem mgmtFn_mbxOffer (s : State) (b : Block) : mgmtFn (mbxOffer s b).1 = mgmtFn s := rfl
@[simp] theorem fnExists_mbxOffer (s : State) (b : Block) (f : FnId) : fnExists (mbxOffer s b).1 f = fnExists s f := rfl
@[simp] theorem conn_mbxOffer (s : State) (b : Block) (d : Die) (c : Nat) : conn (mbxOffer s b).1 d c = conn s d c := rfl
@[simp] theorem quotaSum_mbxOffer (s : State) (b : Block) (d : Die) (i : Nat) (f : Inst → Nat) : quotaSum (mbxOffer s b).1 d i f = quotaSum s d i f := rfl
@[simp] theorem regVal_mbxOffer (s : State) (b : Block) (d : Die) (o : Nat) : regVal (mbxOffer s b).1 d o = regVal s d o := rfl
@[simp] theorem die_mbxOffer (s : State) (b : Block) (d : Die) : die (mbxOffer s b).1 d = die s d := rfl
@[simp] theorem unitOf_mbxOffer (s : State) (b : Block) (d : Die) (u : Nat) (k : Nat) : unitOf (mbxOffer s b).1 d u k = unitOf s d u k := rfl
@[simp] theorem bankIdle_mbxOffer (s : State) (b : Block) (d : Die) (k : Nat) : bankIdle (mbxOffer s b).1 d k = bankIdle s d k := rfl
@[simp] theorem pendingAny_mbxOffer (s : State) (b : Block) : pendingAny (mbxOffer s b).1 = pendingAny s := rfl
@[simp] theorem anyGrandmaster_mbxOffer (s : State) (b : Block) : anyGrandmaster (mbxOffer s b).1 = anyGrandmaster s := rfl
@[simp] theorem ppsPresent_mbxOffer (s : State) (b : Block) : ppsPresent (mbxOffer s b).1 = ppsPresent s := rfl
@[simp] theorem cmdRing_mbxOffer (s : State) (b : Block) (d : Die) (n : Nat) : cmdRing (mbxOffer s b).1 d n = cmdRing s d n := rfl
@[simp] theorem cqRing_mbxOffer (s : State) (b : Block) (d : Die) (m : Nat) : cqRing (mbxOffer s b).1 d m = cqRing s d m := rfl
@[simp] theorem instHere_mbxOffer (s : State) (b : Block) (d : Die) (i : Nat) : instHere (mbxOffer s b).1 d i = instHere s d i := rfl
@[simp] theorem cmdTaken_mbxOffer (s : State) (b : Block) (d : Die) (i : Nat) (r : Nat) : cmdTaken (mbxOffer s b).1 d i r = cmdTaken s d i r := rfl
@[simp] theorem cqTaken_mbxOffer (s : State) (b : Block) (d : Die) (i : Nat) (r : Nat) : cqTaken (mbxOffer s b).1 d i r = cqTaken s d i r := rfl
@[simp] theorem routingJoint_mbxOffer (s : State) (b : Block) (d : Die) (l : List CfgRec) : routingJoint (mbxOffer s b).1 d l = routingJoint s d l := rfl
@[simp] theorem domContent_mbxOffer (s : State) (b : Block) (d : Die) (n : Nat) : domContent (mbxOffer s b).1 d n = domContent s d n := rfl
@[simp] theorem activateRefusal_mbxOffer (s : State) (b : Block) (d : Die) (n : Nat) (b' : Block) : activateRefusal (mbxOffer s b).1 d n b' = activateRefusal s d n b' := rfl
@[simp] theorem bankWhole_mbxOffer (s : State) (b : Block) (d : Die) (n : Nat) (l : List CfgRec) : bankWhole (mbxOffer s b).1 d n l = bankWhole s d n l := rfl
@[simp] theorem actTimeSub_mbxOffer (s : State) (b : Block) (t : Nat) : actTimeSub (mbxOffer s b).1 t = actTimeSub s t := rfl
@[simp] theorem instCtlForm_mbxOffer (s : State) (b : Block) (b' : Block) : instCtlForm (mbxOffer s b).1 b' = instCtlForm s b' := rfl
@[simp] theorem stagedDigest_mbxOffer (s : State) (b : Block) (d : Die) (n : Nat) : stagedDigest (mbxOffer s b).1 d n = stagedDigest s d n := rfl
@[simp] theorem activeDigest_mbxOffer (s : State) (b : Block) (d : Die) (n : Nat) : activeDigest (mbxOffer s b).1 d n = activeDigest s d n := rfl
@[simp] theorem mismatched_mbxOffer (s : State) (b : Block) (d : Die) (n : Nat) : mismatched (mbxOffer s b).1 d n = mismatched s d n := rfl
@[simp] theorem nextSecond_mbxOffer (s : State) (b : Block) : nextSecond (mbxOffer s b).1 = nextSecond s := rfl
@[simp] theorem linkExists_mbxOffer (s : State) (b : Block) (p : Nat) (l : Nat) : linkExists (mbxOffer s b).1 p l = linkExists s p l := rfl
@[simp] theorem parseStream_mbxOffer (s : State) (b : Block) (d : Die) (n : Nat) (r : Bool) (k : Nat) (l : List Byte) :
    parseStream (mbxOffer s b).1 d n r k l = parseStream s d n r k l := by
  induction k generalizing l with
  | zero => cases l <;> rfl
  | succ k ih =>
    cases l with
    | nil => rfl
    | cons x t => simp only [parseStream, ih]; rfl
@[simp] theorem mbxOffer_now (s : State) (b : Block) : (mbxOffer s b).1.now = s.now := rfl
@[simp] theorem mbxOffer_sys (s : State) (b : Block) : (mbxOffer s b).1.sys = s.sys := rfl
@[simp] theorem mbxOffer_time (s : State) (b : Block) : (mbxOffer s b).1.time = s.time := rfl
@[simp] theorem mbxOffer_insts (s : State) (b : Block) : (mbxOffer s b).1.insts = s.insts := rfl
@[simp] theorem mbxOffer_arch (s : State) (b : Block) : (mbxOffer s b).1.arch = s.arch := rfl
@[simp] theorem mbxOffer_ident (s : State) (b : Block) : (mbxOffer s b).1.ident = s.ident := rfl
@[simp] theorem mbxOffer_west (s : State) (b : Block) : (mbxOffer s b).1.west = s.west := rfl
@[simp] theorem mbxOffer_east (s : State) (b : Block) : (mbxOffer s b).1.east = s.east := rfl
@[simp] theorem mbxOffer_fns (s : State) (b : Block) : (mbxOffer s b).1.fns = s.fns := rfl
@[simp] theorem mbxOffer_regs (s : State) (b : Block) : (mbxOffer s b).1.regs = s.regs := rfl

theorem mgRun_E0 (s : State) (o : Nat) (b : Block) (c : List Block) (h : fld b 0 0 8 = 0xE0) (ht : targetOk b = true) :
    mgRun s o b c = mgIdentitySet s b := by
  simp only [mgRun, h, ht, Bool.not_true, Bool.false_eq_true, if_false]

theorem mgRun_E1 (s : State) (o : Nat) (b : Block) (c : List Block) (h : fld b 0 0 8 = 0xE1) (ht : targetOk b = true) :
    mgRun s o b c = mgPortCtl s b := by
  simp only [mgRun, h, ht, Bool.not_true, Bool.false_eq_true, if_false]

theorem mgRun_E2 (s : State) (o : Nat) (b : Block) (c : List Block) (h : fld b 0 0 8 = 0xE2) (ht : targetOk b = true) :
    mgRun s o b c = mgEpochWrite s b c := by
  simp only [mgRun, h, ht, Bool.not_true, Bool.false_eq_true, if_false]

theorem mgRun_E3 (s : State) (o : Nat) (b : Block) (c : List Block) (h : fld b 0 0 8 = 0xE3) (ht : targetOk b = true) :
    mgRun s o b c = mgEpochActivate s b := by
  simp only [mgRun, h, ht, Bool.not_true, Bool.false_eq_true, if_false]

theorem mgRun_E4 (s : State) (o : Nat) (b : Block) (c : List Block) (h : fld b 0 0 8 = 0xE4) (ht : targetOk b = true) :
    mgRun s o b c = mgGateStage s b c := by
  simp only [mgRun, h, ht, Bool.not_true, Bool.false_eq_true, if_false]

theorem mgRun_E5 (s : State) (o : Nat) (b : Block) (c : List Block) (h : fld b 0 0 8 = 0xE5) (ht : targetOk b = true) :
    mgRun s o b c = mgGateActivate s b := by
  simp only [mgRun, h, ht, Bool.not_true, Bool.false_eq_true, if_false]

theorem mgRun_E6 (s : State) (o : Nat) (b : Block) (c : List Block) (h : fld b 0 0 8 = 0xE6) (ht : targetOk b = true) :
    mgRun s o b c = mgInstanceCtl s o b := by
  simp only [mgRun, h, ht, Bool.not_true, Bool.false_eq_true, if_false]

theorem mgRun_E7 (s : State) (o : Nat) (b : Block) (c : List Block) (h : fld b 0 0 8 = 0xE7) (ht : targetOk b = true) :
    mgRun s o b c = mgGrant s o b := by
  simp only [mgRun, h, ht, Bool.not_true, Bool.false_eq_true, if_false]

theorem mgRun_E8 (s : State) (o : Nat) (b : Block) (c : List Block) (h : fld b 0 0 8 = 0xE8) (ht : targetOk b = true) :
    mgRun s o b c = mgModeSet s o b := by
  simp only [mgRun, h, ht, Bool.not_true, Bool.false_eq_true, if_false]

theorem mgRun_E9 (s : State) (o : Nat) (b : Block) (c : List Block) (h : fld b 0 0 8 = 0xE9) (ht : targetOk b = true) :
    mgRun s o b c = mgRegRead s o b := by
  simp only [mgRun, h, ht, Bool.not_true, Bool.false_eq_true, if_false]

theorem mgRun_EA (s : State) (o : Nat) (b : Block) (c : List Block) (h : fld b 0 0 8 = 0xEA) (ht : targetOk b = true) :
    mgRun s o b c = mgRegWrite s o b := by
  simp only [mgRun, h, ht, Bool.not_true, Bool.false_eq_true, if_false]

theorem mgRun_EB (s : State) (o : Nat) (b : Block) (c : List Block) (h : fld b 0 0 8 = 0xEB) (ht : targetOk b = true) :
    mgRun s o b c = mgCruise s b := by
  simp only [mgRun, h, ht, Bool.not_true, Bool.false_eq_true, if_false]

theorem mgRun_EC (s : State) (o : Nat) (b : Block) (c : List Block) (h : fld b 0 0 8 = 0xEC) (ht : targetOk b = true) :
    mgRun s o b c = mgShelfCollect s b := by
  simp only [mgRun, h, ht, Bool.not_true, Bool.false_eq_true, if_false]

theorem mgRun_ED (s : State) (o : Nat) (b : Block) (c : List Block) (h : fld b 0 0 8 = 0xED) (ht : targetOk b = true) :
    mgRun s o b c = mgFaultRelease s b := by
  simp only [mgRun, h, ht, Bool.not_true, Bool.false_eq_true, if_false]

theorem mgRun_EE (s : State) (o : Nat) (b : Block) (c : List Block) (h : fld b 0 0 8 = 0xEE) (ht : targetOk b = true) :
    mgRun s o b c = mgSemBankReset s b := by
  simp only [mgRun, h, ht, Bool.not_true, Bool.false_eq_true, if_false]

theorem mgRun_EF (s : State) (o : Nat) (b : Block) (c : List Block) (h : fld b 0 0 8 = 0xEF) (ht : targetOk b = true) :
    mgRun s o b c = mgTimeCtl s b := by
  simp only [mgRun, h, ht, Bool.not_true, Bool.false_eq_true, if_false]

theorem mgRun_F0 (s : State) (o : Nat) (b : Block) (c : List Block) (h : fld b 0 0 8 = 0xF0) (ht : targetOk b = true) :
    mgRun s o b c = mgArchiveCtl s o b := by
  simp only [mgRun, h, ht, Bool.not_true, Bool.false_eq_true, if_false]

theorem mgRun_F1 (s : State) (o : Nat) (b : Block) (c : List Block) (h : fld b 0 0 8 = 0xF1) (ht : targetOk b = true) :
    mgRun s o b c = mgRingCtl s o b := by
  simp only [mgRun, h, ht, Bool.not_true, Bool.false_eq_true, if_false]

end Sys2Proof.Machine
end

