-- ==== Sys2Proof/Laws/State.lean ====
section
/-! SUPPORT. What each named update leaves as it was: one lemma per field and update, so that no proof unfolds a record update. -/

namespace Sys2Proof.Machine

open Sys2Proof

/-! ### A register write -/

@[simp] theorem setReg_pending (s : State) (d : Die) (off v : Nat) : (setReg s d off v).pending = s.pending := rfl
@[simp] theorem setReg_now (s : State) (d : Die) (off v : Nat) : (setReg s d off v).now = s.now := rfl
@[simp] theorem setReg_freeCtr (s : State) (d : Die) (off v : Nat) : (setReg s d off v).freeCtr = s.freeCtr := rfl
@[simp] theorem setReg_keyCtr (s : State) (d : Die) (off v : Nat) : (setReg s d off v).keyCtr = s.keyCtr := rfl
@[simp] theorem setReg_reads (s : State) (d : Die) (off v : Nat) : (setReg s d off v).reads = s.reads := rfl
@[simp] theorem setReg_nextRead (s : State) (d : Die) (off v : Nat) : (setReg s d off v).nextRead = s.nextRead := rfl
@[simp] theorem setReg_tagWait (s : State) (d : Die) (off v : Nat) : (setReg s d off v).tagWait = s.tagWait := rfl
@[simp] theorem setReg_atsInvs (s : State) (d : Die) (off v : Nat) : (setReg s d off v).atsInvs = s.atsInvs := rfl
@[simp] theorem setReg_out (s : State) (d : Die) (off v : Nat) : (setReg s d off v).out = s.out := rfl
@[simp] theorem setReg_west (s : State) (d : Die) (off v : Nat) : (setReg s d off v).west = s.west := rfl
@[simp] theorem setReg_east (s : State) (d : Die) (off v : Nat) : (setReg s d off v).east = s.east := rfl
@[simp] theorem setReg_ident (s : State) (d : Die) (off v : Nat) : (setReg s d off v).ident = s.ident := rfl
@[simp] theorem setReg_sys (s : State) (d : Die) (off v : Nat) : (setReg s d off v).sys = s.sys := rfl
@[simp] theorem setReg_time (s : State) (d : Die) (off v : Nat) : (setReg s d off v).time = s.time := rfl
@[simp] theorem setReg_mbx (s : State) (d : Die) (off v : Nat) : (setReg s d off v).mbx = s.mbx := rfl
@[simp] theorem setReg_arch (s : State) (d : Die) (off v : Nat) : (setReg s d off v).arch = s.arch := rfl
@[simp] theorem setReg_i3c (s : State) (d : Die) (off v : Nat) : (setReg s d off v).i3c = s.i3c := rfl
@[simp] theorem setReg_flash (s : State) (d : Die) (off v : Nat) : (setReg s d off v).flash = s.flash := rfl
@[simp] theorem setReg_latches (s : State) (d : Die) (off v : Nat) : (setReg s d off v).latches = s.latches := rfl
@[simp] theorem setReg_holds (s : State) (d : Die) (off v : Nat) : (setReg s d off v).holds = s.holds := rfl
@[simp] theorem setReg_views (s : State) (d : Die) (off v : Nat) : (setReg s d off v).views = s.views := rfl
@[simp] theorem setReg_insts (s : State) (d : Die) (off v : Nat) : (setReg s d off v).insts = s.insts := rfl
@[simp] theorem setReg_fns (s : State) (d : Die) (off v : Nat) : (setReg s d off v).fns = s.fns := rfl
@[simp] theorem setReg_ops (s : State) (d : Die) (off v : Nat) : (setReg s d off v).ops = s.ops := rfl
@[simp] theorem setReg_nextOp (s : State) (d : Die) (off v : Nat) : (setReg s d off v).nextOp = s.nextOp := rfl
@[simp] theorem die_setReg (s : State) (d : Die) (off v : Nat) (e : Die) : die (setReg s d off v) e = die s e := by cases e <;> rfl
@[simp] theorem inst_setReg (s : State) (d : Die) (off v : Nat) (j : Nat) : inst (setReg s d off v) j = inst s j := rfl
@[simp] theorem opOf_setReg (s : State) (d : Die) (off v : Nat) (j : Nat) : opOf (setReg s d off v) j = opOf s j := rfl
@[simp] theorem fnOf_setReg (s : State) (d : Die) (off v : Nat) (j : FnId) : fnOf (setReg s d off v) j = fnOf s j := rfl

/-! ### A change of an instance -/

@[simp] theorem modInst_pending (s : State) (i : Nat) (f : Inst → Inst) : (modInst s i f).pending = s.pending := rfl
@[simp] theorem modInst_now (s : State) (i : Nat) (f : Inst → Inst) : (modInst s i f).now = s.now := rfl
@[simp] theorem modInst_freeCtr (s : State) (i : Nat) (f : Inst → Inst) : (modInst s i f).freeCtr = s.freeCtr := rfl
@[simp] theorem modInst_keyCtr (s : State) (i : Nat) (f : Inst → Inst) : (modInst s i f).keyCtr = s.keyCtr := rfl
@[simp] theorem modInst_reads (s : State) (i : Nat) (f : Inst → Inst) : (modInst s i f).reads = s.reads := rfl
@[simp] theorem modInst_nextRead (s : State) (i : Nat) (f : Inst → Inst) : (modInst s i f).nextRead = s.nextRead := rfl
@[simp] theorem modInst_tagWait (s : State) (i : Nat) (f : Inst → Inst) : (modInst s i f).tagWait = s.tagWait := rfl
@[simp] theorem modInst_atsInvs (s : State) (i : Nat) (f : Inst → Inst) : (modInst s i f).atsInvs = s.atsInvs := rfl
@[simp] theorem modInst_out (s : State) (i : Nat) (f : Inst → Inst) : (modInst s i f).out = s.out := rfl
@[simp] theorem modInst_west (s : State) (i : Nat) (f : Inst → Inst) : (modInst s i f).west = s.west := rfl
@[simp] theorem modInst_east (s : State) (i : Nat) (f : Inst → Inst) : (modInst s i f).east = s.east := rfl
@[simp] theorem modInst_ident (s : State) (i : Nat) (f : Inst → Inst) : (modInst s i f).ident = s.ident := rfl
@[simp] theorem modInst_sys (s : State) (i : Nat) (f : Inst → Inst) : (modInst s i f).sys = s.sys := rfl
@[simp] theorem modInst_time (s : State) (i : Nat) (f : Inst → Inst) : (modInst s i f).time = s.time := rfl
@[simp] theorem modInst_mbx (s : State) (i : Nat) (f : Inst → Inst) : (modInst s i f).mbx = s.mbx := rfl
@[simp] theorem modInst_arch (s : State) (i : Nat) (f : Inst → Inst) : (modInst s i f).arch = s.arch := rfl
@[simp] theorem modInst_i3c (s : State) (i : Nat) (f : Inst → Inst) : (modInst s i f).i3c = s.i3c := rfl
@[simp] theorem modInst_flash (s : State) (i : Nat) (f : Inst → Inst) : (modInst s i f).flash = s.flash := rfl
@[simp] theorem modInst_regs (s : State) (i : Nat) (f : Inst → Inst) : (modInst s i f).regs = s.regs := rfl
@[simp] theorem modInst_latches (s : State) (i : Nat) (f : Inst → Inst) : (modInst s i f).latches = s.latches := rfl
@[simp] theorem modInst_holds (s : State) (i : Nat) (f : Inst → Inst) : (modInst s i f).holds = s.holds := rfl
@[simp] theorem modInst_views (s : State) (i : Nat) (f : Inst → Inst) : (modInst s i f).views = s.views := rfl
@[simp] theorem modInst_fns (s : State) (i : Nat) (f : Inst → Inst) : (modInst s i f).fns = s.fns := rfl
@[simp] theorem modInst_ops (s : State) (i : Nat) (f : Inst → Inst) : (modInst s i f).ops = s.ops := rfl
@[simp] theorem modInst_nextOp (s : State) (i : Nat) (f : Inst → Inst) : (modInst s i f).nextOp = s.nextOp := rfl
@[simp] theorem die_modInst (s : State) (i : Nat) (f : Inst → Inst) (e : Die) : die (modInst s i f) e = die s e := by cases e <;> rfl
@[simp] theorem opOf_modInst (s : State) (i : Nat) (f : Inst → Inst) (j : Nat) : opOf (modInst s i f) j = opOf s j := rfl
@[simp] theorem fnOf_modInst (s : State) (i : Nat) (f : Inst → Inst) (j : FnId) : fnOf (modInst s i f) j = fnOf s j := rfl
@[simp] theorem regVal_modInst (s : State) (i : Nat) (f : Inst → Inst) (e : Die) (k : Nat) : regVal (modInst s i f) e k = regVal s e k := rfl

/-! ### A change of a function -/

@[simp] theorem modFn_pending (s : State) (f : FnId) (g : Fn → Fn) : (modFn s f g).pending = s.pending := rfl
@[simp] theorem modFn_now (s : State) (f : FnId) (g : Fn → Fn) : (modFn s f g).now = s.now := rfl
@[simp] theorem modFn_freeCtr (s : State) (f : FnId) (g : Fn → Fn) : (modFn s f g).freeCtr = s.freeCtr := rfl
@[simp] theorem modFn_keyCtr (s : State) (f : FnId) (g : Fn → Fn) : (modFn s f g).keyCtr = s.keyCtr := rfl
@[simp] theorem modFn_reads (s : State) (f : FnId) (g : Fn → Fn) : (modFn s f g).reads = s.reads := rfl
@[simp] theorem modFn_nextRead (s : State) (f : FnId) (g : Fn → Fn) : (modFn s f g).nextRead = s.nextRead := rfl
@[simp] theorem modFn_tagWait (s : State) (f : FnId) (g : Fn → Fn) : (modFn s f g).tagWait = s.tagWait := rfl
@[simp] theorem modFn_atsInvs (s : State) (f : FnId) (g : Fn → Fn) : (modFn s f g).atsInvs = s.atsInvs := rfl
@[simp] theorem modFn_out (s : State) (f : FnId) (g : Fn → Fn) : (modFn s f g).out = s.out := rfl
@[simp] theorem modFn_west (s : State) (f : FnId) (g : Fn → Fn) : (modFn s f g).west = s.west := rfl
@[simp] theorem modFn_east (s : State) (f : FnId) (g : Fn → Fn) : (modFn s f g).east = s.east := rfl
@[simp] theorem modFn_ident (s : State) (f : FnId) (g : Fn → Fn) : (modFn s f g).ident = s.ident := rfl
@[simp] theorem modFn_sys (s : State) (f : FnId) (g : Fn → Fn) : (modFn s f g).sys = s.sys := rfl
@[simp] theorem modFn_time (s : State) (f : FnId) (g : Fn → Fn) : (modFn s f g).time = s.time := rfl
@[simp] theorem modFn_mbx (s : State) (f : FnId) (g : Fn → Fn) : (modFn s f g).mbx = s.mbx := rfl
@[simp] theorem modFn_arch (s : State) (f : FnId) (g : Fn → Fn) : (modFn s f g).arch = s.arch := rfl
@[simp] theorem modFn_i3c (s : State) (f : FnId) (g : Fn → Fn) : (modFn s f g).i3c = s.i3c := rfl
@[simp] theorem modFn_flash (s : State) (f : FnId) (g : Fn → Fn) : (modFn s f g).flash = s.flash := rfl
@[simp] theorem modFn_regs (s : State) (f : FnId) (g : Fn → Fn) : (modFn s f g).regs = s.regs := rfl
@[simp] theorem modFn_latches (s : State) (f : FnId) (g : Fn → Fn) : (modFn s f g).latches = s.latches := rfl
@[simp] theorem modFn_holds (s : State) (f : FnId) (g : Fn → Fn) : (modFn s f g).holds = s.holds := rfl
@[simp] theorem modFn_views (s : State) (f : FnId) (g : Fn → Fn) : (modFn s f g).views = s.views := rfl
@[simp] theorem modFn_insts (s : State) (f : FnId) (g : Fn → Fn) : (modFn s f g).insts = s.insts := rfl
@[simp] theorem modFn_ops (s : State) (f : FnId) (g : Fn → Fn) : (modFn s f g).ops = s.ops := rfl
@[simp] theorem modFn_nextOp (s : State) (f : FnId) (g : Fn → Fn) : (modFn s f g).nextOp = s.nextOp := rfl
@[simp] theorem die_modFn (s : State) (f : FnId) (g : Fn → Fn) (e : Die) : die (modFn s f g) e = die s e := by cases e <;> rfl
@[simp] theorem inst_modFn (s : State) (f : FnId) (g : Fn → Fn) (j : Nat) : inst (modFn s f g) j = inst s j := rfl
@[simp] theorem opOf_modFn (s : State) (f : FnId) (g : Fn → Fn) (j : Nat) : opOf (modFn s f g) j = opOf s j := rfl
@[simp] theorem regVal_modFn (s : State) (f : FnId) (g : Fn → Fn) (e : Die) (k : Nat) : regVal (modFn s f g) e k = regVal s e k := rfl

/-! ### A change of an operation -/

@[simp] theorem modOp_pending (s : State) (o : Nat) (f : Op → Op) : (modOp s o f).pending = s.pending := rfl
@[simp] theorem modOp_now (s : State) (o : Nat) (f : Op → Op) : (modOp s o f).now = s.now := rfl
@[simp] theorem modOp_freeCtr (s : State) (o : Nat) (f : Op → Op) : (modOp s o f).freeCtr = s.freeCtr := rfl
@[simp] theorem modOp_keyCtr (s : State) (o : Nat) (f : Op → Op) : (modOp s o f).keyCtr = s.keyCtr := rfl
@[simp] theorem modOp_reads (s : State) (o : Nat) (f : Op → Op) : (modOp s o f).reads = s.reads := rfl
@[simp] theorem modOp_nextRead (s : State) (o : Nat) (f : Op → Op) : (modOp s o f).nextRead = s.nextRead := rfl
@[simp] theorem modOp_tagWait (s : State) (o : Nat) (f : Op → Op) : (modOp s o f).tagWait = s.tagWait := rfl
@[simp] theorem modOp_atsInvs (s : State) (o : Nat) (f : Op → Op) : (modOp s o f).atsInvs = s.atsInvs := rfl
@[simp] theorem modOp_out (s : State) (o : Nat) (f : Op → Op) : (modOp s o f).out = s.out := rfl
@[simp] theorem modOp_west (s : State) (o : Nat) (f : Op → Op) : (modOp s o f).west = s.west := rfl
@[simp] theorem modOp_east (s : State) (o : Nat) (f : Op → Op) : (modOp s o f).east = s.east := rfl
@[simp] theorem modOp_ident (s : State) (o : Nat) (f : Op → Op) : (modOp s o f).ident = s.ident := rfl
@[simp] theorem modOp_sys (s : State) (o : Nat) (f : Op → Op) : (modOp s o f).sys = s.sys := rfl
@[simp] theorem modOp_time (s : State) (o : Nat) (f : Op → Op) : (modOp s o f).time = s.time := rfl
@[simp] theorem modOp_mbx (s : State) (o : Nat) (f : Op → Op) : (modOp s o f).mbx = s.mbx := rfl
@[simp] theorem modOp_arch (s : State) (o : Nat) (f : Op → Op) : (modOp s o f).arch = s.arch := rfl
@[simp] theorem modOp_i3c (s : State) (o : Nat) (f : Op → Op) : (modOp s o f).i3c = s.i3c := rfl
@[simp] theorem modOp_flash (s : State) (o : Nat) (f : Op → Op) : (modOp s o f).flash = s.flash := rfl
@[simp] theorem modOp_regs (s : State) (o : Nat) (f : Op → Op) : (modOp s o f).regs = s.regs := rfl
@[simp] theorem modOp_latches (s : State) (o : Nat) (f : Op → Op) : (modOp s o f).latches = s.latches := rfl
@[simp] theorem modOp_holds (s : State) (o : Nat) (f : Op → Op) : (modOp s o f).holds = s.holds := rfl
@[simp] theorem modOp_views (s : State) (o : Nat) (f : Op → Op) : (modOp s o f).views = s.views := rfl
@[simp] theorem modOp_insts (s : State) (o : Nat) (f : Op → Op) : (modOp s o f).insts = s.insts := rfl
@[simp] theorem modOp_fns (s : State) (o : Nat) (f : Op → Op) : (modOp s o f).fns = s.fns := rfl
@[simp] theorem modOp_nextOp (s : State) (o : Nat) (f : Op → Op) : (modOp s o f).nextOp = s.nextOp := rfl
@[simp] theorem die_modOp (s : State) (o : Nat) (f : Op → Op) (e : Die) : die (modOp s o f) e = die s e := by cases e <;> rfl
@[simp] theorem inst_modOp (s : State) (o : Nat) (f : Op → Op) (j : Nat) : inst (modOp s o f) j = inst s j := rfl
@[simp] theorem fnOf_modOp (s : State) (o : Nat) (f : Op → Op) (j : FnId) : fnOf (modOp s o f) j = fnOf s j := rfl
@[simp] theorem regVal_modOp (s : State) (o : Nat) (f : Op → Op) (e : Die) (k : Nat) : regVal (modOp s o f) e k = regVal s e k := rfl

/-! ### The end of an operation -/

@[simp] theorem delOp_pending (s : State) (o : Nat) : (delOp s o).pending = s.pending := rfl
@[simp] theorem delOp_now (s : State) (o : Nat) : (delOp s o).now = s.now := rfl
@[simp] theorem delOp_freeCtr (s : State) (o : Nat) : (delOp s o).freeCtr = s.freeCtr := rfl
@[simp] theorem delOp_keyCtr (s : State) (o : Nat) : (delOp s o).keyCtr = s.keyCtr := rfl
@[simp] theorem delOp_reads (s : State) (o : Nat) : (delOp s o).reads = s.reads := rfl
@[simp] theorem delOp_nextRead (s : State) (o : Nat) : (delOp s o).nextRead = s.nextRead := rfl
@[simp] theorem delOp_tagWait (s : State) (o : Nat) : (delOp s o).tagWait = s.tagWait := rfl
@[simp] theorem delOp_atsInvs (s : State) (o : Nat) : (delOp s o).atsInvs = s.atsInvs := rfl
@[simp] theorem delOp_out (s : State) (o : Nat) : (delOp s o).out = s.out := rfl
@[simp] theorem delOp_west (s : State) (o : Nat) : (delOp s o).west = s.west := rfl
@[simp] theorem delOp_east (s : State) (o : Nat) : (delOp s o).east = s.east := rfl
@[simp] theorem delOp_ident (s : State) (o : Nat) : (delOp s o).ident = s.ident := rfl
@[simp] theorem delOp_sys (s : State) (o : Nat) : (delOp s o).sys = s.sys := rfl
@[simp] theorem delOp_time (s : State) (o : Nat) : (delOp s o).time = s.time := rfl
@[simp] theorem delOp_mbx (s : State) (o : Nat) : (delOp s o).mbx = s.mbx := rfl
@[simp] theorem delOp_arch (s : State) (o : Nat) : (delOp s o).arch = s.arch := rfl
@[simp] theorem delOp_i3c (s : State) (o : Nat) : (delOp s o).i3c = s.i3c := rfl
@[simp] theorem delOp_flash (s : State) (o : Nat) : (delOp s o).flash = s.flash := rfl
@[simp] theorem delOp_regs (s : State) (o : Nat) : (delOp s o).regs = s.regs := rfl
@[simp] theorem delOp_latches (s : State) (o : Nat) : (delOp s o).latches = s.latches := rfl
@[simp] theorem delOp_holds (s : State) (o : Nat) : (delOp s o).holds = s.holds := rfl
@[simp] theorem delOp_views (s : State) (o : Nat) : (delOp s o).views = s.views := rfl
@[simp] theorem delOp_insts (s : State) (o : Nat) : (delOp s o).insts = s.insts := rfl
@[simp] theorem delOp_fns (s : State) (o : Nat) : (delOp s o).fns = s.fns := rfl
@[simp] theorem delOp_nextOp (s : State) (o : Nat) : (delOp s o).nextOp = s.nextOp := rfl
@[simp] theorem die_delOp (s : State) (o : Nat) (e : Die) : die (delOp s o) e = die s e := by cases e <;> rfl
@[simp] theorem inst_delOp (s : State) (o : Nat) (j : Nat) : inst (delOp s o) j = inst s j := rfl
@[simp] theorem fnOf_delOp (s : State) (o : Nat) (j : FnId) : fnOf (delOp s o) j = fnOf s j := rfl
@[simp] theorem regVal_delOp (s : State) (o : Nat) (e : Die) (k : Nat) : regVal (delOp s o) e k = regVal s e k := rfl

/-! ### A change of a die -/

@[simp] theorem onDie_pending (s : State) (d : Die) (g : DieState → DieState) : (onDie s d g).pending = s.pending := by cases d <;> rfl
@[simp] theorem onDie_now (s : State) (d : Die) (g : DieState → DieState) : (onDie s d g).now = s.now := by cases d <;> rfl
@[simp] theorem onDie_freeCtr (s : State) (d : Die) (g : DieState → DieState) : (onDie s d g).freeCtr = s.freeCtr := by cases d <;> rfl
@[simp] theorem onDie_keyCtr (s : State) (d : Die) (g : DieState → DieState) : (onDie s d g).keyCtr = s.keyCtr := by cases d <;> rfl
@[simp] theorem onDie_reads (s : State) (d : Die) (g : DieState → DieState) : (onDie s d g).reads = s.reads := by cases d <;> rfl
@[simp] theorem onDie_nextRead (s : State) (d : Die) (g : DieState → DieState) : (onDie s d g).nextRead = s.nextRead := by cases d <;> rfl
@[simp] theorem onDie_tagWait (s : State) (d : Die) (g : DieState → DieState) : (onDie s d g).tagWait = s.tagWait := by cases d <;> rfl
@[simp] theorem onDie_atsInvs (s : State) (d : Die) (g : DieState → DieState) : (onDie s d g).atsInvs = s.atsInvs := by cases d <;> rfl
@[simp] theorem onDie_out (s : State) (d : Die) (g : DieState → DieState) : (onDie s d g).out = s.out := by cases d <;> rfl
@[simp] theorem onDie_ident (s : State) (d : Die) (g : DieState → DieState) : (onDie s d g).ident = s.ident := by cases d <;> rfl
@[simp] theorem onDie_sys (s : State) (d : Die) (g : DieState → DieState) : (onDie s d g).sys = s.sys := by cases d <;> rfl
@[simp] theorem onDie_time (s : State) (d : Die) (g : DieState → DieState) : (onDie s d g).time = s.time := by cases d <;> rfl
@[simp] theorem onDie_mbx (s : State) (d : Die) (g : DieState → DieState) : (onDie s d g).mbx = s.mbx := by cases d <;> rfl
@[simp] theorem onDie_arch (s : State) (d : Die) (g : DieState → DieState) : (onDie s d g).arch = s.arch := by cases d <;> rfl
@[simp] theorem onDie_i3c (s : State) (d : Die) (g : DieState → DieState) : (onDie s d g).i3c = s.i3c := by cases d <;> rfl
@[simp] theorem onDie_flash (s : State) (d : Die) (g : DieState → DieState) : (onDie s d g).flash = s.flash := by cases d <;> rfl
@[simp] theorem onDie_regs (s : State) (d : Die) (g : DieState → DieState) : (onDie s d g).regs = s.regs := by cases d <;> rfl
@[simp] theorem onDie_latches (s : State) (d : Die) (g : DieState → DieState) : (onDie s d g).latches = s.latches := by cases d <;> rfl
@[simp] theorem onDie_holds (s : State) (d : Die) (g : DieState → DieState) : (onDie s d g).holds = s.holds := by cases d <;> rfl
@[simp] theorem onDie_views (s : State) (d : Die) (g : DieState → DieState) : (onDie s d g).views = s.views := by cases d <;> rfl
@[simp] theorem onDie_insts (s : State) (d : Die) (g : DieState → DieState) : (onDie s d g).insts = s.insts := by cases d <;> rfl
@[simp] theorem onDie_fns (s : State) (d : Die) (g : DieState → DieState) : (onDie s d g).fns = s.fns := by cases d <;> rfl
@[simp] theorem onDie_ops (s : State) (d : Die) (g : DieState → DieState) : (onDie s d g).ops = s.ops := by cases d <;> rfl
@[simp] theorem onDie_nextOp (s : State) (d : Die) (g : DieState → DieState) : (onDie s d g).nextOp = s.nextOp := by cases d <;> rfl
@[simp] theorem die_onDie_same (s : State) (d : Die) (g : DieState → DieState) : die (onDie s d g) d = g (die s d) := by cases d <;> rfl
theorem die_onDie_other (s : State) {d e : Die} (g : DieState → DieState) (h : e ≠ d) : die (onDie s d g) e = die s e := by
  cases d <;> cases e <;> first | rfl | exact absurd rfl h
@[simp] theorem inst_onDie (s : State) (d : Die) (g : DieState → DieState) (i : Nat) : inst (onDie s d g) i = inst s i := by cases d <;> rfl
@[simp] theorem opOf_onDie (s : State) (d : Die) (g : DieState → DieState) (o : Nat) : opOf (onDie s d g) o = opOf s o := by cases d <;> rfl
@[simp] theorem fnOf_onDie (s : State) (d : Die) (g : DieState → DieState) (f : FnId) : fnOf (onDie s d g) f = fnOf s f := by cases d <;> rfl
@[simp] theorem regVal_onDie (s : State) (d : Die) (g : DieState → DieState) (e : Die) (k : Nat) : regVal (onDie s d g) e k = regVal s e k := by
  cases d <;> rfl

/-! ### A free value taken -/

/-- The value is the one of the present count. -/
@[simp] theorem takeFree_fst (s : State) : (takeFree s).1 = Config.freeValue s.freeCtr := rfl
@[simp] theorem takeFree_freeCtr (s : State) : (takeFree s).2.freeCtr = s.freeCtr + 1 := rfl
@[simp] theorem takeFree_pending (s : State) : (takeFree s).2.pending = s.pending := rfl
@[simp] theorem takeFree_now (s : State) : (takeFree s).2.now = s.now := rfl
@[simp] theorem takeFree_keyCtr (s : State) : (takeFree s).2.keyCtr = s.keyCtr := rfl
@[simp] theorem takeFree_reads (s : State) : (takeFree s).2.reads = s.reads := rfl
@[simp] theorem takeFree_nextRead (s : State) : (takeFree s).2.nextRead = s.nextRead := rfl
@[simp] theorem takeFree_tagWait (s : State) : (takeFree s).2.tagWait = s.tagWait := rfl
@[simp] theorem takeFree_atsInvs (s : State) : (takeFree s).2.atsInvs = s.atsInvs := rfl
@[simp] theorem takeFree_out (s : State) : (takeFree s).2.out = s.out := rfl
@[simp] theorem takeFree_west (s : State) : (takeFree s).2.west = s.west := rfl
@[simp] theorem takeFree_east (s : State) : (takeFree s).2.east = s.east := rfl
@[simp] theorem takeFree_ident (s : State) : (takeFree s).2.ident = s.ident := rfl
@[simp] theorem takeFree_sys (s : State) : (takeFree s).2.sys = s.sys := rfl
@[simp] theorem takeFree_time (s : State) : (takeFree s).2.time = s.time := rfl
@[simp] theorem takeFree_mbx (s : State) : (takeFree s).2.mbx = s.mbx := rfl
@[simp] theorem takeFree_arch (s : State) : (takeFree s).2.arch = s.arch := rfl
@[simp] theorem takeFree_i3c (s : State) : (takeFree s).2.i3c = s.i3c := rfl
@[simp] theorem takeFree_flash (s : State) : (takeFree s).2.flash = s.flash := rfl
@[simp] theorem takeFree_regs (s : State) : (takeFree s).2.regs = s.regs := rfl
@[simp] theorem takeFree_latches (s : State) : (takeFree s).2.latches = s.latches := rfl
@[simp] theorem takeFree_holds (s : State) : (takeFree s).2.holds = s.holds := rfl
@[simp] theorem takeFree_views (s : State) : (takeFree s).2.views = s.views := rfl
@[simp] theorem takeFree_insts (s : State) : (takeFree s).2.insts = s.insts := rfl
@[simp] theorem takeFree_fns (s : State) : (takeFree s).2.fns = s.fns := rfl
@[simp] theorem takeFree_ops (s : State) : (takeFree s).2.ops = s.ops := rfl
@[simp] theorem takeFree_nextOp (s : State) : (takeFree s).2.nextOp = s.nextOp := rfl

end Sys2Proof.Machine
end

