-- ==== Sys2Proof/Machine/Wire.lean ====
section
/-! DEFINITION. The wire forms below a frame and below a Bindery partial: codewords, lanes and symbols of a frame
(R279, R280, R283, R284), and the elements of an exact-mode partial (R195). Commands carry frames and partials in
their fields, and these functions give what the lanes and the packets hold for them. -/

namespace Sys2Proof.Machine

open Sys2Proof

/-! ## Symbols of a lane (R280) -/

/-- The Gray symbol of a pair of bits, first bit first. -/
def grayOf : Bool → Bool → Nat
  | false, false => 0
  | false, true => 1
  | true, true => 2
  | true, false => 3

/-- The level of a symbol: −3, −1, +1, +3. -/
def pamLevel (g : Nat) : Int := 2 * (g : Int) - 3

/-- The Gray symbols of a stream of bits. -/
def graySymbols : List Bool → List Nat
  | a :: b :: l => grayOf a b :: graySymbols l
  | _ => []

/-- The precoded stream after the symbol `p`: p_n = (g_n − p_(n−1)) mod 4. -/
def precodeFrom : Nat → List Nat → List Nat
  | _, [] => []
  | p, g :: l => (g + 4 - p % 4) % 4 :: precodeFrom ((g + 4 - p % 4) % 4) l

/-- The stream recovered after the symbol `p`: g_n = (p_n + p_(n−1)) mod 4. -/
def recoverFrom : Nat → List Nat → List Nat
  | _, [] => []
  | p, q :: l => (q + p) % 4 :: recoverFrom q l

/-- The levels that a lane sends from the start of its codeword stream, p_(−1) being 0: RATE 0 is always precoded, RATE 1
where the partner's receiver asks for it, RATE 2 never (R279). -/
def laneLevels (rate : Nat) (asked : Bool) (stream : List Bool) : List Int :=
  let g := graySymbols stream
  (if rate = 0 ∨ (rate = 1 ∧ asked = true) then precodeFrom 0 g else g).map pamLevel

/-! ## Codewords of a frame (R283, R284) -/

/-- The 80 bits of frame control of a frame on the wire: the CRC under bits [79:32] (R284, R289). -/
def wireCtl (fsn ack nak : Nat) (retx empty : Bool) (crCh crCount : Nat) (slots : List (Bool × Block)) : Nat :=
  let ctl := frameCtl fsn ack nak retx empty crCh crCount
  (frameCrc (slots.map (·.1)) (slots.map (·.2)) ctl).toNat + ctl * 2 ^ 32

/-- The 5,140 data bits of slice `i` in the order of transmission: ten slot flags, the slice of frame control with its most
significant bit first, and ten slots, byte 0 first and bit 0 of each byte first. -/
def codewordBits (ctl : Nat) (slots : List (Bool × Block)) (i : Nat) : List Bool :=
  let own := (slots.drop (10 * i)).take 10
  own.map (·.1) ++ (List.range 10).map (fun j => bit ctl (10 * i + 9 - j))
    ++ own.flatMap (fun s => (List.range 512).map s.2.getLsbD)

/-- The FEC symbols of a stream of bits, ten bits each, most significant bit first (R280). -/
def fecSymbols : List Bool → List Nat
  | a :: b :: c :: d :: e :: f :: g :: h :: i :: j :: l =>
    [a, b, c, d, e, f, g, h, i, j].foldl (fun n x => 2 * n + b2n x) 0 :: fecSymbols l
  | _ => []

/-- The bits of an FEC symbol, most significant bit first. -/
def symbolBits (n : Nat) : List Bool := (List.range 10).map fun j => bit n (9 - j)

/-- A codeword's 544 symbols as bits: the 514 data symbols, and 30 of parity. -/
def codeword (data : List Bool) : List Bool :=
  data ++ (List.range 30).flatMap fun j => symbolBits (Config.fecParity (fecSymbols data) j % 1024)

/-- The logical lane that carries slice `i`, and which codeword of the frame on that lane it is: eight lanes carry one slice
each, four carry two (R284). -/
def sliceLane (half : Bool) (i : Nat) : Nat × Nat := if half then (i % 4, i / 4) else (i, 0)

/-- What a frame adds to the codeword stream of a logical lane. -/
def laneBits (half : Bool) (ctl : Nat) (slots : List (Bool × Block)) (lane : Nat) : List Bool :=
  ((List.range 8).filter fun i => decide ((sliceLane half i).1 = lane)).flatMap fun i => codeword (codewordBits ctl slots i)

/-! ## Words of a bridge slice (R303) -/

/-- The parity bit that makes the number of ones even. -/
def evenParity : List Bool → Bool
  | [] => false
  | b :: l => b != evenParity l

/-- The word of a lane: 20 bits and even parity over them. -/
def laneWord (data : List Bool) : List Bool := data ++ [evenParity data]

/-- The parity test of a received word. -/
def laneWordOk (w : List Bool) : Bool := !evenParity w

/-- The words of a group of lanes for a stream of bits, 20 to a lane. -/
def laneWords20 : Nat → List Bool → List (List Bool)
  | 0, _ => []
  | n + 1, l => laneWord (l.take 20) :: laneWords20 n (l.drop 20)

/-- A slot of a slice: VALID, HEAD and the channel (0–15 stage 0, 16 Flume, 17–32 stage 1). -/
structure BridgeSlot where
  valid : Bool
  head : Bool
  chan : Nat
  flit : Block
deriving DecidableEq, Repr

/-- The 160 control bits of a slice: five slots, two credit returns of a channel and the flits freed, and 64 bits of the control
stream; the rest is sent as zero. -/
def sliceCtl (slots : List BridgeSlot) (returns : List (Nat × Nat)) (stream : Nat) : Nat :=
  let slot (x : BridgeSlot) : Nat := b2n x.valid + b2n x.head * 2 + x.chan % 64 * 4
  let ret (x : Nat × Nat) : Nat := x.1 % 64 + x.2 % 1024 * 64
  ((slots.take 5).map slot).foldr (fun x n => x + 2 ^ 8 * n) 0 + ((returns.take 2).map ret).foldr (fun x n => x + 2 ^ 16 * n) 0 * 2 ^ 40
    + stream % 2 ^ 64 * 2 ^ 72

/-- What the control bits of slot `i`, the credit returns and the control stream say; RSV is ignored. -/
def readSlot (w i : Nat) : Bool × Bool × Nat := (bit w (8 * i), bit w (8 * i + 1), bits w (8 * i + 2) 6)
def readReturn (w i : Nat) : Nat × Nat := (bits w (40 + 16 * i) 6, bits w (46 + 16 * i) 10)
def readStream (w : Nat) : Nat := bits w 72 64

/-- The words of a slice in one nanosecond: 128 data lanes carry the five flits, 8 control lanes the control bits. -/
def sliceWords (slots : List BridgeSlot) (returns : List (Nat × Nat)) (stream : Nat) : List (List Bool) :=
  laneWords20 128 ((slots.take 5).flatMap fun x => (List.range 512).map x.flit.getLsbD)
    ++ laneWords20 8 ((List.range 160).map fun j => bit (sliceCtl slots returns stream) j)

/-! ## Elements of an exact-mode partial (R195) -/

/-- The signed integer that little-endian limbs form, sign-extended from the top limb. -/
def limbsInt (l : List Word) : Int :=
  let n : Nat := l.foldr (fun w n => w.toNat + 2 ^ 64 * n) 0
  if 2 * n < 2 ^ (64 * l.length) then (n : Int) else (n : Int) - 2 ^ (64 * l.length)

/-- The element that a descriptor and its limbs stand for: the limbs' integer times 2^(64 × O) accumulator units, and the
flags NAN, PINF, NINF and ALLNEGZERO. [log DEDUCED 183] -/
def wireElem (desc : Nat) (limbs : List Word) : BndElem :=
  { val := limbsInt (limbs.take (bits desc 6 6)) * 2 ^ (64 * bits desc 0 6)
    nan := bit desc 12, pinf := bit desc 13, ninf := bit desc 14, anz := bit desc 15 }

/-- The descriptor and limbs of an element: the offset passes over its low limbs that are zero, then the fewest limbs that hold
the rest, and none for zero. -/
def elemWire (e : BndElem) : Nat × List Word :=
  let off := if e.val = 0 then 0 else ((List.range 34).find? fun n => decide (e.val % 2 ^ (64 * (n + 1)) ≠ 0)).getD 0
  let v := e.val / 2 ^ (64 * off)
  let fits (n : Nat) : Bool := decide (-(2 ^ (64 * n) : Int) ≤ 2 * v ∧ 2 * v < 2 ^ (64 * n))
  let len := if e.val = 0 then 0 else ((List.range 34).find? fun n => 1 ≤ n && fits n).getD 34
  let n := (v % 2 ^ (64 * len)).toNat
  (off + len * 64 + b2n e.nan * 2 ^ 12 + b2n e.pinf * 2 ^ 13 + b2n e.ninf * 2 ^ 14 + b2n e.anz * 2 ^ 15,
    (List.range len).map fun i => BitVec.ofNat 64 (n / 2 ^ (64 * i)))

end Sys2Proof.Machine
end

