-- ==== Sys2Proof/Laws/Wire.lean ====
section
/-! SUPPORT. Laws of the wire forms: a precoded stream is recovered, and a codeword has the size of R283. -/

namespace Sys2Proof.Laws

open Sys2Proof Sys2Proof.Machine

/-- A receiver that starts from the same symbol recovers what was precoded (R280). -/
theorem recoverFrom_precodeFrom (p : Nat) (l : List Nat) (h : ∀ g ∈ l, g < 4) : recoverFrom p (precodeFrom p l) = l := by
  induction l generalizing p with
  | nil => rfl
  | cons g l ih =>
    have hg := h g (by simp)
    simp only [precodeFrom, recoverFrom, ih _ fun x hx => h x (by simp [hx]), List.cons.injEq, and_true]
    omega

/-- The Gray symbols of any stream are symbols. -/
theorem graySymbols_lt : ∀ (l : List Bool), ∀ g ∈ graySymbols l, g < 4
  | [], g, h => by simp [graySymbols] at h
  | [_], g, h => by simp [graySymbols] at h
  | a :: b :: l, g, h => by
    rcases List.mem_cons.1 h with rfl | h
    · cases a <;> cases b <;> decide
    · exact graySymbols_lt l g h

/-- Slots carry 512 bits each. -/
theorem slotBits_length (l : List (Bool × Block)) :
    (l.flatMap fun s => (List.range 512).map s.2.getLsbD).length = 512 * l.length := by
  induction l with
  | nil => rfl
  | cons s l ih => rw [List.flatMap_cons, List.length_append, ih, List.length_map, List.length_range, List.length_cons]; omega

/-- A slice of a whole frame has 5,140 data bits (R283). -/
theorem codewordBits_length (ctl : Nat) (slots : List (Bool × Block)) (i : Nat) (hs : slots.length = 80) (hi : i < 8) :
    (codewordBits ctl slots i).length = 5140 := by
  have h : ((slots.drop (10 * i)).take 10).length = 10 := by rw [List.length_take, List.length_drop, hs]; omega
  simp only [codewordBits, List.length_append, slotBits_length, List.length_map, List.length_range, h]

end Sys2Proof.Laws
end

