-- ==== Sys2Proof/Tests/World.lean ====
section
/-! SUPPORT. Small states for the tests: a device after bring-up, with one instance, its rings, connections and grants. -/

namespace Sys2Proof.Tests

open Sys2Proof Sys2Proof.Machine

/-- A block with the given fields: byte, lowest bit, width, value. -/
def blk (l : List (Nat × Nat × Nat × Nat)) : Block := l.foldl (fun b f => putFld b f.1 f.2.1 f.2.2.1 f.2.2.2) 0

/-- A device in SERVICE whose host links have trained, with its management function and no instance. -/
def bare : State :=
  { now := 100000000
    ident := { valid := true, group := 5, place := 3 }
    sys := { mode := .service, bootStage := 7, inReset := false, pwrgood := true, armed := true }
    i3c := { dynAddr := 9 }
    west := { hst := { links := [(0, { up := true }), (4, { up := true })] } }
    east := { hst := { links := [(0, { up := true })] } } }

/-- `bare` with the West die changed. -/
def onW (f : DieState → DieState) (s : State := bare) : State := { s with west := f s.west }

/-- `bare` with a link of the West die as given. -/
def withLink (l : Link) (k : Nat := 0) (s : State := bare) : State := onW (fun d => { d with links := tset {} d.links k l }) s

/-- `bare` with instance 7 of West as given. -/
def withInst (x : Inst) (s : State := bare) : State :=
  { s with insts := [(7, { x with fn := { port := 1, link := 0, fn := 0 } })], fns := [(2048, { inst := some 7 })] }

/-- `bare` with both bridges in one state on both dies. -/
def bridges (b : Brg) : State :=
  { bare with west := { bare.west with north := b, south := b }, east := { bare.east with north := b, south := b } }

/-- Both bridges UP. -/
def bridgesUp : State := bridges { st := .up, adminEn := true, room := List.replicate 33 100 }

/-- Both bridges FAILED. -/
def bridgesFailed : State := bridges { st := .failed, adminEn := true }

/-- Domain 4 of West staged, and the device time set. -/
def stagedDom : State := { (onW fun d => { d with epc := { doms := [(4, { stagedValid := true })] } }) with time := { set := true } }

/-- `bare` with a gate state of West's port 0. -/
def withGate (g : Gate) : State := onW fun d => { d with sch := { gates := [(0, g)] } }

/-- A state in which protection region 0 admits every class to the whole register space. -/
def aclOpen (s : State := bare) : State := setReg s .west 0x1800000 0x80003F3FFFFF0000

/-- `bare` in DRAIN. -/
def drain : State := { bare with sys := { bare.sys with mode := .drain } }

/-- `bare` with a command ring of West. -/
def withCmd (r : CmdRing) (n : Nat) (s : State := bare) : State :=
  onW (fun d => { d with rings := { d.rings with cmd := tset {} d.rings.cmd n r } }) s

/-- `bare` with a completion ring of West. -/
def withCq (r : CqRing) (n : Nat) (s : State := bare) : State :=
  onW (fun d => { d with rings := { d.rings with cq := tset {} d.rings.cq n r } }) s

/-- Window 0: 1 MiB of host memory at 0x10000, direct. -/
def win0 : Win := { valid := true, lr := true, lw := true, rr := true, rw := true, base := 0x10000, size := 16, target := 0x4000000 }

/-- Instance 7, RUNNING on host port 1 with a share of everything. -/
def inst7 : Inst :=
  { st := .running, fn := { port := 1, link := 0, fn := 0 }, maxOps := 100, maxTriggers := 10, tcMask := 15, wins := [(0, win0)], maxCtx := 4
    maxPosted := 100, maxUnexp := 100, maxUnexpKib := 64, tallies := [(16, 16)], colls := [(5, 1)] }

/-- The tree of context 5: this die is its root and member 1 its one child. -/
def tree5 : Nat := 5 + 2 ^ 32 + 2 ^ 40 + 5216 * 2 ^ 64 + 2 ^ 128 * 2 + 2 ^ 256 * (5217 + 2 ^ 20 * 7 + 2 ^ 30 + 2 ^ 32)

/-- Routing and tree records of the West die. -/
def recs : Tab Dom :=
  [(0, { active := [{ ty := 2, index := 6, content := leBytes 4 1 }, { ty := 2, index := 7, content := leBytes 4 1 }] }),
   (2, { active := [{ ty := 0, index := 5, content := leBytes 40 tree5 }] })]

/-- An end of connection 0x100 to itself. -/
def conn100 : Conn :=
  { st := .established, peerConn := 0x100, localStation := 1, inst := 7, remoteInst := 7, remoteStation := 5217, mtu := 4, cwnd := 65536, expKnown := true }

/-- A device with instance 7: its rings 1 (and 2), connection 0x100, Tally 16, context 2 open and collective context 5 ready. -/
def run : State :=
  onW (fun d => { d with
      rings := { cmd := [(1, { configured := true, log2 := 4, instRing := 1, inst := 7, cq := 1, burst := 1, weight := 1, st := .idle, haltSlot := true }),
                         (2, { configured := true, log2 := 4, instRing := 2, inst := 7, cq := 1, burst := 1, weight := 1, st := .idle, haltSlot := true })]
                 cq := [(1, { configured := true, log2 := 6, instRing := 1, inst := 7, bound := 2, haltHeld := 2 })] }
      conns := [(0x100, conn100)]
      cat := { ctxs := [(ctxKey 7 2, { st := .opened })], }
      bnd := [(5, { st := .ready })]
      eng := { pairs := [(0, { st := .active })] }
      epc := { doms := recs } })
    { bare with insts := [(7, inst7)], fns := [(2048, { inst := some 7 })] }

/-- The state and operation of a command that ring 1 of West has dispatched. -/
def offer (s : State) (op : Nat) (b : Block) (c : List Block) : State × Nat := (ringOffer s .west 1 (rowBlk b op []) c).getD (s, 0)

/-- `run` with the Catalog's context 2 as given. -/
def withCtx (x : Ctx) : State := onW (fun d => { d with cat := { ctxs := [(ctxKey 7 2, x)] } }) run

/-- `run` with operation 1 as given. -/
def withOp (x : Op) (s : State := run) : State := { s with ops := [(1, x)], nextOp := 2 }

/-- `run` with West's ring 1 as given. -/
def withRing (r : CmdRing) : State := withCmd { r with configured := true, log2 := 4, instRing := 1, inst := 7, cq := 1 } 1 run

/-- `run` with West's walk 0 as given. -/
def withWalk (w : Walk) (s : State := run) : State := onW (fun d => { d with hst := { d.hst with walks := [(0, some w)] } }) s

/-- A walk for the target side of connection 0x100. -/
def walk (level : Nat) : Walk :=
  { inst := 7, win := 0, page := 0, level := level, addr := 0, e1 := 0, wr := false, owner := .target 0x100, stale := false, snap := win0 }

/-- A packet to and from West's station 1. -/
def pkt (b : Body) : Pkt :=
  { dst := 5217, src := 5217, tc := 0, level := 0, leg := false, lhop := false, ord := false, start := false, viaGroup := 0, gwRouter := 0, gwPort := 0
    len := 1, kind := 0, det := false, viaRouter := 0, rsv := 0, fseq := 0, chan16 := false, body := b }

/-- A request packet of connection 0x100. -/
def req (op : ReqOp) (psn : BitVec 32 := 0) : ReqPkt :=
  { conn := 0x100, peer := 0x100, srcInst := 7, dstInst := 7, psn := psn, first := true, last := true, retx := false, txTime := 0, skip := [], op := op }

/-- `run` with connection 0x100 as given. -/
def withConn (k : Conn) : State := onW (fun d => { d with conns := [(0x100, k)] }) run

/-- A packet sent and unacknowledged. -/
def tx (timeouts : Nat := 0) : TxPkt :=
  { psn := 0, req := req (.more []), flits := 1, bytes := 256, op := 1, off := 0, elem := 0, strideEnd := true, sentAt := 0, resentAt := none, timeouts := timeouts }

/-- An acknowledgement of connection 0x100. -/
def ack (nak : Option (BitVec 32 × NakKind)) : AckPkt :=
  { conn := 0x100, peer := 0x100, cum := 0, vis := 0, sack := 0, echo := 0, echoRetx := false, nak := nak, result := none, sat := [], refused := [] }

/-- A control packet for connection 0x100, from its mirror. -/
def ctl (kind : CtlKind) (mtu : Nat := 4) : CtlPkt :=
  { kind := kind, conn := 0x100, station := 5217, peerConn := 0x100, inst := 7, remoteInst := 7, remoteStation := 5217, tc := 0, mtu := mtu, psn := 0 }

/-- Context 5 of a tree whose node here has a child node at router 8 and its parent at router 10. -/
def tree6 : Nat := 5 + 2 ^ 40 + 5280 * 2 ^ 64 + 2 ^ 128 * 2 + 2 ^ 256 * 5248

/-- `run` with that tree and West's node of context 5 as given. -/
def withNode (x : BndCtx) : State :=
  onW (fun d => { d with bnd := [(5, x)], epc := { doms := [(2, { active := [{ ty := 0, index := 5, content := leBytes 40 tree6 }] })] } }) run

/-- A Bindery packet to West's node. -/
def bpkt (src : Nat) (b : BndBody) : BndPkt :=
  { src := src, dst := 5216, relay := false, via := 0, cctx := 5, gen := 0, seq := 0, seg := 0, child := 0, body := b }

/-- An ALLREDUCE of one int32. -/
def head0 : BndHead := { opcode := 0x42, op := 0, ty := 0, exact := false, count := 1, root := 0 }

/-- A segment of it. -/
def seg0 : Seg :=
  { seq := 0, seg := 0, head := head0, held := [], formed := false, partialBody := none, sentAt := 0, result := none, resultAt := 0, acked := [] }

/-- `run` with a Boom entry of the flow from station 5217 in class 0. -/
def withFlow (f : BoomFlow) : State := onW (fun d => { d with rtr := { boom := tset {} [] 5217 f } }) run

/-- `run` with the flow state of the flow to this router in class 0. -/
def withSrc (f : Flow) : State := setFlow run .west { src := 5217, tc := 0, dstRouter := 5216 } f

/-- A FORM 2 answer of the Flume. -/
def fl2 : FlumePkt := { ftype := 2, form := 2, relayPort := 0, part := 0, parts := 0, reqSeq := 0, reqDie := 0, blk := 0 }

/-- A frame whose CRC is right. -/
def frame (fsn : Nat) (slots : List (Bool × Block) := []) (empty retx : Bool := false) : Frame :=
  { bad := [], corrSym := 0, crc := frameCrc (slots.map (·.1)) (slots.map (·.2)) (frameCtl fsn 0 0 retx empty 31 0), fsn := fsn, ackFsn := 0
    nakMap := 0, retx := retx, empty := empty, crCh := 31, crCount := 0, slots := slots }

/-- The read of an entry that comes back whole, and one that fails. -/
def part (b : Block) : List ReadPart := [{ off := 0, bytes := leBytes 64 b.toNat, fail := none }]
def lostPart (f : ReadFail) : List ReadPart := [{ off := 0, bytes := [], fail := some f }]

/-- A packet in a queue. -/
def qp (chan : Nat := 0) (owner : Option Nat := none) : QPkt :=
  { pkt := pkt (.notice 5217 0), chan := chan, stage := 0, at_ := 0, inst := none, owner := owner }

/-- That packet as a scheduler picks it from a queue of weight `w`. -/
def pick (who w : Nat) (key : Nat) (q : QPkt := qp) : Pick :=
  { tc := 0, cls := { no := 0, w := 32, finish := 0, len := 2 }, sub := { no := who, w := w, finish := 0, len := 2 }, key := key, q := q }

/-- `run` with link 0 of West UP and the egress scheduler of port 0 and its queue as given. -/
def withEgress (x : Sched) (q : Queue) (l : Link := { st := .up, partnerCredit := 128 }) : State :=
  onW (fun d => { d with sch := { egress := [(0, x)], egq := tset {} [] 1 q } }) (withLink l 0 run)

/-- `run` with one injection queue of West's host port 0. -/
def withInj (key : Nat) (q : Queue) : State := onW (fun d => { d with sch := { injq := [(key, q)] } }) run

/-- A state after an injection scheduler has taken a packet from its queue. -/
def injTaken (s : State) (d : Die) (port : Nat) (p : Pick) : State :=
  let x := tget {} (die s d).sch.inject port
  onSch s d fun y =>
    { y with inject := tset {} y.inject port (chargePick x p).1
             injq := tmod {} y.injq p.key fun q => serveQueue q p.q (chargePick x p).2 (x.urgent.contains (p.tc, p.sub.no, p.q)) }

/-- A state with one block of West down. -/
def withBlock (b : Nat) (s : State) : State := onW (fun d => { d with lko := { d.lko with units := [(b * 65536 + 65535, { st := .fault })] } }) s

/-- A state in which vector 0 of the function of West's port 0 is not masked. -/
def withUnmasked (s : State) : State := { s with fns := (0, { unmasked := [0] }) :: s.fns }

/-- A read by the wrong block answers "not whole", whatever the value read. -/
theorem cellRead_other {s : State} {d : Die} {b : Nat} {owner reader : Option Nat} (h : owner ≠ reader) :
    cellRead s d b owner reader = (false, (cellRead s d b owner reader).2) := by
  unfold cellRead; rw [if_neg h]

/-- The state that a command leads to. -/
def after : Host.Outcome State Fault Refusal → State
  | .next t => t
  | _ => bare

end Sys2Proof.Tests
end

