-- ==== Sys2Proof/Tests/Full.lean ====
section
/-! SUPPORT. States in which a resource of the device is used up, and the commands that wait for it. -/

namespace Sys2Proof.Tests

open Sys2Proof Sys2Proof.Machine

/-- An operation that passes its state check and still lacks its resource is left waiting. -/
theorem retry_waits (s : State) (o : Nat) (x : Op) (p : Phase) (hx : opOf s o = x) (hp : x.phase = p) (hc : classOf x.blk ≠ 7) (hs : check4 s x = true)
    (h4 : passed4 s o = s) (hr : resourceWait s o = some p) (hw : p = .waitSlots ∨ p = .waitCtx ∨ p = .waitCache) : (opOf (retryOp s o) o).phase = p := by
  have h : retryOp s o = waitFor s o p := by
    unfold retryOp
    simp only [hx, hp]
    rcases hw with rfl | rfl | rfl <;> simp only [opWaits, if_true, opRun, hx, hc, hs, h4, hr, Bool.not_true, Bool.false_eq_true, if_false]
  rw [h]
  have hd : p ≠ .done := by rcases hw with rfl | rfl | rfl <;> exact nofun
  exact congrArg Op.phase (tget_tset_same {} s.ops o (op_ne_of_phase { opOf s o with phase := p, since := _ } hd))

/-- A TALLY_READ of the management ring that waits for a dispatch slot. -/
def slotOp : Op := { iss := .ring .west 0, blk := blk [(0, 0, 8, 0x63)], phase := .waitSlots, order := 1 }

/-- `n` dispatch slots are taken, and operation 1 waits for one. -/
def fullOps (n : Nat) : State := { bare with ops := (1, slotOp) :: List.replicate n (2, { phase := .sent }) }

theorem fullOps_waits (n : Nat) (h : 262144 ≤ n) : (opOf (retryOp (fullOps n) 1) 1).phase = .waitSlots := by
  have h0 : slotsUsed (fullOps n) 1 (fun _ => true) = n := by
    simp only [slotsUsed, fullOps, List.filter_cons, List.filter_replicate]
    simp [usesSlot, opWaits]
  have h1 : opOf (fullOps n) 1 = slotOp := rfl
  have h5 : opcode slotOp = 0x63 := by decide +kernel
  have h6 : connField (opBlk slotOp) = none := by decide +kernel
  have h7 : connOk (fullOps n) slotOp = true := by unfold connOk; rw [h6]
  refine retry_waits _ _ slotOp _ h1 rfl (by decide +kernel) (by simp [check4, stateOk, h5, h7]) ?_ ?_ (.inl rfl)
  · (unfold passed4; rw [h1]; rfl)
  unfold resourceWait
  simp only [h1, h0, show slotOp.inst = none from rfl, Option.isSome_none, Bool.false_and, Bool.false_eq_true, if_false, ge_iff_le, h, if_true]

/-- A CTX_OPEN that waits for a context. -/
def ctxOp : Op := { iss := .ring .west 1, inst := some 7, blk := blk [(0, 0, 8, 0x24)], phase := .waitCtx, order := 1 }

/-- `n` and one more communicator contexts of West are open, and a CTX_OPEN waits for one. -/
def fullCtx (n : Nat) : State :=
  onW (fun d => { d with cat := { ctxs := (500000, { st := .opened }) :: List.replicate n (500000, { st := .opened }) } }) (withOp ctxOp)

theorem fullCtx_waits (n : Nat) (h : 131072 ≤ n) : (opOf (retryOp (fullCtx n) 1) 1).phase = .waitCtx := by
  have h0 : openCtxs (fullCtx n) .west = n + 1 := by
    simp only [openCtxs, fullCtx, onW, die, List.filter_cons, List.filter_replicate]
    simp
  have h1 : opOf (fullCtx n) 1 = ctxOp := rfl
  have h2 : (slotsUsed (fullCtx n) 1 fun y => decide (y.inst = some 7)) = 0 := rfl
  have h3 : slotsUsed (fullCtx n) 1 (fun _ => true) = 0 := rfl
  have h4 : (inst (fullCtx n) 7).maxOps = 100 := rfl
  have h5 : opcode ctxOp = 0x24 := by decide +kernel
  have h6 : stateOk (fullCtx n) ctxOp = true := by
    have : connField (opBlk ctxOp) = none := by decide +kernel
    have hf : ctxField (opBlk ctxOp) = some 0 := by decide +kernel
    have h7 : (cmdCtx (fullCtx n) ctxOp).st = .closed := by unfold cmdCtx; rw [hf]; rfl
    have h8 : connOk (fullCtx n) ctxOp = true := by unfold connOk; rw [this]
    simp [stateOk, h5, h8, h7]
  refine retry_waits _ _ ctxOp _ h1 rfl (by decide +kernel) (by simp [check4, h5, h6]) (by unfold passed4; rw [h1]; rfl) ?_ (.inr (.inl rfl))
  unfold resourceWait
  simp only [h1, h2, h3, h4, h5, h0, show ctxOp.inst = some 7 from rfl, show ctxOp.die = .west from rfl, Option.getD_some]
  simp [h2, show 131072 ≤ n + 1 by omega]

/-- A PUT on connection 0x100 that waits for a cached connection context. -/
def cacheOp : Op := { iss := .ring .west 1, inst := some 7, blk := blk [(0, 0, 8, 0x01), (36, 0, 20, 0x100)], phase := .waitCache, order := 1 }

/-- `n` connections other than 0x100 are cached and in use. -/
def fullCache (n : Nat) : State :=
  onW (fun d => { d with conns := (0x100, conn100) :: List.replicate n (0x101, { st := .established, cached := true, ops := [2] }) }) (withOp cacheOp)

theorem fullCache_waits (n : Nat) (h : 32768 ≤ n) : (opOf (retryOp (fullCache n) 1) 1).phase = .waitCache := by
  have h0 : cachedCount (fullCache n) .west = n := by
    simp only [cachedCount, fullCache, onW, die, List.filter_cons, List.filter_replicate]
    simp [conn100]
  have h1 : opOf (fullCache n) 1 = cacheOp := rfl
  have h2 : (slotsUsed (fullCache n) 1 fun y => decide (y.inst = some 7)) = 0 := rfl
  have h3 : slotsUsed (fullCache n) 1 (fun _ => true) = 0 := rfl
  have h4 : (inst (fullCache n) 7).maxOps = 100 := rfl
  have h5 : opcode cacheOp = 0x01 := by decide +kernel
  have h6 : connField (opBlk cacheOp) = some 0x100 := by decide +kernel
  have h7 : conn (fullCache n) .west 0x100 = conn100 := rfl
  have h8 : stateOk (fullCache n) cacheOp = true := by
    have : connOk (fullCache n) cacheOp = true := by unfold connOk; rw [h6]; exact (by decide +kernel : (decide (conn100.st = .established) && (cacheOp.inst.isNone || decide (some conn100.inst = cacheOp.inst))) = true)
    simp [stateOk, h5, this]
  have h9 : cacheConn (fullCache n) .west 0x100 = none := by
    unfold cacheConn
    have hf : ((die (fullCache n) .west).conns.find? fun (_, k) => k.cached && !connPinned k) = none := by
      simp only [fullCache, onW, die, List.find?_cons, List.find?_replicate]
      simp [conn100, connPinned]
    rw [hf, h7]
    simp [h0, conn100, show ¬ n < 32768 by omega]
  refine retry_waits _ _ cacheOp _ h1 rfl (by decide +kernel) (by simp [check4, h5, h8]) (by unfold passed4; rw [h1]; rfl) ?_ (.inr (.inr rfl))
  unfold resourceWait
  simp only [h1, h2, h3, h4, h5, h6, h9, show cacheOp.inst = some 7 from rfl, show cacheOp.die = .west from rfl, Option.getD_some]
  simp

/-- `n` and one more flows of the Boom hold packets. -/
def fullBoom (n : Nat) : State :=
  onW (fun d => { d with rtr := { boom := (0x900000, { held := [(7, 0, pkt (.raw []))] }) :: List.replicate n (0x900000, { held := [(7, 0, pkt (.raw []))] }) } }) run

theorem fullBoom_none (n : Nat) (h : 262144 ≤ n) : boomEntry (fullBoom n) .west = none := by
  have h0 : (die (fullBoom n) .west).rtr.boom.length = n + 1 := by simp [fullBoom, onW, die]
  have h1 : ((die (fullBoom n) .west).rtr.boom.filter fun (_, f) => f.held.isEmpty) = [] := by
    simp only [fullBoom, onW, die, List.filter_cons, List.filter_replicate]
    simp
  unfold boomEntry
  rw [h0, if_neg (by omega)]
  simp only [h1, List.foldl_nil]

end Sys2Proof.Tests
end

