-- ==== Sys2Proof/Tests/Slice0.lean ====
section
/-! SUPPORT. The model's own tests: an ill-formed command for each check of WellFormed, and the worked examples of the spec. -/

namespace Sys2Proof.Tests

open Sys2Proof Sys2Proof.Machine

/-- One ill-formed command for each kind of check: every one is refused. -/
theorem test_ill_formed :
    [Instr.put (.ring .west 8192) 0 [], .put .mailbox 0 (List.replicate 65 0), .nop (.flume .west (2 ^ 20) 0 0) 0 [], .nop (.flume .west 0 2 0) 0 [],
     .nop (.flume .west 0 0 (2 ^ 24)) 0 [], .doorbell (.inst 1024) 0, .doorbell (.mgmt .west) 8192, .ringResetDone .west 8192,
     .cqHeadWrite (.inst 0) 8192 0, .ackTimer .west 0x80000, .ackTimer .east 0x7FFFF, .ackTimer .east 0x100000,
     .dataPacketArrive .west { pkt (.raw []) with dst := 2 ^ 20 } { bytes := [], fail := none }, .boomArrival .west { pkt (.raw []) with tc := 4 },
     .ackReceive .west { pkt (.raw []) with src := 2 ^ 20 }, .bndAck .west { bpkt 0 .ackUp with cctx := 4096 }, .bndResend .west 4096 0 0,
     .tokenRequest .west (.bndBurst 4096), .tokenRequest .west (.adapt 64), .packetForward .west (.link 64) (pkt (.raw [])),
     .boomHoldTimeout .west (2 ^ 20) 0, .boomHoldTimeout .west 0 4, .cooldownExpiry .west { src := 0, tc := 4, dstRouter := 0 }, .egressServe .west 128,
     .injectionServe .west 4, .agePromotion .west { inj := true, at_ := 4, tc := 0, who := 0 }, .agePromotion .west { inj := false, at_ := 128, tc := 0, who := 0 },
     .agePromotion .west { inj := true, at_ := 0, tc := 0, who := 1025 }].all (fun i => !i.wf) = true := by decide +kernel

/-- The same for the numbers of rings, gates, contexts and router records. -/
theorem test_ill_formed_numbers :
    [Instr.ringEntryFetch .west 8192 [], .ringConsumeRetry .west 8192 [], .ringResetSlotTimeout .west 8192, .shadowTimer .west 8192,
     .ringAgeExpiry .west 8192, .bndBackupTimeout .west 4096, .tokenRelease .west (.adapt 64), .boomEntryIdle .west (2 ^ 20) 0,
     .boomEntryIdle .west 0 4, .flowStateRetire .west { src := 2 ^ 20, tc := 0, dstRouter := 0 }, .semBoostApply .west 256,
     .gateEntryBoundary .west 128, .gateActivation .west 128, .flumePartialDiscard .west (2 ^ 20) 0 0, .flumePartialDiscard .west 0 2 0,
     .flumePartialDiscard .west 0 0 (2 ^ 24), .summaryReceive .west (.link 64) { router := 0, northUp := false, southUp := false, split := false, seq := 0, entries := [] },
     .summaryStale .west 64, .mapCloseTimeout .west 65536, .counterWrapSample .west 768 0 0, .counterWrapSample .west 0 4 0].all (fun i => !i.wf) = true := by decide +kernel

/-- The same for links, host links, functions and instances. -/
theorem test_ill_formed_units :
    [Instr.linkRetxTimeout .west 64, .identSend .west 64, .shelfSend .west 65, .timeSend .west 64, .onoffReceive .west 64 0,
     .onoffReceive .west 0 (2 ^ 17), .onoffSend .west 64 [], .laneSignalLoss .west 64 0 true, .laneSignalLoss .west 0 8 true, .laneSignalDetect .west 64,
     .linkRxReady .west 64 { dfeHigh := false, asked := false, lanes := [] }, .linkRxReady .west 0 { dfeHigh := false, asked := false, lanes := List.replicate 9 { phys := 0, inv := false } },
     .linkAlignDone .west 64 [], .linkAlignDone .west 0 (List.replicate 9 0), .onoffSend .west 0 (List.replicate 18 0),
     .trainTimeout .west 64, .noSignalTimeout .west 64, .noSignalRetry .west 64, .linkQuietEnd .west 64, .linkDrainEnd .west 64,
     .flr { port := 8, link := 0, fn := 0 }, .flr { port := 0, link := 4, fn := 0 }, .flr { port := 0, link := 0, fn := 257 },
     .hostLinkReset 8 0, .hostLinkReset 0 4, .perstNAssert 8, .perstNDeassert 8, .d3hotEntry { port := 8, link := 0, fn := 0 },
     .instanceResetDone 1024, .instanceQuiesceDone 1024, .atsInvalidation { port := 0, link := 4, fn := 0 } 0 0, .hostConfigRequest 8 { link := 0, what := .read },
     .hostConfigRequest 0 { link := 4, what := .read }, .hostConfigRequest 0 { link := 0, what := .atsEnable 512 true }, .hostConfigRequest 0 { link := 0, what := .msixEnable 512 true },
     .hostLinkTrained 8 0, .hostLinkTrained 0 4, .msixEnableCleared { port := 0, link := 0, fn := 257 }, .extest (.network .west 64),
     .extest (.host 8 0), .extest (.host 0 4)].all (fun i => !i.wf) = true := by decide +kernel

/-- The same for engines, memory, semaphores, interrupts, the Lookout and the peripheral ports. -/
theorem test_ill_formed_blocks :
    [Instr.lockstepMismatch .west 32, .pairReexecute .west 32, .pairRetest .west 32 true, .cacheRead .west 32 .west 0,
     .cacheRead .west 0 .west (2 * 402653184), .cacheWrite .west 0 .west (2 * 2752512 + 1), .cacheEvict .west 32 .west 0,
     .directoryEvict .west (2 * 402653184), .scrubUnit .west { sram := true, addr := 0, owner := some 1024 } .clean,
     .scrubUnit .west { sram := true, addr := 2752512, owner := none } .clean, .semAcquire .i3c .west 256, .semAcquire (.carrel .west 32 0) .west 0,
     .semAcquire (.carrel .west 0 4) .west 0, .semAcquire (.cp .west 2) .west 0, .semAcquire (.flume (2 ^ 16)) .west 0, .semRelease .i3c .west 256,
     .semArm .i3c .west 0 4 0, .semArm .i3c .west 0 0 4096, .semDisarm .i3c .west 256, .intSourceRaise .west 2048, .intRaiseWrite .west 2048,
     .intDelivery .west 2048, .msixMessageWritten .west 2048, .intClaim .west 2, .intComplete .west 2 0, .holdoffExpiry .west 128,
     .epochActivation .west 8, .imageAuthenticated 2 true true [], .standbyWake 1983, .standbyWake 2047, .lookoutReport .west 0x19 0 .blockFatal 0,
     .lookoutReport .west 0 0 .blockFatal 256, .lookoutWireBroken .west 0x19 .blockFatal, .lookoutPoll .west { blk := 0x19, agree := true }, .faultQuietEnd .west 0x19 0 true,
     .thermalSample .west 32 0, .voltageSample .west 48 0 .normal, .i3cRegRead (2 ^ 32) 4, .i3cRegWrite (2 ^ 32) 4 0, .i3cFlashRead (2 ^ 32) 0,
     .i3cFlashErase (2 ^ 32), .i3cFlashProgram (2 ^ 32) [], .i3cFlashProgram 0 (List.replicate 257 0), .i3cEntdaa 128,
     .eventHeadWrite 1024 0, .aclRegionWrite 64 0].all (fun i => !i.wf) = true := by decide +kernel

/-- Station 517.42.3 is 0x8_16A3 (worked example of 00_scope). -/
theorem test_station_address : 517 * 1024 + 42 * 16 + 3 = 0x816A3 ∧ grpOf 0x816A3 = 517 ∧ rtrOf 0x816A3 = 42 ∧ stnOf 0x816A3 = 3 := by decide

/-- The overwritten entry of the lap example (03): SEQ 0x133 with phase 0 where SEQ 0x123 with phase 1 is expected is LAPPED,
and its word 0 goes into the halt record. -/
theorem test_lapped_entry :
    judgeEntry { log2 := 4, consIdx := 3, consSeq := 0x123, consPhase := true } (.ok 0x01330002) = .halt 1 0x01330002 := by decide +kernel

/-- The entry that the ring of that example expects is owned: SEQ 0x123 with phase 1. -/
theorem test_owned_entry :
    judgeEntry { log2 := 4, consIdx := 3, consSeq := 0x123, consPhase := true } (.ok 0x01230102) = .owned 0x01230102 := by decide +kernel

/-- The exact-mode example (06): 2^53 + 1 − 2^53 + 1 of four fp64 members rounds to 2.0, in either tree. -/
theorem test_exact_sum :
    let h : BndHead := { opcode := 0x42, op := 0, ty := 5, exact := true, count := 1, root := 0 }
    let e := elemIn h
    let l := elemAdd h (e 0x4340000000000000) (e 0x3FF0000000000000)
    let r := elemAdd h (e 0xC340000000000000) (e 0x3FF0000000000000)
    l.val = 2 ^ 1127 + 2 ^ 1074 ∧ (elemOut h (elemAdd h l r)).1 = 0x4000000000000000 := by decide +kernel

/-- The spray example (07): with SCALE 32, costs 216, 74, 140 and 144 weigh 4, 64, 16 and 16. -/
theorem test_spray_weights : [216, 74, 140, 144].map (weightOf 32) = [4, 64, 16, 16] := by decide

/-- The bifurcation example (11): code 2 asked on all four ports gives 4, 2, 1 and 1 links. -/
theorem test_bifurcation : (bifurcate 0 [2, 2, 2, 2]).map codeLinks = [4, 2, 1, 1] := by decide

/-- The strap example (15): HST0 and HST4 at code 1, management on host port 4, link 1. -/
theorem test_straps :
    strapCodes 0x00180101 .west = [1, 0, 0, 0] ∧ strapCodes 0x00180101 .east = [1, 0, 0, 0] ∧ bits 0x00180101 17 5 = 12 := by decide

/-- The counter example (09): TLB_MISS at 2^48 − 1 wraps to 0 and is noted for capture when its interrupt is enabled. -/
theorem test_counter_wraps :
    let s := setReg (setReg run .west (pmcCnt 449) (2 ^ 48 - 1)) .west (pmcCfg 449) (regVal run .west (pmcCfg 449) ||| 2 ^ 31)
    regVal (pmc s .west 449 1) .west (pmcCnt 449) = 0 := by decide +kernel

/-- The semaphore example (12): semaphore 17 held by instance 12, VF 4 on link 0 of HST3, reads 0x8000_0830_0000_0000. -/
theorem test_semaphore_word :
    semWord (onW fun d => { d with eng := { sems := [(17, { holder := some (.host { port := 3, link := 0, fn := 4 }) })] } }) .west 17
      = 0x8000083000000000 := by decide +kernel

/-- The record of the preempted PUT (02): CC_OK, BYTES 0x00_4000_0000, FAIL_INDEX 0x1F, RESULT 0. -/
theorem test_put_record : bits (completionRecord 0xAB 0x40000000 0x1F 0 0 0 0 0 0) 64 64 = 0x00001F0040000000 := by decide +kernel

/-- A NOP of ring 1 completes at once: its record is the first of completion ring 1. -/
theorem test_nop_completes : (cqRing (after (exec (.nop (.ring .west 1) 0x60 []) run)) .west 1).written = 1 := by decide +kernel

/-- A PUT_INLINE sends one packet and stays until it is delivered. -/
theorem test_put_inline_sends :
    let t := after (exec (.putInline (.ring .west 1)
      (blk [(16, 0, 64, 0x20), (24, 0, 32, 29360129), (28, 0, 20, 0x100), (28, 20, 6, 8), (32, 0, 64, 0x11223344)]) []) run)
    (opOf t 1).phase = .sent ∧ (conn t .west 0x100).unacked.length = 1 := by decide +kernel

/-- TALLY_WRITE gives the Tally its value. -/
theorem test_tally_write :
    tally (after (exec (.tallyWrite (.ring .west 1) (blk [(16, 0, 24, 16), (20, 0, 48, 5)]) []) run)) 16 = { val := 5 } := by decide +kernel

/-- A step on an empty queue moves the clock by 2 ns (the model's choice). -/
theorem test_idle_step : (after (step State.reset)).now = 2 := by decide +kernel

/-- The pairs 00, 01, 11 and 10 go out as −3, −1, +1 and +3, and precoded as 0, 1, 1 and 2 after p_(−1) = 0 (R280), by hand. -/
theorem test_lane_levels :
    laneLevels 2 true [false, false, false, true, true, true, true, false] = [-3, -1, 1, 3] ∧
    laneLevels 0 false [false, false, false, true, true, true, true, false] = [-3, -1, -1, 1] := by decide

/-- The check value of the IEEE 802.3 CRC-32 over the digits 1 to 9 (R289). -/
theorem test_crc : crcBytes 0xFFFFFFFF [0x31, 0x32, 0x33, 0x34, 0x35, 0x36, 0x37, 0x38, 0x39] ^^^ 0xFFFFFFFF = 0xCBF43926 := by
  decide +kernel

/-- A descriptor with O 1, L 1 and PINF, and a limb of all ones, is −2^64 with that flag (R195), by hand. -/
theorem test_exact_element : wireElem 0x2041 [0xFFFFFFFFFFFFFFFF] =
    { val := -18446744073709551616, nan := false, pinf := true, ninf := false, anz := false } := by decide

end Sys2Proof.Tests
end

