-- ==== Sys2Proof/Tests/Witness.lean ====
section
/-! SUPPORT. For every obligation whose clauses have hypotheses, states and operands that meet them: one existence per clause. -/

namespace Sys2Proof.Tests

open Sys2Proof Sys2Proof.Machine

set_option Elab.async false

/-- Every clause of `Obligations.IdentityAndPortsAct` has its case. -/
theorem witness_IdentityAndPortsAct :
    (∃ (s : State) (b : Block),
      let B := rowBlk b 0xE0 []
      mbxReady s B = true ∧
      zeros B [(21, 2, 6), (22, 5, 3), (23, 1, 7)] = true ∧
      zeroFrom B 24 = true ∧
      identityFree s = true ∧
      fld B 23 0 1 = 0) ∧
    (∃ (s : State) (b : Block),
      let B := rowBlk b 0xE0 []
      mbxReady s B = true ∧
      zeros B [(21, 2, 6), (22, 5, 3), (23, 1, 7)] = true ∧
      zeroFrom B 24 = true ∧
      identityFree s = true ∧
      fld B 23 0 1 = 1 ∧
      fld B 20 0 24 = 0) ∧
    (∃ (s : State) (b : Block),
      let B := rowBlk b 0xE1 [(21, 0, 3, 0)]
      let d := tgtDie B
      let k := portK (fld B 20 0 7)
      mbxReady s B = true ∧
      portCtlForm s B = true ∧
      portBridge (fld B 20 0 7) = none ∧
      (link s d k).st = .down ∧
      (link s d k).adminEn = false) ∧
    (∃ (s : State) (b : Block),
      let B := rowBlk b 0xE1 [(21, 0, 3, 1)]
      let d := tgtDie B
      let k := portK (fld B 20 0 7)
      mbxReady s B = true ∧
      portCtlForm s B = true ∧
      portBridge (fld B 20 0 7) = none ∧
      ((link s d k).st ≠ .down ∨ (link s d k).adminEn = true)) ∧
    (∃ (s : State) (b : Block),
      let B := rowBlk b 0xE1 [(21, 0, 3, 2)]
      let d := tgtDie B
      let k := portK (fld B 20 0 7)
      mbxReady s B = true ∧
      portCtlForm s B = true ∧
      portBridge (fld B 20 0 7) = none ∧
      (link s d k).st = .up) ∧
    (∃ (s : State) (b : Block),
      let B := rowBlk b 0xE1 [(21, 0, 3, 3)]
      let d := tgtDie B
      let k := portK (fld B 20 0 7)
      mbxReady s B = true ∧
      portCtlForm s B = true ∧
      portBridge (fld B 20 0 7) = none ∧
      ((link s d k).st = .up ∨ (link s d k).st = .quarantine)) ∧
    (∃ (s : State) (b : Block),
      let B := rowBlk b 0xE1 [(21, 0, 3, 4)]
      let d := tgtDie B
      let k := portK (fld B 20 0 7)
      mbxReady s B = true ∧
      portCtlForm s B = true ∧
      portBridge (fld B 20 0 7) = none ∧
      (link s d k).st = .failed) ∧
    (∃ (s : State) (b : Block),
      let B := rowBlk b 0xE1 [(21, 0, 3, 5)]
      let d := tgtDie B
      mbxReady s B = true ∧
      portCtlForm s B = true ∧
      portBridge (fld B 20 0 7) = none ∧
      (link s d (2 * (fld B 20 0 7 % 32))).st = .down ∧
      (link s d (2 * (fld B 20 0 7 % 32) + 1)).st = .down) ∧
    (∃ (s : State) (b : Block) (g : Bridge) (t : State),
      let B := rowBlk b 0xE1 [(21, 0, 3, 0)]
      let p := mbxOffer s B
      mbxReady s B = true ∧
      portCtlForm s B = true ∧
      portBridge (fld B 20 0 7) = some g ∧
      bridgeEnable p.1 g = some t) ∧
    (∃ (s : State) (b : Block) (g : Bridge) (t : State),
      let B := rowBlk b 0xE1 [(21, 0, 3, 1)]
      let p := mbxOffer s B
      mbxReady s B = true ∧
      portCtlForm s B = true ∧
      portBridge (fld B 20 0 7) = some g ∧
      bridgeDisable p.1 g = some t) ∧
    (∃ (s : State) (b : Block) (g : Bridge) (t : State),
      let B := rowBlk b 0xE1 [(21, 0, 3, 4)]
      let p := mbxOffer s B
      mbxReady s B = true ∧
      portCtlForm s B = true ∧
      portBridge (fld B 20 0 7) = some g ∧
      bridgeRelease p.1 g = some t) :=
  ⟨⟨bare, blk [(20, 0, 10, 1023), (22, 0, 5, 31)], by decide +kernel⟩,
   ⟨bare, blk [(23, 0, 1, 1)], by decide +kernel⟩,
   ⟨bare, blk [(20, 0, 7, 31)], by decide +kernel⟩,
   ⟨withLink { st := .up }, blk [], by decide +kernel⟩,
   ⟨withLink { st := .up }, blk [], by decide +kernel⟩,
   ⟨withLink { st := .quarantine }, blk [], by decide +kernel⟩,
   ⟨withLink { st := .failed }, blk [], by decide +kernel⟩,
   ⟨bare, blk [(22, 0, 2, 1), (24, 0, 10, 128)], by decide +kernel⟩,
   ⟨bare, blk [(20, 0, 7, 0x7E)], .north, (bridgeEnable (mbxOffer bare (rowBlk (blk [(20, 0, 7, 0x7E)]) 0xE1 [(21, 0, 3, 0)])).1 .north).getD bare, by refine ⟨by decide +kernel, by decide +kernel, by decide +kernel, rfl⟩⟩,
   ⟨bridgesUp, blk [(20, 0, 7, 0x7F)], .south, (bridgeDisable (mbxOffer bridgesUp (rowBlk (blk [(20, 0, 7, 0x7F)]) 0xE1 [(21, 0, 3, 1)])).1 .south).getD bare, by refine ⟨by decide +kernel, by decide +kernel, by decide +kernel, rfl⟩⟩,
   ⟨bridgesFailed, blk [(20, 0, 7, 0x7F)], .south, (bridgeRelease (mbxOffer bridgesFailed (rowBlk (blk [(20, 0, 7, 0x7F)]) 0xE1 [(21, 0, 3, 4)])).1 .south).getD bare, by refine ⟨by decide +kernel, by decide +kernel, by decide +kernel, rfl⟩⟩⟩

/-- Every clause of `Obligations.EpochsAndStagedSetsAct` has its case. -/
theorem witness_EpochsAndStagedSetsAct :
    (∃ (s : State) (b : Block),
      let B := rowBlk b 0xE3 [(20, 4, 1, 0)]
      let d := tgtDie B
      let n := fld B 20 0 3
      mbxReady s B = true ∧
      zeros B [(20, 5, 3), (21, 0, 24), (36, 0, 32), (56, 0, 64)] = true ∧
      bothDies B = false ∧
      n ∉ [3, 6, 7] ∧
      activateRefusal s d n B = none ∧
      bankWhole s d n (dom s d n).staged = true) ∧
    (∃ (s : State) (b : Block),
      let B := rowBlk b 0xE3 [(20, 4, 1, 1)]
      let d := tgtDie B
      let n := fld B 20 0 3
      mbxReady s B = true ∧
      zeros B [(20, 5, 3), (21, 0, 24), (36, 0, 32), (56, 0, 64)] = true ∧
      bothDies B = false ∧
      n ∉ [3, 6, 7] ∧
      fld B 24 0 256 = 0 ∧
      (dom s d n).pend.isSome = true) ∧
    (∃ (s : State) (b : Block) (l : List GateEntry),
      let B := rowBlk b 0xE4 []
      let d := tgtDie B
      let k := portK (fld B 20 0 7)
      mbxReady s B = true ∧
      gateStageForm B [] = true ∧
      ((gateWords B []).take (fld B 22 0 9)).mapM decGateEntry = some l ∧
      gateListOk l = true ∧
      (gateOf s d k).pending = false) ∧
    (∃ (s : State) (b : Block),
      let B := rowBlk b 0xE5 [(21, 0, 2, 0)]
      let d := tgtDie B
      let k := portK (fld B 20 0 7)
      mbxReady s B = true ∧
      zeros B [(20, 7, 1), (21, 2, 6), (22, 0, 16)] = true ∧
      zeroFrom B 32 = true ∧
      bothDies B = false ∧
      portOn d (fld B 20 0 7) = true ∧
      (gateOf s d k).pending = false ∧
      (gateOf s d k).stagedValid = true ∧
      actTimeSub s (fld B 24 0 64) = none) ∧
    (∃ (s : State) (b : Block),
      let B := rowBlk b 0xE5 [(21, 0, 2, 1)]
      let d := tgtDie B
      let k := portK (fld B 20 0 7)
      mbxReady s B = true ∧
      zeros B [(20, 7, 1), (21, 2, 6), (22, 0, 16)] = true ∧
      zeroFrom B 32 = true ∧
      bothDies B = false ∧
      portOn d (fld B 20 0 7) = true ∧
      fld B 24 0 64 = 0 ∧
      (gateOf s d k).pending = true) ∧
    (∃ (s : State) (b : Block),
      let B := rowBlk b 0xE5 [(21, 0, 2, 2)]
      let d := tgtDie B
      let k := portK (fld B 20 0 7)
      mbxReady s B = true ∧
      zeros B [(20, 7, 1), (21, 2, 6), (22, 0, 16)] = true ∧
      zeroFrom B 32 = true ∧
      bothDies B = false ∧
      portOn d (fld B 20 0 7) = true ∧
      (gateOf s d k).pending = false ∧
      actTimeSub s (fld B 24 0 64) = none) ∧
    (∃ (s : State) (b : Block),
      let B := rowBlk b 0xE2 [(21, 0, 2, 0)]
      let d := tgtDie B
      let n := fld B 20 0 3
      mbxReady s B = true ∧
      zeros B [(20, 3, 5), (21, 2, 6), (22, 12, 4), (56, 0, 64)] = true ∧
      bothDies B = false ∧
      n ∉ [3, 6, 7] ∧
      (dom s d n).pend = none ∧
      fld B 22 0 12 = 0) ∧
    (∃ (s : State) (b : Block),
      let B := rowBlk b 0xE2 [(21, 0, 2, 1)]
      let d := tgtDie B
      let n := fld B 20 0 3
      mbxReady s B = true ∧
      zeros B [(20, 3, 5), (21, 2, 6), (22, 12, 4), (56, 0, 64)] = true ∧
      bothDies B = false ∧
      n ∉ [3, 6, 7] ∧
      (dom s d n).pend = none ∧
      fld B 22 0 12 = 0 ∧
      (n = 0 → routingJoint s d (domContent s d n) = true)) ∧
    (∃ (s : State) (b : Block) (rs : List CfgRec),
      let B := rowBlk b 0xE2 [(21, 0, 2, 2)]
      let d := tgtDie B
      let n := fld B 20 0 3
      mbxReady s B = true ∧
      zeros B [(20, 3, 5), (21, 2, 6), (22, 12, 4), (56, 0, 64)] = true ∧
      bothDies B = false ∧
      n ∉ [3, 6, 7] ∧
      (dom s d n).pend = none ∧
      fld B 22 0 12 ≤ 32 ∧
      (dom s d n).stagedValid = true ∧
      parseStream s d n false 1024 ((streamBytes B []).take (fld B 22 0 12)) = some rs ∧
      (n = 0 → routingJoint s d (rs.foldl putRec (dom s d n).staged) = true)) ∧
    (∃ (s : State) (b : Block) (rs : List CfgRec),
      let B := rowBlk b 0xE2 [(21, 0, 2, 3)]
      let d := tgtDie B
      let n := fld B 20 0 3
      mbxReady s B = true ∧
      zeros B [(20, 3, 5), (21, 2, 6), (22, 12, 4), (56, 0, 64)] = true ∧
      bothDies B = false ∧
      n ∉ [3, 6, 7] ∧
      (dom s d n).pend = none ∧
      fld B 22 0 12 ≤ 32 ∧
      (dom s d n).stagedValid = true ∧
      parseStream s d n true 1024 ((streamBytes B []).take (fld B 22 0 12)) = some rs ∧
      (n = 0 → routingJoint s d ((dom s d n).staged.filter fun r => !(rs.any fun y => decide (y.ty = r.ty ∧ y.index = r.index))) = true)) :=
  ⟨⟨stagedDom, blk [(20, 0, 3, 4), (24, 0, 64, 10000), (32, 0, 32, 1), (40, 0, 64, 5126029364455812581), (48, 0, 64, 0x55)], by decide +kernel⟩,
   ⟨(onW fun d => { d with epc := { doms := [(4, { pend := some { actTime := 5000, epoch := 1, tag := 0, requireLock := false } })] } }), blk [(20, 0, 3, 4)], by decide +kernel⟩,
   ⟨bare, blk [(22, 0, 9, 1), (24, 0, 64, 2 ^ 49 - 2 ^ 32 + 64)], [{ dur := 64, mask := 0x1FFFF }], by decide +kernel⟩,
   ⟨withGate { stagedValid := true }, blk [(24, 0, 64, 10000)], by decide +kernel⟩,
   ⟨withGate { pending := true, pendTime := 10000 }, blk [], by decide +kernel⟩,
   ⟨bare, blk [(24, 0, 64, 60000000000)], by decide +kernel⟩,
   ⟨bare, blk [(20, 0, 3, 5)], by decide +kernel⟩,
   ⟨bare, blk [(20, 0, 3, 0)], by decide +kernel⟩,
   ⟨(onW fun d => { d with epc := { doms := [(4, { stagedValid := true })] } }), blk [(20, 0, 3, 4)], [], by decide +kernel⟩,
   ⟨(onW fun d => { d with epc := { doms := [(4, { stagedValid := true })] } }), blk [(20, 0, 3, 4)], [], by decide +kernel⟩⟩

/-- Every clause of `Obligations.InstanceLifeActs` has its case. -/
theorem witness_InstanceLifeActs :
    (∃ (s : State) (b : Block),
      let B := rowBlk b 0xE6 [(22, 0, 3, 0)]
      let i := fld B 20 0 10
      let f : FnId := { port := fld B 24 0 3, link := fld B 24 3 2, fn := fld B 25 0 9 }
      mbxReady s B = true ∧
      instCtlForm s B = true ∧
      (inst s i).st = .absent ∧
      f ≠ mgmtFn s ∧
      (fnOf s f).inst = none ∧
      fnExists s f = true ∧
      s.sys.hbmLost.contains (portDie f.port).idx = false) ∧
    (∃ (s : State) (b : Block),
      let B := rowBlk b 0xE6 [(22, 0, 3, 1)]
      let d := tgtDie B
      let i := fld B 20 0 10
      mbxReady s B = true ∧
      instCtlForm s B = true ∧
      instDie s i = d ∧
      (inst s i).st = .configuring) ∧
    (∃ (s : State) (b : Block),
      let B := rowBlk b 0xE6 [(22, 0, 3, 2)]
      let d := tgtDie B
      let i := fld B 20 0 10
      mbxReady s B = true ∧
      instCtlForm s B = true ∧
      instDie s i = d ∧
      (inst s i).st = .configuring) ∧
    (∃ (s : State) (b : Block),
      let B := rowBlk b 0xE6 [(22, 0, 3, 2)]
      let d := tgtDie B
      let i := fld B 20 0 10
      mbxReady s B = true ∧
      instCtlForm s B = true ∧
      instDie s i = d ∧
      (inst s i).st = .running) ∧
    (∃ (s : State) (b : Block),
      let B := rowBlk b 0xE6 [(22, 0, 3, 3)]
      let d := tgtDie B
      let i := fld B 20 0 10
      mbxReady s B = true ∧
      instCtlForm s B = true ∧
      instDie s i = d ∧
      (inst s i).st = .quiesced) ∧
    (∃ (s : State) (b : Block),
      let B := rowBlk b 0xE6 [(22, 0, 3, 4)]
      let d := tgtDie B
      let i := fld B 20 0 10
      mbxReady s B = true ∧
      instCtlForm s B = true ∧
      instDie s i = d ∧
      (inst s i).st = .quiesced) ∧
    (∃ (s : State) (b : Block),
      let B := rowBlk b 0xE6 [(22, 0, 3, 5)]
      let d := tgtDie B
      let i := fld B 20 0 10
      mbxReady s B = true ∧
      instCtlForm s B = true ∧
      instDie s i = d ∧
      (inst s i).st = .quiesced) :=
  ⟨⟨bare, blk [(20, 0, 10, 7), (24, 0, 3, 1), (28, 0, 19, 100), (32, 0, 16, 10), (34, 0, 4, 15)], by decide +kernel⟩,
   ⟨withInst { st := .configuring }, blk [(20, 0, 10, 7)], by decide +kernel⟩,
   ⟨withInst { st := .configuring }, blk [(20, 0, 10, 7)], by decide +kernel⟩,
   ⟨withInst { st := .running }, blk [(20, 0, 10, 7)], by decide +kernel⟩,
   ⟨withInst { st := .quiesced }, blk [(20, 0, 10, 7)], by decide +kernel⟩,
   ⟨withInst { st := .quiesced }, blk [(20, 0, 10, 7), (28, 0, 19, 100), (32, 0, 16, 10), (34, 0, 4, 15)], by decide +kernel⟩,
   ⟨withInst { st := .quiesced }, blk [(20, 0, 10, 7)], by decide +kernel⟩⟩

/-- Every clause of `Obligations.GrantsAndWindowsAct` has its case. -/
theorem witness_GrantsAndWindowsAct :
    (∃ (s : State) (b : Block),
      let B := rowBlk b 0xE7 [(22, 0, 4, 0), (41, 0, 1, 0)]
      let i := fld B 20 0 10
      mbxReady s B = true ∧
      zeros B [(20, 10, 6), (22, 4, 4), (23, 0, 8)] = true ∧
      bothDies B = false ∧
      (inst s i).st ≠ .absent ∧
      zeros B [(24, 20, 12), (40, 3, 5), (41, 1, 7), (28, 20, 12), (32, 26, 6), (36, 20, 12)] = true ∧
      zeroFrom B 42 = true ∧
      fld B 40 0 3 ≤ 4 ∧
      fld B 32 4 10 = i ∧
      holdsStation s (connDie (fld B 24 0 20)) (fld B 32 0 4) = true ∧
      connDie (fld B 24 0 20) = instDie s i ∧
      (conn s (connDie (fld B 24 0 20)) (fld B 24 0 20)).st = .absent) ∧
    (∃ (s : State) (b : Block),
      let B := rowBlk b 0xE7 [(22, 0, 4, 0), (41, 0, 1, 1)]
      let i := fld B 20 0 10
      mbxReady s B = true ∧
      zeros B [(20, 10, 6), (22, 4, 4), (23, 0, 8)] = true ∧
      bothDies B = false ∧
      (inst s i).st ≠ .absent ∧
      zeros B [(24, 20, 12), (40, 3, 5), (41, 1, 7)] = true ∧
      zeroFrom B 42 = true ∧
      fld B 28 0 96 = 0 ∧
      fld B 40 0 8 = 0 ∧
      (conn s (connDie (fld B 24 0 20)) (fld B 24 0 20)).st ∉ [.absent, .draining] ∧
      (conn s (connDie (fld B 24 0 20)) (fld B 24 0 20)).inst = i) ∧
    (∃ (s : State) (b : Block),
      let B := rowBlk b 0xE7 [(22, 0, 4, 1)]
      let i := fld B 20 0 10
      mbxReady s B = true ∧
      zeros B [(20, 10, 6), (22, 4, 4), (23, 0, 8)] = true ∧
      bothDies B = false ∧
      (inst s i).st ≠ .absent ∧
      zeros B [(24, 17, 15), (28, 25, 7), (32, 24, 8)] = true ∧
      zeroFrom B 40 = true ∧
      fld B 24 0 17 ≤ 65536 ∧
      fld B 28 0 25 ≤ 16777216 ∧
      fld B 32 0 24 ≤ 8388608 ∧
      ((inst s i).st = .configuring ∨ (inst s i).st = .quiesced) ∧
      quotaSum s (instDie s i) i (·.maxCtx) + fld B 24 0 17 ≤ 131072 ∧
      quotaSum s (instDie s i) i (·.maxPosted) + fld B 28 0 25 ≤ 16777216 ∧
      quotaSum s (instDie s i) i (·.maxUnexp) + fld B 32 0 24 ≤ 8388608 ∧
      quotaSum s (instDie s i) i (·.maxUnexpKib) + fld B 36 0 32 ≤ 1024 * bits (regVal s (instDie s i) 0xC00018) 0 16) ∧
    (∃ (s : State) (b : Block),
      let B := rowBlk b 0xE7 [(22, 0, 4, 2), (32, 0, 1, 0)]
      let i := fld B 20 0 10
      mbxReady s B = true ∧
      zeros B [(20, 10, 6), (22, 4, 4), (23, 0, 8)] = true ∧
      bothDies B = false ∧
      (inst s i).st ≠ .absent ∧
      zeros B [(24, 12, 20), (28, 18, 14), (32, 1, 7)] = true ∧
      zeroFrom B 33 = true ∧
      ((inst s i).colls.any fun g => decide (g.1 = fld B 24 0 12)) = false ∧
      (inst s i).colls.length < 64) ∧
    (∃ (s : State) (b : Block),
      let B := rowBlk b 0xE7 [(22, 0, 4, 2), (32, 0, 1, 1)]
      let i := fld B 20 0 10
      mbxReady s B = true ∧
      zeros B [(20, 10, 6), (22, 4, 4), (23, 0, 8)] = true ∧
      bothDies B = false ∧
      (inst s i).st ≠ .absent ∧
      zeros B [(24, 12, 20), (28, 18, 14), (32, 1, 7)] = true ∧
      zeroFrom B 33 = true ∧
      fld B 28 0 18 = 0 ∧
      ((inst s i).colls.any fun g => decide (g.1 = fld B 24 0 12)) = true) ∧
    (∃ (s : State) (b : Block),
      let B := rowBlk b 0xE7 [(22, 0, 4, 3), (27, 0, 1, 0)]
      let i := fld B 20 0 10
      mbxReady s B = true ∧
      zeros B [(20, 10, 6), (22, 4, 4), (23, 0, 8)] = true ∧
      bothDies B = false ∧
      (inst s i).st ≠ .absent ∧
      zeros B [(24, 11, 5), (26, 4, 4), (27, 1, 7)] = true ∧
      zeroFrom B 28 = true ∧
      fld B 24 0 11 ≤ 1535 ∧
      tget 0 (inst s i).counters (fld B 26 0 4) = 0) ∧
    (∃ (s : State) (b : Block),
      let B := rowBlk b 0xE7 [(22, 0, 4, 3), (27, 0, 1, 1)]
      let i := fld B 20 0 10
      mbxReady s B = true ∧
      zeros B [(20, 10, 6), (22, 4, 4), (23, 0, 8)] = true ∧
      bothDies B = false ∧
      (inst s i).st ≠ .absent ∧
      zeros B [(24, 11, 5), (26, 4, 4), (27, 1, 7)] = true ∧
      zeroFrom B 28 = true ∧
      fld B 24 0 11 ≤ 1535 ∧
      tget 0 (inst s i).counters (fld B 26 0 4) ≠ 0) ∧
    (∃ (s : State) (b : Block),
      let B := rowBlk b 0xE7 [(22, 0, 4, 4), (32, 0, 1, 0)]
      let i := fld B 20 0 10
      let r : Nat × Nat := (fld B 24 0 22, fld B 28 0 23)
      mbxReady s B = true ∧
      zeros B [(20, 10, 6), (22, 4, 4), (23, 0, 8)] = true ∧
      bothDies B = false ∧
      (inst s i).st ≠ .absent ∧
      zeros B [(24, 22, 10), (28, 23, 9), (32, 1, 7)] = true ∧
      zeroFrom B 33 = true ∧
      1 ≤ r.2 ∧
      r.1 + r.2 ≤ 4194304 ∧
      tallyDie r.1 = instDie s i ∧
      tallyDie (r.1 + r.2 - 1) = instDie s i ∧
      (s.insts.any fun (_, y) => y.tallies.any (rangesMeet r)) = false ∧
      (inst s i).tallies.length < 16) ∧
    (∃ (s : State) (b : Block),
      let B := rowBlk b 0xE7 [(22, 0, 4, 4), (32, 0, 1, 1)]
      let i := fld B 20 0 10
      let r : Nat × Nat := (fld B 24 0 22, fld B 28 0 23)
      mbxReady s B = true ∧
      zeros B [(20, 10, 6), (22, 4, 4), (23, 0, 8)] = true ∧
      bothDies B = false ∧
      (inst s i).st ≠ .absent ∧
      zeros B [(24, 22, 10), (28, 23, 9), (32, 1, 7)] = true ∧
      zeroFrom B 33 = true ∧
      1 ≤ r.2 ∧
      r.1 + r.2 ≤ 4194304 ∧
      tallyDie r.1 = instDie s i ∧
      tallyDie (r.1 + r.2 - 1) = instDie s i ∧
      r ∈ (inst s i).tallies) ∧
    (∃ (s : State) (b : Block),
      let B := rowBlk b 0xE7 [(22, 0, 4, 5), (25, 0, 1, 0)]
      let i := fld B 20 0 10
      mbxReady s B = true ∧
      zeros B [(20, 10, 6), (22, 4, 4), (23, 0, 8)] = true ∧
      bothDies B = false ∧
      (inst s i).st ≠ .absent ∧
      zeros B [(24, 4, 4), (25, 1, 7)] = true ∧
      zeroFrom B 26 = true ∧
      4 ≤ fld B 24 0 4 ∧
      fld B 24 0 4 ∉ (inst s i).vstations) ∧
    (∃ (s : State) (b : Block),
      let B := rowBlk b 0xE7 [(22, 0, 4, 5), (25, 0, 1, 1)]
      let i := fld B 20 0 10
      mbxReady s B = true ∧
      zeros B [(20, 10, 6), (22, 4, 4), (23, 0, 8)] = true ∧
      bothDies B = false ∧
      (inst s i).st ≠ .absent ∧
      zeros B [(24, 4, 4), (25, 1, 7)] = true ∧
      zeroFrom B 26 = true ∧
      4 ≤ fld B 24 0 4 ∧
      fld B 24 0 4 ∈ (inst s i).vstations) ∧
    (∃ (s : State) (b : Block),
      let B := rowBlk b 0xE7 [(22, 0, 4, 6)]
      let p := mbxOffer s B
      let i := fld B 20 0 10
      let w := fld B 24 0 5
      let old := tget {} (inst s i).wins w
      let new := winOfGrant B (nextNonce old.nonce)
      let t := readsOld (tlbDrop (modInst p.1 i fun x => { x with wins := tset {} x.wins w new }) (instDie s i) i (some w)) i (some w)
      mbxReady s B = true ∧
      zeros B [(20, 10, 6), (22, 4, 4), (23, 0, 8)] = true ∧
      bothDies B = false ∧
      (inst s i).st ≠ .absent ∧
      winForm B = true ∧
      (new.valid = true → ((inst s i).wins.any fun (v, y) => decide (v ≠ w) && y.valid && rangesMeet (new.base, new.size * 65536) (y.base, y.size * 65536)) = false) ∧
      (new.valid = false → old.valid = true) ∧
      winBusy t i w = false) ∧
    (∃ (s : State) (b : Block),
      let B := rowBlk b 0xE7 [(22, 0, 4, 6)]
      let p := mbxOffer s B
      let i := fld B 20 0 10
      let w := fld B 24 0 5
      let old := tget {} (inst s i).wins w
      let new := winOfGrant B (nextNonce old.nonce)
      let t := readsOld (tlbDrop (modInst p.1 i fun x => { x with wins := tset {} x.wins w new }) (instDie s i) i (some w)) i (some w)
      mbxReady s B = true ∧
      zeros B [(20, 10, 6), (22, 4, 4), (23, 0, 8)] = true ∧
      bothDies B = false ∧
      (inst s i).st ≠ .absent ∧
      winForm B = true ∧
      (new.valid = true → ((inst s i).wins.any fun (v, y) => decide (v ≠ w) && y.valid && rangesMeet (new.base, new.size * 65536) (y.base, y.size * 65536)) = false) ∧
      (new.valid = false → old.valid = true) ∧
      winBusy t i w = true) ∧
    (∃ (n : Nat),
      n < 2 ^ 17) :=
  ⟨⟨withInst { st := .running }, blk [(20, 0, 10, 7), (24, 0, 20, 0x100), (28, 0, 20, 0x101), (32, 0, 4, 1), (32, 4, 10, 7), (32, 14, 10, 7), (36, 0, 20, 5185), (40, 0, 3, 4)], by decide +kernel⟩,
   ⟨onW (fun d => { d with conns := [(0x100, { st := .established, inst := 7 })] }) (withInst { st := .running }), blk [(20, 0, 10, 7), (24, 0, 20, 0x100)], by decide +kernel⟩,
   ⟨withInst { st := .configuring }, blk [(20, 0, 10, 7), (24, 0, 17, 65536), (28, 0, 25, 16777216), (32, 0, 24, 8388608), (36, 0, 32, 0)], by decide +kernel⟩,
   ⟨withInst { st := .running }, blk [(20, 0, 10, 7), (24, 0, 12, 4095), (28, 0, 18, 262143)], by decide +kernel⟩,
   ⟨withInst { st := .running, colls := [(5, 1)] }, blk [(20, 0, 10, 7), (24, 0, 12, 5)], by decide +kernel⟩,
   ⟨withInst { st := .running }, blk [(20, 0, 10, 7), (24, 0, 11, 1535), (26, 0, 4, 15)], by decide +kernel⟩,
   ⟨withInst { st := .running, counters := [(15, 1536)] }, blk [(20, 0, 10, 7), (24, 0, 11, 1535), (26, 0, 4, 15)], by decide +kernel⟩,
   ⟨withInst { st := .running }, blk [(20, 0, 10, 7), (28, 0, 23, 0x200000)], by decide +kernel⟩,
   ⟨withInst { st := .running, tallies := [(16, 16)] }, blk [(20, 0, 10, 7), (24, 0, 22, 16), (28, 0, 23, 16)], by decide +kernel⟩,
   ⟨withInst { st := .running }, blk [(20, 0, 10, 7), (24, 0, 4, 4)], by decide +kernel⟩,
   ⟨withInst { st := .running, vstations := [15] }, blk [(20, 0, 10, 7), (24, 0, 4, 15)], by decide +kernel⟩,
   ⟨withInst { st := .running }, blk [(20, 0, 10, 7), (24, 0, 5, 31), (25, 0, 8, 0x1F), (32, 0, 64, 0x10000), (40, 0, 37, 16), (48, 0, 64, 0x4000000)], by decide +kernel⟩,
   ⟨{ withInst { st := .running, wins := [(31, win0)] } with reads := [{ no := 0, owner := .op 9, who := 7, port := 1, link := 0, addr := 0, len := 64, win := some 31, issued := true }] }, blk [(20, 0, 10, 7), (24, 0, 5, 31), (25, 0, 8, 0x1F), (32, 0, 64, 0x10000), (40, 0, 37, 16), (48, 0, 64, 0x4000000)], by decide +kernel⟩,
   ⟨2 ^ 17 - 1, by decide +kernel⟩⟩

/-- Every clause of `Obligations.ModesRegistersAndCruiseAct` has its case. -/
theorem witness_ModesRegistersAndCruiseAct :
    (∃ (s : State) (b : Block),
      let B := rowBlk b 0xE8 [(20, 0, 3, 0)]
      mbxReady s B = true ∧
      zeros B [(20, 3, 5)] = true ∧
      zeroFrom B 21 = true ∧
      (s.sys.mode = .service ∨ s.sys.mode = .degraded)) ∧
    (∃ (s : State) (b : Block),
      let B := rowBlk b 0xE8 [(20, 0, 3, 1)]
      mbxReady s B = true ∧
      zeros B [(20, 3, 5)] = true ∧
      zeroFrom B 21 = true ∧
      s.sys.mode = .drain) ∧
    (∃ (s : State) (b : Block),
      let B := rowBlk b 0xE8 [(20, 0, 3, 2)]
      let p := mbxOffer s B
      mbxReady s B = true ∧
      zeros B [(20, 3, 5)] = true ∧
      zeroFrom B 21 = true ∧
      s.sys.mode = .drain ∧
      standbyRefusal p.1 = none) ∧
    (∃ (s : State) (b : Block),
      let B := rowBlk b 0xE8 [(20, 0, 3, 3)]
      mbxReady s B = true ∧
      zeros B [(20, 3, 5)] = true ∧
      zeroFrom B 21 = true ∧
      s.sys.mode ≠ .standby) ∧
    (∃ (s : State) (b : Block),
      let B := rowBlk b 0xE8 [(20, 0, 3, 4)]
      mbxReady s B = true ∧
      zeros B [(20, 3, 5)] = true ∧
      zeroFrom B 21 = true ∧
      (s.sys.mode = .service ∨ s.sys.mode = .degraded ∨ s.sys.mode = .drain)) ∧
    (∃ (s : State) (b : Block) (t : State) (v : Nat),
      let B := rowBlk b 0xE9 []
      let p := mbxOffer s B
      mbxReady s B = true ∧
      regCmdForm B false = true ∧
      regReadAs p.1 (.host (mgmtFn s)) false (fld B 20 0 28) (fld B 24 0 8) = (t, .done v)) ∧
    (∃ (s : State) (b : Block) (t : State) (v : Nat),
      let B := rowBlk b 0xEA []
      let p := mbxOffer s B
      mbxReady s B = true ∧
      regCmdForm B true = true ∧
      regWriteAs p.1 (.host (mgmtFn s)) false (portDie (mgmtFn s).port) (fld B 20 0 28) (fld B 24 0 8) (fld B 32 0 64) = (t, .done v)) ∧
    (∃ (s : State) (b : Block),
      let B := rowBlk b 0xEB [(20, 0, 2, 0)]
      let ds := if bothDies B then [Die.west, .east] else [tgtDie B]
      mbxReady s B = true ∧
      cruiseForm B = true ∧
      (ds.all fun d => (die s d).crz.mapEn) = true) ∧
    (∃ (s : State) (b : Block),
      let B := rowBlk b 0xEB [(20, 0, 2, 1)]
      mbxReady s B = true ∧
      cruiseForm B = true) ∧
    (∃ (s : State) (b : Block),
      let B := rowBlk b 0xEB [(20, 0, 2, 2)]
      mbxReady s B = true ∧
      cruiseForm B = true) :=
  ⟨⟨bare, blk [], by decide +kernel⟩,
   ⟨drain, blk [], by decide +kernel⟩,
   ⟨drain, blk [], by decide +kernel⟩,
   ⟨bare, blk [], by decide +kernel⟩,
   ⟨bare, blk [], by decide +kernel⟩,
   ⟨aclOpen, blk [(20, 0, 28, 0x318), (24, 0, 8, 8)], (regReadAs (mbxOffer aclOpen (rowBlk (blk [(20, 0, 28, 0x318), (24, 0, 8, 8)]) 0xE9 [])).1 (.host (mgmtFn bare)) false 0x318 8).1, 0, by decide +kernel⟩,
   ⟨aclOpen, blk [(20, 0, 28, 0x318), (24, 0, 8, 8)], (regWriteAs (mbxOffer aclOpen (rowBlk (blk [(20, 0, 28, 0x318), (24, 0, 8, 8)]) 0xEA [])).1 (.host (mgmtFn bare)) false .west 0x318 8 0).1, 0, by decide +kernel⟩,
   ⟨onW fun d => { d with crz := { mapEn := true } }, blk [], by decide +kernel⟩,
   ⟨bare, blk [(24, 4, 16, 0x14), (28, 0, 16, 100)], by decide +kernel⟩,
   ⟨bare, blk [(40, 0, 10, 1), (42, 0, 11, 1023)], by decide +kernel⟩⟩

/-- Every clause of `Obligations.AuditFaultTimeCommandsAct` has its case. -/
theorem witness_AuditFaultTimeCommandsAct :
    (∃ (s : State) (b : Block),
      let B := rowBlk b 0xEC []
      mbxReady s B = true ∧
      zeros B [(20, 3, 5), (21, 2, 6)] = true ∧
      zeroFrom B 22 = true ∧
      bothDies B = false) ∧
    (∃ (s : State) (b : Block),
      let B := rowBlk b 0xED []
      let d := tgtDie B
      let k := fld B 20 0 8
      let u := fld B 22 0 16
      mbxReady s B = true ∧
      fld B 21 0 8 = 0 ∧
      zeroFrom B 24 = true ∧
      bothDies B = false ∧
      k ≤ 0x18 ∧
      k ∉ [0x12, 0x14] ∧
      (k = 0x13 → u ≤ 7) ∧
      (unitOf s d k u).st = .heldFailed) ∧
    (∃ (s : State) (b : Block),
      let B := rowBlk b 0xED []
      let d := tgtDie B
      let held := (addNew ((List.range 8).filter fun m => decide ((unitOf s d 0x13 m).st = .heldFailed)) 0xFFFF).filter fun u => decide ((unitOf s d 0x13 u).st = .heldFailed)
      mbxReady s B = true ∧
      fld B 20 0 8 = 0x13 ∧
      fld B 22 0 16 = 0xFFFF ∧
      fld B 21 0 8 = 0 ∧
      zeroFrom B 24 = true ∧
      bothDies B = false ∧
      held ≠ []) ∧
    (∃ (s : State) (b : Block),
      let B := rowBlk b 0xEE []
      let d := tgtDie B
      mbxReady s B = true ∧
      zeros B [(20, 3, 5)] = true ∧
      zeroFrom B 21 = true ∧
      bothDies B = false ∧
      bankIdle s d (fld B 20 0 3) = true) ∧
    (∃ (s : State) (b : Block),
      let B := rowBlk b 0xEF [(20, 0, 2, 0)]
      mbxReady s B = true ∧
      zeros B [(20, 2, 6), (21, 0, 24)] = true ∧
      zeroFrom B 32 = true ∧
      fld B 24 0 64 % secNs = 0 ∧
      pendingAny s = false ∧
      s.time.st ≠ .locked) ∧
    (∃ (s : State) (b : Block),
      let B := rowBlk b 0xEF [(20, 0, 2, 1)]
      mbxReady s B = true ∧
      zeros B [(20, 2, 6), (21, 0, 24)] = true ∧
      zeroFrom B 32 = true ∧
      Int.ofNat (signed64 (fld B 24 0 64)).natAbs < halfSec ∧
      pendingAny s = false ∧
      s.time.step = none) ∧
    (∃ (s : State) (b : Block),
      let B := rowBlk b 0xEF [(20, 0, 2, 2)]
      mbxReady s B = true ∧
      zeros B [(20, 2, 6), (21, 0, 24)] = true ∧
      zeroFrom B 32 = true ∧
      fld B 24 0 64 = 0) ∧
    (∃ (s : State) (b : Block),
      let B := rowBlk b 0xF0 [(20, 0, 2, 0)]
      mbxReady s B = true ∧
      zeros B [(20, 2, 6), (21, 0, 24)] = true ∧
      zeroFrom B 32 = true ∧
      fld B 24 0 64 % 4096 = 0) ∧
    (∃ (s : State) (b : Block),
      let B := rowBlk b 0xF0 [(20, 0, 2, 1)]
      mbxReady s B = true ∧
      zeros B [(20, 2, 6), (21, 0, 24)] = true ∧
      zeroFrom B 32 = true ∧
      fld B 24 0 64 % 4096 = 0) ∧
    (∃ (s : State) (b : Block),
      let B := rowBlk b 0xF0 [(20, 0, 2, 2)]
      mbxReady s B = true ∧
      zeros B [(20, 2, 6), (21, 0, 24)] = true ∧
      zeroFrom B 32 = true ∧
      fld B 24 0 64 % 4096 = 0 ∧
      s.arch.valid = true ∧
      s.arch.dest.isSome = true) :=
  ⟨⟨bare, blk [(20, 0, 3, 7)], by decide +kernel⟩,
   ⟨onW fun d => { d with lko := { units := [(0x130007, { st := .heldFailed })] } }, blk [(20, 0, 8, 0x13), (22, 0, 16, 7)], by decide +kernel⟩,
   ⟨onW fun d => { d with lko := { units := [(0x130007, { st := .heldFailed })] } }, blk [(20, 0, 8, 0x13), (22, 0, 16, 0xFFFF)], by decide +kernel⟩,
   ⟨bare, blk [(20, 0, 3, 7)], by decide +kernel⟩,
   ⟨bare, blk [(24, 0, 64, 1000000000)], by decide +kernel⟩,
   ⟨bare, blk [(24, 0, 64, 499999999)], by decide +kernel⟩,
   ⟨bare, blk [], by decide +kernel⟩,
   ⟨bare, blk [(24, 0, 64, 4096)], by decide +kernel⟩,
   ⟨bare, blk [], by decide +kernel⟩,
   ⟨{ bare with arch := { valid := true, dest := some 4096 } }, blk [], by decide +kernel⟩⟩

/-- Every clause of `Obligations.RingControlActs` has its case. -/
theorem witness_RingControlActs :
    (∃ (s : State) (b : Block),
      let B := rowBlk b 0xF1 [(20, 0, 3, 0)]
      let d := tgtDie B
      let n := fld B 22 0 13
      let r := cmdRing s d n
      let cfg := fld B 32 0 64
      let m := bits cfg 24 13
      let i := bits cfg 40 10
      let q := cqRing s d m
      mbxReady s B = true ∧
      ringCtlForm B = true ∧
      r.configured = false ∧
      q.configured = true ∧
      q.bound < min 64 (2 ^ (q.log2 - 1)) ∧
      0 < cqFree q ∧
      n ≠ 0 ∧
      m ≠ 0 ∧
      q.inst = i ∧
      instHere s d i = true ∧
      cmdTaken s d i (bits cfg 50 14) = false) ∧
    (∃ (s : State) (b : Block),
      let B := rowBlk b 0xF1 [(20, 0, 3, 0)]
      let d := tgtDie B
      let n := fld B 22 0 13
      let r := cmdRing s d n
      mbxReady s B = true ∧
      ringCtlForm B = true ∧
      n = 0 ∧
      r.configured = false ∧
      (cqRing s d 0).configured = true ∧
      (cqRing s d 0).bound < min 64 (2 ^ ((cqRing s d 0).log2 - 1)) ∧
      0 < cqFree (cqRing s d 0)) ∧
    (∃ (s : State) (b : Block),
      let B := rowBlk b 0xF1 [(20, 0, 3, 1)]
      let d := tgtDie B
      let n := fld B 22 0 13
      let cfg := fld B 32 0 64
      mbxReady s B = true ∧
      ringCtlForm B = true ∧
      (cqRing s d n).configured = false ∧
      n ≠ 0 ∧
      instHere s d (bits cfg 8 10) = true ∧
      cqTaken s d (bits cfg 8 10) (bits cfg 32 14) = false) ∧
    (∃ (s : State) (b : Block),
      let B := rowBlk b 0xF1 [(20, 0, 3, 1)]
      let d := tgtDie B
      let n := fld B 22 0 13
      mbxReady s B = true ∧
      ringCtlForm B = true ∧
      n = 0 ∧
      (cqRing s d 0).configured = false) ∧
    (∃ (s : State) (b : Block),
      let B := rowBlk b 0xF1 [(20, 0, 3, 2)]
      let d := tgtDie B
      let n := fld B 22 0 13
      let r := cmdRing s d n
      mbxReady s B = true ∧
      ringCtlForm B = true ∧
      r.configured = true ∧
      r.st ≠ .reset) ∧
    (∃ (s : State) (b : Block),
      let B := rowBlk b 0xF1 [(20, 0, 3, 3)]
      let d := tgtDie B
      let n := fld B 22 0 13
      let r := cmdRing s d n
      mbxReady s B = true ∧
      ringCtlForm B = true ∧
      r.configured = true ∧
      r.st ≠ .reset) ∧
    (∃ (s : State) (b : Block),
      let B := rowBlk b 0xF1 [(20, 0, 3, 4)]
      let d := tgtDie B
      let n := fld B 22 0 13
      let r := cmdRing s d n
      mbxReady s B = true ∧
      ringCtlForm B = true ∧
      r.configured = true ∧
      r.st ≠ .reset) ∧
    (∃ (s : State) (b : Block),
      let B := rowBlk b 0xF1 [(20, 0, 3, 5)]
      let d := tgtDie B
      let n := fld B 22 0 13
      let r := cmdRing s d n
      mbxReady s B = true ∧
      ringCtlForm B = true ∧
      r.configured = true) ∧
    (∃ (s : State) (b : Block),
      let B := rowBlk b 0xF1 [(20, 0, 3, 6)]
      let d := tgtDie B
      let n := fld B 22 0 13
      mbxReady s B = true ∧
      ringCtlForm B = true ∧
      (cqRing s d n).configured = true ∧
      (cqRing s d n).bound = 0 ∧
      (cqRing s d n).written = 0) :=
  ⟨⟨withCq { configured := true, log2 := 4, inst := 7, bound := 7 } 1 (withInst { st := .configuring }), blk [(22, 0, 13, 8191), (32, 0, 5, 20), (32, 8, 8, 1), (32, 16, 7, 64), (32, 24, 13, 1), (32, 40, 10, 7), (32, 50, 14, 8191)], by decide +kernel⟩,
   ⟨withCq { configured := true, log2 := 4 } 0, blk [(32, 0, 5, 4)], by decide +kernel⟩,
   ⟨withInst { st := .configuring }, blk [(22, 0, 13, 1), (32, 0, 5, 20), (32, 8, 10, 7)], by decide +kernel⟩,
   ⟨bare, blk [(32, 0, 5, 4)], by decide +kernel⟩,
   ⟨withCmd { configured := true, st := .active } 1, blk [(22, 0, 13, 1)], by decide +kernel⟩,
   ⟨withCmd { configured := true, st := .paused } 1, blk [(22, 0, 13, 1)], by decide +kernel⟩,
   ⟨withCmd { configured := true, st := .halted } 1, blk [(22, 0, 13, 1)], by decide +kernel⟩,
   ⟨withCmd { configured := true, st := .idle } 1, blk [(22, 0, 13, 1)], by decide +kernel⟩,
   ⟨withCq { configured := true, log2 := 4 } 1, blk [(22, 0, 13, 1)], by decide +kernel⟩⟩

/-- Every clause of `Obligations.CommandsBeginTheirWork` has its case. -/
theorem witness_CommandsBeginTheirWork :
    (∃ (s : State) (d : Die) (n : Nat) (b : Block) (c : List Block) (p : State × Nat) (k : Nat) (w : Nat × Nat),
      let o := p.2
      let y := passed4 p.1 o
      let x := opOf y o
      let u := takeConn y o k
      ringOffer s d n (rowBlk b 0x01 []) c = some p ∧
      passes p.1 p.2 = true ∧
      connField x.blk = some k ∧
      opens u d (conn u d k).inst (conn u d k).sealedBy = true ∧
      destAbsent u d (conn u d k).remoteStation = false ∧
      connBusy u d k o = false ∧
      (fld x.blk 40 0 33 ≠ 0 → localOk u x (fld x.blk 16 0 64) (fld x.blk 40 0 33) (·.lr) = true) ∧
      (freeThreads u d).head? = some w) ∧
    (∃ (s : State) (d : Die) (n : Nat) (b : Block) (c : List Block) (p : State × Nat) (k : Nat) (w : Nat × Nat),
      let o := p.2
      let y := passed4 p.1 o
      let x := opOf y o
      let u := takeConn y o k
      ringOffer s d n (rowBlk b 0x04 []) c = some p ∧
      passes p.1 p.2 = true ∧
      connField x.blk = some k ∧
      opens u d (conn u d k).inst (conn u d k).sealedBy = true ∧
      destAbsent u d (conn u d k).remoteStation = false ∧
      connBusy u d k o = false ∧
      (freeThreads u d).head? = some w) ∧
    (∃ (s : State) (d : Die) (n : Nat) (b : Block) (c : List Block) (p : State × Nat) (k : Nat) (w : Nat × Nat),
      let o := p.2
      let y := passed4 p.1 o
      let x := opOf y o
      let u := takeConn y o k
      ringOffer s d n (rowBlk b 0x05 []) c = some p ∧
      passes p.1 p.2 = true ∧
      connField x.blk = some k ∧
      opens u d (conn u d k).inst (conn u d k).sealedBy = true ∧
      destAbsent u d (conn u d k).remoteStation = false ∧
      connBusy u d k o = false ∧
      (freeThreads u d).head? = some w) ∧
    (∃ (s : State) (d : Die) (n : Nat) (b : Block) (c : List Block) (p : State × Nat) (k : Nat) (w : Nat × Nat),
      let o := p.2
      let y := passed4 p.1 o
      let x := opOf y o
      let u := takeConn y o k
      ringOffer s d n (rowBlk b 0x06 []) c = some p ∧
      passes p.1 p.2 = true ∧
      connField x.blk = some k ∧
      opens u d (conn u d k).inst (conn u d k).sealedBy = true ∧
      destAbsent u d (conn u d k).remoteStation = false ∧
      connBusy u d k o = false ∧
      (freeThreads u d).head? = some w) ∧
    (∃ (s : State) (d : Die) (n : Nat) (b : Block) (c : List Block) (p : State × Nat) (t : Tree) (ch : Nat),
      let o := p.2
      let y := passed4 p.1 o
      let x := opOf y o
      let i := x.inst.getD 1024
      let q := fld x.blk 16 0 12
      let u := modOp y o fun z => { z with phase := .done }
      ringOffer s d n (rowBlk b 0x40 []) c = some p ∧
      passes p.1 p.2 = true ∧
      treeOf u d q = some t ∧
      memberChild u d i q t = some ch) ∧
    (∃ (s : State) (d : Die) (n : Nat) (b : Block) (c : List Block) (p : State × Nat) (t : Tree) (ch : Nat),
      let o := p.2
      let y := passed4 p.1 o
      let x := opOf y o
      let i := x.inst.getD 1024
      let q := fld x.blk 16 0 12
      let u := modOp y o fun z => { z with phase := .done }
      ringOffer s d n (rowBlk b 0x41 []) c = some p ∧
      passes p.1 p.2 = true ∧
      treeOf u d q = some t ∧
      memberChild u d i q t = some ch) ∧
    (∃ (s : State) (d : Die) (n : Nat) (b : Block) (c : List Block) (p : State × Nat) (t : Tree) (ch : Nat),
      let o := p.2
      let y := passed4 p.1 o
      let x := opOf y o
      let i := x.inst.getD 1024
      let q := fld x.blk 16 0 12
      let u := modOp y o fun z => { z with phase := .done }
      ringOffer s d n (rowBlk b 0x42 []) c = some p ∧
      passes p.1 p.2 = true ∧
      treeOf u d q = some t ∧
      memberChild u d i q t = some ch) ∧
    (∃ (s : State) (d : Die) (n : Nat) (b : Block) (c : List Block) (p : State × Nat) (t : Tree) (ch : Nat),
      let o := p.2
      let y := passed4 p.1 o
      let x := opOf y o
      let i := x.inst.getD 1024
      let q := fld x.blk 16 0 12
      let u := modOp y o fun z => { z with phase := .done }
      ringOffer s d n (rowBlk b 0x43 []) c = some p ∧
      passes p.1 p.2 = true ∧
      treeOf u d q = some t ∧
      memberChild u d i q t = some ch) ∧
    (∃ (s : State) (d : Die) (n : Nat) (b : Block) (c : List Block) (p : State × Nat) (t : Tree) (ch : Nat),
      let o := p.2
      let y := passed4 p.1 o
      let x := opOf y o
      let i := x.inst.getD 1024
      let q := fld x.blk 16 0 12
      let u := modOp y o fun z => { z with phase := .done }
      ringOffer s d n (rowBlk b 0x44 []) c = some p ∧
      passes p.1 p.2 = true ∧
      treeOf u d q = some t ∧
      memberChild u d i q t = some ch) :=
  ⟨⟨run, .west, 1, blk [(8, 0, 64, 43981), (16, 0, 64, 65536), (24, 0, 64, 64), (32, 0, 32, 29360129), (36, 0, 20, 256), (40, 0, 33, 100), (48, 0, 24, 16777215), (52, 0, 24, 16)], [], offer (run) 0x01 (blk [(8, 0, 64, 43981), (16, 0, 64, 65536), (24, 0, 64, 64), (32, 0, 32, 29360129), (36, 0, 20, 256), (40, 0, 33, 100), (48, 0, 24, 16777215), (52, 0, 24, 16)]) [], 0x100, (0, 0), by refine ⟨by decide +kernel, by decide +kernel, by decide +kernel, by decide +kernel, by decide +kernel, by decide +kernel, fun _ => by decide +kernel, by decide +kernel⟩⟩,
   ⟨run, .west, 1, blk [(0, 9, 1, 1), (24, 0, 64, 64), (32, 0, 32, 29360129), (36, 0, 20, 256), (40, 0, 5, 1), (48, 0, 24, 16777215), (52, 0, 24, 16777215), (56, 0, 1, 0), (56, 6, 58, 1)], [blk [(0, 0, 64, 0x10000), (8, 0, 32, 65536)]], offer (run) 0x04 (blk [(0, 9, 1, 1), (24, 0, 64, 64), (32, 0, 32, 29360129), (36, 0, 20, 256), (40, 0, 5, 1), (48, 0, 24, 16777215), (52, 0, 24, 16777215), (56, 0, 1, 0), (56, 6, 58, 1)]) [blk [(0, 0, 64, 0x10000), (8, 0, 32, 65536)]], 0x100, (0, 0), by decide +kernel⟩,
   ⟨run, .west, 1, blk [(0, 9, 1, 1), (16, 0, 64, 65536), (36, 0, 20, 256), (40, 0, 5, 1), (48, 0, 24, 16777215), (52, 0, 24, 16777215), (56, 6, 58, 1)], [blk [(0, 0, 64, 0x40), (8, 0, 32, 65536), (12, 0, 32, 29360129)]], offer (run) 0x05 (blk [(0, 9, 1, 1), (16, 0, 64, 65536), (36, 0, 20, 256), (40, 0, 5, 1), (48, 0, 24, 16777215), (52, 0, 24, 16777215), (56, 6, 58, 1)]) [blk [(0, 0, 64, 0x40), (8, 0, 32, 65536), (12, 0, 32, 29360129)]], 0x100, (0, 0), by decide +kernel⟩,
   ⟨run, .west, 1, blk [(24, 0, 64, 64), (32, 0, 32, 29360129), (36, 0, 20, 256), (40, 0, 33, 100), (48, 0, 24, 16777215), (52, 0, 24, 16)], [], offer (run) 0x06 (blk [(24, 0, 64, 64), (32, 0, 32, 29360129), (36, 0, 20, 256), (40, 0, 33, 100), (48, 0, 24, 16777215), (52, 0, 24, 16)]) [], 0x100, (0, 0), by decide +kernel⟩,
   ⟨run, .west, 1, blk [(16, 0, 12, 5), (52, 0, 24, 16777215)], [], offer (run) 0x40 (blk [(16, 0, 12, 5), (52, 0, 24, 16777215)]) [], decTree tree5, 0, by decide +kernel⟩,
   ⟨run, .west, 1, blk [(16, 0, 12, 5), (20, 0, 32, 1), (24, 0, 64, 65536), (32, 0, 64, 65536), (52, 0, 24, 16777215)], [], offer (run) 0x41 (blk [(16, 0, 12, 5), (20, 0, 32, 1), (24, 0, 64, 65536), (32, 0, 64, 65536), (52, 0, 24, 16777215)]) [], decTree tree5, 0, by decide +kernel⟩,
   ⟨run, .west, 1, blk [(16, 0, 12, 5), (20, 0, 32, 1), (24, 0, 64, 65536), (32, 0, 64, 65536), (52, 0, 24, 16777215)], [], offer (run) 0x42 (blk [(16, 0, 12, 5), (20, 0, 32, 1), (24, 0, 64, 65536), (32, 0, 64, 65536), (52, 0, 24, 16777215)]) [], decTree tree5, 0, by decide +kernel⟩,
   ⟨run, .west, 1, blk [(16, 0, 12, 5), (20, 0, 32, 1), (24, 0, 64, 65536), (32, 0, 64, 65536), (52, 0, 24, 16777215)], [], offer (run) 0x43 (blk [(16, 0, 12, 5), (20, 0, 32, 1), (24, 0, 64, 65536), (32, 0, 64, 65536), (52, 0, 24, 16777215)]) [], decTree tree5, 0, by decide +kernel⟩,
   ⟨run, .west, 1, blk [(16, 0, 12, 5), (20, 0, 32, 1), (24, 0, 64, 65536), (32, 0, 64, 65536), (52, 0, 24, 16777215)], [], offer (run) 0x44 (blk [(16, 0, 12, 5), (20, 0, 32, 1), (24, 0, 64, 65536), (32, 0, 64, 65536), (52, 0, 24, 16777215)]) [], decTree tree5, 0, by decide +kernel⟩⟩

/-- Every clause of `Obligations.PacketsAndMessagesAreSent` has its case. -/
theorem witness_PacketsAndMessagesAreSent :
    (∃ (s : State) (d : Die) (n : Nat) (b : Block) (c : List Block) (p : State × Nat) (k : Nat),
      let o := p.2
      let y := passed4 p.1 o
      let x := opOf y o
      let u := takeConn y o k
      ringOffer s d n (rowBlk b 0x02 []) c = some p ∧
      passes p.1 p.2 = true ∧
      connField x.blk = some k ∧
      opens u d (conn u d k).inst (conn u d k).sealedBy = true ∧
      destAbsent u d (conn u d k).remoteStation = false ∧
      connBusy u d k o = false) ∧
    (∃ (s : State) (d : Die) (n : Nat) (b : Block) (c : List Block) (p : State × Nat) (k : Nat),
      let o := p.2
      let y := passed4 p.1 o
      let x := opOf y o
      let u := takeConn y o k
      ringOffer s d n (rowBlk b 0x61 []) c = some p ∧
      passes p.1 p.2 = true ∧
      connField x.blk = some k ∧
      opens u d (conn u d k).inst (conn u d k).sealedBy = true ∧
      destAbsent u d (conn u d k).remoteStation = false ∧
      connBusy u d k o = false ∧
      fld x.blk 28 24 1 = 0) ∧
    (∃ (s : State) (d : Die) (n : Nat) (b : Block) (c : List Block) (p : State × Nat) (k : Nat),
      let o := p.2
      let y := passed4 p.1 o
      let x := opOf y o
      let u := takeConn y o k
      ringOffer s d n (rowBlk b 0x61 []) c = some p ∧
      passes p.1 p.2 = true ∧
      connField x.blk = some k ∧
      opens u d (conn u d k).inst (conn u d k).sealedBy = true ∧
      destAbsent u d (conn u d k).remoteStation = false ∧
      connBusy u d k o = false ∧
      fld x.blk 28 24 1 = 1) ∧
    (∃ (s : State) (d : Die) (n : Nat) (b : Block) (c : List Block) (p : State × Nat) (k : Nat),
      let o := p.2
      let y := passed4 p.1 o
      let x := opOf y o
      let u := takeConn y o k
      ringOffer s d n (rowBlk b 0x21 []) c = some p ∧
      passes p.1 p.2 = true ∧
      connField x.blk = some k ∧
      opens u d (conn u d k).inst (conn u d k).sealedBy = true ∧
      destAbsent u d (conn u d k).remoteStation = false ∧
      connBusy u d k o = false) ∧
    (∃ (s : State) (d : Die) (n : Nat) (b : Block) (c : List Block) (p : State × Nat) (k : Nat),
      let o := p.2
      let y := passed4 p.1 o
      let x := opOf y o
      let u := takeConn y o k
      ringOffer s d n (rowBlk b 0x20 []) c = some p ∧
      passes p.1 p.2 = true ∧
      connField x.blk = some k ∧
      opens u d (conn u d k).inst (conn u d k).sealedBy = true ∧
      destAbsent u d (conn u d k).remoteStation = false ∧
      connBusy u d k o = false ∧
      fld x.blk 40 0 33 ≤ 256 * bits (regVal u d 0xC00000) 0 9) ∧
    (∃ (s : State) (d : Die) (n : Nat) (b : Block) (c : List Block) (p : State × Nat) (k : Nat),
      let o := p.2
      let y := passed4 p.1 o
      let x := opOf y o
      let u := takeConn y o k
      ringOffer s d n (rowBlk b 0x20 []) c = some p ∧
      passes p.1 p.2 = true ∧
      connField x.blk = some k ∧
      opens u d (conn u d k).inst (conn u d k).sealedBy = true ∧
      destAbsent u d (conn u d k).remoteStation = false ∧
      connBusy u d k o = false ∧
      256 * bits (regVal u d 0xC00000) 0 9 < fld x.blk 40 0 33 ∧
      (conn u d k).rdv.length < 1024) :=
  ⟨⟨run, .west, 1, blk [(16, 0, 64, 32), (24, 0, 32, 29360129), (28, 0, 20, 256), (28, 20, 6, 32), (32, 0, 64, 287454020)], [], offer (run) 0x02 (blk [(16, 0, 64, 32), (24, 0, 32, 29360129), (28, 0, 20, 256), (28, 20, 6, 32), (32, 0, 64, 287454020)]) [], 0x100, by decide +kernel⟩,
   ⟨run, .west, 1, blk [(16, 0, 64, 64), (24, 0, 32, 29360129), (28, 0, 20, 256), (32, 0, 64, 5), (48, 0, 64, 131072)], [], offer (run) 0x61 (blk [(16, 0, 64, 64), (24, 0, 32, 29360129), (28, 0, 20, 256), (32, 0, 64, 5), (48, 0, 64, 131072)]) [], 0x100, by decide +kernel⟩,
   ⟨run, .west, 1, blk [(0, 9, 1, 1), (16, 0, 64, 64), (24, 0, 32, 29360129), (28, 0, 20, 256), (28, 24, 1, 1), (48, 0, 64, 131072), (56, 6, 58, 1)], [blk [(0, 0, 64, 1)]], offer (run) 0x61 (blk [(0, 9, 1, 1), (16, 0, 64, 64), (24, 0, 32, 29360129), (28, 0, 20, 256), (28, 24, 1, 1), (48, 0, 64, 131072), (56, 6, 58, 1)]) [blk [(0, 0, 64, 1)]], 0x100, by decide +kernel⟩,
   ⟨run, .west, 1, blk [(16, 0, 64, 85), (24, 0, 16, 2), (28, 0, 20, 256), (28, 20, 6, 32), (32, 0, 64, 1234605616436508552)], [], offer (run) 0x21 (blk [(16, 0, 64, 85), (24, 0, 16, 2), (28, 0, 20, 256), (28, 20, 6, 32), (32, 0, 64, 1234605616436508552)]) [], 0x100, by decide +kernel⟩,
   ⟨run, .west, 1, blk [(16, 0, 64, 65536), (24, 0, 64, 85), (32, 0, 20, 256), (40, 0, 33, 0), (48, 0, 16, 2), (52, 0, 24, 16777215)], [], offer (run) 0x20 (blk [(16, 0, 64, 65536), (24, 0, 64, 85), (32, 0, 20, 256), (40, 0, 33, 0), (48, 0, 16, 2), (52, 0, 24, 16777215)]) [], 0x100, by decide +kernel⟩,
   ⟨run, .west, 1, blk [(16, 0, 64, 65536), (24, 0, 64, 85), (32, 0, 20, 256), (40, 0, 33, 20000), (48, 0, 16, 2), (52, 0, 24, 16777215)], [], offer (run) 0x20 (blk [(16, 0, 64, 65536), (24, 0, 64, 85), (32, 0, 20, 256), (40, 0, 33, 20000), (48, 0, 16, 2), (52, 0, 24, 16777215)]) [], 0x100, by decide +kernel⟩⟩

/-- Every clause of `Obligations.GetSendsReadRequests` has its case. -/
theorem witness_GetSendsReadRequests :
    (∃ (s : State) (d : Die) (n : Nat) (b : Block) (c : List Block) (p : State × Nat) (k : Nat),
      let o := p.2
      let y := passed4 p.1 o
      let x := opOf y o
      let u := takeConn y o k
      let m := fld x.blk 40 0 33
      ringOffer s d n (rowBlk b 0x03 []) c = some p ∧
      passes p.1 p.2 = true ∧
      connField x.blk = some k ∧
      opens u d (conn u d k).inst (conn u d k).sealedBy = true ∧
      destAbsent u d (conn u d k).remoteStation = false ∧
      connBusy u d k o = false ∧
      (m ≠ 0 → localOk u x (fld x.blk 16 0 64) m (·.lw) = true)) ∧
    (∃ (m : Nat),
      0 < m) :=
  ⟨⟨run, .west, 1, blk [(8, 0, 64, 43981), (16, 0, 64, 65536), (24, 0, 64, 64), (32, 0, 32, 29360129), (36, 0, 20, 256), (40, 0, 33, 100), (48, 0, 24, 16777215), (52, 0, 24, 16)], [], offer (run) 0x03 (blk [(8, 0, 64, 43981), (16, 0, 64, 65536), (24, 0, 64, 64), (32, 0, 32, 29360129), (36, 0, 20, 256), (40, 0, 33, 100), (48, 0, 24, 16777215), (52, 0, 24, 16)]) [], 0x100, by refine ⟨by decide +kernel, by decide +kernel, by decide +kernel, by decide +kernel, by decide +kernel, by decide +kernel, fun _ => by decide +kernel⟩⟩,
   ⟨2 ^ 32, by decide +kernel⟩⟩

/-- Every clause of `Obligations.MatchingSyncAndTriggersAct` has its case. -/
theorem witness_MatchingSyncAndTriggersAct :
    (∃ (s : State) (d : Die) (n : Nat) (b : Block) (c : List Block) (p : State × Nat),
      let o := p.2
      let y := passed4 p.1 o
      let x := opOf y o
      let i := x.inst.getD 1024
      let q := fld x.blk 48 0 16
      let u := modOp y o fun z => { z with phase := .done }
      let r : Recv := { op := o, cookie := x.cookie, bufAddr := fld x.blk 16 0 64, bufLen := fld x.blk 40 0 32, srcConn := fld x.blk 44 0 20, tag := BitVec.ofNat 64 (fld x.blk 24 0 64), ignore := BitVec.ofNat 64 (fld x.blk 32 0 64) }
      ringOffer s d n (rowBlk b 0x22 []) c = some p ∧
      passes p.1 p.2 = true ∧
      ((ctxOf u d i q).unexp.find? fun y => recvMatches y.conn y.tag.toNat r && !y.headerBad) = none) ∧
    (∃ (s : State) (d : Die) (n : Nat) (b : Block) (c : List Block) (p : State × Nat) (e : Unexp),
      let o := p.2
      let y := passed4 p.1 o
      let x := opOf y o
      let i := x.inst.getD 1024
      let q := fld x.blk 48 0 16
      let u := modOp y o fun z => { z with phase := .done }
      let r : Recv := { op := o, cookie := x.cookie, bufAddr := fld x.blk 16 0 64, bufLen := fld x.blk 40 0 32, srcConn := fld x.blk 44 0 20, tag := BitVec.ofNat 64 (fld x.blk 24 0 64), ignore := BitVec.ofNat 64 (fld x.blk 32 0 64) }
      ringOffer s d n (rowBlk b 0x22 []) c = some p ∧
      passes p.1 p.2 = true ∧
      ((ctxOf u d i q).unexp.find? fun y => recvMatches y.conn y.tag.toNat r && !y.headerBad) = some e) ∧
    (∃ (s : State) (d : Die) (n : Nat) (b : Block) (c : List Block) (p : State × Nat) (r : Recv),
      let o := p.2
      let y := passed4 p.1 o
      let x := opOf y o
      let i := x.inst.getD 1024
      let q := fld x.blk 48 0 16
      let u := modOp y o fun z => { z with phase := .done }
      ringOffer s d n (rowBlk b 0x23 []) c = some p ∧
      passes p.1 p.2 = true ∧
      ((ctxOf u d i q).posted.find? fun r => decide (r.cookie = fld x.blk 16 0 64)) = some r) ∧
    (∃ (s : State) (d : Die) (n : Nat) (b : Block) (c : List Block) (p : State × Nat),
      ringOffer s d n (rowBlk b 0x24 []) c = some p ∧
      passes p.1 p.2 = true) ∧
    (∃ (s : State) (d : Die) (n : Nat) (b : Block) (c : List Block) (p : State × Nat),
      ringOffer s d n (rowBlk b 0x25 []) c = some p ∧
      passes p.1 p.2 = true) ∧
    (∃ (s : State) (d : Die) (n : Nat) (b : Block) (c : List Block) (p : State × Nat),
      ringOffer s d n (rowBlk b 0x26 []) c = some p ∧
      passes p.1 p.2 = true) ∧
    (∃ (s : State) (d : Die) (n : Nat) (b : Block) (c : List Block) (p : State × Nat),
      ringOffer s d n (rowBlk b 0x60 []) c = some p ∧
      passes p.1 p.2 = true) ∧
    (∃ (s : State) (d : Die) (n : Nat) (b : Block) (c : List Block) (p : State × Nat),
      ringOffer s d n (rowBlk b 0x62 []) c = some p ∧
      passes p.1 p.2 = true) ∧
    (∃ (s : State) (d : Die) (n : Nat) (b : Block) (c : List Block) (p : State × Nat),
      ringOffer s d n (rowBlk b 0x63 []) c = some p ∧
      passes p.1 p.2 = true) ∧
    (∃ (s : State) (d : Die) (n : Nat) (b : Block) (c : List Block) (p : State × Nat) (i : Nat) (g : Die × Nat),
      let o := p.2
      let y := passed4 p.1 o
      let x := opOf y o
      let u := modOp y o fun z => { z with phase := .done }
      ringOffer s d n (rowBlk b 0x64 []) c = some p ∧
      passes p.1 p.2 = true ∧
      x.inst = some i ∧
      findCmdRing u (.inst i) (fld x.blk 16 0 14) = some g ∧
      g ≠ (d, n) ∧
      (cmdRing u g.1 g.2).configured = true ∧
      (cmdRing u g.1 g.2).st ≠ .reset) ∧
    (∃ (s : State) (d : Die) (n : Nat) (b : Block) (c : List Block) (p : State × Nat),
      let o := p.2
      let x := opOf p.1 o
      ringOffer s d n (rowBlk b 0x80 []) c = some p ∧
      staticCheck p.1 x.inst d x.blk [] false = none ∧
      chainBit x.blk = false ∧
      opNeeds x = .complete ∧
      notDeferred (fld (x.chain.headD 0) 0 0 8) = false ∧
      staticCheck p.1 x.inst d (x.chain.headD 0) x.chain.tail true = none ∧
      trigRoom p.1 x = true) ∧
    (∃ (s : State) (d : Die) (n : Nat) (b : Block) (c : List Block) (p : State × Nat) (g : Trig),
      let o := p.2
      let y := passed4 p.1 o
      let x := opOf y o
      let u := modOp y o fun z => { z with phase := .done }
      ringOffer s d n (rowBlk b 0x81 []) c = some p ∧
      passes p.1 p.2 = true ∧
      ((die u (tallyDie (fld x.blk 16 0 24))).trigs.find? fun g => decide (g.tally = fld x.blk 16 0 24 ∧ g.tag = fld x.blk 20 0 16)) = some g) :=
  ⟨⟨run, .west, 1, blk [(16, 0, 64, 196608), (24, 0, 64, 85), (40, 0, 32, 64), (40, 32, 20, 1048575), (48, 0, 16, 2), (52, 0, 24, 16777215)], [], offer (run) 0x22 (blk [(16, 0, 64, 196608), (24, 0, 64, 85), (40, 0, 32, 64), (40, 32, 20, 1048575), (48, 0, 16, 2), (52, 0, 24, 16777215)]) [], by decide +kernel⟩,
   ⟨(withCtx { st := .opened, unexp := [{ id := 1, conn := 0x100, tag := 0x55, len := 8, eager := true, handle := 0, data := [], complete := true, poison := false, psn := 0, headerBad := false }] }), .west, 1, blk [(16, 0, 64, 196608), (24, 0, 64, 85), (40, 0, 32, 64), (40, 32, 20, 1048575), (48, 0, 16, 2), (52, 0, 24, 16777215)], [], offer ((withCtx { st := .opened, unexp := [{ id := 1, conn := 0x100, tag := 0x55, len := 8, eager := true, handle := 0, data := [], complete := true, poison := false, psn := 0, headerBad := false }] })) 0x22 (blk [(16, 0, 64, 196608), (24, 0, 64, 85), (40, 0, 32, 64), (40, 32, 20, 1048575), (48, 0, 16, 2), (52, 0, 24, 16777215)]) [], { id := 1, conn := 0x100, tag := 0x55, len := 8, eager := true, handle := 0, data := [], complete := true, poison := false, psn := 0, headerBad := false }, by decide +kernel⟩,
   ⟨(withCtx { st := .opened, posted := [{ op := 9, cookie := 3, bufAddr := 0x30000, bufLen := 64, srcConn := 0xFFFFF, tag := 0x55, ignore := 0 }] }), .west, 1, blk [(16, 0, 64, 3), (48, 0, 16, 2)], [], offer ((withCtx { st := .opened, posted := [{ op := 9, cookie := 3, bufAddr := 0x30000, bufLen := 64, srcConn := 0xFFFFF, tag := 0x55, ignore := 0 }] })) 0x23 (blk [(16, 0, 64, 3), (48, 0, 16, 2)]) [], { op := 9, cookie := 3, bufAddr := 0x30000, bufLen := 64, srcConn := 0xFFFFF, tag := 0x55, ignore := 0 }, by decide +kernel⟩,
   ⟨run, .west, 1, blk [(48, 0, 16, 3)], [], offer (run) 0x24 (blk [(48, 0, 16, 3)]) [], by decide +kernel⟩,
   ⟨run, .west, 1, blk [(48, 0, 16, 2)], [], offer (run) 0x25 (blk [(48, 0, 16, 2)]) [], by decide +kernel⟩,
   ⟨(withCtx { st := .draining }), .west, 1, blk [(48, 0, 16, 2)], [], offer ((withCtx { st := .draining })) 0x26 (blk [(48, 0, 16, 2)]) [], by decide +kernel⟩,
   ⟨run, .west, 1, blk [], [], offer (run) 0x60 (blk []) [], by decide +kernel⟩,
   ⟨run, .west, 1, blk [(16, 0, 24, 16)], [], offer (run) 0x62 (blk [(16, 0, 24, 16)]) [], by decide +kernel⟩,
   ⟨run, .west, 1, blk [(16, 0, 24, 16)], [], offer (run) 0x63 (blk [(16, 0, 24, 16)]) [], by decide +kernel⟩,
   ⟨run, .west, 1, blk [(16, 0, 14, 2)], [], offer (run) 0x64 (blk [(16, 0, 14, 2)]) [], 7, (.west, 2), by decide +kernel⟩,
   ⟨run, .west, 1, blk [(16, 6, 58, 1), (32, 0, 24, 16), (24, 0, 64, 1)], [rowBlk (blk [(16, 0, 24, 16)]) 0x62 []], offer (run) 0x80 (blk [(16, 6, 58, 1), (32, 0, 24, 16), (24, 0, 64, 1)]) [rowBlk (blk [(16, 0, 24, 16)]) 0x62 []], by decide +kernel⟩,
   ⟨(onW (fun d => { d with trigs := [{ op := 9, inst := some 7, ring := 1, tally := 16, threshold := 1, tag := 4 }] }) run), .west, 1, blk [(16, 0, 24, 16), (20, 0, 16, 4)], [], offer ((onW (fun d => { d with trigs := [{ op := 9, inst := some 7, ring := 1, tally := 16, threshold := 1, tag := 4 }] }) run)) 0x81 (blk [(16, 0, 24, 16), (20, 0, 16, 4)]) [], { op := 9, inst := some 7, ring := 1, tally := 16, threshold := 1, tag := 4 }, by decide +kernel⟩⟩

/-- Every clause of `Obligations.DoorbellsAndEntryReadsAct` has its case. -/
theorem witness_DoorbellsAndEntryReadsAct :
    (∃ (s : State) (w : Requester) (j : Nat) (d : Die) (n : Nat),
      let u := pmcHost (modCmdRing s d n fun r => { r with silent := false }) (ringLink s n (cmdRing s d n).inst).1 0 1
      findCmdRing s w j = some (d, n) ∧
      (cmdRing s d n).configured = true ∧
      forensic s = false ∧
      (cmdRing u d n).st = .idle ∧
      (cmdRing u d n).reading = false ∧
      canFetch u d = true) ∧
    (∃ (s : State) (w : Requester) (j : Nat) (d : Die) (n : Nat),
      let u := pmcHost (modCmdRing s d n fun r => { r with silent := false }) (ringLink s n (cmdRing s d n).inst).1 0 1
      findCmdRing s w j = some (d, n) ∧
      (cmdRing s d n).configured = true ∧
      forensic s = false ∧
      (cmdRing u d n).st = .idle ∧
      canFetch u d = false) ∧
    (∃ (s : State) (w : Requester) (j : Nat) (d : Die) (n : Nat),
      let u := pmcHost (modCmdRing s d n fun r => { r with silent := false }) (ringLink s n (cmdRing s d n).inst).1 0 1
      findCmdRing s w j = some (d, n) ∧
      (cmdRing s d n).configured = true ∧
      forensic s = false ∧
      ((cmdRing u d n).st = .active ∨ (cmdRing u d n).st = .paused)) ∧
    (∃ (s : State) (w : Requester) (j : Nat) (d : Die) (n : Nat),
      let u := pmcHost (modCmdRing s d n fun r => { r with silent := false }) (ringLink s n (cmdRing s d n).inst).1 0 1
      findCmdRing s w j = some (d, n) ∧
      (cmdRing s d n).configured = true ∧
      forensic s = false ∧
      ((cmdRing u d n).st = .reset ∨ (cmdRing u d n).st = .halted)) ∧
    (∃ (s : State) (d : Die) (n : Nat) (l : List ReadPart) (e : EntryRead) (t : State) (b : Block),
      let r := cmdRing t d n
      let u := modCmdRing t d n fun r => { r with reading := false }
      entryRead l = some e ∧
      takeReads s (.ring d n) (anyTimeout l) = some (true, t) ∧
      r.reading = true ∧
      canFetch u d = true ∧
      r.st = .active ∧
      judgeEntry r e = .owned b ∧
      ringRoom u d r = true) ∧
    (∃ (s : State) (d : Die) (n : Nat) (l : List ReadPart) (e : EntryRead) (t : State) (b : Block),
      let r := cmdRing t d n
      let u := modCmdRing t d n fun r => { r with reading := false }
      entryRead l = some e ∧
      takeReads s (.ring d n) (anyTimeout l) = some (true, t) ∧
      r.reading = true ∧
      canFetch u d = true ∧
      r.st = .active ∧
      judgeEntry r e = .owned b ∧
      ringRoom u d r = false) ∧
    (∃ (s : State) (d : Die) (n : Nat) (l : List ReadPart) (e : EntryRead) (t : State),
      let r := cmdRing t d n
      let u := modCmdRing t d n fun r => { r with reading := false }
      entryRead l = some e ∧
      takeReads s (.ring d n) (anyTimeout l) = some (true, t) ∧
      r.reading = true ∧
      canFetch u d = true ∧
      r.st = .active ∧
      judgeEntry r e = .unowned ∧
      r.dbLatched = true) ∧
    (∃ (s : State) (d : Die) (n : Nat) (l : List ReadPart) (e : EntryRead) (t : State),
      let r := cmdRing t d n
      let u := modCmdRing t d n fun r => { r with reading := false }
      entryRead l = some e ∧
      takeReads s (.ring d n) (anyTimeout l) = some (true, t) ∧
      r.reading = true ∧
      canFetch u d = true ∧
      r.st = .active ∧
      judgeEntry r e = .unowned ∧
      r.dbLatched = false) ∧
    (∃ (s : State) (d : Die) (n : Nat) (l : List ReadPart) (e : EntryRead) (t : State) (k : Nat) (w : Nat),
      let r := cmdRing t d n
      let u := modCmdRing t d n fun r => { r with reading := false }
      entryRead l = some e ∧
      takeReads s (.ring d n) (anyTimeout l) = some (true, t) ∧
      r.reading = true ∧
      canFetch u d = true ∧
      (r.st = .active ∨ r.st = .paused) ∧
      judgeEntry r e = .halt k w) ∧
    (∃ (s : State) (d : Die) (n : Nat) (l : List ReadPart) (e : EntryRead) (t : State) (b : Block),
      let r := cmdRing t d n
      let u := modCmdRing t d n fun r => { r with reading := false }
      entryRead l = some e ∧
      takeReads s (.ring d n) (anyTimeout l) = some (true, t) ∧
      r.reading = true ∧
      canFetch u d = true ∧
      r.st = .paused ∧
      judgeEntry r e = .owned b ∧
      ringRoom u d r = true) ∧
    (∃ (s : State) (d : Die) (n : Nat) (l : List ReadPart) (e : EntryRead) (t : State) (b : Block),
      let r := cmdRing t d n
      let u := modCmdRing t d n fun r => { r with reading := false }
      entryRead l = some e ∧
      takeReads s (.ring d n) (anyTimeout l) = some (true, t) ∧
      r.reading = true ∧
      canFetch u d = true ∧
      r.st = .paused ∧
      (judgeEntry r e = .unowned ∨ (judgeEntry r e = .owned b ∧ ringRoom u d r = false))) ∧
    (∃ (s : State) (d : Die) (n : Nat) (l : List ReadPart) (e : EntryRead) (b : Block),
      let r := cmdRing s d n
      let t := modCmdRing s d n fun r => { r with waiting := false }
      let u := modCmdRing t d n fun r => { r with reading := false }
      entryRead l = some e ∧
      r.waiting = true ∧
      r.st = .active ∧
      ringRoom s d r = true ∧
      canFetch s d = true ∧
      canFetch u d = true ∧
      (cmdRing t d n).st = .active ∧
      ringRoom u d (cmdRing t d n) = true ∧
      judgeEntry (cmdRing t d n) e = .owned b) :=
  ⟨⟨run, .inst 7, 1, .west, 1, by decide +kernel⟩,
   ⟨withBlock 0x0A (withRing { st := .idle }), .inst 7, 1, .west, 1, by decide +kernel⟩,
   ⟨withRing { st := .paused }, .inst 7, 1, .west, 1, by decide +kernel⟩,
   ⟨withRing { st := .halted }, .inst 7, 1, .west, 1, by decide +kernel⟩,
   ⟨withRing { st := .active, reading := true }, .west, 1, part (blk [(1, 0, 1, 1)]), .ok (blk [(1, 0, 1, 1)]), withRing { st := .active, reading := true }, blk [(1, 0, 1, 1)], by decide +kernel⟩,
   ⟨withRing { st := .active, reading := true, queue := List.replicate 64 { blk := 0, slot := 0 } }, .west, 1, part (blk [(1, 0, 1, 1)]), .ok (blk [(1, 0, 1, 1)]), withRing { st := .active, reading := true, queue := List.replicate 64 { blk := 0, slot := 0 } }, blk [(1, 0, 1, 1)], by decide +kernel⟩,
   ⟨withRing { st := .active, reading := true, dbLatched := true }, .west, 1, part (0), .ok 0, withRing { st := .active, reading := true, dbLatched := true }, by decide +kernel⟩,
   ⟨withRing { st := .active, reading := true }, .west, 1, part (0), .ok 0, withRing { st := .active, reading := true }, by decide +kernel⟩,
   ⟨withRing { st := .active, reading := true }, .west, 1, part (blk [(2, 0, 24, 16)]), .ok (blk [(2, 0, 24, 16)]), withRing { st := .active, reading := true }, 1, 1048576, by decide +kernel⟩,
   ⟨withRing { st := .paused, reading := true }, .west, 1, part (blk [(1, 0, 1, 1)]), .ok (blk [(1, 0, 1, 1)]), withRing { st := .paused, reading := true }, blk [(1, 0, 1, 1)], by decide +kernel⟩,
   ⟨withRing { st := .paused, reading := true }, .west, 1, part (0), .ok 0, withRing { st := .paused, reading := true }, 0, by decide +kernel⟩,
   ⟨withRing { st := .active, waiting := true }, .west, 1, part (blk [(1, 0, 1, 1)]), .ok (blk [(1, 0, 1, 1)]), blk [(1, 0, 1, 1)], by decide +kernel⟩⟩

/-- Every clause of `Obligations.EntriesAreJudged` has its case. -/
theorem witness_EntriesAreJudged :
    (∃ (r : CmdRing) (b : Block),
      (fld b 1 0 1 == 1) = r.consPhase ∧
      fld b 2 0 24 = r.consSeq) ∧
    (∃ (r : CmdRing) (b : Block),
      (fld b 1 0 1 == 1) = r.consPhase ∧
      fld b 2 0 24 ≠ r.consSeq) ∧
    (∃ (r : CmdRing) (b : Block),
      (fld b 1 0 1 == 1) ≠ r.consPhase ∧
      fld b 2 0 24 = (r.consSeq + 2 ^ r.log2) % 2 ^ 24) ∧
    (∃ (r : CmdRing) (b : Block),
      (fld b 1 0 1 == 1) ≠ r.consPhase ∧
      fld b 2 0 24 ≠ (r.consSeq + 2 ^ r.log2) % 2 ^ 24) ∧
    (∃ (s : State) (d : Die) (n : Nat) (l : List ReadPart) (e : EntryRead) (u : State) (k : Nat) (w : Nat),
      let r := cmdRing u d n
      entryRead l = some e ∧
      takeReads s (.ring d n) (anyTimeout l) = some (true, u) ∧
      r.reading = true ∧
      canFetch u d = true ∧
      (r.st = .active ∨ r.st = .paused) ∧
      judgeEntry r e = .halt k w ∧
      0 < k) :=
  ⟨⟨{ log2 := 4 }, blk [(1, 0, 1, 1)], by decide +kernel⟩,
   ⟨{ log2 := 4 }, blk [(1, 0, 1, 1), (2, 0, 24, 1)], by decide +kernel⟩,
   ⟨{ log2 := 4, consSeq := 0xFFFFFF }, blk [(2, 0, 24, 15)], by decide +kernel⟩,
   ⟨{ log2 := 4 }, blk [], by decide +kernel⟩,
   ⟨withRing { st := .active, reading := true }, .west, 1, lostPart .error, .fail .error, withRing { st := .active, reading := true }, 5, 0, by decide +kernel⟩⟩

/-- Every clause of `Obligations.SlotsAndFetchPointAdvance` has its case. -/
theorem witness_SlotsAndFetchPointAdvance :
    (∃ (s : State) (w : Requester) (j : Nat) (v : BitVec 32) (d : Die) (m : Nat),
      let q := cqRing s d m
      let lap := bit v.toNat 20
      let head := bits v.toNat 0 20
      let dist := headDist q.log2 q.lap q.head lap head
      findCqRing s w j = some (d, m) ∧
      forensic s = false ∧
      dist ≤ q.written ∧
      (bit v.toNat 31 && q.intEn && decide (0 < q.written - dist)) = false) ∧
    (∃ (s : State) (w : Requester) (j : Nat) (v : BitVec 32) (d : Die) (m : Nat),
      let q := cqRing s d m
      let lap := bit v.toNat 20
      let head := bits v.toNat 0 20
      let dist := headDist q.log2 q.lap q.head lap head
      findCqRing s w j = some (d, m) ∧
      forensic s = false ∧
      dist ≤ q.written ∧
      bit v.toNat 31 = true ∧
      q.intEn = true ∧
      0 < q.written - dist) ∧
    (∃ (s : State) (w : Requester) (j : Nat) (v : BitVec 32) (d : Die) (m : Nat),
      let q := cqRing s d m
      let lap := bit v.toNat 20
      let head := bits v.toNat 0 20
      let dist := headDist q.log2 q.lap q.head lap head
      findCqRing s w j = some (d, m) ∧
      forensic s = false ∧
      q.written < dist ∧
      m ≠ 0) ∧
    (∃ (s : State) (w : Requester) (j : Nat) (v : BitVec 32) (d : Die) (m : Nat),
      let q := cqRing s d m
      let lap := bit v.toNat 20
      let head := bits v.toNat 0 20
      let dist := headDist q.log2 q.lap q.head lap head
      findCqRing s w j = some (d, m) ∧
      forensic s = false ∧
      q.written < dist ∧
      m = 0) ∧
    (∃ (k : Nat) (head : Nat) (head' : Nat),
      head < 2 ^ k ∧
      head' < 2 ^ k) :=
  ⟨⟨withCq { configured := true, log2 := 4, instRing := 1, inst := 7, written := 16 } 1 (withInst { st := .running }), .inst 7, 1, 0, .west, 1, by decide +kernel⟩,
   ⟨withCq { configured := true, log2 := 4, instRing := 1, inst := 7, written := 16, intEn := true } 1 (withInst { st := .running }), .inst 7, 1, 0x8010000F, .west, 1, by decide +kernel⟩,
   ⟨withCq { configured := true, log2 := 4, instRing := 1, inst := 7 } 1 (withInst { st := .running }), .inst 7, 1, 0x100001, .west, 1, by decide +kernel⟩,
   ⟨withCq { configured := true, log2 := 4 } 0, .mgmt .west, 0, 0x100001, .west, 0, by decide +kernel⟩,
   ⟨20, 0xFFFFF, 0, by decide +kernel⟩⟩

/-- Every clause of `Obligations.RingTimersAndWaitsAct` has its case. -/
theorem witness_RingTimersAndWaitsAct :
    (∃ (s : State) (d : Die) (n : Nat),
      let r := cmdRing s d n
      (n ≠ 0 ∨ mgmtDrained s = false) ∧
      ringMayLeaveReset s d n = true ∧
      r.releasing = false ∧
      r.haltSlot = true ∧
      r.resetLate = false) ∧
    (∃ (s : State) (d : Die) (n : Nat),
      let r := cmdRing s d n
      (n ≠ 0 ∨ mgmtDrained s = false) ∧
      ringMayLeaveReset s d n = true ∧
      r.releasing = false ∧
      r.haltSlot = false ∧
      r.resetLate = false ∧
      0 < cqFree (cqRing s d r.cq)) ∧
    (∃ (s : State) (d : Die) (n : Nat),
      let r := cmdRing s d n
      ringMayLeaveReset s d n = true ∧
      r.haltSlot = false ∧
      r.releasing = false ∧
      r.resetLate = false ∧
      cqFree (cqRing s d r.cq) = 0 ∧
      r.resetAt + 10000000 ≤ s.now) ∧
    (∃ (s : State) (d : Die) (n : Nat) (k : Nat),
      let r := cmdRing s d n
      let u := modCmdRing s d n fun r => { r with advSince := 0, shadowDue := none }
      r.shadowDue = some k ∧
      k ≤ s.now ∧
      r.shadowEn = true ∧
      r.silent = false ∧
      hostSilent u (ringWho u d n) = false) ∧
    (∃ (s : State) (d : Die) (n : Nat) (k : Nat),
      let r := cmdRing s d n
      r.readyAt = some k ∧
      n ≠ 0 ∧
      r.prio < 3 ∧
      r.queue ≠ [] ∧
      k + 1000 * bits (regVal s d 0xA80000) 0 16 < s.now ∧
      n ∉ (die s d).rings.aged ∧
      r.st ≠ .paused ∧
      (headFenced r = true → r.outstanding = [])) ∧
    (∃ (s : State) (o : Nat),
      (opOf s o).phase = .waitTrig ∧
      (opOf s o).since + 10000000 ≤ s.now ∧
      (opOf (retryOp s o) o).phase = .waitTrig) ∧
    (∃ (s : State) (o : Nat),
      (opOf s o).phase = .waitCache ∧
      (opOf s o).since + 10000000 ≤ s.now ∧
      (opOf (retryOp s o) o).phase = .waitCache) ∧
    (∃ (s : State) (o : Nat),
      (opOf s o).phase = .waitSlots ∧
      (opOf s o).since + 10000000 ≤ s.now ∧
      (opOf (retryOp s o) o).phase = .waitSlots) ∧
    (∃ (s : State) (o : Nat),
      (opOf s o).phase = .waitMaxOps ∧
      (opOf s o).since + 10000000 ≤ s.now ∧
      (opOf (retryOp s o) o).phase = .waitMaxOps) ∧
    (∃ (s : State) (o : Nat),
      (opOf s o).phase = .waitCtx ∧
      (opOf s o).since + 10000000 ≤ s.now ∧
      (opOf (retryOp s o) o).phase = .waitCtx) ∧
    (∃ (s : State) (o : Nat),
      (opOf s o).phase = .waitPosted ∧
      (opOf s o).since + 10000000 ≤ s.now ∧
      (opOf (retryOp s o) o).phase = .waitPosted) :=
  ⟨⟨withRing { st := .reset, haltSlot := true }, .west, 1, by decide +kernel⟩,
   ⟨withRing { st := .reset }, .west, 1, by decide +kernel⟩,
   ⟨withCq { configured := true, log2 := 4, instRing := 1, inst := 7, written := 16 } 1 (withRing { st := .reset, resetAt := 90000000 }), .west, 1, by decide +kernel⟩,
   ⟨withRing { st := .idle, shadowEn := true, shadowDue := some 100000000 }, .west, 1, 100000000, by decide +kernel⟩,
   ⟨withRing { st := .idle, prio := 2, readyAt := some 0, queue := [{ blk := 0, slot := 0 }] }, .west, 1, 0, by decide +kernel⟩,
   ⟨withOp { iss := .ring .west 1, inst := some 7, phase := .waitTrig, since := 90000000 } { run with insts := [(7, { inst7 with maxTriggers := 0 })] }, 1, by decide +kernel⟩,
   ⟨fullCache 32768, 1, ⟨rfl, by decide +kernel, fullCache_waits _ (Nat.le_refl _)⟩⟩,
   ⟨fullOps 262144, 1, ⟨rfl, by decide +kernel, fullOps_waits _ (Nat.le_refl _)⟩⟩,
   ⟨withOp { iss := .ring .west 1, inst := some 7, blk := rowBlk (blk [(16, 0, 24, 16)]) 0x63 [], phase := .waitMaxOps, since := 90000000 } { run with insts := [(7, { inst7 with maxOps := 0 })] }, 1, by decide +kernel⟩,
   ⟨fullCtx 131072, 1, ⟨rfl, by decide +kernel, fullCtx_waits _ (Nat.le_refl _)⟩⟩,
   ⟨withOp { iss := .ring .west 1, inst := some 7, blk := rowBlk (blk [(48, 0, 16, 2)]) 0x22 [], phase := .waitPosted, since := 90000000 } { run with insts := [(7, { inst7 with maxPosted := 0 })] }, 1, by decide +kernel⟩⟩

/-- Every clause of `Obligations.DispatchTakesTheBestWork` has its case. -/
theorem witness_DispatchTakesTheBestWork :
    (∃ (s : State) (d : Die) (l : Nat) (f : FlumeReq),
      let u := retryWaits s d
      forensic s = false ∧
      s.sys.inReset = false ∧
      (freeThreads u d).isEmpty = false ∧
      nextWork u d = some (.request f, l)) ∧
    (∃ (s : State) (d : Die) (l : Nat) (o : Nat),
      let u := retryWaits s d
      forensic s = false ∧
      s.sys.inReset = false ∧
      (freeThreads u d).isEmpty = false ∧
      nextWork u d = some (.fired o, l)) ∧
    (∃ (s : State) (d : Die) (l : Nat) (n : Nat),
      let u := retryWaits s d
      forensic s = false ∧
      s.sys.inReset = false ∧
      (freeThreads u d).isEmpty = false ∧
      nextWork u d = some (.ring n, l)) ∧
    (∃ (s : State) (d : Die) (l : Nat) (m : Nat),
      let u := retryWaits s d
      forensic s = false ∧
      s.sys.inReset = false ∧
      (freeThreads u d).isEmpty = false ∧
      nextWork u d = some (.level m, l)) ∧
    (∃ (s : State) (d : Die) (l : Nat) (w : Work),
      let u := retryWaits s d
      forensic s = false ∧
      s.sys.inReset = false ∧
      (freeThreads u d).isEmpty = true ∧
      nextWork u d = some (w, l)) ∧
    (∃ (s : State) (d : Die),
      ((die s d).sch.flumeReqs.find? fun r => reqWhole r && !r.executing) = none ∧
      dispatchable s d 0 = true) ∧
    (∃ (s : State) (d : Die) (n : Nat),
      ((die s d).sch.flumeReqs.find? fun r => reqWhole r && !r.executing) = none ∧
      dispatchable s d 0 = false ∧
      firedAt s d 4 = [] ∧
      ((die s d).rings.aged.find? fun m => dispatchable s d m) = some n) :=
  ⟨⟨onW (fun d => { d with sch := { flumeReqs := [{ src := 96, reqDie := 0, reqSeq := 1, firstAt := 0, parts := 0, got := [(0, 0)], executing := false, via := none }] } }) run, .west, 6, { src := 96, reqDie := 0, reqSeq := 1, firstAt := 0, parts := 0, got := [(0, 0)], executing := false, via := none }, by decide +kernel⟩,
   ⟨withOp { phase := .ready, level := 3 }, .west, 3, 1, by decide +kernel⟩,
   ⟨withCmd { configured := true, log2 := 4, cq := 0, st := .idle, queue := [{ blk := 0, slot := 0 }] } 0 run, .west, 5, 0, by decide +kernel⟩,
   ⟨withRing { st := .idle, weight := 1, credits := 1, burst := 1, queue := [{ blk := 0, slot := 0 }] }, .west, 0, 0, by decide +kernel⟩,
   ⟨onW (fun d => { d with eng := {} }) (withCmd { configured := true, log2 := 4, cq := 0, st := .idle, queue := [{ blk := 0, slot := 0 }] } 0 run), .west, 5, .ring 0, by decide +kernel⟩,
   ⟨withCmd { configured := true, log2 := 4, cq := 0, st := .idle, queue := [{ blk := 0, slot := 0 }] } 0 run, .west, by decide +kernel⟩,
   ⟨onW (fun d => { d with rings := { d.rings with aged := [1] } }) (withRing { st := .idle, weight := 1, credits := 1, burst := 1, queue := [{ blk := 0, slot := 0 }] }), .west, 1, by decide +kernel⟩⟩

/-- Every clause of `Obligations.StridesAndFetchesAct` has its case. -/
theorem witness_StridesAndFetchesAct :
    (∃ (s : State) (o : Nat) (c : Nat) (r : ReadDone),
      let x := opOf s o
      x.conn = some c ∧
      x.phase = .long .running ∧
      x.thread.isSome = true ∧
      x.begun = true ∧
      x.read = some r) ∧
    (∃ (s : State) (o : Nat) (c : Nat),
      let x := opOf s o
      x.conn = some c ∧
      x.phase = .long .running ∧
      x.thread.isSome = true ∧
      x.begun = false ∧
      x.cancel = false ∧
      x.strides ≤ x.nextStride) ∧
    (∃ (s : State) (o : Nat) (c : Nat),
      let x := opOf s o
      x.conn = some c ∧
      x.phase = .long .running ∧
      x.thread.isSome = true ∧
      x.begun = false ∧
      x.cancel = true) ∧
    (∃ (s : State) (o : Nat) (c : Nat),
      let x := opOf s o
      x.conn = some c ∧
      x.phase = .long .running ∧
      x.thread.isSome = true ∧
      x.begun = false ∧
      x.nextStride < x.strides ∧
      x.cancel = false ∧
      x.preempt = true) ∧
    (∃ (s : State) (o : Nat) (c : Nat),
      let x := opOf s o
      x.conn = some c ∧
      x.phase = .long .running ∧
      x.thread.isSome = true ∧
      x.begun = false ∧
      x.nextStride < x.strides ∧
      x.cancel = false ∧
      x.preempt = false) ∧
    (∃ (s : State) (o : Nat) (w : Nat × Nat),
      let x := opOf s o
      x.phase = .long .suspended ∧
      (freeThreads s x.die).head? = some w ∧
      nextWork s x.die = none ∧
      forensic s = false) ∧
    (∃ (s : State) (o : Nat) (l : Nat) (w : Nat × Nat) (k : Work),
      let x := opOf s o
      x.phase = .long .suspended ∧
      (freeThreads s x.die).head? = some w ∧
      nextWork s x.die = some (k, l) ∧
      l ≤ x.level ∧
      forensic s = false) ∧
    (∃ (s : State) (o : Nat) (a : Nat) (h : Nat) (l : List ReadPart) (t : State) (b : Block),
      let x := opOf t o
      takeReads s (.op o) (anyTimeout l) = some (true, t) ∧
      entryRead l = some (.ok b) ∧
      x.phase = .fetching a h ∧
      opWalking t x.die o = false) ∧
    (∃ (s : State) (o : Nat) (a : Nat) (h : Nat) (l : List ReadPart) (t : State) (f : ReadFail),
      let x := opOf t o
      takeReads s (.op o) (anyTimeout l) = some (true, t) ∧
      entryRead l = some (.fail f) ∧
      x.phase = .fetching a h ∧
      opWalking t x.die o = false) :=
  ⟨⟨withOp { conn := some 0x100, phase := .long .running, thread := some (0, 3), begun := true, read := some { bytes := [], fail := none } }, 1, 0x100, { bytes := [], fail := none }, by decide +kernel⟩,
   ⟨withOp { conn := some 0x100, phase := .long .running, thread := some (0, 3), nextStride := 1, strides := 1 }, 1, 0x100, by decide +kernel⟩,
   ⟨withOp { conn := some 0x100, phase := .long .running, thread := some (0, 3), strides := 1, cancel := true }, 1, 0x100, by decide +kernel⟩,
   ⟨withOp { conn := some 0x100, phase := .long .running, thread := some (0, 3), strides := 1, preempt := true }, 1, 0x100, by decide +kernel⟩,
   ⟨withOp { conn := some 0x100, phase := .long .running, thread := some (0, 3), strides := 1 }, 1, 0x100, by decide +kernel⟩,
   ⟨withOp { phase := .long .suspended }, 1, (0, 0), by decide +kernel⟩,
   ⟨onW id { (withCmd { configured := true, log2 := 4, cq := 0, st := .idle, queue := [{ blk := 0, slot := 0 }] } 0 run) with ops := [(1, { phase := .long .suspended, level := 5 })] }, 1, 5, (0, 0), .ring 0, by decide +kernel⟩,
   ⟨withOp { phase := .fetching 0 0 }, 1, 0, 0, part 0, withOp { phase := .fetching 0 0 }, 0, by decide +kernel⟩,
   ⟨withOp { phase := .fetching 0 63 }, 1, 0, 63, lostPart .timeout, withOp { phase := .fetching 0 63 }, .timeout, by decide +kernel⟩⟩

/-- Every clause of `Obligations.HostTranslationsComplete` has its case. -/
theorem witness_HostTranslationsComplete :
    (∃ (s : State) (o : Nat) (l : List ReadPart) (t : State),
      let x := opOf t o
      let rd := readOutcome l
      takeReads s (.op o) (anyTimeout l) = some (true, t) ∧
      opWalking t x.die o = false ∧
      rd.fail = none ∧
      rd.bytes.length = readLength x ∧
      x.phase = .long .running ∧
      x.begun = true ∧
      x.read = none) ∧
    (∃ (s : State) (o : Nat) (c : Nat) (l : List ReadPart) (t : State),
      let x := opOf t o
      let rd := readOutcome l
      takeReads s (.op o) (anyTimeout l) = some (true, t) ∧
      opWalking t x.die o = false ∧
      rd.fail = none ∧
      rd.bytes.length = readLength x ∧
      x.phase = .reading ∧
      x.conn = some c) ∧
    (∃ (s : State) (o : Nat) (c : Nat) (l : List ReadPart) (t : State) (f : ReadFail),
      let x := opOf t o
      let rd := readOutcome l
      takeReads s (.op o) (anyTimeout l) = some (true, t) ∧
      opWalking t x.die o = false ∧
      rd.fail = some f ∧
      x.phase = .reading ∧
      x.conn = some c) ∧
    (∃ (s : State) (d : Die) (n : Nat) (v : Word) (t : State) (w : Walk),
      let a := bits v.toNat 16 48 * 65536 + 8 * (w.page % 8192)
      takeReads s (.walk d n) (false) = some (true, t) ∧
      tget none (die t d).hst.walks n = some w ∧
      w.level = 1 ∧
      bit v.toNat 0 = true ∧
      bits v.toNat 2 14 = 0 ∧
      inAperture t (inst t w.inst).fn.port a = false) ∧
    (∃ (s : State) (d : Die) (n : Nat) (v : Word) (t : State) (w : Walk),
      let ps := pageShift w.snap
      takeReads s (.walk d n) (false) = some (true, t) ∧
      tget none (die t d).hst.walks n = some w ∧
      w.level = 2 ∧
      bit v.toNat 0 = true ∧
      bits v.toNat 2 (ps - 2) = 0) ∧
    (∃ (s : State) (d : Die) (n : Nat) (r : WordRead) (t : State) (w : Walk),
      takeReads s (.walk d n) (decide (r = .fail .timeout)) = some (true, t) ∧
      tget none (die t d).hst.walks n = some w ∧
      (w.level = 1 ∨ w.level = 2) ∧
      ((∃ f, r = .fail f) ∨ (∃ v : Word, r = .ok v ∧ bit v.toNat 0 = false))) ∧
    (∃ (s : State) (d : Die) (n : Nat) (v : Word) (t : State) (w : Walk),
      takeReads s (.walk d n) (false) = some (true, t) ∧
      tget none (die t d).hst.walks n = some w ∧
      w.level = 1 ∧
      bit v.toNat 0 = true ∧
      bits v.toNat 2 14 = 0 ∧
      inAperture t (inst t w.inst).fn.port (bits v.toNat 16 48 * 65536 + 8 * (w.page % 8192)) = true) ∧
    (∃ (s : State) (d : Die) (n : Nat) (w : Walk),
      tget none (die s d).hst.walks n = some w ∧
      w.level = 3) ∧
    (∃ (s : State) (d : Die) (n : Nat) (w : Walk),
      tget none (die s d).hst.walks n = some w ∧
      w.level = 3 ∧
      w.stale = false) ∧
    (∃ (s : State) (f : FnId),
      (fnOf s f).inst = none) ∧
    (∃ (s : State) (f : FnId) (i : Nat),
      (fnOf s f).inst = some i) :=
  ⟨⟨withOp { phase := .long .running, begun := true, blk := blk [(0, 0, 8, 1), (40, 0, 33, 1)] }, 1, [{ off := 0, bytes := [7], fail := none }], withOp { phase := .long .running, begun := true, blk := blk [(0, 0, 8, 1), (40, 0, 33, 1)] }, by decide +kernel⟩,
   ⟨withOp { phase := .reading, conn := some 0x100, blk := blk [(0, 0, 8, 1), (40, 0, 33, 1)] }, 1, 0x100, [{ off := 0, bytes := [7], fail := none }], withOp { phase := .reading, conn := some 0x100, blk := blk [(0, 0, 8, 1), (40, 0, 33, 1)] }, by decide +kernel⟩,
   ⟨withOp { phase := .reading, conn := some 0x100 }, 1, 0x100, [{ off := 0, bytes := [], fail := some .poison }], withOp { phase := .reading, conn := some 0x100 }, .poison, by decide +kernel⟩,
   ⟨withWalk (walk 1), .west, 0, 0x10001, withWalk (walk 1), walk 1, by decide +kernel⟩,
   ⟨withWalk (walk 2), .west, 0, 0x10003, withWalk (walk 2), walk 2, by decide +kernel⟩,
   ⟨withWalk (walk 1), .west, 0, .fail .timeout, withWalk (walk 1), walk 1, by refine ⟨by decide +kernel, by decide +kernel, Or.inl rfl, Or.inl ⟨_, rfl⟩⟩⟩,
   ⟨withWalk (walk 1) (setReg (setReg run .west 0x801100 1) .west 0x801108 0xFFFFFFFFF000), .west, 0, 0x10001, withWalk (walk 1) (setReg (setReg run .west 0x801100 1) .west 0x801108 0xFFFFFFFFF000), walk 1, by decide +kernel⟩,
   ⟨withWalk (walk 3), .west, 0, walk 3, by decide +kernel⟩,
   ⟨withWalk (walk 3), .west, 0, walk 3, by decide +kernel⟩,
   ⟨run, { port := 0, link := 0, fn := 0 }, by decide +kernel⟩,
   ⟨run, { port := 1, link := 0, fn := 0 }, 7, by decide +kernel⟩⟩

/-- Every clause of `Obligations.PacketsAreReceivedInOrder` has its case. -/
theorem witness_PacketsAreReceivedInOrder :
    (∃ (s : State) (d : Die) (p : Pkt) (r : ReqPkt),
      bodyOf p = .req r ∧
      (isPull r.op || isFinish r.op) = false ∧
      s.ident.valid = true ∧
      stationBound s d (stnOf p.dst) = true ∧
      stationServes s d (stnOf p.dst) r.dstInst = true ∧
      (connDie r.conn = d ∧ ((conn s d r.conn).st = .established ∨ (conn s d r.conn).st = .draining) ∧ (conn s d r.conn).peerConn = r.peer ∧
        (conn s d r.conn).remoteStation = p.src ∧ localAddr s d (conn s d r.conn) = p.dst ∧ (conn s d r.conn).tc = p.tc ∧
        (conn s d r.conn).remoteInst = r.srcInst ∧ (conn s d r.conn).inst = r.dstInst) ∧
      psnBefore r.psn (conn s d r.conn).expected = true) ∧
    (∃ (s : State) (d : Die) (p : Pkt) (r : ReqPkt),
      bodyOf p = .req r ∧
      (isPull r.op || isFinish r.op) = false ∧
      s.ident.valid = true ∧
      stationBound s d (stnOf p.dst) = true ∧
      stationServes s d (stnOf p.dst) r.dstInst = true ∧
      (connDie r.conn = d ∧ ((conn s d r.conn).st = .established ∨ (conn s d r.conn).st = .draining) ∧ (conn s d r.conn).peerConn = r.peer ∧
        (conn s d r.conn).remoteStation = p.src ∧ localAddr s d (conn s d r.conn) = p.dst ∧ (conn s d r.conn).tc = p.tc ∧
        (conn s d r.conn).remoteInst = r.srcInst ∧ (conn s d r.conn).inst = r.dstInst) ∧
      psnBefore r.psn (conn s d r.conn).expected = false ∧
      4095 < (r.psn - (conn s d r.conn).expected).toNat) ∧
    (∃ (s : State) (d : Die) (p : Pkt) (r : ReqPkt),
      bodyOf p = .req r ∧
      (isPull r.op || isFinish r.op) = false ∧
      s.ident.valid = true ∧
      stationBound s d (stnOf p.dst) = true ∧
      stationServes s d (stnOf p.dst) r.dstInst = true ∧
      (connDie r.conn = d ∧ ((conn s d r.conn).st = .established ∨ (conn s d r.conn).st = .draining) ∧ (conn s d r.conn).peerConn = r.peer ∧
        (conn s d r.conn).remoteStation = p.src ∧ localAddr s d (conn s d r.conn) = p.dst ∧ (conn s d r.conn).tc = p.tc ∧
        (conn s d r.conn).remoteInst = r.srcInst ∧ (conn s d r.conn).inst = r.dstInst) ∧
      psnBefore r.psn (conn s d r.conn).expected = false ∧
      (r.psn - (conn s d r.conn).expected).toNat ≤ 4095 ∧
      (conn s d r.conn).held.any (fun h => decide (h.psn = r.psn)) = true) ∧
    (∃ (s : State) (d : Die) (p : Pkt) (r : ReqPkt),
      bodyOf p = .req r ∧
      (isPull r.op || isFinish r.op) = false ∧
      s.ident.valid = true ∧
      stationBound s d (stnOf p.dst) = true ∧
      stationServes s d (stnOf p.dst) r.dstInst = true ∧
      (connDie r.conn = d ∧ ((conn s d r.conn).st = .established ∨ (conn s d r.conn).st = .draining) ∧ (conn s d r.conn).peerConn = r.peer ∧
        (conn s d r.conn).remoteStation = p.src ∧ localAddr s d (conn s d r.conn) = p.dst ∧ (conn s d r.conn).tc = p.tc ∧
        (conn s d r.conn).remoteInst = r.srcInst ∧ (conn s d r.conn).inst = r.dstInst) ∧
      psnBefore r.psn (conn s d r.conn).expected = false ∧
      (r.psn - (conn s d r.conn).expected).toNat ≤ 4095 ∧
      (conn s d r.conn).held.any (fun h => decide (h.psn = r.psn)) = false) ∧
    (∃ (s : State) (d : Die) (p : Pkt) (r : ReqPkt),
      bodyOf p = .req r ∧
      (isPull r.op || isFinish r.op) = false ∧
      s.ident.valid = true ∧
      (stationBound s d (stnOf p.dst) && stationServes s d (stnOf p.dst) r.dstInst) = false) ∧
    (∃ (s : State) (d : Die) (p : Pkt) (r : ReqPkt),
      bodyOf p = .req r ∧
      isPull r.op = true ∧
      s.ident.valid = true ∧
      stationBound s d (stnOf p.dst) = true ∧
      stationServes s d (stnOf p.dst) r.dstInst = true ∧
      (connDie r.conn = d ∧ ((conn s d r.conn).st = .established ∨ (conn s d r.conn).st = .draining) ∧ (conn s d r.conn).peerConn = r.peer ∧
        (conn s d r.conn).remoteStation = p.src ∧ localAddr s d (conn s d r.conn) = p.dst ∧ (conn s d r.conn).tc = p.tc ∧
        (conn s d r.conn).remoteInst = r.srcInst ∧ (conn s d r.conn).inst = r.dstInst) ∧
      psnBefore r.psn (conn s d r.conn).expected = false ∧
      (r.psn - (conn s d r.conn).expected).toNat ≤ 4095 ∧
      (conn s d r.conn).held.any (fun h => decide (h.psn = r.psn)) = false) ∧
    (∃ (s : State) (d : Die) (p : Pkt) (r : ReqPkt),
      bodyOf p = .req r ∧
      isFinish r.op = true ∧
      s.ident.valid = true ∧
      stationBound s d (stnOf p.dst) = true ∧
      stationServes s d (stnOf p.dst) r.dstInst = true ∧
      (connDie r.conn = d ∧ ((conn s d r.conn).st = .established ∨ (conn s d r.conn).st = .draining) ∧ (conn s d r.conn).peerConn = r.peer ∧
        (conn s d r.conn).remoteStation = p.src ∧ localAddr s d (conn s d r.conn) = p.dst ∧ (conn s d r.conn).tc = p.tc ∧
        (conn s d r.conn).remoteInst = r.srcInst ∧ (conn s d r.conn).inst = r.dstInst) ∧
      psnBefore r.psn (conn s d r.conn).expected = false ∧
      (r.psn - (conn s d r.conn).expected).toNat ≤ 4095 ∧
      (conn s d r.conn).held.any (fun h => decide (h.psn = r.psn)) = false) :=
  ⟨⟨run, .west, pkt (.req (req (.more [7]) 0xFFFFFFFF)), req (.more [7]) 0xFFFFFFFF, by decide +kernel⟩,
   ⟨run, .west, pkt (.req (req (.more [7]) 4096)), req (.more [7]) 4096, by decide +kernel⟩,
   ⟨withConn { conn100 with held := [{ psn := 5, pkt := pkt (.req (req (.more [7]) 5)), poison := false, proposal := none, spec := .none, hr := { bytes := [], fail := none } }] }, .west, pkt (.req (req (.more [7]) 5)), req (.more [7]) 5, by decide +kernel⟩,
   ⟨run, .west, pkt (.req (req (.more [7]) 4095)), req (.more [7]) 4095, by decide +kernel⟩,
   ⟨run, .west, { pkt (.req (req (.more [7]))) with dst := 5221 }, req (.more [7]), by decide +kernel⟩,
   ⟨run, .west, pkt (.req (req (.pull 0 0 64) 0)), req (.pull 0 0 64) 0, by decide +kernel⟩,
   ⟨run, .west, pkt (.req (req (.finish 0 64 0 0))), req (.finish 0 64 0 0), by decide +kernel⟩⟩

/-- Every clause of `Obligations.ConnectionsTimeAndAnswer` has its case. -/
theorem witness_ConnectionsTimeAndAnswer :
    (∃ (s : State) (d : Die) (c : Nat) (t : Nat),
      (conn s d c).ackAt = some t ∧
      t ≤ s.now) ∧
    (∃ (s : State) (d : Die) (c : Nat) (t : Nat),
      (conn s d c).flushDueAt = some t ∧
      t ≤ s.now) ∧
    (∃ (s : State) (d : Die) (c : Nat) (v : BitVec 32) (u : State),
      takeReads s (.flush d c) false = some (true, u) ∧
      (conn u d c).flushCover = some v) ∧
    (∃ (s : State) (d : Die) (c : Nat),
      let k := conn s d c
      (k.st = .established ∨ k.st = .draining) ∧
      rtoDue s d k = []) ∧
    (∃ (s : State) (d : Die) (c : Nat),
      let k := conn s d c
      let l := rtoDue s d k
      (k.st = .established ∨ k.st = .draining) ∧
      l ≠ []) ∧
    (∃ (s : State) (d : Die) (c : Nat) (p : TxPkt) (l : List TxPkt),
      let k := conn s d c
      k.waitTx = p :: l ∧
      k.cwnd < p.bytes ∧
      k.unacked.length < 4096 ∧
      k.lastSent + k.srtt * p.bytes / k.cwnd ≤ s.now) ∧
    (∃ (s : State) (d : Die) (c : Nat) (t : Nat),
      let k := conn s d c
      (k.st = .established ∨ k.st = .draining) ∧
      k.progressAt = some t ∧
      t + 2000000000 ≤ s.now) ∧
    (∃ (s : State) (d : Die) (c : Nat) (q : BitVec 32) (p : TxPkt),
      let k := conn s d c
      k.rnrPsn = some q ∧
      k.rnrResendAt ≤ s.now ∧
      (k.unacked.find? fun p => decide (p.psn = q)) = some p) ∧
    (∃ (s : State) (d : Die) (c : Nat) (t : Nat) (r : ReqPkt),
      let k := conn s d c
      k.rnrSince = some t ∧
      k.rnrHead = some r ∧
      t + 10000000 ≤ s.now ∧
      rnrStill s d c r = true ∧
      r.psn = k.expected) ∧
    (∃ (s : State) (d : Die) (p : Pkt) (a : AckPkt) (q : BitVec 32),
      bodyOf p = .ack a ∧
      ((conn s d a.conn).st = .established ∨ (conn s d a.conn).st = .draining) ∧
      (conn s d a.conn).peerConn = a.peer ∧
      connDie a.conn = d ∧
      stationTakes s d p (conn s d a.conn).inst = true ∧
      a.nak = some (q, .unbound)) ∧
    (∃ (s : State) (d : Die) (p : Pkt) (a : AckPkt) (q : BitVec 32),
      bodyOf p = .ack a ∧
      ((conn s d a.conn).st = .established ∨ (conn s d a.conn).st = .draining) ∧
      (conn s d a.conn).peerConn = a.peer ∧
      connDie a.conn = d ∧
      stationTakes s d p (conn s d a.conn).inst = true ∧
      a.nak = some (q, .absent)) ∧
    (∃ (s : State) (d : Die) (p : Pkt) (a : AckPkt),
      bodyOf p = .ack a ∧
      ((conn s d a.conn).st = .established ∨ (conn s d a.conn).st = .draining) ∧
      (conn s d a.conn).peerConn = a.peer ∧
      connDie a.conn = d ∧
      stationTakes s d p (conn s d a.conn).inst = true ∧
      a.nak = none) ∧
    (∃ (s : State) (d : Die) (p : Pkt) (r : RespPkt) (l : List (Nat × Nat)),
      let k := conn s d r.conn
      let x := opOf s r.handle
      bodyOf p = .resp r ∧
      (k.st = .established ∨ k.st = .draining) ∧
      k.remoteStation = p.src ∧
      (inst s k.inst).st ≠ .resetting ∧
      stationTakes s d p k.inst = true ∧
      r.pull = false ∧
      opcode x = 0x03 ∧
      x.conn = some r.conn ∧
      x.die = d ∧
      xltRange s (k.xl ++ x.xl) (x.inst.getD 1024) .lw (.target r.conn) (fld (opBlk x) 16 0 64 + r.off) r.data.length = .ok l) ∧
    (∃ (s : State) (o : Nat),
      (opOf s o).phase = .ctxDrain ∧
      opcode (opOf s o) = 0x25 ∧
      sendsLive s (opOf s o).die ((opOf s o).inst.getD 1024) (fld (opBlk (opOf s o)) 48 0 16) = false) ∧
    (∃ (s : State) (o : Nat),
      let y := ctxOf s (opOf s o).die ((opOf s o).inst.getD 1024) (fld (opBlk (opOf s o)) 48 0 16)
      (opOf s o).phase = .ctxDrain ∧
      opcode (opOf s o) ≠ 0x25 ∧
      y.matched = []) :=
  ⟨⟨withConn { conn100 with ackAt := some 100000000 }, .west, 0x100, 100000000, by decide +kernel⟩,
   ⟨withConn { conn100 with flushDueAt := some 0 }, .west, 0x100, 0, by decide +kernel⟩,
   ⟨withConn { conn100 with flushCover := some 9 }, .west, 0x100, 9, withConn { conn100 with flushCover := some 9 }, by decide +kernel⟩,
   ⟨run, .west, 0x100, by decide +kernel⟩,
   ⟨withConn { conn100 with unacked := [tx] }, .west, 0x100, by decide +kernel⟩,
   ⟨withConn { conn100 with waitTx := [tx], cwnd := 255 }, .west, 0x100, tx, [], by decide +kernel⟩,
   ⟨{ (withConn { conn100 with progressAt := some 0 }) with now := 2000000000 }, .west, 0x100, 0, by decide +kernel⟩,
   ⟨withConn { conn100 with rnrPsn := some 0, unacked := [tx] }, .west, 0x100, 0, tx, by decide +kernel⟩,
   ⟨{ (withConn { conn100 with rnrSince := some 90000000, rnrHead := some (req (.msg 2 0x55 1 [7])) }) with insts := [(7, { inst7 with maxUnexp := 0 })] }, .west, 0x100, 90000000, req (.msg 2 0x55 1 [7]), by decide +kernel⟩,
   ⟨run, .west, pkt (.ack (ack (some (0, .unbound)))), ack (some (0, .unbound)), 0, by decide +kernel⟩,
   ⟨run, .west, pkt (.ack (ack (some (0, .absent)))), ack (some (0, .absent)), 0, by decide +kernel⟩,
   ⟨run, .west, pkt (.ack (ack none)), ack none, by decide +kernel⟩,
   ⟨withOp { iss := .ring .west 1, inst := some 7, conn := some 0x100, phase := .sent, blk := blk [(0, 0, 8, 3), (16, 0, 64, 0x10000), (40, 0, 33, 3)] }, .west, pkt (.resp { conn := 0x100, inst := 7, pull := false, handle := 1, off := 0, data := [1, 2, 3], fail := none }), { conn := 0x100, inst := 7, pull := false, handle := 1, off := 0, data := [1, 2, 3], fail := none }, [(0x4000000, 3)], by decide +kernel⟩,
   ⟨withOp { iss := .ring .west 1, inst := some 7, phase := .ctxDrain, blk := blk [(0, 0, 8, 0x25), (48, 0, 16, 2)] }, 1, by decide +kernel⟩,
   ⟨withOp { iss := .ring .west 1, inst := some 7, phase := .ctxDrain, blk := blk [(0, 0, 8, 0x26), (48, 0, 16, 2)] }, 1, by decide +kernel⟩⟩

/-- Every clause of `Obligations.ConnectionsOpenAndClose` has its case. -/
theorem witness_ConnectionsOpenAndClose :
    (∃ (s : State) (d : Die) (p : Pkt) (q : CtlPkt),
      let c := q.peerConn
      let k := conn s d c
      bodyOf p = .ctl q ∧
      q.kind = .connect ∧
      stationTakes s d p q.remoteInst = true ∧
      k.st = .pending ∧
      mirrorBits s d c q = 0) ∧
    (∃ (s : State) (d : Die) (p : Pkt) (q : CtlPkt),
      let c := q.peerConn
      let k := conn s d c
      bodyOf p = .ctl q ∧
      q.kind = .connectAck ∧
      stationTakes s d p q.remoteInst = true ∧
      k.st = .pending ∧
      mirrorBits s d c q = 0) ∧
    (∃ (s : State) (d : Die) (p : Pkt) (q : CtlPkt),
      let c := q.peerConn
      let k := conn s d c
      bodyOf p = .ctl q ∧
      (q.kind = .connect ∨ q.kind = .connectAck) ∧
      stationTakes s d p q.remoteInst = true ∧
      k.st = .pending ∧
      mirrorBits s d c q ≠ 0) ∧
    (∃ (s : State) (d : Die) (p : Pkt) (q : CtlPkt),
      let c := q.peerConn
      let k := conn s d c
      bodyOf p = .ctl q ∧
      q.kind = .connect ∧
      stationTakes s d p q.remoteInst = true ∧
      k.st = .established ∧
      mirrorBits s d c q = 0) ∧
    (∃ (s : State) (d : Die) (p : Pkt) (q : CtlPkt),
      let c := q.peerConn
      let k := conn s d c
      bodyOf p = .ctl q ∧
      (q.kind = .teardown ∨ q.kind = .close) ∧
      stationTakes s d p k.inst = true ∧
      (k.st = .established ∨ k.st = .draining) ∧
      k.peerConn = q.conn) ∧
    (∃ (s : State) (d : Die) (c : Nat),
      let k := conn s d c
      k.st = .pending ∧
      k.connectAt + 1000000 ≤ s.now) ∧
    (∃ (s : State) (d : Die) (c : Nat),
      let k := conn s d c
      k.st = .draining ∧
      k.ops = [] ∧
      k.sides = [] ∧
      filling s d c = false) ∧
    (∃ (s : State) (d : Die) (c : Nat),
      let k := conn s d c
      k.st = .failed ∧
      k.fromDraining = true ∧
      k.ops = []) :=
  ⟨⟨withConn { conn100 with st := .pending }, .west, pkt (.ctl (ctl .connect)), ctl .connect, by decide +kernel⟩,
   ⟨withConn { conn100 with st := .pending }, .west, pkt (.ctl (ctl .connectAck)), ctl .connectAck, by decide +kernel⟩,
   ⟨withConn { conn100 with st := .pending }, .west, pkt (.ctl (ctl .connect 3)), ctl .connect 3, by decide +kernel⟩,
   ⟨run, .west, pkt (.ctl (ctl .connect)), ctl .connect, by decide +kernel⟩,
   ⟨run, .west, pkt (.ctl (ctl .teardown)), ctl .teardown, by decide +kernel⟩,
   ⟨withConn { conn100 with st := .pending, connectAt := 99000000 }, .west, 0x100, by decide +kernel⟩,
   ⟨withConn { conn100 with st := .draining }, .west, 0x100, by decide +kernel⟩,
   ⟨withConn { conn100 with st := .failed, fromDraining := true }, .west, 0x100, by decide +kernel⟩⟩

/-- Every clause of `Obligations.TheWindowFollowsR134` has its case. -/
theorem witness_TheWindowFollowsR134 :
    (∃ (s : State) (d : Die),
      cwndMin s d ≤ cwndMax s d) :=
  ⟨run, .west, by decide +kernel⟩

/-- Every clause of `Obligations.TheBinderyActs` has its case. -/
theorem witness_TheBinderyActs :
    (∃ (s : State) (d : Die) (p : BndPkt) (t : Tree) (h : BndHead) (es : List BndElem) (ms : List (Nat × List Nat)),
      let v := learnRelay s d p.cctx t p
      let x := bndCtx v d p.cctx
      bndFor s d p = some t ∧
      p.body = .partialUp h es ms ∧
      childIs t p.child p.src = true ∧
      (bndCtx s d p.cctx).st ≠ .uninstalled ∧
      x.nextSeq ≤ p.seq ∧
      (∀ y, findSeg x p.seq p.seg = some y → y.held.any (fun k => decide (k.child = p.child)) = false) ∧
      x.st ≠ .aborted) ∧
    (∃ (s : State) (d : Die) (p : BndPkt) (t : Tree) (h : BndHead) (es : List BndElem) (ms : List (Nat × List Nat)),
      let v := learnRelay s d p.cctx t p
      let x := bndCtx v d p.cctx
      bndFor s d p = some t ∧
      p.body = .partialUp h es ms ∧
      childIs t p.child p.src = true ∧
      (bndCtx s d p.cctx).st ≠ .uninstalled ∧
      x.nextSeq ≤ p.seq ∧
      (∀ y, findSeg x p.seq p.seg = some y → y.held.any (fun k => decide (k.child = p.child)) = false) ∧
      x.st = .aborted) ∧
    (∃ (s : State) (d : Die) (p : BndPkt) (t : Tree) (h : BndHead) (es : List BndElem) (ms : List (Nat × List Nat)),
      let v := learnRelay s d p.cctx t p
      let x := bndCtx v d p.cctx
      bndFor s d p = some t ∧
      p.body = .partialUp h es ms ∧
      childIs t p.child p.src = true ∧
      (bndCtx s d p.cctx).st ≠ .uninstalled ∧
      p.seq < x.nextSeq) ∧
    (∃ (s : State) (d : Die) (p : BndPkt) (t : Tree) (h : BndHead) (es : List BndElem) (ms : List (Nat × List Nat)) (y : Seg),
      let v := learnRelay s d p.cctx t p
      let x := bndCtx v d p.cctx
      bndFor s d p = some t ∧
      p.body = .partialUp h es ms ∧
      childIs t p.child p.src = true ∧
      (bndCtx s d p.cctx).st ≠ .uninstalled ∧
      findSeg x p.seq p.seg = some y ∧
      y.held.any (fun k => decide (k.child = p.child)) = true) ∧
    (∃ (s : State) (d : Die) (p : BndPkt) (t : Tree) (h : BndHead) (raw : List Nat) (an : Bool) (ao : Bool) (y : Seg),
      let v := modBnd s d p.cctx fun x => { x with backupDownAt := none }
      let u := bndUp v d p.cctx t p.seq p.seg .ackDown
      let x := bndCtx u d p.cctx
      bndFor s d p = some t ∧
      p.body = .result h raw an ao ∧
      p.src = t.parent ∧
      t.root = false ∧
      (bndCtx s d p.cctx).st ≠ .uninstalled ∧
      findSeg x p.seq p.seg = some y ∧
      y.result = none) ∧
    (∃ (s : State) (d : Die) (p : BndPkt) (t : Tree) (h : BndHead) (raw : List Nat) (an : Bool) (ao : Bool) (y : Seg),
      let v := modBnd s d p.cctx fun x => { x with backupDownAt := none }
      let u := bndUp v d p.cctx t p.seq p.seg .ackDown
      let x := bndCtx u d p.cctx
      bndFor s d p = some t ∧
      p.body = .result h raw an ao ∧
      p.src = t.parent ∧
      t.root = false ∧
      (bndCtx s d p.cctx).st ≠ .uninstalled ∧
      findSeg x p.seq p.seg = some y ∧
      y.result.isSome = true) ∧
    (∃ (s : State) (d : Die) (p : BndPkt) (t : Tree) (h : BndHead) (raw : List Nat) (an : Bool) (ao : Bool),
      let v := modBnd s d p.cctx fun x => { x with backupDownAt := none }
      let u := bndUp v d p.cctx t p.seq p.seg .ackDown
      let x := bndCtx u d p.cctx
      bndFor s d p = some t ∧
      p.body = .result h raw an ao ∧
      p.src = t.parent ∧
      t.root = false ∧
      (bndCtx s d p.cctx).st ≠ .uninstalled ∧
      findSeg x p.seq p.seg = none ∧
      p.seq < x.nextSeq) ∧
    (∃ (s : State) (d : Die) (p : BndPkt) (t : Tree),
      bndFor s d p = some t ∧
      p.body = .ackUp ∧
      p.src = t.parent) ∧
    (∃ (s : State) (d : Die) (p : BndPkt) (t : Tree),
      bndFor s d p = some t ∧
      p.body = .ackDown ∧
      childIs t p.child p.src = true) ∧
    (∃ (s : State) (d : Die) (p : BndPkt) (t : Tree) (sub : Nat) (kept : List Nat),
      let v := modBnd s d p.cctx fun x => { x with backupDownAt := none }
      let x := bndCtx v d p.cctx
      bndFor s d p = some t ∧
      p.body = .abort sub kept ∧
      t.root = false ∧
      p.src = t.parent ∧
      x.st = .ready) ∧
    (∃ (s : State) (d : Die) (p : BndPkt) (t : Tree) (sub : Nat) (kept : List Nat),
      let x := bndCtx s d p.cctx
      bndFor s d p = some t ∧
      p.body = .abort sub kept ∧
      (t.root = true ∨ p.src ≠ t.parent) ∧
      childIs t p.child p.src = true ∧
      x.st = .ready) ∧
    (∃ (s : State) (d : Die) (c : Nat) (q : Nat) (g : Nat) (t : Tree) (y : Seg) (b : BndBody),
      treeOf s d c = some t ∧
      findSeg (bndCtx s d c) q g = some y ∧
      y.partialBody = some b ∧
      y.result = none ∧
      y.sentAt + bndResendNs s d ≤ s.now) ∧
    (∃ (s : State) (d : Die) (c : Nat) (q : Nat) (g : Nat) (t : Tree) (y : Seg) (b : BndBody),
      treeOf s d c = some t ∧
      findSeg (bndCtx s d c) q g = some y ∧
      y.partialBody = none ∧
      y.result = some b ∧
      y.resultAt + bndResendNs s d ≤ s.now) ∧
    (∃ (s : State) (d : Die) (p : BndPkt),
      p.relay = true ∧
      p.via = routerAddr s d ∧
      p.dst ≠ routerAddr s d) ∧
    (∃ (s : State) (d : Die) (c : Nat) (a : Nat) (t : Tree),
      let x := bndCtx s d c
      treeOf s d c = some t ∧
      x.st = .ready ∧
      x.backupDownAt = some a ∧
      a + 2000000000 ≤ s.now ∧
      bndBusy x = true) ∧
    (∃ (s : State) (d : Die) (c : Nat) (t : Tree) (e : Nat × Nat),
      let x := bndCtx s d c
      treeOf s d c = some t ∧
      x.st = .ready ∧
      x.backupDownAt = none ∧
      e ∈ x.childDown ∧
      e.2 + 2000000000 ≤ s.now ∧
      bndBusy x = true) :=
  ⟨⟨withNode { st := .ready }, .west, bpkt 5248 (.partialUp head0 [] []), decTree tree6, head0, [], [], by refine ⟨by decide +kernel, by decide +kernel, by decide +kernel, by decide +kernel, by decide +kernel, fun y h => absurd (h.symm.trans (by decide +kernel : _ = none)) (by simp), by decide +kernel⟩⟩,
   ⟨withNode { st := .aborted, abortCause := 4 }, .west, bpkt 5248 (.partialUp head0 [] []), decTree tree6, head0, [], [], by refine ⟨by decide +kernel, by decide +kernel, by decide +kernel, by decide +kernel, by decide +kernel, fun y h => absurd (h.symm.trans (by decide +kernel : _ = none)) (by simp), by decide +kernel⟩⟩,
   ⟨withNode { st := .ready, nextSeq := 1 }, .west, bpkt 5248 (.partialUp head0 [] []), decTree tree6, head0, [], [], by decide +kernel⟩,
   ⟨withNode { st := .ready, segs := [{ seg0 with held := [{ child := 0, es := [], members := [] }] }] }, .west, bpkt 5248 (.partialUp head0 [] []), decTree tree6, head0, [], [], { seg0 with held := [{ child := 0, es := [], members := [] }] }, by decide +kernel⟩,
   ⟨withNode { st := .ready, segs := [seg0] }, .west, bpkt 5280 (.result head0 [] false false), decTree tree6, head0, [], false, false, seg0, by decide +kernel⟩,
   ⟨withNode { st := .ready, segs := [{ seg0 with result := some .ackUp }] }, .west, bpkt 5280 (.result head0 [] false false), decTree tree6, head0, [], false, false, { seg0 with result := some .ackUp }, by decide +kernel⟩,
   ⟨withNode { st := .ready, nextSeq := 1 }, .west, bpkt 5280 (.result head0 [] false false), decTree tree6, head0, [], false, false, by decide +kernel⟩,
   ⟨withNode { st := .ready }, .west, bpkt 5280 (.ackUp), decTree tree6, by decide +kernel⟩,
   ⟨withNode { st := .ready }, .west, bpkt 5248 (.ackDown), decTree tree6, by decide +kernel⟩,
   ⟨withNode { st := .ready }, .west, bpkt 5280 (.abort 1 []), decTree tree6, 1, [], by decide +kernel⟩,
   ⟨withNode { st := .ready }, .west, bpkt 5248 (.abort 1 []), decTree tree6, 1, [], by decide +kernel⟩,
   ⟨withNode { st := .ready, segs := [{ seg0 with partialBody := some .ackUp }] }, .west, 5, 0, 0, decTree tree6, { seg0 with partialBody := some .ackUp }, .ackUp, by decide +kernel⟩,
   ⟨withNode { st := .ready, segs := [{ seg0 with result := some .ackUp }] }, .west, 5, 0, 0, decTree tree6, { seg0 with result := some .ackUp }, .ackUp, by decide +kernel⟩,
   ⟨run, .west, { bpkt 5248 .ackUp with relay := true, via := 5216, dst := 5280 }, by decide +kernel⟩,
   ⟨{ (withNode { st := .ready, segs := [seg0], backupDownAt := some 0 }) with now := 2000000000 }, .west, 5, 0, decTree tree6, by decide +kernel⟩,
   ⟨{ (withNode { st := .ready, segs := [seg0], childDown := [(0, 0)] }) with now := 2000000000 }, .west, 5, decTree tree6, (0, 0), by decide +kernel⟩⟩

/-- Every clause of `Obligations.RoutersChooseAPath` has its case. -/
theorem witness_RoutersChooseAPath :
    (∃ (p : Pkt) (port : Nat),
      form2Port p = some port) ∧
    (∃ (s : State) (d : Die) (p : Pkt),
      form2Port p = none ∧
      s.ident.valid = true ∧
      routerPart p.dst = routerAddr s d) ∧
    (∃ (s : State) (d : Die) (p : Pkt) (b : BndPkt),
      let q := { p with src := routerAddr s d + stnOf p.src }
      form2Port p = none ∧
      s.ident.valid = true ∧
      routerPart p.dst ≠ routerAddr s d ∧
      bodyOf q = .bnd b) ∧
    (∃ (s : State) (d : Die) (p : Pkt),
      let q := { p with src := routerAddr s d + stnOf p.src }
      form2Port p = none ∧
      s.ident.valid = true ∧
      routerPart p.dst ≠ routerAddr s d ∧
      (∀ b, bodyOf q ≠ .bnd b) ∧
      ownDie s p.dst ≠ some d.other ∧
      destAbsent s d p.dst = true) ∧
    (∃ (s : State) (d : Die) (p : Pkt),
      let q := { p with src := routerAddr s d + stnOf p.src }
      form2Port p = none ∧
      s.ident.valid = true ∧
      routerPart p.dst ≠ routerAddr s d ∧
      (∀ b, bodyOf q ≠ .bnd b) ∧
      (ownDie s p.dst = some d.other ∨ destAbsent s d p.dst = false) ∧
      (neverOrd q = true ∨ touchesFore s d q = true)) ∧
    (∃ (s : State) (d : Die) (p : Pkt),
      let q := { p with src := routerAddr s d + stnOf p.src }
      let n := numberPkt s d q
      form2Port p = none ∧
      s.ident.valid = true ∧
      routerPart p.dst ≠ routerAddr s d ∧
      (∀ b, bodyOf q ≠ .bnd b) ∧
      (ownDie s p.dst = some d.other ∨ destAbsent s d p.dst = false) ∧
      neverOrd q = false ∧
      touchesFore s d q = false ∧
      (cooling s (flowOf s d (pktFlow q)) = true ∨ bit (regVal s d 0xF00000) q.tc = false ∨ n.2.ord = false)) ∧
    (∃ (s : State) (d : Die) (p : Pkt),
      let q := { p with src := routerAddr s d + stnOf p.src }
      let n := numberPkt s d q
      form2Port p = none ∧
      s.ident.valid = true ∧
      routerPart p.dst ≠ routerAddr s d ∧
      (∀ b, bodyOf q ≠ .bnd b) ∧
      (ownDie s p.dst = some d.other ∨ destAbsent s d p.dst = false) ∧
      neverOrd q = false ∧
      touchesFore s d q = false ∧
      cooling s (flowOf s d (pktFlow q)) = false ∧
      bit (regVal s d 0xF00000) q.tc = true ∧
      n.2.ord = true) ∧
    (∃ (p : Pkt),
      (p.kind = 3 ∨ p.rsv ≠ 0 ∨ (p.chan16 = true ∧ 1 < p.len))) ∧
    (∃ (p : Pkt) (f : FlumePkt),
      p.kind ≠ 3 ∧
      p.rsv = 0 ∧
      (p.chan16 = true → p.len ≤ 1) ∧
      flumeOf p = some f ∧
      f.form = 2) ∧
    (∃ (s : State) (d : Die) (p : Pkt) (i : Ingress),
      let u := takeBridge s d p i
      p.kind ≠ 3 ∧
      p.rsv = 0 ∧
      (p.chan16 = true → p.len ≤ 1) ∧
      (∀ f, flumeOf p = some f → f.form ≠ 2) ∧
      u.ident.valid = true ∧
      nextHop u d p = .absent) ∧
    (∃ (s : State) (d : Die) (p : Pkt) (i : Ingress),
      let u := takeBridge s d p i
      p.kind ≠ 3 ∧
      p.rsv = 0 ∧
      (p.chan16 = true → p.len ≤ 1) ∧
      (∀ f, flumeOf p = some f → f.form ≠ 2) ∧
      u.ident.valid = true ∧
      nextHop u d p ≠ .absent) :=
  ⟨⟨pkt (.flume { ftype := 0, form := 2, relayPort := 3, part := 0, parts := 0, reqSeq := 1, reqDie := 0, blk := 0 }), 3, by decide +kernel⟩,
   ⟨run, .west, pkt (.notice 5217 0), by decide +kernel⟩,
   ⟨run, .west, { pkt (.bnd (bpkt 5280 (.abort 1 []))) with dst := 5280 }, bpkt 5280 (.abort 1 []), by decide +kernel⟩,
   ⟨run, .west, { pkt (.notice 5217 0) with dst := 5280 }, by refine ⟨by decide +kernel, by decide +kernel, by decide +kernel, ?_, by decide +kernel, by decide +kernel⟩; intro b; simp [bodyOf, pkt]⟩,
   ⟨run, .west, { pkt (.notice 5217 0) with dst := 5233, chan16 := true }, by refine ⟨by decide +kernel, by decide +kernel, by decide +kernel, ?_, by decide +kernel, by decide +kernel⟩; intro b; simp [bodyOf, pkt]⟩,
   ⟨setReg run .west 0xF00000 0, .west, { pkt (.req (req (.more [7]))) with dst := 5233 }, by refine ⟨by decide +kernel, by decide +kernel, by decide +kernel, ?_, by decide +kernel, by decide +kernel, by decide +kernel, by decide +kernel⟩; intro b; simp [bodyOf, pkt]⟩,
   ⟨setReg run .west 0xF00000 1, .west, { pkt (.req (req (.more [7]))) with dst := 5233 }, by refine ⟨by decide +kernel, by decide +kernel, by decide +kernel, ?_, by decide +kernel, by decide +kernel, by decide +kernel, by decide +kernel, by decide +kernel, by decide +kernel⟩; intro b; simp [bodyOf, pkt]⟩,
   ⟨{ pkt (.notice 5217 0) with kind := 3 }, by decide +kernel⟩,
   ⟨{ pkt (.flume fl2) with chan16 := true }, fl2, by decide +kernel⟩,
   ⟨run, .west, { pkt (.notice 5217 0) with dst := 5248 }, .link 0, ⟨by decide +kernel, by decide +kernel, by decide +kernel, fun f h => absurd (h.symm.trans (by decide +kernel : _ = none)) (by simp), by decide +kernel, by decide +kernel⟩⟩,
   ⟨run, .west, pkt (.notice 5217 0), .link 0, ⟨by decide +kernel, by decide +kernel, by decide +kernel, fun f h => absurd (h.symm.trans (by decide +kernel : _ = none)) (by simp), by decide +kernel, by decide +kernel⟩⟩⟩

/-- Every clause of `Obligations.TheBoomAndItsFlows` has its case. -/
theorem witness_TheBoomAndItsFlows :
    (∃ (s : State) (d : Die) (p : Pkt),
      let f := boomOf s d p.src p.tc
      p.ord = true ∧
      f.st = .synced ∧
      p.start = false ∧
      f.held.any (fun h => decide (h.1 = p.fseq)) = false ∧
      boomDist p.fseq f.next = 0) ∧
    (∃ (s : State) (d : Die) (p : Pkt),
      let f := boomOf s d p.src p.tc
      let u := setBoom s d p.src p.tc { f with lastUse := s.now }
      p.ord = true ∧
      f.st = .synced ∧
      p.start = false ∧
      f.held.any (fun h => decide (h.1 = p.fseq)) = false ∧
      0 < boomDist p.fseq f.next ∧
      boomDist p.fseq f.next ≤ 65535 ∧
      boomRoom u d p = true) ∧
    (∃ (s : State) (d : Die) (p : Pkt),
      let f := boomOf s d p.src p.tc
      p.ord = true ∧
      f.st = .synced ∧
      p.start = false ∧
      f.held.any (fun h => decide (h.1 = p.fseq)) = false ∧
      65535 < boomDist p.fseq f.next ∧
      boomDist p.fseq f.next < 2 ^ 31) ∧
    (∃ (s : State) (d : Die) (p : Pkt),
      let f := boomOf s d p.src p.tc
      p.ord = true ∧
      f.st = .synced ∧
      p.start = false ∧
      (f.held.any (fun h => decide (h.1 = p.fseq)) = true ∨ 2 ^ 31 ≤ boomDist p.fseq f.next)) ∧
    (∃ (s : State) (d : Die) (p : Pkt) (u : State),
      p.ord = true ∧
      (boomOf s d p.src p.tc).st = .absent ∧
      boomEntry s d = some u ∧
      p.start = true) ∧
    (∃ (s : State) (d : Die) (p : Pkt),
      p.ord = true ∧
      (boomOf s d p.src p.tc).st = .absent ∧
      boomEntry s d = none) ∧
    (∃ (s : State) (d : Die) (src : Nat) (tc : Nat) (o : Nat × Nat × Pkt),
      boomOldest (boomOf s d src tc) = some o ∧
      o.2.1 + 64000 ≤ s.now) ∧
    (∃ (s : State) (d : Die) (src : Nat) (tc : Nat),
      (boomOf s d src tc).st = .synced ∧
      (boomOf s d src tc).held = [] ∧
      (boomOf s d src tc).lastUse + 512000 ≤ s.now) ∧
    (∃ (s : State) (d : Die) (p : Pkt) (src : Nat) (tc : Nat),
      let f : FlowId := { src := src, tc := tc, dstRouter := routerPart p.src }
      bodyOf p = .notice src tc ∧
      (flowOf s d f).live = true) ∧
    (∃ (s : State) (d : Die) (p : Pkt) (src : Nat) (tc : Nat) (u : State),
      let f : FlowId := { src := src, tc := tc, dstRouter := routerPart p.src }
      bodyOf p = .notice src tc ∧
      (flowOf s d f).live = false ∧
      flowRoom s d = some u) ∧
    (∃ (s : State) (d : Die) (f : FlowId) (t : Nat),
      (flowOf s d f).cooldownTill = some t ∧
      t ≤ s.now) ∧
    (∃ (s : State) (d : Die) (f : FlowId),
      (flowOf s d f).live = true ∧
      (flowOf s d f).lastInject + 256000 ≤ s.now ∧
      cooling s (flowOf s d f) = false) :=
  ⟨⟨withFlow { st := .synced, next := 0 }, .west, { pkt (.raw []) with ord := true }, by decide +kernel⟩,
   ⟨withFlow { st := .synced, next := 0 }, .west, { pkt (.raw []) with ord := true, fseq := 65535 }, by decide +kernel⟩,
   ⟨withFlow { st := .synced, next := 0 }, .west, { pkt (.raw []) with ord := true, fseq := 65536 }, by decide +kernel⟩,
   ⟨withFlow { st := .synced, next := 0, held := [(7, 0, pkt (.raw []))] }, .west, { pkt (.raw []) with ord := true, fseq := 7 }, by decide +kernel⟩,
   ⟨run, .west, { pkt (.raw []) with ord := true, start := true }, run, by decide +kernel⟩,
   ⟨fullBoom 262144, .west, { pkt (.raw []) with ord := true }, ⟨rfl, rfl, fullBoom_none _ (Nat.le_refl _)⟩⟩,
   ⟨withFlow { st := .synced, next := 0, held := [(7, 99936000, pkt (.raw []))] }, .west, 5217, 0, (7, 99936000, pkt (.raw [])), by decide +kernel⟩,
   ⟨withFlow { st := .synced, lastUse := 99488000 }, .west, 5217, 0, by decide +kernel⟩,
   ⟨withSrc { live := true }, .west, pkt (.notice 5217 0), 5217, 0, by decide +kernel⟩,
   ⟨run, .west, pkt (.notice 5217 0), 5217, 0, run, by decide +kernel⟩,
   ⟨withSrc { cooldownTill := some 100000000 }, .west, { src := 5217, tc := 0, dstRouter := 5216 }, 100000000, by decide +kernel⟩,
   ⟨withSrc { live := true, lastInject := 99744000 }, .west, { src := 5217, tc := 0, dstRouter := 5216 }, by decide +kernel⟩⟩

/-- Every clause of `Obligations.SchedulersServeInTiers` has its case. -/
theorem witness_SchedulersServeInTiers :
    (∃ (s : State) (d : Die) (eg : Nat) (q : QPkt) (l : List QPkt),
      forensic s = false ∧
      (egSched s d eg).flume = q :: l ∧
      flumeOk s d eg q = true) ∧
    (∃ (s : State) (d : Die) (eg : Nat),
      forensic s = false ∧
      (∀ q, (egSched s d eg).flume.head? = some q → flumeOk s d eg q = false)) ∧
    (∃ (s : State) (d : Die) (eg : Nat) (p : Pick),
      let x := egSched s d eg
      (0x7E ≤ eg → (brg s d (egOf eg)).crossing.find? (fun c => decide (0 < bridgeCredit (brg s d (egOf eg)) (brgChan c.q.chan c.q.stage))) = none) ∧
      (eg < 0x7E → resumable s d eg = none ∧ (link s d eg).txSel = none) ∧
      pickUrgent x s d (pktEligible s d eg) (egLeaf s d eg) = some p ∧
      stageSlots x + (p.q.pkt.len + 1) ≤ 1040) ∧
    (∃ (s : State) (d : Die) (eg : Nat) (p : Pick),
      let x := egSched s d eg
      (0x7E ≤ eg → (brg s d (egOf eg)).crossing.find? (fun c => decide (0 < bridgeCredit (brg s d (egOf eg)) (brgChan c.q.chan c.q.stage))) = none) ∧
      (eg < 0x7E → resumable s d eg = none ∧ (link s d eg).txSel = none) ∧
      pickUrgent x s d (pktEligible s d eg) (egLeaf s d eg) = none ∧
      pickNormal x s d (egLeaves s d eg) = some p ∧
      stageSlots x + (p.q.pkt.len + 1) ≤ 1040) ∧
    (∃ (s : State) (d : Die) (eg : Nat),
      let x := egSched s d eg
      (0x7E ≤ eg → (brg s d (egOf eg)).crossing.find? (fun c => decide (0 < bridgeCredit (brg s d (egOf eg)) (brgChan c.q.chan c.q.stage))) = none) ∧
      (eg < 0x7E → resumable s d eg = none ∧ (link s d eg).txSel = none) ∧
      pickUrgent x s d (pktEligible s d eg) (egLeaf s d eg) = none ∧
      pickNormal x s d (egLeaves s d eg) = none) ∧
    (∃ (s : State) (d : Die) (eg : Nat) (chan : Nat) (rest : List Block),
      let x := egSched s d eg
      eg < 0x7E ∧
      resumable s d eg = some (chan, rest) ∧
      stageSlots x + 66 ≤ 1040) ∧
    (∃ (s : State) (d : Die) (port : Nat) (q : QPkt) (l : List QPkt),
      forensic s = false ∧
      (tget {} (die s d).sch.inject port).flume = q :: l) ∧
    (∃ (s : State) (d : Die) (port : Nat) (p : Pick) (v : State),
      let x := tget {} (die s d).sch.inject port
      let u := onSch s d fun y => { y with inject := tset {} y.inject port (chargePick x p).1, injq := tmod {} y.injq p.key fun q => serveQueue q p.q (chargePick x p).2 (x.urgent.contains (p.tc, p.sub.no, p.q)) }
      forensic s = false ∧
      x.flume = [] ∧
      (pickUrgent x s d (fun _ => true) (injLeaf s d port) = some p ∨ (pickUrgent x s d (fun _ => true) (injLeaf s d port) = none ∧ pickNormal x s d (injLeaves s d port) = some p)) ∧
      cellRead u d 0x10 p.q.owner (if p.sub.no = mgmtWho then none else some p.sub.no) = (true, v)) ∧
    (∃ (s : State) (d : Die) (port : Nat) (p : Pick) (v : State),
      let x := tget {} (die s d).sch.inject port
      let u := onSch s d fun y => { y with inject := tset {} y.inject port (chargePick x p).1, injq := tmod {} y.injq p.key fun q => serveQueue q p.q (chargePick x p).2 (x.urgent.contains (p.tc, p.sub.no, p.q)) }
      forensic s = false ∧
      x.flume = [] ∧
      (pickUrgent x s d (fun _ => true) (injLeaf s d port) = some p ∨ (pickUrgent x s d (fun _ => true) (injLeaf s d port) = none ∧ pickNormal x s d (injLeaves s d port) = some p)) ∧
      cellRead u d 0x10 p.q.owner (if p.sub.no = mgmtWho then none else some p.sub.no) = (false, v)) ∧
    (∃ (s : State) (d : Die) (q : QueueId) (h : QPkt) (l : List QPkt),
      let x := tget {} (die s d).sch.injq (injKey q.at_ q.tc q.who)
      q.inj = true ∧
      x.pkts = h :: l ∧
      whoWeight s d q.who q.tc ≠ 0 ∧
      ageLimit s d ≤ x.age ∧
      x.promoted = false ∧
      tcWeight s d q.tc ≠ 0) ∧
    (∃ (s : State) (d : Die) (q : QueueId) (h : QPkt),
      let x := tget {} (die s d).sch.egq (leafKey q.at_ q.tc q.who)
      q.inj = false ∧
      leafHead s d q.at_ x.pkts = some h ∧
      groupWeight s d q.tc q.who ≠ 0 ∧
      ageLimit s d ≤ x.age ∧
      x.promoted = false ∧
      tcWeight s d q.tc ≠ 0) :=
  ⟨⟨withEgress { flume := [qp 16] } {}, .west, 0, qp 16, [], by decide +kernel⟩,
   ⟨withEgress {} { pkts := [qp] }, .west, 0, ⟨rfl, fun q h => nomatch h⟩⟩,
   ⟨withEgress { urgent := [(0, 1, qp)] } { pkts := [qp] }, .west, 0, pick 1 1 1, by decide +kernel⟩,
   ⟨withEgress {} { pkts := [qp] }, .west, 0, pick 1 1 1, by decide +kernel⟩,
   ⟨withEgress {} {}, .west, 0, by decide +kernel⟩,
   ⟨withEgress {} {} { st := .up, partnerCredit := 128, susp := [(0, [0])] }, .west, 0, 0, [0], by decide +kernel⟩,
   ⟨onW (fun d => { d with sch := { inject := [(0, { flume := [{ pkt := pkt (.raw []), chan := 16, stage := 0, at_ := 0, inst := none }] })] } }) (run), .west, 0, { pkt := pkt (.raw []), chan := 16, stage := 0, at_ := 0, inst := none }, [], by decide +kernel⟩,
   ⟨withInj 1024 { pkts := [qp] }, .west, 0, pick 1024 255 1024, injTaken (withInj 1024 { pkts := [qp] }) .west 0 (pick 1024 255 1024), by decide +kernel⟩,
   ⟨withInj 1024 { pkts := [qp 0 (some 7)] }, .west, 0, (pick 1024 255 1024 (qp 0 (some 7))), (cellRead (injTaken (withInj 1024 { pkts := [qp 0 (some 7)] }) .west 0 (pick 1024 255 1024 (qp 0 (some 7)))) .west 0x10 (some 7) none).2, by refine ⟨rfl, by decide +kernel, by decide +kernel, cellRead_other (by decide)⟩⟩,
   ⟨setReg (withInj 1024 { pkts := [qp], age := 1000000 }) .west 0x1000008 0, .west, { inj := true, at_ := 0, tc := 0, who := 1024 }, qp, [], by decide +kernel⟩,
   ⟨onW (fun d => { d with sch := { egq := [(64 * 0x7E, { pkts := [qp], age := 1000000 })] } }) (bridgesUp), .west, { inj := false, at_ := 0x7E, tc := 0, who := 0 }, qp, by decide +kernel⟩⟩

/-- Every clause of `Obligations.GatesFollowTheirList` has its case. -/
theorem witness_GatesFollowTheirList :
    (∃ (s : State) (d : Die) (port : Nat),
      let g := gateOf s d (portK port)
      g.pending = true ∧
      g.pendTime ≤ s.time.ns ∧
      epochDue s d g.pendTime = false ∧
      g.pendClear = false) ∧
    (∃ (s : State) (d : Die) (port : Nat),
      let g := gateOf s d (portK port)
      g.pending = true ∧
      g.pendTime ≤ s.time.ns ∧
      epochDue s d g.pendTime = false ∧
      g.pendClear = true) ∧
    (∃ (l : List GateEntry) (off : Nat),
      off < gateCycle l) :=
  ⟨⟨withGate { pending := true }, .west, 0, by decide +kernel⟩,
   ⟨withGate { pending := true, pendClear := true }, .west, 0, by decide +kernel⟩,
   ⟨[{ dur := 64, mask := 0x1FFFF }, { dur := 100, mask := 0x10000 }], 163, by decide +kernel⟩⟩

/-- Every clause of `Obligations.TheFlumeActs` has its case. -/
theorem witness_TheFlumeActs :
    (∃ (s : State) (d : Die) (w : Ingress) (p : Pkt) (f : FlumePkt) (a : FlumeAns),
      let u := (policed s d p).1
      bodyOf p = .flume f ∧
      running s = true ∧
      (flumeHere s d p f = true ∨ f.form = 2 ∧ inUsable s d w = true) ∧
      f.ftype = 0 ∧
      f.part = 0 ∧
      (policed s d p).2 = true ∧
      ((die u d).sch.flumeAns.find? fun a => decide (a.src = routerPart p.src ∧ a.reqDie = f.reqDie ∧ a.reqSeq = f.reqSeq)) = some a) ∧
    (∃ (s : State) (d : Die) (w : Ingress) (p : Pkt) (f : FlumePkt),
      let u := (policed s d p).1
      bodyOf p = .flume f ∧
      running s = true ∧
      (flumeHere s d p f = true ∨ f.form = 2 ∧ inUsable s d w = true) ∧
      (f.ftype = 0 ∧ f.part = 0 ∨ f.ftype = 1 ∧ f.part ≠ 0) ∧
      (policed s d p).2 = true ∧
      ((die u d).sch.flumeAns.find? fun a => decide (a.src = routerPart p.src ∧ a.reqDie = f.reqDie ∧ a.reqSeq = f.reqSeq)) = none ∧
      ((die u d).sch.flumeReqs.any fun q => sameReq q (routerPart p.src) f.reqDie f.reqSeq && (q.executing || reqWhole q)) = false) ∧
    (∃ (s : State) (d : Die) (w : Ingress) (p : Pkt) (f : FlumePkt),
      bodyOf p = .flume f ∧
      running s = true ∧
      (flumeHere s d p f = true ∨ f.form = 2 ∧ inUsable s d w = true) ∧
      (f.ftype = 0 ∧ f.part = 0 ∨ f.ftype = 1 ∧ f.part ≠ 0) ∧
      (policed s d p).2 = false) ∧
    (∃ (s : State) (d : Die) (p : Pkt) (f : FlumePkt) (o : Nat) (x : Op),
      let u := (policed s d p).1
      bodyOf p = .flume f ∧
      running s = true ∧
      f.form = 0 ∧
      p.dst = routerAddr s d ∧
      s.ident.valid = true ∧
      f.ftype = 2 ∧
      f.reqDie = d.idx ∧
      (policed s d p).2 = true ∧
      (u.ops.find? fun y => decide (y.2.phase = .flume ∧ y.2.die = d ∧ y.2.seq = f.reqSeq ∧ tgtAddr y.2.blk = routerPart p.src)) = some (o, x)) ∧
    (∃ (s : State) (d : Die) (p : Pkt) (f : FlumePkt),
      bodyOf p = .flume f ∧
      running s = true ∧
      s.ident.valid = true ∧
      f.form = 1 ∧
      p.dst = routerAddr s d ∧
      (policed s d p).2 = true ∧
      portOfDie d f.relayPort = true) ∧
    (∃ (s : State) (d : Die) (w : Ingress) (p : Pkt) (f : FlumePkt),
      bodyOf p = .flume f ∧
      running s = true ∧
      s.ident.valid = true ∧
      f.form = 2 ∧
      f.ftype = 2 ∧
      inUsable s d w = true) ∧
    (∃ (s : State) (d : Die) (p : Pkt) (f : FlumePkt),
      bodyOf p = .flume f ∧
      running s = true ∧
      f.form = 0 ∧
      p.dst = routerAddr s d ∧
      s.ident.valid = true ∧
      f.ftype = 4 ∧
      (policed s d p).2 = true) ∧
    (∃ (s : State) (o : Nat),
      running s = true ∧
      (opOf s o).phase = .flume ∧
      (opOf s o).lastSend + resendNs s (opOf s o).die ≤ s.now ∧
      s.now < (opOf s o).firstSend + answerLimitNs s (opOf s o).die) ∧
    (∃ (s : State) (o : Nat),
      (opOf s o).phase = .flume ∧
      (opOf s o).firstSend + answerLimitNs s (opOf s o).die ≤ s.now) :=
  ⟨⟨onW (fun d => { d with sch := { flumeAns := [{ src := 5280, reqDie := 0, reqSeq := 1, answer := 0, at_ := 0 }] } }) run, .west, .link 0, { pkt (.flume { ftype := 0, form := 0, relayPort := 0, part := 0, parts := 0, reqSeq := 1, reqDie := 0, blk := 0 }) with dst := 5216, src := 5280 }, { ftype := 0, form := 0, relayPort := 0, part := 0, parts := 0, reqSeq := 1, reqDie := 0, blk := 0 }, { src := 5280, reqDie := 0, reqSeq := 1, answer := 0, at_ := 0 }, by decide +kernel⟩,
   ⟨run, .west, .link 0, { pkt (.flume { ftype := 0, form := 0, relayPort := 0, part := 0, parts := 0, reqSeq := 1, reqDie := 0, blk := 0 }) with dst := 5216, src := 5280 }, { ftype := 0, form := 0, relayPort := 0, part := 0, parts := 0, reqSeq := 1, reqDie := 0, blk := 0 }, by decide +kernel⟩,
   ⟨onW (fun d => { d with sch := { buckets := [{ src := 5280, level := 0, refillAt := 100000000, usedAt := 100000000 }] } }) run, .west, .link 0, { pkt (.flume { ftype := 0, form := 0, relayPort := 0, part := 0, parts := 0, reqSeq := 1, reqDie := 0, blk := 0 }) with dst := 5216, src := 5280 }, { ftype := 0, form := 0, relayPort := 0, part := 0, parts := 0, reqSeq := 1, reqDie := 0, blk := 0 }, by decide +kernel⟩,
   ⟨withOp ({ iss := .ring .west 1, inst := some 7, phase := .flume, seq := 1, blk := blk [(16, 0, 20, 5280)] }), .west, { pkt (.flume { ftype := 2, form := 0, relayPort := 0, part := 0, parts := 0, reqSeq := 1, reqDie := 0, blk := 0 }) with dst := 5216, src := 5280 }, { ftype := 2, form := 0, relayPort := 0, part := 0, parts := 0, reqSeq := 1, reqDie := 0, blk := 0 }, 1, { iss := .ring .west 1, inst := some 7, phase := .flume, seq := 1, blk := blk [(16, 0, 20, 5280)] }, by decide +kernel⟩,
   ⟨run, .west, { pkt (.flume { ftype := 0, form := 1, relayPort := 31, part := 0, parts := 0, reqSeq := 1, reqDie := 0, blk := 0 }) with dst := 5216, src := 5280 }, { ftype := 0, form := 1, relayPort := 31, part := 0, parts := 0, reqSeq := 1, reqDie := 0, blk := 0 }, by decide +kernel⟩,
   ⟨withLink { st := .quarantine } 0 run, .west, .link 0, { pkt (.flume { ftype := 2, form := 2, relayPort := 0, part := 0, parts := 0, reqSeq := 1, reqDie := 0, blk := 0 }) with dst := 5216, src := 5280 }, { ftype := 2, form := 2, relayPort := 0, part := 0, parts := 0, reqSeq := 1, reqDie := 0, blk := 0 }, by decide +kernel⟩,
   ⟨run, .west, { pkt (.flume { ftype := 4, form := 0, relayPort := 0, part := 0, parts := 0, reqSeq := 1, reqDie := 0, blk := 0 }) with dst := 5216, src := 5280 }, { ftype := 4, form := 0, relayPort := 0, part := 0, parts := 0, reqSeq := 1, reqDie := 0, blk := 0 }, by decide +kernel⟩,
   ⟨withOp { phase := .flume, lastSend := 0, firstSend := 99999999 }, 1, by decide +kernel⟩,
   ⟨{ (withOp { phase := .flume }) with now := 60000000000 }, 1, by decide +kernel⟩⟩

/-- Every clause of `Obligations.CruiseMapsAndCountersAct` has its case. -/
theorem witness_CruiseMapsAndCountersAct :
    (∃ (s : State) (d : Die),
      cruiseOn s d = true ∧
      tickDue s 1000 (die s d).crz.sampleTick = true) ∧
    (∃ (s : State) (d : Die),
      cruiseOn s d = true ∧
      tickDue s 2000 (die s d).crz.sumTick = true ∧
      forensic s = false) ∧
    (∃ (s : State) (d : Die) (k : Nat) (m : Summary) (r : PortRec),
      let u := pmc s d 707 1
      portRec u d (kPort d k) = some r ∧
      (link u d k).forerunner = false ∧
      r.role = 1 ∧
      grpOf m.router = u.ident.group) ∧
    (∃ (s : State) (d : Die) (k : Nat) (m : Summary) (r : PortRec),
      let u := pmc s d 707 1
      portRec u d (kPort d k) = some r ∧
      (link u d k).forerunner = false ∧
      r.role = 2 ∧
      routerPart m.router = routerPart (link u d k).partner) ∧
    (∃ (s : State) (d : Die) (m : Summary),
      let u := pmc s d 707 1
      let newer := sumNewer (tget none (die u d).crz.view (rtrOf m.router)) m
      let v := storeSum u d (rtrOf m.router) m true true
      grpOf m.router = u.ident.group ∧
      (newer = false ∨ routerPart m.router ≠ routerAddr v d.other)) ∧
    (∃ (s : State) (d : Die) (m : Summary),
      let u := pmc s d 707 1
      let newer := sumNewer (tget none (die u d).crz.view (rtrOf m.router)) m
      let v := storeSum u d (rtrOf m.router) m true true
      grpOf m.router = u.ident.group ∧
      newer = true ∧
      routerPart m.router = routerAddr v d.other) ∧
    (∃ (s : State) (d : Die),
      cruiseOn s d = true ∧
      tickDue s 2000 (die s d).crz.fwdTick = true ∧
      forensic s = false) ∧
    (∃ (s : State) (d : Die) (r : Nat) (n : NbrRec),
      viewOf s d r = some n ∧
      recStale s d n = true) ∧
    (∃ (s : State) (d : Die),
      let c := (die s d).crz
      let x := s.time.ns / (1000 * max 1 c.mapPeriod)
      c.mapEn = true ∧
      x ≠ c.mapMultiple ∧
      (∀ t, c.mapAt = some t → t + 500 * c.mapPeriod ≤ s.now) ∧
      cruiseOn s d = true ∧
      forensic s = false) ∧
    (∃ (s : State) (d : Die) (p : Pkt) (f : FlumePkt),
      flumeOf p = some f ∧
      f.ftype = 3 ∧
      (policed s d p).2 = true) ∧
    (∃ (s : State) (d : Die) (n : Nat),
      let m := tget {} (die s d).crz.rx n
      m.open_ = true ∧
      m.firstAt + 100000 ≤ s.now) ∧
    (∃ (s : State) (d : Die) (i : Nat) (w : Nat × Nat),
      let u := onCrz s d fun c => { c with wraps := c.wraps.erase w }
      ((die s d).crz.wraps.find? fun w => decide (w.1 = i)) = some w ∧
      bit (regVal u d 0x606008) 11 = false) ∧
    (∃ (s : State) (d : Die) (i : Nat) (w : Nat × Nat),
      let u := onCrz s d fun c => { c with wraps := c.wraps.erase w }
      let v := regVal u d 0x606008
      ((die s d).crz.wraps.find? fun w => decide (w.1 = i)) = some w ∧
      bit v 11 = true) ∧
    (∃ (s : State) (i : Nat),
      twf 0 s.regs = true ∧
      i < 768) :=
  ⟨⟨run, .west, by decide +kernel⟩,
   ⟨run, .west, by decide +kernel⟩,
   ⟨onW (fun d => { d with epc := { doms := [(0, { active := [{ ty := 1, index := 0, content := leBytes 8 1 }] })] } }) (withLink { st := .up, partner := 5280 } 0 run), .west, 0, { router := 5280, northUp := false, southUp := false, split := false, seq := 1, entries := [] }, { role := 1, split := false, forerunner := false, partner := 0 }, by decide +kernel⟩,
   ⟨onW (fun d => { d with epc := { doms := [(0, { active := [{ ty := 1, index := 0, content := leBytes 8 2 }] })] } }) (withLink { st := .up, partner := 5280 } 0 run), .west, 0, { router := 5280, northUp := false, southUp := false, split := false, seq := 1, entries := [] }, { role := 2, split := false, forerunner := false, partner := 0 }, by decide +kernel⟩,
   ⟨run, .west, { router := 5280, northUp := false, southUp := false, split := false, seq := 1, entries := [] }, by decide +kernel⟩,
   ⟨bare, .west, { router := 5232, northUp := true, southUp := true, split := false, seq := 1, entries := [] }, by decide +kernel⟩,
   ⟨run, .west, by decide +kernel⟩,
   ⟨{ (onW (fun d => { d with crz := { view := [(8, some { sum := { router := 5248, northUp := false, southUp := false, split := false, seq := 1, entries := [] }, at_ := 0, usable := true, forwarded := true })] } }) run) with now := 70000000 }, .west, 8, { sum := { router := 5248, northUp := false, southUp := false, split := false, seq := 1, entries := [] }, at_ := 0, usable := true, forwarded := true }, by decide +kernel⟩,
   ⟨{ (onW (fun d => { d with crz := { mapEn := true, mapPeriod := 100 } }) run) with time := { ns := 100000 } }, .west, by refine ⟨by decide +kernel, by decide +kernel, fun t h => absurd (h.symm.trans (by decide +kernel : _ = none)) (by simp), by decide +kernel, by decide +kernel⟩⟩,
   ⟨run, .west, { pkt (.flume { ftype := 3, form := 0, relayPort := 0, part := 0, parts := 0, reqSeq := 1, reqDie := 0, blk := 0 }) with dst := 5216, src := 5280 }, { ftype := 3, form := 0, relayPort := 0, part := 0, parts := 0, reqSeq := 1, reqDie := 0, blk := 0 }, by decide +kernel⟩,
   ⟨onW (fun d => { d with crz := { rx := [(9, { open_ := true, firstAt := 99900000 })] } }) run, .west, 9, by decide +kernel⟩,
   ⟨onW (fun d => { d with crz := { wraps := [(449, 5)] } }) run, .west, 449, (449, 5), by decide +kernel⟩,
   ⟨setReg (onW (fun d => { d with crz := { wraps := [(449, 5)] } }) run) .west 0x606008 2048, .west, 449, (449, 5), by decide +kernel⟩,
   ⟨run, 767, by decide +kernel⟩⟩

/-- Every clause of `Obligations.FramesAreReceivedInOrder` has its case. -/
theorem witness_FramesAreReceivedInOrder :
    (∃ (s : State) (d : Die) (k : Nat) (f : Frame),
      carriesFrames (link s d k) = true ∧
      f.uncorr = true) ∧
    (∃ (s : State) (d : Die) (k : Nat) (f : Frame),
      carriesFrames (link s d k) = true ∧
      f.uncorr = false ∧
      frameCrc (f.slots.map (·.1)) (f.slots.map (·.2)) (frameCtl f.fsn f.ackFsn f.nakMap.toNat f.retx f.empty f.crCh f.crCount) ≠ f.crc) ∧
    (∃ (s : State) (d : Die) (k : Nat) (f : Frame),
      carriesFrames (link s d k) = true ∧
      f.uncorr = false ∧
      frameCrc (f.slots.map (·.1)) (f.slots.map (·.2)) (frameCtl f.fsn f.ackFsn f.nakMap.toNat f.retx f.empty f.crCh f.crCount) = f.crc ∧
      f.empty = true) ∧
    (∃ (s : State) (d : Die) (k : Nat) (f : Frame),
      let q := egCtx (kPort d k) 0
      let u := countRuns (pmcAt (corrected s d k f.corrSym) d (8 * (k / 2) + 4) f.corrSym q) d k f
      let v := frameControl u d k f
      let l := link v d k
      let n := (f.fsn + 4096 - l.expectFsn) % 4096
      let g : RxFrame := { fsn := f.fsn, retx := f.retx, at_ := v.time.ns, slots := f.slots }
      let r := deliverFrame v d k g
      carriesFrames (link s d k) = true ∧
      f.uncorr = false ∧
      frameCrc (f.slots.map (·.1)) (f.slots.map (·.2)) (frameCtl f.fsn f.ackFsn f.nakMap.toNat f.retx f.empty f.crCh f.crCount) = f.crc ∧
      f.empty = false ∧
      carriesFrames l = true ∧
      n = 0 ∧
      r.2 = true) ∧
    (∃ (s : State) (d : Die) (k : Nat) (f : Frame),
      let q := egCtx (kPort d k) 0
      let u := countRuns (pmcAt (corrected s d k f.corrSym) d (8 * (k / 2) + 4) f.corrSym q) d k f
      let v := frameControl u d k f
      let l := link v d k
      let n := (f.fsn + 4096 - l.expectFsn) % 4096
      let g : RxFrame := { fsn := f.fsn, retx := f.retx, at_ := v.time.ns, slots := f.slots }
      let r := deliverFrame v d k g
      carriesFrames (link s d k) = true ∧
      f.uncorr = false ∧
      frameCrc (f.slots.map (·.1)) (f.slots.map (·.2)) (frameCtl f.fsn f.ackFsn f.nakMap.toNat f.retx f.empty f.crCh f.crCount) = f.crc ∧
      f.empty = false ∧
      carriesFrames l = true ∧
      n = 0 ∧
      r.2 = false) ∧
    (∃ (s : State) (d : Die) (k : Nat) (f : Frame),
      let q := egCtx (kPort d k) 0
      let u := countRuns (pmcAt (corrected s d k f.corrSym) d (8 * (k / 2) + 4) f.corrSym q) d k f
      let v := frameControl u d k f
      let l := link v d k
      let n := (f.fsn + 4096 - l.expectFsn) % 4096
      carriesFrames (link s d k) = true ∧
      f.uncorr = false ∧
      frameCrc (f.slots.map (·.1)) (f.slots.map (·.2)) (frameCtl f.fsn f.ackFsn f.nakMap.toNat f.retx f.empty f.crCh f.crCount) = f.crc ∧
      f.empty = false ∧
      carriesFrames l = true ∧
      0 < n ∧
      n < 32 ∧
      l.forerunner = false ∧
      f.retx = true ∧
      l.rxHeld.any (fun e => decide (e.fsn = f.fsn)) = false) ∧
    (∃ (s : State) (d : Die) (k : Nat) (f : Frame),
      let q := egCtx (kPort d k) 0
      let u := countRuns (pmcAt (corrected s d k f.corrSym) d (8 * (k / 2) + 4) f.corrSym q) d k f
      let v := frameControl u d k f
      let l := link v d k
      let n := (f.fsn + 4096 - l.expectFsn) % 4096
      carriesFrames (link s d k) = true ∧
      f.uncorr = false ∧
      frameCrc (f.slots.map (·.1)) (f.slots.map (·.2)) (frameCtl f.fsn f.ackFsn f.nakMap.toNat f.retx f.empty f.crCh f.crCount) = f.crc ∧
      f.empty = false ∧
      carriesFrames l = true ∧
      0 < n ∧
      n < 32 ∧
      l.forerunner = false ∧
      f.retx = false ∧
      l.rxHeld.any (fun e => decide (e.fsn = f.fsn)) = false) ∧
    (∃ (s : State) (d : Die) (k : Nat) (f : Frame),
      let q := egCtx (kPort d k) 0
      let u := countRuns (pmcAt (corrected s d k f.corrSym) d (8 * (k / 2) + 4) f.corrSym q) d k f
      let v := frameControl u d k f
      let l := link v d k
      let n := (f.fsn + 4096 - l.expectFsn) % 4096
      carriesFrames (link s d k) = true ∧
      f.uncorr = false ∧
      frameCrc (f.slots.map (·.1)) (f.slots.map (·.2)) (frameCtl f.fsn f.ackFsn f.nakMap.toNat f.retx f.empty f.crCh f.crCount) = f.crc ∧
      f.empty = false ∧
      carriesFrames l = true ∧
      0 < n ∧
      n < 32 ∧
      l.forerunner = true ∧
      f.retx = false) ∧
    (∃ (s : State) (d : Die) (k : Nat) (f : Frame),
      let q := egCtx (kPort d k) 0
      let u := countRuns (pmcAt (corrected s d k f.corrSym) d (8 * (k / 2) + 4) f.corrSym q) d k f
      let v := frameControl u d k f
      let l := link v d k
      let n := (f.fsn + 4096 - l.expectFsn) % 4096
      carriesFrames (link s d k) = true ∧
      f.uncorr = false ∧
      frameCrc (f.slots.map (·.1)) (f.slots.map (·.2)) (frameCtl f.fsn f.ackFsn f.nakMap.toNat f.retx f.empty f.crCh f.crCount) = f.crc ∧
      f.empty = false ∧
      carriesFrames l = true ∧
      0 < n ∧
      n < 32 ∧
      l.forerunner = false ∧
      l.rxHeld.any (fun e => decide (e.fsn = f.fsn)) = true) ∧
    (∃ (s : State) (d : Die) (k : Nat) (f : Frame),
      let q := egCtx (kPort d k) 0
      let u := countRuns (pmcAt (corrected s d k f.corrSym) d (8 * (k / 2) + 4) f.corrSym q) d k f
      let v := frameControl u d k f
      let l := link v d k
      let n := (f.fsn + 4096 - l.expectFsn) % 4096
      carriesFrames (link s d k) = true ∧
      f.uncorr = false ∧
      frameCrc (f.slots.map (·.1)) (f.slots.map (·.2)) (frameCtl f.fsn f.ackFsn f.nakMap.toNat f.retx f.empty f.crCh f.crCount) = f.crc ∧
      f.empty = false ∧
      carriesFrames l = true ∧
      32 ≤ n ∧
      n < 2048) ∧
    (∃ (s : State) (d : Die) (k : Nat) (f : Frame),
      let q := egCtx (kPort d k) 0
      let u := countRuns (pmcAt (corrected s d k f.corrSym) d (8 * (k / 2) + 4) f.corrSym q) d k f
      let v := frameControl u d k f
      let l := link v d k
      let n := (f.fsn + 4096 - l.expectFsn) % 4096
      carriesFrames (link s d k) = true ∧
      f.uncorr = false ∧
      frameCrc (f.slots.map (·.1)) (f.slots.map (·.2)) (frameCtl f.fsn f.ackFsn f.nakMap.toNat f.retx f.empty f.crCh f.crCount) = f.crc ∧
      f.empty = false ∧
      carriesFrames l = true ∧
      2048 ≤ n) :=
  ⟨⟨withLink { st := .up } 0 run, .west, 0, { frame 0 with bad := [3] }, by decide +kernel⟩,
   ⟨withLink { st := .up } 0 run, .west, 0, { frame 0 [] false false with crc := 0 }, by decide +kernel⟩,
   ⟨withLink { st := .up } 0 run, .west, 0, frame 0 [] true false, by decide +kernel⟩,
   ⟨withLink { st := .up } 0 run, .west, 0, frame 0 [] false false, by decide +kernel⟩,
   ⟨withLink { st := .up } 0 run, .west, 0, frame 0 [(true, 0x55)] false false, by decide +kernel⟩,
   ⟨withLink { st := .up } 0 run, .west, 0, frame 31 [] false true, by decide +kernel⟩,
   ⟨withLink { st := .up } 0 run, .west, 0, frame 2, by decide +kernel⟩,
   ⟨withLink { st := .up, forerunner := true } 0 run, .west, 0, frame 2, by decide +kernel⟩,
   ⟨withLink { st := .up, rxHeld := [{ fsn := 31, retx := false, at_ := 0, slots := [] }] } 0 run, .west, 0, frame 31, by decide +kernel⟩,
   ⟨withLink { st := .up } 0 run, .west, 0, frame 2047 [] false false, by decide +kernel⟩,
   ⟨withLink { st := .up } 0 run, .west, 0, frame 2048 [] false false, by decide +kernel⟩⟩

/-- Every clause of `Obligations.LinksAndBridgesMove` has its case. -/
theorem witness_LinksAndBridgesMove :
    (∃ (s : State) (d : Die) (k : Nat),
      let l := link s d k
      let t := l.txHeld.filter fun g => decide (g.sentAt + 10 * bits (regVal s d 0x1201008) 0 16 ≤ s.now)
      carriesFrames l = true ∧
      t ≠ [] ∧
      (∀ g ∈ t, g.timeouts < 7) ∧
      l.forerunner = false) ∧
    (∃ (s : State) (d : Die) (k : Nat) (g : TxFrame),
      let l := link s d k
      let t := l.txHeld.filter fun g => decide (g.sentAt + 10 * bits (regVal s d 0x1201008) 0 16 ≤ s.now)
      carriesFrames l = true ∧
      g ∈ t ∧
      7 ≤ g.timeouts) ∧
    (∃ (s : State) (d : Die) (k : Nat) (lock : Bool),
      let l := link s d k
      (carriesFrames l = true ∨ l.st = .training ∧ l.train ≠ .waitSignal ∧ lock = false)) ∧
    (∃ (s : State) (d : Die) (k : Nat),
      let l := link s d k
      l.st = .training ∧
      l.train = .waitSignal ∧
      adaptGranted s d k = true) ∧
    (∃ (s : State) (d : Die) (k : Nat),
      let l := link s d k
      l.st = .training ∧
      l.train = .adapting) ∧
    (∃ (s : State) (d : Die) (k : Nat) (a : List Nat),
      let l := link s d k
      l.st = .training ∧
      l.train = .countdown ∧
      (∀ x ∈ a, ∀ y ∈ a, x ≤ y + if l.rate = 0 then 180 else 360)) ∧
    (∃ (s : State) (d : Die) (k : Nat) (t : Nat),
      let l := link s d k
      l.signalAt = some t ∧
      l.st = .training ∧
      t + 500000000 ≤ s.now) ∧
    (∃ (s : State) (d : Die) (k : Nat),
      let l := link s d k
      l.st = .training ∧
      l.train = .waitSignal ∧
      adaptGranted s d k = true ∧
      l.stAt + 1000000000 ≤ s.now) ∧
    (∃ (s : State) (d : Die) (k : Nat),
      let l := link s d k
      l.st = .down ∧
      l.adminEn = true ∧
      l.cause = 7 ∧
      l.stAt + 1000000000 ≤ s.now ∧
      macroDown s d k = false) ∧
    (∃ (s : State) (d : Die) (k : Nat),
      let l := link s d k
      l.st = .down ∧
      l.adminEn = true ∧
      l.cause ∈ [2, 3, 4, 5, 6, 8] ∧
      l.stAt + quietNs s d ≤ s.now ∧
      macroDown s d k = false) ∧
    (∃ (s : State) (d : Die) (k : Nat),
      let l := link s d k
      l.st = .draining ∧
      ((queuedAt s d k = [] ∧ (∀ g ∈ (tget {} (die s d).sch.egress k).stage, g.q.chan = 16) ∧ l.susp = [] ∧ l.txHeld = []) ∨ l.stAt + 1000000 ≤ s.now)) ∧
    (∃ (s : State) (d : Die) (b : Bridge),
      (brg s d b).st = .up) ∧
    (∃ (s : State) (d : Die) (b : Bridge),
      (brg s d b).st = .up) ∧
    (∃ (s : State) (b : Bridge) (we : List Nat) (ew : List Nat),
      (brg s .west b).st = .training ∧
      (brg s .east b).st = .training ∧
      lanesOk we = true ∧
      lanesOk ew = true) ∧
    (∃ (s : State) (b : Bridge) (we : List Nat) (ew : List Nat),
      (brg s .west b).st = .training ∧
      (brg s .east b).st = .training ∧
      (lanesOk we = false ∨ lanesOk ew = false)) ∧
    (∃ (s : State) (b : Bridge),
      (∀ d, (brg s d b).st = .down ∧ (brg s d b).adminEn = true ∧ (brg s d b).downAt + quietNs s d ≤ s.now) ∧
      s.sys.mode ≠ .standby) :=
  ⟨⟨withLink { st := .up, txHeld := [{ fsn := 0, chan := 0, slots := [], sentAt := 0, timeouts := 6 }] } 0 run, .west, 0, by decide +kernel⟩,
   ⟨withLink { st := .up, txHeld := [{ fsn := 0, chan := 0, slots := [], sentAt := 0, timeouts := 7 }] } 0 run, .west, 0, { fsn := 0, chan := 0, slots := [], sentAt := 0, timeouts := 7 }, by decide +kernel⟩,
   ⟨withLink { st := .up } 0 run, .west, 0, true, by decide +kernel⟩,
   ⟨onW (fun d => { d with pwr := { granted := [{ unit := .adapt 0, n := 6, at_ := 0 }] } }) (withLink { st := .training } 0 run), .west, 0, by decide +kernel⟩,
   ⟨withLink { st := .training, train := .adapting } 0 run, .west, 0, by decide +kernel⟩,
   ⟨withLink { st := .training, train := .countdown } 0 run, .west, 0, [180, 0], by decide +kernel⟩,
   ⟨{ (withLink { st := .training, signalAt := some 1500000000 } 0 run) with now := 2000000000 }, .west, 0, 1500000000, by decide +kernel⟩,
   ⟨{ (onW (fun d => { d with pwr := { granted := [{ unit := .adapt 0, n := 6, at_ := 0 }] } }) (withLink { st := .training, stAt := 1000000000 } 0 run)) with now := 2000000000 }, .west, 0, by decide +kernel⟩,
   ⟨{ (withLink { adminEn := true, cause := 7, stAt := 1000000000 } 0 run) with now := 2000000000 }, .west, 0, by decide +kernel⟩,
   ⟨{ (withLink { adminEn := true, cause := 8 } 0 run) with now := 200000000000 }, .west, 0, by decide +kernel⟩,
   ⟨withLink { st := .draining } 0 run, .west, 0, by decide +kernel⟩,
   ⟨bridgesUp, .west, .north, by decide +kernel⟩,
   ⟨bridgesUp, .east, .south, by decide +kernel⟩,
   ⟨bridges { st := .training }, .south, [], [], by decide +kernel⟩,
   ⟨bridges { st := .training }, .south, [0, 0, 0], [], by decide +kernel⟩,
   ⟨{ (bridges { adminEn := true }) with now := 200000000000 }, .north, by refine ⟨fun d => by cases d <;> decide +kernel, by decide +kernel⟩⟩⟩

/-- Every clause of `Obligations.LinkFlitsAndShelvesAct` has its case. -/
theorem witness_LinkFlitsAndShelvesAct :
    (∃ (s : State) (d : Die) (k : Nat),
      let l := link s d k
      carriesFrames l = true ∧
      (∀ t, l.identAt = some t → t + 1000000 ≤ s.now)) ∧
    (∃ (s : State) (d : Die) (k : Nat) (m : Ident),
      let l := link s d k
      l.st = .training ∧
      l.train = .ident ∧
      (m.rate ≠ l.rate ∨ m.split ≠ l.split ∨ m.forerunner ≠ l.forerunner)) ∧
    (∃ (s : State) (d : Die) (k : Nat) (m : Ident),
      let l := link s d k
      l.st = .training ∧
      l.train = .ident ∧
      m.rate = l.rate ∧
      m.split = l.split ∧
      m.forerunner = l.forerunner) ∧
    (∃ (s : State) (d : Die) (k : Nat) (m : Ident),
      let l := link s d k
      (l.st = .up ∨ l.st = .quarantine ∨ l.st = .draining) ∧
      (m.addr ≠ l.partner ∨ m.port ≠ l.partnerPort)) ∧
    (∃ (s : State) (d : Die) (k : Nat),
      (link s d k).forerunner = true) ∧
    (∃ (s : State) (d : Die) (k : Nat) (a : List Nat),
      let l := link s d k
      l.forerunner = true ∧
      carriesFrames l = true ∧
      ((∀ t, l.onoffAt = some t → t + 1000 ≤ s.now) ∨ offMask l a ≠ l.offOut)) ∧
    (∃ (s : State) (d : Die) (k : Nat),
      let l := link s d k
      k ≠ 64 ∧
      carriesFrames l = true ∧
      l.forerunner = false ∧
      (∀ t, l.shelfAt = some t → t + 125000 ≤ s.now)) ∧
    (∃ (s : State) (d : Die),
      let e := (die s d).epc
      anyBridge s d = true ∧
      (∀ t, e.brgShelfAt = some t → t + 125000 ≤ s.now)) ∧
    (∃ (s : State) (d : Die) (k : Nat),
      let l := link s d k
      l.st = .up ∧
      (∀ t, l.timeAt = some t → t + 100000 ≤ s.now)) ∧
    (∃ (s : State) (d : Die) (k : Nat) (m : ShelfFlit),
      let n := m.dom % 8
      let x := dom s d n
      (link s d k).forerunner = false ∧
      n ∉ [3, 6, 7] ∧
      m.epoch = x.epoch ∧
      m.tag = x.tag) ∧
    (∃ (s : State) (d : Die) (k : Nat) (m : ShelfFlit),
      let n := m.dom % 8
      let x := dom s d n
      let key := 8 * k + n
      let mark := tget {} (die s d).epc.marks key
      (link s d k).forerunner = false ∧
      n ∉ [3, 6, 7] ∧
      (m.epoch ≠ x.epoch ∨ m.tag ≠ x.tag) ∧
      (∀ t, x.actAt = some t → t + 1000000 ≤ s.now) ∧
      (m.pending = false ∨ s.time.ns < m.actTime) ∧
      mark.last = false) ∧
    (∃ (s : State) (d : Die) (k : Nat) (m : ShelfFlit),
      let n := m.dom % 8
      let x := dom s d n
      let key := 8 * k + n
      let mark := tget {} (die s d).epc.marks key
      (link s d k).forerunner = false ∧
      n ∉ [3, 6, 7] ∧
      (m.epoch ≠ x.epoch ∨ m.tag ≠ x.tag) ∧
      (∀ t, x.actAt = some t → t + 1000000 ≤ s.now) ∧
      (m.pending = false ∨ s.time.ns < m.actTime) ∧
      mark.last = true ∧
      (∀ t, mark.postedAt = some t → t + 1000000000 ≤ s.now) ∧
      k < 64 ∧
      (link s d k).st ≠ .quarantine ∧
      (link s d k).st ≠ .training) :=
  ⟨⟨withLink { st := .up } 0 run, .west, 0, by refine ⟨by decide +kernel, fun t h => absurd (h.symm.trans (by decide +kernel : _ = none)) (by simp)⟩⟩,
   ⟨withLink { st := .training, train := .ident } 0 run, .west, 0, { addr := 5280, port := 0, rate := 1, split := false, forerunner := false, upper := false, credit := 0, txTs := 0, echoTs := 0, hold := 0 }, by decide +kernel⟩,
   ⟨withLink { st := .training, train := .ident } 0 run, .west, 0, { addr := 5280, port := 0, rate := 0, split := false, forerunner := false, upper := false, credit := 0, txTs := 0, echoTs := 0, hold := 0 }, by decide +kernel⟩,
   ⟨withLink { st := .up } 0 run, .west, 0, { addr := 5280, port := 0, rate := 0, split := false, forerunner := false, upper := false, credit := 0, txTs := 0, echoTs := 0, hold := 0 }, by decide +kernel⟩,
   ⟨withLink { st := .up, forerunner := true } 0 run, .west, 0, by decide +kernel⟩,
   ⟨withLink { st := .up, forerunner := true } 0 run, .west, 0, [3], by refine ⟨by decide +kernel, by decide +kernel, Or.inl (fun t h => absurd (h.symm.trans (by decide +kernel : _ = none)) (by simp))⟩⟩,
   ⟨withLink { st := .up } 0 run, .west, 0, by refine ⟨by decide +kernel, by decide +kernel, by decide +kernel, fun t h => absurd (h.symm.trans (by decide +kernel : _ = none)) (by simp)⟩⟩,
   ⟨bridgesUp, .west, by refine ⟨by decide +kernel, fun t h => absurd (h.symm.trans (by decide +kernel : _ = none)) (by simp)⟩⟩,
   ⟨withLink { st := .up } 0 run, .west, 0, by refine ⟨by decide +kernel, fun t h => absurd (h.symm.trans (by decide +kernel : _ = none)) (by simp)⟩⟩,
   ⟨withLink { st := .up } 0 run, .west, 0, { dom := 4, pending := false, epoch := 0, digest := 0, tag := 0, actTime := 0, pendEpoch := 0 }, by decide +kernel⟩,
   ⟨withLink { st := .up } 0 run, .west, 0, { dom := 4, pending := false, epoch := 1, digest := 0, tag := 0, actTime := 0, pendEpoch := 0 }, by refine ⟨by decide +kernel, by decide +kernel, by decide +kernel, fun t h => absurd (h.symm.trans (by decide +kernel : _ = none)) (by simp), by decide +kernel, by decide +kernel⟩⟩,
   ⟨onW (fun d => { d with epc := { marks := [(4, { last := true })] } }) (withLink { st := .up } 0 run), .west, 0, { dom := 4, pending := false, epoch := 1, digest := 0, tag := 0, actTime := 0, pendEpoch := 0 }, by refine ⟨by decide +kernel, by decide +kernel, by decide +kernel, fun t h => absurd (h.symm.trans (by decide +kernel : _ = none)) (by simp), by decide +kernel, by decide +kernel, fun t h => absurd (h.symm.trans (by decide +kernel : _ = none)) (by simp), by decide +kernel, by decide +kernel, by decide +kernel⟩⟩⟩

/-- Every clause of `Obligations.TimeFollowsItsSource` has its case. -/
theorem witness_TimeFollowsItsSource :
    (∃ (s : State) (d : Die) (k : Nat) (m : TimeFlit),
      let u := modLink s d k fun l => { l with timeTx := m.tTx, timeRx := m.arrival, timeFlit := some m, timeSeen := s.now }
      m.retx = false ∧
      m.stratum ≠ 15 ∧
      sourceGone u = false ∧
      s.time.src = .link d k ∧
      m.tEcho ≠ 0) ∧
    (∃ (s : State) (d : Die) (k : Nat) (m : TimeFlit),
      let u := modLink s d k fun l => { l with timeTx := m.tTx, timeRx := m.arrival, timeFlit := some m, timeSeen := s.now }
      m.retx = false ∧
      m.stratum ≠ 15 ∧
      sourceGone u = false ∧
      s.time.src ≠ .none ∧
      s.time.src ≠ .link d k) ∧
    (∃ (s : State),
      sourceGone s = true) ∧
    (∃ (s : State) (v : Nat),
      (∀ t, s.time.ppsAt = some t → ppsPresent s = false ∨ t + 999000000 ≤ s.now ∧ s.now ≤ t + 1001000000) ∧
      s.time.setAtPps = some v) ∧
    (∃ (s : State) (t : Nat),
      s.time.ppsAt = some t ∧
      s.now < t + 999000000) ∧
    (∃ (s : State) (b : Nat) (e : Int),
      s.time.step = some (b, e) ∧
      b ≤ s.time.ns ∧
      stepAllowed s b e = true) ∧
    (∃ (s : State) (b : Nat) (e : Int),
      s.time.step = some (b, e) ∧
      b ≤ s.time.ns ∧
      stepAllowed s b e = false) ∧
    (∃ (s : State),
      s.time.st = .holdover ∧
      (s.time.holdSince + 300000000000 ≤ s.now ∨ 1000 < grownErr s)) ∧
    (∃ (s : State) (d : Die) (n : Nat) (p : Pend),
      (dom s d n).pend = some p ∧
      p.actTime ≤ s.time.ns ∧
      dueBefore s d n p = false) :=
  ⟨⟨{ (withLink { st := .up } 0 run) with time := { src := .link .west 0, sourceAt := 99500001 } }, .west, 0, { st := 1, set := true, stratum := 14, gm := 1, tTx := 0, tEcho := 5, tRx := 0, estErr := 0, arrival := 0, retx := false }, by decide +kernel⟩,
   ⟨{ (withLink { st := .up } 1 (withLink { st := .up } 0 run)) with time := { src := .link .west 1, sourceAt := 100000000 } }, .west, 0, { st := 1, set := true, stratum := 0, gm := 1, tTx := 0, tEcho := 5, tRx := 0, estErr := 0, arrival := 0, retx := false }, by decide +kernel⟩,
   ⟨{ (withLink { st := .up } 0 run) with time := { src := .link .west 1 } }, by decide +kernel⟩,
   ⟨{ (withLink { st := .up } 0 run) with time := { setAtPps := some 5 } }, 5, by refine ⟨fun t h => absurd (h.symm.trans (by decide +kernel : _ = none)) (by simp), by decide +kernel⟩⟩,
   ⟨{ (withLink { st := .up } 0 run) with time := { ppsAt := some 99999000 } }, 99999000, by decide +kernel⟩,
   ⟨{ (withLink { st := .up } 0 run) with time := { step := some (0, -5) } }, 0, -5, by decide +kernel⟩,
   ⟨{ (withGate { pending := true }) with time := { step := some (0, 0) } }, 0, 0, by decide +kernel⟩,
   ⟨{ bare with time := { st := .holdover }, now := 300000000000 }, by decide +kernel⟩,
   ⟨onW (fun d => { d with epc := { doms := [(4, { pend := some { actTime := 0, epoch := 1, tag := 0, requireLock := false } })] } }) run, .west, 4, { actTime := 0, epoch := 1, tag := 0, requireLock := false }, by decide +kernel⟩⟩

/-- Every clause of `Obligations.ResetsReachInstances` has its case. -/
theorem witness_ResetsReachInstances :
    (∃ (s : State) (f : FnId),
      fnExists s f = true ∧
      f ≠ mgmtFn s) ∧
    (∃ (s : State) (f : FnId),
      fnExists s f = true ∧
      f = mgmtFn s ∧
      mgmtRings (fnReset s f 1) = false) ∧
    (∃ (s : State) (p : Nat) (l : Nat),
      linkExists s p l = true) ∧
    (∃ (s : State) (p : Nat),
      p < 8 ∧
      s.sys.inReset = false) ∧
    (∃ (s : State) (p : Nat),
      p < 8 ∧
      s.sys.inReset = true) ∧
    (∃ (s : State) (p : Nat),
      p < 8 ∧
      (s.sys.mode ≠ .standby ∨ s.sys.inReset = true)) ∧
    (∃ (s : State) (p : Nat),
      p < 8 ∧
      s.sys.inReset = false ∧
      s.sys.mode = .standby) ∧
    (∃ (s : State) (f : FnId),
      fnExists s f = true) ∧
    (∃ (s : State) (i : Nat),
      (inst s i).st = .resetting ∧
      hostLinkUp s (inst s i).fn = true ∧
      resetDrained s i = true) ∧
    (∃ (s : State) (i : Nat),
      (inst s i).st = .quiescing ∧
      instOps s i = []) ∧
    (∃ (s : State) (p : Nat) (l : Nat),
      linkExists s p l = true ∧
      s.sys.inReset = false ∧
      p % 4 ∉ (die s (portDie p)).hst.perst ∧
      unitDown s (portDie p) 0x08 (p % 4) = false ∧
      s.sys.mode ≠ .standby) ∧
    (∃ (s : State) (r : HostReq),
      s.sys.mode = .bringup ∧
      r ≠ .atomicToBar) ∧
    (∃ (s : State) (p : Nat) (l : Nat),
      (s.sys.mode = .bringup ∨ (hlink s p l).up = true)) ∧
    (∃ (s : State) (p : Nat) (l : Nat),
      s.sys.mode ≠ .bringup ∧
      (hlink s p l).up = true) ∧
    (∃ (s : State) (p : Nat) (l : Nat),
      s.sys.mode ≠ .bringup ∧
      (hlink s p l).up = true) ∧
    (∃ (s : State) (p : Nat) (l : Nat) (n : Nat),
      let f : FnId := { port := p, link := l, fn := n }
      s.sys.mode ≠ .bringup ∧
      (hlink s p l).up = true ∧
      fnExists s f = true) ∧
    (∃ (s : State) (p : Nat) (l : Nat) (n : Nat),
      let f : FnId := { port := p, link := l, fn := n }
      s.sys.mode ≠ .bringup ∧
      (hlink s p l).up = true ∧
      fnExists s f = true) ∧
    (∃ (s : State) (p : Nat) (l : Nat) (n : Nat),
      let f : FnId := { port := p, link := l, fn := n }
      s.sys.mode ≠ .bringup ∧
      (hlink s p l).up = true ∧
      fnExists s f = true) ∧
    (∃ (s : State) (p : Nat) (l : Nat) (n : Nat),
      s.sys.mode ≠ .bringup ∧
      (hlink s p l).up = true ∧
      50000 ≤ n ∧
      n ≤ 64000000000) :=
  ⟨⟨run, { port := 1, link := 0, fn := 0 }, by decide +kernel⟩,
   ⟨run, { port := 0, link := 0, fn := 0 }, by decide +kernel⟩,
   ⟨run, 7, 0, by decide +kernel⟩,
   ⟨run, 7, by decide +kernel⟩,
   ⟨{ bare with sys := { bare.sys with inReset := true } }, 7, by decide +kernel⟩,
   ⟨run, 0, by decide +kernel⟩,
   ⟨{ bare with sys := { bare.sys with mode := .standby } }, 0, by decide +kernel⟩,
   ⟨run, { port := 1, link := 0, fn := 0 }, by decide +kernel⟩,
   ⟨withInst { st := .resetting }, 7, by decide +kernel⟩,
   ⟨withInst { st := .quiescing }, 7, by decide +kernel⟩,
   ⟨run, 7, 0, by decide +kernel⟩,
   ⟨State.reset, .read, by decide +kernel⟩,
   ⟨bare, 0, 0, Or.inr rfl⟩,
   ⟨bare, 0, 0, by decide +kernel⟩,
   ⟨bare, 0, 0, by decide +kernel⟩,
   ⟨bare, 0, 0, 0, by decide +kernel⟩,
   ⟨bare, 0, 0, 0, by decide +kernel⟩,
   ⟨bare, 0, 0, 0, by decide +kernel⟩,
   ⟨bare, 0, 0, 50000, by decide +kernel⟩⟩

/-- Every clause of `Obligations.RegistersAndTheMailboxAct` has its case. -/
theorem witness_RegistersAndTheMailboxAct :
    (∃ (s : State) (m : Master) (off : Nat) (n : Nat) (x : Word) (u : State) (v : Nat),
      masterThere s m = true ∧
      (∀ f, m ≠ .host f) ∧
      regWriteAs s m true (homeDie m) (off) n (x.toNat) = (u, .done v)) ∧
    (∃ (s : State) (m : Master) (off : Nat) (n : Nat) (x : Word) (u : State) (a : Nat),
      masterThere s m = true ∧
      (∀ f, m ≠ .host f) ∧
      regWriteAs s m true (homeDie m) off n x.toNat = (u, .denied a)) ∧
    (∃ (s : State) (f : FnId) (off : Nat),
      masterThere s (.host f) = true ∧
      off < 2 ^ 32 ∧
      forensic s = false ∧
      isMgmt s f = false ∧
      (fnOf s f).inst = none) ∧
    (∃ (s : State) (m : Master) (off : Nat) (n : Nat) (x : Word) (u : State) (v : Nat),
      masterThere s m = true ∧
      (∀ f, m ≠ .host f) ∧
      regWriteAs s m true (homeDie m) (0x8000000 + off % 0x4000000) n (x.toNat) = (u, .done v)) ∧
    (∃ (s : State) (m : Master) (off : Nat) (x : BitVec 32) (u : State) (v : Nat),
      masterThere s m = true ∧
      (∀ f, m ≠ .host f) ∧
      regWriteAs s m true (homeDie m) (off) 4 (x.toNat) = (u, .done v)) ∧
    (∃ (s : State) (m : Master) (off : Nat) (u : State) (v : Nat),
      masterThere s m = true ∧
      (∀ f, m ≠ .host f) ∧
      regReadAs s m true (off) 4 = (u, .done v)) ∧
    (∃ (s : State) (m : Master) (off : Nat) (u : State) (v : Nat),
      masterThere s m = true ∧
      (∀ f, m ≠ .host f) ∧
      regReadAs s m true (off) 8 = (u, .done v)) ∧
    (∃ (s : State) (m : Master) (d : Die) (u : State) (v : Nat),
      masterThere s m = true ∧
      (∀ f, m ≠ .host f) ∧
      regReadAs s m true (regOff d 0x1100020) 8 = (u, .done v)) ∧
    (∃ (s : State) (n : Nat) (x : Word) (u : State) (v : Nat),
      masterThere s (.cp .west 0) = true ∧
      regWriteAs s (.cp .west 0) true .west (regOff .west (0x1800000 + 8 * (n % 64))) 8 x.toNat = (u, .done v)) ∧
    (∃ (s : State) (f : FnId) (off : Nat),
      masterThere s (.host f) = true ∧
      off < 2 ^ 32 ∧
      isMgmt s f = false ∧
      forensic s = false ∧
      (fnOf s f).inst = none) ∧
    (∃ (s : State) (v : BitVec 32),
      hostReach s (mgmtFn s) = true ∧
      mbxAccepts s v.toNat = true ∧
      forensic s = false) ∧
    (∃ (s : State) (v : BitVec 32),
      hostReach s (mgmtFn s) = true ∧
      mbxAccepts s v.toNat = true ∧
      forensic s = true ∧
      forensicTakes s.mbx.block = false) ∧
    (∃ (s : State) (v : BitVec 32),
      hostReach s (mgmtFn s) = true ∧
      mbxAccepts s v.toNat = false) ∧
    (∃ (s : State) (r : BitVec 256),
      s.mbx.resultDue = some r ∧
      (asksReset s.mbx.copy = false ∨ s.sys.resetDue = none)) :=
  ⟨⟨aclOpen, .cp .west 0, 0x318, 8, 1, (regWriteAs aclOpen (.cp .west 0) true .west (0x318) 8 (1 : Word).toNat).1, 0, by refine ⟨by decide +kernel, fun _ => by simp, by decide +kernel⟩⟩,
   ⟨bare, .i3c, 0x318, 8, 0, (regWriteAs bare .i3c true .west 0x318 8 (0 : Word).toNat).1, 0x318, by refine ⟨by decide +kernel, fun _ => by simp, by decide +kernel⟩⟩,
   ⟨{ run with fns := [] }, { port := 1, link := 0, fn := 0 }, 0, by decide +kernel⟩,
   ⟨aclOpen, .cp .west 1, 0x200000, 8, 0, (regWriteAs aclOpen (.cp .west 1) true .west (0x8000000 + 0x200000 % 0x4000000) 8 (0 : Word).toNat).1, 0, by refine ⟨by decide +kernel, fun _ => by simp, by decide +kernel⟩⟩,
   ⟨aclOpen, .cp .west 1, 0x308, 0, (regWriteAs aclOpen (.cp .west 1) true .west 0x308 4 (0 : BitVec 32).toNat).1, 0, by refine ⟨by decide +kernel, fun _ => by simp, by decide +kernel⟩⟩,
   ⟨aclOpen, .cp .west 1, 0x308, (regReadAs aclOpen (.cp .west 1) true 0x308 4).1, 0, by refine ⟨by decide +kernel, fun _ => by simp, by decide +kernel⟩⟩,
   ⟨aclOpen, .jtag, 0x318, (regReadAs aclOpen .jtag true 0x318 8).1, 0, by refine ⟨by decide +kernel, fun _ => by simp, by decide +kernel⟩⟩,
   ⟨aclOpen, .cp .east 1, .east, (regReadAs aclOpen (.cp .east 1) true (regOff .east 0x1100020) 8).1, 0, by refine ⟨by decide +kernel, fun _ => by simp, by decide +kernel⟩⟩,
   ⟨aclOpen, 63, 0, (regWriteAs aclOpen (.cp .west 0) true .west (regOff .west (0x1800000 + 8 * (63 % 64))) 8 (0 : Word).toNat).1, 0, by decide +kernel⟩,
   ⟨{ run with fns := [] }, { port := 1, link := 0, fn := 0 }, 0, by decide +kernel⟩,
   ⟨bare, 1, by decide +kernel⟩,
   ⟨{ bare with sys := { bare.sys with mode := .forensic } }, 1, by decide +kernel⟩,
   ⟨{ bare with mbx := { busy := true } }, 0xFFFFFFFF, by decide +kernel⟩,
   ⟨{ bare with mbx := { resultDue := some 5 } }, 5, by decide +kernel⟩⟩

/-- Every clause of `Obligations.SemaphoresAct` has its case. -/
theorem witness_SemaphoresAct :
    (∃ (s : State) (m : Master) (d : Die) (n : Nat),
      masterThere s m = true ∧
      semReach s m d n (0x500000 + 16 * n) false = .ok ∧
      (sem s d n).holder = none) ∧
    (∃ (s : State) (m : Master) (d : Die) (n : Nat),
      masterThere s m = true ∧
      semReach s m d n (0x500000 + 16 * n) false = .ok ∧
      (sem s d n).holder ≠ none) ∧
    (∃ (s : State) (m : Master) (d : Die) (n : Nat),
      masterThere s m = true ∧
      semReach s m d n (0x500000 + 16 * n) false = .ungranted) ∧
    (∃ (s : State) (m : Master) (d : Die) (n : Nat),
      let x := sem s d n
      masterThere s m = true ∧
      semReach s m d n (0x500008 + 16 * n) true = .ok ∧
      x.holder = some m ∧
      x.orphaned = false) ∧
    (∃ (s : State) (m : Master) (d : Die) (n : Nat),
      let x := sem s d n
      let u := semFault s d n 1 m
      masterThere s m = true ∧
      semReach s m d n (0x500008 + 16 * n) true = .ok ∧
      (x.holder ≠ some m ∨ x.orphaned = true) ∧
      (∀ t, (die u d).eng.semBadAt = some t → t + 1000000 ≤ u.now)) ∧
    (∃ (s : State) (m : Master) (d : Die) (n : Nat),
      let x := sem s d n
      let y := x.arms.filter fun a => decide (a.who ≠ m)
      masterThere s m = true ∧
      semReach s m d n (0x500008 + 16 * n) true = .ok ∧
      m ≠ .jtag ∧
      (∀ r, m ≠ .flume r) ∧
      (∃ k, x.holder = some k ∧ k ≠ m) ∧
      y.length < 16) ∧
    (∃ (s : State) (m : Master) (d : Die) (n : Nat),
      let x := sem s d n
      masterThere s m = true ∧
      semReach s m d n (0x500008 + 16 * n) true = .ok ∧
      m ≠ .jtag ∧
      (∀ r, m ≠ .flume r) ∧
      x.holder = none ∧
      (x.arms.filter fun a => decide (a.who ≠ m)).length < 16) ∧
    (∃ (s : State) (m : Master) (d : Die) (n : Nat),
      let x := sem s d n
      masterThere s m = true ∧
      semReach s m d n (0x500008 + 16 * n) true = .ok ∧
      x.holder = some m) ∧
    (∃ (s : State) (m : Master) (d : Die) (n : Nat),
      masterThere s m = true ∧
      semReach s m d n (0x500008 + 16 * n) true = .ok) :=
  ⟨⟨aclOpen, .cp .west 0, .west, 5, by decide +kernel⟩,
   ⟨onW (fun d => { d with eng := { sems := [(5, { holder := some .i3c })] } }) aclOpen, .cp .west 0, .west, 5, by decide +kernel⟩,
   ⟨run, .host { port := 1, link := 0, fn := 0 }, .west, 5, by decide +kernel⟩,
   ⟨onW (fun d => { d with eng := { sems := [(5, { holder := some (.cp .west 0) })] } }) aclOpen, .cp .west 0, .west, 5, by decide +kernel⟩,
   ⟨onW (fun d => { d with eng := { sems := [(5, { holder := some .i3c })] } }) aclOpen, .cp .west 0, .west, 5, by refine ⟨by decide +kernel, by decide +kernel, by decide +kernel, fun t h => absurd (h.symm.trans (by decide +kernel : _ = none)) (by simp)⟩⟩,
   ⟨onW (fun d => { d with eng := { sems := [(5, { holder := some .i3c })] } }) aclOpen, .cp .west 0, .west, 5, by refine ⟨by decide +kernel, by decide +kernel, by decide +kernel, fun _ => by simp, ⟨.i3c, by decide +kernel⟩, by decide +kernel⟩⟩,
   ⟨aclOpen, .cp .west 0, .west, 5, by refine ⟨by decide +kernel, by decide +kernel, by decide +kernel, fun _ => by simp, by decide +kernel, by decide +kernel⟩⟩,
   ⟨onW (fun d => { d with eng := { sems := [(5, { holder := some (.cp .west 0) })] } }) aclOpen, .cp .west 0, .west, 5, by decide +kernel⟩,
   ⟨aclOpen, .cp .west 0, .west, 5, by decide +kernel⟩⟩

/-- Every clause of `Obligations.InterruptsAndEventRingsAct` has its case. -/
theorem witness_InterruptsAndEventRingsAct :
    (∃ (s : State) (n : Nat),
      neverRaised n = false ∧
      (s.sys.mode ≠ .standby ∨ 1984 ≤ n)) ∧
    (∃ (s : State) (n : Nat),
      neverRaised n = false ∧
      (s.sys.mode ≠ .standby ∨ 1984 ≤ n)) ∧
    (∃ (s : State) (d : Die) (n : Nat),
      let r := deliverSrc s d n
      tget 0 (die s d).eng.groupTill (srcGroup s d n) = 0 ∧
      r.2 = true) ∧
    (∃ (s : State) (d : Die) (n : Nat),
      let r := deliverSrc s d n
      tget 0 (die s d).eng.groupTill (srcGroup s d n) = 0 ∧
      r.2 = false) ∧
    (∃ (s : State) (d : Die) (c : Nat) (n : Nat),
      claimPick s d c = some n) ∧
    (∃ (s : State) (d : Die) (c : Nat),
      claimPick s d c = none) ∧
    (∃ (s : State) (d : Die) (c : Nat) (j : Nat) (v : BitVec 32),
      bits v.toNat 11 1 = d.idx ∧
      (src s d (bits v.toNat 0 11)).claimed = true ∧
      (src s d (bits v.toNat 0 11)).cur = some j ∧
      tgtCore (srcTgt s d (bits v.toNat 0 11) j) = some c) ∧
    (∃ (s : State) (d : Die) (n : Nat) (j : Nat),
      (src s d n).cur = some j ∧
      ((src s d n).st = .active ∨ (src s d n).st = .activePending) ∧
      tgtCore (srcTgt s d n j) = none ∧
      tgtVec (srcTgt s d n j) ∈ (fnOf s (tgtFn d (srcTgt s d n j))).unmasked) ∧
    (∃ (s : State) (d : Die) (g : Nat),
      let t := tget 0 (die s d).eng.groupTill g
      t ≠ 0 ∧
      t ≤ s.now + 1) ∧
    (∃ (x : Src),
      x.st = .pending) ∧
    (∃ (s : State) (d : Die) (n : Nat) (x : Src),
      x.st = .active ∧
      coreWaits s d n x = true) ∧
    (∃ (s : State) (d : Die) (n : Nat) (x : Src),
      x.st = .active ∧
      coreWaits s d n x = false) ∧
    (∃ (x : Src),
      x.level = true ∧
      x.st = .idle) ∧
    (∃ (s : State) (i : Nat),
      forensic s = false ∧
      (inst s i).st ≠ .absent ∧
      (inst s i).evtBase ≠ 0) ∧
    (∃ (s : State) (d : Die),
      let c := regVal s d 0x308
      forensic s = false ∧
      bit c 31 = true) ∧
    (∃ (s : State) (d : Die),
      bit (regVal s d 0x308) 31 = false) :=
  ⟨⟨run, 1935, by decide +kernel⟩,
   ⟨{ bare with sys := { bare.sys with mode := .standby } }, 1984, by decide +kernel⟩,
   ⟨onW (fun d => { d with eng := { srcs := [(5, { st := .pending })] } }) (setReg (setReg run .west 0x4000A0 0x80000000) .west 0x4000A8 0xC0000000), .west, 5, by decide +kernel⟩,
   ⟨run, .west, 5, by decide +kernel⟩,
   ⟨onW (fun d => { d with eng := { srcs := [(5, { st := .active, cur := some 0 })] } }) (setReg (setReg run .west 0x4000A0 0x80000000) .west 0x4000A8 0xC0000000), .west, 0, 5, by decide +kernel⟩,
   ⟨run, .west, 0, by decide +kernel⟩,
   ⟨onW (fun d => { d with eng := { srcs := [(5, { st := .active, cur := some 0, claimed := true })] } }) (setReg (setReg run .west 0x4000A0 0x80000000) .west 0x4000A8 0xC0000000), .west, 0, 0, 5, by decide +kernel⟩,
   ⟨withUnmasked (onW (fun d => { d with eng := { srcs := [(5, { st := .active, cur := some 0 })] } }) (setReg (setReg run .west 0x4000A0 0x80000000) .west 0x4000A8 0x80000000)), .west, 5, 0, by decide +kernel⟩,
   ⟨onW (fun d => { d with eng := { groupTill := [(3, 100000001)] } }) run, .west, 3, by decide +kernel⟩,
   ⟨{ st := .pending }, by decide +kernel⟩,
   ⟨setReg run .west 0x4000A8 0xC0000000, .west, 5, { st := .active, cur := some 0 }, by decide +kernel⟩,
   ⟨setReg run .west 0x4000A8 0x80000000, .west, 5, { st := .active, cur := some 0 }, by decide +kernel⟩,
   ⟨{ level := true }, by decide +kernel⟩,
   ⟨withInst { st := .running, evtBase := 4096, evtLog2 := 4, evt := { written := 1 } }, 7, by decide +kernel⟩,
   ⟨setReg run .west 0x308 0x8000000A, .west, by decide +kernel⟩,
   ⟨run, .west, by decide +kernel⟩⟩

/-- Every clause of `Obligations.EnginesAndMemoryAct` has its case. -/
theorem witness_EnginesAndMemoryAct :
    (∃ (s : State) (d : Die) (p : Nat) (home : Die) (a : Nat),
      (pairOf s d p).st = .active ∧
      (splitNow s = false ∨ home = d) ∧
      holds (lineAt s home a) (pairKey d p) ≠ .i) ∧
    (∃ (s : State) (d : Die) (p : Nat) (home : Die) (a : Nat),
      (pairOf s d p).st = .active ∧
      (splitNow s = false ∨ home = d) ∧
      holds (lineAt s home a) (pairKey d p) = .i) ∧
    (∃ (s : State) (d : Die) (p : Nat) (home : Die) (a : Nat),
      (pairOf s d p).st = .active ∧
      (splitNow s = false ∨ home = d) ∧
      holds (lineAt s home a) (pairKey d p) = .i) ∧
    (∃ (s : State) (d : Die) (p : Nat) (home : Die) (a : Nat),
      (pairOf s d p).st = .active ∧
      (splitNow s = false ∨ home = d) ∧
      holds (lineAt s home a) (pairKey d p) ≠ .i) ∧
    (∃ (s : State) (d : Die) (p : Nat) (home : Die),
      (pairOf s d p).st = .active ∧
      (splitNow s = false ∨ home = d)) ∧
    (∃ (s : State) (d : Die) (p : Nat) (home : Die),
      (pairOf s d p).st = .active ∧
      splitNow s = true ∧
      home ≠ d) ∧
    (∃ (s : State) (home : Die) (a : Nat),
      (lineAt s home a).holders ≠ []) ∧
    (∃ (s : State) (d : Die) (p : Nat),
      ((pairOf s d p).st = .failed ∨ (pairOf s d p).deadOps ≠ []) ∧
      (30 ≤ (pairsIn s d .active).length ∨ pairsIn s d .spare = [])) ∧
    (∃ (s : State) (d : Die) (p : Nat) (q : Nat),
      ((pairOf s d p).st = .failed ∨ (pairOf s d p).deadOps ≠ []) ∧
      (pairsIn s d .active).length < 30 ∧
      (pairsIn s d .spare).head? = some q) ∧
    (∃ (s : State) (d : Die) (p : Nat),
      p < 32 ∧
      (pairOf s d p).st ≠ .failed ∧
      (pairOf s d p).st ≠ .untested) ∧
    (∃ (s : State),
      s.sys.inReset = false ∧
      s.sys.mode ≠ .standby) ∧
    (∃ (s : State),
      s.sys.inReset = false ∧
      s.sys.mode ≠ .standby) :=
  ⟨⟨onW (fun d => { d with eng := { pairs := [(0, { st := .active })], lines := [(64, { holders := [(0, .m)] })] } }) run, .west, 0, .west, 64, by decide +kernel⟩,
   ⟨onW (fun d => { d with eng := { pairs := [(0, { st := .active })] } }) run, .west, 0, .east, 64, by decide +kernel⟩,
   ⟨onW (fun d => { d with eng := { pairs := [(0, { st := .active })] } }) run, .west, 0, .east, 64, by decide +kernel⟩,
   ⟨onW (fun d => { d with eng := { pairs := [(0, { st := .active })], lines := [(64, { holders := [(0, .m)] })] } }) run, .west, 0, .west, 64, by decide +kernel⟩,
   ⟨{ (onW (fun d => { d with eng := { pairs := [(0, { st := .active })], lines := [(64, { holders := [(0, .m)] })] } }) run) with ident := { run.ident with split := true } }, .west, 0, .west, by decide +kernel⟩,
   ⟨{ (onW (fun d => { d with eng := { pairs := [(0, { st := .active })] } }) run) with ident := { run.ident with split := true } }, .west, 0, .east, by decide +kernel⟩,
   ⟨onW (fun d => { d with eng := { lines := [(64, { holders := [(0, .m)] })] } }) run, .west, 64, by decide +kernel⟩,
   ⟨onW (fun d => { d with eng := { pairs := [(0, { st := .failed, deadOps := [1] })] } }) run, .west, 0, by decide +kernel⟩,
   ⟨onW (fun d => { d with eng := { pairs := [(0, { st := .failed, deadOps := [1] }), (31, { st := .spare })] } }) run, .west, 0, 31, by decide +kernel⟩,
   ⟨onW (fun d => { d with eng := { pairs := [(31, { st := .spare })] } }) run, .west, 31, by decide +kernel⟩,
   ⟨run, by decide +kernel⟩,
   ⟨run, by decide +kernel⟩⟩

/-- Every clause of `Obligations.ResetsBringUpAndModesAct` has its case. -/
theorem witness_ResetsBringUpAndModesAct :
    (∃ (n : Nat),
      1000 ≤ n) ∧
    (∃ (n : Nat),
      n < 100) ∧
    (∃ (s : State),
      s.sys.pwrgood = false) ∧
    (∃ (n : Nat),
      100 ≤ n) ∧
    (∃ (s : State) (t : Nat),
      s.sys.resetDue = some t ∧
      t ≤ s.now) ∧
    (∃ (s : State),
      s.sys.inReset = true ∧
      s.sys.pwrgood = true ∧
      s.sys.pwrgoodAt + 10000000 ≤ s.now) ∧
    (∃ (s : State) (n : Nat),
      imageWanted s = true ∧
      n = s.sys.bootSlot ∧
      s.sys.wakeLinks = false) ∧
    (∃ (s : State) (n : Nat),
      imageWanted s = true ∧
      n = s.sys.bootSlot ∧
      s.sys.wakeLinks = true) ∧
    (∃ (s : State) (a : Bool) (e : Bool),
      imageWanted s = true ∧
      s.sys.bootSlot = 0 ∧
      (a = false ∨ e = false)) ∧
    (∃ (s : State) (a : Bool) (e : Bool),
      imageWanted s = true ∧
      s.sys.bootSlot = 1 ∧
      (a = false ∨ e = false)) ∧
    (∃ (s : State),
      s.sys.mode = .bringup ∧
      4 ≤ s.sys.bootStage ∧
      s.sys.bootStage < 7 ∧
      s.sys.inReset = false ∧
      s.sys.wakeLinks = false) ∧
    (∃ (s : State),
      s.sys.mode = .bringup ∧
      4 ≤ s.sys.bootStage ∧
      s.sys.bootStage < 7 ∧
      s.sys.inReset = false ∧
      s.sys.wakeLinks = true) ∧
    (∃ (s : State),
      s.sys.standbyDue.isSome = true ∧
      s.sys.mode = .drain) ∧
    (∃ (s : State) (n : Nat),
      s.sys.mode = .standby ∧
      wakes s n = true) ∧
    (∃ (s : State) (t : Nat),
      s.sys.wakeAt = some t ∧
      t ≤ s.now ∧
      s.sys.mode = .standby) ∧
    (∃ (s : State),
      s.sys.inReset = false) ∧
    (∃ (s : State),
      forensic s = true ∧
      s.arch.valid = false) ∧
    (∃ (s : State) (a : Nat),
      s.arch.copying = true ∧
      hostLinkUp s (mgmtFn s) = true ∧
      s.arch.dest = some a) :=
  ⟨⟨1000, by decide +kernel⟩,
   ⟨99, by decide +kernel⟩,
   ⟨State.reset, by decide +kernel⟩,
   ⟨100, by decide +kernel⟩,
   ⟨{ bare with sys := { bare.sys with resetDue := some 100000000 } }, 100000000, by decide +kernel⟩,
   ⟨{ now := 10000000, sys := { pwrgood := true } }, by decide +kernel⟩,
   ⟨{ sys := { mode := .bringup, bootStage := 1, inReset := false, pwrgood := true, bootSlot := 1 } }, 1, by decide +kernel⟩,
   ⟨{ sys := { mode := .bringup, bootStage := 1, inReset := false, pwrgood := true, bootSlot := 1, wakeLinks := true } }, 1, by decide +kernel⟩,
   ⟨{ sys := { mode := .bringup, bootStage := 1, inReset := false, pwrgood := true } }, true, false, by decide +kernel⟩,
   ⟨{ sys := { mode := .bringup, bootStage := 1, inReset := false, pwrgood := true, bootSlot := 1 } }, false, true, by decide +kernel⟩,
   ⟨{ sys := { mode := .bringup, bootStage := 6, inReset := false, pwrgood := true } }, by decide +kernel⟩,
   ⟨{ sys := { mode := .bringup, bootStage := 6, inReset := false, pwrgood := true, wakeLinks := true } }, by decide +kernel⟩,
   ⟨{ bare with sys := { bare.sys with mode := .drain, standbyDue := some 5 } }, by decide +kernel⟩,
   ⟨{ bare with sys := { bare.sys with mode := .standby }, west := { eng := { intWatch := 1, srcs := [(1984, { st := .pending })] } } }, 1984, by decide +kernel⟩,
   ⟨{ bare with sys := { bare.sys with mode := .standby, wakeAt := some 100000000 } }, 100000000, by decide +kernel⟩,
   ⟨run, by decide +kernel⟩,
   ⟨{ bare with sys := { bare.sys with mode := .forensic } }, by decide +kernel⟩,
   ⟨{ bare with arch := { copying := true, dest := some 4096 } }, 4096, by decide +kernel⟩⟩

/-- Every clause of `Obligations.TheLookoutActs` has its case. -/
theorem witness_TheLookoutActs :
    (∃ (s : State) (d : Die) (b : Nat),
      s.sys.inReset = false ∧
      (b % 32 ≠ 0x15 ∨ pairsGone s d = true)) ∧
    (∃ (s : State) (d : Die) (b : Nat) (c : FaultClass),
      let l := tget 0 (errRec s d b).wireEvAt (classCode c)
      collecting s = true ∧
      l ≠ 0 ∧
      s.now + 1 < l + 1000000000) ∧
    (∃ (s : State) (d : Die) (b : Nat) (c : FaultClass),
      let l := tget 0 (errRec s d b).wireEvAt (classCode c)
      collecting s = true ∧
      (l = 0 ∨ l + 1000000000 ≤ s.now + 1)) ∧
    (∃ (s : State) (d : Die) (b : Nat) (a : Bool),
      let u := modErr s d b fun e => { e with pollAt := s.now, wireBroken := if a then [] else e.wireBroken }
      collecting s = true ∧
      (errRec s d b).wireBroken ≠ [] ∧
      (errRec s d b).pollAt + 1000 ≤ s.now ∧
      recovering u d b = false) ∧
    (∃ (s : State) (d : Die) (b : Nat) (a : Bool),
      let u := modErr s d b fun e => { e with pollAt := s.now, wireBroken := if a then [] else e.wireBroken }
      collecting s = true ∧
      (errRec s d b).wireBroken ≠ [] ∧
      (errRec s d b).pollAt + 1000 ≤ s.now ∧
      recovering u d b = true) ∧
    (∃ (s : State) (d : Die) (b : Nat) (u : Nat),
      (unitOf s d b u).st = .fault ∧
      (unitOf s d b u).quietEnd ≤ s.now ∧
      (b ≠ 0x15 ∨ 32 ≤ u)) ∧
    (∃ (s : State) (d : Die) (n : Nat),
      (unitOf s d 0x15 n).st = .fault ∧
      (unitOf s d 0x15 n).quietEnd ≤ s.now ∧
      n < 32) ∧
    (∃ (s : State),
      s.sys.heartbeat = .hz500) :=
  ⟨⟨run, .west, 0x0A, by decide +kernel⟩,
   ⟨onW (fun d => { d with lko := { errs := [(10, { wireEvAt := [(1, 100000001)] })] } }) run, .west, 10, .corrected, by decide +kernel⟩,
   ⟨run, .west, 10, .corrected, by decide +kernel⟩,
   ⟨onW (fun d => { d with lko := { errs := [(10, { wireBroken := [1] })] } }) run, .west, 10, true, by decide +kernel⟩,
   ⟨onW (fun d => { d with lko := { errs := [(10, { wireBroken := [1] })], units := [(10 * 65536 + 1, { st := .fault })] } }) run, .west, 10, false, by decide +kernel⟩,
   ⟨onW (fun d => { d with lko := { units := [(65536 * 0x13 + 7, { st := .fault, quietEnd := 100000000 })] } }) run, .west, 0x13, 7, by decide +kernel⟩,
   ⟨onW (fun d => { d with lko := { units := [(65536 * 0x15 + 31, { st := .fault, quietEnd := 100000000 })] } }) run, .west, 31, by decide +kernel⟩,
   ⟨{ bare with sys := { bare.sys with heartbeat := .hz500 } }, by decide +kernel⟩⟩

/-- Every clause of `Obligations.PowerIsManaged` has its case. -/
theorem witness_PowerIsManaged :
    (∃ (s : State) (d : Die) (u : TokenUnit),
      tokenWanted s d u = true ∧
      tokenHeld s d u = false) ∧
    (∃ (s : State) (d : Die) (t : Token) (l : List Token),
      (die s d).pwr.queue = t :: l ∧
      tokenWanted s d t.unit = true ∧
      (die s d).pwr.eighths = 0 ∧
      (die s d).pwr.est + tokensOut s d + t.n ≤ pwrLimit s d) ∧
    (∃ (s : State) (d : Die) (t : Token) (l : List Token),
      (die s d).pwr.queue = t :: l ∧
      tokenWanted s d t.unit = true ∧
      (0 < (die s d).pwr.eighths ∨ pwrLimit s d < (die s d).pwr.est + tokensOut s d + t.n)) ∧
    (∃ (s : State) (d : Die) (t : Token) (l : List Token),
      (die s d).pwr.queue = t :: l ∧
      tokenWanted s d t.unit = false) ∧
    (∃ (s : State) (d : Die) (k : Nat) (t : Token),
      ((die s d).pwr.granted.find? fun t => decide (t.unit = .adapt k)) = some t ∧
      tokenDone s d t = true) ∧
    (∃ (s : State) (d : Die),
      (die s d).pwr.throttleAt + 20000 ≤ s.now) ∧
    (∃ (s : State) (w : Nat) (e : Nat),
      avsForm w = true ∧
      avsForm e = true ∧
      max w e ≠ (die s .west).pwr.avsWant ∧
      s.sys.inReset = false) ∧
    (∃ (s : State) (d : Die) (n : Nat) (v : Nat),
      n < 32 ∧
      v ≤ 1000 ∧
      s.sys.inReset = false ∧
      s.sys.mode ≠ .standby ∧
      v ≤ criticalAt s d ∧
      v ≤ warnAt s d ∧
      tget 0 (tdel (die s d).pwr.critSince n) n = 0) ∧
    (∃ (s : State) (d : Die) (n : Nat) (mv : Nat),
      let b := sinceTab (sinceTab (die s d).pwr.bandSince (2 * n) false s.now) (2 * n + 1) false s.now
      n < 48 ∧
      mv < 65536 ∧
      s.sys.inReset = false ∧
      s.sys.mode ≠ .standby ∧
      tget 0 b (2 * n) = 0 ∧
      tget 0 b (2 * n + 1) = 0) :=
  ⟨⟨withLink { st := .training } 0 run, .west, .adapt 0, by decide +kernel⟩,
   ⟨onW (fun d => { d with pwr := { est := 744, queue := [{ unit := .adapt 0, n := 6, at_ := 0 }] } }) (withLink { st := .training } 0 run), .west, { unit := .adapt 0, n := 6, at_ := 0 }, [], by decide +kernel⟩,
   ⟨onW (fun d => { d with pwr := { est := 745, queue := [{ unit := .adapt 0, n := 6, at_ := 0 }] } }) (withLink { st := .training } 0 run), .west, { unit := .adapt 0, n := 6, at_ := 0 }, [], by decide +kernel⟩,
   ⟨onW (fun d => { d with pwr := { queue := [{ unit := .adapt 0, n := 6, at_ := 0 }] } }) run, .west, { unit := .adapt 0, n := 6, at_ := 0 }, [], by decide +kernel⟩,
   ⟨onW (fun d => { d with pwr := { granted := [{ unit := .adapt 0, n := 6, at_ := 0 }] } }) run, .west, 0, { unit := .adapt 0, n := 6, at_ := 0 }, by decide +kernel⟩,
   ⟨onW (fun d => { d with pwr := { throttleAt := 99980000 } }) run, .west, by decide +kernel⟩,
   ⟨run, 650, 800, by decide +kernel⟩,
   ⟨run, .west, 31, 640, by decide +kernel⟩,
   ⟨run, .west, 47, 65535, by decide +kernel⟩⟩

/-- Every clause of `Obligations.PeripheralPortsAct` has its case. -/
theorem witness_PeripheralPortsAct :
    (∃ (s : State) (n : Nat),
      s.sys.inReset = false ∧
      s.i3c.dynAddr ≠ 0 ∧
      n ≠ 4 ∧
      n ≠ 8) ∧
    (∃ (s : State) (a : Nat) (u : State) (v : Nat),
      s.sys.inReset = false ∧
      s.i3c.dynAddr ≠ 0 ∧
      romHold s = false ∧
      regReadAs s .i3c true a 4 = (u, .done v)) ∧
    (∃ (s : State) (a : Nat) (x : Word) (u : State) (v : Nat),
      s.sys.inReset = false ∧
      s.i3c.dynAddr ≠ 0 ∧
      romHold s = false ∧
      regWriteAs s .i3c true .west a 8 x.toNat = (u, .done v)) ∧
    (∃ (s : State) (n : Nat),
      s.sys.inReset = false ∧
      s.i3c.dynAddr ≠ 0 ∧
      (s.sys.mode ≠ .bringup ∨ s.sys.bootStatus ≠ 0 ∨ 4 ≤ s.sys.bootStage) ∧
      1 ≤ n ∧
      n ≤ 256) ∧
    (∃ (s : State) (a : Nat),
      s.sys.inReset = false ∧
      s.i3c.dynAddr ≠ 0 ∧
      (s.sys.mode ≠ .bringup ∨ s.sys.bootStatus ≠ 0 ∨ 4 ≤ s.sys.bootStage) ∧
      flashGuarded s (a % 2 ^ 32) = false) ∧
    (∃ (s : State) (a : Nat) (l : List Byte),
      s.sys.inReset = false ∧
      s.i3c.dynAddr ≠ 0 ∧
      (s.sys.mode ≠ .bringup ∨ s.sys.bootStatus ≠ 0 ∨ 4 ≤ s.sys.bootStage) ∧
      flashGuarded s (a % 2 ^ 32) = false ∧
      l ≠ [] ∧
      a % 256 + l.length ≤ 256) ∧
    (∃ (s : State),
      s.sys.inReset = false ∧
      s.i3c.dynAddr ≠ 0 ∧
      s.sys.mode = .bringup ∧
      s.sys.bootStatus = 0 ∧
      s.sys.bootStage < 4) ∧
    (∃ (s : State),
      s.sys.inReset = false ∧
      s.i3c.dynAddr ≠ 0) ∧
    (∃ (s : State) (a : Nat),
      s.sys.inReset = false ∧
      s.i3c.dynAddr = 0 ∧
      0 < a ∧
      a < 128) ∧
    (∃ (s : State),
      s.sys.inReset = false) ∧
    (∃ (s : State),
      s.sys.inReset = false) ∧
    (∃ (s : State) (a : Nat) (n : Nat) (u : State) (v : Nat),
      s.sys.inReset = false ∧
      romHold s = false ∧
      regReadAs s .jtag true a n = (u, .done v)) ∧
    (∃ (s : State) (a : Nat) (n : Nat) (x : Word) (u : State) (v : Nat),
      s.sys.inReset = false ∧
      romHold s = false ∧
      regWriteAs s .jtag true .west a n x.toNat = (u, .done v)) ∧
    (∃ (s : State),
      s.sys.inReset = false) ∧
    (∃ (s : State),
      s.sys.inReset = false) ∧
    (∃ (s : State) (p : Nat) (l : Nat),
      s.sys.inReset = false ∧
      linkExists s p l = true) ∧
    (∃ (s : State) (a : Nat),
      twf 0xFF s.flash = true ∧
      a % 65536 = 0 ∧
      s.sys.inReset = false ∧
      s.i3c.dynAddr ≠ 0 ∧
      s.sys.mode = .service ∧
      s.sys.bootStage = 7 ∧
      a < 2 ^ 32 ∧
      a / 0x2000000 ≠ s.sys.bootSlot) :=
  ⟨⟨run, 3, by decide +kernel⟩,
   ⟨aclOpen, 0x308, (regReadAs aclOpen .i3c true 0x308 4).1, 0, by decide +kernel⟩,
   ⟨aclOpen, 0x318, 0, (regWriteAs aclOpen .i3c true .west 0x318 8 (0 : Word).toNat).1, 0, by decide +kernel⟩,
   ⟨run, 256, by decide +kernel⟩,
   ⟨run, 0x2000000, by decide +kernel⟩,
   ⟨run, 0x20000FF, [7], by decide +kernel⟩,
   ⟨{ sys := { mode := .bringup, bootStage := 1, inReset := false, pwrgood := true }, i3c := { dynAddr := 9 } }, by decide +kernel⟩,
   ⟨run, by decide +kernel⟩,
   ⟨{ bare with i3c := {} }, 127, by decide +kernel⟩,
   ⟨run, by decide +kernel⟩,
   ⟨run, by decide +kernel⟩,
   ⟨aclOpen, 0x318, 8, (regReadAs aclOpen .jtag true 0x318 8).1, 0, by decide +kernel⟩,
   ⟨aclOpen, 0x318, 8, 0, (regWriteAs aclOpen .jtag true .west 0x318 8 (0 : Word).toNat).1, 0, by decide +kernel⟩,
   ⟨run, by decide +kernel⟩,
   ⟨withLink { st := .up } 0 run, by decide +kernel⟩,
   ⟨run, 7, 0, by decide +kernel⟩,
   ⟨run, 0x2000000, by decide +kernel⟩⟩

/-- Every clause of `Obligations.AStepRunsTheFrontCommand` has its case. -/
theorem witness_AStepRunsTheFrontCommand :
    (∃ (s : State) (c : Instr) (q : List Instr),
      s.pending = c :: q) ∧
    (∃ (s : State),
      s.pending = []) :=
  ⟨⟨{ run with pending := [.pwrgoodAssert] }, .pwrgoodAssert, [], by decide +kernel⟩,
   ⟨run, by decide +kernel⟩⟩

/-- Every clause of `Obligations.CompletionRecordsSpellTheirOutcome` has its case. -/
theorem witness_CompletionRecordsSpellTheirOutcome :
    (∃ (cookie : Nat) (bytes : Nat) (failIdx : Nat) (sub : Nat) (code : Nat) (result : Nat) (seq : Nat) (ring : Nat) (station : Nat),
      cookie < 2 ^ 64 ∧
      bytes < 2 ^ 40 ∧
      failIdx < 2 ^ 5 ∧
      sub < 2 ^ 8 ∧
      code < 2 ^ 8 ∧
      result < 2 ^ 64 ∧
      seq < 2 ^ 24 ∧
      ring < 2 ^ 14 ∧
      station < 2 ^ 20) :=
  ⟨2 ^ 64 - 1, 2 ^ 40 - 1, 31, 255, 255, 2 ^ 64 - 1, 2 ^ 24 - 1, 2 ^ 14 - 1, 2 ^ 20 - 1, by decide +kernel⟩

/-- Every clause of `Obligations.CompletionSlotsFillInOrder` has its case. -/
theorem witness_CompletionSlotsFillInOrder :
    (∃ (s : State) (rec : Nat),
      rec < 2 ^ 255 ∧
      twf 0 s.regs = true) ∧
    (∃ (s : State) (d : Die) (m : Nat),
      cqSilent s d m = false ∧
      (cqRing s d m).configured = true) :=
  ⟨⟨run, 2 ^ 255 - 1, by decide +kernel⟩,
   ⟨run, .west, 1, by decide +kernel⟩⟩

/-- Every clause of `Obligations.TalliesCountAndSaturate` has its case. -/
theorem witness_TalliesCountAndSaturate :
    (∃ (s : State) (n : Nat),
      (tally s n).sat = false ∧
      (tally s n).val + 1 < 2 ^ 48) ∧
    (∃ (s : State) (n : Nat),
      (tally s n).sat = false ∧
      (tally s n).val = 2 ^ 48 - 1) ∧
    (∃ (s : State) (n : Nat),
      (tally s n).sat = true) ∧
    (∃ (r : Outcome),
      r.code = 0) ∧
    (∃ (r : Outcome),
      r.code ≠ 0 ∧
      r.code ≠ 0x0C) ∧
    (∃ (s : State) (n : Nat),
      (tally s n).sat = true) :=
  ⟨⟨onW (fun d => { d with tallies := [(16, { val := 2 ^ 48 - 2 })] }) run, 16, by decide +kernel⟩,
   ⟨onW (fun d => { d with tallies := [(16, { val := 2 ^ 48 - 1 })] }) run, 16, by decide +kernel⟩,
   ⟨onW (fun d => { d with tallies := [(16, { val := 2 ^ 48 - 1, sat := true })] }) run, 16, by decide +kernel⟩,
   ⟨{ code := 0 }, by decide +kernel⟩,
   ⟨{ code := 0x0E }, by decide +kernel⟩,
   ⟨onW (fun d => { d with tallies := [(16, { val := 2 ^ 48 - 1, sat := true })] }) run, 16, by decide +kernel⟩⟩

/-- Every clause of `Obligations.RingPositionFollowsSeq` has its case. -/
theorem witness_RingPositionFollowsSeq :
    (∃ (s : State) (d : Die) (n : Nat),
      let r := cmdRing s d n
      r.log2 ≤ 23 ∧
      r.consSeq < 2 ^ 24 ∧
      r.consIdx = r.consSeq % 2 ^ r.log2 ∧
      r.consPhase = decide (r.consSeq / 2 ^ r.log2 % 2 = 0)) ∧
    (∃ (s : State),
      0 < s.now) :=
  ⟨⟨withCmd { configured := true, log2 := 20, consSeq := 2 ^ 24 - 1, consIdx := 2 ^ 20 - 1, consPhase := false } 1 run, .west, 1, by decide +kernel⟩,
   ⟨run, by decide +kernel⟩⟩

/-- Every clause of `Obligations.FloatMinMaxAreExact` has its case. -/
theorem witness_FloatMinMaxAreExact :
    (∃ (h : BndHead) (x : Nat) (l : List Nat),
      2 ≤ h.ty ∧
      h.ty ≤ 5 ∧
      (h.op = 1 ∨ h.op = 2) ∧
      (∀ y ∈ x :: l, y < 2 ^ (8 * elemSize h.ty))) ∧
    (∃ (ty : Nat),
      2 ≤ ty ∧
      ty ≤ 5) :=
  ⟨⟨{ opcode := 0x42, op := 1, ty := 5, exact := false, count := 1, root := 0 }, 2 ^ 64 - 1, [0], by decide +kernel⟩,
   ⟨5, by decide +kernel⟩⟩

/-- Every clause of `Obligations.ExactSumsIgnoreTheOrder` has its case. -/
theorem witness_ExactSumsIgnoreTheOrder :
    (∃ (h : BndHead) (x : Nat) (y : Nat) (l : List Nat) (m : List Nat),
      2 ≤ h.ty ∧
      h.op = 0 ∧
      h.exact = true ∧
      (x :: l).Perm (y :: m)) ∧
    (∃ (h : BndHead),
      2 ≤ h.ty ∧
      h.op = 0 ∧
      h.exact = true) ∧
    (∃ (h : BndHead) (x : Nat) (y : Nat) (l : List Nat) (m : List Nat),
      2 ≤ h.ty ∧
      h.op = 0 ∧
      h.exact = true ∧
      (x :: l).Perm (y :: m)) :=
  ⟨⟨{ opcode := 0x42, op := 0, ty := 2, exact := true, count := 1, root := 0 }, 1, 2, [2], [1], by refine ⟨by decide +kernel, by decide +kernel, by decide +kernel, List.Perm.swap _ _ _⟩⟩,
   ⟨{ opcode := 0x42, op := 0, ty := 5, exact := true, count := 1, root := 0 }, by decide +kernel⟩,
   ⟨{ opcode := 0x42, op := 0, ty := 2, exact := true, count := 1, root := 0 }, 1, 2, [2], [1], by refine ⟨by decide +kernel, by decide +kernel, by decide +kernel, List.Perm.swap _ _ _⟩⟩⟩

/-- Every clause of `Obligations.RegionsAdmitOneMask` has its case. -/
theorem witness_RegionsAdmitOneMask :
    (∃ (off : Nat) (len : Nat),
      0 < len ∧
      off % 8 + len ≤ 8) ∧
    (∃ (s : State) (off : Nat) (len : Nat) (a : Nat) (b : Nat),
      0 < len ∧
      a ∈ regionsAt s off ∧
      b ∈ regionsAt s off ∧
      a ≠ b) :=
  ⟨⟨0xFFFFFFF, 1, by decide +kernel⟩,
   ⟨setReg aclOpen .west 0x1800008 0x80003F3FFFFF0000, 0, 8, 0, 1, by decide +kernel⟩⟩

/-- Every clause of `Obligations.CommandsLeaveTheQueueAndTheClock` has its case. -/
theorem witness_CommandsLeaveTheQueueAndTheClock :
    (∃ (c : Instr) (s : State) (t : State),
      exec c s = .next t) ∧
    (∃ (s : State) (t : State),
      step s = .next t) :=
  ⟨⟨.pwrgoodAssert, run, run, rfl⟩,
   ⟨{ run with pending := [.pwrgoodAssert] }, run, rfl⟩⟩

/-- Every clause of `Obligations.TheThermtripLatchStands` has its case. -/
theorem witness_TheThermtripLatchStands :
    (∃ (s : State) (t : State),
      step s = .next t ∧
      s.sys.thermtrip = true ∧
      (∀ (w : Nat) (q : List Instr), s.pending ≠ .pwrgoodDeassert w :: q)) ∧
    (∃ (w : Nat),
      100 ≤ w) :=
  ⟨⟨{ run with sys := { run.sys with thermtrip := true }, pending := [.pwrgoodAssert] }, { run with sys := { run.sys with thermtrip := true } }, ⟨rfl, rfl, fun _ _ => by simp⟩⟩,
   ⟨100, by decide +kernel⟩⟩

/-- Every clause of `Obligations.FlashChangesOnlyOverI3c` has its case. -/
theorem witness_FlashChangesOnlyOverI3c :
    (∃ (c : Instr) (s : State) (t : State),
      exec c s = .next t ∧
      (∀ a, c ≠ .i3cFlashErase a) ∧
      (∀ a l, c ≠ .i3cFlashProgram a l)) ∧
    (∃ (s : State) (t : State),
      s.pending = [] ∧
      step s = .next t) ∧
    (∃ (a : Nat) (l : List Byte) (s : State) (t : State),
      twf 0xFF s.flash = true ∧
      exec (.i3cFlashProgram a l) s = .next t) ∧
    (∃ (a : Nat) (s : State) (t : State),
      twf 0xFF s.flash = true ∧
      exec (.i3cFlashErase a) s = .next t) :=
  ⟨⟨.pwrgoodAssert, run, run, ⟨rfl, nofun, nofun⟩⟩,
   ⟨State.reset, tick State.reset, ⟨rfl, rfl⟩⟩,
   ⟨0x2000000, [7], run, after (exec (.i3cFlashProgram 0x2000000 [7]) run), ⟨by decide +kernel, rfl⟩⟩,
   ⟨0x2000000, run, after (exec (.i3cFlashErase 0x2000000) run), ⟨by decide +kernel, rfl⟩⟩⟩

/-- Every clause of `Obligations.EveryStepKeepsTheTablesCanonical` has its case. -/
theorem witness_EveryStepKeepsTheTablesCanonical :
    (∃ (s : State) (t : State),
      tablesTidy s ∧
      step s = .next t) :=
  ⟨{ run with pending := [.pwrgoodAssert] }, run, by refine ⟨by simp only [tablesTidy]; decide +kernel, rfl⟩⟩

/-- Every clause of `Obligations.UpdatesChangeOneThing` has its case. -/
theorem witness_UpdatesChangeOneThing :
    (∃ (s : State) (k : Nat) (k' : Nat),
      twf 0 s.regs = true ∧
      k < 2 ^ 26 ∧
      k' < 2 ^ 26) ∧
    (∃ (s : State),
      twf {} s.insts = true) ∧
    (∃ (s : State),
      twf {} s.ops = true) ∧
    (∃ (s : State) (n : Nat),
      twf {} (die s (tallyDie n)).tallies = true) ∧
    (∃ (s : State) (d : Die),
      twf {} (die s d).conns = true) ∧
    (∃ (s : State) (d : Die),
      twf {} (die s d).rings.cmd = true) ∧
    (∃ (s : State) (d : Die),
      twf {} (die s d).rings.cq = true) :=
  ⟨⟨run, 0, 2 ^ 26 - 1, by decide +kernel⟩,
   ⟨run, by decide +kernel⟩,
   ⟨withOp { phase := .sent }, by decide +kernel⟩,
   ⟨run, 16, by decide +kernel⟩,
   ⟨run, .west, by decide +kernel⟩,
   ⟨run, .west, by decide +kernel⟩,
   ⟨run, .west, by decide +kernel⟩⟩

end Sys2Proof.Tests
end

section
/-! PROOF. IDENTITY_SET and MG_PORT_CTL through the mailbox: one lemma for each operation on the identity, a link, a port or a
bridge, one for the choice that MG_PORT_CTL makes among them, and the mailbox's path to each (`mbx_ok`). -/

namespace Sys2Proof.Proofs

open Sys2Proof Sys2Proof.Machine

/-! ### What the rows offer -/

theorem exec_mgIdentitySet (iss : Issuer) (b : Block) (c : List Block) (s : State) :
    exec (.mgIdentitySet iss b c) s = .next (taxia s iss (rowBlk b 0xE0 []) c) := rfl
theorem exec_portEnable (iss : Issuer) (b : Block) (c : List Block) (s : State) :
    exec (.portEnable iss b c) s = .next (taxia s iss (rowBlk b 0xE1 [(21, 0, 3, 0)]) c) := rfl
theorem exec_portDisable (iss : Issuer) (b : Block) (c : List Block) (s : State) :
    exec (.portDisable iss b c) s = .next (taxia s iss (rowBlk b 0xE1 [(21, 0, 3, 1)]) c) := rfl
theorem exec_portDrain (iss : Issuer) (b : Block) (c : List Block) (s : State) :
    exec (.portDrain iss b c) s = .next (taxia s iss (rowBlk b 0xE1 [(21, 0, 3, 2)]) c) := rfl
theorem exec_portRetrain (iss : Issuer) (b : Block) (c : List Block) (s : State) :
    exec (.portRetrain iss b c) s = .next (taxia s iss (rowBlk b 0xE1 [(21, 0, 3, 3)]) c) := rfl
theorem exec_portRelease (iss : Issuer) (b : Block) (c : List Block) (s : State) :
    exec (.portRelease iss b c) s = .next (taxia s iss (rowBlk b 0xE1 [(21, 0, 3, 4)]) c) := rfl
theorem exec_portConfigure (iss : Issuer) (b : Block) (c : List Block) (s : State) :
    exec (.portConfigure iss b c) s = .next (taxia s iss (rowBlk b 0xE1 [(21, 0, 3, 5)]) c) := rfl

/-! ### The identity (R16, R17) -/

/-- The part of MG_IDENTITY_SET's form that does not depend on CLEAR. -/
def identityBody (b : Block) : Prop := zeros b [(21, 2, 6), (22, 5, 3), (23, 1, 7)] = true ∧ zeroFrom b 24 = true

theorem mgIdentitySet_load (s : State) (b : Block) (hb : identityBody b) (hfree : identityFree s = true) (hc : fld b 23 0 1 = 0) :
    mgIdentitySet s b = .ok (identLoad s { s.ident with valid := true, group := fld b 20 0 10, place := fld b 22 0 5 }) 0 := by
  obtain ⟨hz, ht⟩ := hb
  simp [mgIdentitySet, hz, ht, hfree, hc]

theorem mgIdentitySet_clear (s : State) (b : Block) (hb : identityBody b) (hfree : identityFree s = true) (hc : fld b 23 0 1 = 1)
    (h0 : fld b 20 0 24 = 0) : mgIdentitySet s b = .ok (identLoad s { s.ident with valid := false, group := 0, place := 0 }) 0 := by
  obtain ⟨hz, ht⟩ := hb
  simp [mgIdentitySet, hz, ht, hfree, hc, h0]

/-- MG_IDENTITY_SET through the mailbox, where its operation answers CC_OK. -/
theorem mailbox_identity (s : State) (b : Block) (c : List Block) (t : State) (hr : mbxReady s (rowBlk b 0xE0 []) = true)
    (h : mgIdentitySet (mbxOffer s (rowBlk b 0xE0 [])).1 (rowBlk b 0xE0 []) = .ok t 0) :
    exec (.mgIdentitySet .mailbox b c) s = .next (completeOp t (mbxOffer s (rowBlk b 0xE0 [])).2 { code := 0, result := 0 }) := by
  have hop : fld (rowBlk b 0xE0 []) 0 0 8 = 0xE0 := fld_rowBlk_op b 0xE0 [] (by simp)
  rw [exec_mgIdentitySet, mbx_ok s _ c 0xE0 t 0 hop (by omega) (by omega) hr]
  rw [mgRun_E0 _ _ _ _ hop (mbxReady_target s _ hr), h]

/-! ### The actions on a link (R298, R299) -/

theorem linkAct_enable_of_down (s : State) (d : Die) (k : Nat) (hst : (link s d k).st = .down) (hen : (link s d k).adminEn = false) :
    linkAct s d k 0 = some (linkTrain (modLink s d k fun l => { l with adminEn := true }) d k) := by
  simp only [linkAct, linkEnable, hst, hen, and_self, if_true]

theorem linkAct_disable_of_live (s : State) (d : Die) (k : Nat) (h : (link s d k).st ≠ .down ∨ (link s d k).adminEn = true) :
    linkAct s d k 1 = some (linkGo (modLink s d k fun l => { l with adminEn := false, hold := false }) d k .down 1) := by
  have hn : ¬ ((link s d k).st = .down ∧ (link s d k).adminEn = false) := by
    rintro ⟨hst, hen⟩
    rcases h with h | h
    · exact h hst
    · rw [hen] at h; cases h
  simp only [linkAct, linkDisable, if_neg hn]

theorem linkAct_drain_of_up (s : State) (d : Die) (k : Nat) (h : (link s d k).st = .up) :
    linkAct s d k 2 = some (linkGo s d k .draining 0) := by
  simp only [linkAct, linkDrain, h, if_true]

theorem linkAct_retrain_of_carrying (s : State) (d : Die) (k : Nat) (h : (link s d k).st = .up ∨ (link s d k).st = .quarantine) :
    linkAct s d k 3 = some (linkGo (modLink s d k fun l => { l with hold := false }) d k .training 0) := by
  rcases h with h | h <;> simp only [linkAct, linkRetrain, h]

theorem linkAct_release_of_failed (s : State) (d : Die) (k : Nat) (h : (link s d k).st = .failed) :
    linkAct s d k 4 = some (if (link s d k).adminEn then linkTrain (linkGo (modLink s d k fun l => { l with recoveries := [] }) d k .down 0) d k
      else linkGo (modLink s d k fun l => { l with recoveries := [] }) d k .down 0) := by
  simp only [linkAct, linkRelease, h, if_true]

/-- What CONFIGURE sets on each link of its port. -/
def linkConfigured (rate : Nat) (split fore : Bool) (credit : Nat) (l : Link) : Link :=
  { l with rate := rate, split := split, forerunner := fore, credit := credit }

theorem portConfigure_of_down (s : State) (d : Die) (p rate : Nat) (split fore : Bool) (credit : Nat)
    (h0 : (link s d (2 * (p % 32))).st = .down) (h1 : (link s d (2 * (p % 32) + 1)).st = .down) :
    portConfigure s d p rate split fore credit = some (modLink (modLink s d (2 * (p % 32)) (linkConfigured rate split fore credit))
      d (2 * (p % 32) + 1) (linkConfigured rate split fore credit)) := by
  unfold portConfigure
  exact if_pos ⟨h0, h1⟩

/-! ### The choice that MG_PORT_CTL makes -/

theorem mgPortCtl_bridge (s : State) (b : Block) (g : Bridge) (hf : portCtlForm s b = true) (hg : portBridge (fld b 20 0 7) = some g) :
    mgPortCtl s b = mgOpt (bridgeAct s g (fld b 21 0 3)) := by
  simp only [mgPortCtl, hf, hg, if_true]

theorem mgPortCtl_link (s : State) (b : Block) (hf : portCtlForm s b = true) (hg : portBridge (fld b 20 0 7) = none)
    (ha : fld b 21 0 3 ≠ 5) : mgPortCtl s b = mgOpt (linkAct s (tgtDie b) (portK (fld b 20 0 7)) (fld b 21 0 3)) := by
  simp only [mgPortCtl, hf, hg, if_true, if_neg ha]

theorem mgPortCtl_configure (s : State) (b : Block) (hf : portCtlForm s b = true) (hg : portBridge (fld b 20 0 7) = none)
    (ha : fld b 21 0 3 = 5) :
    mgPortCtl s b = mgOpt (portConfigure s (tgtDie b) (fld b 20 0 7) (fld b 22 0 2) (fld b 22 2 1 == 1) (fld b 22 3 1 == 1) (fld b 24 0 10)) := by
  simp only [mgPortCtl, hf, hg, ha, if_true]

/-! ### MG_PORT_CTL through the mailbox -/

/-- The block of MG_PORT_CTL with an action. -/
abbrev portBlk (b : Block) (a : Nat) : Block := rowBlk b 0xE1 [(21, 0, 3, a)]

theorem action_portBlk (b : Block) (a : Nat) (ha : a < 8) : fld (portBlk b a) 21 0 3 = a := by
  rw [fld_rowBlk_one b 0xE1 21 0 3 a (by omega), Nat.mod_eq_of_lt (by omega)]

/-- MG_PORT_CTL in the mailbox, where its operation answers CC_OK. -/
theorem mailbox_portCtl (s : State) (b : Block) (a : Nat) (c : List Block) (t : State) (hr : mbxReady s (portBlk b a) = true)
    (h : mgPortCtl (mbxOffer s (portBlk b a)).1 (portBlk b a) = mgOpt (some t)) :
    taxia s .mailbox (portBlk b a) c = completeOp t (mbxOffer s (portBlk b a)).2 { code := 0, result := 0 } := by
  have hop : fld (portBlk b a) 0 0 8 = 0xE1 := fld_rowBlk_op b 0xE1 _ (by simp)
  rw [mbx_ok s _ c 0xE1 t 0 hop (by omega) (by omega) hr]
  rw [mgRun_E1 _ _ _ _ hop (mbxReady_target s _ hr), h, mgOpt]

/-- An action on a link, offered through the mailbox. -/
theorem mailbox_linkAct (s : State) (b : Block) (a : Nat) (c : List Block) (t : State) (ha : a < 5) (hr : mbxReady s (portBlk b a) = true)
    (hf : portCtlForm s (portBlk b a) = true) (hg : portBridge (fld (portBlk b a) 20 0 7) = none)
    (h : linkAct (mbxOffer s (portBlk b a)).1 (tgtDie (portBlk b a)) (portK (fld (portBlk b a) 20 0 7)) a = some t) :
    taxia s .mailbox (portBlk b a) c = completeOp t (mbxOffer s (portBlk b a)).2 { code := 0, result := 0 } := by
  have hact := action_portBlk b a (by omega)
  apply mailbox_portCtl s b a c t hr
  rw [mgPortCtl_link _ _ ((portCtlForm_mbxOffer s _ _).trans hf) hg (by omega), hact, h]

/-- An action on a bridge, offered through the mailbox. -/
theorem mailbox_bridgeAct (s : State) (b : Block) (a : Nat) (c : List Block) (g : Bridge) (t : State) (ha : a < 5)
    (hr : mbxReady s (portBlk b a) = true) (hf : portCtlForm s (portBlk b a) = true)
    (hg : portBridge (fld (portBlk b a) 20 0 7) = some g) (h : bridgeAct (mbxOffer s (portBlk b a)).1 g a = some t) :
    taxia s .mailbox (portBlk b a) c = completeOp t (mbxOffer s (portBlk b a)).2 { code := 0, result := 0 } := by
  apply mailbox_portCtl s b a c t hr
  rw [mgPortCtl_bridge _ _ g ((portCtlForm_mbxOffer s _ _).trans hf) hg, action_portBlk b a (by omega), h]

/-- CONFIGURE, offered through the mailbox. -/
theorem mailbox_portConfigure (s : State) (b : Block) (c : List Block) (t : State) (hr : mbxReady s (portBlk b 5) = true)
    (hf : portCtlForm s (portBlk b 5) = true) (hg : portBridge (fld (portBlk b 5) 20 0 7) = none)
    (h : portConfigure (mbxOffer s (portBlk b 5)).1 (tgtDie (portBlk b 5)) (fld (portBlk b 5) 20 0 7) (fld (portBlk b 5) 22 0 2)
      (fld (portBlk b 5) 22 2 1 == 1) (fld (portBlk b 5) 22 3 1 == 1) (fld (portBlk b 5) 24 0 10) = some t) :
    taxia s .mailbox (portBlk b 5) c = completeOp t (mbxOffer s (portBlk b 5)).2 { code := 0, result := 0 } := by
  apply mailbox_portCtl s b 5 c t hr
  rw [mgPortCtl_configure _ _ ((portCtlForm_mbxOffer s _ _).trans hf) hg (action_portBlk b 5 (by omega)), h]

/-- Settles O1: each clause is the operation's own lemma on the state that the mailbox's offer leaves, whose identity, links and
bridges are those before it. -/
theorem identityAndPortsAct : Obligations.IdentityAndPortsAct := by
  unfold Obligations.IdentityAndPortsAct
  refine ⟨?load, ?clear, ?enable, ?disable, ?drain, ?retrain, ?release, ?configure, ?bridgeEnable, ?bridgeDisable, ?bridgeRelease⟩
  case load =>
    intro s b c B p hr hz ht hfree hc
    exact mailbox_identity s b c _ hr (mgIdentitySet_load p.1 B ⟨hz, ht⟩ ((identityFree_mbxOffer s B).trans hfree) hc)
  case clear =>
    intro s b c B p hr hz ht hfree hc h0
    exact mailbox_identity s b c _ hr (mgIdentitySet_clear p.1 B ⟨hz, ht⟩ ((identityFree_mbxOffer s B).trans hfree) hc h0)
  case enable =>
    intro s b c B p d k hr hf hg hst hen
    rw [exec_portEnable]
    exact congrArg Host.Outcome.next (mailbox_linkAct s b 0 c _ (by omega) hr hf hg
      (linkAct_enable_of_down p.1 d k (by rw [link_mbxOffer]; exact hst) (by rw [link_mbxOffer]; exact hen)))
  case disable =>
    intro s b c B p d k hr hf hg hst
    rw [exec_portDisable]
    exact congrArg Host.Outcome.next (mailbox_linkAct s b 1 c _ (by omega) hr hf hg (linkAct_disable_of_live p.1 d k (by rw [link_mbxOffer]; exact hst)))
  case drain =>
    intro s b c B p d k hr hf hg hst
    rw [exec_portDrain]
    exact congrArg Host.Outcome.next (mailbox_linkAct s b 2 c _ (by omega) hr hf hg (linkAct_drain_of_up p.1 d k (by rw [link_mbxOffer]; exact hst)))
  case retrain =>
    intro s b c B p d k hr hf hg hst
    rw [exec_portRetrain]
    exact congrArg Host.Outcome.next (mailbox_linkAct s b 3 c _ (by omega) hr hf hg (linkAct_retrain_of_carrying p.1 d k (by rw [link_mbxOffer]; exact hst)))
  case release =>
    intro s b c B p d k hr hf hg hst
    have h := linkAct_release_of_failed p.1 d k (by rw [link_mbxOffer]; exact hst)
    rw [link_mbxOffer] at h
    rw [exec_portRelease]
    exact congrArg Host.Outcome.next (mailbox_linkAct s b 4 c _ (by omega) hr hf hg h)
  case configure =>
    intro s b c B p d f hr hf hg h0 h1
    rw [exec_portConfigure]
    exact congrArg Host.Outcome.next (mailbox_portConfigure s b c _ hr hf hg
      (portConfigure_of_down p.1 d _ _ _ _ _ (by rw [link_mbxOffer]; exact h0) (by rw [link_mbxOffer]; exact h1)))
  case bridgeEnable =>
    intro s b c g t B p hr hf hg h
    rw [exec_portEnable]
    exact congrArg Host.Outcome.next (mailbox_bridgeAct s b 0 c g t (by omega) hr hf hg h)
  case bridgeDisable =>
    intro s b c g t B p hr hf hg h
    rw [exec_portDisable]
    exact congrArg Host.Outcome.next (mailbox_bridgeAct s b 1 c g t (by omega) hr hf hg h)
  case bridgeRelease =>
    intro s b c g t B p hr hf hg h
    rw [exec_portRelease]
    exact congrArg Host.Outcome.next (mailbox_bridgeAct s b 4 c g t (by omega) hr hf hg h)

end Sys2Proof.Proofs
end

section
/-! PROOF. A connection packet at its target (R20, R22, R126, R129, R133): the station decides whether it is taken or answered at
once, and at its connection end the distance of its PSN from EXPECTED decides the rest. -/

namespace Sys2Proof.Proofs

open Sys2Proof Sys2Proof.Machine

/-- The connection end at die `d` that the packet `p` with request `r` names is live and is the peer of the packet's sender
(step 2 of R126). -/
def NamesEnd (s : State) (d : Die) (p : Pkt) (r : ReqPkt) : Prop :=
  connDie r.conn = d ∧ ((conn s d r.conn).st = .established ∨ (conn s d r.conn).st = .draining) ∧ (conn s d r.conn).peerConn = r.peer ∧
    (conn s d r.conn).remoteStation = p.src ∧ localAddr s d (conn s d r.conn) = p.dst ∧ (conn s d r.conn).tc = p.tc ∧
    (conn s d r.conn).remoteInst = r.srcInst ∧ (conn s d r.conn).inst = r.dstInst

/-- The packet is held and the held packets are applied in order from EXPECTED; if it stays held an acknowledgement goes. -/
def holdAndApply (s : State) (d : Die) (p : Pkt) (r : ReqPkt) (hr : TargetRead) : State :=
  let t := drainHeld 8192 (holdPkt s d r.conn p r hr) d r.conn
  if (conn t d r.conn).held.any fun h => decide (h.psn = r.psn) then sendAck t d r.conn else t

/-! ### At the connection end -/

/-- At the end that it names a packet is judged by its PSN alone. -/
theorem receiveReq_of_namesEnd (s : State) (d : Die) (p : Pkt) (r : ReqPkt) (hr : TargetRead) (he : NamesEnd s d p r) :
    receiveReq s d p r hr =
      if psnBefore r.psn (conn s d r.conn).expected then answerDup s d r.conn r
      else if (r.psn - (conn s d r.conn).expected).toNat > 4095 then s
      else if (conn s d r.conn).held.any fun h => decide (h.psn = r.psn) then sendAck s d r.conn
      else holdAndApply s d p r hr := by
  unfold receiveReq holdAndApply
  exact if_neg (by rw [Bool.not_eq_true', decide_eq_false_iff_not, not_not]; exact he)

theorem receiveReq_duplicate (s : State) (d : Die) (p : Pkt) (r : ReqPkt) (hr : TargetRead) (he : NamesEnd s d p r)
    (hb : psnBefore r.psn (conn s d r.conn).expected = true) : receiveReq s d p r hr = answerDup s d r.conn r := by
  rw [receiveReq_of_namesEnd s d p r hr he, if_pos hb]

theorem receiveReq_tooFar (s : State) (d : Die) (p : Pkt) (r : ReqPkt) (hr : TargetRead) (he : NamesEnd s d p r)
    (hb : psnBefore r.psn (conn s d r.conn).expected = false) (hfar : 4095 < (r.psn - (conn s d r.conn).expected).toNat) :
    receiveReq s d p r hr = s := by
  rw [receiveReq_of_namesEnd s d p r hr he, if_neg (by rw [hb]; exact Bool.false_ne_true), if_pos hfar]

theorem receiveReq_alreadyHeld (s : State) (d : Die) (p : Pkt) (r : ReqPkt) (hr : TargetRead) (he : NamesEnd s d p r)
    (hb : psnBefore r.psn (conn s d r.conn).expected = false) (hnear : (r.psn - (conn s d r.conn).expected).toNat ≤ 4095)
    (hh : (conn s d r.conn).held.any (fun h => decide (h.psn = r.psn)) = true) : receiveReq s d p r hr = sendAck s d r.conn := by
  rw [receiveReq_of_namesEnd s d p r hr he, if_neg (by rw [hb]; exact Bool.false_ne_true), if_neg (by omega), if_pos hh]

theorem receiveReq_new (s : State) (d : Die) (p : Pkt) (r : ReqPkt) (hr : TargetRead) (he : NamesEnd s d p r)
    (hb : psnBefore r.psn (conn s d r.conn).expected = false) (hnear : (r.psn - (conn s d r.conn).expected).toNat ≤ 4095)
    (hh : (conn s d r.conn).held.any (fun h => decide (h.psn = r.psn)) = false) : receiveReq s d p r hr = holdAndApply s d p r hr := by
  rw [receiveReq_of_namesEnd s d p r hr he, if_neg (by rw [hb]; exact Bool.false_ne_true), if_neg (by omega),
    if_neg (by rw [hh]; exact Bool.false_ne_true)]

/-! ### At the station -/

theorem arriveReq_served (s : State) (d : Die) (p : Pkt) (r : ReqPkt) (hr : TargetRead) (hid : s.ident.valid = true)
    (hb : stationBound s d (stnOf p.dst) = true) (hs : stationServes s d (stnOf p.dst) r.dstInst = true) :
    arriveReq s d p r hr = receiveReq s d p r hr := by
  simp only [arriveReq, hid, hb, hs, Bool.not_true, Bool.and_self, Bool.false_eq_true, if_false, if_true]

theorem arriveReq_unserved (s : State) (d : Die) (p : Pkt) (r : ReqPkt) (hr : TargetRead) (hid : s.ident.valid = true)
    (h : (stationBound s d (stnOf p.dst) && stationServes s d (stnOf p.dst) r.dstInst) = false) :
    arriveReq s d p r hr = bounce s d p r .unbound := by
  simp only [arriveReq, hid, h, Bool.not_true, Bool.false_eq_true, if_false]

/-! ### The three rows: each takes its own kind of request packet -/

theorem exec_dataPacketArrive (s : State) (d : Die) (p : Pkt) (r : ReqPkt) (hr : TargetRead) (hp : bodyOf p = .req r)
    (hk : (isPull r.op || isFinish r.op) = false) : exec (.dataPacketArrive d p hr) s = .next (arriveReq s d p r hr) := by
  have hn : ¬ (isPull r.op = true ∨ isFinish r.op = true) := by rw [← Bool.or_eq_true, hk]; exact Bool.false_ne_true
  change execDataPacketArrive d p hr s = _
  simp only [execDataPacketArrive, hp, if_neg hn]

theorem exec_pullRequest (s : State) (d : Die) (p : Pkt) (r : ReqPkt) (hr : TargetRead) (hp : bodyOf p = .req r)
    (hk : isPull r.op = true) : exec (.pullRequest d p hr) s = .next (arriveReq s d p r hr) := by
  change execPullRequest d p hr s = _
  simp only [execPullRequest, hp, hk, if_true]

theorem exec_finishPacket (s : State) (d : Die) (p : Pkt) (r : ReqPkt) (hp : bodyOf p = .req r) (hk : isFinish r.op = true) :
    exec (.finishPacket d p) s = .next (arriveReq s d p r { bytes := [], fail := none }) := by
  change execFinishPacket d p s = _
  simp only [execFinishPacket, hp, hk, if_true]

/-- Settles O19: the row takes the packet to its station, the station to the connection end, and there the PSN decides. -/
theorem packetsAreReceivedInOrder : Obligations.PacketsAreReceivedInOrder := by
  unfold Obligations.PacketsAreReceivedInOrder
  refine ⟨?duplicate, ?tooFar, ?alreadyHeld, ?new, ?unserved, ?pull, ?finish⟩
  case duplicate =>
    intro s d p r hr hp hk hid hb hs he hpsn
    rw [exec_dataPacketArrive s d p r hr hp hk, arriveReq_served s d p r hr hid hb hs, receiveReq_duplicate s d p r hr he hpsn]
  case tooFar =>
    intro s d p r hr hp hk hid hb hs he hpsn hfar
    rw [exec_dataPacketArrive s d p r hr hp hk, arriveReq_served s d p r hr hid hb hs, receiveReq_tooFar s d p r hr he hpsn hfar]
  case alreadyHeld =>
    intro s d p r hr hp hk hid hb hs he hpsn hnear hh
    rw [exec_dataPacketArrive s d p r hr hp hk, arriveReq_served s d p r hr hid hb hs,
      receiveReq_alreadyHeld s d p r hr he hpsn hnear hh]
  case new =>
    intro s d p r hr t hp hk hid hb hs he hpsn hnear hh
    rw [exec_dataPacketArrive s d p r hr hp hk, arriveReq_served s d p r hr hid hb hs, receiveReq_new s d p r hr he hpsn hnear hh,
      holdAndApply]
  case unserved =>
    intro s d p r hr hp hk hid h
    rw [exec_dataPacketArrive s d p r hr hp hk, arriveReq_unserved s d p r hr hid h]
  case pull =>
    intro s d p r hr t hp hk hid hb hs he hpsn hnear hh
    rw [exec_pullRequest s d p r hr hp hk, arriveReq_served s d p r hr hid hb hs, receiveReq_new s d p r hr he hpsn hnear hh,
      holdAndApply]
  case finish =>
    intro s d p r t hp hk hid hb hs he hpsn hnear hh
    rw [exec_finishPacket s d p r hp hk, arriveReq_served s d p r _ hid hb hs, receiveReq_new s d p r _ he hpsn hnear hh,
      holdAndApply]

end Sys2Proof.Proofs
end

section
/-! PROOF. The source router's choice of a path (R21, R22, R217, R222, R227, R228) and what any router does with a packet that it
has received (R15, R206, R215, R216). -/

namespace Sys2Proof.Proofs

open Sys2Proof Sys2Proof.Machine

/-! ### The source router -/

/-- The packet as the source router stamps it (R21). -/
abbrev stamped (s : State) (d : Die) (p : Pkt) : Pkt := { p with src := routerAddr s d + stnOf p.src }

/-- The packet without a number: ORD = 0 (R228). -/
abbrev unnumbered (p : Pkt) : Pkt := { p with ord := false, start := false, fseq := 0 }

theorem exec_packetRouteSource (s : State) (d : Die) (p : Pkt) : exec (.packetRouteSource d p) s = .next (routeSource s d p) := rfl

theorem routeSource_form2 (s : State) (d : Die) (p : Pkt) (port : Nat) (h : form2Port p = some port) :
    routeSource s d p = flumeOutPort s d { p with src := routerAddr s d } port := by
  simp only [routeSource, h]

theorem routeSource_ownRouter (s : State) (d : Die) (p : Pkt) (hf : form2Port p = none) (hid : s.ident.valid = true)
    (hown : routerPart p.dst = routerAddr s d) :
    routeSource s d p = emit s (arrived d { stamped s d p with ord := false }) := by
  simp only [routeSource, hf, hid, hown, Bool.not_true, Bool.false_eq_true, if_false, if_true]

theorem routeSource_bindery (s : State) (d : Die) (p : Pkt) (b : BndPkt) (hf : form2Port p = none) (hid : s.ident.valid = true)
    (hown : routerPart p.dst ≠ routerAddr s d) (hb : bodyOf (stamped s d p) = .bnd b) :
    routeSource s d p = routeBnd s d (unnumbered (stamped s d p)) b := by
  simp only [routeSource, hf, hid, hown, hb, Bool.not_true, Bool.false_eq_true, if_false]

/-- What the source router does with a packet of another router that is no Bindery packet: refused for an absent destination
(R22), else routed. -/
def routeOther (s : State) (d : Die) (q : Pkt) : State :=
  if ownDie s q.dst ≠ some d.other ∧ destAbsent s d q.dst = true then refuseAbsent s d q
  else
    let n := if neverOrd q || touchesFore s d q then (s, unnumbered q) else numberPkt s d q
    if (neverOrd q || touchesFore s d q || cooling s (flowOf s d (pktFlow q)) || !(bit (regVal s d 0xF00000) q.tc)) || !n.2.ord then routeDet n.1 d n.2
    else routeSpray n.1 d n.2

theorem routeSource_other (s : State) (d : Die) (p : Pkt) (hf : form2Port p = none) (hid : s.ident.valid = true)
    (hown : routerPart p.dst ≠ routerAddr s d) (hb : ∀ b, bodyOf (stamped s d p) ≠ .bnd b) :
    routeSource s d p = routeOther s d (stamped s d p) := by
  cases h : bodyOf (stamped s d p) with
  | bnd b => exact absurd h (hb b)
  | _ =>
    simp only [routeSource, hf, hid, hown, h, Bool.not_true, Bool.false_eq_true, if_false]
    rfl

theorem routeOther_absent (s : State) (d : Die) (q : Pkt) (ho : ownDie s q.dst ≠ some d.other) (ha : destAbsent s d q.dst = true) :
    routeOther s d q = refuseAbsent s d q := if_pos ⟨ho, ha⟩

/-- The destination can be reached: the die's own partner, or a router that the active epoch holds (R22). -/
def Reachable (s : State) (d : Die) (q : Pkt) : Prop := ownDie s q.dst = some d.other ∨ destAbsent s d q.dst = false

theorem Reachable.not_refused {s : State} {d : Die} {q : Pkt} (h : Reachable s d q) :
    ¬ (ownDie s q.dst ≠ some d.other ∧ destAbsent s d q.dst = true) := by
  rintro ⟨ho, ha⟩
  rcases h with h | h
  · exact ho h
  · rw [h] at ha; cases ha

theorem routeOther_neverNumbered (s : State) (d : Die) (q : Pkt) (hr : Reachable s d q)
    (h : neverOrd q = true ∨ touchesFore s d q = true) : routeOther s d q = routeDet s d (unnumbered q) := by
  have hn : (neverOrd q || touchesFore s d q) = true := by rw [Bool.or_eq_true]; exact h
  simp only [routeOther, if_neg hr.not_refused, hn, Bool.true_or, if_true]

/-- A packet that may be numbered: sprayed when it got a number, its flow is not cooling and its class is sprayed (R217, R227). -/
theorem routeOther_numbered (s : State) (d : Die) (q : Pkt) (hr : Reachable s d q) (hn : neverOrd q = false)
    (hf : touchesFore s d q = false) :
    routeOther s d q =
      if (cooling s (flowOf s d (pktFlow q)) || !(bit (regVal s d 0xF00000) q.tc)) || !(numberPkt s d q).2.ord
      then routeDet (numberPkt s d q).1 d (numberPkt s d q).2 else routeSpray (numberPkt s d q).1 d (numberPkt s d q).2 := by
  simp only [routeOther, if_neg hr.not_refused, hn, hf, Bool.or_self, Bool.false_or, Bool.false_eq_true, if_false]

theorem routeOther_deterministic (s : State) (d : Die) (q : Pkt) (hr : Reachable s d q) (hn : neverOrd q = false)
    (hf : touchesFore s d q = false)
    (h : cooling s (flowOf s d (pktFlow q)) = true ∨ bit (regVal s d 0xF00000) q.tc = false ∨ (numberPkt s d q).2.ord = false) :
    routeOther s d q = routeDet (numberPkt s d q).1 d (numberPkt s d q).2 := by
  rw [routeOther_numbered s d q hr hn hf]
  apply if_pos
  rcases h with h | h | h <;> simp [h]

theorem routeOther_sprayed (s : State) (d : Die) (q : Pkt) (hr : Reachable s d q) (hn : neverOrd q = false)
    (hf : touchesFore s d q = false) (hc : cooling s (flowOf s d (pktFlow q)) = false) (ht : bit (regVal s d 0xF00000) q.tc = true)
    (ho : (numberPkt s d q).2.ord = true) : routeOther s d q = routeSpray (numberPkt s d q).1 d (numberPkt s d q).2 := by
  rw [routeOther_numbered s d q hr hn hf]
  apply if_neg
  simp [hc, ht, ho]

/-! ### Every router -/

/-- A received packet breaks R206 or R247. -/
def Malformed (p : Pkt) : Prop := p.kind = 3 ∨ p.rsv ≠ 0 ∨ (p.chan16 = true ∧ 1 < p.len)

theorem not_malformed {p : Pkt} (hk : p.kind ≠ 3) (hr : p.rsv = 0) (hl : p.chan16 = true → p.len ≤ 1) : ¬ Malformed p := by
  rintro (h | h | ⟨hc, h⟩)
  · exact hk h
  · exact h hr
  · exact absurd (hl hc) (by omega)

theorem exec_packetForward (s : State) (d : Die) (i : Ingress) (p : Pkt) :
    exec (.packetForward d i p) s = .next (forwardPkt (takeBridge s d p i) d i p) := rfl

theorem forwardPkt_malformed (s : State) (d : Die) (i : Ingress) (p : Pkt) (h : Malformed p) :
    forwardPkt s d i p = dropMalformed s d i p := if_pos h

theorem forwardPkt_form2 (s : State) (d : Die) (i : Ingress) (p : Pkt) (f : FlumePkt) (hm : ¬ Malformed p) (hf : flumeOf p = some f)
    (h2 : f.form = 2) : forwardPkt s d i p = emit s (.toStation d p) := by
  refine (if_neg hm).trans (if_pos ?_)
  simp only [hf, h2, decide_true]

/-- What a router with an identity does with a well-formed packet of another form: its next hop decides (R215). -/
theorem forwardPkt_byHop (s : State) (d : Die) (i : Ingress) (p : Pkt) (hm : ¬ Malformed p)
    (hf : ∀ f, flumeOf p = some f → f.form ≠ 2) (hid : s.ident.valid = true) :
    forwardPkt s d i p = if nextHop s d p = .absent then answerAbsent (rteDrop s d p 0x7D) d p else sendHop s d none (nextHop s d p) p := by
  refine (if_neg hm).trans ((if_neg ?otherForm).trans ((if_neg (by simp [hid])).trans ?hop))
  case otherForm =>
    split
    · next f h => simpa using hf f h
    · exact Bool.false_ne_true
  case hop => cases nextHop s d p <;> rfl

theorem forwardPkt_absent (s : State) (d : Die) (i : Ingress) (p : Pkt) (hm : ¬ Malformed p)
    (hf : ∀ f, flumeOf p = some f → f.form ≠ 2) (hid : s.ident.valid = true) (hh : nextHop s d p = .absent) :
    forwardPkt s d i p = answerAbsent (rteDrop s d p 0x7D) d p := by
  rw [forwardPkt_byHop s d i p hm hf hid, if_pos hh]

theorem forwardPkt_sent (s : State) (d : Die) (i : Ingress) (p : Pkt) (hm : ¬ Malformed p)
    (hf : ∀ f, flumeOf p = some f → f.form ≠ 2) (hid : s.ident.valid = true) (hh : nextHop s d p ≠ .absent) :
    forwardPkt s d i p = sendHop s d none (nextHop s d p) p := by
  rw [forwardPkt_byHop s d i p hm hf hid, if_neg hh]

/-- Settles O25: the branches of the source router in their order, then those of a transit router. -/
theorem routersChooseAPath : Obligations.RoutersChooseAPath := by
  unfold Obligations.RoutersChooseAPath
  refine ⟨?form2, ?ownRouter, ?bindery, ?absent, ?neverNumbered, ?deterministic, ?sprayed, ?malformed, ?toStation, ?absentHop, ?sent⟩
  case form2 =>
    intro s d p port h
    rw [exec_packetRouteSource, routeSource_form2 s d p port h]
  case ownRouter =>
    intro s d p q n hf hid hown
    rw [exec_packetRouteSource, routeSource_ownRouter s d p hf hid hown]
  case bindery =>
    intro s d p b q n hf hid hown hb
    rw [exec_packetRouteSource, routeSource_bindery s d p b hf hid hown hb]
  case absent =>
    intro s d p q n hf hid hown hb ho ha
    rw [exec_packetRouteSource, routeSource_other s d p hf hid hown hb, routeOther_absent s d q ho ha]
  case neverNumbered =>
    intro s d p q n hf hid hown hb hr h
    rw [exec_packetRouteSource, routeSource_other s d p hf hid hown hb, routeOther_neverNumbered s d q hr h]
  case deterministic =>
    intro s d p q n hf hid hown hb hr hn hfore h
    rw [exec_packetRouteSource, routeSource_other s d p hf hid hown hb, routeOther_deterministic s d q hr hn hfore h]
  case sprayed =>
    intro s d p q n hf hid hown hb hr hn hfore hc ht ho
    rw [exec_packetRouteSource, routeSource_other s d p hf hid hown hb, routeOther_sprayed s d q hr hn hfore hc ht ho]
  case malformed =>
    intro s d p i u h
    rw [exec_packetForward, forwardPkt_malformed _ d i p h]
  case toStation =>
    intro s d p i f u hk hr hl hf h2
    rw [exec_packetForward, forwardPkt_form2 _ d i p f (not_malformed hk hr hl) hf h2]
  case absentHop =>
    intro s d p i u hk hr hl hf hid hh
    rw [exec_packetForward, forwardPkt_absent _ d i p (not_malformed hk hr hl) hf hid hh]
  case sent =>
    intro s d p i u hk hr hl hf hid hh
    rw [exec_packetForward, forwardPkt_sent _ d i p (not_malformed hk hr hl) hf hid hh]

end Sys2Proof.Proofs
end

section
/-! PROOF. Every command has a next state (R51, R315, R349; log entry 10): most arms of `exec` name it outright, the others once
they have asked whether their event can happen now. -/

namespace Sys2Proof.Proofs

open Sys2Proof Sys2Proof.Machine

/-- An arm that acts under one condition. -/
theorem isNext_ite {c : Prop} [Decidable c] (s t : State) : isNext (if c then .next s else .next t) := by
  split
  · exact ⟨s, rfl⟩
  · exact ⟨t, rfl⟩

/-- Each arm, by how it comes to its next state. -/
theorem exec_isNext (c : Instr) (s : State) : isNext (exec c s) := by
  cases c
  -- The arms that act under one condition.
  case connectResend | tokenRequest | boomArrival | boomEntryIdle | flowStateRetire | mapPush | mapCloseTimeout | frameReceive
      | identSend | shelfReceive | timeSend | onoffReceive | onoffSend | laneSignalDetect | linkRxReady | linkAlignDone
      | noSignalTimeout | noSignalRetry | linkQuietEnd | linkDrainEnd | bridgeClockLoss | bridgeQuietEnd | d3hotEntry
      | instanceResetDone | instanceQuiesceDone | pwrgoodDeassert | mgtEvtEnable | hostLinkTrained | rtoExpiry
      | bndRelayPacket | ringResetSlotTimeout | timeSourceTimeout | holdoverExpiry | bringupComplete =>
    exact isNext_ite _ _
  -- The arms that decide by several conditions.
  case ringResetDone | linkRetxTimeout | laneSignalLoss | sysResetAssert | shelfSend | connDrainDone | ctxDrainDone =>
    simp only [exec, execRingResetDone, execLinkRetxTimeout, execLaneSignalLoss, execSysResetAssert, execShelfSend, execConnDrainDone,
      execCtxDrainDone]
    repeat' split
    all_goals exact ⟨_, rfl⟩
  -- The arms that first look up whom the event concerns: a ring, a timer, a kind of packet, a pending read.
  case doorbell | ringEntryFetch | ringConsumeRetry | shadowTimer | ringAgeExpiry | cqHeadWrite | dataPacketArrive | ackTimer
      | ackReceive | flushTimer | flushComplete | getResponseArrive | pacedSend | connectReceive | teardownReceive
      | progressTimeout | rnrResend | rnrLimitExpiry | pullRequest | finishPacket | bndContribution | bndResult | bndAck
      | bndResend | bndAbortReceive | bndBackupTimeout | boomHoldTimeout | boomNoticeReceive | cooldownExpiry | mapPartReceive
      | trainTimeout | tableWalkComplete | internalDeviceReset | wakeTimerExpiry =>
    simp only [exec, execDoorbell, execRingEntryFetch, execRingConsumeRetry, execShadowTimer, execRingAgeExpiry, execCqHeadWrite,
      execDataPacketArrive, execAckTimer, execAckReceive, execFlushTimer, execFlushComplete, execGetResponseArrive,
      execPacedSend, execConnectReceive, execTeardownReceive, execProgressTimeout, execRnrResend, execRnrLimitExpiry,
      execPullRequest, execFinishPacket, execBndContribution, execBndResult, execBndAck, execBndResend, execBndAbortReceive,
      execBndBackupTimeout, execBoomHoldTimeout, execBoomNoticeReceive, execCooldownExpiry, execMapPartReceive,
      execTrainTimeout, execTableWalkComplete, execInternalDeviceReset, execWakeTimerExpiry]
    repeat' split
    all_goals exact ⟨_, rfl⟩
  -- The others name their next state at once.
  all_goals exact ⟨_, rfl⟩

/-- Settles O54: a step is the clock's tick or a command's execution, and every command has a next state. -/
theorem noCommandStopsTheMachine : Obligations.NoCommandStopsTheMachine := by
  unfold Obligations.NoCommandStopsTheMachine
  refine ⟨exec_isNext, fun s => ?_⟩
  unfold safeStep step
  cases s.pending with
  | nil => exact ⟨tick s, rfl⟩
  | cons c rest => exact exec_isNext c _

end Sys2Proof.Proofs
end

section
/-! PROOF. The fields of a completion record (R51): the record is its fields packed one above the other. -/

namespace Sys2Proof.Proofs

open Sys2Proof Sys2Proof.Machine

/-- The number that fields of given widths spell, the first one lowest. -/
def pack : List (Nat × Nat) → Nat
  | [] => 0
  | (n, v) :: l => v + 2 ^ n * pack l

/-- The bits that the fields take. -/
def packWidth (l : List (Nat × Nat)) : Nat := (l.map (·.1)).sum

/-- Each field's value fits its width. -/
def Fits (l : List (Nat × Nat)) : Prop := ∀ f ∈ l, f.2 < 2 ^ f.1

theorem bits_lowest {n v : Nat} (h : v < 2 ^ n) (w : Nat) : bits (v + 2 ^ n * w) 0 n = v := by
  rw [bits, Nat.pow_zero, Nat.div_one, Nat.add_mul_mod_self_left, Nat.mod_eq_of_lt h]

/-- Bits above a lowest field are bits of the rest. -/
theorem bits_above {n v : Nat} (h : v < 2 ^ n) (w lo m : Nat) : bits (v + 2 ^ n * w) (n + lo) m = bits w lo m := by
  rw [bits, bits, Nat.pow_add, ← Nat.div_div_eq_div_mul, Nat.add_mul_div_left _ _ (Nat.two_pow_pos n), Nat.div_eq_of_lt h, Nat.zero_add]

theorem bits_eq_zero_of_lt {w lo : Nat} (h : w < 2 ^ lo) (n : Nat) : bits w lo n = 0 := by
  rw [bits, Nat.div_eq_of_lt h, Nat.zero_mod]

/-- A field reads as its value at the width of the fields below it. -/
theorem bits_pack {l : List (Nat × Nat)} (h : Fits l) (k : Nat) (hk : k < l.length) :
    bits (pack l) (packWidth (l.take k)) l[k].1 = l[k].2 := by
  induction l generalizing k with
  | nil => cases hk
  | cons f l ih =>
    have hf : f.2 < 2 ^ f.1 := h f (List.mem_cons_self ..)
    cases k with
    | zero => exact bits_lowest hf _
    | succ k => exact (bits_above hf _ _ _).trans (ih (fun g hg => h g (List.mem_cons_of_mem _ hg)) k (Nat.lt_of_succ_lt_succ hk))

theorem pack_lt {l : List (Nat × Nat)} (h : Fits l) : pack l < 2 ^ packWidth l := by
  induction l with
  | nil => exact Nat.one_pos
  | cons f l ih =>
    have hf : f.2 < 2 ^ f.1 := h f (List.mem_cons_self ..)
    have hl : pack l < 2 ^ packWidth l := ih fun g hg => h g (List.mem_cons_of_mem _ hg)
    calc pack (f :: l) = f.2 + 2 ^ f.1 * pack l := rfl
      _ < 2 ^ f.1 * (pack l + 1) := by rw [Nat.mul_add, Nat.mul_one]; omega
      _ ≤ 2 ^ f.1 * 2 ^ packWidth l := Nat.mul_le_mul_left _ hl
      _ = 2 ^ packWidth (f :: l) := (Nat.pow_add ..).symm

/-- The fields of a completion record, W0 to W3, below its zero bits and PHASE (R51). -/
def recordFields (cookie bytes failIdx sub code result seq ring station : Nat) : List (Nat × Nat) :=
  [(64, cookie), (40, bytes), (5, failIdx), (3, 0), (8, sub), (8, code), (64, result), (24, seq), (14, ring), (20, station)]

theorem completionRecord_eq_pack {cookie bytes failIdx sub code result seq ring station : Nat}
    (h : Fits (recordFields cookie bytes failIdx sub code result seq ring station)) :
    completionRecord cookie bytes failIdx sub code result seq ring station =
      pack (recordFields cookie bytes failIdx sub code result seq ring station) := by
  simp only [Fits, recordFields, List.forall_mem_cons] at h
  obtain ⟨hcookie, hbytes, hfail, -, hsub, hcode, hresult, hseq, hring, hstation, -⟩ := h
  simp only [completionRecord, recordFields, pack, Nat.mod_eq_of_lt hcookie, Nat.mod_eq_of_lt hbytes, Nat.mod_eq_of_lt hfail,
    Nat.mod_eq_of_lt hsub, Nat.mod_eq_of_lt hcode, Nat.mod_eq_of_lt hresult, Nat.mod_eq_of_lt hseq, Nat.mod_eq_of_lt hring,
    Nat.mod_eq_of_lt hstation]
  ring

/-- Settles O46: the record is its fields packed in order, and a packed field is read at the width of those below it. -/
theorem completionRecordsSpellTheirOutcome : Obligations.CompletionRecordsSpellTheirOutcome := by
  unfold Obligations.CompletionRecordsSpellTheirOutcome
  intro cookie bytes failIdx sub code result seq ring station hcookie hbytes hfail hsub hcode hresult hseq hring hstation r
  have h : Fits (recordFields cookie bytes failIdx sub code result seq ring station) := by
    simp only [Fits, recordFields, List.forall_mem_cons]
    exact ⟨hcookie, hbytes, hfail, by decide, hsub, hcode, hresult, hseq, hring, hstation, nofun⟩
  have hr : r = pack (recordFields cookie bytes failIdx sub code result seq ring station) := completionRecord_eq_pack h
  have hlt : r < 2 ^ 250 := hr ▸ pack_lt h
  rw [hr] at hlt ⊢
  have field (k : Nat) (hk : k < 10) := bits_pack h k hk
  exact ⟨field 0 (by decide), field 1 (by decide), field 2 (by decide), field 3 (by decide), field 4 (by decide), field 5 (by decide),
    field 6 (by decide), field 7 (by decide), field 8 (by decide), field 9 (by decide), bits_eq_zero_of_lt hlt 6, hlt.trans (by decide)⟩

end Sys2Proof.Proofs
end

section
/-! PROOF. A ring's command on its way to execution (R54): the operation that the ring's offer makes, what the checks and the
connection's taking leave of it, and the part of `execute` that it comes to. -/

namespace Sys2Proof.Proofs

open Sys2Proof Sys2Proof.Machine

/-! ### Reading back a changed operation -/

theorem fld_zero (y lo n : Nat) : fld (0 : Block) y lo n = 0 := by
  change bits (0#512).toNat _ _ = 0
  rw [BitVec.toNat_zero, bits, Nat.zero_div, Nat.zero_mod]

/-- An operation with an opcode is no unused number. -/
theorem op_ne_of_opcode {x : Op} (h : fld x.blk 0 0 8 ≠ 0) : x ≠ {} := by
  rintro rfl
  exact h (fld_zero 0 0 8)

/-- A change that leaves an operation its opcode is read back. -/
theorem opOf_modOp (s : State) (o : Nat) (f : Op → Op) (h : fld (f (opOf s o)).blk 0 0 8 ≠ 0) : opOf (modOp s o f) o = f (opOf s o) :=
  tget_tset_same ({} : Op) s.ops o (v := f (opOf s o)) (op_ne_of_opcode h)

@[simp] theorem opOf_onCrz (s : State) (d : Die) (f : Cruise → Cruise) (o : Nat) : opOf (onCrz s d f) o = opOf s o := opOf_onDie s d _ o

/-- A choice between two states that both leave an operation as it was. -/
theorem opOf_ite {c : Prop} [Decidable c] {a b s : State} {o : Nat} (ha : opOf a o = opOf s o) (hb : opOf b o = opOf s o) :
    opOf (if c then a else b) o = opOf s o := by
  split
  · exact ha
  · exact hb

theorem opOf_pmcAdd (k : Nat) (s : State) (d : Die) (i n o : Nat) : opOf (pmcAdd k s d i n) o = opOf s o := by
  induction k generalizing s i n with
  | zero => rfl
  | succ k ih =>
    unfold pmcAdd
    extract_lets v counted c wrapped smp sampled
    have hcounted : opOf counted o = opOf s o := opOf_setReg ..
    have hwrapped : opOf wrapped o = opOf s o := (opOf_setReg ..).trans hcounted
    have hsampled : opOf sampled o = opOf s o :=
      opOf_ite hwrapped (opOf_ite ((opOf_setReg wrapped ..).trans hwrapped) ((opOf_onCrz wrapped ..).trans hwrapped))
    exact opOf_ite hcounted (opOf_ite ((ih ..).trans hsampled) hsampled)

@[simp] theorem opOf_pmc (s : State) (d : Die) (i n o : Nat) : opOf (pmc s d i n) o = opOf s o := by
  unfold pmc
  split
  · rfl
  · exact opOf_pmcAdd 768 s d i n o

@[simp] theorem opOf_modConn (s : State) (d : Die) (c : Nat) (f : Conn → Conn) (o : Nat) : opOf (modConn s d c f) o = opOf s o :=
  opOf_onDie s d _ o

theorem opOf_cacheConn (s : State) (d : Die) (c o : Nat) : opOf ((cacheConn s d c).getD s) o = opOf s o := by
  unfold cacheConn
  repeat' split
  all_goals simp

/-! ### What a ring's offer makes -/

/-- The operation `x` is the command `op` of ring `n` of die `d`, and no deferred one. -/
structure RingCmd (x : Op) (d : Die) (n op : Nat) : Prop where
  iss : x.iss = .ring d n
  die : x.die = d
  plain : x.deferred = false
  code : fld x.blk 0 0 8 = op

variable {s : State} {d : Die} {n op : Nat} {b : Block} {c : List Block} {p : State × Nat}

theorem fld_entryBlk_op (r : CmdRing) (b : Block) : fld (entryBlk r b) 0 0 8 = fld b 0 0 8 := by
  rw [entryBlk, fld_putFld_other _ _ _ _ _ _ _ _ (by omega) (by omega), fld_putFld_other _ _ _ _ _ _ _ _ (by omega) (by omega)]

theorem ringCmd_of_offer (hop : op < 256) (h : ringOffer s d n (rowBlk b op []) c = some p) : RingCmd (opOf p.1 p.2) d n op := by
  obtain ⟨e, he, hx⟩ := ringOffer_op s d n _ c p h
  rw [hx]
  refine ⟨rfl, rfl, rfl, ?_⟩
  change fld e.blk 0 0 8 = op
  rw [he, fld_entryBlk_op, fld_rowBlk_op b op [] (by simp), Nat.mod_eq_of_lt hop]

namespace RingCmd

variable {x : Op}

/-- What the operation runs is its own block. -/
theorem opBlk_eq (h : RingCmd x d n op) : opBlk x = x.blk := by rw [opBlk, h.plain]; rfl
theorem opcode_eq (h : RingCmd x d n op) : opcode x = op := by rw [opcode, h.opBlk_eq, h.code]

end RingCmd

/-- Its place in the order of check 4 leaves the operation what it is. -/
theorem ringCmd_passed4 {o : Nat} (h0 : op ≠ 0) (h : RingCmd (opOf s o) d n op) : RingCmd (opOf (passed4 s o) o) d n op := by
  unfold passed4
  split
  · exact h
  · have hx : opOf { modOp s o (fun x => { x with order := s.nextOp }) with nextOp := s.nextOp + 1 } o = { opOf s o with order := s.nextOp } :=
      opOf_modOp s o (fun x => { x with order := s.nextOp }) (h.code.symm ▸ h0)
    rw [hx]
    exact ⟨h.iss, h.die, h.plain, h.code⟩

theorem opOf_takeConn {o k : Nat} (h : fld (opOf s o).blk 0 0 8 ≠ 0) : opOf (takeConn s o k) o = { opOf s o with conn := some k } := by
  have hx : opOf (modConn ((cacheConn s (opOf s o).die k).getD s) (opOf s o).die k fun z => { z with ops := addNew z.ops o }) o = opOf s o := by
    rw [opOf_modConn, opOf_cacheConn]
  rw [takeConn, opOf_modOp _ _ _ (by rw [hx]; exact h), hx]

/-! ### To execution -/

/-- A ring's operation that passes its checks executes, but for MGMT commands, which settle at their target, and TRIG_ARM, whose
checks begin again on its deferred block (R54, R61). -/
theorem passes_execute {o : Nat} (hx : RingCmd (opOf s o) d n op) (harm : op ≠ 0x80) (hop : op < 0xE0) (h : passes s o = true) :
    opStart s o = execute (passed4 s o) o := by
  simp only [passes, Bool.and_eq_true, decide_eq_true_eq] at h
  obtain ⟨⟨⟨hwhole, hstatic, hfree⟩, hstate⟩, hsettled⟩ := h
  have harms : armsDeferred (opOf s o) = false := by simp [armsDeferred, hx.code, harm]
  have hclass : classOf (opOf s o).blk ≠ 7 := by rw [classOf_eq, hx.code]; omega
  have hplain : plainOp (opOf s o) = false := by simp [plainOp, hx.iss, hx.plain]
  simp [opStart, hx.iss, harms, chainStep, hwhole, opChecked, actsSettle_of _ hsettled, hclass, hplain, hstatic, opRun, hstate, hfree]

/-- A ring's command that passes its checks executes. -/
theorem ring_executes (harm : op ≠ 0x80) (hop : op < 0xE0) (h : ringOffer s d n (rowBlk b op []) c = some p) (hp : passes p.1 p.2 = true) :
    taxia s (.ring d n) (rowBlk b op []) c = execute (passed4 p.1 p.2) p.2 := by
  rw [ring_runs s d n _ c p h, passes_execute (ringCmd_of_offer (by omega) h) harm hop hp]

/-- A command of a connection whose context opens, whose destination is there and which nothing goes before. -/
theorem execute_conn {o k : Nat} (hk : connField (opBlk (opOf s o)) = some k)
    (hopen : opens (takeConn s o k) (opOf s o).die (conn (takeConn s o k) (opOf s o).die k).inst (conn (takeConn s o k) (opOf s o).die k).sealedBy = true)
    (hdst : destAbsent (takeConn s o k) (opOf s o).die (conn (takeConn s o k) (opOf s o).die k).remoteStation = false)
    (hbusy : connBusy (takeConn s o k) (opOf s o).die k o = false) : execute s o = goConn (takeConn s o k) o k := by
  simp only [execute, hk, hopen, hdst, hbusy, Bool.true_eq_false, Bool.false_eq_true, if_false]

theorem execute_plain {o : Nat} (hk : connField (opBlk (opOf s o)) = none) : execute s o = goPlain (modOp s o fun z => { z with phase := .done }) o := by
  simp only [execute, hk]

/-- The state of a ring's offer `p` past check 4. -/
abbrev checked (p : State × Nat) : State := passed4 p.1 p.2
/-- The offer's operation there. -/
abbrev ringOp (p : State × Nat) : Op := opOf (checked p) p.2
/-- The state in which that operation has taken its connection. -/
abbrev taken (p : State × Nat) (k : Nat) : State := takeConn (checked p) p.2 k
/-- The state in which the operation of a ring's offer executes that names no connection. -/
abbrev plainRun (p : State × Nat) : State := modOp (checked p) p.2 fun z => { z with phase := .done }

theorem ringCmd_checked (h0 : op ≠ 0) (hop : op < 256) (h : ringOffer s d n (rowBlk b op []) c = some p) : RingCmd (ringOp p) d n op :=
  ringCmd_passed4 h0 (ringCmd_of_offer hop h)

theorem opOf_plainRun (h0 : op ≠ 0) (h : RingCmd (ringOp p) d n op) : opOf (plainRun p) p.2 = { ringOp p with phase := .done } :=
  opOf_modOp _ _ _ (h.code.symm ▸ h0)

theorem ringCmd_plainRun (h0 : op ≠ 0) (h : RingCmd (ringOp p) d n op) : RingCmd (opOf (plainRun p) p.2) d n op := by
  rw [opOf_plainRun h0 h]
  exact ⟨h.iss, h.die, h.plain, h.code⟩

/-- The opcodes without a CONN field. -/
theorem connField_none {b : Block} (h : fld b 0 0 8 ∉ [0x01, 0x02, 0x03, 0x04, 0x05, 0x06, 0x20, 0x21, 0x61]) : connField b = none := by
  simp only [List.mem_cons, List.not_mem_nil, or_false, not_or] at h
  simp [connField, h]

/-- A ring's command that passes its checks, is no TRIG_ARM and names no connection. -/
theorem ring_plain (h0 : op ∉ [0x00, 0x80, 0x01, 0x02, 0x03, 0x04, 0x05, 0x06, 0x20, 0x21, 0x61]) (hop : op < 0xE0)
    (h : ringOffer s d n (rowBlk b op []) c = some p) (hp : passes p.1 p.2 = true) :
    taxia s (.ring d n) (rowBlk b op []) c = goPlain (plainRun p) p.2 := by
  rw [List.mem_cons, List.mem_cons, not_or, not_or] at h0
  obtain ⟨hne, harm, hconn⟩ := h0
  have hx : RingCmd (ringOp p) d n op := ringCmd_checked hne (by omega) h
  rw [ring_executes harm hop h hp, execute_plain (connField_none (by rw [hx.opBlk_eq, hx.code]; exact hconn))]

end Sys2Proof.Proofs
end

section
/-! PROOF. Long commands and collectives of a ring begin (R54, R67 to R69, R119, R122, R183 to R186): what `startLong` and `collStart`
do of an operation, and the ring's path to each. -/

namespace Sys2Proof.Proofs

open Sys2Proof Sys2Proof.Machine

/-! ### Long commands -/

/-- The strides of a long command: one for each element, or one for each 65,536 bytes and at least one (R67). -/
def longStrides (x : Op) : Nat := if isElems (opcode x) then (elements x).length else max 1 ((opBytes x + 65535) / 65536)

/-- A long command before it has a thread: its resume record is written and its connection is its own (R69). -/
def longReady (s : State) (d : Die) (o k n : Nat) : State :=
  modConn (modOp s o fun z => { z with strides := n, nextStride := 0, psnPerStride := 65536 / mtuBytes (conn s d k).mtu, phase := .long .suspended })
    d k fun z => { z with longOp := some o }

theorem freeThreads_longReady (s : State) (d : Die) (o k n : Nat) : freeThreads (longReady s d o k n) d = freeThreads s d := by
  cases d <;> rfl

theorem startLong_onThread {s : State} {o k : Nat} {w : Nat × Nat}
    (hsrc : opcode (opOf s o) = 0x01 → opBytes (opOf s o) ≠ 0 →
      localOk s (opOf s o) (fld (opBlk (opOf s o)) 16 0 64) (opBytes (opOf s o)) (·.lr) = true)
    (hw : (freeThreads s (opOf s o).die).head? = some w) :
    startLong s o k = runLong (longReady s (opOf s o).die o k (longStrides (opOf s o))) o w := by
  have hread : ¬ (opcode (opOf s o) = 0x01 ∧ opBytes (opOf s o) ≠ 0 ∧
      localOk s (opOf s o) (fld (opBlk (opOf s o)) 16 0 64) (opBytes (opOf s o)) (·.lr) = false) := by
    rintro ⟨hop, hn, hlr⟩
    rw [hsrc hop hn] at hlr
    cases hlr
  have hfree : (freeThreads (longReady s (opOf s o).die o k (longStrides (opOf s o))) (opOf s o).die).head? = some w := by
    rw [freeThreads_longReady, hw]
  simp only [longReady, longStrides] at hfree ⊢
  simp only [startLong, if_neg hread, hfree]

theorem goConn_long {s : State} {o k : Nat} (h : isLong (opcode (opOf s o)) = true) : goConn s o k = startLong s o k := by
  simp only [goConn, h, if_true]

section Long

variable {s : State} {d : Die} {n op k : Nat} {b : Block} {c : List Block} {p : State × Nat} {w : Nat × Nat}

/-- A ring's long command that passes its checks, on a connection that stages nothing else, takes a free thread. -/
theorem ring_long (hop : op = 0x01 ∨ op = 0x04 ∨ op = 0x05 ∨ op = 0x06)
    (hoff : ringOffer s d n (rowBlk b op []) c = some p) (hp : passes p.1 p.2 = true) (hk : connField (ringOp p).blk = some k)
    (hopen : opens (taken p k) d (conn (taken p k) d k).inst (conn (taken p k) d k).sealedBy = true)
    (hdst : destAbsent (taken p k) d (conn (taken p k) d k).remoteStation = false) (hbusy : connBusy (taken p k) d k p.2 = false)
    (hsrc : op = 0x01 → opBytes (ringOp p) ≠ 0 →
      localOk (taken p k) (ringOp p) (fld (ringOp p).blk 16 0 64) (opBytes (ringOp p)) (·.lr) = true)
    (hw : (freeThreads (taken p k) d).head? = some w) :
    taxia s (.ring d n) (rowBlk b op []) c = runLong (longReady (taken p k) d p.2 k (longStrides (ringOp p))) p.2 w := by
  have hx : RingCmd (ringOp p) d n op := ringCmd_checked (by omega) (by omega) hoff
  have hu : opOf (taken p k) p.2 = { ringOp p with conn := some k } := opOf_takeConn (by rw [hx.code]; omega)
  have hxu : RingCmd (opOf (taken p k) p.2) d n op := by
    rw [hu]; exact ⟨hx.iss, hx.die, hx.plain, hx.code⟩
  have hlong : isLong op = true := by rcases hop with rfl | rfl | rfl | rfl <;> rfl
  rw [ring_executes (by omega) (by omega) hoff hp, execute_conn (k := k) (by rw [hx.opBlk_eq, hk]) (by rw [hx.die, hopen]) (by rw [hx.die, hdst])
    (by rw [hx.die, hbusy]), goConn_long (by rw [hxu.opcode_eq, hlong]), startLong_onThread (w := w) ?source (by rw [hxu.die, hw]), hxu.die, hu]
  case source =>
    rw [hxu.opcode_eq, hxu.opBlk_eq, hu]
    exact hsrc
  rfl

end Long

theorem longStrides_bytes {x : Op} {d : Die} {n op : Nat} (hx : RingCmd x d n op) (hop : op = 0x01 ∨ op = 0x06) :
    longStrides x = max 1 ((fld x.blk 40 0 33 + 65535) / 65536) := by
  rcases hop with rfl | rfl <;> simp [longStrides, opBytes, isElems, hx.opcode_eq, hx.opBlk_eq]

theorem longStrides_elements {x : Op} {d : Die} {n op : Nat} (hx : RingCmd x d n op) (hop : op = 0x04 ∨ op = 0x05) :
    longStrides x = fld x.blk 40 0 5 := by
  rcases hop with rfl | rfl <;> simp [longStrides, elements, isElems, hx.opcode_eq, hx.opBlk_eq]

theorem opBytes_put {x : Op} {d : Die} {n : Nat} (hx : RingCmd x d n 0x01) : opBytes x = fld x.blk 40 0 33 := by
  simp [opBytes, isElems, hx.opcode_eq, hx.opBlk_eq]

/-! ### Collectives -/

/-- The index of the member at a child entry of the tree. -/
def memberIndex (t : Tree) (ch : Nat) : Nat := ((t.children[ch]?).map (·.index)).getD 0

/-- The collective that a member's command `b` begins: the next of the member's sequence (R183). -/
def collNew (s : State) (d : Die) (o : Nat) (b : Block) (t : Tree) (ch : Nat) : Coll :=
  { op := o, seq := tget 0 (bndCtx s d (fld b 16 0 12)).memberSeq (memberIndex t ch), memberIdx := memberIndex t ch, child := ch
    head := collHead b, src := [], srcRead := !(collReads (collHead b) (memberIndex t ch)), segsDone := 0, placed := [], nan := false
    spill := false }

/-- It joins those in flight. -/
def collJoined (s : State) (d : Die) (q : Nat) (k : Coll) : State :=
  modOp (modBnd s d q fun y => { y with memberSeq := tset 0 y.memberSeq k.memberIdx (k.seq + 1), colls := y.colls ++ [k] }) k.op
    fun y => { y with phase := .collective, collSeq := k.seq }

theorem collStart_eq {s : State} {o ch : Nat} {t : Tree} (ht : treeOf s (opOf s o).die (fld (opBlk (opOf s o)) 16 0 12) = some t)
    (hm : memberChild s (opOf s o).die ((opOf s o).inst.getD 1024) (fld (opBlk (opOf s o)) 16 0 12) t = some ch) :
    collStart s o =
      let q := fld (opBlk (opOf s o)) 16 0 12
      let k := collNew s (opOf s o).die o (opBlk (opOf s o)) t ch
      if collReads k.head k.memberIdx then collRead (collJoined s (opOf s o).die q k) o
      else contributeAll (collJoined s (opOf s o).die q k) (opOf s o).die q t k := by
  have hflip (r : Bool) (a b : State) : (if (!r) = true then a else b) = if r = true then b else a := by cases r <;> rfl
  simp only [collStart, ht, hm]
  exact hflip _ _ _

theorem goPlain_coll {s : State} {o : Nat} (h : 0x40 ≤ opcode (opOf s o) ∧ opcode (opOf s o) ≤ 0x44) : goPlain s o = collStart s o := by
  have : opcode (opOf s o) ∉ [0x22, 0x23, 0x24, 0x25, 0x26] := by simp; omega
  simp only [List.mem_cons, List.not_mem_nil, or_false, not_or] at this
  simp only [goPlain, this, h, and_self, if_false, if_true]

/-! A barrier reads nothing, a broadcast at its root only, every other collective at each member (R185). -/

theorem collReads_barrier {b : Block} (h : fld b 0 0 8 = 0x40) (me : Nat) : collReads (collHead b) me = false := by
  simp [collReads, collHead, h]

theorem collReads_bcast {b : Block} (h : fld b 0 0 8 = 0x41) (me : Nat) :
    collReads (collHead b) me = decide (me = fld b 40 0 18) := by
  simp [collReads, collHead, h]

theorem collReads_all {b : Block} (h : 0x42 ≤ fld b 0 0 8) (me : Nat) : collReads (collHead b) me = true := by
  have h0 : fld b 0 0 8 ≠ 0x40 := by omega
  have h1 : fld b 0 0 8 ≠ 0x41 := by omega
  simp [collReads, collHead, h0, h1]

section Coll

variable {s : State} {d : Die} {n op ch : Nat} {b : Block} {c : List Block} {p : State × Nat} {t : Tree}

/-- A ring's COLL command that passes its checks joins the collectives in flight: it reads its source, or contributes at once. -/
theorem ring_coll (hop : 0x40 ≤ op ∧ op ≤ 0x44) (hoff : ringOffer s d n (rowBlk b op []) c = some p) (hp : passes p.1 p.2 = true)
    (ht : treeOf (plainRun p) d (fld (ringOp p).blk 16 0 12) = some t)
    (hm : memberChild (plainRun p) d ((ringOp p).inst.getD 1024) (fld (ringOp p).blk 16 0 12) t = some ch) :
    taxia s (.ring d n) (rowBlk b op []) c =
      let q := fld (ringOp p).blk 16 0 12
      let k := collNew (plainRun p) d p.2 (ringOp p).blk t ch
      if collReads k.head k.memberIdx then collRead (collJoined (plainRun p) d q k) p.2
      else contributeAll (collJoined (plainRun p) d q k) d q t k := by
  have hx : RingCmd (ringOp p) d n op := ringCmd_checked (by omega) (by omega) hoff
  have hu : opOf (plainRun p) p.2 = { ringOp p with phase := .done } := opOf_plainRun (by omega) hx
  have hxu : RingCmd (opOf (plainRun p) p.2) d n op := ringCmd_plainRun (by omega) hx
  have hblk : opBlk (opOf (plainRun p) p.2) = (ringOp p).blk := by rw [hxu.opBlk_eq, hu]
  rw [ring_plain (by simp; omega) (by omega) hoff hp, goPlain_coll (by rw [hxu.opcode_eq]; exact hop),
    collStart_eq (t := t) (ch := ch) (by rw [hxu.die, hblk, ht]) (by rw [hxu.die, hblk, hu, hm]), hxu.die, hblk]

/-- Any member of a reduce, allreduce or allgather reads its source first. -/
theorem ring_coll_reads (hlo : 0x42 ≤ op) (hhi : op ≤ 0x44) (hoff : ringOffer s d n (rowBlk b op []) c = some p)
    (hp : passes p.1 p.2 = true)
    (ht : treeOf (plainRun p) d (fld (ringOp p).blk 16 0 12) = some t)
    (hm : memberChild (plainRun p) d ((ringOp p).inst.getD 1024) (fld (ringOp p).blk 16 0 12) t = some ch) :
    taxia s (.ring d n) (rowBlk b op []) c =
      collRead (collJoined (plainRun p) d (fld (ringOp p).blk 16 0 12) (collNew (plainRun p) d p.2 (ringOp p).blk t ch)) p.2 := by
  have hx : RingCmd (ringOp p) d n op := ringCmd_checked (by omega) (by omega) hoff
  rw [ring_coll ⟨by omega, hhi⟩ hoff hp ht hm]
  exact if_pos (collReads_all (hx.code.symm ▸ hlo) _)

end Coll

/-- Settles O8: a long command by `ring_long`, whose strides its opcode decides, a collective by `ring_coll`, where its opcode
decides whether it reads its source first. -/
theorem commandsBeginTheirWork : Obligations.CommandsBeginTheirWork := by
  unfold Obligations.CommandsBeginTheirWork
  refine ⟨?put, ?gather, ?scatter, ?zero, ?barrier, ?bcast, ?reduce, ?allreduce, ?allgather⟩
  case put =>
    intro s d n b c p k w o y x u hoff hp hk hopen hdst hbusy hsrc hw
    have hx : RingCmd (ringOp p) d n 0x01 := ringCmd_checked (by decide) (by decide) hoff
    have h := ring_long (.inl rfl) hoff hp hk hopen hdst hbusy (fun _ => by rw [opBytes_put hx]; exact hsrc) hw
    rw [longStrides_bytes hx (.inl rfl)] at h
    exact congrArg Host.Outcome.next h
  case gather =>
    intro s d n b c p k w o y x u hoff hp hk hopen hdst hbusy hw
    have h := ring_long (.inr (.inl rfl)) hoff hp hk hopen hdst hbusy nofun hw
    rw [longStrides_elements (ringCmd_checked (by decide) (by decide) hoff) (.inl rfl)] at h
    exact congrArg Host.Outcome.next h
  case scatter =>
    intro s d n b c p k w o y x u hoff hp hk hopen hdst hbusy hw
    have h := ring_long (.inr (.inr (.inl rfl))) hoff hp hk hopen hdst hbusy nofun hw
    rw [longStrides_elements (ringCmd_checked (by decide) (by decide) hoff) (.inr rfl)] at h
    exact congrArg Host.Outcome.next h
  case zero =>
    intro s d n b c p k w o y x u hoff hp hk hopen hdst hbusy hw
    have h := ring_long (.inr (.inr (.inr rfl))) hoff hp hk hopen hdst hbusy nofun hw
    rw [longStrides_bytes (ringCmd_checked (by decide) (by decide) hoff) (.inr rfl)] at h
    exact congrArg Host.Outcome.next h
  case barrier =>
    intro s d n b c p t ch o y x i q u h me z k v hoff hp ht hm
    have hrun := ring_coll (by decide) hoff hp ht hm
    have hreads := collReads_barrier (ringCmd_checked (by decide) (by decide) hoff).code me
    exact congrArg Host.Outcome.next (hrun.trans (if_neg (by rw [Bool.not_eq_true]; exact hreads)))
  case bcast =>
    intro s d n b c p t ch o y x i q u h me z k v hoff hp ht hm
    have hrun := ring_coll (by decide) hoff hp ht hm
    have hreads := collReads_bcast (ringCmd_checked (by decide) (by decide) hoff).code me
    refine congrArg Host.Outcome.next (hrun.trans (if_congr ?_ rfl rfl))
    exact (Bool.eq_iff_iff.mp hreads).trans decide_eq_true_iff
  case reduce | allreduce | allgather =>
    intro s d n b c p t ch o y x i q u h me z k v hoff hp ht hm
    exact congrArg Host.Outcome.next (ring_coll_reads (by decide) (by decide) hoff hp ht hm)

end Sys2Proof.Proofs
end

section
/-! PROOF. Receives, contexts, Tallies, ring resets and triggers of a ring (R58 to R65, R102, R140, R146, R151, R152, R167): what each
command's function does of an operation, and the ring's path to it. -/

namespace Sys2Proof.Proofs

open Sys2Proof Sys2Proof.Machine

/-! ### The operation that executes -/

/-- What the functions of the commands without a connection read of a ring's operation. -/
structure PlainOp (u : State) (o : Nat) (x : Op) (d : Die) (n op : Nat) : Prop where
  iss : (opOf u o).iss = .ring d n
  die : (opOf u o).die = d
  inst : (opOf u o).inst = x.inst
  cookie : (opOf u o).cookie = x.cookie
  blk : opBlk (opOf u o) = x.blk
  opcode : opcode (opOf u o) = op
  code : fld x.blk 0 0 8 = op

section

variable {s u : State} {d : Die} {n op o : Nat} {b : Block} {c : List Block} {p : State × Nat} {x : Op}

theorem plainOp_run (h0 : op ≠ 0) (hop : op < 256) (hoff : ringOffer s d n (rowBlk b op []) c = some p) :
    PlainOp (plainRun p) p.2 (ringOp p) d n op := by
  have hx : RingCmd (ringOp p) d n op := ringCmd_checked h0 hop hoff
  have hu := opOf_plainRun h0 hx
  have hxu := ringCmd_plainRun h0 hx
  exact ⟨hxu.iss, hxu.die, by rw [hu], by rw [hu], by rw [hxu.opBlk_eq, hu], hxu.opcode_eq, hx.code⟩

/-- The outcome of a ring's command without a connection, by what its function leaves. -/
theorem ring_plain_next {t : State} (h0 : op ∉ [0x00, 0x80, 0x01, 0x02, 0x03, 0x04, 0x05, 0x06, 0x20, 0x21, 0x61]) (hop : op < 0xE0)
    (hoff : ringOffer s d n (rowBlk b op []) c = some p) (hp : passes p.1 p.2 = true) (ht : goPlain (plainRun p) p.2 = t) :
    Host.Outcome.next (taxia s (.ring d n) (rowBlk b op []) c) = (.next t : Host.Outcome State Fault Refusal) := by
  rw [ring_plain h0 hop hoff hp, ht]

/-! ### The function of each opcode -/

theorem goPlain_recvPost (h : opcode (opOf s o) = 0x22) : goPlain s o = postRecv s o := by simp [goPlain, h]
theorem goPlain_recvCancel (h : opcode (opOf s o) = 0x23) : goPlain s o = goRecvCancel s o := by simp [goPlain, h]
theorem goPlain_ctxOpen (h : opcode (opOf s o) = 0x24) : goPlain s o = goCtxOpen s o := by simp [goPlain, h]
theorem goPlain_ctxDrain (h : opcode (opOf s o) = 0x25) : goPlain s o = goCtxDrain s o := by simp [goPlain, h]
theorem goPlain_ctxClose (h : opcode (opOf s o) = 0x26) : goPlain s o = goCtxClose s o := by simp [goPlain, h]
theorem goPlain_nop (h : opcode (opOf s o) = 0x60) : goPlain s o = completeOp s o { code := 0 } := by simp [goPlain, h]
theorem goPlain_tallyWrite (h : opcode (opOf s o) = 0x62) : goPlain s o = goTallyWrite s o := by simp [goPlain, h]
theorem goPlain_tallyRead (h : opcode (opOf s o) = 0x63) : goPlain s o = goTallyRead s o := by simp [goPlain, h]
theorem goPlain_ringReset (h : opcode (opOf s o) = 0x64) : goPlain s o = settle s o (syncRingReset s o (opBlk (opOf s o))) := by simp [goPlain, h]
theorem goPlain_trigDisarm (h : opcode (opOf s o) = 0x81) : goPlain s o = goTrigDisarm s o := by simp [goPlain, h]

/-! ### Receives and contexts -/

/-- The receive that a RECV_POST posts (R151). -/
def postedRecv (o : Nat) (x : Op) : Recv :=
  { op := o, cookie := x.cookie, bufAddr := fld x.blk 16 0 64, bufLen := fld x.blk 40 0 32, srcConn := fld x.blk 44 0 20
    tag := BitVec.ofNat 64 (fld x.blk 24 0 64), ignore := BitVec.ofNat 64 (fld x.blk 32 0 64) }

/-- The first message of a context's unexpected store that a receive matches (R152). -/
def unexpMatch (u : State) (d : Die) (i q : Nat) (r : Recv) : Option Unexp :=
  (ctxOf u d i q).unexp.find? fun y => recvMatches y.conn y.tag.toNat r && !y.headerBad

theorem postRecv_unmatched (h : PlainOp u o x d n op) (hm : unexpMatch u d (x.inst.getD 1024) (fld x.blk 48 0 16) (postedRecv o x) = none) :
    postRecv u o = modOp (modCtx u d (x.inst.getD 1024) (fld x.blk 48 0 16) fun y => { y with posted := y.posted ++ [postedRecv o x] }) o
      fun y => { y with phase := .posted } := by
  simp only [unexpMatch, postedRecv] at hm
  simp only [postRecv, recvCtx, h.die, h.inst, h.cookie, h.blk, hm, postedRecv]

theorem postRecv_matched {e : Unexp} (h : PlainOp u o x d n op)
    (hm : unexpMatch u d (x.inst.getD 1024) (fld x.blk 48 0 16) (postedRecv o x) = some e) :
    postRecv u o = takeUnexp u d (x.inst.getD 1024) (fld x.blk 48 0 16) o e := by
  simp only [unexpMatch, postedRecv] at hm
  simp only [postRecv, recvCtx, h.die, h.inst, h.cookie, h.blk, hm]

/-- CTX of the messaging commands that name it in bytes 48 and 49. -/
theorem PlainOp.ctx (h : PlainOp u o x d n op) (hop : op ∈ [0x20, 0x22, 0x23, 0x24, 0x25, 0x26]) :
    (ctxField x.blk).getD 0 = fld x.blk 48 0 16 := by
  have hne : op ≠ 0x21 := by rintro rfl; exact absurd hop (by decide)
  simp only [ctxField, h.code, if_neg hne, if_pos hop, Option.getD_some]

theorem goRecvCancel_found {r : Recv} (h : PlainOp u o x d n 0x23)
    (hr : ((ctxOf u d (x.inst.getD 1024) (fld x.blk 48 0 16)).posted.find? fun r => decide (r.cookie = fld x.blk 16 0 64)) = some r) :
    goRecvCancel u o = completeOp (completeOp (modCtx u d (x.inst.getD 1024) (fld x.blk 48 0 16) fun y =>
      { y with posted := y.posted.filter fun e => decide (e.op ≠ r.op) }) r.op { code := 0x0E }) o { code := 0 } := by
  simp only [goRecvCancel, h.die, h.inst, h.blk, h.ctx (by decide), hr]

theorem goCtxOpen_eq (h : PlainOp u o x d n 0x24) :
    goCtxOpen u o = completeOp (modCtx u d (x.inst.getD 1024) (fld x.blk 48 0 16) fun y => { y with st := .opened }) o { code := 0 } := by
  simp only [goCtxOpen, h.die, h.inst, h.blk, h.ctx (by decide)]

theorem goCtxDrain_eq (h : PlainOp u o x d n 0x25) :
    goCtxDrain u o = modOp (modCtx u d (x.inst.getD 1024) (fld x.blk 48 0 16) fun y => { y with st := .draining }) o
      fun y => { y with phase := .ctxDrain } := by
  simp only [goCtxDrain, h.die, h.inst, h.blk, h.ctx (by decide)]

theorem goCtxClose_eq (h : PlainOp u o x d n 0x26) :
    goCtxClose u o = modOp (closeCtx u d (x.inst.getD 1024) (fld x.blk 48 0 16)) o fun y => { y with phase := .ctxDrain } := by
  simp only [goCtxClose, h.die, h.inst, h.blk, h.ctx (by decide)]

/-! ### Tallies, ring resets, triggers -/

theorem goTallyWrite_eq (h : PlainOp u o x d n op) :
    goTallyWrite u o = completeOp (fireTriggers (setTally u (fld x.blk 16 0 24) { val := fld x.blk 20 0 48, sat := false }) (fld x.blk 16 0 24)) o
      { code := 0 } := by
  simp only [goTallyWrite, h.blk]

theorem goTallyRead_eq (h : PlainOp u o x d n op) :
    goTallyRead u o = completeOp u o
      { code := 0, result := (tally u (fld x.blk 16 0 24)).val + b2n (tally u (fld x.blk 16 0 24)).sat * 2 ^ 48 } := by
  simp only [goTallyRead, h.blk]

/-- RING_RESET of another ring of the same owner, configured and not in RESET (R102). -/
theorem syncRingReset_other {i : Nat} {g : Die × Nat} (h : PlainOp u o x d n op) (hi : x.inst = some i)
    (hg : findCmdRing u (.inst i) (fld x.blk 16 0 14) = some g) (hne : g ≠ (d, n)) (hc : (cmdRing u g.1 g.2).configured = true)
    (hst : (cmdRing u g.1 g.2).st ≠ .reset) :
    syncRingReset u o x.blk = .hold (modCmdRing (ringToReset (modOp u o fun y => { y with phase := .ringReset }) g.1 g.2) g.1 g.2 fun r =>
      { r with resetOps := r.resetOps ++ [o] }) := by
  have hiss : ¬ (Issuer.ring d n = .ring g.1 g.2) := by
    rintro ⟨⟩
    exact hne rfl
  simp only [syncRingReset, ringCtlReset, h.inst, h.iss, hi, hg, if_neg hiss, hc, hst, ne_eq, not_false_eq_true, decide_true, Bool.and_self, if_true]

theorem goTrigDisarm_found {g : Trig} (h : PlainOp u o x d n op)
    (hg : ((die u (tallyDie (fld x.blk 16 0 24))).trigs.find? fun g => decide (g.tally = fld x.blk 16 0 24 ∧ g.tag = fld x.blk 20 0 16)) = some g) :
    goTrigDisarm u o = completeOp (completeOp u g.op { code := 0x0E }) o { code := 0 } := by
  simp only [goTrigDisarm, h.blk, hg]

/-- TRIG_ARM that passes its checks, its deferred block fetched and passing its own, with a trigger slot free, arms (R61, R62). -/
theorem ring_arms (hoff : ringOffer s d n (rowBlk b 0x80 []) c = some p)
    (hown : staticCheck p.1 (opOf p.1 p.2).inst d (opOf p.1 p.2).blk [] false = none) (hchain : chainBit (opOf p.1 p.2).blk = false)
    (hneeds : opNeeds (opOf p.1 p.2) = .complete) (hdef : notDeferred (fld ((opOf p.1 p.2).chain.headD 0) 0 0 8) = false)
    (hblk : staticCheck p.1 (opOf p.1 p.2).inst d ((opOf p.1 p.2).chain.headD 0) (opOf p.1 p.2).chain.tail true = none)
    (hroom : trigRoom p.1 (opOf p.1 p.2) = true) : taxia s (.ring d n) (rowBlk b 0x80 []) c = arm p.1 p.2 := by
  have hx : RingCmd (opOf p.1 p.2) d n 0x80 := ringCmd_of_offer (by decide) hoff
  have harms : armsDeferred (opOf p.1 p.2) = true := by simp [armsDeferred, hx.code, hchain]
  rw [ring_runs s d n _ c p hoff]
  simp only [opStart, hx.iss, hx.die, harms, hown, chainStep, hneeds, armChecked, hdef, hblk, hroom, Bool.false_eq_true, if_true, if_false]

/-- What arming a ring's TRIG_ARM leaves. -/
theorem arm_eq (h : RingCmd (opOf s o) d n op) :
    arm s o =
      let x := opOf s o
      let v := modOp s o fun y => { y with phase := .armed, handle := s.nextOp }
      let w := modCmdRing { v with nextOp := v.nextOp + 1 } d n fun y => { y with outstanding := without y.outstanding o }
      let g : Trig := { op := o, inst := x.inst, ring := n, tally := fld x.blk 32 0 24, threshold := fld x.blk 24 0 48, tag := fld x.blk 30 0 16 }
      fireTriggers (onDie w (tallyDie g.tally) fun y => { y with trigs := y.trigs ++ [g] }) g.tally := by
  simp only [arm, h.iss]

end

/-- Settles O11: each command's function on the operation that executes; TRIG_ARM by `ring_arms`. -/
theorem matchingSyncAndTriggersAct : Obligations.MatchingSyncAndTriggersAct := by
  unfold Obligations.MatchingSyncAndTriggersAct
  refine ⟨?post, ?postMatched, ?cancel, ?ctxOpen, ?ctxDrain, ?ctxClose, ?nop, ?tallyWrite, ?tallyRead, ?ringReset, ?arm, ?disarm⟩
  case post =>
    intro s d n b c p o y x i q u r hoff hp hm
    have h := plainOp_run (by decide) (by decide) hoff
    exact ring_plain_next (by decide) (by decide) hoff hp ((goPlain_recvPost h.opcode).trans (postRecv_unmatched h hm))
  case postMatched =>
    intro s d n b c p e o y x i q u r hoff hp hm
    have h := plainOp_run (by decide) (by decide) hoff
    exact ring_plain_next (by decide) (by decide) hoff hp ((goPlain_recvPost h.opcode).trans (postRecv_matched h hm))
  case cancel =>
    intro s d n b c p r o y x i q u hoff hp hr
    have h := plainOp_run (by decide) (by decide) hoff
    exact ring_plain_next (by decide) (by decide) hoff hp ((goPlain_recvCancel h.opcode).trans (goRecvCancel_found h hr))
  case ctxOpen =>
    intro s d n b c p o y x i q u hoff hp
    have h := plainOp_run (by decide) (by decide) hoff
    exact ring_plain_next (by decide) (by decide) hoff hp ((goPlain_ctxOpen h.opcode).trans (goCtxOpen_eq h))
  case ctxDrain =>
    intro s d n b c p o y x i q u hoff hp
    have h := plainOp_run (by decide) (by decide) hoff
    exact ring_plain_next (by decide) (by decide) hoff hp ((goPlain_ctxDrain h.opcode).trans (goCtxDrain_eq h))
  case ctxClose =>
    intro s d n b c p o y x i q u hoff hp
    have h := plainOp_run (by decide) (by decide) hoff
    exact ring_plain_next (by decide) (by decide) hoff hp ((goPlain_ctxClose h.opcode).trans (goCtxClose_eq h))
  case nop =>
    intro s d n b c p o y x u hoff hp
    have h := plainOp_run (by decide) (by decide) hoff
    exact ring_plain_next (by decide) (by decide) hoff hp (goPlain_nop h.opcode)
  case tallyWrite =>
    intro s d n b c p o y x u hoff hp
    have h := plainOp_run (by decide) (by decide) hoff
    exact ring_plain_next (by decide) (by decide) hoff hp ((goPlain_tallyWrite h.opcode).trans (goTallyWrite_eq h))
  case tallyRead =>
    intro s d n b c p o y x u hoff hp
    have h := plainOp_run (by decide) (by decide) hoff
    exact ring_plain_next (by decide) (by decide) hoff hp ((goPlain_tallyRead h.opcode).trans (goTallyRead_eq h))
  case ringReset =>
    intro s d n b c p i g o y x u hoff hp hi hg hne hc hst
    have h := plainOp_run (by decide) (by decide) hoff
    have hhold := syncRingReset_other h hi hg hne hc hst
    refine ring_plain_next (by decide) (by decide) hoff hp ((goPlain_ringReset h.opcode).trans ?_)
    rw [h.blk, hhold, settle]
  case arm =>
    intro s d n b c p o x v w hoff hown hchain hneeds hdef hblk hroom
    exact congrArg Host.Outcome.next ((ring_arms hoff hown hchain hneeds hdef hblk hroom).trans (arm_eq (ringCmd_of_offer (by decide) hoff)))
  case disarm =>
    intro s d n b c p g o y x u hoff hp hg
    have h := plainOp_run (by decide) (by decide) hoff
    exact ring_plain_next (by decide) (by decide) hoff hp ((goPlain_trigDisarm h.opcode).trans (goTrigDisarm_found h hg))

end Sys2Proof.Proofs
end

section
/-! PROOF. Ring resets, the shadow deadline, ring age and the waits that time out (R66, R86, R100, R102, R108, R114, R146, R165, R318,
R479): one lemma for each row's condition. -/

namespace Sys2Proof.Proofs

open Sys2Proof Sys2Proof.Machine

variable {s : State} {d : Die} {n : Nat}

/-! ### The end of a ring's reset (R100, R102) -/

/-- The ring takes up IDLE and its waiting resets complete. -/
def resetEnds (s : State) (d : Die) (n : Nat) (ops : List Nat) : State :=
  ops.foldl (fun s o => completeOp s o { code := 0 }) (modCmdRing (setRingSt s d n .idle) d n fun r => { r with resetOps := [], resetLate := false })

/-- The row acts on the ring where the management function does not come back with it. -/
theorem exec_ringResetDone (hn : n ≠ 0 ∨ mgmtDrained s = false) (hmay : ringMayLeaveReset s d n = true) :
    exec (.ringResetDone d n) s = .next (ringResetDone s d n) := by
  have hmgmt : ¬ (n = 0 ∧ mgmtDrained s = true) := by
    rintro ⟨h0, hd⟩
    rcases hn with hn | hn
    · exact hn h0
    · rw [hn] at hd; cases hd
  change execRingResetDone d n s = _
  simp only [execRingResetDone, if_neg hmgmt, hmay, if_true]

theorem ringResetDone_held (hrel : (cmdRing s d n).releasing = false) (hslot : (cmdRing s d n).haltSlot = true)
    (hlate : (cmdRing s d n).resetLate = false) : ringResetDone s d n = resetEnds s d n (cmdRing s d n).resetOps := by
  simp only [ringResetDone, hrel, hslot, hlate, Bool.false_eq_true, Bool.true_or, if_true, if_false, resetEnds]

theorem ringResetDone_takesSlot (hrel : (cmdRing s d n).releasing = false) (hslot : (cmdRing s d n).haltSlot = false)
    (hlate : (cmdRing s d n).resetLate = false) (hfree : 0 < cqFree (cqRing s d (cmdRing s d n).cq)) :
    ringResetDone s d n = resetEnds (modCmdRing (modCq s d (cmdRing s d n).cq fun q => { q with haltHeld := q.haltHeld + 1 }) d n
      fun r => { r with haltSlot := true }) d n (cmdRing s d n).resetOps := by
  simp only [ringResetDone, hrel, hslot, hlate, gt_iff_lt, hfree, decide_true, Bool.or_true, Bool.false_eq_true, if_true, if_false, resetEnds]

/-- After 10 ms without a free slot the resets that wait are answered. -/
theorem exec_ringResetSlotTimeout (hmay : ringMayLeaveReset s d n = true) (hslot : (cmdRing s d n).haltSlot = false)
    (hrel : (cmdRing s d n).releasing = false) (hlate : (cmdRing s d n).resetLate = false)
    (hfull : cqFree (cqRing s d (cmdRing s d n).cq) = 0) (hdue : (cmdRing s d n).resetAt + 10000000 ≤ s.now) :
    exec (.ringResetSlotTimeout d n) s = .next ((cmdRing s d n).resetOps.foldl (fun s o => failOp s o 0x0F 0x09)
      (modCmdRing s d n fun r => { r with resetOps := [], resetLate := true })) := by
  change execRingResetSlotTimeout d n s = _
  simp only [execRingResetSlotTimeout, hmay, hslot, hrel, hlate, hfull, ge_iff_le, hdue, Bool.not_false, decide_true, Bool.and_self, if_true]

/-! ### The shadow word and the age of a ring (R86, R108) -/

theorem exec_shadowTimer {k : Nat} (hdue : (cmdRing s d n).shadowDue = some k) (hk : k ≤ s.now) :
    exec (.shadowTimer d n) s = .next (shadowWrite s d n) := by
  change execShadowTimer d n s = _
  simp only [execShadowTimer, hdue, ge_iff_le, hk, if_true]

/-- The ring with its shadow deadline over. -/
abbrev shadowReported (s : State) (d : Die) (n : Nat) : State := modCmdRing s d n fun r => { r with advSince := 0, shadowDue := none }

theorem shadowWrite_loud (hen : (cmdRing s d n).shadowEn = true) (hloud : (cmdRing s d n).silent = false)
    (hhost : hostSilent (shadowReported s d n) (ringWho (shadowReported s d n) d n) = false) :
    shadowWrite s d n = emit (shadowReported s d n) (.hostWrite (ringLink (shadowReported s d n) n (cmdRing s d n).inst).1
      (ringLink (shadowReported s d n) n (cmdRing s d n).inst).2 (cmdRing s d n).shadowAddr (leBytes 8 (cmdStatus (cmdRing s d n)))) := by
  simp only [shadowWrite, hen, hloud, hhost, Bool.not_false, Bool.and_self, if_true]

theorem exec_ringAgeExpiry {k : Nat} (hready : (cmdRing s d n).readyAt = some k) (hn : n ≠ 0) (hprio : (cmdRing s d n).prio < 3)
    (hqueue : (cmdRing s d n).queue ≠ []) (hold : k + prioAgeNs s d < s.now) (hnew : n ∉ (die s d).rings.aged)
    (hrun : (cmdRing s d n).st ≠ .paused) (hfence : headFenced (cmdRing s d n) = true → (cmdRing s d n).outstanding = []) :
    exec (.ringAgeExpiry d n) s = .next (onRings s d fun x => { x with aged := x.aged ++ [n] }) := by
  have hopen : (!(headFenced (cmdRing s d n)) || decide ((cmdRing s d n).outstanding = [])) = true := by
    cases h : headFenced (cmdRing s d n) with
    | false => rfl
    | true => rw [hfence h]; rfl
  change execRingAgeExpiry d n s = _
  simp only [execRingAgeExpiry, hready, hopen]
  exact if_pos (by simp [hn, hprio, hqueue, hold, hnew, hrun])

/-! ### Waits of 10 ms (R479) -/

/-- An operation that has waited 10 ms and, tried once more, still waits. -/
theorem waitExpired_still {o : Nat} {w : Phase} {sub : Nat} (hw : (opOf s o).phase = w) (hdue : (opOf s o).since + 10000000 ≤ s.now)
    (hstill : (opOf (retryOp s o) o).phase = w) : waitExpired s o w sub = failOp s o 0x0F sub := by
  simp only [waitExpired, hw, ge_iff_le, hdue, and_self, hstill, if_true]

/-- Settles O15: each row by its own lemma, the six waits by `waitExpired_still`. -/
theorem ringTimersAndWaitsAct : Obligations.RingTimersAndWaitsAct := by
  unfold Obligations.RingTimersAndWaitsAct
  refine ⟨?doneHeld, ?doneTaken, ?slotTimeout, ?shadow, ?age, ?trig, ?cache, ?slots, ?maxOps, ?ctx, ?posted⟩
  case doneHeld =>
    intro s d n r hn hmay hrel hslot hlate
    rw [exec_ringResetDone hn hmay, ringResetDone_held hrel hslot hlate, resetEnds]
  case doneTaken =>
    intro s d n r hn hmay hrel hslot hlate hfree
    rw [exec_ringResetDone hn hmay, ringResetDone_takesSlot hrel hslot hlate hfree, resetEnds]
  case slotTimeout =>
    intro s d n r hmay hslot hrel hlate hfull hdue
    exact exec_ringResetSlotTimeout hmay hslot hrel hlate hfull hdue
  case shadow =>
    intro s d n k r u hdue hk hen hloud hhost
    rw [exec_shadowTimer hdue hk, shadowWrite_loud hen hloud hhost]
  case age =>
    intro s d n k r hready hn hprio hqueue hold hnew hrun hfence
    exact exec_ringAgeExpiry hready hn hprio hqueue hold hnew hrun hfence
  case trig | cache | slots | maxOps | ctx | posted =>
    intro s o hw hdue hstill
    exact congrArg Host.Outcome.next (waitExpired_still hw hdue hstill)

end Sys2Proof.Proofs
end

section
/-! PROOF. COMMAND_DISPATCH (R71, R106 to R108; log entries 20, 25, 26): what the row does with the best work that it finds, and which
work that is. -/

namespace Sys2Proof.Proofs

open Sys2Proof Sys2Proof.Machine

variable {s : State} {d : Die}

/-! ### What the row does -/

/-- The best work on a free engine thread. -/
def serve (s : State) (d : Die) : Work → State
  | .request f => flumeExec s d f
  | .fired o => opRun s o
  | .ring n => dispatchRing s d n []
  | .level l => dispatchLevel s d l

/-- Outside Forensic and reset, after the waiting commands have tried again, the best work is served, or long commands are asked to
stop for it. -/
theorem exec_commandDispatch {w : Work} {l : Nat} (hf : forensic s = false) (hr : s.sys.inReset = false)
    (hw : nextWork (retryWaits s d) d = some (w, l)) :
    exec (.commandDispatch d) s =
      .next (if (freeThreads (retryWaits s d) d).isEmpty then preempt (retryWaits s d) d else serve (retryWaits s d) d w) := by
  change execCommandDispatch d s = _
  simp only [execCommandDispatch, commandDispatch, hf, hr, hw, Bool.or_self, Bool.false_eq_true, if_false]
  cases w <;> rfl

theorem exec_commandDispatch_serves {w : Work} {l : Nat} (hf : forensic s = false) (hr : s.sys.inReset = false)
    (ht : (freeThreads (retryWaits s d) d).isEmpty = false) (hw : nextWork (retryWaits s d) d = some (w, l)) :
    exec (.commandDispatch d) s = .next (serve (retryWaits s d) d w) := by
  rw [exec_commandDispatch hf hr hw, if_neg (by rw [ht]; exact Bool.false_ne_true)]

/-! ### Which work is best -/

/-- No whole Flume request waits: the rest of the work, best first. -/
theorem works_of_noRequest (hreq : ((die s d).sch.flumeReqs.find? fun r => reqWhole r && !r.executing) = none) :
    works s d = (if dispatchable s d 0 then [(.ring 0, 5)] else []) ++ (firedAt s d 4).map (fun o => (.fired o, 5)) ++
      ((die s d).rings.aged.filter fun n => dispatchable s d n).map (fun n => (.ring n, 4)) ++
      levelWorks s d 3 ++ levelWorks s d 2 ++ levelWorks s d 1 ++ levelWorks s d 0 := by
  have hnone : ((die s d).sch.flumeReqs.filter fun r => reqWhole r && !r.executing) = [] := by
    rw [← List.head?_eq_none_iff, List.head?_filter, hreq]
  rw [works, hnone, List.map_nil, List.nil_append]

theorem nextWork_management (hreq : ((die s d).sch.flumeReqs.find? fun r => reqWhole r && !r.executing) = none)
    (h0 : dispatchable s d 0 = true) : nextWork s d = some (.ring 0, 5) := by
  simp only [nextWork, works_of_noRequest hreq, h0, if_true, List.cons_append, List.head?_cons]

theorem nextWork_aged {n : Nat} (hreq : ((die s d).sch.flumeReqs.find? fun r => reqWhole r && !r.executing) = none)
    (h0 : dispatchable s d 0 = false) (hfired : firedAt s d 4 = [])
    (haged : ((die s d).rings.aged.find? fun m => dispatchable s d m) = some n) : nextWork s d = some (.ring n, 4) := by
  have hhead : (((die s d).rings.aged.filter fun m => dispatchable s d m).map fun m => ((Work.ring m, 4) : Work × Nat)).head? = some (.ring n, 4) := by
    rw [List.head?_map, List.head?_filter, haged, Option.map_some]
  simp only [nextWork, works_of_noRequest hreq, h0, hfired, Bool.false_eq_true, if_false, List.map_nil, List.nil_append, List.head?_append, hhead,
    Option.some_or]

/-- Settles O16: the four kinds of work on a free thread, the preemption without one, and the order of management and aged rings. -/
theorem dispatchTakesTheBestWork : Obligations.DispatchTakesTheBestWork := by
  unfold Obligations.DispatchTakesTheBestWork
  refine ⟨?request, ?fired, ?ring, ?level, ?noThread, ?management, ?aged⟩
  case request | fired | ring | level =>
    intro s d l w u hf hr ht hw
    exact exec_commandDispatch_serves hf hr ht hw
  case noThread =>
    intro s d l w u hf hr ht hw
    rw [exec_commandDispatch hf hr hw, if_pos ht]
  case management =>
    intro s d hreq h0
    exact nextWork_management hreq h0
  case aged =>
    intro s d n hreq h0 hfired haged
    exact nextWork_aged hreq h0 hfired haged

end Sys2Proof.Proofs
end

section
/-! PROOF. Stride boundaries, the resumption of suspended commands and the read of an extension block (R49, R67, R68, R70, R72, R74). -/

namespace Sys2Proof.Proofs

open Sys2Proof Sys2Proof.Machine

variable {s : State} {o c : Nat}

/-! ### At a boundary (R68, R70, R74) -/

theorem atBoundary_cancelled (hc : (opOf s o).cancel = true) :
    atBoundary s o c = retryWaits (completeOp s o { code := 0x0E, bytes := (opOf s o).bytesAcked }) (opOf s o).die := by
  simp only [atBoundary, hc, if_true]

theorem atBoundary_last (hc : (opOf s o).cancel = false) (hn : (opOf s o).strides ≤ (opOf s o).nextStride) :
    atBoundary s o c = retryWaits (deliverOps (connFree (freeThread (modOp s o fun x => { x with phase := .long .draining, preempt := false }) o)
      (opOf s o).die c o) (opOf s o).die c) (opOf s o).die := by
  simp only [atBoundary, hc, ge_iff_le, hn, Bool.false_eq_true, if_true, if_false]

theorem atBoundary_preempted (hn : (opOf s o).nextStride < (opOf s o).strides) (hc : (opOf s o).cancel = false)
    (hp : (opOf s o).preempt = true) : atBoundary s o c =
      freeThread (modOp (pmcAt s (opOf s o).die 643 1 (thrCtx (opOf s o))) o fun x => { x with phase := .long .suspended, preempt := false }) o := by
  simp only [atBoundary, hc, hp, ge_iff_le, if_neg (Nat.not_le.mpr hn), Bool.false_eq_true, if_true, if_false]

theorem atBoundary_next (hn : (opOf s o).nextStride < (opOf s o).strides) (hc : (opOf s o).cancel = false)
    (hp : (opOf s o).preempt = false) : atBoundary s o c = beginStride s o := by
  simp only [atBoundary, hc, hp, ge_iff_le, if_neg (Nat.not_le.mpr hn), Bool.false_eq_true, if_false]

/-- A running long command: it has a connection and a thread. -/
structure Running (x : Op) (c : Nat) : Prop where
  conn : x.conn = some c
  phase : x.phase = .long .running
  thread : x.thread.isSome = true

theorem strideBoundary_staged {r : ReadDone} (h : Running (opOf s o) c) (hb : (opOf s o).begun = true) (hr : (opOf s o).read = some r) :
    strideBoundary s o = atBoundary (stageStride s o c r.bytes) o c := by
  simp only [strideBoundary, h.conn, h.phase, h.thread, hb, hr, and_self, if_true]

theorem strideBoundary_standing (h : Running (opOf s o) c) (hb : (opOf s o).begun = false) : strideBoundary s o = atBoundary s o c := by
  simp only [strideBoundary, h.conn, h.phase, h.thread, hb, and_self, Bool.false_eq_true, if_true, if_false]

/-! ### Resumption (R72) -/

/-- No work of a higher level than the operation's waits. -/
def noBetterWork (s : State) (x : Op) : Prop := ∀ w ∈ nextWork s x.die, w.2 ≤ x.level

theorem longResume_runs {w : Nat × Nat} (hx : (opOf s o).phase = .long .suspended) (hw : (freeThreads s (opOf s o).die).head? = some w)
    (hbest : noBetterWork s (opOf s o)) (hf : forensic s = false) : longResume s o = runLong s o w := by
  cases h : nextWork s (opOf s o).die with
  | none => simp only [longResume, hw, hx, h, hf, decide_true, Bool.not_false, Bool.and_self, if_true]
  | some k => simp only [longResume, hw, hx, h, hf, hbest k h, decide_true, Bool.not_false, Bool.and_self, if_true]

/-! ### The fetch of an extension block (R49) -/

variable {t : State} {parts : List ReadPart}

theorem readReturns_whole {f : State → State} (h : takeReads s (.op o) (anyTimeout parts) = some (true, t)) :
    readReturns s o parts f = afterReads (f t) := by
  simp only [readReturns, h]

theorem extBlockFetch_ok {a h : Nat} {b : Block} (hx : (opOf t o).phase = .fetching a h) (he : entryRead parts = some (.ok b))
    (hw : opWalking t (opOf t o).die o = false) : extBlockFetch t o parts =
      chainStep (modOp t o fun x => { x with chain := x.chain ++ [b], phase := .fence, xl := [] }) o := by
  simp only [extBlockFetch, hx, he, hw, Bool.false_eq_true, if_false]

theorem extBlockFetch_fail {a h : Nat} {f : ReadFail} (hx : (opOf t o).phase = .fetching a h) (he : entryRead parts = some (.fail f))
    (hw : opWalking t (opOf t o).die o = false) : extBlockFetch t o parts = failOp t o (readFailCode f) 0x01 := by
  simp only [extBlockFetch, hx, he, hw, Bool.false_eq_true, if_false]

/-- Settles O17: what the row does by what stands of the stride, then the resumption, then the two outcomes of a block's read. -/
theorem stridesAndFetchesAct : Obligations.StridesAndFetchesAct := by
  unfold Obligations.StridesAndFetchesAct
  refine ⟨?staged, ?last, ?cancelled, ?preempted, ?next, ?resumeIdle, ?resumeFirst, ?fetched, ?fetchFailed⟩
  case staged =>
    intro s o c r x hc hx ht hb hr
    exact congrArg Host.Outcome.next (strideBoundary_staged ⟨hc, hx, ht⟩ hb hr)
  case last =>
    intro s o c x hc hx ht hb hcancel hn
    exact congrArg Host.Outcome.next ((strideBoundary_standing ⟨hc, hx, ht⟩ hb).trans (atBoundary_last hcancel hn))
  case cancelled =>
    intro s o c x hc hx ht hb hcancel
    exact congrArg Host.Outcome.next ((strideBoundary_standing ⟨hc, hx, ht⟩ hb).trans (atBoundary_cancelled hcancel))
  case preempted =>
    intro s o c x hc hx ht hb hn hcancel hp
    exact congrArg Host.Outcome.next ((strideBoundary_standing ⟨hc, hx, ht⟩ hb).trans (atBoundary_preempted hn hcancel hp))
  case next =>
    intro s o c x hc hx ht hb hn hcancel hp
    exact congrArg Host.Outcome.next ((strideBoundary_standing ⟨hc, hx, ht⟩ hb).trans (atBoundary_next hn hcancel hp))
  case resumeIdle =>
    intro s o w x hx hw hnone hf
    exact congrArg Host.Outcome.next (longResume_runs hx hw (fun k hk => by rw [hnone] at hk; cases hk) hf)
  case resumeFirst =>
    intro s o l w k x hx hw hsome hl hf
    exact congrArg Host.Outcome.next (longResume_runs hx hw (fun k' hk => by rw [hsome] at hk; cases hk; exact hl) hf)
  case fetched =>
    intro s o a h l t b x htake he hx hw
    exact congrArg Host.Outcome.next ((readReturns_whole htake).trans (congrArg afterReads (extBlockFetch_ok hx he hw)))
  case fetchFailed =>
    intro s o a h l t f x htake he hx hw
    exact congrArg Host.Outcome.next ((readReturns_whole htake).trans (congrArg afterReads (extBlockFetch_fail hx he hw)))

end Sys2Proof.Proofs
end

section
/-! PROOF. The Flume (R45, R250 to R253, R328): a request part at its target, an answer and its relay, a forwarded event, and the
timers of requests sent and received. -/

namespace Sys2Proof.Proofs

open Sys2Proof Sys2Proof.Machine

variable {s : State} {d : Die} {w : Ingress} {p : Pkt} {f : FlumePkt} {o : Nat}

/-! ### Request parts (R251, R252) -/

/-- The packet is a request part that this running die's control endpoint takes, if its source's rate allows. -/
structure TakesPart (s : State) (d : Die) (w : Ingress) (p : Pkt) (f : FlumePkt) : Prop where
  body : bodyOf p = .flume f
  run : running s = true
  here : flumeHere s d p f = true ∨ f.form = 2 ∧ inUsable s d w = true
  form : f.ftype = 0 ∧ f.part = 0 ∨ f.ftype = 1 ∧ f.part ≠ 0

/-- A first part is of TYPE 0, every other of TYPE 1. -/
theorem partForm (h : f.ftype = 0 ∧ f.part = 0 ∨ f.ftype = 1 ∧ f.part ≠ 0) :
    (decide (f.ftype ≤ 1) && (f.ftype == 0) == (f.part == 0)) = true := by
  rcases h with ⟨ht, hp⟩ | ⟨ht, hp⟩
  · simp [ht, hp]
  · simp [ht, hp]

/-- The port by which a FORM 2 request came: its answer goes back there. -/
abbrev flumeVia (d : Die) (w : Ingress) (f : FlumePkt) : Option Nat := if f.form = 2 then inPort d w else none

/-- What the endpoint does with a part within its source's rate. -/
def flumePart (u : State) (d : Die) (w : Ingress) (p : Pkt) (f : FlumePkt) : State :=
  match (die u d).sch.flumeAns.find? fun a => decide (a.src = routerPart p.src ∧ a.reqDie = f.reqDie ∧ a.reqSeq = f.reqSeq) with
  | some a =>
    if f.ftype = 0 then
      emit u (.toRoute d (flumePkt u d (routerPart p.src)
        { ftype := 2, form := if (flumeVia d w f).isSome then 2 else 0, relayPort := (flumeVia d w f).getD 0, part := 0, parts := 0
          reqSeq := f.reqSeq, reqDie := f.reqDie, blk := BitVec.ofNat 512 (a.answer.toNat * 2 ^ 256) }))
    else u
  | none =>
    if (die u d).sch.flumeReqs.any fun q => sameReq q (routerPart p.src) f.reqDie f.reqSeq && (q.executing || reqWhole q) then u
    else addPart u d (routerPart p.src) f (flumeVia d w f)

theorem flumeRequest_eq (h : TakesPart s d w p f) :
    flumeRequest s d w p = if (policed s d p).2 then flumePart (policed s d p).1 d w p f else (policed s d p).1 := by
  have hok : (flumeHere s d p f || (decide (f.form = 2) && inUsable s d w)) = true := by
    simpa only [Bool.or_eq_true, Bool.and_eq_true, decide_eq_true_eq] using h.here
  have htake : (running s && (flumeHere s d p f || (decide (f.form = 2) && inUsable s d w)) && decide (f.ftype ≤ 1) &&
      (f.ftype == 0) == (f.part == 0)) = true := by
    rw [h.run, hok, Bool.and_assoc, partForm h.form]; rfl
  simp only [flumeRequest, h.body, htake, Bool.not_true, Bool.false_eq_true, if_false]
  cases (policed s d p).2 <;> rfl

theorem flumeRequest_beyondRate (h : TakesPart s d w p f) (hr : (policed s d p).2 = false) : flumeRequest s d w p = (policed s d p).1 := by
  rw [flumeRequest_eq h, hr]; rfl

theorem flumeRequest_withinRate (h : TakesPart s d w p f) (hr : (policed s d p).2 = true) :
    flumeRequest s d w p = flumePart (policed s d p).1 d w p f := by
  rw [flumeRequest_eq h, hr]; rfl

/-- A request already answered is answered again with the kept answer. -/
theorem flumePart_answered {u : State} {a : FlumeAns} (ht : f.ftype = 0)
    (ha : ((die u d).sch.flumeAns.find? fun a => decide (a.src = routerPart p.src ∧ a.reqDie = f.reqDie ∧ a.reqSeq = f.reqSeq)) = some a) :
    flumePart u d w p f = emit u (.toRoute d (flumePkt u d (routerPart p.src)
      { ftype := 2, form := if (flumeVia d w f).isSome then 2 else 0, relayPort := (flumeVia d w f).getD 0, part := 0, parts := 0
        reqSeq := f.reqSeq, reqDie := f.reqDie, blk := BitVec.ofNat 512 (a.answer.toNat * 2 ^ 256) })) := by
  simp only [flumePart, ha, ht, if_true]

theorem flumePart_kept {u : State}
    (ha : ((die u d).sch.flumeAns.find? fun a => decide (a.src = routerPart p.src ∧ a.reqDie = f.reqDie ∧ a.reqSeq = f.reqSeq)) = none)
    (hq : ((die u d).sch.flumeReqs.any fun q => sameReq q (routerPart p.src) f.reqDie f.reqSeq && (q.executing || reqWhole q)) = false) :
    flumePart u d w p f = addPart u d (routerPart p.src) f (flumeVia d w f) := by
  simp only [flumePart, ha, hq, Bool.false_eq_true, if_false]

/-! ### Answers, relays and forwarded events (R45, R250, R328) -/

theorem flumeHere_of (hform : f.form = 0) (hdst : p.dst = routerAddr s d) (hid : s.ident.valid = true) : flumeHere s d p f = true := by
  simp only [flumeHere, hform, hdst, hid, and_self, decide_true, Bool.and_self]

theorem flumeAnswer_found {x : Op} (hb : bodyOf p = .flume f) (hrun : running s = true) (hhere : flumeHere s d p f = true)
    (ht : f.ftype = 2) (hd : f.reqDie = d.idx) (hr : (policed s d p).2 = true)
    (hx : ((policed s d p).1.ops.find? fun y =>
      decide (y.2.phase = .flume ∧ y.2.die = d ∧ y.2.seq = f.reqSeq ∧ tgtAddr y.2.blk = routerPart p.src)) = some (o, x)) :
    flumeAnswer s d p = completeOp (policed s d p).1 o (recordOutcome (f.blk.toNat / 2 ^ 256)) := by
  simp only [flumeAnswer, hb, hrun, hhere, ht, hd, hr, hx, and_self, decide_true, Bool.and_self, Bool.not_true, Bool.false_eq_true, if_false]

theorem flumeRelay_out (hb : bodyOf p = .flume f) (hrun : running s = true) (hid : s.ident.valid = true) (hform : f.form = 1)
    (hdst : p.dst = routerAddr s d) (hr : (policed s d p).2 = true) (hport : portOfDie d f.relayPort = true) :
    flumeRelay s d w p = flumeOutPort (policed s d p).1 d { p with body := .flume { f with form := 2 } } f.relayPort := by
  simp only [flumeRelay, hb, hrun, hid, hform, hdst, hr, hport, and_self, Bool.and_self, Bool.not_true, Bool.false_eq_true, if_true, if_false]

theorem flumeRelay_back (hb : bodyOf p = .flume f) (hrun : running s = true) (hid : s.ident.valid = true) (hform : f.form = 2)
    (ht : f.ftype = 2) (hw : inUsable s d w = true) : flumeRelay s d w p =
      emit s (.toRoute d { p with src := routerAddr s d, body := .flume { f with form := 0, relayPort := (inPort d w).getD 0 } }) := by
  have hout : ¬ (2 = 1 ∧ p.dst = routerAddr s d) := fun h => absurd h.1 (by decide)
  simp only [flumeRelay, hb, hrun, hid, hform, if_neg hout, ht, hw, and_self, Bool.and_self, Bool.not_true, Bool.false_eq_true, if_true, if_false]

theorem flumeEvent_enters (hb : bodyOf p = .flume f) (hrun : running s = true) (hhere : flumeHere s d p f = true) (ht : f.ftype = 4)
    (hr : (policed s d p).2 = true) :
    flumeEvent s d p = mgmtRing (policed s d p).1 d (bits (f.blk.toNat / 2 ^ 256) 0 64) (bits (f.blk.toNat / 2 ^ 256) 64 128)
      (bits (f.blk.toNat / 2 ^ 256) 192 16) (routerPart p.src) := by
  simp only [flumeEvent, hb, hrun, hhere, ht, hr, decide_true, Bool.and_self, Bool.not_true, Bool.false_eq_true, if_true, if_false]

/-! ### Timers (R251, R252) -/

theorem flumeResend_due (hrun : running s = true) (hx : (opOf s o).phase = .flume)
    (hdue : (opOf s o).lastSend + resendNs s (opOf s o).die ≤ s.now)
    (hlimit : s.now < (opOf s o).firstSend + answerLimitNs s (opOf s o).die) : flumeResend s o = flumeSend s o := by
  simp only [flumeResend, hrun, hx, ge_iff_le, hdue, hlimit, and_self, decide_true, Bool.and_self, if_true]

theorem flumeTimeout_due (hx : (opOf s o).phase = .flume) (hdue : (opOf s o).firstSend + answerLimitNs s (opOf s o).die ≤ s.now) :
    flumeTimeout s o = failOp s o 0x0A 0x01 := by
  simp only [flumeTimeout, hx, ge_iff_le, hdue, and_self, if_true]

/-- Settles O29: what each row does with the packet or at the time that it takes. -/
theorem theFlumeActs : Obligations.TheFlumeActs := by
  unfold Obligations.TheFlumeActs
  refine ⟨?answered, ?kept, ?beyondRate, ?answer, ?relayOut, ?relayBack, ?event, ?resend, ?timeout, ?discard⟩
  case answered =>
    intro s d w p f a u via hb hrun hhere ht hp hr ha
    exact congrArg Host.Outcome.next ((flumeRequest_withinRate ⟨hb, hrun, hhere, .inl ⟨ht, hp⟩⟩ hr).trans (flumePart_answered ht ha))
  case kept =>
    intro s d w p f u via hb hrun hhere hform hr ha hq
    exact congrArg Host.Outcome.next ((flumeRequest_withinRate ⟨hb, hrun, hhere, hform⟩ hr).trans (flumePart_kept ha hq))
  case beyondRate =>
    intro s d w p f hb hrun hhere hform hr
    exact congrArg Host.Outcome.next (flumeRequest_beyondRate ⟨hb, hrun, hhere, hform⟩ hr)
  case answer =>
    intro s d p f o x u hb hrun hform hdst hid ht hd hr hx
    exact congrArg Host.Outcome.next (flumeAnswer_found hb hrun (flumeHere_of hform hdst hid) ht hd hr hx)
  case relayOut =>
    intro s d w p f u hb hrun hid hform hdst hr hport
    exact congrArg Host.Outcome.next (flumeRelay_out hb hrun hid hform hdst hr hport)
  case relayBack =>
    intro s d w p f hb hrun hid hform ht hw
    exact congrArg Host.Outcome.next (flumeRelay_back hb hrun hid hform ht hw)
  case event =>
    intro s d p f u e hb hrun hform hdst hid ht hr
    exact congrArg Host.Outcome.next (flumeEvent_enters hb hrun (flumeHere_of hform hdst hid) ht hr)
  case resend =>
    intro s o hrun hx hdue hlimit
    exact congrArg Host.Outcome.next (flumeResend_due hrun hx hdue hlimit)
  case timeout =>
    intro s o hx hdue
    exact congrArg Host.Outcome.next (flumeTimeout_due hx hdue)
  case discard =>
    intro s d src rd rs
    rfl

end Sys2Proof.Proofs
end

section
/-! PROOF. The named updates of the state (R75, R137, R467): what each reads back as, and what it leaves. A table reads back a change
in canonical form, and in any form when the new value is not the default. -/

namespace Sys2Proof.Proofs

open Sys2Proof Sys2Proof.Machine

variable {s : State} {d d' : Die}

/-! ### Tables -/

section

variable {α : Type} [DecidableEq α] {dflt : α} {t : Tab α} {k : Nat}

/-- A written value is read back where the table is canonical or the value is one that tables list. -/
theorem tget_tset_of {v : α} (h : twf dflt t = true ∨ v ≠ dflt) (k' : Nat) :
    tget dflt (tset dflt t k v) k' = if k' = k then v else tget dflt t k' := by
  rcases h with h | h
  · exact tget_tset dflt t k k' v h
  · by_cases hk : k' = k
    · rw [if_pos hk, hk, tget_tset_same dflt t k h]
    · rw [if_neg hk, tset, if_neg h, tget_tput_other dflt t v hk]

/-- A changed value is read back under the same condition. -/
theorem tget_tmod_of {f : α → α} (h : twf dflt t = true ∨ f (tget dflt t k) ≠ dflt) (k' : Nat) :
    tget dflt (tmod dflt t k f) k' = if k' = k then f (tget dflt t k) else tget dflt t k' :=
  tget_tset_of h k'

end

/-! ### A die's own part -/

theorem die_onDie (s : State) (d d' : Die) (f : DieState → DieState) : die (onDie s d f) d' = if d' = d then f (die s d) else die s d' := by
  split
  · next h => rw [h, die_onDie_same]
  · next h => exact die_onDie_other s f h

/-- An update of another part of a die leaves the rings of both. -/
theorem rings_onDie (s : State) (d : Die) (f : DieState → DieState) (e : Die) (h : ∀ x, (f x).rings = x.rings := by intro _; rfl) :
    (die (onDie s d f) e).rings = (die s e).rings := by
  rw [die_onDie]
  split
  · next he => rw [h, he]
  · rfl

/-- A change of one key of one table of a die, read at any die and key. -/
theorem tget_onDie {α : Type} [DecidableEq α] {dflt : α} {table : DieState → Tab α} {f : DieState → DieState} {k k' : Nat} {g : α → α}
    (hf : ∀ x, table (f x) = tmod dflt (table x) k g)
    (h : twf dflt (table (die s d)) = true ∨ g (tget dflt (table (die s d)) k) ≠ dflt) :
    tget dflt (table (die (onDie s d f) d')) k' =
      if d' = d ∧ k' = k then g (tget dflt (table (die s d)) k) else tget dflt (table (die s d')) k' := by
  rw [die_onDie]
  by_cases hd : d' = d
  · simp only [hd, if_true, hf, tget_tmod_of h, true_and]
  · simp only [hd, if_false, false_and]

theorem conn_modConn {c c' : Nat} {f : Conn → Conn} (h : twf {} (die s d).conns = true ∨ f (conn s d c) ≠ {}) :
    conn (modConn s d c f) d' c' = if d' = d ∧ c' = c then f (conn s d c) else conn s d' c' :=
  tget_onDie (table := (·.conns)) (fun _ => rfl) h

theorem cmdRing_modCmdRing {n m : Nat} {f : CmdRing → CmdRing} (h : twf {} (die s d).rings.cmd = true ∨ f (cmdRing s d n) ≠ {}) :
    cmdRing (modCmdRing s d n f) d' m = if d' = d ∧ m = n then f (cmdRing s d n) else cmdRing s d' m :=
  tget_onDie (table := (·.rings.cmd)) (fun _ => rfl) h

theorem cqRing_modCq {n m : Nat} {f : CqRing → CqRing} (h : twf {} (die s d).rings.cq = true ∨ f (cqRing s d n) ≠ {}) :
    cqRing (modCq s d n f) d' m = if d' = d ∧ m = n then f (cqRing s d n) else cqRing s d' m :=
  tget_onDie (table := (·.rings.cq)) (fun _ => rfl) h

theorem tally_setTally {n m : Nat} {v : Tally} (h : twf {} (die s (tallyDie n)).tallies = true ∨ v ≠ {}) :
    tally (setTally s n v) m = if m = n then v else tally s m := by
  have hread : tally (setTally s n v) m = if tallyDie m = tallyDie n ∧ m = n then v else tally s m :=
    tget_onDie (table := (·.tallies)) (g := fun _ => v) (fun _ => rfl) h
  exact hread.trans (if_congr (and_iff_right_of_imp fun hm => by rw [hm]) rfl rfl)

/-! ### The tables of the state itself -/

theorem inst_modInst_of_tidy {i j : Nat} {f : Inst → Inst} (h : twf {} s.insts = true) :
    inst (modInst s i f) j = if j = i then f (inst s i) else inst s j := tget_tmod_of (.inl h) j

theorem opOf_modOp_of_tidy {i j : Nat} {f : Op → Op} (h : twf {} s.ops = true) :
    opOf (modOp s i f) j = if j = i then f (opOf s i) else opOf s j := tget_tmod_of (.inl h) j

/-- Registers of the two dies have keys of their own (R465). -/
theorem regKey_inj {k k' : Nat} (hk : k < 2 ^ 26) (hk' : k' < 2 ^ 26) : regKey d' k' = regKey d k ↔ d' = d ∧ k' = k := by
  cases d <;> cases d' <;> simp [regKey, Die.idx] <;> omega

theorem regVal_setReg {k k' : Nat} (v : Nat) (h : twf 0 s.regs = true) (hkey : regKey d' k' = regKey d k ↔ d' = d ∧ k' = k) :
    regVal (setReg s d k v) d' k' = if d' = d ∧ k' = k then v else regVal s d' k' := by
  simp only [regVal, setReg, tget_tset_of (.inl h), hkey]
  split
  · next hdk => rw [hdk.2, Nat.xor_xor_cancel_left]
  · rfl

/-- Settles O59: each table by its reading after a change, each frame by the update's own form. -/
theorem updatesChangeOneThing : Obligations.UpdatesChangeOneThing := by
  unfold Obligations.UpdatesChangeOneThing
  refine ⟨?reg, ?regOnly, ?inst, ?instOnly, ?op, ?opOnly, ?tally, ?tallyOnly, ?conn, ?connOnly, ?cmd, ?cq, ?ringsOnly, ?die⟩
  case reg =>
    intro s d d' k k' v h hk hk'
    exact regVal_setReg v h (regKey_inj hk hk')
  case regOnly | instOnly | opOnly =>
    intros
    rfl
  case inst =>
    intro s i j f h
    exact inst_modInst_of_tidy h
  case op =>
    intro s i j f h
    exact opOf_modOp_of_tidy h
  case tally =>
    intro s n m v h
    exact tally_setTally (.inl h)
  case tallyOnly =>
    intro s n v d
    unfold setTally
    cases tallyDie n <;> cases d <;> rfl
  case conn =>
    intro s d d' n m f h
    exact conn_modConn (.inl h)
  case connOnly =>
    intro s d d' n f
    cases d <;> cases d' <;> rfl
  case cmd =>
    intro s d d' n m f h
    exact cmdRing_modCmdRing (.inl h)
  case cq =>
    intro s d d' n m f h
    exact cqRing_modCq (.inl h)
  case ringsOnly =>
    intro s d d' n m f g
    cases d <;> cases d' <;> exact ⟨rfl, rfl⟩
  case die =>
    intro s d f
    exact ⟨by cases d <;> rfl, die_onDie_same s d f, fun d' h => die_onDie_other s f h⟩

end Sys2Proof.Proofs
end

section
/-! PROOF. What counting, emitting, raising a source and posting an event leave: the rings, the connections, the Tallies, and the
registers that are no counter's (R267 to R276, R327, R328, R374). -/

namespace Sys2Proof.Proofs

open Sys2Proof Sys2Proof.Machine

variable {s t u : State} {d : Die}

/-! ### Counting -/

/-- What the counters of die `d` change from `s` to `t`: registers below the host links', and the samples asked for. -/
structure Counted (d : Die) (s t : State) : Prop where
  frame : t = { s with regs := t.regs, west := { s.west with crz := t.west.crz }, east := { s.east with crz := t.east.crz } }
  tidy : twf 0 s.regs = true → twf 0 t.regs = true
  high : twf 0 s.regs = true → ∀ off, 0x800000 ≤ off → regVal t d off = regVal s d off

namespace Counted

theorem refl (d : Die) (s : State) : Counted d s s := ⟨rfl, id, fun _ _ _ => rfl⟩

theorem trans (h : Counted d s t) (h' : Counted d t u) : Counted d s u :=
  ⟨by rw [h'.frame, h.frame], h'.tidy ∘ h.tidy, fun hs off ho => (h'.high (h.tidy hs) off ho).trans (h.high hs off ho)⟩

theorem setReg (s : State) (d : Die) {off : Nat} (v : Nat) (ho : off < 0x800000) : Counted d s (setReg s d off v) where
  frame := rfl
  tidy := tset_wf 0 _ _ _
  high := fun hs k hk => by
    have hne : k ≠ off := by omega
    rw [regVal_setReg v hs (by simp [regKey]), if_neg (by simp [hne])]

theorem onCrz (s : State) (d : Die) (f : Cruise → Cruise) : Counted d s (onCrz s d f) := by
  cases d <;> exact ⟨rfl, id, fun _ _ _ => rfl⟩

theorem ite {c : Prop} [Decidable c] (ht : Counted d s t) (hu : Counted d s u) : Counted d s (if c then t else u) := by
  split
  · exact ht
  · exact hu

theorem die_eq (h : Counted d s t) (e : Die) : die t e = { die s e with crz := (die t e).crz } := by
  rw [h.frame]
  cases e <;> rfl

theorem rings (h : Counted d s t) (e : Die) : (die t e).rings = (die s e).rings := by rw [h.die_eq]
theorem conns (h : Counted d s t) (e : Die) : (die t e).conns = (die s e).conns := by rw [h.die_eq]
theorem tallies (h : Counted d s t) (e : Die) : (die t e).tallies = (die s e).tallies := by rw [h.die_eq]
theorem ops (h : Counted d s t) : t.ops = s.ops := by rw [h.frame]
theorem insts (h : Counted d s t) : t.insts = s.insts := by rw [h.frame]
theorem out (h : Counted d s t) : t.out = s.out := by rw [h.frame]

end Counted

theorem counted_pmcAdd (k : Nat) (s : State) (d : Die) {i : Nat} (n : Nat) (hi : i < 768) : Counted d s (pmcAdd k s d i n) := by
  induction k generalizing s i n with
  | zero => exact .refl d s
  | succ k ih =>
    have hcfg : pmcCfg i < 0x800000 := by unfold pmcCfg; omega
    have hcnt : pmcCnt i < 0x800000 := by unfold pmcCnt; omega
    unfold pmcAdd
    extract_lets v counted c wrapped smp sampled
    have hcounted : Counted d s counted := .setReg s d _ hcnt
    have hwrapped : Counted d s wrapped := hcounted.trans (.setReg counted d _ hcfg)
    have hsampled : Counted d s sampled :=
      .ite hwrapped (.ite (hwrapped.trans (.setReg wrapped d _ (by decide))) (hwrapped.trans (.onCrz wrapped d _)))
    refine .ite hcounted ?_
    split
    · next hchain =>
      have hlast : i < 767 := of_decide_eq_true (Bool.and_eq_true_iff.mp hchain).2
      exact hsampled.trans (ih sampled 1 (by omega))
    · exact hsampled

theorem counted_pmcHost (s : State) (port : Nat) {e : Nat} (n : Nat) (he : e < 16) : Counted (portDie port) s (pmcHost s port e n) := by
  unfold pmcHost pmc
  exact .ite (.refl _ s) (counted_pmcAdd 768 s _ n (by omega))

theorem counted_countOut (s : State) (o : Out) : ∃ d, Counted d s (countOut s o) := by
  cases o with
  | hostWrite port link addr b => exact ⟨_, counted_pmcHost s port _ (by decide)⟩
  | payloadWrite port link addr b => exact ⟨_, counted_pmcHost s port _ (by decide)⟩
  | hostRead port link addr n => exact ⟨_, (counted_pmcHost s port 1 (by decide)).trans (counted_pmcHost _ port _ (by decide))⟩
  | _ => exact ⟨.west, .refl _ s⟩

/-! ### Emitting -/

theorem die_emit (s : State) (o : Out) (e : Die) : die (emit s o) e = die (countOut s o) e := by cases e <;> rfl

theorem out_emit (s : State) (o : Out) : (emit s o).out = o :: s.out := by
  obtain ⟨d, h⟩ := counted_countOut s o
  exact congrArg (o :: ·) h.out

@[simp] theorem rings_emit (s : State) (o : Out) (e : Die) : (die (emit s o) e).rings = (die s e).rings := by
  obtain ⟨d, h⟩ := counted_countOut s o
  rw [die_emit, h.rings]

theorem conns_emit (s : State) (o : Out) (e : Die) : (die (emit s o) e).conns = (die s e).conns := by
  obtain ⟨d, h⟩ := counted_countOut s o
  rw [die_emit, h.conns]

theorem tallies_emit (s : State) (o : Out) (e : Die) : (die (emit s o) e).tallies = (die s e).tallies := by
  obtain ⟨d, h⟩ := counted_countOut s o
  rw [die_emit, h.tallies]

theorem ops_emit (s : State) (o : Out) : (emit s o).ops = s.ops := by
  obtain ⟨d, h⟩ := counted_countOut s o
  exact h.ops

theorem insts_emit (s : State) (o : Out) : (emit s o).insts = s.insts := by
  obtain ⟨d, h⟩ := counted_countOut s o
  exact h.insts

@[simp] theorem rings_writeRecord (s : State) (port link addr rec : Nat) (e : Die) :
    (die (writeRecord s port link addr rec) e).rings = (die s e).rings := by
  unfold writeRecord
  split <;> simp only [rings_emit]

/-! ### Sources and events -/

@[simp] theorem rings_raiseSource (s : State) (d : Die) (n : Nat) (e : Die) : (die (raiseSource s d n) e).rings = (die s e).rings := by
  unfold raiseSource raiseLocal modSrc onEng
  repeat' split
  case isFalse.isFalse => exact rings_onDie s _ _ e
  all_goals rfl

@[simp] theorem out_raiseSource (s : State) (d : Die) (n : Nat) : (raiseSource s d n).out = s.out := by
  unfold raiseSource raiseLocal modSrc onEng
  repeat' split
  case isFalse.isFalse => exact onDie_out ..
  all_goals rfl

@[simp] theorem rings_postInst (s : State) (i code data : Nat) (e : Die) : (die (postInst s i code data) e).rings = (die s e).rings := by
  unfold postInst
  extract_lets x
  split
  · rfl
  · split
    · rw [die_modInst]
    · extract_lets fire noted written
      have hwritten : (die written e).rings = (die s e).rings := (rings_writeRecord ..).trans (by rw [die_modInst])
      split
      · rw [rings_raiseSource, hwritten]
      · exact hwritten

theorem rings_mgmtRing (s : State) (d : Die) (time data code source : Nat) (e : Die) :
    (die (mgmtRing s d time data code source) e).rings = (die s e).rings := by
  have hput (x : EvtRing) : (die (onDie s d fun y => { y with evt := x }) e).rings = (die s e).rings :=
    rings_onDie s d _ e
  unfold mgmtRing
  extract_lets cfg x put
  split
  · exact hput _
  · split
    · exact hput _
    · extract_lets fire noted written
      have hwritten : (die written e).rings = (die s e).rings := (rings_writeRecord ..).trans (hput _)
      split
      · rw [rings_raiseSource, hwritten]
      · exact hwritten

@[simp] theorem rings_postMgmt (s : State) (d : Die) (code data : Nat) (e : Die) : (die (postMgmt s d code data) e).rings = (die s e).rings := by
  unfold postMgmt
  extract_lets t noted posted fwd
  have hposted : (die posted e).rings = (die s e).rings :=
    (rings_mgmtRing ..).trans (rings_onDie s d _ e)
  split
  · rw [rings_emit, hposted]
  · exact hposted

end Sys2Proof.Proofs
end

section
/-! PROOF. The fetch point of a command ring (R78, R84, R86, R92, R101): what consuming an entry, a change of STATE and a reset leave
of the ring and of everything else. -/

namespace Sys2Proof.Proofs

open Sys2Proof Sys2Proof.Machine

variable {s t u : State} {d e : Die} {n m : Nat} {b : Block}

/-! ### Rings under updates -/

theorem cmdRing_congr (h : (die t d).rings = (die s d).rings) (n : Nat) : cmdRing t d n = cmdRing s d n := by rw [cmdRing, cmdRing, h]
theorem cqRing_congr (h : (die t d).rings = (die s d).rings) (m : Nat) : cqRing t d m = cqRing s d m := by rw [cqRing, cqRing, h]

@[simp] theorem cqRing_modCmdRing (s : State) (d : Die) (n : Nat) (f : CmdRing → CmdRing) (e : Die) (m : Nat) :
    cqRing (modCmdRing s d n f) e m = cqRing s e m := by cases d <;> cases e <;> rfl
@[simp] theorem cmdRing_modCq (s : State) (d : Die) (m : Nat) (f : CqRing → CqRing) (e : Die) (n : Nat) :
    cmdRing (modCq s d m f) e n = cmdRing s e n := by cases d <;> cases e <;> rfl
@[simp] theorem cmdRing_unage (s : State) (d : Die) (n : Nat) (e : Die) (m : Nat) : cmdRing (unage s d n) e m = cmdRing s e m := by
  cases d <;> cases e <;> rfl
@[simp] theorem cmdRing_dropFetch (s : State) (d : Die) (n : Nat) (e : Die) (m : Nat) : cmdRing (dropFetch s d n) e m = cmdRing s e m := by
  cases e <;> rfl

/-- A changed ring reads as its change, where that is no unused ring. -/
theorem cmdRing_modCmdRing_self {f : CmdRing → CmdRing} (h : f (cmdRing s d n) ≠ {}) : cmdRing (modCmdRing s d n f) d n = f (cmdRing s d n) :=
  (cmdRing_modCmdRing (.inr h)).trans (if_pos ⟨rfl, rfl⟩)

theorem cqRing_modCq_self {f : CqRing → CqRing} (h : f (cqRing s d m) ≠ {}) : cqRing (modCq s d m f) d m = f (cqRing s d m) :=
  (cqRing_modCq (.inr h)).trans (if_pos ⟨rfl, rfl⟩)

/-- Only what a change makes of the ring itself counts. -/
theorem modCq_congr {f g : CqRing → CqRing} (h : f (cqRing s d m) = g (cqRing s d m)) : modCq s d m f = modCq s d m g := by
  have hset (f : CqRing → CqRing) : modCq s d m f = onRings s d fun r => { r with cq := tset {} r.cq m (f (cqRing s d m)) } := by
    cases d <;> rfl
  rw [hset f, hset g, h]

/-! ### What changes of the rings leave elsewhere -/

/-- The connections, Tallies, operations and instances stay. -/
structure SameWork (s t : State) : Prop where
  conns : ∀ e, (die t e).conns = (die s e).conns
  tallies : ∀ e, (die t e).tallies = (die s e).tallies
  ops : t.ops = s.ops
  insts : t.insts = s.insts

namespace SameWork

theorem trans (h : SameWork s t) (h' : SameWork t u) : SameWork s u :=
  ⟨fun e => (h'.conns e).trans (h.conns e), fun e => (h'.tallies e).trans (h.tallies e), h'.ops.trans h.ops, h'.insts.trans h.insts⟩

theorem onRings (s : State) (d : Die) (f : Rings → Rings) : SameWork s (onRings s d f) := by
  cases d <;> exact ⟨fun e => by cases e <;> rfl, fun e => by cases e <;> rfl, rfl, rfl⟩

theorem emit (s : State) (o : Out) : SameWork s (emit s o) := ⟨conns_emit s o, tallies_emit s o, ops_emit s o, insts_emit s o⟩

end SameWork

theorem Counted.sameWork (h : Counted d s t) : SameWork s t := ⟨h.conns, h.tallies, h.ops, h.insts⟩

/-! ### The shadow word (R86) -/

/-- A command ring without what its shadow word and its age count (R86, R108). -/
def bare (r : CmdRing) : CmdRing := { r with advSince := 0, shadowDue := none, readyAt := none }

theorem ne_of_bare_ne {r : CmdRing} (h : bare r ≠ {}) : r ≠ {} := by
  rintro rfl
  exact h rfl

/-- Only what the shadow word of ring `n` counts changes from `s` to `t`. -/
structure ShadowOnly (d : Die) (n : Nat) (s t : State) : Prop where
  ring : bare (cmdRing t d n) = bare (cmdRing s d n)
  others : ∀ m, m ≠ n → cmdRing t d m = cmdRing s d m
  cq : ∀ m, cqRing t d m = cqRing s d m
  work : SameWork s t

namespace ShadowOnly

theorem modCmdRing {f : CmdRing → CmdRing} (hf : ∀ r, bare (f r) = bare r) (h : bare (cmdRing s d n) ≠ {}) :
    ShadowOnly d n s (modCmdRing s d n f) := by
  have hne : f (cmdRing s d n) ≠ {} := ne_of_bare_ne (by rw [hf]; exact h)
  refine ⟨by rw [cmdRing_modCmdRing_self hne, hf], fun m hm => ?_, fun m => cqRing_modCmdRing .., .onRings ..⟩
  rw [cmdRing_modCmdRing (.inr hne), if_neg fun hc => hm hc.2]

theorem emit (h : ShadowOnly d n s t) (o : Out) : ShadowOnly d n s (emit t o) where
  ring := by rw [cmdRing_congr (rings_emit ..), h.ring]
  others m hm := by rw [cmdRing_congr (rings_emit ..), h.others m hm]
  cq m := by rw [cqRing_congr (rings_emit ..), h.cq]
  work := h.work.trans (.emit t o)

end ShadowOnly

theorem shadowOnly_shadowLater (h : bare (cmdRing s d n) ≠ {}) : ShadowOnly d n s (shadowLater s d n) :=
  .modCmdRing (fun _ => rfl) h

theorem shadowOnly_shadowWrite (h : bare (cmdRing s d n) ≠ {}) : ShadowOnly d n s (shadowWrite s d n) := by
  have hmod : ShadowOnly d n s (shadowReported s d n) := .modCmdRing (fun _ => rfl) h
  unfold shadowWrite
  extract_lets r reported lk
  split
  · exact hmod.emit _
  · exact hmod

/-- A change of STATE changes nothing else that a ring holds for itself. -/
theorem bare_setRingSt {st : RingSt} (h : bare { cmdRing s d n with st := st } ≠ {}) :
    bare (cmdRing (setRingSt s d n st) d n) = bare { cmdRing s d n with st := st } := by
  have hst : cmdRing (modCmdRing s d n fun r => { r with st := st }) d n = { cmdRing s d n with st := st } :=
    cmdRing_modCmdRing_self (ne_of_bare_ne h)
  exact (shadowOnly_shadowLater (by rw [hst]; exact h)).ring.trans (by rw [hst])

/-! ### Consumption (R84, R92) -/

/-- The ring past the entry `b`, whose record has the slot `slot`. -/
def consumed (r : CmdRing) (b : Block) (slot : Nat) : CmdRing :=
  { r with queue := r.queue ++ [{ blk := b, slot := slot }]
           consIdx := (r.consIdx + 1) % 2 ^ r.log2
           consPhase := if r.consIdx + 1 = 2 ^ r.log2 then !r.consPhase else r.consPhase
           consSeq := (r.consSeq + 1) % 2 ^ 24
           waiting := false }

/-- The completion ring with one more slot reserved. -/
def slotReserved (q : CqRing) : CqRing := { q with reserved := q.reserved + 1, resvSeq := q.resvSeq + 1 }

theorem bare_consumed_ne (r : CmdRing) (b : Block) (slot : Nat) : bare (consumed r b slot) ≠ {} := fun h =>
  absurd (congrArg CmdRing.queue h) (List.append_ne_nil_of_right_ne_nil _ (List.cons_ne_nil _ _))

/-- What consuming an entry does from `s` to `t`. -/
structure Consumed (d : Die) (n : Nat) (b : Block) (s t : State) : Prop where
  ring : bare (cmdRing t d n) = bare (consumed (cmdRing s d n) b (cqRing s d (cmdRing s d n).cq).resvSeq)
  slot : cqRing t d (cmdRing s d n).cq = slotReserved (cqRing s d (cmdRing s d n).cq)
  others : ∀ m, m ≠ n → cmdRing t d m = cmdRing s d m
  otherCqs : ∀ m, m ≠ (cmdRing s d n).cq → cqRing t d m = cqRing s d m
  work : SameWork s t

theorem Consumed.counted (h : Consumed d n b s t) (hc : Counted e t u) : Consumed d n b s u where
  ring := by rw [cmdRing_congr (hc.rings d), h.ring]
  slot := by rw [cqRing_congr (hc.rings d), h.slot]
  others m hm := by rw [cmdRing_congr (hc.rings d), h.others m hm]
  otherCqs m hm := by rw [cqRing_congr (hc.rings d), h.otherCqs m hm]
  work := h.work.trans hc.sameWork

theorem Consumed.shadow (h : Consumed d n b s t) (hs : ShadowOnly d n t u) : Consumed d n b s u where
  ring := hs.ring.trans h.ring
  slot := (hs.cq _).trans h.slot
  others m hm := (hs.others m hm).trans (h.others m hm)
  otherCqs m hm := (hs.cq m).trans (h.otherCqs m hm)
  work := h.work.trans hs.work

/-- The slot is reserved and the ring moves on; `f` is what the model makes of the ring. -/
theorem consumed_mod {f : CmdRing → CmdRing}
    (hf : bare (f (cmdRing s d n)) = bare (consumed (cmdRing s d n) b (cqRing s d (cmdRing s d n).cq).resvSeq)) :
    Consumed d n b s (modCmdRing (modCq s d (cmdRing s d n).cq slotReserved) d n f) := by
  have hq : slotReserved (cqRing s d (cmdRing s d n).cq) ≠ {} := fun h => Nat.succ_ne_zero _ (congrArg CqRing.reserved h)
  have hr : f (cmdRing (modCq s d (cmdRing s d n).cq slotReserved) d n) ≠ {} := by
    rw [cmdRing_modCq]
    exact ne_of_bare_ne (hf ▸ bare_consumed_ne _ _ _)
  refine ⟨?ring, ?slot, fun m hm => ?others, fun m hm => ?otherCqs, .trans (.onRings ..) (.onRings ..)⟩
  case ring => rw [cmdRing_modCmdRing_self hr, cmdRing_modCq, hf]
  case slot => rw [cqRing_modCmdRing, cqRing_modCq_self hq]
  case others => rw [cmdRing_modCmdRing (.inr hr), if_neg fun hc => hm hc.2, cmdRing_modCq]
  case otherCqs => rw [cqRing_modCmdRing, cqRing_modCq (.inr hq), if_neg fun hc => hm hc.2]

theorem consumed_ringConsume (s : State) (d : Die) (n : Nat) (b : Block) : Consumed d n b s (ringConsume s d n b) := by
  unfold ringConsume
  extract_lets r slot reserved wrap moved counted
  have hmoved : Consumed d n b s moved := consumed_mod (by simp only [bare, consumed, wrap, slot, r, decide_eq_true_eq])
  have hcounted : Consumed d n b s counted := hmoved.counted (counted_pmcHost moved _ 1 (by decide))
  have hne : bare (cmdRing counted d n) ≠ {} := hcounted.ring ▸ bare_consumed_ne _ _ _
  split
  · exact hcounted.shadow (shadowOnly_shadowWrite hne)
  · exact hcounted.shadow (shadowOnly_shadowLater hne)

/-! ### Reset (R101) -/

/-- The ring at its first entry again, in RESET since `now`. -/
def atStart (r : CmdRing) (now : Nat) : CmdRing :=
  { r with consIdx := 0, consPhase := true, consSeq := 0, haltCause := 0, dbLatched := false, reading := false, waiting := false
           bad := false, outstanding := [], resetAt := now, resetLate := false, st := .reset }

theorem bare_ringToReset (d : Die) (n : Nat) (h : 0 < s.now) : ∃ r, bare (cmdRing (ringToReset s d n) d n) = bare (atStart r s.now) := by
  unfold ringToReset
  extract_lets r cancelled emptied ended restarted
  have hnow : ended.now = s.now := by
    refine Laws.Keeps.now (Laws.keeps_foldl _ _ (fun s x hs => Laws.keeps_cancelOp s x hs) (Laws.keeps_dropFetch _ _ _ ?_))
    exact Laws.keeps_modCmdRing _ _ _ _ (Laws.keeps_foldl _ _ (fun s x hs => Laws.keeps_cancelEntry s _ _ x hs) (.refl s))
  have hne : bare (atStart (cmdRing ended d n) s.now) ≠ {} := fun hc => h.ne' (congrArg CmdRing.resetAt hc)
  have hring : cmdRing (unage restarted d n) d n = { atStart (cmdRing ended d n) s.now with st := (cmdRing ended d n).st, readyAt := none } := by
    rw [cmdRing_unage, cmdRing_modCmdRing_self fun hc => h.ne' (hnow ▸ congrArg CmdRing.resetAt hc), hnow]
    rfl
  refine ⟨cmdRing ended d n, ?_⟩
  rw [bare_setRingSt (by rw [hring]; exact hne), hring]
  rfl

/-! ### Index and phase follow SEQ (R78) -/

/-- The index and phase that a ring expects are those of its SEQ. -/
structure FollowsSeq (r : CmdRing) : Prop where
  idx : r.consIdx = r.consSeq % 2 ^ r.log2
  phase : r.consPhase = decide (r.consSeq / 2 ^ r.log2 % 2 = 0)

/-- A quotient's parity turns exactly where the remainder wraps. -/
theorem even_succ_div (q k : Nat) :
    decide ((q + 1) / 2 ^ k % 2 = 0) = if q % 2 ^ k + 1 = 2 ^ k then !decide (q / 2 ^ k % 2 = 0) else decide (q / 2 ^ k % 2 = 0) := by
  have hlt : q % 2 ^ k < 2 ^ k := Nat.mod_lt q (Nat.two_pow_pos k)
  have hq : q + 1 = (q % 2 ^ k + 1) + 2 ^ k * (q / 2 ^ k) := by have := Nat.mod_add_div q (2 ^ k); omega
  rw [hq, Nat.add_mul_div_left _ _ (Nat.two_pow_pos k)]
  split
  · next hw => rw [hw, Nat.div_self (Nat.two_pow_pos k), ← decide_not]; exact decide_eq_decide.mpr (by omega)
  · next hw => rw [Nat.div_eq_of_lt (by omega), Nat.zero_add]

/-- SEQ wraps at a multiple of twice the ring's size, so that neither quotient's parity nor remainder sees it. -/
theorem seq_wraps {k : Nat} (hk : k ≤ 23) (q : Nat) : q % 2 ^ 24 % 2 ^ k = q % 2 ^ k ∧ q % 2 ^ 24 / 2 ^ k % 2 = q / 2 ^ k % 2 := by
  have hdvd : 2 ^ (k + 1) ∣ 2 ^ 24 := Nat.pow_dvd_pow 2 (by omega)
  refine ⟨Nat.mod_mod_of_dvd q (Nat.pow_dvd_pow 2 (by omega)), ?_⟩
  rw [← Nat.mod_mul_right_div_self, ← Nat.mod_mul_right_div_self, ← Nat.pow_succ, Nat.mod_mod_of_dvd q hdvd]

theorem followsSeq_consumed {r : CmdRing} (h : FollowsSeq r) (hk : r.log2 ≤ 23) (b : Block) (slot : Nat) : FollowsSeq (consumed r b slot) where
  idx := by
    change (r.consIdx + 1) % 2 ^ r.log2 = (r.consSeq + 1) % 2 ^ 24 % 2 ^ r.log2
    rw [h.idx, Nat.mod_add_mod, (seq_wraps hk _).1]
  phase := by
    change (if r.consIdx + 1 = 2 ^ r.log2 then !r.consPhase else r.consPhase) = decide ((r.consSeq + 1) % 2 ^ 24 / 2 ^ r.log2 % 2 = 0)
    rw [(seq_wraps hk _).2, even_succ_div, h.idx, h.phase]

/-- The bookkeeping of the shadow word and of age does not count. -/
theorem FollowsSeq.of_bare {r q : CmdRing} (h : bare r = bare q) (hq : FollowsSeq q) : FollowsSeq r := by
  have hlog : r.log2 = q.log2 := (congrArg CmdRing.log2 h :)
  have hseq : r.consSeq = q.consSeq := (congrArg CmdRing.consSeq h :)
  have hidx : r.consIdx = q.consIdx := (congrArg CmdRing.consIdx h :)
  have hphase : r.consPhase = q.consPhase := (congrArg CmdRing.consPhase h :)
  exact ⟨by rw [hidx, hq.idx, hseq, hlog], by rw [hphase, hq.phase, hseq, hlog]⟩

/-- Settles O49: the consumed ring by `followsSeq_consumed`, the reset one as `atStart`, the unused one by its default. -/
theorem ringPositionFollowsSeq : Obligations.RingPositionFollowsSeq := by
  unfold Obligations.RingPositionFollowsSeq
  refine ⟨?consume, ?reset, rfl, rfl, rfl⟩
  case consume =>
    intro s d n b r t hk _ hidx hphase
    have hring := (consumed_ringConsume s d n b).ring
    have hfollows : FollowsSeq t := .of_bare hring (followsSeq_consumed ⟨hidx, hphase⟩ hk b _)
    exact ⟨(congrArg CmdRing.log2 hring :), (congrArg CmdRing.consSeq hring :), hfollows.idx, hfollows.phase⟩
  case reset =>
    intro s d n h t
    obtain ⟨r, hr⟩ := bare_ringToReset d n h
    exact ⟨(congrArg CmdRing.consSeq hr :), (congrArg CmdRing.consIdx hr :), (congrArg CmdRing.consPhase hr :), (congrArg CmdRing.st hr :)⟩

end Sys2Proof.Proofs
end

section
/-! PROOF. Completion heads (R90, R93, R94): the distance of a head write on the ring of 2^(k+1) positions, and what the write does. -/

namespace Sys2Proof.Proofs

open Sys2Proof Sys2Proof.Machine

variable {s : State} {d : Die} {m j : Nat} {w : Requester} {v : BitVec 32}

/-- The distance from one position to another, modulo the number of positions, leads back to it. -/
theorem add_distance_mod {a b p : Nat} (ha : a < p) (hb : b < p) : (a + (b + p - a) % p) % p = b := by
  rw [Nat.add_mod_mod, show a + (b + p - a) = b + p by omega, Nat.add_mod_right, Nat.mod_eq_of_lt hb]

theorem headPos_lt (k : Nat) (lap : Bool) (head : Nat) : headPos k lap head < 2 ^ (k + 1) := Nat.mod_lt _ (Nat.two_pow_pos _)

theorem headDist_lt (k : Nat) (lap : Bool) (head : Nat) (lap' : Bool) (head' : Nat) : headDist k lap head lap' head' < 2 ^ (k + 1) :=
  Nat.mod_lt _ (Nat.two_pow_pos _)

theorem headPos_add_headDist (k : Nat) (lap : Bool) (head : Nat) (lap' : Bool) (head' : Nat) :
    headPos k lap' head' = (headPos k lap head + headDist k lap head lap' head') % 2 ^ (k + 1) :=
  (add_distance_mod (headPos_lt ..) (headPos_lt ..)).symm

theorem exec_cqHeadWrite (hq : findCqRing s w j = some (d, m)) (hf : forensic s = false) :
    exec (.cqHeadWrite w j v) s = .next (cqHeadWrite s d m v) := by
  change execCqHeadWrite w j v s = _
  simp only [execCqHeadWrite, hq, hf, Bool.false_eq_true, if_false]

/-- The distance of the head write `v`. -/
abbrev writeDist (q : CqRing) (v : BitVec 32) : Nat := headDist q.log2 q.lap q.head (bit v.toNat 20) (bits v.toNat 0 20)

/-- The ring after a head write that returns `dist` records, with ARM as given. -/
abbrev headMoved (v : BitVec 32) (dist : Nat) (arm : Bool) (q : CqRing) : CqRing :=
  { q with head := bits v.toNat 0 20, lap := bit v.toNat 20, written := q.written - dist, arm := arm }

theorem cqHeadWrite_returns (hd : writeDist (cqRing s d m) v ≤ (cqRing s d m).written) :
    cqHeadWrite s d m v =
      let left := (cqRing s d m).written - writeDist (cqRing s d m) v
      let fire := bit v.toNat 31 && (cqRing s d m).intEn && decide (0 < left)
      let t := modCq s d m (headMoved v (writeDist (cqRing s d m) v) (bit v.toNat 31 && !fire))
      if fire then raiseSource t d (cqRing s d m).intSource else t := by
  unfold cqHeadWrite
  refine (if_neg (Nat.not_lt.mpr hd)).trans ?_
  cases d <;> rfl

theorem cqHeadWrite_quiet (hd : writeDist (cqRing s d m) v ≤ (cqRing s d m).written)
    (hquiet : (bit v.toNat 31 && (cqRing s d m).intEn && decide (0 < (cqRing s d m).written - writeDist (cqRing s d m) v)) = false) :
    cqHeadWrite s d m v = modCq s d m (headMoved v (writeDist (cqRing s d m) v) (bit v.toNat 31)) := by
  simp only [cqHeadWrite_returns hd, hquiet, Bool.not_false, Bool.and_true, Bool.false_eq_true, if_false]

theorem cqHeadWrite_fires (hd : writeDist (cqRing s d m) v ≤ (cqRing s d m).written) (harm : bit v.toNat 31 = true)
    (hint : (cqRing s d m).intEn = true) (hleft : 0 < (cqRing s d m).written - writeDist (cqRing s d m) v) :
    cqHeadWrite s d m v = raiseSource (modCq s d m (headMoved v (writeDist (cqRing s d m) v) false)) d
      (cqRing s d m).intSource := by
  simp only [cqHeadWrite_returns hd, harm, hint, hleft, decide_true, Bool.and_self, Bool.not_true, Bool.and_false, if_true]

theorem cqHeadWrite_tooFar (hd : (cqRing s d m).written < writeDist (cqRing s d m) v) :
    cqHeadWrite s d m v = if m = 0 then postMgmt s d 0x12 (evb 12 v.toNat)
      else postInst s (cqRing s d m).inst 0x12 (evb 8 (cqRing s d m).instRing + evb 12 v.toNat) := by
  unfold cqHeadWrite
  exact if_pos hd

/-- Settles O14: the consumption by `consumed_ringConsume`, the head write by its distance. -/
theorem slotsAndFetchPointAdvance : Obligations.SlotsAndFetchPointAdvance := by
  unfold Obligations.SlotsAndFetchPointAdvance
  refine ⟨?consume, ?quiet, ?fires, ?tooFar, ?tooFarMgmt, ?distance⟩
  case consume =>
    intro s d n b r q t
    obtain ⟨hring, hslot, hothers, hotherCqs, hwork⟩ := consumed_ringConsume s d n b
    exact ⟨(congrArg CmdRing.queue hring :), (congrArg CmdRing.consIdx hring :), (congrArg CmdRing.consPhase hring :),
      (congrArg CmdRing.consSeq hring :), (congrArg CmdRing.st hring :), (congrArg CqRing.reserved hslot :),
      (congrArg CqRing.resvSeq hslot :), (congrArg CqRing.written hslot :), (congrArg CqRing.tail hslot :), hothers, hotherCqs, hwork.conns d, hwork.tallies d, hwork.ops, hwork.insts⟩
  case quiet =>
    intro s w j v d m q lap head dist hq hf hd hquiet
    exact (exec_cqHeadWrite hq hf).trans (congrArg Host.Outcome.next (cqHeadWrite_quiet hd hquiet))
  case fires =>
    intro s w j v d m q lap head dist hq hf hd harm hint hleft
    exact (exec_cqHeadWrite hq hf).trans (congrArg Host.Outcome.next (cqHeadWrite_fires hd harm hint hleft))
  case tooFar =>
    intro s w j v d m q lap head dist hq hf hd hm
    rw [exec_cqHeadWrite hq hf, cqHeadWrite_tooFar hd, if_neg hm]
  case tooFarMgmt =>
    intro s w j v d m q lap head dist hq hf hd hm
    rw [exec_cqHeadWrite hq hf, cqHeadWrite_tooFar hd, if_pos hm]
  case distance =>
    intro k lap lap' head head' _ _
    exact ⟨headDist_lt .., headPos_add_headDist ..⟩

end Sys2Proof.Proofs
end

section
/-! PROOF. Completion rings (R52, R88, R90, R92): where a record goes, and what writing it does to the ring. -/

namespace Sys2Proof.Proofs

open Sys2Proof Sys2Proof.Machine

variable {s : State} {d e : Die} {m rec : Nat}

/-! ### The record's writes to host memory (R52) -/

/-- What the device emits for a record, newest first: W3 apart where the link takes no write of 32 bytes. -/
def recordOut (s : State) (port link addr rec : Nat) : List Out :=
  if scv32 s port link then [.hostWrite port link addr (leBytes 32 rec)]
  else [.hostWrite port link (addr + 24) (leBytes 8 (rec / 2 ^ 192)), .hostWrite port link addr (leBytes 24 rec)]

theorem out_writeRecord (s : State) (port link addr rec : Nat) :
    (writeRecord s port link addr rec).out = recordOut s port link addr rec ++ s.out := by
  unfold writeRecord recordOut
  split
  · rw [out_emit, List.singleton_append]
  · rw [out_emit, out_emit, List.cons_append, List.singleton_append]

/-- Counting on a port's die leaves the settings of its links. -/
theorem scv32_counted {t : State} {port : Nat} (h : Counted (portDie port) s t) (hs : twf 0 s.regs = true) (link : Nat) :
    scv32 t port link = scv32 s port link := by
  unfold scv32
  rw [h.high hs _ (by omega)]

/-! ### The write at TAIL (R88) -/

/-- The ring with one record more. -/
def recorded (q : CqRing) : CqRing :=
  { q with tail := (q.tail + 1) % 2 ^ q.log2
           tailPhase := if q.tail + 1 = 2 ^ q.log2 then !q.tailPhase else q.tailPhase
           written := q.written + 1
           arm := q.arm && !q.intEn }

theorem recorded_ne (q : CqRing) : recorded q ≠ {} := fun h => Nat.succ_ne_zero _ (congrArg CqRing.written h)

/-- The link of the ring's owner. -/
abbrev cqLink (s : State) (d : Die) (m : Nat) : Nat × Nat := ringLink s m (cqRing s d m).inst

/-- The record as it stands in host memory, with its PHASE. -/
abbrev phased (q : CqRing) (rec : Nat) : Nat := rec + b2n q.tailPhase * 2 ^ 255

/-- The state in which the record has been written and no interrupt has been raised yet. -/
def cqWritten (s : State) (d : Die) (m rec : Nat) : State :=
  writeRecord (pmcHost (modCq s d m recorded) (cqLink s d m).1 2 1) (cqLink s d m).1 (cqLink s d m).2
    ((cqRing s d m).base + 32 * (cqRing s d m).tail) (phased (cqRing s d m) rec)

/-- Firing takes ARM away, and not firing leaves it where there is no interrupt. -/
theorem stillArmed_eq (arm intEn : Bool) : (arm && !(arm && intEn)) = (arm && !intEn) := by cases arm <;> rfl

theorem cqWrite_eq (s : State) (d : Die) (m rec : Nat) :
    cqWrite s d m rec =
      if (cqRing s d m).arm && (cqRing s d m).intEn then raiseSource (cqWritten s d m rec) d (cqRing s d m).intSource
      else cqWritten s d m rec := by
  unfold cqWrite
  extract_lets q fire t lk counted written
  have ht : t = modCq s d m recorded := modCq_congr (by simp only [recorded, fire, q, stillArmed_eq])
  have hwritten : written = cqWritten s d m rec :=
    congrArg (fun t => writeRecord (pmcHost t lk.1 2 1) lk.1 lk.2 (q.base + 32 * q.tail) (phased q rec)) ht
  rw [hwritten]

theorem rings_cqWrite (s : State) (d : Die) (m rec : Nat) (e : Die) :
    (die (cqWrite s d m rec) e).rings = (die (modCq s d m recorded) e).rings := by
  have hwritten : (die (cqWritten s d m rec) e).rings = (die (modCq s d m recorded) e).rings :=
    (rings_writeRecord ..).trans ((counted_pmcHost _ _ 1 (by decide)).rings e)
  rw [cqWrite_eq]
  split
  · rw [rings_raiseSource, hwritten]
  · exact hwritten

theorem cqRing_cqWrite (s : State) (d : Die) (m rec k : Nat) :
    cqRing (cqWrite s d m rec) d k = if k = m then recorded (cqRing s d m) else cqRing s d k := by
  rw [cqRing_congr (rings_cqWrite ..), cqRing_modCq (.inr (recorded_ne _))]
  simp only [true_and]

theorem cmdRing_cqWrite (s : State) (d : Die) (m rec : Nat) (e : Die) (n : Nat) : cmdRing (cqWrite s d m rec) e n = cmdRing s e n := by
  rw [cmdRing_congr (rings_cqWrite ..), cmdRing_modCq]

theorem cmdRings_cqWrite (s : State) (d : Die) (m rec : Nat) (e : Die) : (die (cqWrite s d m rec) e).rings.cmd = (die s e).rings.cmd := by
  rw [rings_cqWrite]
  cases d <;> cases e <;> rfl

theorem out_cqWrite (d : Die) (m rec : Nat) (h : twf 0 s.regs = true) :
    (cqWrite s d m rec).out = recordOut s (cqLink s d m).1 (cqLink s d m).2 ((cqRing s d m).base + 32 * (cqRing s d m).tail)
      (phased (cqRing s d m) rec) ++ s.out := by
  have hregs : (modCq s d m recorded).regs = s.regs := onDie_regs ..
  have hcounted : Counted (portDie (cqLink s d m).1) (modCq s d m recorded) (pmcHost (modCq s d m recorded) (cqLink s d m).1 2 1) :=
    counted_pmcHost _ _ 1 (by decide)
  have hscv (link : Nat) : scv32 (modCq s d m recorded) (cqLink s d m).1 link = scv32 s (cqLink s d m).1 link := by
    unfold scv32
    exact congrArg (bit · 0) (regVal_onDie ..)
  have hwritten : (cqWritten s d m rec).out = recordOut s (cqLink s d m).1 (cqLink s d m).2
      ((cqRing s d m).base + 32 * (cqRing s d m).tail) (phased (cqRing s d m) rec) ++ s.out := by
    rw [cqWritten, out_writeRecord, hcounted.out, recordOut, scv32_counted hcounted (hregs ▸ h), hscv, recordOut]
    exact congrArg _ (onDie_out ..)
  rw [cqWrite_eq]
  split
  · rw [out_raiseSource, hwritten]
  · exact hwritten

/-! ### The record of a consumed command (R92) -/

theorem postRecord_of_loud (hs : cqSilent s d m = false) (hc : (cqRing s d m).configured = true) :
    postRecord s d m rec = cqWrite (modCq s d m fun q => { q with reserved := q.reserved - 1 }) d m rec := by
  have hconf : (cqRing (modCq s d m fun q => { q with reserved := q.reserved - 1 }) d m).configured = true := by
    rw [cqRing_modCq_self fun h => Bool.false_ne_true ((congrArg CqRing.configured h).symm.trans hc), hc]
  simp only [postRecord, hs, hconf, Bool.not_true, Bool.or_self, Bool.false_eq_true, if_false]

/-- Settles O47: the ring by `cqRing_cqWrite`, the record's place by `out_cqWrite`. -/
theorem completionSlotsFillInOrder : Obligations.CompletionSlotsFillInOrder := by
  unfold Obligations.CompletionSlotsFillInOrder
  refine ⟨⟨rfl, rfl, rfl, rfl, rfl⟩, ?write, ?post, ?free⟩
  case write =>
    intro s d m rec _ hregs q t lk v
    have hout : t.out = recordOut s lk.1 lk.2 (q.base + 32 * q.tail) v ++ s.out := out_cqWrite d m rec hregs
    refine ⟨?ring, fun k hk => ?others, cmdRings_cqWrite s d m rec d, fun hscv => ?whole, fun hscv => ?halves⟩
    case ring => exact (cqRing_cqWrite s d m rec m).trans (if_pos rfl)
    case others => exact (cqRing_cqWrite s d m rec k).trans (if_neg hk)
    case whole =>
      rw [hout, recordOut, if_pos hscv]
      exact List.mem_cons_self ..
    case halves =>
      rw [hout, recordOut, if_neg (by rw [hscv]; exact Bool.false_ne_true)]
      exact ⟨List.mem_cons_of_mem _ (List.mem_cons_self ..), List.mem_cons_self ..⟩
  case post =>
    intro s d m rec hs hc
    exact postRecord_of_loud hs hc
  case free =>
    intro q
    exact ⟨rfl, fun h => by simp only [cqFree] at h ⊢; omega⟩

end Sys2Proof.Proofs
end

section
/-! PROOF. Doorbells and entry reads (R82, R83, R84, R92, R95 to R97, R99, R100): what a doorbell does in each STATE, what an entry is,
and what its read does to the ring. -/

namespace Sys2Proof.Proofs

open Sys2Proof Sys2Proof.Machine

variable {s t : State} {d e : Die} {n : Nat} {b : Block}

/-! ### Scanning (R83) -/

@[simp] theorem canFetch_modCmdRing (s : State) (d : Die) (n : Nat) (f : CmdRing → CmdRing) (e : Die) :
    canFetch (modCmdRing s d n f) e = canFetch s e := by cases d <;> cases e <;> rfl

@[simp] theorem canFetch_setRingSt (s : State) (d : Die) (n : Nat) (st : RingSt) (e : Die) :
    canFetch (setRingSt s d n st) e = canFetch s e := by simp only [setRingSt, shadowLater, canFetch_modCmdRing]

theorem scan_of_idle (hread : (cmdRing s d n).reading = false) (hcan : canFetch s d = true) : scan s d n = issueFetch s d n := by
  simp only [scan, hread, hcan, Bool.false_eq_true, if_false, if_true]

/-- A ring that becomes ACTIVE holds what it held. -/
theorem bare_setRingSt_active (s : State) (d : Die) (n : Nat) :
    bare (cmdRing (setRingSt s d n .active) d n) = bare { cmdRing s d n with st := .active } :=
  bare_setRingSt fun h => RingSt.noConfusion (congrArg CmdRing.st h)

theorem scan_setRingSt_active (hread : (cmdRing s d n).reading = false) (hcan : canFetch s d = true) :
    scan (setRingSt s d n .active) d n = issueFetch (setRingSt s d n .active) d n := by
  have hread' : (cmdRing (setRingSt s d n .active) d n).reading = (cmdRing s d n).reading :=
    (congrArg CmdRing.reading (bare_setRingSt_active s d n) :)
  exact scan_of_idle (hread'.trans hread) ((canFetch_setRingSt ..).trans hcan)

/-! ### A doorbell (R82, R83, R100) -/

/-- The state in which the doorbell has been counted and the ring's shadow word is no longer silenced. -/
abbrev rung (s : State) (d : Die) (n : Nat) : State :=
  pmcHost (modCmdRing s d n fun r => { r with silent := false }) (ringLink s n (cmdRing s d n).inst).1 0 1

theorem exec_doorbell {w : Requester} {j : Nat} (hw : findCmdRing s w j = some (d, n)) (hf : forensic s = false) :
    exec (.doorbell w j) s = .next (ringDoorbell s d n) := by
  change execDoorbell w j s = _
  simp only [execDoorbell, hw, hf, Bool.false_eq_true, if_false]

theorem ringDoorbell_starts (hst : (cmdRing (rung s d n) d n).st = .idle) (hread : (cmdRing (rung s d n) d n).reading = false)
    (hcan : canFetch (rung s d n) d = true) : ringDoorbell s d n = issueFetch (setRingSt (rung s d n) d n .active) d n := by
  simp only [ringDoorbell, hst, hcan, if_true, scan_setRingSt_active hread hcan]

theorem ringDoorbell_held (hst : (cmdRing (rung s d n) d n).st = .idle) (hcan : canFetch (rung s d n) d = false) :
    ringDoorbell s d n = modCmdRing (rung s d n) d n fun r => { r with dbLatched := true } := by
  simp only [ringDoorbell, hst, hcan, Bool.false_eq_true, if_false]

theorem ringDoorbell_latches (hst : (cmdRing (rung s d n) d n).st = .active ∨ (cmdRing (rung s d n) d n).st = .paused) :
    ringDoorbell s d n = modCmdRing (rung s d n) d n fun r => { r with dbLatched := true } := by
  rcases hst with hst | hst <;> simp only [ringDoorbell, hst]

theorem ringDoorbell_ignored (hst : (cmdRing (rung s d n) d n).st = .reset ∨ (cmdRing (rung s d n) d n).st = .halted) :
    ringDoorbell s d n = rung s d n := by
  rcases hst with hst | hst <;> simp only [ringDoorbell, hst]

/-! ### What an entry is (R95, R96, R97) -/

theorem judgeEntry_owned {r : CmdRing} (hp : (fld b 1 0 1 == 1) = r.consPhase) (hs : fld b 2 0 24 = r.consSeq) :
    judgeEntry r (.ok b) = .owned b := by simp only [judgeEntry, hp, hs, if_true]

theorem judgeEntry_mismatch {r : CmdRing} (hp : (fld b 1 0 1 == 1) = r.consPhase) (hs : fld b 2 0 24 ≠ r.consSeq) :
    judgeEntry r (.ok b) = .halt 2 (fld b 0 0 64) := by simp only [judgeEntry, hp, hs, if_true, if_false]

theorem judgeEntry_lapped {r : CmdRing} (hp : (fld b 1 0 1 == 1) ≠ r.consPhase) (hs : fld b 2 0 24 = (r.consSeq + 2 ^ r.log2) % 2 ^ 24) :
    judgeEntry r (.ok b) = .halt 1 (fld b 0 0 64) := by simp only [judgeEntry, hp, hs, if_true, if_false]

theorem judgeEntry_unowned {r : CmdRing} (hp : (fld b 1 0 1 == 1) ≠ r.consPhase) (hs : fld b 2 0 24 ≠ (r.consSeq + 2 ^ r.log2) % 2 ^ 24) :
    judgeEntry r (.ok b) = .unowned := by simp only [judgeEntry, hp, hs, if_false]

/-! ### The read comes back (R83, R84, R92, R100) -/

theorem exec_ringEntryFetch {l : List ReadPart} {x : EntryRead} (hx : entryRead l = some x)
    (ht : takeReads s (.ring d n) (anyTimeout l) = some (true, t)) (hr : (cmdRing t d n).reading = true) :
    exec (.ringEntryFetch d n l) s = .next (ringFetched t d n x) := by
  change execRingEntryFetch d n l s = _
  simp only [execRingEntryFetch, hx, ht, hr, if_true]

/-- A waiting entry is read again once its ring is ACTIVE with a slot and room. -/
theorem exec_ringConsumeRetry {l : List ReadPart} {x : EntryRead} (hx : entryRead l = some x) (hw : (cmdRing s d n).waiting = true)
    (hst : (cmdRing s d n).st = .active) (hroom : ringRoom s d (cmdRing s d n) = true) (hcan : canFetch s d = true) :
    exec (.ringConsumeRetry d n l) s = .next (ringFetched (modCmdRing s d n fun r => { r with waiting := false }) d n x) := by
  change execRingConsumeRetry d n l s = _
  simp only [execRingConsumeRetry, hx, hw, hst, hroom, hcan, decide_true, Bool.and_self, if_true]

/-- The state in which ring `n` has no read out. -/
abbrev readBack (t : State) (d : Die) (n : Nat) : State := modCmdRing t d n fun r => { r with reading := false }

section

variable {x : EntryRead}

theorem ringFetched_consumes (hcan : canFetch (readBack t d n) d = true) (hst : (cmdRing t d n).st = .active)
    (hj : judgeEntry (cmdRing t d n) x = .owned b) (hroom : ringRoom (readBack t d n) d (cmdRing t d n) = true) :
    ringFetched t d n x = issueFetch (ringConsume (readBack t d n) d n b) d n := by
  simp only [ringFetched, hcan, hst, hj, hroom, Bool.not_true, Bool.false_eq_true, if_false, if_true]

theorem ringFetched_waits (hcan : canFetch (readBack t d n) d = true) (hst : (cmdRing t d n).st = .active)
    (hj : judgeEntry (cmdRing t d n) x = .owned b) (hroom : ringRoom (readBack t d n) d (cmdRing t d n) = false) :
    ringFetched t d n x = modCmdRing (readBack t d n) d n fun r => { r with waiting := true } := by
  simp only [ringFetched, hcan, hst, hj, hroom, Bool.not_true, Bool.false_eq_true, if_false]

theorem ringFetched_rescans (hcan : canFetch (readBack t d n) d = true) (hst : (cmdRing t d n).st = .active)
    (hj : judgeEntry (cmdRing t d n) x = .unowned) (hdb : (cmdRing t d n).dbLatched = true) :
    ringFetched t d n x = issueFetch (modCmdRing (readBack t d n) d n fun r => { r with dbLatched := false }) d n := by
  simp only [ringFetched, hcan, hst, hj, hdb, Bool.not_true, Bool.false_eq_true, if_false, if_true]

theorem ringFetched_rests (hcan : canFetch (readBack t d n) d = true) (hst : (cmdRing t d n).st = .active)
    (hj : judgeEntry (cmdRing t d n) x = .unowned) (hdb : (cmdRing t d n).dbLatched = false) :
    ringFetched t d n x = setRingSt (readBack t d n) d n .idle := by
  simp only [ringFetched, hcan, hst, hj, hdb, Bool.not_true, Bool.false_eq_true, if_false]

theorem ringFetched_halts {k w : Nat} (hcan : canFetch (readBack t d n) d = true)
    (hst : (cmdRing t d n).st = .active ∨ (cmdRing t d n).st = .paused) (hj : judgeEntry (cmdRing t d n) x = .halt k w) :
    ringFetched t d n x = ringHalt (readBack t d n) d n k w := by
  rcases hst with hst | hst <;> simp only [ringFetched, hcan, hst, hj, Bool.not_true, Bool.false_eq_true, if_false]

theorem ringFetched_pausedConsumes (hcan : canFetch (readBack t d n) d = true) (hst : (cmdRing t d n).st = .paused)
    (hj : judgeEntry (cmdRing t d n) x = .owned b) (hroom : ringRoom (readBack t d n) d (cmdRing t d n) = true) :
    ringFetched t d n x = ringConsume (readBack t d n) d n b := by
  simp only [ringFetched, hcan, hst, hj, hroom, Bool.not_true, Bool.false_eq_true, if_false, if_true]

theorem ringFetched_pausedStops (hcan : canFetch (readBack t d n) d = true) (hst : (cmdRing t d n).st = .paused)
    (hj : judgeEntry (cmdRing t d n) x = .unowned ∨
      judgeEntry (cmdRing t d n) x = .owned b ∧ ringRoom (readBack t d n) d (cmdRing t d n) = false) :
    ringFetched t d n x = readBack t d n := by
  rcases hj with hj | ⟨hj, hroom⟩
  · simp only [ringFetched, hcan, hst, hj, Bool.not_true, Bool.false_eq_true, if_false]
  · simp only [ringFetched, hcan, hst, hj, hroom, Bool.not_true, Bool.false_eq_true, if_false]

end

/-- Settles O12: each clause is the row's own condition, then the lemma of the ring's STATE and of what the entry is. -/
theorem doorbellsAndEntryReadsAct : Obligations.DoorbellsAndEntryReadsAct := by
  unfold Obligations.DoorbellsAndEntryReadsAct
  refine ⟨?starts, ?held, ?latches, ?ignored, ?consumes, ?waits, ?rescans, ?rests, ?halts, ?pausedConsumes, ?pausedStops, ?retry⟩
  case starts =>
    intro s w j d n u hw _ hf hst hread hcan
    rw [exec_doorbell hw hf, ringDoorbell_starts hst hread hcan]
  case held =>
    intro s w j d n u hw _ hf hst hcan
    rw [exec_doorbell hw hf, ringDoorbell_held hst hcan]
  case latches =>
    intro s w j d n u hw _ hf hst
    rw [exec_doorbell hw hf, ringDoorbell_latches hst]
  case ignored =>
    intro s w j d n u hw _ hf hst
    rw [exec_doorbell hw hf, ringDoorbell_ignored hst]
  case consumes =>
    intro s d n l x t b r u hx ht hr hcan hst hj hroom
    rw [exec_ringEntryFetch hx ht hr, ringFetched_consumes hcan hst hj hroom]
  case waits =>
    intro s d n l x t b r u hx ht hr hcan hst hj hroom
    rw [exec_ringEntryFetch hx ht hr, ringFetched_waits hcan hst hj hroom]
  case rescans =>
    intro s d n l x t r u hx ht hr hcan hst hj hdb
    rw [exec_ringEntryFetch hx ht hr, ringFetched_rescans hcan hst hj hdb]
  case rests =>
    intro s d n l x t r u hx ht hr hcan hst hj hdb
    rw [exec_ringEntryFetch hx ht hr, ringFetched_rests hcan hst hj hdb]
  case halts =>
    intro s d n l x t k w r u hx ht hr hcan hst hj
    rw [exec_ringEntryFetch hx ht hr, ringFetched_halts hcan hst hj]
  case pausedConsumes =>
    intro s d n l x t b r u hx ht hr hcan hst hj hroom
    rw [exec_ringEntryFetch hx ht hr, ringFetched_pausedConsumes hcan hst hj hroom]
  case pausedStops =>
    intro s d n l x t b r u hx ht hr hcan hst hj
    rw [exec_ringEntryFetch hx ht hr, ringFetched_pausedStops hcan hst hj]
  case retry =>
    intro s d n l x b r t u hx hw hst hroom hcan hcan' hst' hroom' hj
    rw [exec_ringConsumeRetry hx hw hst hroom hcan, ringFetched_consumes hcan' hst' hj hroom']

/-! ### A halt (R99) -/

/-- The ring in HALTED with its cause. -/
def halted (r : CmdRing) (cause : Nat) : CmdRing :=
  { r with haltCause := cause, haltSlot := false, reading := false, waiting := false, dbLatched := false, st := .halted }

theorem bare_ringHalt {k : Nat} (w : Nat) (hk : 0 < k) : bare (cmdRing (ringHalt s d n k w) d n) = bare (halted (cmdRing s d n) k) := by
  unfold ringHalt
  extract_lets r marked counted w0 ring silent freed posted data
  have hmarked : cmdRing marked d n = { halted (cmdRing s d n) k with st := (cmdRing s d n).st } := by
    rw [cmdRing_modCmdRing_self fun h => hk.ne' (congrArg CmdRing.haltCause h), cmdRing_dropFetch]
    rfl
  have hcounted : bare (cmdRing counted d n) = bare (halted (cmdRing s d n) k) := by
    rw [cmdRing_congr ((counted_pmcHost _ _ 1 (by decide)).rings d),
      bare_setRingSt fun h => RingSt.noConfusion (congrArg CmdRing.st h), hmarked]
    rfl
  have hposted : cmdRing posted d n = cmdRing counted d n := by
    unfold posted
    split
    · split
      · exact cmdRing_modCq ..
      · exact (cmdRing_cqWrite ..).trans (cmdRing_modCq ..)
    · rfl
  rw [← hcounted, ← hposted]
  split
  · rw [cmdRing_congr (rings_postInst ..)]
  · rw [cmdRing_congr (rings_postMgmt ..)]

/-- Settles O13: the judgements by the branches of `judgeEntry`, the halt by `bare_ringHalt`. -/
theorem entriesAreJudged : Obligations.EntriesAreJudged := by
  unfold Obligations.EntriesAreJudged
  refine ⟨fun r b => judgeEntry_owned, fun r b => judgeEntry_mismatch, fun r b => judgeEntry_lapped, fun r b => judgeEntry_unowned,
    fun r => ⟨rfl, rfl, rfl⟩, ?halts⟩
  intro s d n l x u k w r hx hu hr hcan hst hj hk
  have hexec := exec_ringEntryFetch hx hu hr
  rw [ringFetched_halts ((canFetch_modCmdRing ..).trans hcan) hst hj] at hexec
  have hring : cmdRing (readBack u d n) d n = { cmdRing u d n with reading := false } := by
    refine cmdRing_modCmdRing_self fun h => ?_
    have hreset : (cmdRing u d n).st = .reset := (congrArg CmdRing.st h :)
    rcases hst with hst | hst <;> exact RingSt.noConfusion (hst.symm.trans hreset)
  have hhalt := bare_ringHalt (s := readBack u d n) (d := d) (n := n) w hk
  rw [hring] at hhalt
  exact ⟨_, hexec, (congrArg CmdRing.st hhalt :), (congrArg CmdRing.haltCause hhalt :), (congrArg CmdRing.consSeq hhalt :)⟩

end Sys2Proof.Proofs
end

section
/-! PROOF. MG_RING_CTL through the mailbox (R77, R89, R100, R101, R104, R105): each action's operation, and the mailbox's path to it. -/

namespace Sys2Proof.Proofs

open Sys2Proof Sys2Proof.Machine

/-! ### What the rows offer -/

/-- The block of MG_RING_CTL with an action. -/
abbrev ringBlk (b : Block) (a : Nat) : Block := rowBlk b 0xF1 [(20, 0, 3, a)]

section

variable (iss : Issuer) (b : Block) (c : List Block) (s : State)

theorem exec_ringConfigureCmd : exec (.ringConfigureCmd iss b c) s = .next (taxia s iss (ringBlk b 0) c) := rfl
theorem exec_ringConfigureCq : exec (.ringConfigureCq iss b c) s = .next (taxia s iss (ringBlk b 1) c) := rfl
theorem exec_ringPause : exec (.ringPause iss b c) s = .next (taxia s iss (ringBlk b 2) c) := rfl
theorem exec_ringResume : exec (.ringResume iss b c) s = .next (taxia s iss (ringBlk b 3) c) := rfl
theorem exec_ringCtlReset : exec (.ringCtlReset iss b c) s = .next (taxia s iss (ringBlk b 4) c) := rfl
theorem exec_ringReleaseCmd : exec (.ringReleaseCmd iss b c) s = .next (taxia s iss (ringBlk b 5) c) := rfl
theorem exec_ringReleaseCq : exec (.ringReleaseCq iss b c) s = .next (taxia s iss (ringBlk b 6) c) := rfl

end

variable {s : State} {b : Block} {c : List Block} {d : Die} {n o a : Nat}

/-! ### The operations (R77, R89, R100, R101, R104) -/

/-- The completion ring with one more command ring bound, whose halt slot it holds (R90). -/
abbrev bindOne (q : CqRing) : CqRing := { q with bound := q.bound + 1, haltHeld := q.haltHeld + 1 }

/-- A free command ring may be bound to completion ring `m`: configured, with a place and a slot (R77, R105). -/
structure Bindable (s : State) (d : Die) (n m : Nat) : Prop where
  free : (cmdRing s d n).configured = false
  configured : (cqRing s d m).configured = true
  place : (cqRing s d m).bound < min 64 (2 ^ ((cqRing s d m).log2 - 1))
  slot : 0 < cqFree (cqRing s d m)

theorem ringConfigureCmd_ofInstance {base cfg sh : Nat} (h : Bindable s d n (bits cfg 24 13)) (hn : n ≠ 0) (hm : bits cfg 24 13 ≠ 0)
    (hi : (cqRing s d (bits cfg 24 13)).inst = bits cfg 40 10) (hhere : instHere s d (bits cfg 40 10) = true)
    (htaken : cmdTaken s d (bits cfg 40 10) (bits cfg 50 14) = false) :
    ringConfigureCmd s d n base cfg sh =
      .ok (setRingSt (modCmdRing (modCq s d (bits cfg 24 13) bindOne) d n fun _ =>
        { configured := true, base := base, log2 := bits cfg 0 5, cq := bits cfg 24 13, shadowAddr := sh / 8 * 8, shadowEn := bit sh 0
          instRing := bits cfg 50 14, inst := bits cfg 40 10, burst := bits cfg 16 7, weight := bits cfg 8 8, prio := bits cfg 5 2
          haltSlot := true }) d n .idle) 0 := by
  obtain ⟨hfree, hconf, hplace, hslot⟩ := h
  simp [ringConfigureCmd, hfree, hconf, hplace, hslot, hn, hm, hi, hhere, htaken]

theorem ringConfigureCmd_management {base cfg sh : Nat} (h : Bindable s d 0 0) :
    ringConfigureCmd s d 0 base cfg sh =
      .ok (setRingSt (modCmdRing (modCq s d 0 bindOne) d 0 fun _ =>
        { configured := true, base := base, log2 := bits cfg 0 5, shadowAddr := sh / 8 * 8, shadowEn := bit sh 0, haltSlot := true }) d 0 .idle) 0 := by
  obtain ⟨hfree, hconf, hplace, hslot⟩ := h
  simp [ringConfigureCmd, hfree, hconf, hplace, hslot]

theorem ringConfigureCq_ofInstance {base cfg : Nat} (hfree : (cqRing s d n).configured = false) (hn : n ≠ 0)
    (hhere : instHere s d (bits cfg 8 10) = true) (htaken : cqTaken s d (bits cfg 8 10) (bits cfg 32 14) = false) :
    ringConfigureCq s d n base cfg = .ok (modCq s d n fun _ =>
      { configured := true, base := base, log2 := bits cfg 0 5, intEn := bit cfg 30, intSource := bits cfg 18 12
        instRing := bits cfg 32 14, inst := bits cfg 8 10 }) 0 := by
  simp [ringConfigureCq, hfree, hn, hhere, htaken]

theorem ringConfigureCq_management {base cfg : Nat} (hfree : (cqRing s d 0).configured = false) :
    ringConfigureCq s d 0 base cfg = .ok (modCq s d 0 fun _ =>
      { configured := true, base := base, log2 := bits cfg 0 5, intEn := bit cfg 30, intSource := bits cfg 18 12 }) 0 := by
  simp [ringConfigureCq, hfree]

theorem ringCtlReset_live (hc : (cmdRing s d n).configured = true) (hst : (cmdRing s d n).st ≠ .reset) :
    ringCtlReset s o d n = .hold (modCmdRing (ringToReset (modOp s o fun x => { x with phase := .ringReset }) d n) d n fun r =>
      { r with resetOps := r.resetOps ++ [o] }) := by
  simp only [ringCtlReset, hc, hst, ne_eq, not_false_eq_true, decide_true, Bool.and_self, if_true]

theorem ringReleaseCmd_configured (hc : (cmdRing s d n).configured = true) :
    ringReleaseCmd s o d n =
      let x := modOp s o fun x => { x with phase := .ringReset }
      .hold (modCmdRing (if (cmdRing s d n).st = .reset then x else ringToReset x d n) d n fun r =>
        { r with releasing := true, resetOps := r.resetOps ++ [o] }) := if_pos hc

theorem ringReleaseCq_drained (hc : (cqRing s d n).configured = true) (hb : (cqRing s d n).bound = 0) (hw : (cqRing s d n).written = 0) :
    ringReleaseCq s d n = .ok (modCq s d n fun _ => {}) 0 := by
  simp only [ringReleaseCq, hc, hb, hw, and_self, decide_true, Bool.and_self, if_true]

/-! ### The choice that MG_RING_CTL makes -/

/-- MG_RING_CTL of action `a`, its body in form, by an operation that may name ring 0 (R105). -/
structure RingAct (s : State) (o : Nat) (b : Block) (a : Nat) : Prop where
  form : ringCtlForm b = true
  mailbox : byMailbox s o = true
  action : fld b 20 0 3 = a

namespace RingAct

theorem configureCmd (h : RingAct s o b 0) :
    mgRingCtl s o b = ringConfigureCmd s (tgtDie b) (fld b 22 0 13) (fld b 24 0 64) (fld b 32 0 64) (fld b 40 0 64) := by
  simp [mgRingCtl, h.form, h.mailbox, h.action]

theorem configureCq (h : RingAct s o b 1) :
    mgRingCtl s o b = ringConfigureCq s (tgtDie b) (fld b 22 0 13) (fld b 24 0 64) (fld b 32 0 64) := by
  simp [mgRingCtl, h.form, h.mailbox, h.action]

theorem pause (h : RingAct s o b 2) (hc : (cmdRing s (tgtDie b) (fld b 22 0 13)).configured = true)
    (hst : (cmdRing s (tgtDie b) (fld b 22 0 13)).st ≠ .reset) : mgRingCtl s o b = .ok (ringPause s (tgtDie b) (fld b 22 0 13)) 0 := by
  simp [mgRingCtl, h.form, h.mailbox, h.action, hc, hst]

theorem resume (h : RingAct s o b 3) (hc : (cmdRing s (tgtDie b) (fld b 22 0 13)).configured = true)
    (hst : (cmdRing s (tgtDie b) (fld b 22 0 13)).st ≠ .reset) : mgRingCtl s o b = .ok (ringResume s (tgtDie b) (fld b 22 0 13)) 0 := by
  simp [mgRingCtl, h.form, h.mailbox, h.action, hc, hst]

theorem reset (h : RingAct s o b 4) : mgRingCtl s o b = ringCtlReset s o (tgtDie b) (fld b 22 0 13) := by
  simp [mgRingCtl, h.form, h.mailbox, h.action]

theorem releaseCmd (h : RingAct s o b 5) : mgRingCtl s o b = ringReleaseCmd s o (tgtDie b) (fld b 22 0 13) := by
  simp [mgRingCtl, h.form, h.mailbox, h.action]

theorem releaseCq (h : RingAct s o b 6) : mgRingCtl s o b = ringReleaseCq s (tgtDie b) (fld b 22 0 13) := by
  simp [mgRingCtl, h.form, h.mailbox, h.action]

end RingAct

/-! ### MG_RING_CTL through the mailbox -/

theorem byMailbox_mbxOffer (s : State) (b : Block) : byMailbox (mbxOffer s b).1 (mbxOffer s b).2 = true := by
  rw [byMailbox, mbxOffer_op]
  rfl

theorem ringAct_mbxOffer (ha : a < 8) (hf : ringCtlForm (ringBlk b a) = true) :
    RingAct (mbxOffer s (ringBlk b a)).1 (mbxOffer s (ringBlk b a)).2 (ringBlk b a) a where
  form := hf
  mailbox := byMailbox_mbxOffer s _
  action := by rw [fld_rowBlk_one b 0xF1 20 0 3 a (by omega), Nat.mod_eq_of_lt (by omega)]

/-- In the mailbox, where the operation answers CC_OK. -/
theorem mailbox_ringCtl_ok {t : State} (hr : mbxReady s (ringBlk b a) = true)
    (h : mgRingCtl (mbxOffer s (ringBlk b a)).1 (mbxOffer s (ringBlk b a)).2 (ringBlk b a) = .ok t 0) :
    Host.Outcome.next (taxia s .mailbox (ringBlk b a) c) =
      (.next (completeOp t (mbxOffer s (ringBlk b a)).2 { code := 0, result := 0 }) : Host.Outcome State Fault Refusal) := by
  have hop : fld (ringBlk b a) 0 0 8 = 0xF1 := fld_rowBlk_op b 0xF1 _ (by simp)
  rw [mbx_ok s _ c 0xF1 t 0 hop (by omega) (by omega) hr]
  rw [mgRun_F1 _ _ _ _ hop (mbxReady_target s _ hr), h]

/-- In the mailbox, where the record comes later. -/
theorem mailbox_ringCtl_hold {t : State} (hr : mbxReady s (ringBlk b a) = true)
    (h : mgRingCtl (mbxOffer s (ringBlk b a)).1 (mbxOffer s (ringBlk b a)).2 (ringBlk b a) = .hold t) :
    Host.Outcome.next (taxia s .mailbox (ringBlk b a) c) = (.next t : Host.Outcome State Fault Refusal) := by
  have hop : fld (ringBlk b a) 0 0 8 = 0xF1 := fld_rowBlk_op b 0xF1 _ (by simp)
  rw [mbx_hold s _ c 0xF1 t hop (by omega) (by omega) hr]
  rw [mgRun_F1 _ _ _ _ hop (mbxReady_target s _ hr), h]

/-- LOG2 of RNG_CMD_CFG and RNG_CQ_CFG is a field of the block. -/
theorem bits_cfg_log2 (b : Block) : bits (fld b 32 0 64) 0 5 = fld b 32 0 5 := by
  unfold fld
  rw [show bits b.toNat (8 * 32 + 0) 64 = b.toNat / 2 ^ 256 % 2 ^ 64 from rfl, bits_mod _ 64 0 5 (by omega)]
  simp only [bits, Nat.pow_zero, Nat.div_one]

/-- Settles O7: each action's operation on the state that the mailbox's offer leaves, whose rings and instances are those before it. -/
theorem ringControlActs : Obligations.RingControlActs := by
  unfold Obligations.RingControlActs
  refine ⟨?configure, ?configureMgmt, ?configureCq, ?configureCqMgmt, ?pause, ?resume, ?reset, ?releaseCmd, ?releaseCq⟩
  case configure =>
    intro s b c B p d n r cfg m i q hr hf hfree hq hplace hslot hn hm hi hhere htaken
    have hring : cmdRing p.1 d n = r := cmdRing_mbxOffer ..
    have hcq : cqRing p.1 d m = q := cqRing_mbxOffer ..
    rw [← hring] at hfree
    rw [← hcq] at hq hplace hslot hi
    rw [← instHere_mbxOffer s B] at hhere
    rw [← cmdTaken_mbxOffer s B] at htaken
    have h : Bindable p.1 d n m := ⟨hfree, hq, hplace, hslot⟩
    rw [exec_ringConfigureCmd]
    exact mailbox_ringCtl_ok hr ((ringAct_mbxOffer (by decide) hf).configureCmd.trans (ringConfigureCmd_ofInstance h hn hm hi hhere htaken))
  case configureMgmt =>
    intro s b c B p d n r hr hf hn hfree hq hplace hslot
    have hring : cmdRing p.1 d 0 = r := hn ▸ cmdRing_mbxOffer ..
    rw [← hring] at hfree
    rw [← cqRing_mbxOffer s B] at hq hplace hslot
    have hctl := (ringAct_mbxOffer (s := s) (by decide) hf).configureCmd
    rw [show fld B 22 0 13 = 0 from hn, ringConfigureCmd_management ⟨hfree, hq, hplace, hslot⟩, bits_cfg_log2] at hctl
    rw [exec_ringConfigureCmd]
    exact mailbox_ringCtl_ok hr hctl
  case configureCq =>
    intro s b c B p d n r cfg hr hf hfree hn hhere htaken
    rw [← cqRing_mbxOffer s B] at hfree
    rw [← instHere_mbxOffer s B] at hhere
    rw [← cqTaken_mbxOffer s B] at htaken
    rw [exec_ringConfigureCq]
    exact mailbox_ringCtl_ok hr ((ringAct_mbxOffer (by decide) hf).configureCq.trans (ringConfigureCq_ofInstance hfree hn hhere htaken))
  case configureCqMgmt =>
    intro s b c B p d n r cfg hr hf hn hfree
    rw [← cqRing_mbxOffer s B] at hfree
    have hctl := (ringAct_mbxOffer (s := s) (by decide) hf).configureCq
    rw [show fld B 22 0 13 = 0 from hn, ringConfigureCq_management hfree] at hctl
    rw [exec_ringConfigureCq]
    exact mailbox_ringCtl_ok hr hctl
  case pause =>
    intro s b c B p d n r hr hf hc hst
    have hring : cmdRing p.1 d n = r := cmdRing_mbxOffer ..
    rw [← hring] at hc hst
    rw [exec_ringPause]
    exact mailbox_ringCtl_ok hr ((ringAct_mbxOffer (by decide) hf).pause hc hst)
  case resume =>
    intro s b c B p d n r hr hf hc hst
    have hring : cmdRing p.1 d n = r := cmdRing_mbxOffer ..
    rw [← hring] at hc hst
    rw [exec_ringResume]
    exact mailbox_ringCtl_ok hr ((ringAct_mbxOffer (by decide) hf).resume hc hst)
  case reset =>
    intro s b c B p d n r hr hf hc hst
    have hring : cmdRing p.1 d n = r := cmdRing_mbxOffer ..
    rw [← hring] at hc hst
    rw [exec_ringCtlReset]
    exact mailbox_ringCtl_hold hr ((ringAct_mbxOffer (by decide) hf).reset.trans (ringCtlReset_live hc hst))
  case releaseCmd =>
    intro s b c B p d n r x hr hf hc
    have hring : cmdRing p.1 d n = r := cmdRing_mbxOffer ..
    rw [← hring] at hc ⊢
    rw [exec_ringReleaseCmd]
    exact mailbox_ringCtl_hold hr ((ringAct_mbxOffer (by decide) hf).releaseCmd.trans (ringReleaseCmd_configured hc))
  case releaseCq =>
    intro s b c B p d n r hr hf hc hb hw
    rw [← cqRing_mbxOffer s B] at hc hb hw
    rw [exec_ringReleaseCq]
    exact mailbox_ringCtl_ok hr ((ringAct_mbxOffer (by decide) hf).releaseCq.trans (ringReleaseCq_drained hc hb hw))

end Sys2Proof.Proofs
end

section
/-! PROOF. A remote access at its target (R126): the order of the checks. -/

namespace Sys2Proof.Proofs

open Sys2Proof Sys2Proof.Machine

variable {s : State} {k : Conn} {key off total : Nat} {a : List Acc} {t : Option Nat}

/-- The window that a remote key names at the target of a connection. -/
abbrev keyWin (s : State) (k : Conn) (key : Nat) : Win := tget {} (inst s k.inst).wins (rkeyWin key)

/-! ### What has passed: each step supposes those before it -/

/-- Step 3: the connection's owner runs and is the key's. -/
def KeyKnown (s : State) (k : Conn) (key : Nat) : Prop := (inst s k.inst).st = .running ∧ rkeyInst key = k.inst

/-- Step 4, first part: the window is valid and has the key's nonce. -/
def KeyValid (s : State) (k : Conn) (key : Nat) : Prop :=
  KeyKnown s k key ∧ (keyWin s k key).valid = true ∧ rkeyNonce key = (keyWin s k key).nonce

/-- Step 4, second part: the window grants each right. -/
def RightsGranted (s : State) (k : Conn) (key : Nat) (a : List Acc) : Prop := KeyValid s k key ∧ ∀ y ∈ a, winGrants (keyWin s k key) y = true

/-- Step 5: the range lies in the window. -/
def InWindow (s : State) (k : Conn) (key off total : Nat) (a : List Acc) : Prop :=
  RightsGranted s k key a ∧ (total = 0 ∨ off + total ≤ (keyWin s k key).size * 65536)

/-- Step 6: an access that counts to a Tally outside its owner's grants is refused. -/
def tallyRefusal (x : Inst) : Option Nat → Option NakKind
  | some n => if x.tallies.any (fun r => decide (r.1 ≤ n ∧ n < r.1 + r.2)) then none else some (.refuse 0x0B 0x04 0x1F 0)
  | none => none

/-! ### What is left of the checks past each step -/

theorem remoteCheck_of_known (h : KeyKnown s k key) : remoteCheck s k key off total a t =
    if !(keyWin s k key).valid || decide (rkeyNonce key ≠ (keyWin s k key).nonce) then some (.refuse 0x0B 0x02 0x1F 0)
    else if !(a.all (winGrants (keyWin s k key))) then some (.refuse 0x0B 0x03 0x1F 0)
    else if total ≠ 0 ∧ off + total > (keyWin s k key).size * 65536 then some (.refuse 0x06 0x02 0x1F 0)
    else tallyRefusal (inst s k.inst) t := by
  obtain ⟨hst, hkey⟩ := h
  refine (if_neg (not_not.mpr hst)).trans ((if_neg (not_not.mpr hkey)).trans ?_)
  cases t <;> rfl

theorem remoteCheck_of_valid (h : KeyValid s k key) : remoteCheck s k key off total a t =
    if !(a.all (winGrants (keyWin s k key))) then some (.refuse 0x0B 0x03 0x1F 0)
    else if total ≠ 0 ∧ off + total > (keyWin s k key).size * 65536 then some (.refuse 0x06 0x02 0x1F 0)
    else tallyRefusal (inst s k.inst) t := by
  obtain ⟨hknown, hv, hn⟩ := h
  rw [remoteCheck_of_known hknown, if_neg (by simp [hv, hn])]

theorem remoteCheck_of_granted (h : RightsGranted s k key a) : remoteCheck s k key off total a t =
    if total ≠ 0 ∧ off + total > (keyWin s k key).size * 65536 then some (.refuse 0x06 0x02 0x1F 0)
    else tallyRefusal (inst s k.inst) t := by
  obtain ⟨hvalid, hg⟩ := h
  rw [remoteCheck_of_valid hvalid, if_neg (by simpa using hg)]

theorem remoteCheck_of_inWindow (h : InWindow s k key off total a) : remoteCheck s k key off total a t = tallyRefusal (inst s k.inst) t := by
  obtain ⟨hgranted, hin⟩ := h
  rw [remoteCheck_of_granted hgranted, if_neg (by omega)]

/-- Settles O20: each step's refusal is the first branch of what is left of the checks; a range past the window's end has R126's
code 0x06, the other refusals its code 0x0B. -/
theorem targetChecksRunInOrder : Obligations.TargetChecksRunInOrder := by
  unfold Obligations.TargetChecksRunInOrder
  intro s k key off total a t x w c known valid granted inside
  refine ⟨?notRunning, ?otherInstance, ?badWindow, ?noRight, ?pastEnd, ?badTally, ?passes⟩
  case notRunning => exact fun hst => if_pos hst
  case otherInstance => exact fun hst hkey => (if_neg (not_not.mpr hst)).trans (if_pos hkey)
  case badWindow =>
    intro hknown hv
    refine (remoteCheck_of_known hknown).trans (if_pos ?_)
    by_contra hw
    exact hv ⟨hknown, by simpa using hw⟩
  case noRight =>
    intro hvalid hg
    refine (remoteCheck_of_valid hvalid).trans (if_pos ?_)
    by_contra hw
    exact hg ⟨hvalid, by simpa using hw⟩
  case pastEnd =>
    intro hgranted hin
    refine (remoteCheck_of_granted hgranted).trans (if_pos ?_)
    by_contra hw
    exact hin ⟨hgranted, (not_and_or.mp hw).imp not_not.mp Nat.not_lt.mp⟩
  case badTally =>
    rintro hin ⟨n, rfl, hn⟩
    exact (remoteCheck_of_inWindow hin).trans (if_neg (by simpa using hn))
  case passes =>
    intro hin hn
    rw [show c = tallyRefusal x t from remoteCheck_of_inWindow hin]
    cases t with
    | none => rfl
    | some n => exact if_pos (by simpa using hn n rfl)

end Sys2Proof.Proofs
end

section
/-! PROOF. The congestion window (R134): the three branches of an RTT sample, and a loss. -/

namespace Sys2Proof.Proofs

open Sys2Proof Sys2Proof.Machine

variable {s : State} {d : Die} {k : Conn} {rtt acked : Nat}

theorem clamp_mem {v lo hi : Nat} (h : lo ≤ hi) : lo ≤ clamp v lo hi ∧ clamp v lo hi ≤ hi :=
  ⟨Nat.le_max_left .., Nat.max_le.mpr ⟨h, Nat.min_le_right ..⟩⟩

/-- The window held in its bounds. -/
abbrev heldWindow (s : State) (d : Die) (v : Nat) : Nat := clamp v (cwndMin s d) (cwndMax s d)

/-- The share of the window, in 1/256, that a sample above the target takes off. -/
def cutShare (s : State) (d : Die) (k : Conn) (rtt : Nat) : Nat :=
  min (ccBeta s d k.tc * (rtt - ccTarget s d k.tc) / rtt) (ccMaxMd s d k.tc)

theorem ccOnAck_grows (h : rtt ≤ ccTarget s d k.tc) :
    ccOnAck s d k rtt acked = { k with cwnd := heldWindow s d (k.cwnd + ccAi s d k.tc * acked / k.cwnd) } := by
  simp only [ccOnAck, if_pos h]

theorem ccOnAck_cuts (h : ccTarget s d k.tc < rtt) (hcut : k.srtt ≤ s.now - k.lastCut) :
    ccOnAck s d k rtt acked = { k with cwnd := heldWindow s d (k.cwnd - k.cwnd * cutShare s d k rtt / 256), lastCut := s.now } := by
  simp only [ccOnAck, if_neg (Nat.not_le.mpr h), ge_iff_le, if_pos hcut, cutShare]

theorem ccOnAck_stays (h : ccTarget s d k.tc < rtt) (hcut : s.now - k.lastCut < k.srtt) :
    ccOnAck s d k rtt acked = { k with cwnd := heldWindow s d k.cwnd } := by
  simp only [ccOnAck, if_neg (Nat.not_le.mpr h), ge_iff_le, if_neg (Nat.not_le.mpr hcut)]

/-- Settles O23: one lemma for each branch; the window is held in its bounds by all. -/
theorem theWindowFollowsR134 : Obligations.TheWindowFollowsR134 := by
  unfold Obligations.TheWindowFollowsR134
  refine ⟨?sample, ?loss⟩
  case sample =>
    intro s d k rtt acked hbounds t f w
    have hw : cwndMin s d ≤ w.cwnd ∧ w.cwnd ≤ cwndMax s d := clamp_mem hbounds
    exact ⟨hw.1, hw.2, ccOnAck_grows, ccOnAck_cuts, ccOnAck_stays⟩
  case loss =>
    intro s d k
    exact ⟨fun h => if_neg (Nat.not_le.mpr h), fun h => if_pos h⟩

end Sys2Proof.Proofs
end

section
/-! PROOF. Commands of a ring that stage their packets at once (R119, R120, R123, R156, R157, R159, R335): what each command's function
does of an operation that has taken its connection, the ring's path to it, and the cut of a GET's range. -/

namespace Sys2Proof.Proofs

open Sys2Proof Sys2Proof.Machine

section

variable {s u : State} {d : Die} {n op o k : Nat} {b : Block} {c : List Block} {p : State × Nat} {x : Op}

/-! ### The operation that has taken its connection -/

/-- What the functions of the commands of a connection read of a ring's operation. -/
structure ConnOp (u : State) (o : Nat) (x : Op) (d : Die) (op : Nat) : Prop where
  die : (opOf u o).die = d
  inst : (opOf u o).inst = x.inst
  blk : opBlk (opOf u o) = x.blk
  chain : opChain (opOf u o) = x.chain
  opcode : opcode (opOf u o) = op

/-- The offered operation names connection `k`, its destination is there and nothing stages on it. -/
structure OnConn (p : State × Nat) (d : Die) (k : Nat) : Prop where
  names : connField (ringOp p).blk = some k
  opened : opens (taken p k) d (conn (taken p k) d k).inst (conn (taken p k) d k).sealedBy = true
  there : destAbsent (taken p k) d (conn (taken p k) d k).remoteStation = false
  idle : connBusy (taken p k) d k p.2 = false

theorem connOp_taken (h0 : op ≠ 0) (hop : op < 256) (hoff : ringOffer s d n (rowBlk b op []) c = some p) :
    ConnOp (taken p k) p.2 (ringOp p) d op := by
  have hx : RingCmd (ringOp p) d n op := ringCmd_checked h0 hop hoff
  have hu : opOf (taken p k) p.2 = { ringOp p with conn := some k } := opOf_takeConn (hx.code.symm ▸ h0)
  have hxu : RingCmd (opOf (taken p k) p.2) d n op := by rw [hu]; exact ⟨hx.iss, hx.die, hx.plain, hx.code⟩
  exact ⟨hxu.die, by rw [hu], by rw [hxu.opBlk_eq, hu], by rw [opChain, hxu.plain, hu]; rfl, hxu.opcode_eq⟩

/-- The outcome of a ring's command that passes its checks and whose connection stages nothing else, by what its function leaves. -/
theorem ring_onConn {t : State} (hop : op ≠ 0 ∧ op ≠ 0x80 ∧ op < 0xE0) (hoff : ringOffer s d n (rowBlk b op []) c = some p)
    (hp : passes p.1 p.2 = true) (hk : OnConn p d k) (ht : ConnOp (taken p k) p.2 (ringOp p) d op → goConn (taken p k) p.2 k = t) :
    Host.Outcome.next (taxia s (.ring d n) (rowBlk b op []) c) = (.next t : Host.Outcome State Fault Refusal) := by
  obtain ⟨h0, harm, hlt⟩ := hop
  have hx : RingCmd (ringOp p) d n op := ringCmd_checked h0 (by omega) hoff
  rw [ring_executes harm hlt hoff hp, execute_conn (by rw [hx.opBlk_eq, hk.names]) (by rw [hx.die, hk.opened]) (by rw [hx.die, hk.there])
    (by rw [hx.die, hk.idle]), ht (connOp_taken h0 (by omega) hoff)]

/-! ### The function of each opcode -/

theorem goConn_putInline (h : opcode (opOf u o) = 0x02) : goConn u o k = goPutInline u o k := by simp [goConn, isLong, h]
theorem goConn_get (h : opcode (opOf u o) = 0x03) : goConn u o k = goGet u o k := by simp [goConn, isLong, h]
theorem goConn_atomic (h : opcode (opOf u o) = 0x61) : goConn u o k = goAtomic u o k := by simp [goConn, isLong, h]
theorem goConn_send (h : opcode (opOf u o) = 0x20) : goConn u o k = goSend u o k := by simp [goConn, isLong, h]
theorem goConn_sendInline (h : opcode (opOf u o) = 0x21) : goConn u o k = goSendInline u o k := by simp [goConn, isLong, h]

theorem ConnOp.bytes_inline (h : ConnOp u o x d op) (hop : op = 0x02 ∨ op = 0x21) : opBytes (opOf u o) = fld x.blk 28 20 6 := by
  rcases hop with rfl | rfl <;> simp [opBytes, isElems, h.opcode, h.blk]

theorem ConnOp.bytes_length (h : ConnOp u o x d op) (hop : op = 0x03 ∨ op = 0x20) : opBytes (opOf u o) = fld x.blk 40 0 33 := by
  rcases hop with rfl | rfl <;> simp [opBytes, isElems, h.opcode, h.blk]

theorem goPutInline_eq (h : ConnOp u o x d 0x02) :
    goPutInline u o k = stagePieces (modOp u o fun y => { y with phase := .sent }) d k o
      [{ op := .write (fld x.blk 24 0 32) (fld x.blk 16 0 64) (fld x.blk 28 20 6) (fld x.blk 28 20 6)
          (some (blkBytes x.blk 32 (fld x.blk 28 20 6))) none false
         flits := 1, bytes := fld x.blk 28 20 6, first := true, last := true }] := by
  simp only [goPutInline, h.bytes_inline (.inl rfl), h.blk, h.die]

/-- ATOMIC on 8 bytes has its operands in its block. -/
theorem goAtomic_word (h : ConnOp u o x d 0x61) (hsize : fld x.blk 28 24 1 = 0) :
    goAtomic u o k = stagePieces (modOp u o fun y => { y with phase := .sent }) d k o
      [{ op := .atomic (fld x.blk 24 0 32) (fld x.blk 16 0 64) 8 (fld x.blk 28 20 4) (fld x.blk 32 0 64) (fld x.blk 40 0 64)
         flits := 1, bytes := 8, first := true, last := true }] := by
  simp only [goAtomic, h.blk, h.die, hsize, Nat.reduceBEq, Bool.false_eq_true, if_false]

/-- ATOMIC on 16 bytes has them in its extension block. -/
theorem goAtomic_pair (h : ConnOp u o x d 0x61) (hsize : fld x.blk 28 24 1 = 1) :
    goAtomic u o k = stagePieces (modOp u o fun y => { y with phase := .sent }) d k o
      [{ op := .atomic (fld x.blk 24 0 32) (fld x.blk 16 0 64) 16 (fld x.blk 28 20 4) (fld (x.chain.headD 0) 0 0 128)
          (fld (x.chain.headD 0) 16 0 128)
         flits := 1, bytes := 16, first := true, last := true }] := by
  simp only [goAtomic, h.blk, h.chain, h.die, hsize, BEq.rfl, if_true]

theorem goSendInline_eq (h : ConnOp u o x d 0x21) : goSendInline u o k = sendEager u o k (blkBytes x.blk 32 (fld x.blk 28 20 6)) := by
  rw [goSendInline, h.bytes_inline (.inr rfl), h.blk]

theorem goSend_eager (h : ConnOp u o x d 0x20) (hn : fld x.blk 40 0 33 ≤ 256 * bits (regVal u d 0xC00000) 0 9) :
    goSend u o k = readSend (modConn (modOp u o fun y => { y with phase := .reading }) d k fun y => { y with longOp := some o }) o k := by
  simp only [goSend, eagerSend, h.bytes_length (.inr rfl), h.die, hn, decide_true, if_true]

theorem goSend_rendezvous (h : ConnOp u o x d 0x20) (hn : 256 * bits (regVal u d 0xC00000) 0 9 < fld x.blk 40 0 33)
    (hroom : (conn u d k).rdv.length < 1024) : goSend u o k = sendRts u o k := by
  simp only [goSend, eagerSend, h.bytes_length (.inr rfl), h.die, Nat.not_le.mpr hn, ge_iff_le, Nat.not_le.mpr hroom, decide_false,
    Bool.false_eq_true, if_false]

/-- The ranges that a GET of `m` bytes requests: one of no byte for an empty GET (R120). -/
def getRanges (m : Nat) : List (Nat × Nat) := if m = 0 then [(0, 0)] else cutReads (m / 65536 + 1) 0 m

/-- The read requests of the GET `x` of `m` bytes, in order. -/
def getRequests (x : Op) (o m : Nat) : List Piece :=
  ((getRanges m).zip (List.range (getRanges m).length)).map fun q =>
    getPiece x o (decide (q.2 = 0)) (decide (q.2 + 1 = (getRanges m).length)) q.1

theorem goGet_requests (h : ConnOp u o x d 0x03)
    (hlocal : fld x.blk 40 0 33 ≠ 0 → localOk u x (fld x.blk 16 0 64) (fld x.blk 40 0 33) (·.lw) = true) :
    goGet u o k = stagePieces (modOp u o fun y => { y with phase := .sent, since := u.now }) d k o
      (getRequests (opOf u o) o (fld x.blk 40 0 33)) := by
  have hok : ¬ (opBytes (opOf u o) ≠ 0 ∧ localOk u (opOf u o) (fld (opBlk (opOf u o)) 16 0 64) (opBytes (opOf u o)) (·.lw) = false) := by
    rw [h.bytes_length (.inl rfl), h.blk, localOk, h.inst]
    rintro ⟨hm, hlw⟩
    exact Bool.false_ne_true (hlw.symm.trans (hlocal hm))
  have hgo : goGet u o k = stagePieces (modOp u o fun y => { y with phase := .sent, since := u.now }) (opOf u o).die k o
      (getRequests (opOf u o) o (opBytes (opOf u o))) := if_neg hok
  rw [hgo, h.bytes_length (.inl rfl), h.die]

/-! ### The cut of a range (R120) -/

theorem cutReads_nil (f off : Nat) : cutReads f off 0 = [] := by cases f <;> rfl

theorem cutReads_cons {f off len : Nat} (h : len ≠ 0) :
    cutReads (f + 1) off len = (off, min len 65536) :: cutReads f (off + min len 65536) (len - min len 65536) := if_neg h

/-- With cuts enough the parts hold all bytes. -/
theorem cutReads_sum {f off len : Nat} (h : len ≤ 65536 * f) : ((cutReads f off len).map (·.2)).sum = len := by
  induction f generalizing off len with
  | zero => exact (Nat.le_zero.mp h).symm
  | succ f ih =>
    by_cases hlen : len = 0
    · rw [hlen, cutReads_nil]; rfl
    · rw [cutReads_cons hlen, List.map_cons, List.sum_cons, ih (by omega)]
      omega

/-- A part begins whole cuts after the range's beginning, is no larger than a cut and lies in the range. -/
theorem cutReads_part {f off len : Nat} {r : Nat × Nat} (hr : r ∈ cutReads f off len) :
    1 ≤ r.2 ∧ r.2 ≤ 65536 ∧ r.1 % 65536 = off % 65536 ∧ r.1 + r.2 ≤ off + len := by
  induction f generalizing off len with
  | zero => cases hr
  | succ f ih =>
    by_cases hlen : len = 0
    · rw [hlen, cutReads_nil] at hr; cases hr
    · rw [cutReads_cons hlen, List.mem_cons] at hr
      rcases hr with rfl | hr
      · dsimp only; omega
      · by_cases hlast : len ≤ 65536
        · rw [Nat.min_eq_left hlast, Nat.sub_self, cutReads_nil] at hr; cases hr
        · have := ih hr; omega

end

/-- Settles O10: the ring's path to `goGet`, and the cut by induction over it. -/
theorem getSendsReadRequests : Obligations.GetSendsReadRequests := by
  unfold Obligations.GetSendsReadRequests
  refine ⟨?requests, ?cut⟩
  case requests =>
    intro s d n b c p k o y x u m l hoff hp hk hopen hdst hbusy hlocal
    exact ring_onConn (by decide) hoff hp ⟨hk, hopen, hdst, hbusy⟩ fun h => (goConn_get h.opcode).trans (goGet_requests h hlocal)
  case cut =>
    intro m _
    refine ⟨cutReads_sum (by omega), fun r hr => ?_⟩
    have := cutReads_part hr
    omega

/-- Settles O9: the ring's path to each command's function; that a SEND of no byte is eager at EAGER_MAX 0, and what an eager SEND and an
atomic take of their connection, are the model's choices (log entries 35, 37, 67). -/
theorem packetsAndMessagesAreSent : Obligations.PacketsAndMessagesAreSent := by
  unfold Obligations.PacketsAndMessagesAreSent
  refine ⟨?putInline, ?atomicWord, ?atomicPair, ?sendInline, ?eager, ?rendezvous⟩
  case putInline =>
    intro s d n b c p k o y x u hoff hp hk hopen hdst hbusy
    exact ring_onConn (by decide) hoff hp ⟨hk, hopen, hdst, hbusy⟩ fun h => (goConn_putInline h.opcode).trans (goPutInline_eq h)
  case atomicWord =>
    intro s d n b c p k o y x u hoff hp hk hopen hdst hbusy hsize
    exact ring_onConn (by decide) hoff hp ⟨hk, hopen, hdst, hbusy⟩ fun h => (goConn_atomic h.opcode).trans (goAtomic_word h hsize)
  case atomicPair =>
    intro s d n b c p k o y x u hoff hp hk hopen hdst hbusy hsize
    exact ring_onConn (by decide) hoff hp ⟨hk, hopen, hdst, hbusy⟩ fun h => (goConn_atomic h.opcode).trans (goAtomic_pair h hsize)
  case sendInline =>
    intro s d n b c p k o y x u hoff hp hk hopen hdst hbusy
    exact ring_onConn (by decide) hoff hp ⟨hk, hopen, hdst, hbusy⟩ fun h => (goConn_sendInline h.opcode).trans (goSendInline_eq h)
  case eager =>
    intro s d n b c p k o y x u hoff hp hk hopen hdst hbusy hn
    exact ring_onConn (by decide) hoff hp ⟨hk, hopen, hdst, hbusy⟩ fun h => (goConn_send h.opcode).trans (goSend_eager h hn)
  case rendezvous =>
    intro s d n b c p k o y x u hoff hp hk hopen hdst hbusy hn hroom
    exact ring_onConn (by decide) hoff hp ⟨hk, hopen, hdst, hbusy⟩ fun h => (goConn_send h.opcode).trans (goSend_rendezvous h hn hroom)

end Sys2Proof.Proofs
end

section
/-! PROOF. Tallies (R62, R137 to R139): an increment, what a completion counts, and the triggers of a saturated Tally. -/

namespace Sys2Proof.Proofs

open Sys2Proof Sys2Proof.Machine

variable {s : State} {n o : Nat}

/-! ### Triggers (R62) -/

theorem tally_modOp (s : State) (o : Nat) (f : Op → Op) (m : Nat) : tally (modOp s o f) m = tally s m := by
  rw [tally, die_modOp, tally]

/-- Firing triggers changes no Tally. -/
theorem tally_fireTriggers (s : State) (n m : Nat) : tally (fireTriggers s n) m = tally s m := by
  unfold fireTriggers
  extract_lets t hits u
  have hu : tally u m = tally s m := by
    rw [tally, die_onDie, tally]
    split
    · next h => rw [h]
    · rfl
  rw [← hu]
  generalize hits = l
  generalize u = v
  induction l generalizing v with
  | nil => rfl
  | cons g l ih => exact (ih _).trans (tally_modOp ..)

/-- A change that leaves the die as it is leaves the state as it is. -/
theorem onDie_id {d : Die} {f : DieState → DieState} (h : f (die s d) = die s d) : onDie s d f = s := by
  cases d with
  | west => exact congrArg (fun x => { s with west := x }) h
  | east => exact congrArg (fun x => { s with east := x }) h

/-- No trigger of a saturated Tally fires. -/
theorem fireTriggers_saturated (h : (tally s n).sat = true) : fireTriggers s n = s := by
  have hno (g : Trig) : trigFires (tally s n) g = false := by rw [trigFires, h]; rfl
  simp only [fireTriggers, hno, Bool.and_false, Bool.not_false, List.filter_false, List.filter_true, List.foldl_nil]
  exact onDie_id rfl

/-! ### An increment (R138, R139) -/

theorem tallyInc_counts (hsat : (tally s n).sat = false) (hv : (tally s n).val + 1 < 2 ^ 48) :
    tallyInc s n = (fireTriggers (setTally s n { val := (tally s n).val + 1, sat := false }) n, false) := by
  simp only [tallyInc, hsat, ge_iff_le, Nat.not_le.mpr hv, Bool.false_eq_true, if_false]

/-- EV_TALLY_SAT of Tally `n`, posted to its owner if it has one. -/
def noteSaturation (s : State) (owner : Option Nat) (n : Nat) : State :=
  match owner with
  | some i => postInst s i 0x23 (evb 8 n)
  | none => s

/-- The state in which Tally `n` is full and flagged. -/
abbrev saturate (s : State) (n : Nat) : State := setTally s n { val := 2 ^ 48 - 1, sat := true }

theorem tallyInc_saturates (hsat : (tally s n).sat = false) (hv : (tally s n).val = 2 ^ 48 - 1) :
    tallyInc s n = (noteSaturation (saturate s n) (tallyOwner s n) n, true) := by
  have howner (v : Tally) : tallyOwner (setTally s n v) n = tallyOwner s n := by rw [tallyOwner, setTally, onDie_insts, tallyOwner]
  have hfull : (tally s n).val + 1 ≥ 2 ^ 48 := by omega
  simp only [tallyInc, hsat, if_pos hfull, howner, Bool.false_eq_true, if_false]
  rw [hv]
  cases tallyOwner s n <;> rfl

theorem tallyInc_saturated (hsat : (tally s n).sat = true) : tallyInc s n = (s, true) := if_pos hsat

/-! ### What a completion counts (R63, R139) -/

/-- A command that ends with CC_OK counts to its local Tally, if it names one. -/
def localCount (s : State) (x : Op) : State × Bool :=
  if localTally (opBlk x) = noTally then (s, false) else tallyInc s (localTally (opBlk x))

/-- The command's record is delivered, and the command retires. -/
def endOp (s : State) (o : Nat) (x : Op) (r : Outcome) (code : Nat) : State :=
  retireOp (deliver s x (completionRecord x.cookie r.bytes r.failIdx r.sub code r.result x.seq (recordRing s x) r.station)) o code

theorem completeOp_ok {r : Outcome} (hr : r.code = 0) :
    completeOp s o r = endOp (localCount s (opOf s o)).1 o (opOf s o) r
      (if (localCount s (opOf s o)).2 = true ∨ (opOf s o).remoteSat = true then 0x0C else 0) := by
  by_cases hn : localTally (opBlk (opOf s o)) = noTally <;> simp [completeOp, endOp, localCount, hr, hn]

theorem completeOp_failed {r : Outcome} (hr : r.code ≠ 0) (hr' : r.code ≠ 0x0C) :
    completeOp s o r = endOp s o (opOf s o) r r.code := by
  simp [completeOp, endOp, hr, hr']

/-- Settles O48: the branches of an increment, those of a completion, and `fireTriggers_saturated`. -/
theorem talliesCountAndSaturate : Obligations.TalliesCountAndSaturate := by
  unfold Obligations.TalliesCountAndSaturate
  refine ⟨?counts, ?saturates, fun s n => tallyInc_saturated, fun s o r => completeOp_ok, fun s o r => completeOp_failed,
    fun s n => fireTriggers_saturated⟩
  case counts =>
    intro s n hsat hv
    have hne : ({ val := (tally s n).val + 1, sat := false } : Tally) ≠ {} := fun h => Nat.succ_ne_zero _ (congrArg Tally.val h)
    rw [tallyInc_counts hsat hv]
    refine ⟨rfl, ?_, fun k hk => ?_⟩
    · rw [tally_fireTriggers, tally_setTally (.inr hne), if_pos rfl]
    · rw [tally_fireTriggers, tally_setTally (.inr hne), if_neg hk]
  case saturates =>
    intro s n hsat hv
    rw [tallyInc_saturates hsat hv]
    refine ⟨rfl, ?_, ?_⟩
    · cases tallyOwner s n <;> rfl
    · rw [tally_setTally (.inr (by decide)), if_pos rfl]

end Sys2Proof.Proofs
end

section
/-! PROOF. CONNECT, CONNECT_ACK, TEARDOWN and CLOSE at a connection end (R112, R113): what a control packet does at the end that it
names, and the end's own timers. -/

namespace Sys2Proof.Proofs

open Sys2Proof Sys2Proof.Machine

variable {s : State} {d : Die} {c : Nat} {p : Pkt} {q : CtlPkt}

/-! ### A control packet at the end that it names (R112, R113) -/

theorem exec_connectReceive (hp : bodyOf p = .ctl q) (hk : q.kind = .connect ∨ q.kind = .connectAck)
    (ht : stationTakes s d p q.remoteInst = true) : exec (.connectReceive d p) s = .next (connectArrive s d q) := by
  change execConnectReceive d p s = _
  simp only [execConnectReceive, hp, hk, ht, and_self, if_true]

/-- The end has its peer's initial PSN and is up. -/
abbrev comesUp (s : State) (d : Die) (c : Nat) (psn : BitVec 32) : State :=
  connUp (modConn s d c fun k => { k with expected := psn, vis := psn, expKnown := true }) d c

theorem connectArrive_connect (hst : (conn s d q.peerConn).st = .pending) (hm : mirrorBits s d q.peerConn q = 0) (hk : q.kind = .connect) :
    connectArrive s d q = comesUp (sendConnCtl s d q.peerConn .connectAck) d q.peerConn q.psn := by
  simp only [connectArrive, hst, hm, hk, if_true]

theorem connectArrive_connectAck (hst : (conn s d q.peerConn).st = .pending) (hm : mirrorBits s d q.peerConn q = 0)
    (hk : q.kind = .connectAck) : connectArrive s d q = comesUp s d q.peerConn q.psn := by
  simp only [connectArrive, hst, hm, hk, reduceCtorEq, if_true, if_false]

theorem connectArrive_mismatch (hst : (conn s d q.peerConn).st = .pending) (hm : mirrorBits s d q.peerConn q ≠ 0) :
    connectArrive s d q = postMgmt s d 0x21 (evb 8 q.peerConn + evb 12 q.station + evb 16 q.conn + evb 20 q.inst + evb 22 (q.tc + 4 * q.mtu) +
      evb 23 (mirrorBits s d q.peerConn q)) := by
  simp only [connectArrive, hst, if_neg hm]

theorem connectArrive_again (hst : (conn s d q.peerConn).st = .established) (hm : mirrorBits s d q.peerConn q = 0) (hk : q.kind = .connect) :
    connectArrive s d q = sendConnCtl s d q.peerConn .connectAck := by
  simp only [connectArrive, hst, hm, hk, and_self, if_true]

theorem exec_teardownReceive (hp : bodyOf p = .ctl q) (hk : q.kind = .teardown ∨ q.kind = .close)
    (ht : stationTakes s d p (conn s d q.peerConn).inst = true)
    (hst : (conn s d q.peerConn).st = .established ∨ (conn s d q.peerConn).st = .draining) (hpeer : (conn s d q.peerConn).peerConn = q.conn) :
    exec (.teardownReceive d p) s = .next (failConn s d q.peerConn 0x0A 0x05 false) := by
  change execTeardownReceive d p s = _
  simp only [execTeardownReceive, hp]
  exact if_pos ⟨hk, hst, hpeer, ht⟩

/-! ### The end's own timers (R112) -/

theorem exec_connectResend (hst : (conn s d c).st = .pending) (hdue : (conn s d c).connectAt + 1000000 ≤ s.now) :
    exec (.connectResend d c) s = .next (sendConnCtl (modConn s d c fun k => { k with connectAt := s.now }) d c .connect) :=
  if_pos ⟨hst, hdue⟩

theorem exec_connDrainDone_closes (hst : (conn s d c).st = .draining) (hops : (conn s d c).ops = []) (hsides : (conn s d c).sides = [])
    (hfill : filling s d c = false) :
    exec (.connDrainDone d c) s = .next (dropUnexp (eraseConn (sendConnCtl s d c .close) d c) d c) := if_pos ⟨hst, hops, hsides, hfill⟩

theorem exec_connDrainDone_erases (hst : (conn s d c).st = .failed) (hfrom : (conn s d c).fromDraining = true) (hops : (conn s d c).ops = []) :
    exec (.connDrainDone d c) s = .next (eraseConn s d c) :=
  (if_neg fun h => ConnSt.noConfusion (hst.symm.trans h.1)).trans (if_pos ⟨hst, hfrom, hops⟩)

/-- Settles O22: a packet by the state of the end that it names, a timer by its own condition; that an ESTABLISHED end answers a CONNECT
again, and that DRAINING waits for receives still filling, are the model's choices (log entries 49, 50). -/
theorem connectionsOpenAndClose : Obligations.ConnectionsOpenAndClose := by
  unfold Obligations.ConnectionsOpenAndClose
  refine ⟨?connect, ?connectAck, ?mismatch, ?again, ?teardown, ?resend, ?closes, ?erases⟩
  case connect =>
    intro s d p q c k hp hk ht hst hm
    rw [exec_connectReceive hp (.inl hk) ht, connectArrive_connect hst hm hk]
  case connectAck =>
    intro s d p q c k hp hk ht hst hm
    rw [exec_connectReceive hp (.inr hk) ht, connectArrive_connectAck hst hm hk]
  case mismatch =>
    intro s d p q c k hp hk ht hst hm
    rw [exec_connectReceive hp hk ht, connectArrive_mismatch hst hm]
  case again =>
    intro s d p q c k hp hk ht hst hm
    rw [exec_connectReceive hp (.inl hk) ht, connectArrive_again hst hm hk]
  case teardown =>
    intro s d p q c k hp hk ht hst hpeer
    exact exec_teardownReceive hp hk ht hst hpeer
  case resend => exact fun s d c => exec_connectResend
  case closes => exact fun s d c => exec_connDrainDone_closes
  case erases => exact fun s d c => exec_connDrainDone_erases

end Sys2Proof.Proofs
end

section
/-! PROOF. Timers of a connection and the answers that come for it (R120, R130 to R132, R136, R141, R143, R144, R146, R166): one lemma
for each row's condition. -/

namespace Sys2Proof.Proofs

open Sys2Proof Sys2Proof.Machine

variable {s t : State} {d : Die} {c : Nat} {p : Pkt}

/-- The end carries commands. -/
abbrev LiveEnd (k : Conn) : Prop := k.st = .established ∨ k.st = .draining

/-! ### Acknowledgements to send and flushes (R130, R131) -/

theorem exec_ackTimer {n : Nat} (hat : (conn s d c).ackAt = some n) (hdue : n ≤ s.now) : exec (.ackTimer d c) s = .next (sendAck s d c) := by
  change execAckTimer d c s = _
  simp only [execAckTimer, hat, ge_iff_le, if_pos hdue]

theorem exec_flushTimer {n : Nat} (hat : (conn s d c).flushDueAt = some n) (hdue : n ≤ s.now) :
    exec (.flushTimer d c) s = .next (startFlush s d c) := by
  change execFlushTimer d c s = _
  simp only [execFlushTimer, hat, ge_iff_le, if_pos hdue]

/-- A flush answered without a failure. -/
theorem exec_flushComplete (ht : takeReads s (.flush d c) false = some (true, t)) :
    exec (.flushComplete d c none) s = .next (flushDone t d c none) := by
  change execFlushComplete d c none s = _
  simp only [execFlushComplete, reduceCtorEq, decide_false, ht]

/-- VIS_PSN is past what the flush covered, and no flush is out. -/
abbrev visPast (s : State) (d : Die) (c : Nat) (v : BitVec 32) : State := visTo (modConn s d c fun k => { k with flushCover := none }) d c v

theorem flushDone_covers {v : BitVec 32} (hv : (conn s d c).flushCover = some v) :
    flushDone s d c none =
      if (conn (visPast s d c v) d c).awaitVis.isEmpty then visFollow (visPast s d c v) d c else startFlush (visPast s d c v) d c := by
  simp only [flushDone, hv]

/-! ### Timers of the initiating end (R132, R136, R143, R144) -/

/-- Each packet overdue is sent again and the window is cut once. -/
def resendOverdue (s : State) (d : Die) (c : Nat) (l : List TxPkt) : State :=
  lossCut (pmc (l.foldl (fun s p => resend s d c p true) s) d 455 l.length) d c

theorem exec_rtoExpiry_none (hlive : LiveEnd (conn s d c)) (hl : rtoDue s d (conn s d c) = []) :
    exec (.rtoExpiry d c) s = .next (reRequest s d c) := by
  change execRtoExpiry d c s = _
  simp only [execRtoExpiry, if_pos hlive, hl, List.foldl_nil, List.isEmpty_nil, if_true]

theorem exec_rtoExpiry_some (hlive : LiveEnd (conn s d c)) (hl : rtoDue s d (conn s d c) ≠ []) :
    exec (.rtoExpiry d c) s = .next (reRequest (resendOverdue s d c (rtoDue s d (conn s d c))) d c) := by
  change execRtoExpiry d c s = _
  simp only [execRtoExpiry, if_pos hlive, List.isEmpty_iff, if_neg hl, resendOverdue]

theorem exec_progressTimeout {n : Nat} (hlive : LiveEnd (conn s d c)) (hat : (conn s d c).progressAt = some n) (hdue : n + 2000000000 ≤ s.now) :
    exec (.progressTimeout d c) s = .next (failConn s d c 0x0A (if (conn s d c).nak4At.isSome then 0x04 else 0x03) true) := by
  change execProgressTimeout d c s = _
  simp only [execProgressTimeout, hat, ge_iff_le]
  exact if_pos ⟨hlive, hdue⟩

/-- A packet has left the connection's queue at time `now` (R136). -/
def sentPaced (now : Nat) (p : TxPkt) (l : List TxPkt) (k : Conn) : Conn :=
  { k with waitTx := l, unacked := k.unacked ++ [{ p with sentAt := now }], lastSent := now
           progressAt := match k.progressAt with | some z => some z | none => some now }

theorem exec_pacedSend {q : TxPkt} {l : List TxPkt} (hq : (conn s d c).waitTx = q :: l) (hw : (conn s d c).cwnd < q.bytes)
    (hroom : (conn s d c).unacked.length < 4096)
    (hdue : (conn s d c).lastSent + (conn s d c).srtt * q.bytes / (conn s d c).cwnd ≤ s.now) :
    exec (.pacedSend d c) s = .next (modConn (transmit s d c q false) d c (sentPaced (transmit s d c q false).now q l)) := by
  change execPacedSend d c s = _
  simp only [execPacedSend, hq]
  exact if_pos ⟨hw, hroom, hdue⟩

/-! ### A receiver that is not ready (R166) -/

theorem exec_rnrResend {v : BitVec 32} {q : TxPkt} (hv : (conn s d c).rnrPsn = some v) (hdue : (conn s d c).rnrResendAt ≤ s.now)
    (hq : ((conn s d c).unacked.find? fun p => decide (p.psn = v)) = some q) :
    exec (.rnrResend d c) s = .next (resend (modConn s d c fun k => { k with rnrPsn := none }) d c q false) := by
  change execRnrResend d c s = _
  simp only [execRnrResend, hv, ge_iff_le, if_pos hdue, hq]

/-- What EV_RNR_LIMIT says of a header. -/
def rnrEvent (s : State) (d : Die) (c : Nat) (r : ReqPkt) : Nat := evb 8 (reqCtx r) + evb 10 (conn s d c).inst + evb 12 c + evb 16 2

theorem exec_rnrLimitExpiry {n : Nat} {r : ReqPkt} (hat : (conn s d c).rnrSince = some n) (hhead : (conn s d c).rnrHead = some r)
    (hdue : n + 10000000 ≤ s.now) (hstill : rnrStill s d c r = true) (hpsn : r.psn = (conn s d c).expected) :
    exec (.rnrLimitExpiry d c) s = .next (drainHeld 8192
      (postInst (postMgmt (refusePkt s d c (conn s d c).arrCtr r (.refuse 0x0F 0x02 0x1F 0)) d 0x30 (rnrEvent s d c r)) (conn s d c).inst 0x30
        (rnrEvent s d c r)) d c) := by
  change execRnrLimitExpiry d c s = _
  simp only [execRnrLimitExpiry, hat, hhead]
  exact if_pos ⟨hdue, hstill, hpsn⟩

/-! ### An acknowledgement (R22, R130, R143) -/

/-- The packet is an acknowledgement for a live end of its peer, at a station that serves the end's owner. -/
structure TakesAck (s : State) (d : Die) (p : Pkt) (a : AckPkt) : Prop where
  body : bodyOf p = .ack a
  live : LiveEnd (conn s d a.conn)
  peer : (conn s d a.conn).peerConn = a.peer
  die : connDie a.conn = d
  station : stationTakes s d p (conn s d a.conn).inst = true

section

variable {a : AckPkt} {v : BitVec 32}

theorem exec_ackReceive (h : TakesAck s d p a) : exec (.ackReceive d p) s = .next (ackReceive s d a) := by
  change execAckReceive d p s = _
  simp only [execAckReceive, h.body]
  exact if_pos ⟨h.live, h.peer, h.die, h.station⟩

theorem ackReceive_unbound (hn : a.nak = some (v, .unbound)) :
    ackReceive s d a = pumpConn (opUnbound (pmc s d 457 1) d a.conn v) d a.conn := by
  simp only [ackReceive, hn, Option.isSome_some, if_true]

theorem ackReceive_absent (hn : a.nak = some (v, .absent)) : ackReceive s d a = failConn (pmc s d 457 1) d a.conn 0x0A 0x02 true := by
  simp only [ackReceive, hn, Option.isSome_some, if_true]

end

/-! ### The response of a GET (R120, R141) -/

/-- The bytes of a response are in local memory and counted as placed. -/
def placeResp (s : State) (r : RespPkt) (l : List (Nat × Nat)) : State :=
  let t := writePieces s ((opOf s r.handle).inst.getD 1024) (fld (opBlk (opOf s r.handle)) 16 0 64 + r.off) l r.data
  modOp t r.handle fun y => { y with placed := addNew y.placed (r.off, r.data.length), since := t.now }

section

variable {r : RespPkt} {l : List (Nat × Nat)}

theorem exec_getResponseArrive (hb : bodyOf p = .resp r) (hlive : LiveEnd (conn s d r.conn)) (hsrc : (conn s d r.conn).remoteStation = p.src)
    (hi : (inst s (conn s d r.conn).inst).st ≠ .resetting) (ht : stationTakes s d p (conn s d r.conn).inst = true) :
    exec (.getResponseArrive d p) s = .next (takeResp s d r) := by
  change execGetResponseArrive d p s = _
  simp only [execGetResponseArrive, hb]
  exact if_pos ⟨hlive, hsrc, hi, ht⟩

theorem takeResp_placed (hpull : r.pull = false) (hop : opcode (opOf s r.handle) = 0x03) (hc : (opOf s r.handle).conn = some r.conn)
    (hd : (opOf s r.handle).die = d)
    (hx : xltRange s ((conn s d r.conn).xl ++ (opOf s r.handle).xl) ((opOf s r.handle).inst.getD 1024) .lw (.target r.conn)
      (fld (opBlk (opOf s r.handle)) 16 0 64 + r.off) r.data.length = .ok l) :
    takeResp s d r = getDone (placeResp s r l) r.handle := by
  simp only [takeResp, hpull, getResponse, hop, hc, hd, hx, and_self, Bool.false_eq_true, if_true, if_false, placeResp]

end

/-! ### The end of CTX_DRAIN and CTX_CLOSE (R146) -/

section

variable {o : Nat}

theorem exec_ctxDrainDone_drain (hx : (opOf s o).phase = .ctxDrain) (hop : opcode (opOf s o) = 0x25)
    (hsends : sendsLive s (opOf s o).die ((opOf s o).inst.getD 1024) (fld (opBlk (opOf s o)) 48 0 16) = false) :
    exec (.ctxDrainDone o) s = .next (completeOp s o { code := 0 }) := by
  change execCtxDrainDone o s = _
  simp only [execCtxDrainDone, hx, hop, hsends, Bool.not_false, if_true]

theorem exec_ctxDrainDone_close (hx : (opOf s o).phase = .ctxDrain) (hop : opcode (opOf s o) ≠ 0x25)
    (hmatched : (ctxOf s (opOf s o).die ((opOf s o).inst.getD 1024) (fld (opBlk (opOf s o)) 48 0 16)).matched = []) :
    exec (.ctxDrainDone o) s = .next (completeOp s o { code := 0 }) := by
  change execCtxDrainDone o s = _
  simp only [execCtxDrainDone, hx, if_neg hop, hmatched, List.isEmpty_nil, if_true]

end

/-- Settles O21: each timer and answer by its row's own lemma; an end without progress fails with CC_UNREACHABLE, 0x0A (R143). -/
theorem connectionsTimeAndAnswer : Obligations.ConnectionsTimeAndAnswer := by
  unfold Obligations.ConnectionsTimeAndAnswer
  refine ⟨?ackTimer, ?flushTimer, ?flushed, ?rtoNone, ?rtoSome, ?paced, ?progress, ?rnrResend, ?rnrLimit, ?unbound, ?absent, ?ack, ?response,
    ?drain, ?close⟩
  case ackTimer => exact fun s d c n => exec_ackTimer
  case flushTimer => exact fun s d c n => exec_flushTimer
  case flushed =>
    intro s d c v u t ht hv
    rw [exec_flushComplete ht, flushDone_covers hv]
  case rtoNone => exact fun s d c => exec_rtoExpiry_none
  case rtoSome => exact fun s d c => exec_rtoExpiry_some
  case paced => exact fun s d c q l => exec_pacedSend
  case progress => exact fun s d c n => exec_progressTimeout
  case rnrResend => exact fun s d c v q => exec_rnrResend
  case rnrLimit => exact fun s d c n r => exec_rnrLimitExpiry
  case unbound =>
    intro s d p a v hb hlive hpeer hdie hst hn
    rw [exec_ackReceive ⟨hb, hlive, hpeer, hdie, hst⟩, ackReceive_unbound hn]
  case absent =>
    intro s d p a v hb hlive hpeer hdie hst hn
    rw [exec_ackReceive ⟨hb, hlive, hpeer, hdie, hst⟩, ackReceive_absent hn]
  case ack =>
    intro s d p a hb hlive hpeer hdie hst _
    exact exec_ackReceive ⟨hb, hlive, hpeer, hdie, hst⟩
  case response =>
    intro s d p r l k x t hb hlive hsrc hi ht hpull hop hc hd hx
    rw [exec_getResponseArrive hb hlive hsrc hi ht, takeResp_placed hpull hop hc hd hx, placeResp]
  case drain => exact fun s o => exec_ctxDrainDone_drain
  case close => exact fun s o => exec_ctxDrainDone_close

end Sys2Proof.Proofs
end

section
/-! PROOF. MG_GRANT through the mailbox (R111, R112, R149, R179, R274, R325, R326, R329, R330, R333): what each kind of grant does, the
choice that MG_GRANT makes among the kinds, and the mailbox's path to it. -/

namespace Sys2Proof.Proofs

open Sys2Proof Sys2Proof.Machine

/-! ### Each kind of grant -/

section

variable {s : State} {b : Block} {i o : Nat}

theorem zeros_append (b : Block) (l l' : List (Nat × Nat × Nat)) : zeros b (l ++ l') = true ↔ zeros b l = true ∧ zeros b l' = true := by
  rw [zeros, List.all_append, Bool.and_eq_true, zeros, zeros]

/-- CONNECTION loads an ABSENT end (R111, R112). -/
theorem grantConnection_loads (hact : fld b 41 0 1 = 0)
    (hz : zeros b [(24, 20, 12), (40, 3, 5), (41, 1, 7), (28, 20, 12), (32, 26, 6), (36, 20, 12)] = true) (ht : zeroFrom b 42 = true)
    (hmtu : fld b 40 0 3 ≤ 4) (hi : fld b 32 4 10 = i) (hstn : holdsStation s (connDie (fld b 24 0 20)) (fld b 32 0 4) = true)
    (hd : connDie (fld b 24 0 20) = instDie s i) (hst : (conn s (connDie (fld b 24 0 20)) (fld b 24 0 20)).st = .absent) :
    grantConnection s b i = .ok (grantConn s (connDie (fld b 24 0 20)) (fld b 24 0 20) { connOfGrant b with inst := i }) 0 := by
  obtain ⟨hrsv, hrest⟩ := (zeros_append b [(24, 20, 12), (40, 3, 5), (41, 1, 7)] [(28, 20, 12), (32, 26, 6), (36, 20, 12)]).mp hz
  rw [hd] at hstn hst ⊢
  simp [grantConnection, connOfGrant, hact, hrsv, hrest, ht, hmtu, hi, hstn, hd, hst]

theorem grantConnection_revokes (hact : fld b 41 0 1 = 1) (hz : zeros b [(24, 20, 12), (40, 3, 5), (41, 1, 7)] = true)
    (ht : zeroFrom b 42 = true) (h28 : fld b 28 0 96 = 0) (h40 : fld b 40 0 8 = 0)
    (hst : (conn s (connDie (fld b 24 0 20)) (fld b 24 0 20)).st ∉ [.absent, .draining])
    (hi : (conn s (connDie (fld b 24 0 20)) (fld b 24 0 20)).inst = i) :
    grantConnection s b i = .ok (revokeConn s (connDie (fld b 24 0 20)) (fld b 24 0 20)) 0 := by
  simp only [List.mem_cons, List.not_mem_nil, or_false, not_or] at hst
  obtain ⟨habsent, hdraining⟩ := hst
  simp [grantConnection, hact, hz, ht, h28, h40, hi, habsent, hdraining]

/-- The quotas of a MATCHING grant (R149). -/
abbrev setQuotas (b : Block) (x : Inst) : Inst :=
  { x with maxCtx := fld b 24 0 17, maxPosted := fld b 28 0 25, maxUnexp := fld b 32 0 24, maxUnexpKib := fld b 36 0 32 }

/-- The quotas of a MATCHING grant are within the limits of one and fit beside those of the die's other instances (R149, R154). -/
structure QuotasFit (s : State) (b : Block) (i : Nat) : Prop where
  ctx : fld b 24 0 17 ≤ 65536
  posted : fld b 28 0 25 ≤ 16777216
  unexp : fld b 32 0 24 ≤ 8388608
  ctxSum : quotaSum s (instDie s i) i (·.maxCtx) + fld b 24 0 17 ≤ 131072
  postedSum : quotaSum s (instDie s i) i (·.maxPosted) + fld b 28 0 25 ≤ 16777216
  unexpSum : quotaSum s (instDie s i) i (·.maxUnexp) + fld b 32 0 24 ≤ 8388608
  kibSum : quotaSum s (instDie s i) i (·.maxUnexpKib) + fld b 36 0 32 ≤ 1024 * bits (regVal s (instDie s i) 0xC00018) 0 16

theorem grantMatch_sets (hz : zeros b [(24, 17, 15), (28, 25, 7), (32, 24, 8)] = true) (ht : zeroFrom b 40 = true)
    (hst : (inst s i).st = .configuring ∨ (inst s i).st = .quiesced) (h : QuotasFit s b i) :
    grantMatch s b i = .ok (modInst s i (setQuotas b)) 0 := by
  obtain ⟨hctx, hposted, hunexp, hctxSum, hpostedSum, hunexpSum, hkibSum⟩ := h
  have hstate : ¬ ((inst s i).st ≠ .configuring ∧ (inst s i).st ≠ .quiesced) := by
    rcases hst with hst | hst <;> simp [hst]
  simp only [grantMatch, hz, ht, hctx, hposted, hunexp, and_self, decide_true, Bool.and_self, Bool.not_true, Bool.false_eq_true, if_false,
    if_neg hstate, gt_iff_lt, Nat.not_lt.mpr hctxSum, Nat.not_lt.mpr hpostedSum, Nat.not_lt.mpr hunexpSum, Nat.not_lt.mpr hkibSum, or_self]

theorem grantColl_joins (hact : fld b 32 0 1 = 0) (hz : zeros b [(24, 12, 20), (28, 18, 14), (32, 1, 7)] = true) (ht : zeroFrom b 33 = true)
    (hnew : ((inst s i).colls.any fun g => decide (g.1 = fld b 24 0 12)) = false) (hroom : (inst s i).colls.length < 64) :
    grantColl s b i = .ok (modInst s i fun x => { x with colls := x.colls ++ [(fld b 24 0 12, fld b 28 0 18)] }) 0 := by
  simp only [grantColl, hact, hz, ht, hnew, ge_iff_le, Nat.not_le.mpr hroom, BEq.rfl, Bool.true_or, Bool.and_self, Bool.not_true,
    Bool.false_eq_true, Nat.zero_ne_one, if_false]

theorem grantColl_leaves (hact : fld b 32 0 1 = 1) (hz : zeros b [(24, 12, 20), (28, 18, 14), (32, 1, 7)] = true) (ht : zeroFrom b 33 = true)
    (h28 : fld b 28 0 18 = 0) (hheld : ((inst s i).colls.any fun g => decide (g.1 = fld b 24 0 12)) = true) :
    grantColl s b i = .ok (instLost (modInst s i fun x => { x with colls := x.colls.filter fun g => decide (g.1 ≠ fld b 24 0 12) })
      (instDie s i) i (some (fld b 24 0 12))) 0 := by
  simp only [grantColl, hact, hz, ht, hheld, h28, BEq.rfl, Bool.or_true, Bool.and_self, Bool.not_true, Bool.false_eq_true, if_false, if_true]

theorem grantCtr_joins (hact : fld b 27 0 1 = 0) (hz : zeros b [(24, 11, 5), (26, 4, 4), (27, 1, 7)] = true) (ht : zeroFrom b 28 = true)
    (hc : fld b 24 0 11 ≤ 1535) (hfree : tget 0 (inst s i).counters (fld b 26 0 4) = 0) :
    grantCtr s b i = .ok (modInst s i fun x => { x with counters := tset 0 x.counters (fld b 26 0 4) (fld b 24 0 11 + 1) }) 0 := by
  simp [grantCtr, hact, hz, ht, hc, hfree]

theorem grantCtr_leaves (hact : fld b 27 0 1 = 1) (hz : zeros b [(24, 11, 5), (26, 4, 4), (27, 1, 7)] = true) (ht : zeroFrom b 28 = true)
    (hc : fld b 24 0 11 ≤ 1535) (hheld : tget 0 (inst s i).counters (fld b 26 0 4) ≠ 0) :
    grantCtr s b i = .ok (modInst s i fun x => { x with counters := tset 0 x.counters (fld b 26 0 4) 0 }) 0 := by
  simp [grantCtr, hact, hz, ht, hc, hheld]

/-- A TALLY grant's range. -/
abbrev tallyRange (b : Block) : Nat × Nat := (fld b 24 0 22, fld b 28 0 23)

/-- A TALLY grant in form: its range is not empty and lies on its owner's die (R326). -/
structure TallyForm (s : State) (b : Block) (i : Nat) : Prop where
  zero : zeros b [(24, 22, 10), (28, 23, 9), (32, 1, 7)] = true
  rest : zeroFrom b 33 = true
  notEmpty : 1 ≤ (tallyRange b).2
  inRange : (tallyRange b).1 + (tallyRange b).2 ≤ 4194304
  firstDie : tallyDie (tallyRange b).1 = instDie s i
  lastDie : tallyDie ((tallyRange b).1 + (tallyRange b).2 - 1) = instDie s i

theorem TallyForm.onDie (h : TallyForm s b i) :
    decide (1 ≤ (tallyRange b).2 ∧ (tallyRange b).2 ≤ 4194304 ∧ (tallyRange b).1 + (tallyRange b).2 ≤ 4194304 ∧
      tallyDie (tallyRange b).1 = instDie s i ∧ tallyDie ((tallyRange b).1 + (tallyRange b).2 - 1) = instDie s i) = true :=
  decide_eq_true ⟨h.notEmpty, (Nat.le_add_left ..).trans h.inRange, h.inRange, h.firstDie, h.lastDie⟩

theorem grantTallies_joins (hact : fld b 32 0 1 = 0) (h : TallyForm s b i)
    (hfree : (s.insts.any fun (_, y) => y.tallies.any (rangesMeet (tallyRange b))) = false) (hroom : (inst s i).tallies.length < 16) :
    grantTallies s b i = .ok (modInst (onDie s (instDie s i) fun y =>
      { y with tallies := y.tallies.filter fun (n, _) => !(decide ((tallyRange b).1 ≤ n ∧ n < (tallyRange b).1 + (tallyRange b).2)) }) i
      fun x => { x with tallies := x.tallies ++ [tallyRange b] }) 0 := by
  simp only [grantTallies, hact, h.zero, h.rest, h.onDie, hfree, ge_iff_le, Nat.not_le.mpr hroom, Bool.true_or, Bool.and_self, Bool.not_true,
    Bool.false_eq_true, Nat.zero_ne_one, if_false]

theorem grantTallies_leaves (hact : fld b 32 0 1 = 1) (h : TallyForm s b i) (hheld : tallyRange b ∈ (inst s i).tallies) :
    grantTallies s b i = .ok (dropTriggers (modInst s i fun x => { x with tallies := without x.tallies (tallyRange b) }) (tallyRange b).1
      (tallyRange b).2) 0 := by
  simp only [grantTallies, hact, h.zero, h.rest, h.onDie, hheld, Bool.true_or, Bool.and_self, Bool.not_true, Bool.false_eq_true, if_false, if_true]

theorem grantVstn_joins (hact : fld b 25 0 1 = 0) (hz : zeros b [(24, 4, 4), (25, 1, 7)] = true) (ht : zeroFrom b 26 = true)
    (hv : 4 ≤ fld b 24 0 4) (hnew : fld b 24 0 4 ∉ (inst s i).vstations) :
    grantVstn s b i = .ok (modInst s i fun x => { x with vstations := x.vstations ++ [fld b 24 0 4] }) 0 := by
  simp [grantVstn, hact, hz, ht, hv, hnew]

theorem grantVstn_leaves (hact : fld b 25 0 1 = 1) (hz : zeros b [(24, 4, 4), (25, 1, 7)] = true) (ht : zeroFrom b 26 = true)
    (hv : 4 ≤ fld b 24 0 4) (hheld : fld b 24 0 4 ∈ (inst s i).vstations) :
    grantVstn s b i = .ok (modInst s i fun x => { x with vstations := without x.vstations (fld b 24 0 4) }) 0 := by
  simp [grantVstn, hact, hz, ht, hv, hheld]

/-! ### Windows (R329, R330, R333) -/

/-- The window's number, and the descriptor that the grant gives it. -/
abbrev winNo (b : Block) : Nat := fld b 24 0 5
abbrev newWin (s : State) (b : Block) (i : Nat) : Win := winOfGrant b (nextNonce (tget {} (inst s i).wins (winNo b)).nonce)

/-- Window `w` holds its new descriptor, and what was done under the old one is marked so. -/
abbrev winSet (s : State) (d : Die) (i w : Nat) (new : Win) : State :=
  readsOld (tlbDrop (modInst s i fun x => { x with wins := tset {} x.wins w new }) d i (some w)) i (some w)

/-- A WINDOW grant in form that programs a window apart from its owner's other valid ones, or removes a valid one. -/
structure WinGrant (s : State) (b : Block) (i : Nat) : Prop where
  form : winForm b = true
  apart : (newWin s b i).valid = true → ((inst s i).wins.any fun (v, y) => decide (v ≠ winNo b) && y.valid &&
    rangesMeet ((newWin s b i).base, (newWin s b i).size * 65536) (y.base, y.size * 65536)) = false
  there : (newWin s b i).valid = false → (tget {} (inst s i).wins (winNo b)).valid = true

/-- What the grant leaves: it completes where no access under the old descriptor is outstanding, and is held where one is. -/
def winAnswer (u : State) (o i w : Nat) : MgRes := if winBusy u i w then .hold (modOp u o fun x => { x with phase := .winGrant }) else .ok u 0

theorem grantWin_eq (h : WinGrant s b i) :
    grantWin s o b i = winAnswer (winSet s (instDie s i) i (winNo b) (newWin s b i)) o i (winNo b) := by
  obtain ⟨hform, hapart, hthere⟩ := h
  cases hv : (newWin s b i).valid with
  | true => simp only [grantWin, winAnswer, hform, hv, hapart hv, Bool.not_true, Bool.and_false, Bool.false_and, Bool.false_eq_true, if_false]
  | false => simp only [grantWin, winAnswer, hform, hv, hthere hv, Bool.not_true, Bool.and_false, Bool.false_and, Bool.false_eq_true, if_false]

/-- After the mailbox's offer the grant does the same. -/
theorem grantWin_mbxOffer (h : WinGrant s b i) (B : Block) :
    grantWin (mbxOffer s B).1 o b i = winAnswer (winSet (mbxOffer s B).1 (instDie s i) i (winNo b) (newWin s b i)) o i (winNo b) :=
  grantWin_eq (s := (mbxOffer s B).1) ⟨h.form, h.apart, h.there⟩

theorem nextNonce_ne_zero (n : Nat) : nextNonce n ≠ 0 := by
  unfold nextNonce
  split
  · exact Nat.one_ne_zero
  · assumption

theorem nextNonce_lt (n : Nat) : nextNonce n < 2 ^ 17 := by
  unfold nextNonce
  split
  · decide
  · exact Nat.mod_lt _ (by decide)

theorem nextNonce_of_lt {n : Nat} (h : n + 1 < 2 ^ 17) : nextNonce n = n + 1 := by
  rw [nextNonce, Nat.mod_eq_of_lt h, if_neg (Nat.succ_ne_zero n)]

end

/-! ### The choice that MG_GRANT makes (R325) -/

/-- The operation of each kind of grant. -/
def grantOf (s : State) (o : Nat) (b : Block) (i kind : Nat) : MgRes :=
  match kind with
  | 0 => grantConnection s b i
  | 1 => grantMatch s b i
  | 2 => grantColl s b i
  | 3 => grantCtr s b i
  | 4 => grantTallies s b i
  | 5 => grantVstn s b i
  | _ => grantWin s o b i

section

variable (s : State) (o : Nat) (b : Block) (i : Nat)

theorem grantOf_connection : grantOf s o b i 0 = grantConnection s b i := rfl
theorem grantOf_matching : grantOf s o b i 1 = grantMatch s b i := rfl
theorem grantOf_collective : grantOf s o b i 2 = grantColl s b i := rfl
theorem grantOf_counter : grantOf s o b i 3 = grantCtr s b i := rfl
theorem grantOf_tally : grantOf s o b i 4 = grantTallies s b i := rfl
theorem grantOf_vstation : grantOf s o b i 5 = grantVstn s b i := rfl
theorem grantOf_window : grantOf s o b i 6 = grantWin s o b i := rfl

end

/-- A grant in form, to an owner that is there, in a mailbox that takes it. -/
structure MbxGrant (s : State) (B : Block) (kind : Nat) : Prop where
  ready : mbxReady s B = true
  opcode : fld B 0 0 8 = 0xE7
  known : fld B 22 0 4 = kind ∧ kind ≤ 6
  zero : zeros B [(20, 10, 6), (22, 4, 4), (23, 0, 8)] = true
  oneDie : bothDies B = false
  there : (inst s (fld B 20 0 10)).st ≠ .absent

section

variable {s t : State} {B b : Block} {c : List Block} {kind y lo a : Nat}

theorem mgGrant_kind (h : MbxGrant s B kind) (o : Nat) : mgGrant (mbxOffer s B).1 o B = grantOf (mbxOffer s B).1 o B (fld B 20 0 10) kind := by
  obtain ⟨hkind, hk⟩ := h.known
  have hbody : mgBody B = B := by rw [mgBody, mbxReady_chain s B h.ready]; rfl
  simp only [mgGrant, hbody, hkind, h.zero, h.oneDie, hk, inst_mbxOffer, if_neg h.there, decide_true, Bool.not_false, Bool.and_self, Bool.not_true,
    Bool.false_eq_true, if_false]
  rfl

/-- The grant's operation on the state that the mailbox's offer leaves. -/
abbrev offeredGrant (s : State) (B : Block) (kind : Nat) : MgRes := grantOf (mbxOffer s B).1 (mbxOffer s B).2 B (fld B 20 0 10) kind

/-- MG_GRANT in the mailbox, where its operation answers CC_OK. -/
theorem mailbox_grant_ok (h : MbxGrant s B kind) (ht : offeredGrant s B kind = .ok t 0) :
    Host.Outcome.next (taxia s .mailbox B c) =
      (.next (completeOp t (mbxOffer s B).2 { code := 0, result := 0 }) : Host.Outcome State Fault Refusal) := by
  rw [mbx_ok s B c 0xE7 t 0 h.opcode (by omega) (by omega) h.ready]
  exact (mgRun_E7 _ _ _ _ h.opcode (mbxReady_target s B h.ready)).trans ((mgGrant_kind h _).trans ht)

/-- MG_GRANT in the mailbox, where its record comes later. -/
theorem mailbox_grant_hold (h : MbxGrant s B kind) (ht : offeredGrant s B kind = .hold t) :
    Host.Outcome.next (taxia s .mailbox B c) = (.next t : Host.Outcome State Fault Refusal) := by
  rw [mbx_hold s B c 0xE7 t h.opcode (by omega) (by omega) h.ready]
  exact (mgRun_E7 _ _ _ _ h.opcode (mbxReady_target s B h.ready)).trans ((mgGrant_kind h _).trans ht)

/-- The block of a grant of a kind. -/
abbrev grantBlk (b : Block) (kind : Nat) : Block := rowBlk b 0xE7 [(22, 0, 4, kind)]
/-- The block of a grant of a kind with its REVOKE bit at byte `y`. -/
abbrev revokeBlk (b : Block) (kind y a : Nat) : Block := rowBlk b 0xE7 [(22, 0, 4, kind), (y, 0, 1, a)]

theorem mbxGrant_grantBlk (hk : kind ≤ 6) (hr : mbxReady s (grantBlk b kind) = true)
    (hz : zeros (grantBlk b kind) [(20, 10, 6), (22, 4, 4), (23, 0, 8)] = true) (hd : bothDies (grantBlk b kind) = false)
    (hi : (inst s (fld (grantBlk b kind) 20 0 10)).st ≠ .absent) : MbxGrant s (grantBlk b kind) kind where
  ready := hr
  opcode := fld_rowBlk_op b 0xE7 _ (by simp)
  known := ⟨by rw [fld_rowBlk_one b 0xE7 22 0 4 kind (by omega), Nat.mod_eq_of_lt (by omega)], hk⟩
  zero := hz
  oneDie := hd
  there := hi

theorem mbxGrant_revokeBlk (hk : kind ≤ 6) (hy : 23 ≤ y) (hr : mbxReady s (revokeBlk b kind y a) = true)
    (hz : zeros (revokeBlk b kind y a) [(20, 10, 6), (22, 4, 4), (23, 0, 8)] = true) (hd : bothDies (revokeBlk b kind y a) = false)
    (hi : (inst s (fld (revokeBlk b kind y a) 20 0 10)).st ≠ .absent) : MbxGrant s (revokeBlk b kind y a) kind where
  ready := hr
  opcode := fld_rowBlk_op b 0xE7 _ (by simp; omega)
  known := ⟨by rw [fld_rowBlk_fst b 0xE7 22 0 4 kind _ (by omega) (.inl (by dsimp only; omega)), Nat.mod_eq_of_lt (by omega)], hk⟩
  zero := hz
  oneDie := hd
  there := hi

@[simp] theorem holdsStation_mbxOffer (s : State) (b : Block) (d : Die) (n : Nat) :
    holdsStation (mbxOffer s b).1 d n = holdsStation s d n := rfl

/-- The REVOKE bit of such a block. -/
theorem revokeBit (b : Block) (kind : Nat) (hy : y < 64) (ha : a < 2) : fld (revokeBlk b kind y a) y 0 1 = a := by
  rw [fld_rowBlk_snd b 0xE7 _ y 0 1 a (by omega), Nat.mod_eq_of_lt (by omega)]

end

/-- Settles O4: each grant's operation on the state that the mailbox's offer leaves, whose instances, connections, registers and dies
are those before it; that a window's grant is held for accesses of the old descriptor is the model's choice (log entry 117). -/
theorem grantsAndWindowsAct : Obligations.GrantsAndWindowsAct := by
  unfold Obligations.GrantsAndWindowsAct
  refine ⟨?connection, ?connectionRevoked, ?matching, ?collective, ?collectiveRevoked, ?counter, ?counterRevoked, ?tally, ?tallyRevoked,
    ?vstation, ?vstationRevoked, ?window, ?windowHeld, ?nonce⟩
  case connection =>
    intro s b c B p i hr hz hd hi hzero hrest hmtu hinst hstn hdie hst
    rw [← holdsStation_mbxOffer s B] at hstn
    rw [← instDie_mbxOffer s B] at hdie
    rw [← conn_mbxOffer s B] at hst
    exact mailbox_grant_ok (mbxGrant_revokeBlk (by decide) (by decide) hr hz hd hi)
      ((grantOf_connection ..).trans (grantConnection_loads (revokeBit b 0 (by decide) (by decide)) hzero hrest hmtu hinst hstn hdie hst))
  case connectionRevoked =>
    intro s b c B p i hr hz hd hi hzero hrest h28 h40 hst hinst
    rw [← conn_mbxOffer s B] at hst hinst
    exact mailbox_grant_ok (mbxGrant_revokeBlk (by decide) (by decide) hr hz hd hi)
      ((grantOf_connection ..).trans (grantConnection_revokes (revokeBit b 0 (by decide) (by decide)) hzero hrest h28 h40 hst hinst))
  case matching =>
    intro s b c B p i hr hz hd hi hzero hrest hctx hposted hunexp hst hctxSum hpostedSum hunexpSum hkibSum
    rw [← inst_mbxOffer s B] at hst
    rw [← quotaSum_mbxOffer s B, ← instDie_mbxOffer s B] at hctxSum hpostedSum hunexpSum hkibSum
    rw [← regVal_mbxOffer s B] at hkibSum
    exact mailbox_grant_ok (mbxGrant_grantBlk (by decide) hr hz hd hi)
      ((grantOf_matching ..).trans (grantMatch_sets hzero hrest hst ⟨hctx, hposted, hunexp, hctxSum, hpostedSum, hunexpSum, hkibSum⟩))
  case collective =>
    intro s b c B p i hr hz hd hi hzero hrest hnew hroom
    rw [← inst_mbxOffer s B] at hnew hroom
    exact mailbox_grant_ok (mbxGrant_revokeBlk (by decide) (by decide) hr hz hd hi)
      ((grantOf_collective ..).trans (grantColl_joins (revokeBit b 2 (by decide) (by decide)) hzero hrest hnew hroom))
  case collectiveRevoked =>
    intro s b c B p i hr hz hd hi hzero hrest h28 hheld
    rw [← inst_mbxOffer s B] at hheld
    rw [← instDie_mbxOffer s B]
    exact mailbox_grant_ok (mbxGrant_revokeBlk (by decide) (by decide) hr hz hd hi)
      ((grantOf_collective ..).trans (grantColl_leaves (revokeBit b 2 (by decide) (by decide)) hzero hrest h28 hheld))
  case counter =>
    intro s b c B p i hr hz hd hi hzero hrest hc hfree
    rw [← inst_mbxOffer s B] at hfree
    exact mailbox_grant_ok (mbxGrant_revokeBlk (by decide) (by decide) hr hz hd hi)
      ((grantOf_counter ..).trans (grantCtr_joins (revokeBit b 3 (by decide) (by decide)) hzero hrest hc hfree))
  case counterRevoked =>
    intro s b c B p i hr hz hd hi hzero hrest hc hheld
    rw [← inst_mbxOffer s B] at hheld
    exact mailbox_grant_ok (mbxGrant_revokeBlk (by decide) (by decide) hr hz hd hi)
      ((grantOf_counter ..).trans (grantCtr_leaves (revokeBit b 3 (by decide) (by decide)) hzero hrest hc hheld))
  case tally =>
    intro s b c B p i r hr hz hd hi hzero hrest hsome hin hfirst hlast hfree hroom
    rw [← inst_mbxOffer s B] at hroom
    rw [← instDie_mbxOffer s B] at hfirst hlast ⊢
    rw [← mbxOffer_insts s B] at hfree
    exact mailbox_grant_ok (mbxGrant_revokeBlk (by decide) (by decide) hr hz hd hi)
      ((grantOf_tally ..).trans (grantTallies_joins (revokeBit b 4 (by decide) (by decide)) ⟨hzero, hrest, hsome, hin, hfirst, hlast⟩ hfree hroom))
  case tallyRevoked =>
    intro s b c B p i r hr hz hd hi hzero hrest hsome hin hfirst hlast hheld
    rw [← inst_mbxOffer s B] at hheld
    rw [← instDie_mbxOffer s B] at hfirst hlast
    exact mailbox_grant_ok (mbxGrant_revokeBlk (by decide) (by decide) hr hz hd hi)
      ((grantOf_tally ..).trans (grantTallies_leaves (revokeBit b 4 (by decide) (by decide)) ⟨hzero, hrest, hsome, hin, hfirst, hlast⟩ hheld))
  case vstation =>
    intro s b c B p i hr hz hd hi hzero hrest hv hnew
    rw [← inst_mbxOffer s B] at hnew
    exact mailbox_grant_ok (mbxGrant_revokeBlk (by decide) (by decide) hr hz hd hi)
      ((grantOf_vstation ..).trans (grantVstn_joins (revokeBit b 5 (by decide) (by decide)) hzero hrest hv hnew))
  case vstationRevoked =>
    intro s b c B p i hr hz hd hi hzero hrest hv hheld
    rw [← inst_mbxOffer s B] at hheld
    exact mailbox_grant_ok (mbxGrant_revokeBlk (by decide) (by decide) hr hz hd hi)
      ((grantOf_vstation ..).trans (grantVstn_leaves (revokeBit b 5 (by decide) (by decide)) hzero hrest hv hheld))
  case window =>
    intro s b c B p i w old new t hr hz hd hi hform hapart hthere hbusy
    exact mailbox_grant_ok (mbxGrant_grantBlk (by decide) hr hz hd hi)
      ((grantOf_window ..).trans ((grantWin_mbxOffer ⟨hform, hapart, hthere⟩ B).trans (if_neg (by rw [hbusy]; exact Bool.false_ne_true))))
  case windowHeld =>
    intro s b c B p i w old new t hr hz hd hi hform hapart hthere hbusy
    exact mailbox_grant_hold (mbxGrant_grantBlk (by decide) hr hz hd hi)
      ((grantOf_window ..).trans ((grantWin_mbxOffer ⟨hform, hapart, hthere⟩ B).trans (if_pos hbusy)))
  case nonce => exact fun n _ => ⟨nextNonce_ne_zero n, nextNonce_lt n, nextNonce_of_lt⟩

end Sys2Proof.Proofs
end

section
/-! PROOF. Interrupt sources, event rings and the predictor (R173, R327, R328, R374 to R379): what each operation does to a source or a
ring, one lemma for each row's condition. -/

namespace Sys2Proof.Proofs

open Sys2Proof Sys2Proof.Machine

variable {s : State} {d : Die} {c g i j n : Nat} {v : BitVec 32} {x : Src} {e : EvtRing} {k : Nat} {en : Bool}

/-! ### Raising and delivering a source (R374 to R376, R379) -/

/-- In Standby only the always-on sources, from 1,984, are powered (R380). -/
theorem raiseLocal_powered (hn : neverRaised n = false) (hp : s.sys.mode ≠ .standby ∨ 1984 ≤ n) :
    raiseLocal s d n = modSrc s d n fun x => { x with st := raised x.st } := by
  have hon : (decide (s.sys.mode = .standby) && decide (n < 1984)) = false := by
    rcases hp with hmode | hsrc
    · rw [decide_eq_false hmode, Bool.false_and]
    · rw [decide_eq_false (Nat.not_lt.mpr hsrc), Bool.and_false]
  simp only [raiseLocal, hn, hon, Bool.or_false, Bool.false_eq_true, if_false]

/-- A group is not held off while its timer is 0. -/
theorem intDeliver_open (hfree : tget 0 (die s d).eng.groupTill (srcGroup s d n) = 0) :
    intDeliver s d n =
      if (deliverSrc s d n).2 then startGroup (deliverSrc s d n).1 d (srcGroup s d n) else (deliverSrc s d n).1 := by
  have hidle : groupBusy s d (srcGroup s d n) = false := decide_eq_false (not_not.mpr hfree)
  simp only [intDeliver, hidle, Bool.false_eq_true, if_false]

/-- The group's timer is over. -/
abbrev groupOpened (s : State) (d : Die) (g : Nat) : State := onEng s d fun e => { e with groupTill := tset 0 e.groupTill g 0 }

/-- The pending sources of a group, in order. -/
abbrev groupPending (s : State) (d : Die) (g : Nat) : List Nat :=
  ((die s d).eng.srcs.filter fun (n, x) => decide (x.st = .pending ∧ srcGroup s d n = g)).map (·.1)

/-- Sources delivered one after the other, and whether any was. -/
abbrev deliverAll (s : State) (d : Die) (l : List Nat) : State × Bool :=
  l.foldl (fun (a : State × Bool) n => ((deliverSrc a.1 d n).1, a.2 || (deliverSrc a.1 d n).2)) (s, false)

theorem holdoffExpire_due (ht : tget 0 (die s d).eng.groupTill g ≠ 0) (hdue : tget 0 (die s d).eng.groupTill g ≤ s.now + 1) :
    holdoffExpire s d g =
      let r := deliverAll (groupOpened s d g) d (groupPending (groupOpened s d g) d g)
      if r.2 then startGroup r.1 d g else r.1 := by
  unfold holdoffExpire
  exact if_pos ⟨ht, hdue⟩

/-! ### Claim, completion and message (R375 to R377) -/

theorem exec_intClaim_some (h : claimPick s d c = some n) :
    exec (.intClaim d c) s = .next (emit (modSrc s d n fun x => { x with claimed := true })
      (.regData (.cp d c) (regOff d (0x411000 + 16 * c)) (2048 * d.idx + n))) := by
  change execIntClaim d c s = _
  simp only [execIntClaim, intClaim, h]

theorem exec_intClaim_none (h : claimPick s d c = none) :
    exec (.intClaim d c) s = .next (emit (pmc s d 715 1) (.regData (.cp d c) (regOff d (0x411000 + 16 * c)) 0xFFF)) := by
  change execIntClaim d c s = _
  simp only [execIntClaim, intClaim, h]

theorem intComplete_claimed {w : Nat} (hdie : bits w 11 1 = d.idx) (hclaim : (src s d (bits w 0 11)).claimed = true)
    (hcur : (src s d (bits w 0 11)).cur = some j) (hcore : tgtCore (srcTgt s d (bits w 0 11) j) = some c) :
    intComplete s d c w = modSrc s d (bits w 0 11) srcEnded := by
  simp only [intComplete, hdie, hclaim, hcur, hcore, decide_true, and_self, if_true]

theorem vecMasked_of_unmasked {f : FnId} {vec : Nat} (h : vec ∈ (fnOf s f).unmasked) : vecMasked s f vec = false := by
  rw [vecMasked, List.contains_iff_mem.mpr h, Bool.not_true]

theorem msixWritten_unmasked (hcur : (src s d n).cur = some j) (hst : (src s d n).st = .active ∨ (src s d n).st = .activePending)
    (hmsix : tgtCore (srcTgt s d n j) = none)
    (hopen : tgtVec (srcTgt s d n j) ∈ (fnOf s (tgtFn d (srcTgt s d n j))).unmasked) :
    msixWritten s d n = msixSend (modSrc s d n srcEnded) (tgtFn d (srcTgt s d n j)) (tgtVec (srcTgt s d n j)) := by
  simp only [msixWritten, hcur, if_pos hst, hmsix, vecMasked_of_unmasked hopen, Bool.false_eq_true, if_false]

/-! ### The next state of a source (R376) -/

theorem srcEnded_activePending (h : x.st = .activePending) : (srcEnded x).st = .pending := by
  simp only [srcEnded, h]

theorem srcEnded_active (h : x.st = .active) : (srcEnded x).st = if x.level then .pending else .idle := by
  simp only [srcEnded, h]

theorem srcWithdrawn_pending (h : x.st = .pending) : srcWithdrawn s d n x = { x with st := .idle } := by
  simp only [srcWithdrawn, h]

theorem srcWithdrawn_active (h : x.st = .active) :
    srcWithdrawn s d n x = if coreWaits s d n x then { x with st := .idle, cur := none } else x := by
  simp only [srcWithdrawn, h]

/-! ### Event heads (R327, R328) -/

/-- The records that the event head write `v` returns. -/
abbrev evtDist (e : EvtRing) (k : Nat) (v : BitVec 32) : Nat := headDist k e.lap e.head (bit v.toNat 20) (bits v.toNat 0 16)

theorem evtHeadWrite_tooFar (h : e.written < evtDist e k v) : evtHeadWrite e k en v = (e, false) := by
  unfold evtHeadWrite
  exact if_pos h

/-- The write fires where it arms an enabled interrupt over records that stay written. -/
theorem evtHeadWrite_returns (h : evtDist e k v ≤ e.written) :
    evtHeadWrite e k en v =
      let fire := bit v.toNat 31 && en && decide (0 < e.written - evtDist e k v)
      ({ e with head := bits v.toNat 0 16, lap := bit v.toNat 20, written := e.written - evtDist e k v, arm := bit v.toNat 31 && !fire }, fire) := by
  unfold evtHeadWrite
  exact if_neg (Nat.not_lt.mpr h)

theorem instHeadWrite_there (hst : (inst s i).st ≠ .absent) (hring : (inst s i).evtBase ≠ 0) :
    instHeadWrite s i v =
      let r := evtHeadWrite (inst s i).evt (inst s i).evtLog2 (inst s i).evtIntEn v
      let u := modInst s i fun x => { x with evt := r.1 }
      if r.2 then raiseSource u (instDie u i) (inst s i).evtIntSource else u := by
  unfold instHeadWrite
  exact if_neg (not_or.mpr ⟨hst, hring⟩)

theorem exec_eventHeadWrite (hf : forensic s = false) : exec (.eventHeadWrite i v) s = .next (instHeadWrite s i v) := by
  change execEventHeadWrite i v s = _
  simp only [execEventHeadWrite, hf, Bool.false_eq_true, if_false]

theorem mgtHeadWrite_enabled (hen : bit (regVal s d 0x308) 31 = true) :
    mgtHeadWrite s d v =
      let r := evtHeadWrite (die s d).evt (bits (regVal s d 0x308) 0 5) (bit (regVal s d 0x308) 30) v
      let u := onDie s d fun x => { x with evt := r.1 }
      if r.2 then raiseSource u d (bits (regVal s d 0x308) 12 12) else u := by
  unfold mgtHeadWrite
  exact if_pos hen

theorem exec_mgtEvtHeadWrite (hf : forensic s = false) : exec (.mgtEvtHeadWrite d v) s = .next (mgtHeadWrite s d v) := by
  change execMgtEvtHeadWrite d v s = _
  simp only [execMgtEvtHeadWrite, hf, Bool.false_eq_true, if_false]

theorem exec_mgtEvtEnable_disabled (hen : bit (regVal s d 0x308) 31 = false) : exec (.mgtEvtEnable d) s = .next (mgtEvtStart s d) := by
  change execMgtEvtEnable d s = _
  simp only [execMgtEvtEnable, hen, Bool.false_eq_true, if_false]

/-- Settles O38: each row by its operation's own lemma. LOST kept at EN is log entry 119, a standing level that makes an idle source
pending log entry 132. -/
theorem interruptsAndEventRingsAct : Obligations.InterruptsAndEventRingsAct := by
  unfold Obligations.InterruptsAndEventRingsAct
  refine ⟨?raise, ?raiseWrite, ?delivered, ?undelivered, ?claimed, ?spurious, ?complete, ?message, ?msixOff, ?holdoff, ?ended, ?withdrawn,
    ?takenBack, ?kept, ?level, ?instHead, ?mgtHead, ?mgtEnable, ?flush, ?headWrite⟩
  case raise | raiseWrite => exact fun s d n hn hp => congrArg Host.Outcome.next (raiseLocal_powered hn hp)
  case delivered =>
    intro s d n r hfree hr
    exact congrArg Host.Outcome.next ((intDeliver_open hfree).trans (if_pos hr))
  case undelivered =>
    intro s d n r hfree hr
    exact congrArg Host.Outcome.next ((intDeliver_open hfree).trans (if_neg (Bool.eq_false_iff.mp hr)))
  case claimed => exact fun s d c n => exec_intClaim_some
  case spurious => exact fun s d c => exec_intClaim_none
  case complete =>
    intro s d c j v hdie hclaim hcur hcore
    exact congrArg Host.Outcome.next (intComplete_claimed hdie hclaim hcur hcore)
  case message =>
    intro s d n j hcur hst hmsix hopen
    exact congrArg Host.Outcome.next (msixWritten_unmasked hcur hst hmsix hopen)
  case msixOff => exact fun s f => rfl
  case holdoff =>
    intro s d g t u l r ht hdue
    exact congrArg Host.Outcome.next (holdoffExpire_due ht hdue)
  case ended => exact fun x => ⟨rfl, srcEnded_activePending, srcEnded_active⟩
  case withdrawn => exact fun s d n x => srcWithdrawn_pending
  case takenBack => exact fun s d n x h hwaits => (srcWithdrawn_active h).trans (if_pos hwaits)
  case kept => exact fun s d n x h hwaits => (srcWithdrawn_active h).trans (if_neg (Bool.eq_false_iff.mp hwaits))
  case level => exact fun x hlevel hidle => if_pos ⟨hlevel, hidle⟩
  case instHead =>
    intro s i v r u hf hst hring
    exact (exec_eventHeadWrite hf).trans (congrArg Host.Outcome.next (instHeadWrite_there hst hring))
  case mgtHead =>
    intro s d v c r u hf hen
    exact (exec_mgtEvtHeadWrite hf).trans (congrArg Host.Outcome.next (mgtHeadWrite_enabled hen))
  case mgtEnable =>
    intro s d u hen
    exact exec_mgtEvtEnable_disabled hen
  case flush => exact fun s d => rfl
  case headWrite =>
    intro e k en v dist r
    refine ⟨evtHeadWrite_tooFar, fun hd => ?_⟩
    have hleft : 0 < e.written - dist ↔ dist < e.written := Nat.sub_pos_iff_lt
    simp only [r, evtHeadWrite_returns hd, hleft, dist, and_self]

end Sys2Proof.Proofs
end

section
/-! PROOF. The Bindery's arithmetic on integers (R189): a node's combination is an operation on machine words. -/

namespace Sys2Proof.Proofs

open Sys2Proof Sys2Proof.Machine

variable {w : Nat} {h : BndHead} {a b : BitVec w}

/-! ### The operations on words; the lesser and the greater are those of the integers that the words spell -/

/-- The signed lesser of two words. -/
def wordMin (a b : BitVec w) : BitVec w := if b.slt a then b else a

/-- The signed greater of two words. -/
def wordMax (a b : BitVec w) : BitVec w := if a.slt b then b else a

theorem toInt_wordMin : (wordMin a b).toInt = min a.toInt b.toInt := by
  simp only [wordMin, BitVec.slt_eq_decide, decide_eq_true_eq]
  split <;> omega

theorem toInt_wordMax : (wordMax a b).toInt = max a.toInt b.toInt := by
  simp only [wordMax, BitVec.slt_eq_decide, decide_eq_true_eq]
  split <;> omega

/-- The reduction of two words that an `op` code stands for. -/
def wordOp : Nat → BitVec w → BitVec w → BitVec w
  | 0, a, b => a + b
  | 1, a, b => wordMin a b
  | 2, a, b => wordMax a b
  | 3, a, b => a &&& b
  | 4, a, b => a ||| b
  | _, a, b => a ^^^ b

theorem wordOp_comm (op : Nat) (a b : BitVec w) : wordOp op a b = wordOp op b a := by
  match op with
  | 0 => exact BitVec.add_comm a b
  | 1 => exact BitVec.toInt_inj.mp (by simp only [wordOp, toInt_wordMin, min_comm])
  | 2 => exact BitVec.toInt_inj.mp (by simp only [wordOp, toInt_wordMax, max_comm])
  | 3 => exact BitVec.and_comm a b
  | 4 => exact BitVec.or_comm a b
  | _ + 5 => exact BitVec.xor_comm a b

theorem wordOp_assoc (op : Nat) (a b c : BitVec w) : wordOp op (wordOp op a b) c = wordOp op a (wordOp op b c) := by
  match op with
  | 0 => exact BitVec.add_assoc a b c
  | 1 => exact BitVec.toInt_inj.mp (by simp only [wordOp, toInt_wordMin, min_assoc])
  | 2 => exact BitVec.toInt_inj.mp (by simp only [wordOp, toInt_wordMax, max_assoc])
  | 3 => exact BitVec.and_assoc a b c
  | 4 => exact BitVec.or_assoc a b c
  | _ + 5 => exact BitVec.xor_assoc a b c

/-! ### The model's elements are words -/

/-- The element that holds a word. -/
abbrev wordElem (a : BitVec w) : BndElem := { bzero with val := a.toNat }

theorem sval_toNat (a : BitVec w) : sval w a.toNat = a.toInt := by
  have hbit : bit a.toNat (w - 1) = a.msb := by
    rw [BitVec.msb_eq_getLsbD_last, BitVec.getLsbD, Nat.testBit_eq_decide_div_mod_eq]
    rfl
  rw [sval, hbit, BitVec.toInt_eq_msb_cond]
  norm_cast

theorem elemIn_word (hint : isFloat h.ty = false) : elemIn h a.toNat = wordElem a := by
  simp only [elemIn, hint, Bool.not_false, if_true]

theorem elemOut_word (hint : isFloat h.ty = false) : elemOut h (wordElem a) = (a.toNat, false, false) := by
  simp only [elemOut, hint, Bool.not_false, if_true, Int.toNat_natCast]

/-- Two elements of an integer type combine as their words do. -/
theorem elemAdd_word (hint : isFloat h.ty = false) (hsize : 8 * elemSize h.ty = w) (a b : BitVec w) :
    elemAdd h (wordElem a) (wordElem b) = wordElem (wordOp h.op a b) := by
  simp only [elemAdd, hint, hsize, Bool.not_false, if_true, Int.toNat_natCast, sval_toNat, wordElem]
  congr 1
  match h.op with
  | 0 => simp only [wordOp, BitVec.toNat_add]
  | 1 => simp only [wordOp, wordMin, BitVec.slt_eq_decide, decide_eq_true_eq, apply_ite BitVec.toNat, apply_ite Nat.cast]
  | 2 => simp only [wordOp, wordMax, BitVec.slt_eq_decide, decide_eq_true_eq, apply_ite BitVec.toNat, apply_ite Nat.cast]
  | 3 => simp only [wordOp, BitVec.toNat_and]
  | 4 => simp only [wordOp, BitVec.toNat_or]
  | _ + 5 => simp only [wordOp, BitVec.toNat_xor]

/-- The obligation's clauses for one integer type, of words as wide as its elements. -/
theorem integerReductions {ty : Nat} (hint : isFloat ty = false) (hsize : 8 * elemSize ty = w) (a b c : BitVec w) (x : Bool) :
    let h : Nat → BndHead := fun op => { opcode := 0x42, op := op, ty := ty, exact := x, count := 1, root := 0 }
    let e : BitVec w → BndElem := fun v => elemIn (h 0) v.toNat
    elemAdd (h 0) (e a) (e b) = e (a + b) ∧ elemAdd (h 1) (e a) (e b) = e (if b.slt a then b else a) ∧
    elemAdd (h 2) (e a) (e b) = e (if a.slt b then b else a) ∧ elemAdd (h 3) (e a) (e b) = e (a &&& b) ∧
    elemAdd (h 4) (e a) (e b) = e (a ||| b) ∧ elemAdd (h 5) (e a) (e b) = e (a ^^^ b) ∧
    (∀ op, op ≤ 5 → elemAdd (h op) (e a) (e b) = elemAdd (h op) (e b) (e a) ∧
      elemAdd (h op) (elemAdd (h op) (e a) (e b)) (e c) = elemAdd (h op) (e a) (elemAdd (h op) (e b) (e c)) ∧
      elemIn (h op) a.toNat = e a ∧ elemOut (h op) (e a) = (a.toNat, false, false)) := by
  intro h e
  have he (v : BitVec w) : e v = wordElem v := elemIn_word hint
  have hadd (op : Nat) (v u : BitVec w) : elemAdd (h op) (wordElem v) (wordElem u) = wordElem (wordOp op v u) :=
    elemAdd_word (h := h op) hint hsize v u
  simp only [he, hadd]
  refine ⟨rfl, rfl, rfl, rfl, rfl, rfl, fun op _ => ⟨?comm, ?assoc, elemIn_word hint, elemOut_word hint⟩⟩
  case comm => rw [wordOp_comm]
  case assoc => rw [wordOp_assoc]

/-- Settles O50: int32 and int64 are the two integer types, of 32-bit and 64-bit words. -/
theorem integerReductionsAreExact : Obligations.IntegerReductionsAreExact := by
  unfold Obligations.IntegerReductionsAreExact
  exact ⟨integerReductions rfl rfl, integerReductions rfl rfl⟩

end Sys2Proof.Proofs
end

section
/-! PROOF. The Bindery's arithmetic on floating-point numbers. For a minimum or maximum (R190) a node keeps the better of two elements
in the order of `fpKey`, which puts −0 below +0 and follows the values. The partials of an exact-mode sum (R192, R193) form a
commutative monoid, of which `bzero` is the unit, so that a total depends on the multiset of contributions alone. -/

namespace Sys2Proof.Proofs

open Sys2Proof Sys2Proof.Machine

variable {h : BndHead} {t : FpT} {x y z : Nat} {l : List Nat}

theorem isFloat_of_two_le {ty : Nat} (hty : 2 ≤ ty) : isFloat ty = true := decide_eq_true hty

/-! ### The better of two contributions -/

/-- Of two contributions the one that a node keeps. -/
def fpPick (h : BndHead) (x y : Nat) : Nat := if decide (fpKey (fpOf h.ty) y < fpKey (fpOf h.ty) x) == decide (h.op = 1) then y else x

/-- `x` is as good as `y`: not greater for a minimum, not less for a maximum. -/
def FpBest (h : BndHead) (x y : Nat) : Prop :=
  (h.op = 1 → fpKey (fpOf h.ty) x ≤ fpKey (fpOf h.ty) y) ∧ (h.op = 2 → fpKey (fpOf h.ty) y ≤ fpKey (fpOf h.ty) x)

theorem FpBest.refl (x : Nat) : FpBest h x x := ⟨fun _ => le_rfl, fun _ => le_rfl⟩

theorem FpBest.trans (hxy : FpBest h x y) (hyz : FpBest h y z) : FpBest h x z :=
  ⟨fun hop => (hxy.1 hop).trans (hyz.1 hop), fun hop => (hyz.2 hop).trans (hxy.2 hop)⟩

theorem fpPick_mem (x y : Nat) : fpPick h x y = x ∨ fpPick h x y = y := (ite_eq_or_eq ..).symm

theorem fpKey_fpPick_min (hop : h.op = 1) (x y : Nat) :
    fpKey (fpOf h.ty) (fpPick h x y) = min (fpKey (fpOf h.ty) x) (fpKey (fpOf h.ty) y) := by
  simp only [fpPick, hop, decide_true, beq_true, decide_eq_true_eq]
  split <;> omega

theorem fpKey_fpPick_max (hop : h.op = 2) (x y : Nat) :
    fpKey (fpOf h.ty) (fpPick h x y) = max (fpKey (fpOf h.ty) x) (fpKey (fpOf h.ty) y) := by
  have hnotMin : decide (h.op = 1) = false := by rw [hop]; rfl
  simp only [fpPick, hnotMin, beq_false, Bool.not_eq_true', decide_eq_false_iff_not]
  split <;> omega

theorem fpPick_best (x y : Nat) : FpBest h (fpPick h x y) x ∧ FpBest h (fpPick h x y) y := by
  refine ⟨⟨fun hop => ?_, fun hop => ?_⟩, ⟨fun hop => ?_, fun hop => ?_⟩⟩
  · exact fpKey_fpPick_min hop x y ▸ min_le_left ..
  · exact fpKey_fpPick_max hop x y ▸ le_max_left ..
  · exact fpKey_fpPick_min hop x y ▸ min_le_right ..
  · exact fpKey_fpPick_max hop x y ▸ le_max_right ..

theorem foldl_fpPick_mem (x : Nat) (l : List Nat) : l.foldl (fpPick h) x ∈ x :: l := by
  induction l generalizing x with
  | nil => exact List.mem_singleton_self x
  | cons y l ih =>
    have hpick : fpPick h x y ∈ x :: y :: l := by
      rcases fpPick_mem (h := h) x y with hx | hy
      · rw [hx]; exact List.mem_cons_self
      · rw [hy]; exact List.mem_cons_of_mem _ List.mem_cons_self
    rcases List.mem_cons.mp (ih (fpPick h x y)) with hr | hr
    · rw [List.foldl_cons, hr]; exact hpick
    · exact List.mem_cons_of_mem _ (List.mem_cons_of_mem _ hr)

theorem foldl_fpPick_best (x : Nat) (l : List Nat) : ∀ y ∈ x :: l, FpBest h (l.foldl (fpPick h) x) y := by
  induction l generalizing x with
  | nil => exact List.forall_mem_singleton.mpr (FpBest.refl x)
  | cons y l ih =>
    obtain ⟨hpick, hrest⟩ := List.forall_mem_cons.mp (ih (fpPick h x y))
    obtain ⟨hx, hy⟩ := fpPick_best x y
    exact List.forall_mem_cons.mpr ⟨hpick.trans hx, List.forall_mem_cons.mpr ⟨hpick.trans hy, hrest⟩⟩

/-! ### The fold at the tree's nodes -/

theorem elemIn_minMax (hty : 2 ≤ h.ty) (hop : h.op ≠ 0) (x : Nat) :
    (elemIn h x).val.toNat = x ∧ (elemIn h x).nan = (accOf (fpOf h.ty) x).nan := by
  simp only [Int.toNat_natCast, and_self, elemIn, marks, isFloat_of_two_le hty, hop, Bool.not_true, Bool.false_eq_true, if_false, ne_eq,
    not_false_eq_true, if_true]

theorem elemAdd_minMax (hty : 2 ≤ h.ty) (hop : h.op ≠ 0) (a b : BndElem) :
    (elemAdd h a b).val.toNat = fpPick h a.val.toNat b.val.toNat ∧ (elemAdd h a b).nan = (a.nan || b.nan) := by
  simp only [elemAdd, accAdd, Int.toNat_natCast, apply_ite Int.toNat, and_self, fpPick,
    isFloat_of_two_le hty, hop, Bool.not_true, Bool.false_eq_true, if_false]

/-- The fold holds the contribution that is picked, and whether any was a NaN. -/
theorem foldl_minMax (hty : 2 ≤ h.ty) (hop : h.op ≠ 0) (x : Nat) (l : List Nat) :
    (l.foldl (fun a y => elemAdd h a (elemIn h y)) (elemIn h x)).val.toNat = l.foldl (fpPick h) x ∧
    (l.foldl (fun a y => elemAdd h a (elemIn h y)) (elemIn h x)).nan = (x :: l).any fun y => (accOf (fpOf h.ty) y).nan := by
  suffices hgen : ∀ a : BndElem,
      (l.foldl (fun a y => elemAdd h a (elemIn h y)) a).val.toNat = l.foldl (fpPick h) a.val.toNat ∧
      (l.foldl (fun a y => elemAdd h a (elemIn h y)) a).nan = (a.nan || l.any fun y => (accOf (fpOf h.ty) y).nan) by
    obtain ⟨hval, hnan⟩ := elemIn_minMax hty hop x
    obtain ⟨hfoldVal, hfoldNan⟩ := hgen (elemIn h x)
    exact ⟨hfoldVal.trans (congrArg (l.foldl (fpPick h)) hval), by rw [hfoldNan, hnan, List.any_cons]⟩
  induction l with
  | nil => exact fun a => ⟨rfl, (Bool.or_false _).symm⟩
  | cons y l ih =>
    intro a
    obtain ⟨hval, hnan⟩ := ih (elemAdd h a (elemIn h y))
    rw [(elemAdd_minMax hty hop a _).1, (elemIn_minMax hty hop y).1] at hval
    rw [(elemAdd_minMax hty hop a _).2, (elemIn_minMax hty hop y).2, Bool.or_assoc] at hnan
    exact ⟨hval, hnan⟩

theorem elemOut_minMax (hty : 2 ≤ h.ty) (hop : h.op ≠ 0) (a : BndElem) :
    (elemOut h a).1 = if a.nan then (fpOf h.ty).qnan else a.val.toNat := by
  simp only [elemOut, isFloat_of_two_le hty, hop, Bool.not_true, Bool.false_eq_true, if_false, ne_eq,
    not_false_eq_true, if_true]

/-! ### The order of the keys is that of the values -/

/-- The magnitude, in accumulator units, of the finite number of exponent field `e` and fraction `m`. -/
def fpMag (t : FpT) (e m : Nat) : Nat := if e = 0 then m * 2 ^ t.z else (m + 2 ^ (t.p - 1)) * 2 ^ (e - 1 + t.z)

theorem fpMag_le_next {e m : Nat} (hm : m < 2 ^ (t.p - 1)) : fpMag t e m ≤ 2 ^ (t.p - 1) * 2 ^ (e + t.z) := by
  unfold fpMag
  split
  · next he => subst he; rw [Nat.zero_add]; exact Nat.mul_le_mul_right _ hm.le
  · next he =>
    have hpow : 2 ^ (e + t.z) = 2 * 2 ^ (e - 1 + t.z) := by rw [← Nat.pow_succ']; congr 1; omega
    rw [hpow, ← mul_assoc]
    exact Nat.mul_le_mul_right _ (by omega)

theorem next_le_fpMag {e e' m : Nat} (he : e < e') : 2 ^ (t.p - 1) * 2 ^ (e + t.z) ≤ fpMag t e' m := by
  rw [fpMag, if_neg (by omega)]
  exact Nat.mul_le_mul (Nat.le_add_left ..) (Nat.pow_le_pow_right (by decide) (by omega))

theorem fpMag_mono_frac {e m m' : Nat} (hm : m ≤ m') : fpMag t e m ≤ fpMag t e m' := by
  unfold fpMag
  split <;> exact Nat.mul_le_mul_right _ (by omega)

/-- Fields of exponent and fraction, read as one number, order the magnitudes. -/
theorem lt_of_fpMag_lt {e m e' m' : Nat} (hm : m < 2 ^ (t.p - 1)) (hm' : m' < 2 ^ (t.p - 1)) (h : fpMag t e m < fpMag t e' m') :
    e * 2 ^ (t.p - 1) + m < e' * 2 ^ (t.p - 1) + m' := by
  rcases lt_trichotomy e e' with he | rfl | he
  · have := Nat.mul_le_mul_right (2 ^ (t.p - 1)) he
    rw [Nat.succ_mul] at this
    omega
  · have : m < m' := lt_of_not_ge fun hle => absurd h (fpMag_mono_frac hle).not_gt
    omega
  · exact absurd ((fpMag_le_next hm').trans (next_le_fpMag he)) h.not_ge

/-- A number is finite: neither NaN nor infinite. -/
def FpFinite (t : FpT) (x : Nat) : Prop := (accOf t x).nan = false ∧ (accOf t x).pinf = false ∧ (accOf t x).ninf = false

/-- The sign bit, the exponent field and the fraction of a number. -/
abbrev fpSign (t : FpT) (x : Nat) : Bool := bit x (t.ebits + t.p - 1)
abbrev fpExp (t : FpT) (x : Nat) : Nat := bits x (t.p - 1) t.ebits
abbrev fpFrac (t : FpT) (x : Nat) : Nat := bits x 0 (t.p - 1)

theorem FpFinite.exp_ne (hx : FpFinite t x) : fpExp t x ≠ 2 ^ t.ebits - 1 := by
  intro he
  obtain ⟨hnan, hpinf, hninf⟩ := hx
  simp only [accOf, if_pos he, bzero] at hnan hpinf hninf
  cases hs : fpSign t x <;> simp_all

/-- The absolute value of a finite number, in accumulator units. -/
def fpAbs (t : FpT) (x : Nat) : Nat := fpMag t (fpExp t x) (fpFrac t x)

/-- The bits of a number below its sign. -/
def fpLow (t : FpT) (x : Nat) : Nat := x % 2 ^ (t.ebits + t.p - 1)

theorem FpFinite.val_eq (hx : FpFinite t x) : (accOf t x).val = if fpSign t x then -(fpAbs t x : Int) else (fpAbs t x : Int) := by
  simp only [accOf, if_neg hx.exp_ne, fpAbs, fpMag]

theorem fpKey_eq (t : FpT) (x : Nat) : fpKey t x = if fpSign t x then -(fpLow t x : Int) - 1 else (fpLow t x : Int) := rfl

theorem fpFrac_lt (t : FpT) (x : Nat) : fpFrac t x < 2 ^ (t.p - 1) := Nat.mod_lt _ (Nat.two_pow_pos _)

/-- The bits below the sign are the exponent field above the fraction. -/
theorem fpLow_eq (hp : 0 < t.p) (x : Nat) : fpLow t x = fpExp t x * 2 ^ (t.p - 1) + fpFrac t x := by
  have hwidth : t.ebits + t.p - 1 = (t.p - 1) + t.ebits := by omega
  rw [fpLow, hwidth, Nat.pow_add, Nat.mod_mul, fpExp, fpFrac, bits, bits, Nat.pow_zero, Nat.div_one]
  ring

theorem fpLow_lt_of_fpAbs_lt (hp : 0 < t.p) (hlt : fpAbs t x < fpAbs t y) : fpLow t x < fpLow t y := by
  rw [fpLow_eq hp, fpLow_eq hp]
  exact lt_of_fpMag_lt (fpFrac_lt t x) (fpFrac_lt t y) hlt

/-- On finite numbers the keys follow the values, in each of the four cases of the signs. -/
theorem fpKey_lt_of_val_lt (hp : 0 < t.p) (hx : FpFinite t x) (hy : FpFinite t y) (hlt : (accOf t x).val < (accOf t y).val) :
    fpKey t x < fpKey t y := by
  have hxy : fpAbs t x < fpAbs t y → fpLow t x < fpLow t y := fpLow_lt_of_fpAbs_lt hp
  have hyx : fpAbs t y < fpAbs t x → fpLow t y < fpLow t x := fpLow_lt_of_fpAbs_lt hp
  rw [hx.val_eq, hy.val_eq] at hlt
  rw [fpKey_eq, fpKey_eq]
  cases hsx : fpSign t x <;> cases hsy : fpSign t y <;> simp only [hsx, hsy, Bool.false_eq_true, if_false, if_true] at hlt ⊢ <;> omega

/-- Settles O51: the fold keeps the best contribution and marks a NaN; the keys put −0 below +0 and follow the values. -/
theorem floatMinMaxAreExact : Obligations.FloatMinMaxAreExact := by
  unfold Obligations.FloatMinMaxAreExact
  refine ⟨?fold, ?order⟩
  case fold =>
    intro h x l hty _ hop _ t r
    have hop0 : h.op ≠ 0 := by omega
    obtain ⟨hval, hnan⟩ := foldl_minMax hty hop0 x l
    have hr : r = if (x :: l).any fun y => (accOf t y).nan then t.qnan else l.foldl (fpPick h) x := by
      rw [← hval, ← hnan]; exact elemOut_minMax hty hop0 _
    refine ⟨fun hsome => ?nan, fun hnone => ?best⟩
    case nan => rw [hr, if_pos (List.any_eq_true.mpr hsome)]
    case best =>
      rw [hr, if_neg (by simpa using hnone)]
      exact ⟨foldl_fpPick_mem x l, foldl_fpPick_best x l⟩
  case order =>
    intro ty hlo hhi t
    have hp : 0 < t.p := by unfold t; interval_cases ty <;> decide
    refine ⟨by unfold t; interval_cases ty <;> decide, ?_⟩
    intro a b _ _ hnanA hnanB hpinfA hpinfB hninfA hninfB
    exact fpKey_lt_of_val_lt hp ⟨hnanA, hpinfA, hninfA⟩ ⟨hnanB, hpinfB, hninfB⟩

/-! ### Exact-mode sums -/

theorem accAdd_comm (a b : BndElem) : accAdd a b = accAdd b a := by
  simp only [accAdd, Int.add_comm, Bool.or_comm, Bool.and_comm]

theorem accAdd_assoc (a b c : BndElem) : accAdd (accAdd a b) c = accAdd a (accAdd b c) := by
  simp only [accAdd, Int.add_assoc, Bool.or_assoc, Bool.and_assoc]

theorem accAdd_bzero (a : BndElem) : accAdd a bzero = a := by
  simp only [accAdd, bzero, Int.add_zero, Bool.or_false, Bool.and_true]

theorem bzero_accAdd (a : BndElem) : accAdd bzero a = a := by rw [accAdd_comm, accAdd_bzero]

/-- The sum of the terms of a list of contributions. -/
def exactTotal (h : BndHead) (l : List Nat) : BndElem := (l.map (elemIn h)).foldl accAdd bzero

theorem exactTotal_perm {l m : List Nat} (hperm : l.Perm m) : exactTotal h l = exactTotal h m :=
  have : RightCommutative accAdd := ⟨fun a b c => by rw [accAdd_assoc, accAdd_assoc, accAdd_comm b c]⟩
  (hperm.map (elemIn h)).foldl_eq bzero

theorem exactTotal_append (l m : List Nat) : exactTotal h (l ++ m) = accAdd (exactTotal h l) (exactTotal h m) := by
  have : Std.Associative accAdd := ⟨accAdd_assoc⟩
  calc exactTotal h (l ++ m)
      = (m.map (elemIn h)).foldl accAdd (accAdd (exactTotal h l) bzero) := by
        rw [exactTotal, List.map_append, List.foldl_append, accAdd_bzero, exactTotal]
    _ = accAdd (exactTotal h l) (exactTotal h m) := List.foldl_assoc

theorem elemAdd_exactSum (hty : 2 ≤ h.ty) (hop : h.op = 0) (hexact : h.exact = true) (a b : BndElem) : elemAdd h a b = accAdd a b := by
  simp only [elemAdd, isFloat_of_two_le hty, hop, hexact, Bool.not_true, Bool.false_eq_true, if_false, if_true]

/-- Folding contributions from any of them on gives the total of all. -/
theorem foldl_elemAdd_exactSum (hty : 2 ≤ h.ty) (hop : h.op = 0) (hexact : h.exact = true) (x : Nat) (l : List Nat) :
    l.foldl (fun a z => elemAdd h a (elemIn h z)) (elemIn h x) = exactTotal h (x :: l) := by
  simp only [elemAdd_exactSum hty hop hexact, exactTotal, List.map_cons, List.foldl_cons, bzero_accAdd, List.foldl_map]

/-- Settles O52: every fold is a total, and totals depend neither on the order nor on the grouping. -/
theorem exactSumsIgnoreTheOrder : Obligations.ExactSumsIgnoreTheOrder := by
  unfold Obligations.ExactSumsIgnoreTheOrder
  refine ⟨?order, ?grouping, ?rounded⟩
  case order =>
    intro h x y l m hty hop hexact hperm
    rw [foldl_elemAdd_exactSum hty hop hexact, foldl_elemAdd_exactSum hty hop hexact, exactTotal_perm hperm]
  case grouping =>
    intro h x y l m hty hop hexact f
    have htotal (z : Nat) (n : List Nat) : f z n = exactTotal h (z :: n) := foldl_elemAdd_exactSum hty hop hexact z n
    rw [htotal, htotal, htotal, elemAdd_exactSum hty hop hexact, ← exactTotal_append, List.cons_append]
  case rounded =>
    intro h x y l m hty hop hexact hperm
    rw [foldl_elemAdd_exactSum hty hop hexact, foldl_elemAdd_exactSum hty hop hexact, exactTotal_perm hperm]

end Sys2Proof.Proofs
end

section
/-! PROOF. The Bindery's rows (R196 to R202): what a packet of the installed record does at its node, by the packet's content, and
what the node's timers send again or abort. -/

namespace Sys2Proof.Proofs

open Sys2Proof Sys2Proof.Machine

variable {s : State} {d : Die} {p : BndPkt} {t : Tree} {h : BndHead} {c q g sub : Nat} {kept : List Nat} {x : BndCtx} {y : Seg}
  {b : BndBody}

/-! ### A child's contribution (R196) -/

/-- A contribution that the node has had: its sequence is over, or its segment holds the child's. -/
def contribDup (x : BndCtx) (p : BndPkt) : Bool :=
  decide (p.seq < x.nextSeq) || match findSeg x p.seq p.seg with
    | some y => y.held.any fun k => decide (k.child = p.child)
    | none => false

theorem contribDup_over (hseq : p.seq < x.nextSeq) : contribDup x p = true := by
  rw [contribDup, decide_eq_true hseq, Bool.true_or]

theorem contribDup_held (hseg : findSeg x p.seq p.seg = some y) (hheld : y.held.any (fun k => decide (k.child = p.child)) = true) :
    contribDup x p = true := by
  simp only [contribDup, hseg, hheld, Bool.or_true]

theorem contribDup_new (hseq : x.nextSeq ≤ p.seq)
    (hnew : ∀ y, findSeg x p.seq p.seg = some y → y.held.any (fun k => decide (k.child = p.child)) = false) :
    contribDup x p = false := by
  rw [contribDup, decide_eq_false (Nat.not_lt.mpr hseq), Bool.false_or]
  cases hseg : findSeg x p.seq p.seg with
  | none => rfl
  | some y => exact hnew y hseg

/-- The node has acknowledged the packet's segment to the child that sent it. -/
abbrev ackedToChild (s : State) (d : Die) (t : Tree) (p : BndPkt) : State := bndDown s d p.cctx t p.child p.seq p.seg .ackUp

/-- What a node does with a contribution, after what its path has taught the node (R198). -/
def contributionTaken (v : State) (d : Die) (p : BndPkt) (t : Tree) (h : BndHead) (es : List BndElem)
    (ms : List (Nat × List Nat)) : State :=
  let x := bndCtx v d p.cctx
  if contribDup x p then bndDup (ackedToChild v d t p) d
  else if x.st = .aborted then bndDown v d p.cctx t p.child p.seq 0 (.abort x.abortCause (keptSeqs x t false []))
  else contribute (ackedToChild v d t p) d p.cctx t p.seq p.seg p.child h es ms

theorem exec_bndContribution {es : List BndElem} {ms : List (Nat × List Nat)} (hfor : bndFor s d p = some t)
    (hbody : p.body = .partialUp h es ms) (hchild : childIs t p.child p.src = true) (hinst : (bndCtx s d p.cctx).st ≠ .uninstalled) :
    exec (.bndContribution d p) s = .next (contributionTaken (learnRelay s d p.cctx t p) d p t h es ms) := by
  change execBndContribution d p s = _
  simp only [execBndContribution, hfor, hbody, if_pos (And.intro hchild hinst)]
  rw [contributionTaken, apply_ite Host.Outcome.next, apply_ite Host.Outcome.next]
  rfl

/-! ### The parent's result (R197) -/

/-- The parent has been heard: a backup parent owes no answer any more. -/
abbrev backupHeard (s : State) (d : Die) (p : BndPkt) : State := modBnd s d p.cctx fun x => { x with backupDownAt := none }

/-- What a node that has acknowledged a result does with it, by the segment it is for. -/
def resultTaken (u : State) (d : Die) (p : BndPkt) (t : Tree) : Option Seg → State
  | some y => if y.result.isSome then bndDup u d else spreadResult u d p.cctx t p.seq p.seg p.body
  | none => if p.seq < (bndCtx u d p.cctx).nextSeq then bndDup u d else u

/-- The node has heard its parent and acknowledged the packet's segment to it. -/
abbrev ackedToParent (s : State) (d : Die) (t : Tree) (p : BndPkt) : State :=
  bndUp (backupHeard s d p) d p.cctx t p.seq p.seg .ackDown

theorem exec_bndResult {raw : List Nat} {an ao : Bool} (hfor : bndFor s d p = some t) (hbody : p.body = .result h raw an ao)
    (hparent : p.src = t.parent) (hroot : t.root = false) (hinst : (bndCtx s d p.cctx).st ≠ .uninstalled) :
    exec (.bndResult d p) s =
      .next (resultTaken (ackedToParent s d t p) d p t (findSeg (bndCtx (ackedToParent s d t p) d p.cctx) p.seq p.seg)) := by
  change execBndResult d p s = _
  simp only [execBndResult, hfor, hbody, if_pos (And.intro hparent (And.intro hroot hinst))]
  cases findSeg (bndCtx (ackedToParent s d t p) d p.cctx) p.seq p.seg with
  | none => rfl
  | some y => simp only [resultTaken, hbody, apply_ite Host.Outcome.next]

/-! ### Acknowledgements and aborts (R197, R201, R202) -/

theorem exec_bndAck_parent (hfor : bndFor s d p = some t) (hbody : p.body = .ackUp) (hparent : p.src = t.parent) :
    exec (.bndAck d p) s =
      .next (bndTidy 64 (modSeg (backupHeard s d p) d p.cctx p.seq p.seg fun y => { y with partialBody := none }) d p.cctx t) := by
  change execBndAck d p s = _
  simp only [execBndAck, hfor, hbody, if_pos hparent]

theorem exec_bndAck_child (hfor : bndFor s d p = some t) (hbody : p.body = .ackDown) (hchild : childIs t p.child p.src = true) :
    exec (.bndAck d p) s =
      .next (bndTidy 64 (modSeg (learnRelay s d p.cctx t p) d p.cctx p.seq p.seg fun y => { y with acked := addNew y.acked p.child })
        d p.cctx t) := by
  change execBndAck d p s = _
  simp only [execBndAck, hfor, hbody, if_pos hchild]

theorem exec_bndAbort_parent (hfor : bndFor s d p = some t) (hbody : p.body = .abort sub kept) (hroot : t.root = false)
    (hparent : p.src = t.parent) (hready : (bndCtx (backupHeard s d p) d p.cctx).st = .ready) :
    exec (.bndAbortReceive d p) s = .next (bndAbort (backupHeard s d p) d p.cctx t p.seq sub
      (keptSeqs (bndCtx (backupHeard s d p) d p.cctx) t true kept)) := by
  change execBndAbortReceive d p s = _
  simp only [execBndAbortReceive, hfor, hbody, hroot, hparent, hready, and_self, decide_true, true_or, if_true]

theorem exec_bndAbort_child (hfor : bndFor s d p = some t) (hbody : p.body = .abort sub kept)
    (hother : t.root = true ∨ p.src ≠ t.parent) (hchild : childIs t p.child p.src = true) (hready : (bndCtx s d p.cctx).st = .ready) :
    exec (.bndAbortReceive d p) s = .next (bndAbort s d p.cctx t p.seq sub (keptSeqs (bndCtx s d p.cctx) t false [])) := by
  have hup : decide (t.root = false ∧ p.src = t.parent) = false := by
    rw [decide_eq_false_iff_not, not_and_or, Bool.not_eq_false]
    exact hother
  change execBndAbortReceive d p s = _
  simp only [execBndAbortReceive, hfor, hbody, hup, hchild, hready, Bool.false_eq_true, false_or, and_self, if_false, if_true]

/-! ### The timers (R197, R198, R200) -/

theorem exec_bndResend (htree : treeOf s d c = some t) (hseg : findSeg (bndCtx s d c) q g = some y) :
    exec (.bndResend d c q g) s = .next (resendSeg s d c t y) := by
  change execBndResend d c q g s = _
  simp only [execBndResend, htree, hseg]

theorem resendSeg_partial (hpartial : y.partialBody = some b) (hresult : y.result = none) (hdue : y.sentAt + bndResendNs s d ≤ s.now) :
    resendSeg s d c t y = bndUp (modSeg s d c y.seq y.seg fun y => { y with sentAt := s.now }) d c t y.seq y.seg b := by
  simp only [resendSeg, hpartial, hresult, ge_iff_le, if_pos hdue]

/-- The child nodes that have not acknowledged a segment's result. -/
def owingNodes (t : Tree) (y : Seg) : List Nat :=
  (List.range t.children.length).filter fun i =>
    !(decide (i ∈ y.acked)) && (match t.children[i]? with | some k => !k.member | none => false)

theorem resendSeg_result (hpartial : y.partialBody = none) (hresult : y.result = some b)
    (hdue : y.resultAt + bndResendNs s d ≤ s.now) :
    resendSeg s d c t y =
      (owingNodes t y).foldl (fun s i => bndDown s d c t i y.seq y.seg b)
        (modSeg s d c y.seq y.seg fun y => { y with resultAt := s.now }) := by
  simp only [resendSeg, hpartial, hresult, ge_iff_le, if_pos hdue]
  rfl

theorem exec_bndRelayPacket (hrelay : p.relay = true) (hvia : p.via = routerAddr s d) (hdst : p.dst ≠ routerAddr s d) :
    exec (.bndRelayPacket d p) s = .next (pmc (emit s (.toRoute d (bndPkt s d p.dst p))) d 580 1) :=
  if_pos ⟨hrelay, hvia, hdst⟩

theorem bndFail_ready {cut : Bool} (htree : treeOf s d c = some t) (hready : (bndCtx s d c).st = .ready)
    (hbusy : bndBusy (bndCtx s d c) = true) :
    bndFail s d c sub cut = bndAbort s d c t (oldestSeq (bndCtx s d c)) sub (keptSeqs (bndCtx s d c) t cut []) := by
  simp only [bndFail, htree, hready, hbusy, and_self, if_true]

theorem exec_bndBackupTimeout_backup {a : Nat} (hdown : (bndCtx s d c).backupDownAt = some a) (hdue : a + 2000000000 ≤ s.now) :
    exec (.bndBackupTimeout d c) s = .next (bndFail s d c 0x04 true) := by
  change execBndBackupTimeout d c s = _
  simp only [execBndBackupTimeout, hdown, ge_iff_le, if_pos hdue]

theorem exec_bndBackupTimeout_child {e : Nat × Nat} (hup : (bndCtx s d c).backupDownAt = none) (hmem : e ∈ (bndCtx s d c).childDown)
    (hdue : e.2 + 2000000000 ≤ s.now) : exec (.bndBackupTimeout d c) s = .next (bndFail s d c 0x02 false) := by
  have hany : (bndCtx s d c).childDown.any (fun e => decide (s.now ≥ e.2 + 2000000000)) = true :=
    List.any_eq_true.mpr ⟨e, hmem, decide_eq_true hdue⟩
  change execBndBackupTimeout d c s = _
  simp only [execBndBackupTimeout, hup, hany, if_true]

/-- Settles O24: each clause by its row's lemma. Sub-cause 0x02 after 2 s without a relay is log entry 83, the sequences that keep their
result log entry 85 and R202. -/
theorem theBinderyActs : Obligations.TheBinderyActs := by
  unfold Obligations.TheBinderyActs
  refine ⟨?new, ?newAborted, ?past, ?held, ?result, ?resultAgain, ?resultOver, ?ackUp, ?ackDown, ?abortParent, ?abortChild,
    ?resendPartial, ?resendResult, ?relay, ?backup, ?child⟩
  case new =>
    intro s d p t h es ms v x u hfor hbody hchild hinst hseq hnew hst
    have hdup : contribDup x p = false := contribDup_new hseq hnew
    rw [exec_bndContribution hfor hbody hchild hinst]
    exact congrArg Host.Outcome.next ((if_neg (Bool.eq_false_iff.mp hdup)).trans (if_neg hst))
  case newAborted =>
    intro s d p t h es ms v x u hfor hbody hchild hinst hseq hnew hst
    have hdup : contribDup x p = false := contribDup_new hseq hnew
    rw [exec_bndContribution hfor hbody hchild hinst]
    exact congrArg Host.Outcome.next ((if_neg (Bool.eq_false_iff.mp hdup)).trans (if_pos hst))
  case past =>
    intro s d p t h es ms v x u hfor hbody hchild hinst hseq
    rw [exec_bndContribution hfor hbody hchild hinst]
    exact congrArg Host.Outcome.next (if_pos (contribDup_over hseq))
  case held =>
    intro s d p t h es ms y v x u hfor hbody hchild hinst hseg hheld
    rw [exec_bndContribution hfor hbody hchild hinst]
    exact congrArg Host.Outcome.next (if_pos (contribDup_held hseg hheld))
  case result =>
    intro s d p t h raw an ao y v u x hfor hbody hparent hroot hinst hseg hres
    rw [exec_bndResult hfor hbody hparent hroot hinst, hseg]
    exact congrArg Host.Outcome.next (if_neg (by rw [hres]; exact Bool.false_ne_true))
  case resultAgain =>
    intro s d p t h raw an ao y v u x hfor hbody hparent hroot hinst hseg hres
    rw [exec_bndResult hfor hbody hparent hroot hinst, hseg]
    exact congrArg Host.Outcome.next (if_pos hres)
  case resultOver =>
    intro s d p t h raw an ao v u x hfor hbody hparent hroot hinst hseg hseq
    rw [exec_bndResult hfor hbody hparent hroot hinst, hseg]
    exact congrArg Host.Outcome.next (if_pos hseq)
  case ackUp => exact fun s d p t => exec_bndAck_parent
  case ackDown => exact fun s d p t => exec_bndAck_child
  case abortParent => exact fun s d p t sub kept => exec_bndAbort_parent
  case abortChild => exact fun s d p t sub kept => exec_bndAbort_child
  case resendPartial =>
    intro s d c q g t y b htree hseg hpartial hresult hdue
    rw [exec_bndResend htree hseg, resendSeg_partial hpartial hresult hdue]
  case resendResult =>
    intro s d c q g t y b htree hseg hpartial hresult hdue
    rw [exec_bndResend htree hseg, resendSeg_result hpartial hresult hdue]
    rfl
  case relay => exact fun s d p => exec_bndRelayPacket
  case backup =>
    intro s d c a t x htree hready hdown hdue hbusy
    rw [exec_bndBackupTimeout_backup hdown hdue, bndFail_ready htree hready hbusy]
  case child =>
    intro s d c t e x htree hready hup hmem hdue hbusy
    rw [exec_bndBackupTimeout_child hup hmem hdue, bndFail_ready htree hready hbusy]

end Sys2Proof.Proofs
end

section
/-! PROOF. The Boom and the flow states (R226 to R233): what a packet of a SYNCED entry meets, by its distance from NEXT; what a
packet without an entry meets; the timers of an entry; and what a notice, its expiry and idleness do to a flow state. -/

namespace Sys2Proof.Proofs

open Sys2Proof Sys2Proof.Machine

/-! ### A packet at a SYNCED entry (R229) -/

section

variable {s : State} {d : Die} {p : Pkt} {f : BoomFlow} {src tc : Nat}

/-- An entry written is read back, but for one that is absent. -/
theorem boomOf_setBoom_of_present (hst : f.st ≠ .absent) : boomOf (setBoom s d src tc f) d src tc = f := by
  have hne : f ≠ {} := fun h => hst (congrArg BoomFlow.st h)
  rw [boomOf, setBoom, onRtr, die_onDie_same]
  exact tget_tset_same _ _ _ hne

@[simp] theorem setBoom_now : (setBoom s d src tc f).now = s.now := onDie_now ..

theorem boomWindow_next (hf : boomOf s d p.src p.tc = f) (hheld : f.held.any (fun h => decide (h.1 = p.fseq)) = false)
    (hdist : boomDist p.fseq f.next = 0) :
    boomWindow s d p = boomRun f.held.length
      (boomDeliver (setBoom (pmc s d 352 1) d p.src p.tc { f with next := (f.next + 1) % 2 ^ 32 }) d p) d p.src p.tc := by
  subst hf
  rw [boomWindow, if_neg (Bool.eq_false_iff.mp hheld), if_pos hdist]

theorem boomWindow_ahead (hf : boomOf s d p.src p.tc = f) (hheld : f.held.any (fun h => decide (h.1 = p.fseq)) = false)
    (hpos : 0 < boomDist p.fseq f.next) (hnear : boomDist p.fseq f.next ≤ 65535) : boomWindow s d p = boomHold s d p := by
  subst hf
  rw [boomWindow, if_neg (Bool.eq_false_iff.mp hheld), if_neg hpos.ne', if_pos hnear]

theorem boomWindow_beyond (hf : boomOf s d p.src p.tc = f) (hheld : f.held.any (fun h => decide (h.1 = p.fseq)) = false)
    (hfar : 65535 < boomDist p.fseq f.next) (hhalf : boomDist p.fseq f.next < 2 ^ 31) :
    boomWindow s d p = boomNotice (pmc (bumpReg s d 0xE00010) d 354 1) d p.src p.tc := by
  subst hf
  rw [boomWindow, if_neg (Bool.eq_false_iff.mp hheld), if_neg (by omega), if_neg (by omega), if_pos hhalf]

/-- A packet held already and a packet from behind NEXT are both late. -/
theorem boomWindow_late (hf : boomOf s d p.src p.tc = f)
    (hlate : f.held.any (fun h => decide (h.1 = p.fseq)) = true ∨ 2 ^ 31 ≤ boomDist p.fseq f.next) :
    boomWindow s d p = boomLate s d p := by
  subst hf
  rw [boomWindow]
  rcases hlate with hheld | hbehind
  · rw [if_pos hheld]
  · rw [if_neg (show ¬ boomDist _ _ = 0 by omega), if_neg (show ¬ boomDist _ _ ≤ 65535 by omega),
      if_neg (show ¬ boomDist _ _ < 2 ^ 31 by omega), ite_self]

theorem boomHold_of_room (hf : boomOf s d p.src p.tc = f) (hroom : boomRoom s d p = true) :
    boomHold s d p = setBoom (pmc s d 353 1) d p.src p.tc { f with held := f.held ++ [(p.fseq, s.now, p)] } := by
  subst hf
  exact if_pos hroom

/-! ### The arrival of a packet (R231) -/

theorem exec_boomArrival_ord (hord : p.ord = true) : exec (.boomArrival d p) s = .next (boomArrive s d p) := if_pos hord

/-- A packet without START at a SYNCED entry marks the entry as used and is judged by its distance from NEXT. -/
theorem exec_boomArrival_synced (hord : p.ord = true) (hst : (boomOf s d p.src p.tc).st = .synced) (hstart : p.start = false) :
    exec (.boomArrival d p) s
      = .next (boomWindow (setBoom s d p.src p.tc { boomOf s d p.src p.tc with lastUse := s.now }) d p) := by
  simp [exec_boomArrival_ord hord, boomArrive, hst, hstart]

/-- The entry that such a packet is judged by. -/
theorem boomOf_used (hst : (boomOf s d src tc).st = .synced) :
    boomOf (setBoom s d src tc { boomOf s d src tc with lastUse := s.now }) d src tc
      = { boomOf s d src tc with lastUse := s.now } :=
  boomOf_setBoom_of_present (by simp [hst])

/-- A START packet without an entry begins one, where one can be had, and is judged as its first. -/
theorem exec_boomArrival_absent_start {u : State} (hord : p.ord = true) (hst : (boomOf s d p.src p.tc).st = .absent)
    (hentry : boomEntry s d = some u) (hstart : p.start = true) :
    exec (.boomArrival d p) s
      = .next (boomWindow (setBoom u d p.src p.tc { st := .synced, next := 0, lastUse := u.now }) d p) := by
  simp [exec_boomArrival_ord hord, boomArrive, hst, hentry, hstart]

theorem exec_boomArrival_absent_full (hord : p.ord = true) (hst : (boomOf s d p.src p.tc).st = .absent)
    (hentry : boomEntry s d = none) :
    exec (.boomArrival d p) s
      = .next (boomNotice (boomDeliver (pmc (bumpReg s d 0xE00028) d 357 1) d p) d p.src p.tc) := by
  simp [exec_boomArrival_ord hord, boomArrive, hst, hentry]

/-! ### The timers of an entry (R230, R231) -/

theorem exec_boomHoldTimeout_due {o : Nat × Nat × Pkt} (hold : boomOldest (boomOf s d src tc) = some o)
    (hdue : o.2.1 + 64000 ≤ s.now) : exec (.boomHoldTimeout d src tc) s = .next (boomSkip s d src tc) := by
  change execBoomHoldTimeout d src tc s = _
  rw [execBoomHoldTimeout, hold]
  exact if_pos hdue

theorem exec_boomEntryIdle_due (hst : (boomOf s d src tc).st = .synced) (hheld : (boomOf s d src tc).held = [])
    (hdue : (boomOf s d src tc).lastUse + 512000 ≤ s.now) :
    exec (.boomEntryIdle d src tc) s = .next (setBoom s d src tc {}) := if_pos ⟨hst, hheld, hdue⟩

end

/-! ### The flow states of a source router (R227, R233) -/

section

variable {s : State} {d : Die} {p : Pkt} {src tc : Nat} {f : FlowId}

theorem exec_boomNoticeReceive_live (hbody : bodyOf p = .notice src tc)
    (hf : f = { src := src, tc := tc, dstRouter := routerPart p.src }) (hlive : (flowOf s d f).live = true) :
    exec (.boomNoticeReceive d p) s
      = .next (pmc (setFlow s d f { flowOf s d f with cooldownTill := some (s.now + 1000000) }) d 343 1) := by
  subst hf
  change execBoomNoticeReceive d p s = _
  rw [execBoomNoticeReceive, hbody]
  exact if_pos hlive

theorem exec_boomNoticeReceive_new {u : State} (hbody : bodyOf p = .notice src tc)
    (hf : f = { src := src, tc := tc, dstRouter := routerPart p.src }) (hlive : (flowOf s d f).live = false)
    (hroom : flowRoom s d = some u) :
    exec (.boomNoticeReceive d p) s
      = .next (pmc (setFlow u d f { live := true, cooldownTill := some (u.now + 1000000) }) d 343 1) := by
  subst hf
  change execBoomNoticeReceive d p s = _
  rw [execBoomNoticeReceive, hbody, hroom]
  exact if_neg (Bool.eq_false_iff.mp hlive)

theorem exec_cooldownExpiry_due {t : Nat} (hcool : (flowOf s d f).cooldownTill = some t) (hdue : t ≤ s.now) :
    exec (.cooldownExpiry d f) s = .next (setFlow s d f { flowOf s d f with cooldownTill := none }) := by
  change execCooldownExpiry d f s = _
  simp only [execCooldownExpiry, hcool]
  exact if_pos hdue

theorem exec_flowStateRetire_idle (hlive : (flowOf s d f).live = true) (hidle : (flowOf s d f).lastInject + 256000 ≤ s.now)
    (hcool : cooling s (flowOf s d f) = false) : exec (.flowStateRetire d f) s = .next (setFlow s d f {}) := by
  have hretire : retirable s (flowOf s d f) = true := by simp [retirable, hidle, hcool]
  exact if_pos (by rw [hlive, hretire]; rfl)

end

/-- Settles O26: a SYNCED entry's packet is judged on the entry just marked as used, by its distance from NEXT; the other rows act
where their condition holds. -/
theorem theBoomAndItsFlows : Obligations.TheBoomAndItsFlows := by
  unfold Obligations.TheBoomAndItsFlows
  refine ⟨?next, ?ahead, ?beyond, ?late, ?start, ?full, ?holdTimeout, ?entryIdle, ?noticeLive, ?noticeNew, ?cooldown, ?retire⟩
  case next =>
    intro s d p f u hord hst hstart hheld hdist
    rw [exec_boomArrival_synced hord hst hstart, boomWindow_next (boomOf_used hst) hheld hdist]
  case ahead =>
    intro s d p f u hord hst hstart hheld hpos hnear hroom
    rw [exec_boomArrival_synced hord hst hstart, boomWindow_ahead (boomOf_used hst) hheld hpos hnear,
      boomHold_of_room (boomOf_used hst) hroom, setBoom_now]
  case beyond =>
    intro s d p f u hord hst hstart hheld hfar hhalf
    rw [exec_boomArrival_synced hord hst hstart, boomWindow_beyond (boomOf_used hst) hheld hfar hhalf]
  case late =>
    intro s d p f u hord hst hstart hlate
    rw [exec_boomArrival_synced hord hst hstart, boomWindow_late (boomOf_used hst) hlate, boomLate]
  case start => exact fun s d p u => exec_boomArrival_absent_start
  case full => exact fun s d p => exec_boomArrival_absent_full
  case holdTimeout => exact fun s d src tc o => exec_boomHoldTimeout_due
  case entryIdle => exact fun s d src tc => exec_boomEntryIdle_due
  case noticeLive => exact fun s d p src tc hbody => exec_boomNoticeReceive_live hbody rfl
  case noticeNew => exact fun s d p src tc u hbody => exec_boomNoticeReceive_new hbody rfl
  case cooldown => exact fun s d f t => exec_cooldownExpiry_due
  case retire => exact fun s d f => exec_flowStateRetire_idle

end Sys2Proof.Proofs
end

section
/-! PROOF. Time gates (R242, R245, R246): the position of an offset in a gate list, and what a due gate activation leaves. -/

namespace Sys2Proof.Proofs

open Sys2Proof Sys2Proof.Machine

/-! ### The position of an offset in a list (R242) -/

@[simp] theorem gateCycle_nil : gateCycle [] = 0 := rfl
@[simp] theorem gateCycle_cons (e : GateEntry) (l : List GateEntry) : gateCycle (e :: l) = e.dur + gateCycle l := rfl

/-- An offset within the cycle lies in the entry whose durations enclose it. -/
theorem gateAt_encloses (l : List GateEntry) (i off : Nat) (h : off < gateCycle l) :
    ∃ k e, l[k]? = some e ∧ gateAt l i off = (i + k, gateCycle (l.take k) + e.dur - off) ∧ gateCycle (l.take k) ≤ off ∧
      off < gateCycle (l.take k) + e.dur := by
  induction l generalizing i off with
  | nil => exact absurd h (Nat.not_lt_zero off)
  | cons e l ih =>
    by_cases hin : off < e.dur
    · exact ⟨0, e, rfl, by simp [gateAt, hin], by simp, by simpa using hin⟩
    · rw [gateCycle_cons] at h
      obtain ⟨k, f, hget, hat, hlo, hhi⟩ := ih (i + 1) (off - e.dur) (by omega)
      refine ⟨k + 1, f, hget, ?_, ?_, ?_⟩
      · rw [gateAt, if_neg hin, hat, List.take_succ_cons, gateCycle_cons, Prod.mk.injEq]
        omega
      all_goals rw [List.take_succ_cons, gateCycle_cons]; omega

/-! ### A gate activation (R245, R246) -/

section

variable {s : State} {d : Die} {port : Nat}

/-- A gate whose activation puts `l` in force: the old list goes to the staged bank, marked not valid (log entry 97). -/
def gateSwapped (g : Gate) (l : List GateEntry) (guard : Bool) : Gate :=
  { g with active := l, guard_ := guard, staged := g.active, stagedGuard := g.guard_, stagedValid := false, actTime := g.pendTime
           pending := false, pendClear := false, entry := 0 }

/-- What an activation leaves that put the gate `n` in force: GATE's epoch one higher (R382), EV_GATE_ACTIVE with `code` and its
interrupt. -/
def gateInForce (s : State) (d : Die) (port : Nat) (n : Gate) (code : Nat) : State :=
  raiseLocal (postMgmt (bumpEpoch (modGate s d (portK port) fun _ => { n with entry := (gateNow s n).1 }) d 3) d 0x41
    (evb 8 d.idx + evb 9 port + evb 10 code + evb 16 n.actTime)) d 1893

theorem gateActivate_staged (hc : (gateOf s d (portK port)).pendClear = false) :
    gateActivate s d port = gateInForce s d port (gateSwapped (gateOf s d (portK port)) (gateOf s d (portK port)).staged
      (gateOf s d (portK port)).stagedGuard) 0 := by
  rw [gateActivate, hc]
  rfl

theorem gateActivate_clear (hc : (gateOf s d (portK port)).pendClear = true) :
    gateActivate s d port = gateInForce s d port (gateSwapped (gateOf s d (portK port)) [] false) 2 := by
  rw [gateActivate, hc]
  rfl

theorem exec_gateActivation_due (hp : (gateOf s d (portK port)).pending = true) (ht : (gateOf s d (portK port)).pendTime ≤ s.time.ns)
    (he : epochDue s d (gateOf s d (portK port)).pendTime = false) :
    exec (.gateActivation d port) s = .next (gateActivate s d port) := by
  have hsettle : gateSettle s d port = gateActivate s d port := if_pos ⟨hp, ht, he⟩
  exact congrArg Host.Outcome.next hsettle

end

/-- Settles O28: a due activation by whether it clears, the entry shown by induction over the list. That the banks swap and
STAGED_VALID clears is log entry 97. -/
theorem gatesFollowTheirList : Obligations.GatesFollowTheirList := by
  unfold Obligations.GatesFollowTheirList
  refine ⟨?boundary, ?staged, ?clear, gateAt_encloses⟩
  case boundary => exact fun s d port => rfl
  case staged =>
    intro s d port g n hp ht he hc
    rw [exec_gateActivation_due hp ht he, gateActivate_staged hc]
    rfl
  case clear =>
    intro s d port g n hp ht he hc
    rw [exec_gateActivation_due hp ht he, gateActivate_clear hc]
    rfl

end Sys2Proof.Proofs
end

section
/-! PROOF. Scheduler service (R235 to R241, R248): the order of an egress's and an injection scheduler's tiers, age promotion, and a
boost that comes into force. -/

namespace Sys2Proof.Proofs

open Sys2Proof Sys2Proof.Machine

variable {s : State} {d : Die}

/-! ### The data tiers of an egress (R235, R248) -/

section

variable {eg : Nat}

/-- No packet partly over is before the data tiers: none over the bridge, or none of the link that is suspended and may go on while
the partner's receiver has no channel selected (R285). -/
structure FreshTurn (s : State) (d : Die) (eg : Nat) : Prop where
  bridge : 0x7E ≤ eg → (brg s d (egOf eg)).crossing.find? (fun c =>
    decide (0 < bridgeCredit (brg s d (egOf eg)) (brgChan c.q.chan c.q.stage))) = none
  link : eg < 0x7E → resumable s d eg = none ∧ (link s d eg).txSel = none

/-- The pick of the data tiers: the urgent tier's, else the normal tier's. -/
def dataPick (s : State) (d : Die) (eg : Nat) : Option Pick :=
  (pickUrgent (egSched s d eg) s d (pktEligible s d eg) (egLeaf s d eg)).or (pickNormal (egSched s d eg) s d (egLeaves s d eg))

theorem dataPick_urgent {p : Pick} (h : pickUrgent (egSched s d eg) s d (pktEligible s d eg) (egLeaf s d eg) = some p) :
    dataPick s d eg = some p := by
  rw [dataPick, h, Option.some_or]

theorem dataPick_normal (h : pickUrgent (egSched s d eg) s d (pktEligible s d eg) (egLeaf s d eg) = none) :
    dataPick s d eg = pickNormal (egSched s d eg) s d (egLeaves s d eg) := by
  rw [dataPick, h, Option.none_or]

/-- Serve a pick, if there is one, while the stage has room for it. -/
def grantPick (s : State) (d : Die) (eg : Nat) : Option Pick → State
  | some p => if stageSlots (egSched s d eg) + (p.q.pkt.len + 1) ≤ 1040 then servePick s d eg p else s
  | none => s

theorem grantData_fresh (h : FreshTurn s d eg) : grantData s d eg = grantPick s d eg (dataPick s d eg) := by
  unfold grantData dataPick
  by_cases heg : 0x7E ≤ eg
  case' pos => simp only [ge_iff_le, heg, if_true, gt_iff_lt, h.bridge heg, decide_eq_true_eq]
  case' neg =>
    obtain ⟨hresume, hsel⟩ := h.link (by omega)
    simp only [ge_iff_le, heg, if_false, hresume, hsel, if_true, decide_eq_true_eq]
  all_goals
    cases pickUrgent (egSched s d eg) s d (pktEligible s d eg) (egLeaf s d eg) <;>
      cases pickNormal (egSched s d eg) s d (egLeaves s d eg) <;> rfl

theorem grantData_serves {p : Pick} (h : FreshTurn s d eg) (hp : dataPick s d eg = some p)
    (hroom : stageSlots (egSched s d eg) + (p.q.pkt.len + 1) ≤ 1040) : grantData s d eg = servePick s d eg p := by
  rw [grantData_fresh h, hp]
  exact if_pos hroom

theorem grantData_idle (h : FreshTurn s d eg) (hp : dataPick s d eg = none) : grantData s d eg = s := by
  rw [grantData_fresh h, hp, grantPick]

/-- On a link a suspended packet that may go on is before every pick (R285). -/
theorem grantData_resumes {chan : Nat} {rest : List Block} (heg : eg < 0x7E) (hr : resumable s d eg = some (chan, rest))
    (hroom : stageSlots (egSched s d eg) + 66 ≤ 1040) : grantData s d eg = resumeSusp s d eg chan rest := by
  simp only [grantData, if_neg (show ¬ eg ≥ 0x7E by omega), hr, hroom, decide_true, if_true]

/-! ### The service of an egress (R235) -/

/-- What an egress sends from its stage. -/
abbrev egressSend (s : State) (d : Die) (eg : Nat) : State :=
  if 0x7E ≤ eg then (if brgUp s d (egOf eg) then txBridge s d eg else s) else txFrame s d eg

theorem egressServe_flume {q : QPkt} {l : List QPkt} (hf : forensic s = false) (hq : (egSched s d eg).flume = q :: l)
    (hok : flumeOk s d eg q = true) : egressServe s d eg = egressSend (grantData (grantFlume s d eg q) d eg) d eg := by
  simp only [egressServe, hf, hq, hok, if_true, Bool.false_eq_true, if_false]

theorem egressServe_data (hf : forensic s = false) (hq : ∀ q, (egSched s d eg).flume.head? = some q → flumeOk s d eg q = false) :
    egressServe s d eg = egressSend (grantData s d eg) d eg := by
  simp only [egressServe, hf, Bool.false_eq_true, if_false]
  cases hl : (egSched s d eg).flume with
  | nil => rfl
  | cons q l =>
    have hno : flumeOk s d eg q = false := hq q (by rw [hl]; rfl)
    simp only [hno, Bool.false_eq_true, if_false]

end

/-! ### The service of a host port (R240) -/

section

variable {port : Nat}

/-- The injection scheduler of a host port. -/
abbrev injSched (s : State) (d : Die) (port : Nat) : Sched := tget {} (die s d).sch.inject port

/-- The pick of an injection scheduler: the urgent tier's, else the normal tier's. -/
def injPick (s : State) (d : Die) (port : Nat) : Option Pick :=
  (pickUrgent (injSched s d port) s d (fun _ => true) (injLeaf s d port)).or (pickNormal (injSched s d port) s d (injLeaves s d port))

theorem injPick_tiers {p : Pick} (h : pickUrgent (injSched s d port) s d (fun _ => true) (injLeaf s d port) = some p ∨
      (pickUrgent (injSched s d port) s d (fun _ => true) (injLeaf s d port) = none ∧
        pickNormal (injSched s d port) s d (injLeaves s d port) = some p)) : injPick s d port = some p := by
  rcases h with hurgent | ⟨hnone, hnormal⟩
  · rw [injPick, hurgent, Option.some_or]
  · rw [injPick, hnone, Option.none_or, hnormal]

/-- The pick charged, and its packet out of its queue. -/
def injCharged (s : State) (d : Die) (port : Nat) (p : Pick) : State :=
  onSch s d fun y =>
    { y with inject := tset {} y.inject port (chargePick (injSched s d port) p).1
             injq := tmod {} y.injq p.key fun q =>
               serveQueue q p.q (chargePick (injSched s d port) p).2 ((injSched s d port).urgent.contains (p.tc, p.sub.no, p.q)) }

/-- SCH's read of the picked packet's cells, for the queue that it stands in (R348, log entry 205). -/
def injRead (s : State) (d : Die) (p : Pick) : Bool × State :=
  cellRead s d 0x10 p.q.owner (if p.sub.no = mgmtWho then none else some p.sub.no)

theorem injectionServe_flume {q : QPkt} {l : List QPkt} (hf : forensic s = false) (hq : (injSched s d port).flume = q :: l) :
    injectionServe s d port =
      emit (onSch s d fun y => { y with inject := tmod {} y.inject port fun z => { z with flume := z.flume.tail } }) (.toRoute d q.pkt) := by
  simp only [injectionServe, hf, hq, Bool.false_eq_true, if_false]

/-- The picked packet enters the fabric when its cells have read whole. -/
def injEnter (d : Die) (p : Pick) : Bool × State → State
  | (true, s) => emit s (.toRoute d p.q.pkt)
  | (false, s) => s

theorem injectionServe_data {p : Pick} (hf : forensic s = false) (hq : (injSched s d port).flume = []) (hp : injPick s d port = some p) :
    injectionServe s d port = injEnter d p (injRead (injCharged s d port p) d p) := by
  simp only [injectionServe, hf, hq, Bool.false_eq_true, if_false]
  unfold injPick at hp
  cases hu : pickUrgent (injSched s d port) s d (fun _ => true) (injLeaf s d port) with
  | some r =>
    rw [hu, Option.some_or] at hp
    cases hp
    rfl
  | none =>
    rw [hu, Option.none_or] at hp
    rw [hp]
    rfl

end

/-! ### Age promotion (R239) -/

section

variable {q : QueueId} {h : QPkt}

/-- A queue's head is promoted: the queue has reached the age limit, once, in a class of non-zero weight. -/
structure Aged (s : State) (d : Die) (tc : Nat) (x : Queue) : Prop where
  old : ageLimit s d ≤ x.age
  once : x.promoted = false
  weight : tcWeight s d tc ≠ 0

theorem agePromote_injection {l : List QPkt} (hq : q.inj = true) (hhead : (tget {} (die s d).sch.injq (injKey q.at_ q.tc q.who)).pkts = h :: l)
    (hw : whoWeight s d q.who q.tc ≠ 0) (ha : Aged s d q.tc (tget {} (die s d).sch.injq (injKey q.at_ q.tc q.who))) :
    agePromote s d q = onSch s d fun y =>
      { y with injq := tmod {} y.injq (injKey q.at_ q.tc q.who) fun z => { z with promoted := true }
               inject := tmod {} y.inject q.at_ fun z => { z with urgent := z.urgent ++ [(q.tc, q.who, h)] } } := by
  simp [agePromote, hq, hhead, hw, ha.old, ha.once, ha.weight]

theorem agePromote_egress (hq : q.inj = false)
    (hhead : leafHead s d q.at_ (tget {} (die s d).sch.egq (leafKey q.at_ q.tc q.who)).pkts = some h)
    (hw : groupWeight s d q.tc q.who ≠ 0) (ha : Aged s d q.tc (tget {} (die s d).sch.egq (leafKey q.at_ q.tc q.who))) :
    agePromote s d q =
      onSch (if q.at_ < 64 then pmcAt s d (256 + 2 * (q.at_ / 2)) 1 (egCtx (kPort d q.at_) h.chan) else s) d fun y =>
        { y with egq := tmod {} y.egq (leafKey q.at_ q.tc q.who) fun z => { z with promoted := true }
                 egress := tmod {} y.egress q.at_ fun z => { z with urgent := z.urgent ++ [(q.tc, q.who, h)] } } := by
  simp [agePromote, hq, hhead, hw, ha.old, ha.once, ha.weight]

end

/-- Settles O27: each scheduler's turn by the tier that has its pick, promotion by the head's age. That a suspended packet goes on before
the urgent tier is the model's reading of R285; that SCH reads a packet's cells is log entry 205. -/
theorem schedulersServeInTiers : Obligations.SchedulersServeInTiers := by
  unfold Obligations.SchedulersServeInTiers
  refine ⟨?flume, ?data, ?urgent, ?normal, ?idle, ?resume, ?injFlume, ?injWhole, ?injBroken, ?promoteInj, ?promoteEg, ?boost⟩
  case flume => exact fun s d eg q l hf hq hok => congrArg Host.Outcome.next (egressServe_flume hf hq hok)
  case data => exact fun s d eg hf hq => congrArg Host.Outcome.next (egressServe_data hf hq)
  case urgent => exact fun s d eg p hbridge hlink hu hroom => grantData_serves ⟨hbridge, hlink⟩ (dataPick_urgent hu) hroom
  case normal =>
    exact fun s d eg p hbridge hlink hu hn hroom => grantData_serves ⟨hbridge, hlink⟩ ((dataPick_normal hu).trans hn) hroom
  case idle => exact fun s d eg hbridge hlink hu hn => grantData_idle ⟨hbridge, hlink⟩ ((dataPick_normal hu).trans hn)
  case resume => exact fun s d eg chan rest heg hr hroom => grantData_resumes heg hr hroom
  case injFlume => exact fun s d port q l hf hq => congrArg Host.Outcome.next (injectionServe_flume hf hq)
  case injWhole =>
    exact fun s d port p v hf hq hp hread =>
      congrArg Host.Outcome.next ((injectionServe_data hf hq (injPick_tiers hp)).trans (congrArg (injEnter d p) hread))
  case injBroken =>
    exact fun s d port p v hf hq hp hread =>
      congrArg Host.Outcome.next ((injectionServe_data hf hq (injPick_tiers hp)).trans (congrArg (injEnter d p) hread))
  case promoteInj =>
    exact fun s d q h l hq hhead hw hage honce htc => congrArg Host.Outcome.next (agePromote_injection hq hhead hw ⟨hage, honce, htc⟩)
  case promoteEg =>
    exact fun s d q h hq hhead hw hage honce htc => congrArg Host.Outcome.next (agePromote_egress hq hhead hw ⟨hage, honce, htc⟩)
  case boost => exact fun s d n => rfl

end Sys2Proof.Proofs
end

section
/-! PROOF. MG_EPOCH_WRITE, MG_EPOCH_ACTIVATE, MG_GATE_STAGE and MG_GATE_ACTIVATE through the mailbox (R244, R245, R383 to R388): each
operation's answer, and the mailbox's path to it. -/

namespace Sys2Proof.Proofs

open Sys2Proof Sys2Proof.Machine

/-! ### What the rows offer -/

/-- The blocks of MG_EPOCH_WRITE, MG_EPOCH_ACTIVATE and MG_GATE_ACTIVATE with an operation, WITHDRAW bit or action. -/
abbrev epochWriteBlk (b : Block) (a : Nat) : Block := rowBlk b 0xE2 [(21, 0, 2, a)]
abbrev epochActBlk (b : Block) (a : Nat) : Block := rowBlk b 0xE3 [(20, 4, 1, a)]
abbrev gateActBlk (b : Block) (a : Nat) : Block := rowBlk b 0xE5 [(21, 0, 2, a)]

section

variable (iss : Issuer) (b : Block) (c : List Block) (s : State)

theorem exec_epochWriteClear : exec (.epochWriteClear iss b c) s = .next (taxia s iss (epochWriteBlk b 0) c) := rfl
theorem exec_epochWriteCopyActive : exec (.epochWriteCopyActive iss b c) s = .next (taxia s iss (epochWriteBlk b 1) c) := rfl
theorem exec_epochWritePut : exec (.epochWritePut iss b c) s = .next (taxia s iss (epochWriteBlk b 2) c) := rfl
theorem exec_epochWriteRemove : exec (.epochWriteRemove iss b c) s = .next (taxia s iss (epochWriteBlk b 3) c) := rfl
theorem exec_epochActivate : exec (.epochActivate iss b c) s = .next (taxia s iss (epochActBlk b 0) c) := rfl
theorem exec_epochWithdraw : exec (.epochWithdraw iss b c) s = .next (taxia s iss (epochActBlk b 1) c) := rfl
theorem exec_mgGateStage : exec (.mgGateStage iss b c) s = .next (taxia s iss (rowBlk b 0xE4 []) c) := rfl
theorem exec_gateActivate : exec (.gateActivate iss b c) s = .next (taxia s iss (gateActBlk b 0) c) := rfl
theorem exec_gateWithdraw : exec (.gateWithdraw iss b c) s = .next (taxia s iss (gateActBlk b 1) c) := rfl
theorem exec_gateClear : exec (.gateClear iss b c) s = .next (taxia s iss (gateActBlk b 2) c) := rfl

end

variable {s t : State} {b B : Block} {c : List Block} {d : Die} {n k a port : Nat}

/-! ### MG_EPOCH_WRITE (R383 to R385) -/

theorem length_leBytes (n v : Nat) : (leBytes n v).length = n := by
  induction n generalizing v with
  | zero => rfl
  | succ n ih => rw [leBytes, List.length_cons, ih]

/-- A body without a chain supplies its bytes 24 to 55. -/
theorem length_streamBytes_body (B : Block) : (streamBytes B []).length = 32 := by
  simp only [streamBytes, chainContent, List.flatMap_nil, List.append_nil, blkBytes, length_leBytes]

theorem routingJoint_nil (s : State) (d : Die) : routingJoint s d [] = true := by
  simp [routingJoint, bankRec, findRec]

/-- The bank that operation `a` of MG_EPOCH_WRITE leaves, of the stream's records `rs`: CLEAR, COPY_ACTIVE, PUT, REMOVE. -/
def bankWritten (s : State) (d : Die) (n a : Nat) (rs : List CfgRec) : List CfgRec :=
  if a = 0 then []
  else if a = 1 then domContent s d n
  else if a = 2 then rs.foldl putRec (dom s d n).staged
  else (dom s d n).staged.filter fun r => !(rs.any fun y => decide (y.ty = r.ty ∧ y.index = r.index))

section

variable (s : State) (d : Die) (n : Nat) (rs : List CfgRec)

theorem bankWritten_clear : bankWritten s d n 0 rs = [] := rfl
theorem bankWritten_copyActive : bankWritten s d n 1 rs = domContent s d n := rfl
theorem bankWritten_put : bankWritten s d n 2 rs = rs.foldl putRec (dom s d n).staged := rfl
theorem bankWritten_remove : bankWritten s d n 3 rs =
    (dom s d n).staged.filter fun r => !(rs.any fun y => decide (y.ty = r.ty ∧ y.index = r.index)) := rfl

@[simp] theorem bankWritten_mbxOffer (B : Block) (a : Nat) : bankWritten (mbxOffer s B).1 d n a rs = bankWritten s d n a rs := by
  simp only [bankWritten, domContent_mbxOffer, dom_mbxOffer]

end

/-- A domain with `l` staged, marked valid. -/
abbrev stageBank (s : State) (d : Die) (n : Nat) (l : List CfgRec) : State := modDom s d n fun x => { x with staged := l, stagedValid := true }

/-- MG_EPOCH_WRITE of operation `a`, its body in form, to a banked domain without a pending activation; the body supplies the stream of
a PUT or a REMOVE. -/
structure EpochWrite (s : State) (B : Block) (a : Nat) (rs : List CfgRec) : Prop where
  operation : fld B 21 0 2 = a
  unchained : chainBit B = false
  zero : zeros B [(20, 3, 5), (21, 2, 6), (22, 12, 4), (56, 0, 64)] = true
  oneDie : bothDies B = false
  banked : fld B 20 0 3 ∉ [3, 6, 7]
  idle : (dom s (tgtDie B) (fld B 20 0 3)).pend = none
  supplied : fld B 22 0 12 ≤ 32
  plain : a < 2 → fld B 22 0 12 = 0 ∧ rs = []
  valid : 2 ≤ a → (dom s (tgtDie B) (fld B 20 0 3)).stagedValid = true
  stream : 2 ≤ a → parseStream s (tgtDie B) (fld B 20 0 3) (a == 3) 1024 ((streamBytes B []).take (fld B 22 0 12)) = some rs

theorem mgEpochWrite_stages {rs : List CfgRec} (h : EpochWrite s B a rs)
    (hj : fld B 20 0 3 = 0 → routingJoint s (tgtDie B) (bankWritten s (tgtDie B) (fld B 20 0 3) a rs) = true) :
    mgEpochWrite s B [] = .ok (stageBank s (tgtDie B) (fld B 20 0 3) (bankWritten s (tgtDie B) (fld B 20 0 3) a rs)) 0 := by
  have hbody : mgBody B = B := by rw [mgBody, h.unchained]; rfl
  have hlen : (decide (2 ≤ a) || fld B 22 0 12 == 0) = true := by
    by_cases ha : 2 ≤ a
    · rw [decide_eq_true ha, Bool.true_or]
    · rw [(h.plain (by omega)).1, beq_self_eq_true, Bool.or_true]
  have hstream : (if 2 ≤ a then parseStream s (tgtDie B) (fld B 20 0 3) (a == 3) 1024 ((streamBytes B []).take (fld B 22 0 12)) else some [])
      = some rs := by
    split
    · next ha => exact h.stream ha
    · next ha => rw [(h.plain (by omega)).2]
  have hvalid : ¬ (2 ≤ a ∧ (dom s (tgtDie B) (fld B 20 0 3)).stagedValid = false) := fun hno => by simp [h.valid hno.1] at hno
  have hjoint : ¬ (fld B 20 0 3 = 0 ∧ routingJoint s (tgtDie B) (bankWritten s (tgtDie B) (fld B 20 0 3) a rs) = false) :=
    fun hno => by simp [hj hno.1] at hno
  simp only [mgEpochWrite, hbody, h.zero, h.oneDie, h.banked, h.operation, h.unchained, length_streamBytes_body, h.supplied, h.idle, ge_iff_le,
    hstream, hlen, hvalid, not_false_eq_true, decide_true, Bool.not_false, Bool.and_true, Bool.not_true, Bool.false_eq_true, if_false,
    Option.isSome_none, or_self]
  exact if_neg hjoint

/-! ### MG_EPOCH_ACTIVATE (R386 to R388) -/

/-- The part of MG_EPOCH_ACTIVATE's form that does not depend on WITHDRAW. -/
structure EpochActBody (B : Block) : Prop where
  zero : zeros B [(20, 5, 3), (21, 0, 24), (36, 0, 32), (56, 0, 64)] = true
  oneDie : bothDies B = false
  banked : fld B 20 0 3 ∉ [3, 6, 7]

theorem mgEpochActivate_pends (hb : EpochActBody B) (hact : fld B 20 4 1 = 0)
    (hrefuse : activateRefusal s (tgtDie B) (fld B 20 0 3) B = none)
    (hwhole : bankWhole s (tgtDie B) (fld B 20 0 3) (dom s (tgtDie B) (fld B 20 0 3)).staged = true) :
    mgEpochActivate s B = .ok (modDom s (tgtDie B) (fld B 20 0 3) fun x =>
      { x with pend := some { actTime := fld B 24 0 64, epoch := fld B 32 0 32, tag := fld B 48 0 64, requireLock := fld B 20 3 1 == 1 } }) 0 := by
  obtain ⟨hz, hd, hn⟩ := hb
  simp [mgEpochActivate, hz, hd, hn, hact, hrefuse, hwhole]

theorem mgEpochActivate_withdraws (hb : EpochActBody B) (hact : fld B 20 4 1 = 1) (hrest : fld B 24 0 256 = 0)
    (hpend : (dom s (tgtDie B) (fld B 20 0 3)).pend.isSome = true) :
    mgEpochActivate s B = .ok (modDom s (tgtDie B) (fld B 20 0 3) fun x => { x with pend := none }) 0 := by
  obtain ⟨hz, hd, hn⟩ := hb
  simp [mgEpochActivate, hz, hd, hn, hact, hrest, hpend]

/-! ### The gate commands (R244, R245) -/

/-- A table reads its default or one of its entries. -/
theorem tget_eq_default_or_mem {α : Type} (dflt : α) (t : Tab α) (k : Nat) : tget dflt t k = dflt ∨ (k, tget dflt t k) ∈ t := by
  induction t with
  | nil => exact .inl rfl
  | cons p t ih =>
    obtain ⟨j, v⟩ := p
    rw [tget]
    split
    · next hj => exact .inr (by rw [hj]; exact List.mem_cons_self)
    · split
      · exact .inl rfl
      · exact ih.imp_right (List.mem_cons_of_mem _)

/-- With no activation due, a pending activation of a gate lies ahead. -/
theorem pendTime_ahead (hs : settled s = true) (hp : (gateOf s d k).pending = true) : s.time.ns < (gateOf s d k).pendTime := by
  have hdue : actsDue s d = false := by
    simp only [settled, Bool.and_eq_true, Bool.not_eq_true'] at hs
    cases d
    · exact hs.1
    · exact hs.2
  rcases tget_eq_default_or_mem {} (die s d).sch.gates k with hnone | hmem
  · rw [gateOf, hnone] at hp
    exact absurd hp Bool.false_ne_true
  · simp only [actsDue, Bool.or_eq_false_iff, List.any_eq_false] at hdue
    simpa [gateOf, show (tget {} (die s d).sch.gates k).pending = true from hp] using hdue.2 _ hmem

theorem gateSettle_of_settled (hs : settled s = true) : gateSettle s d port = s := by
  refine if_neg ?_
  rintro ⟨hp, hdue, -⟩
  have hahead := pendTime_ahead hs hp
  omega

theorem mgGateStage_stages {l : List GateEntry} (hs : settled s = true) (hform : gateStageForm B [] = true)
    (hl : ((gateWords B []).take (fld B 22 0 9)).mapM decGateEntry = some l) (hok : gateListOk l = true)
    (hp : (gateOf s (tgtDie B) (portK (fld B 20 0 7))).pending = false) :
    mgGateStage s B [] = .ok (modGate s (tgtDie B) (portK (fld B 20 0 7)) fun g =>
      { g with staged := l, stagedGuard := fld B 21 0 1 == 1, stagedValid := true }) 0 := by
  simp only [mgGateStage, hform, if_true, hl, gateSettle_of_settled hs, hok, hp, Bool.not_true, Bool.false_eq_true, if_false]

/-- MG_GATE_ACTIVATE of action `a`, its body in form, for a port that is there. -/
structure GateAct (B : Block) (a : Nat) : Prop where
  action : fld B 21 0 2 = a
  zero : zeros B [(20, 7, 1), (21, 2, 6), (22, 0, 16)] = true
  rest : zeroFrom B 32 = true
  oneDie : bothDies B = false
  port : portOn (tgtDie B) (fld B 20 0 7) = true

theorem mgGateActivate_pends (h : GateAct B a) (ha : a = 0 ∨ a = 2) (hs : settled s = true)
    (hp : (gateOf s (tgtDie B) (portK (fld B 20 0 7))).pending = false)
    (hv : a = 0 → (gateOf s (tgtDie B) (portK (fld B 20 0 7))).stagedValid = true) (ht : actTimeSub s (fld B 24 0 64) = none) :
    mgGateActivate s B = .ok (modGate s (tgtDie B) (portK (fld B 20 0 7)) fun g =>
      { g with pending := true, pendClear := decide (a = 2), pendTime := fld B 24 0 64 }) 0 := by
  obtain ⟨hact, hz, hrest, hd, hport⟩ := h
  have hle : a ≤ 2 := by omega
  have hne : a ≠ 1 := by omega
  have hvalid : ¬ (a = 0 ∧ (gateOf s (tgtDie B) (portK (fld B 20 0 7))).stagedValid = false) := fun hno => by simp [hv hno.1] at hno
  simp [mgGateActivate, hact, hz, hrest, hd, hport, gateSettle_of_settled hs, hp, hvalid, ht, hle, hne]

theorem mgGateActivate_withdraws (h : GateAct B 1) (hs : settled s = true) (ht : fld B 24 0 64 = 0)
    (hp : (gateOf s (tgtDie B) (portK (fld B 20 0 7))).pending = true) :
    mgGateActivate s B = .ok (modGate s (tgtDie B) (portK (fld B 20 0 7)) fun g => { g with pending := false, pendClear := false }) 0 := by
  obtain ⟨hact, hz, hrest, hd, hport⟩ := h
  simp [mgGateActivate, hact, hz, hrest, hd, hport, gateSettle_of_settled hs, hp, ht]

/-! ### The mailbox's path -/

theorem mbxReady_settled (h : mbxReady s B = true) : settled (mbxOffer s B).1 = true := by
  simp only [mbxReady, Bool.and_eq_true] at h
  obtain ⟨⟨-, hs⟩, -⟩ := h
  exact hs

/-- Through the mailbox, the command `B` leaves `t` and completes with CC_OK. -/
abbrev MailboxOk (s : State) (B : Block) (c : List Block) (t : State) : Prop :=
  Host.Outcome.next (taxia s .mailbox B c) =
    (.next (completeOp t (mbxOffer s B).2 { code := 0, result := 0 }) : Host.Outcome State Fault Refusal)

theorem mailbox_ok (hr : mbxReady s B = true) (hop : 0xE0 ≤ fld B 0 0 8 ∧ fld B 0 0 8 < 256)
    (h : mgRun (mbxOffer s B).1 (mbxOffer s B).2 B [] = .ok t 0) : MailboxOk s B c t :=
  congrArg Host.Outcome.next (mbx_ok s B c _ t 0 rfl hop.1 hop.2 hr h)

/-- What holds of the domain that MG_EPOCH_WRITE of operation `a` names, and of its body, when a mailbox offers it. -/
structure MbxEpochWrite (s : State) (b : Block) (a : Nat) : Prop where
  ready : mbxReady s (epochWriteBlk b a) = true
  zero : zeros (epochWriteBlk b a) [(20, 3, 5), (21, 2, 6), (22, 12, 4), (56, 0, 64)] = true
  oneDie : bothDies (epochWriteBlk b a) = false
  banked : fld (epochWriteBlk b a) 20 0 3 ∉ [3, 6, 7]
  idle : (dom s (tgtDie (epochWriteBlk b a)) (fld (epochWriteBlk b a) 20 0 3)).pend = none

theorem epochWrite_plain (h : MbxEpochWrite s b a) (ha : a < 2) (hlen : fld (epochWriteBlk b a) 22 0 12 = 0) :
    EpochWrite (mbxOffer s (epochWriteBlk b a)).1 (epochWriteBlk b a) a [] where
  operation := (fld_rowBlk_one b 0xE2 21 0 2 a (by omega)).trans (Nat.mod_eq_of_lt (by omega))
  unchained := mbxReady_chain s _ h.ready
  zero := h.zero
  oneDie := h.oneDie
  banked := h.banked
  idle := by rw [dom_mbxOffer]; exact h.idle
  supplied := by omega
  plain := fun _ => ⟨hlen, rfl⟩
  valid := fun hno => by omega
  stream := fun hno => by omega

theorem epochWrite_streamed {rs : List CfgRec} (h : MbxEpochWrite s b a) (ha : 2 ≤ a) (ha4 : a < 4)
    (hlen : fld (epochWriteBlk b a) 22 0 12 ≤ 32)
    (hv : (dom s (tgtDie (epochWriteBlk b a)) (fld (epochWriteBlk b a) 20 0 3)).stagedValid = true)
    (hrs : parseStream s (tgtDie (epochWriteBlk b a)) (fld (epochWriteBlk b a) 20 0 3) (a == 3) 1024
      ((streamBytes (epochWriteBlk b a) []).take (fld (epochWriteBlk b a) 22 0 12)) = some rs) :
    EpochWrite (mbxOffer s (epochWriteBlk b a)).1 (epochWriteBlk b a) a rs where
  operation := (fld_rowBlk_one b 0xE2 21 0 2 a (by omega)).trans (Nat.mod_eq_of_lt (by omega))
  unchained := mbxReady_chain s _ h.ready
  zero := h.zero
  oneDie := h.oneDie
  banked := h.banked
  idle := by rw [dom_mbxOffer]; exact h.idle
  supplied := hlen
  plain := fun hno => by omega
  valid := fun _ => by rw [dom_mbxOffer]; exact hv
  stream := fun _ => by rw [parseStream_mbxOffer]; exact hrs

theorem mailbox_epochWrite {rs : List CfgRec} (hr : mbxReady s (epochWriteBlk b a) = true)
    (h : EpochWrite (mbxOffer s (epochWriteBlk b a)).1 (epochWriteBlk b a) a rs)
    (hj : fld (epochWriteBlk b a) 20 0 3 = 0 →
      routingJoint s (tgtDie (epochWriteBlk b a)) (bankWritten s (tgtDie (epochWriteBlk b a)) (fld (epochWriteBlk b a) 20 0 3) a rs) = true) :
    MailboxOk s (epochWriteBlk b a) c (stageBank (mbxOffer s (epochWriteBlk b a)).1 (tgtDie (epochWriteBlk b a))
      (fld (epochWriteBlk b a) 20 0 3) (bankWritten s (tgtDie (epochWriteBlk b a)) (fld (epochWriteBlk b a) 20 0 3) a rs)) := by
  have hop : fld (epochWriteBlk b a) 0 0 8 = 0xE2 := fld_rowBlk_op b 0xE2 _ (by simp)
  have hstages := mgEpochWrite_stages h (by rw [bankWritten_mbxOffer, routingJoint_mbxOffer]; exact hj)
  rw [bankWritten_mbxOffer] at hstages
  exact mailbox_ok hr (by omega) ((mgRun_E2 _ _ _ _ hop (mbxReady_target s _ hr)).trans hstages)

theorem mailbox_epochActivate (hr : mbxReady s (epochActBlk b a) = true)
    (h : mgEpochActivate (mbxOffer s (epochActBlk b a)).1 (epochActBlk b a) = .ok t 0) : MailboxOk s (epochActBlk b a) c t := by
  have hop : fld (epochActBlk b a) 0 0 8 = 0xE3 := fld_rowBlk_op b 0xE3 _ (by simp)
  exact mailbox_ok hr (by omega) ((mgRun_E3 _ _ _ _ hop (mbxReady_target s _ hr)).trans h)

theorem mailbox_gateStage (hr : mbxReady s (rowBlk b 0xE4 []) = true)
    (h : mgGateStage (mbxOffer s (rowBlk b 0xE4 [])).1 (rowBlk b 0xE4 []) [] = .ok t 0) : MailboxOk s (rowBlk b 0xE4 []) c t := by
  have hop : fld (rowBlk b 0xE4 []) 0 0 8 = 0xE4 := fld_rowBlk_op b 0xE4 [] (by simp)
  exact mailbox_ok hr (by omega) ((mgRun_E4 _ _ _ _ hop (mbxReady_target s _ hr)).trans h)

theorem mailbox_gateActivate (hr : mbxReady s (gateActBlk b a) = true)
    (h : mgGateActivate (mbxOffer s (gateActBlk b a)).1 (gateActBlk b a) = .ok t 0) : MailboxOk s (gateActBlk b a) c t := by
  have hop : fld (gateActBlk b a) 0 0 8 = 0xE5 := fld_rowBlk_op b 0xE5 _ (by simp)
  exact mailbox_ok hr (by omega) ((mgRun_E5 _ _ _ _ hop (mbxReady_target s _ hr)).trans h)

/-- Settles O2: each clause is the operation's own lemma on the state that the mailbox's offer leaves, whose domains and gates are those
before it; no gate of a ready mailbox's state is due, so a command finds its gate as it stands. -/
theorem epochsAndStagedSetsAct : Obligations.EpochsAndStagedSetsAct := by
  unfold Obligations.EpochsAndStagedSetsAct
  refine ⟨?activate, ?withdraw, ?stage, ?gateActivate, ?gateWithdraw, ?gateClear, ?clear, ?copyActive, ?put, ?remove⟩
  case activate =>
    intro s b c B p d n hr hz hd hn hrefuse hwhole
    rw [← activateRefusal_mbxOffer s B] at hrefuse
    rw [← bankWhole_mbxOffer s B, ← dom_mbxOffer s B] at hwhole
    rw [exec_epochActivate]
    exact mailbox_epochActivate hr (mgEpochActivate_pends ⟨hz, hd, hn⟩ (fld_rowBlk_one b 0xE3 20 4 1 0 (by omega)) hrefuse hwhole)
  case withdraw =>
    intro s b c B p d n hr hz hd hn hrest hpend
    rw [← dom_mbxOffer s B] at hpend
    rw [exec_epochWithdraw]
    exact mailbox_epochActivate hr (mgEpochActivate_withdraws ⟨hz, hd, hn⟩ (fld_rowBlk_one b 0xE3 20 4 1 1 (by omega)) hrest hpend)
  case stage =>
    intro s b c l B p d k hr hform hl hok hp
    rw [← gateOf_mbxOffer s B] at hp
    rw [exec_mgGateStage]
    exact mailbox_gateStage hr (mgGateStage_stages (mbxReady_settled hr) hform hl hok hp)
  case gateActivate =>
    intro s b c B p d k hr hz hrest hd hport hp hv ht
    rw [← gateOf_mbxOffer s B] at hp hv
    rw [← actTimeSub_mbxOffer s B] at ht
    rw [exec_gateActivate]
    exact mailbox_gateActivate hr (mgGateActivate_pends ⟨fld_rowBlk_one b 0xE5 21 0 2 0 (by omega), hz, hrest, hd, hport⟩ (.inl rfl)
      (mbxReady_settled hr) hp (fun _ => hv) ht)
  case gateWithdraw =>
    intro s b c B p d k hr hz hrest hd hport ht hp
    rw [← gateOf_mbxOffer s B] at hp
    rw [exec_gateWithdraw]
    exact mailbox_gateActivate hr (mgGateActivate_withdraws ⟨fld_rowBlk_one b 0xE5 21 0 2 1 (by omega), hz, hrest, hd, hport⟩
      (mbxReady_settled hr) ht hp)
  case gateClear =>
    intro s b c B p d k hr hz hrest hd hport hp ht
    rw [← gateOf_mbxOffer s B] at hp
    rw [← actTimeSub_mbxOffer s B] at ht
    rw [exec_gateClear]
    exact mailbox_gateActivate hr (mgGateActivate_pends ⟨fld_rowBlk_one b 0xE5 21 0 2 2 (by omega), hz, hrest, hd, hport⟩ (.inr rfl)
      (mbxReady_settled hr) hp (fun h => absurd h (by decide)) ht)
  case clear =>
    intro s b c B p d n hr hz hd hn hpend hlen
    have h := mailbox_epochWrite (c := c) hr (epochWrite_plain ⟨hr, hz, hd, hn, hpend⟩ (by decide) hlen)
      (by rw [bankWritten_clear]; exact fun _ => routingJoint_nil s d)
    rw [bankWritten_clear] at h
    exact (exec_epochWriteClear ..).trans h
  case copyActive =>
    intro s b c B p d n hr hz hd hn hpend hlen hj
    have h := mailbox_epochWrite (c := c) hr (epochWrite_plain ⟨hr, hz, hd, hn, hpend⟩ (by decide) hlen)
      (by rw [bankWritten_copyActive]; exact hj)
    rw [bankWritten_copyActive] at h
    exact (exec_epochWriteCopyActive ..).trans h
  case put =>
    intro s b c rs B p d n hr hz hd hn hpend hlen hv hrs hj
    have h := mailbox_epochWrite (c := c) hr (epochWrite_streamed ⟨hr, hz, hd, hn, hpend⟩ (by decide) (by decide) hlen hv hrs)
      (by rw [bankWritten_put]; exact hj)
    rw [bankWritten_put] at h
    exact (exec_epochWritePut ..).trans h
  case remove =>
    intro s b c rs B p d n hr hz hd hn hpend hlen hv hrs hj
    have h := mailbox_epochWrite (c := c) hr (epochWrite_streamed ⟨hr, hz, hd, hn, hpend⟩ (by decide) (by decide) hlen hv hrs)
      (by rw [bankWritten_remove]; exact hj)
    rw [bankWritten_remove] at h
    exact (exec_epochWriteRemove ..).trans h

end Sys2Proof.Proofs
end

section
/-! PROOF. Cruise and the event counters (R256 to R265, R271, R272): the ticks, the summaries received, the maps, the sample of a wrap and
the snapshot. -/

namespace Sys2Proof.Proofs

open Sys2Proof Sys2Proof.Machine

variable {s : State} {d : Die} {k i part : Nat} {m : Summary} {b : Bridge} {r : PortRec} {addr : BitVec 24} {w : Nat × Nat}

/-- The condition of a summary's tick (R259, R260). -/
theorem summaryTick_due {last : Nat} (hon : cruiseOn s d = true) (hf : forensic s = false) (hdue : tickDue s 2000 last = true) :
    (cruiseOn s d && !(forensic s) && tickDue s 2000 last) = true := by
  rw [hon, hf, hdue]; rfl

/-! ### A summary received (R260) -/

/-- The state in which a received summary is judged: it has been counted. -/
abbrev summaryCounted (s : State) (d : Die) : State := pmc s d 707 1

theorem summaryReceive_local (hp : portRec (summaryCounted s d) d (kPort d k) = some r)
    (hfore : (link (summaryCounted s d) d k).forerunner = false) (hrole : r.role = 1)
    (hown : grpOf m.router = (summaryCounted s d).ident.group) :
    summaryReceive s d (.link k) m = storeSum (summaryCounted s d) d (rtrOf m.router) m true false := by
  simp only [summaryReceive, hp, hfore, hrole, hown, decide_true, Bool.false_eq_true, if_false, if_true]

theorem summaryReceive_global (hp : portRec (summaryCounted s d) d (kPort d k) = some r)
    (hfore : (link (summaryCounted s d) d k).forerunner = false) (hrole : r.role = 2)
    (hfar : routerPart m.router = routerPart (link (summaryCounted s d) d k).partner) :
    summaryReceive s d (.link k) m = storeSum (summaryCounted s d) d (farKey (routerPart m.router)) m false true := by
  have hone : ¬ (2 = 1) := by decide
  simp only [summaryReceive, hp, hfore, hrole, hone, hfar, and_self, Bool.false_eq_true, if_false, if_true]

/-- The summary of a bridge is newer than the record of its router. -/
abbrev bridgeNewer (s : State) (d : Die) (m : Summary) : Bool :=
  sumNewer (tget none (die (summaryCounted s d) d).crz.view (rtrOf m.router)) m

/-- The state after the record of a bridge's summary. -/
abbrev bridgeStored (s : State) (d : Die) (m : Summary) : State := storeSum (summaryCounted s d) d (rtrOf m.router) m true true

/-- A bridge's summary of the group is stored; a newer one of the partner die gives its gateways besides. -/
theorem summaryReceive_bridge (hown : grpOf m.router = (summaryCounted s d).ident.group) :
    summaryReceive s d (.bridge b) m =
      if bridgeNewer s d m && decide (routerPart m.router = routerAddr (bridgeStored s d m) d.other) then
        onCrz (bridgeStored s d m) d fun c => { c with partnerGlobal := m.entries.filter fun e => decide (e.die = d.other.idx) }
      else bridgeStored s d m := by
  simp only [summaryReceive, hown, decide_true, if_true]

/-! ### Maps (R253, R262, R264, R265) -/

/-- The multiple of PERIOD that device time has reached. -/
abbrev mapTime (s : State) (d : Die) : Nat := s.time.ns / (1000 * max 1 (die s d).crz.mapPeriod)

theorem exec_mapPush_due (hen : (die s d).crz.mapEn = true) (hnew : mapTime s d ≠ (die s d).crz.mapMultiple)
    (hapart : ∀ t, (die s d).crz.mapAt = some t → t + 500 * (die s d).crz.mapPeriod ≤ s.now) (hon : cruiseOn s d = true)
    (hf : forensic s = false) :
    exec (.mapPush d) s = .next (onCrz (pushMap s d) d fun c => { c with mapAt := some s.now, mapMultiple := mapTime s d }) := by
  refine if_pos ?_
  cases hat : (die s d).crz.mapAt with
  | none => simp only [hen, hnew, hon, hf, ne_eq, not_false_eq_true, decide_true, Bool.not_false, Bool.and_self]
  | some t => simp only [hen, hnew, hapart t hat, hon, hf, ne_eq, not_false_eq_true, decide_true, Bool.not_false, Bool.and_self]

theorem exec_mapPartReceive_passed {p : Pkt} {f : FlumePkt} (hf : flumeOf p = some f) (ht : f.ftype = 3) (hpass : (policed s d p).2 = true) :
    exec (.mapPartReceive d p) s = .next (mapReceive (policed s d p).1 d p f) := by
  have hrow : exec (.mapPartReceive d p) s = execMapPartReceive d p s := rfl
  rw [hrow, execMapPartReceive, hf]
  simp only [ht, hpass, if_true]

theorem closeMap_open {n : Nat} (hopen : (tget {} (die s d).crz.rx n).open_ = true) :
    closeMap s d n =
      let m : MapSlot := { tget {} (die s d).crz.rx n with open_ := false }
      slotWrite (modSlot s d n m) d n 0 (leBytes 8 (slotWord m)) := if_pos hopen

/-! ### The sample of a wrap (R272) -/

/-- The state in which a noted wrap is sampled. -/
abbrev wrapTaken (s : State) (d : Die) (w : Nat × Nat) : State := onCrz s d fun c => { c with wraps := c.wraps.erase w }

theorem wrapSample_takes (hw : ((die s d).crz.wraps.find? fun w => decide (w.1 = i)) = some w)
    (hfree : bit (regVal (wrapTaken s d w) d 0x606008) 11 = false) :
    wrapSample s d i part addr =
      let u := wrapTaken s d w
      let v := 768 * d.idx + i + 2 ^ 11 + min 64 (cyclesIn w.2 (s.now - w.2) + part % 4) * 2 ^ 12 + contextOf u d i addr * 2 ^ 32
      raiseSource (setReg (setReg u d 0x606008 v) d 0x606010 s.time.ns) d (bits (regVal u d 0x606000) 16 12) := by
  have hnow : (wrapTaken s d w).now = s.now := onDie_now ..
  have htime : (wrapTaken s d w).time = s.time := onDie_time ..
  rw [wrapSample, hw]
  simp only [hfree, hnow, htime, Bool.false_eq_true, if_false]

theorem wrapSample_counts_lost (hw : ((die s d).crz.wraps.find? fun w => decide (w.1 = i)) = some w)
    (hheld : bit (regVal (wrapTaken s d w) d 0x606008) 11 = true) :
    wrapSample s d i part addr =
      let v := regVal (wrapTaken s d w) d 0x606008
      setReg (wrapTaken s d w) d 0x606008 (setBits v 24 8 (satInc 8 (bits v 24 8))) := by
  rw [wrapSample, hw]
  exact if_pos hheld

/-! ### The snapshot (R271) -/

/-- The register of a counter's copy. -/
abbrev snapReg (i : Nat) : Nat := 0x604000 + 8 * i

/-- The counters of a list are copied. -/
def snapped (s : State) (d : Die) (l : List Nat) : State := l.foldl (fun s i => setReg s d (snapReg i) (regVal s d (pmcCnt i))) s

theorem exec_pmcSnap (s : State) (d : Die) : exec (.pmcSnap d) s = .next (snapped s d (List.range 768)) := rfl

/-- A copy's register is the counter's own, and no counter. -/
theorem regVal_snapOne {j : Nat} (h : twf 0 s.regs = true) (hi : i < 768) (hj : j < 768) (v : Nat) :
    regVal (setReg s d (snapReg j) v) d (snapReg i) = (if i = j then v else regVal s d (snapReg i)) ∧
      regVal (setReg s d (snapReg j) v) d (pmcCnt i) = regVal s d (pmcCnt i) := by
  have hkey (k : Nat) (hk : k < 2 ^ 26) : regKey d k = regKey d (snapReg j) ↔ d = d ∧ k = snapReg j :=
    regKey_inj (by unfold snapReg; omega) hk
  have hcopy : d = d ∧ snapReg i = snapReg j ↔ i = j := (and_iff_right rfl).trans (by unfold snapReg; omega)
  have hcnt : ¬ (d = d ∧ pmcCnt i = snapReg j) := by unfold pmcCnt snapReg; omega
  rw [regVal_setReg v h (hkey _ (by unfold snapReg; omega)), regVal_setReg v h (hkey _ (by unfold pmcCnt; omega)), if_neg hcnt]
  exact ⟨if_congr hcopy rfl rfl, rfl⟩

/-- Copying a list of counters: each of them is read in its copy, and no counter has changed. -/
theorem regVal_snapped {l : List Nat} (h : twf 0 s.regs = true) (hl : ∀ j ∈ l, j < 768) (hi : i < 768) :
    regVal (snapped s d l) d (snapReg i) = if i ∈ l then regVal s d (pmcCnt i) else regVal s d (snapReg i) := by
  induction l generalizing s with
  | nil => rfl
  | cons j l ih =>
    obtain ⟨hcopy, hcnt⟩ := regVal_snapOne (d := d) h hi (hl j List.mem_cons_self) (regVal s d (pmcCnt j))
    have hrest := ih (s := setReg s d (snapReg j) (regVal s d (pmcCnt j))) (tset_wf 0 s.regs _ _ h) fun k hk => hl k (List.mem_cons_of_mem _ hk)
    rw [hcopy, hcnt] at hrest
    rw [snapped, List.foldl_cons, ← snapped, hrest]
    by_cases hij : i = j
    · subst hij
      simp
    · simp [hij]

/-- Settles O30: each row by the branch that its condition takes. That a wrap's sample takes the firmware's address and the cycles
within the tick from the row's operands is the model's own choice, log entry 194. -/
theorem cruiseMapsAndCountersAct : Obligations.CruiseMapsAndCountersAct := by
  unfold Obligations.CruiseMapsAndCountersAct
  refine ⟨?sample, ?send, ?overLocal, ?overGlobal, ?overBridge, ?ofPartner, ?forward, ?stale, ?push, ?part, ?close, ?wrap, ?lost, ?snap,
    ?copied⟩
  case sample =>
    intro s d t u hon hdue
    exact congrArg Host.Outcome.next (if_pos (by rw [hon, hdue]; rfl))
  case send =>
    intro s d m v u x hon hdue hf
    exact congrArg Host.Outcome.next (if_pos (summaryTick_due hon hf hdue))
  case overLocal =>
    intro s d k m r u hp hfore hrole hown
    exact congrArg Host.Outcome.next (summaryReceive_local hp hfore hrole hown)
  case overGlobal =>
    intro s d k m r u hp hfore hrole hfar
    exact congrArg Host.Outcome.next (summaryReceive_global hp hfore hrole hfar)
  case overBridge =>
    intro s d b m u newer v hown hold
    have hno : (newer && decide (routerPart m.router = routerAddr v d.other)) = false := by
      rcases hold with hnew | hrouter
      · rw [hnew, Bool.false_and]
      · rw [decide_eq_false hrouter, Bool.and_false]
    exact congrArg Host.Outcome.next ((summaryReceive_bridge hown).trans (if_neg (by rw [hno]; decide)))
  case ofPartner =>
    intro s d b m u newer v hown hnew hrouter
    exact congrArg Host.Outcome.next ((summaryReceive_bridge hown).trans (if_pos (by rw [decide_eq_true hrouter, Bool.and_true]; exact hnew)))
  case forward =>
    intro s d l u hon hdue hf
    exact congrArg Host.Outcome.next (if_pos (summaryTick_due hon hf hdue))
  case stale =>
    intro s d r n hview hstale
    have hrow : exec (.summaryStale d r) s = .next (summaryStale s d r) := rfl
    rw [hrow, summaryStale, hview]
    exact congrArg Host.Outcome.next (if_pos hstale)
  case push =>
    intro s d c x hen hmul hapart hon hf
    exact exec_mapPush_due hen hmul hapart hon hf
  case part =>
    intro s d p f hf ht hpass
    exact exec_mapPartReceive_passed hf ht hpass
  case close =>
    intro s d n m hopen hdue
    have hrow : exec (.mapCloseTimeout d n) s = .next (closeMap s d n) := if_pos ⟨hopen, hdue⟩
    rw [hrow, closeMap_open hopen]
  case wrap =>
    intro s d i part addr w u v hw hfree
    exact congrArg Host.Outcome.next (wrapSample_takes hw hfree)
  case lost =>
    intro s d i part addr w u v hw hheld
    exact congrArg Host.Outcome.next (wrapSample_counts_lost hw hheld)
  case snap =>
    intro s d
    exact exec_pmcSnap s d
  case copied =>
    intro s d i h hi
    refine ⟨_, exec_pmcSnap s d, ?_⟩
    rw [regVal_snapped h (fun j hj => List.mem_range.mp hj) hi, if_pos (List.mem_range.mpr hi)]

end Sys2Proof.Proofs
end

section
/-! PROOF. MG_MODE_SET, MG_REG_READ, MG_REG_WRITE and MG_CRUISE through the mailbox (R266, R409 to R411, R427, R437, R472): each
operation's answer, and the mailbox's path to it. -/

namespace Sys2Proof.Proofs

open Sys2Proof Sys2Proof.Machine

/-! ### What the rows offer -/

/-- The blocks of MG_MODE_SET and MG_CRUISE with an action. -/
abbrev modeBlk (b : Block) (a : Nat) : Block := rowBlk b 0xE8 [(20, 0, 3, a)]
abbrev cruiseBlk (b : Block) (a : Nat) : Block := rowBlk b 0xEB [(20, 0, 2, a)]

section

variable (iss : Issuer) (b : Block) (c : List Block) (s : State)

theorem exec_modeSetDrain : exec (.modeSetDrain iss b c) s = .next (taxia s iss (modeBlk b 0) c) := rfl
theorem exec_modeSetResume : exec (.modeSetResume iss b c) s = .next (taxia s iss (modeBlk b 1) c) := rfl
theorem exec_modeSetStandby : exec (.modeSetStandby iss b c) s = .next (taxia s iss (modeBlk b 2) c) := rfl
theorem exec_modeSetReset : exec (.modeSetReset iss b c) s = .next (taxia s iss (modeBlk b 3) c) := rfl
theorem exec_modeSetForensic : exec (.modeSetForensic iss b c) s = .next (taxia s iss (modeBlk b 4) c) := rfl
theorem exec_mgRegRead : exec (.mgRegRead iss b c) s = .next (taxia s iss (rowBlk b 0xE9 []) c) := rfl
theorem exec_mgRegWrite : exec (.mgRegWrite iss b c) s = .next (taxia s iss (rowBlk b 0xEA []) c) := rfl
theorem exec_cruisePushNow : exec (.cruisePushNow iss b c) s = .next (taxia s iss (cruiseBlk b 0) c) := rfl
theorem exec_cruiseSetPush : exec (.cruiseSetPush iss b c) s = .next (taxia s iss (cruiseBlk b 1) c) := rfl
theorem exec_cruiseSetReceive : exec (.cruiseSetReceive iss b c) s = .next (taxia s iss (cruiseBlk b 2) c) := rfl

end

variable {s t : State} {b B : Block} {c : List Block} {o a v : Nat}

/-! ### MG_MODE_SET (R410, R411, R437) -/

/-- MG_MODE_SET of action `a`, its body in form. -/
structure ModeSet (B : Block) (a : Nat) : Prop where
  action : fld B 20 0 3 = a
  zero : zeros B [(20, 3, 5)] = true
  rest : zeroFrom B 21 = true

theorem modeSet_modeBlk (ha : a < 8) (hz : zeros (modeBlk b a) [(20, 3, 5)] = true) (ht : zeroFrom (modeBlk b a) 21 = true) :
    ModeSet (modeBlk b a) a :=
  ⟨(fld_rowBlk_one b 0xE8 20 0 3 a (by omega)).trans (Nat.mod_eq_of_lt (by omega)), hz, ht⟩

/-- Entry to Standby, and an internal device reset, due at a moment. -/
def standbyAt (s : State) (due : Nat) : State := { s with sys := { s.sys with standbyDue := some due } }
def resetAt (s : State) (due : Nat) : State := { s with sys := { s.sys with resetDue := some due } }

theorem mgModeSet_drains (h : ModeSet B 0) (hm : s.sys.mode = .service ∨ s.sys.mode = .degraded) :
    mgModeSet s o B = .ok (setMode (eachRing s drainRing) .drain 0) 0 := by
  obtain ⟨hact, hz, ht⟩ := h
  simp [mgModeSet, hact, hz, ht, hm]

theorem mgModeSet_resumes (h : ModeSet B 1) (hm : s.sys.mode = .drain) :
    mgModeSet s o B = .ok (eachRing (setMode s (serviceMode s) 0) undrainRing) 0 := by
  obtain ⟨hact, hz, ht⟩ := h
  simp [mgModeSet, hact, hz, ht, hm]

theorem mgModeSet_standsBy (h : ModeSet B 2) (hm : s.sys.mode = .drain) (hno : standbyRefusal s = none) :
    mgModeSet s o B = .ok (standbyAt s (s.now + 10000000)) 0 := by
  obtain ⟨hact, hz, ht⟩ := h
  simp [mgModeSet, onSys, standbyAt, hact, hz, ht, hm, hno]

theorem mgModeSet_resets (h : ModeSet B 3) (hm : s.sys.mode ≠ .standby) :
    mgModeSet s o B = .ok (resetAt s (s.now + 1000000)) 0 := by
  obtain ⟨hact, hz, ht⟩ := h
  simp [mgModeSet, onSys, resetAt, hact, hz, ht, hm]

/-- FORENSIC completes its own command before the mode is entered. -/
theorem mgModeSet_entersForensic (h : ModeSet B 4) (hm : s.sys.mode = .service ∨ s.sys.mode = .degraded ∨ s.sys.mode = .drain) :
    mgModeSet s o B = .hold (forensicEnter (completeOp s o { code := 0 }) 0 none) := by
  obtain ⟨hact, hz, ht⟩ := h
  have hruns : firmwareRuns s = true := by
    unfold firmwareRuns
    rcases hm with h | h | h <;> rw [h]
  simp [mgModeSet, hact, hz, ht, hruns]

/-! ### MG_REG_READ and MG_REG_WRITE (R427, R472) -/

/-- A register command in the mailbox accesses as the management function, from its die. -/
theorem regCmdMaster_mbxOffer (s : State) (B : Block) :
    regCmdMaster (mbxOffer s B).1 (mbxOffer s B).2 = (.host (mgmtFn s), portDie (mgmtFn s).port) := by
  rw [regCmdMaster, mbxOffer_op]
  rfl

theorem mgRegRead_mbxOffer (hform : regCmdForm B false = true)
    (h : regReadAs (mbxOffer s B).1 (.host (mgmtFn s)) false (fld B 20 0 28) (fld B 24 0 8) = (t, .done v)) :
    mgRegRead (mbxOffer s B).1 (mbxOffer s B).2 B = .ok t v := by
  rw [mgRegRead, if_pos hform, regCmdMaster_mbxOffer, h, regCmdRes]

theorem mgRegWrite_mbxOffer (hform : regCmdForm B true = true)
    (h : regWriteAs (mbxOffer s B).1 (.host (mgmtFn s)) false (portDie (mgmtFn s).port) (fld B 20 0 28) (fld B 24 0 8) (fld B 32 0 64)
      = (t, .done v)) :
    mgRegWrite (mbxOffer s B).1 (mbxOffer s B).2 B = .ok t v := by
  rw [mgRegWrite, if_pos hform, regCmdMaster_mbxOffer, h, regCmdRes]

/-! ### MG_CRUISE (R266) -/

/-- The dies that a command addresses (R31). -/
abbrev addressed (B : Block) : List Die := if bothDies B then [.west, .east] else [tgtDie B]

/-- The sequence numbers of the maps that PUSH_NOW sends, one in the half of each die. -/
def pushedSeqs (s : State) (l : List Die) : Nat := (l.map fun d => ((die s d).crz.mapSeq + 1) % 2 ^ 24 * 2 ^ (32 * d.idx)).sum

/-- Each die of a list pushes its maps. -/
def pushing (s : State) (l : List Die) : Bool := l.all fun d => (die s d).crz.mapEn

theorem pushedSeqs_mbxOffer (s : State) (B : Block) (l : List Die) : pushedSeqs (mbxOffer s B).1 l = pushedSeqs s l := by
  simp only [pushedSeqs, die_mbxOffer]

theorem pushing_mbxOffer (s : State) (B : Block) (l : List Die) : pushing (mbxOffer s B).1 l = pushing s l := by
  simp only [pushing, die_mbxOffer]

theorem mgCruise_pushes (hact : fld B 20 0 2 = 0) (hform : cruiseForm B = true) (hen : pushing s (addressed B) = true) :
    mgCruise s B = .ok ((addressed B).foldl pushMap s) (pushedSeqs s (addressed B)) := by
  rw [pushing] at hen
  simp only [mgCruise, hact, hform, hen, pushedSeqs, Bool.not_true, Bool.false_eq_true, if_false, if_true]

theorem mgCruise_setsPush (hact : fld B 20 0 2 = 1) (hform : cruiseForm B = true) :
    mgCruise s B = .ok ((addressed B).foldl (fun s d => setPush s d (fld B 24 0 20) (fld B 28 0 16)) s) 0 := by
  simp only [mgCruise, hact, hform, Bool.not_true, Bool.false_eq_true, if_false]

theorem mgCruise_setsReceive (hact : fld B 20 0 2 = 2) (hform : cruiseForm B = true) :
    mgCruise s B = .ok ((addressed B).foldl (fun s d => setReceive s d (fld B 32 0 64) (fld B 40 0 10) (fld B 42 0 11)) s) 0 := by
  simp only [mgCruise, hact, hform, Bool.not_true, Bool.false_eq_true, if_false]

/-! ### The mailbox's path -/

/-- Through the mailbox, the command `B` leaves `t` and completes with CC_OK and RESULT `v`. -/
abbrev MailboxResult (s : State) (B : Block) (c : List Block) (t : State) (v : Nat) : Prop :=
  Host.Outcome.next (taxia s .mailbox B c) =
    (.next (completeOp t (mbxOffer s B).2 { code := 0, result := v }) : Host.Outcome State Fault Refusal)

/-- What the operation answers becomes the command's record. -/
theorem mailbox_result {op : Nat} (hr : mbxReady s B = true) (hop : fld B 0 0 8 = op) (hlo : 0xE0 ≤ op) (hhi : op < 256)
    (h : mgRun (mbxOffer s B).1 (mbxOffer s B).2 B [] = .ok t v) : MailboxResult s B c t v :=
  congrArg Host.Outcome.next (mbx_ok s B c op t v hop hlo hhi hr h)

theorem mailbox_modeSet (hr : mbxReady s (modeBlk b a) = true)
    (h : mgModeSet (mbxOffer s (modeBlk b a)).1 (mbxOffer s (modeBlk b a)).2 (modeBlk b a) = .ok t v) : MailboxResult s (modeBlk b a) c t v := by
  have hop : fld (modeBlk b a) 0 0 8 = 0xE8 := fld_rowBlk_op b 0xE8 _ (by simp)
  exact mailbox_result hr hop (by decide) (by decide) ((mgRun_E8 _ _ _ _ hop (mbxReady_target s _ hr)).trans h)

theorem mailbox_modeSet_hold (hr : mbxReady s (modeBlk b a) = true)
    (h : mgModeSet (mbxOffer s (modeBlk b a)).1 (mbxOffer s (modeBlk b a)).2 (modeBlk b a) = .hold t) :
    Host.Outcome.next (taxia s .mailbox (modeBlk b a) c) = (.next t : Host.Outcome State Fault Refusal) := by
  have hop : fld (modeBlk b a) 0 0 8 = 0xE8 := fld_rowBlk_op b 0xE8 _ (by simp)
  exact congrArg Host.Outcome.next
    (mbx_hold s _ c 0xE8 t hop (by decide) (by decide) hr ((mgRun_E8 _ _ _ _ hop (mbxReady_target s _ hr)).trans h))

theorem mailbox_regRead (hr : mbxReady s (rowBlk b 0xE9 []) = true)
    (h : mgRegRead (mbxOffer s (rowBlk b 0xE9 [])).1 (mbxOffer s (rowBlk b 0xE9 [])).2 (rowBlk b 0xE9 []) = .ok t v) :
    MailboxResult s (rowBlk b 0xE9 []) c t v := by
  have hop : fld (rowBlk b 0xE9 []) 0 0 8 = 0xE9 := fld_rowBlk_op b 0xE9 [] (by simp)
  exact mailbox_result hr hop (by decide) (by decide) ((mgRun_E9 _ _ _ _ hop (mbxReady_target s _ hr)).trans h)

theorem mailbox_regWrite (hr : mbxReady s (rowBlk b 0xEA []) = true)
    (h : mgRegWrite (mbxOffer s (rowBlk b 0xEA [])).1 (mbxOffer s (rowBlk b 0xEA [])).2 (rowBlk b 0xEA []) = .ok t v) :
    MailboxResult s (rowBlk b 0xEA []) c t v := by
  have hop : fld (rowBlk b 0xEA []) 0 0 8 = 0xEA := fld_rowBlk_op b 0xEA [] (by simp)
  exact mailbox_result hr hop (by decide) (by decide) ((mgRun_EA _ _ _ _ hop (mbxReady_target s _ hr)).trans h)

theorem mailbox_cruise (hr : mbxReady s (cruiseBlk b a) = true)
    (h : mgCruise (mbxOffer s (cruiseBlk b a)).1 (cruiseBlk b a) = .ok t v) : MailboxResult s (cruiseBlk b a) c t v := by
  have hop : fld (cruiseBlk b a) 0 0 8 = 0xEB := fld_rowBlk_op b 0xEB _ (by simp)
  exact mailbox_result hr hop (by decide) (by decide) ((mgRun_EB _ _ _ _ hop (mbxReady_target s _ hr)).trans h)

theorem action_cruiseBlk (b : Block) (ha : a < 4) : fld (cruiseBlk b a) 20 0 2 = a :=
  (fld_rowBlk_one b 0xEB 20 0 2 a (by omega)).trans (Nat.mod_eq_of_lt (by omega))

/-- Settles O5: each operation's answer on the state that the mailbox's offer leaves, which the mailbox makes the record. That RESET is
due 1 ms after the command, and the mailbox's record counts it anew, is log entry 148; that FORENSIC's record is written before Forensic
is entered is log entry 149. Both are the model's own reading. -/
theorem modesRegistersAndCruiseAct : Obligations.ModesRegistersAndCruiseAct := by
  unfold Obligations.ModesRegistersAndCruiseAct
  refine ⟨?drain, ?resume, ?standby, ?reset, ?forensic, ?read, ?write, ?pushNow, ?setPush, ?setReceive⟩
  case drain =>
    intro s b c B p hr hz ht hm
    rw [← mbxOffer_sys s B] at hm
    rw [exec_modeSetDrain]
    exact mailbox_modeSet hr (mgModeSet_drains (modeSet_modeBlk (by decide) hz ht) hm)
  case resume =>
    intro s b c B p hr hz ht hm
    rw [← mbxOffer_sys s B] at hm
    rw [exec_modeSetResume]
    exact mailbox_modeSet hr (mgModeSet_resumes (modeSet_modeBlk (by decide) hz ht) hm)
  case standby =>
    intro s b c B p hr hz ht hm hno
    rw [← mbxOffer_sys s B] at hm
    rw [exec_modeSetStandby]
    have h := mgModeSet_standsBy (s := (mbxOffer s B).1) (o := p.2) (modeSet_modeBlk (by decide) hz ht) hm hno
    rw [mbxOffer_now] at h
    exact mailbox_modeSet hr h
  case reset =>
    intro s b c B p hr hz ht hm
    rw [← mbxOffer_sys s B] at hm
    rw [exec_modeSetReset]
    have h := mgModeSet_resets (s := (mbxOffer s B).1) (o := p.2) (modeSet_modeBlk (by decide) hz ht) hm
    rw [mbxOffer_now] at h
    exact mailbox_modeSet hr h
  case forensic =>
    intro s b c B p hr hz ht hm
    rw [← mbxOffer_sys s B] at hm
    rw [exec_modeSetForensic]
    exact mailbox_modeSet_hold hr (mgModeSet_entersForensic (modeSet_modeBlk (by decide) hz ht) hm)
  case read =>
    intro s b c t v B p hr hform h
    rw [exec_mgRegRead]
    exact mailbox_regRead hr (mgRegRead_mbxOffer hform h)
  case write =>
    intro s b c t v B p hr hform h
    rw [exec_mgRegWrite]
    exact mailbox_regWrite hr (mgRegWrite_mbxOffer hform h)
  case pushNow =>
    intro s b c B p ds hr hform (hen : pushing s (addressed B) = true)
    rw [exec_cruisePushNow]
    rw [← pushing_mbxOffer s B] at hen
    have h := mgCruise_pushes (action_cruiseBlk b (by decide)) hform hen
    rw [pushedSeqs_mbxOffer] at h
    exact mailbox_cruise hr h
  case setPush =>
    intro s b c B p ds hr hform
    rw [exec_cruiseSetPush]
    exact mailbox_cruise hr (mgCruise_setsPush (action_cruiseBlk b (by decide)) hform)
  case setReceive =>
    intro s b c B p ds hr hform
    rw [exec_cruiseSetReceive]
    exact mailbox_cruise hr (mgCruise_setsReceive (action_cruiseBlk b (by decide)) hform)

end Sys2Proof.Proofs
end

section
/-! PROOF. Register accesses of masters and hosts, and the mailbox's offers and records (R273, R315, R345, R349, R428, R467, R468, R470). -/

namespace Sys2Proof.Proofs

open Sys2Proof Sys2Proof.Machine

variable {s u : State} {m : Master} {f : FnId} {off n data v a : Nat}

/-! ### A master inside the device (R345, R467, R468) -/

/-- A master that is there and is no host reads and writes the register space itself. -/
theorem accessWrite_inside (hthere : masterThere s m = true) (hhost : ∀ f, m ≠ .host f) :
    accessWrite s m off n data = spaceWrite s m off n data := by
  cases m with
  | host f => exact absurd rfl (hhost f)
  | carrel | cp | i3c | jtag | flume => exact if_pos hthere

theorem accessRead_inside (hthere : masterThere s m = true) (hhost : ∀ f, m ≠ .host f) :
    accessRead s m off n = spaceRead s m off n := by
  cases m with
  | host f => exact absurd rfl (hhost f)
  | carrel | cp | i3c | jtag | flume => exact if_pos hthere

/-- The denial of a master that is no host is its answer alone: it is not recorded. -/
theorem denyAccess_inside (hhost : ∀ f, m ≠ .host f) : denyAccess s m a true = emit s (.regDenied m a true) := by
  cases m with
  | host f => exact absurd rfl (hhost f)
  | carrel | cp | i3c | jtag | flume => rfl

theorem spaceWrite_done (h : regWriteAs s m true (homeDie m) off n data = (u, .done v)) : spaceWrite s m off n data = u := by
  rw [spaceWrite, h]

theorem spaceWrite_denied (h : regWriteAs s m true (homeDie m) off n data = (u, .denied a)) :
    spaceWrite s m off n data = denyAccess u m a true := by
  rw [spaceWrite, h]

theorem spaceRead_done (h : regReadAs s m true off n = (u, .done v)) : spaceRead s m off n = emit u (.regData m off v) := by
  rw [spaceRead, h]

theorem accessWrite_done (hthere : masterThere s m = true) (hhost : ∀ f, m ≠ .host f)
    (h : regWriteAs s m true (homeDie m) off n data = (u, .done v)) : accessWrite s m off n data = u :=
  (accessWrite_inside hthere hhost).trans (spaceWrite_done h)

theorem accessWrite_denied (hthere : masterThere s m = true) (hhost : ∀ f, m ≠ .host f)
    (h : regWriteAs s m true (homeDie m) off n data = (u, .denied a)) : accessWrite s m off n data = emit u (.regDenied m a true) := by
  rw [accessWrite_inside hthere hhost, spaceWrite_denied h, denyAccess_inside hhost]

theorem accessRead_done (hthere : masterThere s m = true) (hhost : ∀ f, m ≠ .host f) (h : regReadAs s m true off n = (u, .done v)) :
    accessRead s m off n = emit u (.regData m off v) :=
  (accessRead_inside hthere hhost).trans (spaceRead_done h)

/-! ### A host function without a tenant (R315) -/

/-- A host function that is there, out of Forensic, holds no tenant and is not the management function. -/
structure Tenantless (s : State) (f : FnId) : Prop where
  there : masterThere s (.host f) = true
  awake : forensic s = false
  tenant : isMgmt s f = false
  noInstance : (fnOf s f).inst = none

theorem accessWrite_tenantless (h : Tenantless s f) (hoff : off < 2 ^ 32) : accessWrite s (.host f) off n data = s := by
  obtain ⟨hthere, hf, hm, hi⟩ := h
  simp only [accessWrite, hthere, hf, hm, hi, ge_iff_le, Nat.not_le.mpr hoff, Bool.false_eq_true, if_false, if_true]

theorem accessRead_tenantless (h : Tenantless s f) (hoff : off < 2 ^ 32) : accessRead s (.host f) off n = emit s (.regData (.host f) off 0) := by
  obtain ⟨hthere, hf, hm, hi⟩ := h
  simp only [accessRead, tenantRead, hthere, hf, hm, hi, ge_iff_le, Nat.not_le.mpr hoff, Bool.not_false, Bool.false_eq_true, if_false, if_true]

/-! ### The rows of the register space -/

section

variable (s : State) (m : Master) (off n : Nat) (x : Word)

theorem exec_registerWrite : exec (.registerWrite m off n x) s = .next (accessWrite s m off n x.toNat) := rfl
theorem exec_globalImageWrite :
    exec (.globalImageWrite m off n x) s = .next (accessWrite s m (0x8000000 + off % 0x4000000) n x.toNat) := rfl
theorem exec_lowHalfWriteHold (y : BitVec 32) : exec (.lowHalfWriteHold m off y) s = .next (accessWrite s m off 4 y.toNat) := rfl
theorem exec_lowHalfReadLatch : exec (.lowHalfReadLatch m off) s = .next (accessRead s m off 4) := rfl
theorem exec_viewSnapshotRead : exec (.viewSnapshotRead m off) s = .next (accessRead s m off 8) := rfl
theorem exec_crzQViewRead (d : Die) : exec (.crzQViewRead m d) s = .next (accessRead s m (regOff d 0x1100020) 8) := rfl
theorem exec_aclRegionWrite :
    exec (.aclRegionWrite n x) s = .next (accessWrite s (.cp .west 0) (regOff .west (0x1800000 + 8 * (n % 64))) 8 x.toNat) := rfl

end

/-! ### The mailbox (R349 to R351, R428) -/

section

variable {g : BitVec 32}

theorem exec_mbxGo_reached (h : hostReach s (mgmtFn s) = true) : exec (.mbxGo g) s = .next (mbxGo s g.toNat) :=
  congrArg Host.Outcome.next (if_pos h)

theorem mbxGo_accepted (h : mbxAccepts s v = true) : mbxGo s v = mbxRun s v s.mbx.block := if_pos h

theorem mbxGo_rejected (h : mbxAccepts s v = false) : mbxGo s v = { s with mbx := { s.mbx with rejects := satInc 8 s.mbx.rejects } } :=
  if_neg (by rw [h]; decide)

theorem mbxRun_starts (b : Block) (h : forensic s = false) : mbxRun s v b = opStart (mbxTake s v b).1 (mbxTake s v b).2 := by
  rw [mbxRun, h, Bool.false_and]
  rfl

theorem mbxRun_refused {b : Block} (h : forensic s = true) (ht : forensicTakes b = false) :
    mbxRun s v b = failOp (mbxTake s v b).1 (mbxTake s v b).2 0x02 0 := by
  rw [mbxRun, h, ht]
  rfl

/-- The record of a command that leaves the mailbox's reset, where one is due, as it stands. -/
theorem mbxDone_recorded {r : BitVec 256} (hr : s.mbx.resultDue = some r) (hno : asksReset s.mbx.copy = false ∨ s.sys.resetDue = none) :
    mbxDone s = mbxInterrupt { s with mbx := { s.mbx with result := r, busy := false, op := none, resultDue := none } } := by
  have hkeep : (asksReset s.mbx.copy && s.sys.resetDue.isSome) = false := by
    rcases hno with h | h
    · rw [h, Bool.false_and]
    · rw [h, Option.isSome_none, Bool.and_false]
  rw [mbxDone, hr]
  simp only [hkeep, Bool.false_eq_true, if_false]

end

/-- Settles O36: each row by what its master reaches, the mailbox by whether it takes the offer. A denied access is its answer on the
state that the register file leaves. -/
theorem registersAndTheMailboxAct : Obligations.RegistersAndTheMailboxAct := by
  unfold Obligations.RegistersAndTheMailboxAct
  refine ⟨?write, ?denied, ?noInstance, ?image, ?lowWrite, ?lowRead, ?view, ?qView, ?acl, ?noInstanceRead, ?go, ?forensicGo, ?reject, ?done⟩
  case write =>
    intro s m off n x u v hthere hhost h
    rw [exec_registerWrite, accessWrite_done hthere hhost h]
  case denied =>
    intro s m off n x u a hthere hhost h
    rw [exec_registerWrite, accessWrite_denied hthere hhost h]
  case noInstance =>
    intro s f off n x hthere hoff hf hm hi
    rw [exec_registerWrite, accessWrite_tenantless ⟨hthere, hf, hm, hi⟩ hoff]
  case image =>
    intro s m off n x u v hthere hhost h
    rw [exec_globalImageWrite, accessWrite_done hthere hhost h]
  case lowWrite =>
    intro s m off x u v hthere hhost h
    rw [exec_lowHalfWriteHold, accessWrite_done hthere hhost h]
  case lowRead =>
    intro s m off u v hthere hhost h
    rw [exec_lowHalfReadLatch, accessRead_done hthere hhost h]
  case view =>
    intro s m off u v hthere hhost h
    rw [exec_viewSnapshotRead, accessRead_done hthere hhost h]
  case qView =>
    intro s m d u v hthere hhost h
    rw [exec_crzQViewRead, accessRead_done hthere hhost h]
  case acl =>
    intro s n x u v hthere h
    rw [exec_aclRegionWrite, accessWrite_done hthere (fun f => by simp) h]
  case noInstanceRead =>
    intro s f off hthere hoff hm hf hi
    rw [exec_viewSnapshotRead, accessRead_tenantless ⟨hthere, hf, hm, hi⟩ hoff]
  case go =>
    intro s v hreach htake hf
    rw [exec_mbxGo_reached hreach, mbxGo_accepted htake, mbxRun_starts _ hf]
  case forensicGo =>
    intro s v hreach htake hf hrefused
    rw [exec_mbxGo_reached hreach, mbxGo_accepted htake, mbxRun_refused hf hrefused]
  case reject =>
    intro s v hreach hno
    rw [exec_mbxGo_reached hreach, mbxGo_rejected hno]
  case done =>
    intro s r hr hno
    exact congrArg Host.Outcome.next (mbxDone_recorded hr hno)

end Sys2Proof.Proofs
end

section
/-! PROOF. What a device reset clears and what it leaves (R275, R406, R433, R449, R450). -/

namespace Sys2Proof.Proofs

open Sys2Proof Sys2Proof.Machine

variable {k : Nat}

/-- In reset every register holds its value after reset. -/
theorem regVal_deviceReset (s : State) (keep : Bool) (d : Die) (k : Nat) : regVal (deviceReset s keep) d k = regReset k := Nat.xor_zero _

theorem die_deviceReset (s : State) (keep : Bool) (d : Die) : die (deviceReset s keep) d = resetDie (die s d) keep := by cases d <;> rfl

/-- The counters and their configurations have no value of their own after reset: each register that has one lies elsewhere. -/
theorem regReset_counters (hlo : 0x600000 ≤ k) (hhi : k < 0x604000) : regReset k = 0 := by
  unfold regReset
  repeat rw [if_neg (by omega)]

/-- LIMIT of PWR_CFG after reset (R433). -/
theorem powerLimit_reset : bits (regReset 0x200000) 0 10 = 750 := by decide

/-- Settles O45: registers by their values after reset, the rest by the fields that `deviceReset` keeps. That the state right after
power-on is held in reset with PWRGOOD low is log entry 5. -/
theorem resetLeavesWhatTheRulesSay : Obligations.ResetLeavesWhatTheRulesSay := by
  unfold Obligations.ResetLeavesWhatTheRulesSay
  refine ⟨?cleared, ?kept, ?other, ?powerOn⟩
  case cleared =>
    intro s keep d t
    have hdie : die t d = resetDie (die s d) keep := die_deviceReset s keep d
    refine ⟨fun i hi => ⟨?_, ?_⟩, ?_, rfl, rfl, rfl, ?_, ?_, ?_, ?_, rfl, rfl, rfl⟩
    · rw [regVal_deviceReset, regReset_counters (by unfold pmcCnt; omega) (by unfold pmcCnt; omega)]
    · rw [regVal_deviceReset, regReset_counters (by unfold pmcCfg; omega) (by unfold pmcCfg; omega)]
    · rw [regVal_deviceReset, powerLimit_reset]
    all_goals rw [hdie, resetDie]
  case kept =>
    intro s d t
    have hdie : die t d = resetDie (die s d) true := die_deviceReset s true d
    refine ⟨rfl, rfl, rfl, rfl, rfl, rfl, rfl, ?_⟩
    rw [hdie, resetDie, hbmPoison]
    rfl
  case other =>
    intro s
    exact ⟨rfl, rfl⟩
  case powerOn =>
    exact ⟨rfl, ⟨rfl, rfl, rfl, rfl, rfl, rfl⟩, rfl, rfl⟩

end Sys2Proof.Proofs
end

section
/-! PROOF. The link flits of control and time, and the Shelf's mismatches (R287, R298, R301, R302, R392, R393, R398): when a flit is
due, what an IDENT does in each state of its link, and what a SHELF flit of a compared domain does to the domain's mark. -/

namespace Sys2Proof.Proofs

open Sys2Proof Sys2Proof.Machine

variable {s : State} {d : Die} {k : Nat}

/-! ### When a flit is due (R287, R302, R392, R398) -/

/-- A period has passed since a time, or there is no such time. -/
def periodPassed (now period : Nat) : Option Nat → Bool
  | some t => decide (now ≥ t + period)
  | none => true

theorem periodPassed_of_le {now period : Nat} {last : Option Nat} (h : ∀ t, last = some t → t + period ≤ now) :
    periodPassed now period last = true := by
  cases last with
  | none => rfl
  | some t => exact decide_eq_true (h t rfl)

/-- There is a time, and a period has not passed since it. -/
def periodRuns (now period : Nat) : Option Nat → Bool
  | some t => decide (now < t + period)
  | none => false

theorem periodRuns_of_le {now period : Nat} {last : Option Nat} (h : ∀ t, last = some t → t + period ≤ now) :
    periodRuns now period last = false := by
  cases last with
  | none => rfl
  | some t => exact decide_eq_false (Nat.not_lt.mpr (h t rfl))

theorem exec_identSend_due (hc : carriesFrames (link s d k) = true)
    (hdue : ∀ t, (link s d k).identAt = some t → t + 1000000 ≤ s.now) :
    exec (.identSend d k) s
      = .next (putFlits (modLink s d k fun l => { l with identAt := some s.now }) d k [identFlit (identOf s d k)]) :=
  if_pos (Bool.and_eq_true_iff.mpr ⟨hc, periodPassed_of_le hdue⟩)

theorem exec_onoffSend_due {a : List Nat} (hfore : (link s d k).forerunner = true) (hc : carriesFrames (link s d k) = true)
    (hdue : (∀ t, (link s d k).onoffAt = some t → t + 1000 ≤ s.now) ∨ offMask (link s d k) a ≠ (link s d k).offOut) :
    exec (.onoffSend d k a) s
      = .next (putFlits (modLink s d k fun y => { y with offOut := offMask (link s d k) a, onoffAt := some s.now }) d k
          [onoffFlit (offMask (link s d k) a)]) := by
  refine if_pos (Bool.and_eq_true_iff.mpr ⟨Bool.and_eq_true_iff.mpr ⟨hfore, hc⟩, Bool.or_eq_true_iff.mpr ?_⟩)
  rcases hdue with hperiod | hchange
  · exact Or.inl (periodPassed_of_le hperiod)
  · exact Or.inr (decide_eq_true hchange)

theorem exec_shelfSend_link (hk : k ≠ 64) (hc : carriesFrames (link s d k) = true) (hfore : (link s d k).forerunner = false)
    (hdue : ∀ t, (link s d k).shelfAt = some t → t + 125000 ≤ s.now) :
    exec (.shelfSend d k) s
      = .next (putFlits (modLink s d k fun l => { l with shelfAt := some s.now, shelfDom := (l.shelfDom + 1) % 8 }) d k
          [shelfFlit (shelfOf s d (link s d k).shelfDom)]) := by
  refine (if_neg hk).trans (if_pos (Bool.and_eq_true_iff.mpr ⟨?_, periodPassed_of_le hdue⟩))
  rw [hc, hfore]
  rfl

theorem exec_shelfSend_bridges (hup : anyBridge s d = true)
    (hdue : ∀ t, (die s d).epc.brgShelfAt = some t → t + 125000 ≤ s.now) :
    exec (.shelfSend d 64) s
      = .next (emit (onEpc s d fun e => { e with brgShelfAt := some s.now, brgShelfDom := (e.brgShelfDom + 1) % 8 })
          (.bridgeShelf d (shelfOf s d (die s d).epc.brgShelfDom))) := by
  change execShelfSend d 64 s = _
  rw [execShelfSend, if_pos rfl]
  exact if_pos (Bool.and_eq_true_iff.mpr ⟨hup, periodPassed_of_le hdue⟩)

/-- The TIME flit that a link sends now (R398). -/
def timeOf (s : State) (d : Die) (k : Nat) : TimeFlit :=
  { st := timeStCode s.time.st, set := s.time.set, stratum := s.time.stratum, gm := s.time.gm, tTx := s.time.ns
    tEcho := (link s d k).timeTx, tRx := (link s d k).timeRx, estErr := s.time.estErr, arrival := 0, retx := false }

theorem exec_timeSend_due (hst : (link s d k).st = .up) (hdue : ∀ t, (link s d k).timeAt = some t → t + 100000 ≤ s.now) :
    exec (.timeSend d k) s
      = .next (putFlits (modLink s d k fun l => { l with timeAt := some s.now }) d k [timeFlit (timeOf s d k)]) :=
  if_pos ⟨hst, periodPassed_of_le hdue⟩

/-! ### A received IDENT (R287, R298, R300) -/

section

variable {m : Ident}

/-- A link with the content of a received IDENT, and the round trip where the flit echoes a time. -/
def identStored (now : Nat) (m : Ident) (l : Link) : Link :=
  { l with partner := m.addr, partnerPort := m.port, partnerCredit := m.credit, identSeenTs := m.txTs, identSeenAt := now
           rtt := if m.echoTs = 0 then l.rtt else now - m.echoTs - m.hold }

theorem identReceive_disagrees (hst : (link s d k).st = .training) (htrain : (link s d k).train = .ident)
    (hdiff : m.rate ≠ (link s d k).rate ∨ m.split ≠ (link s d k).split ∨ m.forerunner ≠ (link s d k).forerunner) :
    identReceive s d k m = linkFault s d k 8 := by
  simp only [identReceive, hst, htrain, ne_eq, not_true_eq_false, if_false]
  exact if_pos hdiff

theorem identReceive_agrees (hst : (link s d k).st = .training) (htrain : (link s d k).train = .ident)
    (hrate : m.rate = (link s d k).rate) (hsplit : m.split = (link s d k).split)
    (hgen : m.forerunner = (link s d k).forerunner) :
    identReceive s d k m = linkAdmit (modLink s d k (identStored s.now m)) d k := by
  simp only [identReceive, hst, htrain, hrate, hsplit, hgen, ne_eq, not_true_eq_false, or_self, if_false]
  rfl

theorem identReceive_other_partner (hst : (link s d k).st = .up ∨ (link s d k).st = .quarantine ∨ (link s d k).st = .draining)
    (hdiff : m.addr ≠ (link s d k).partner ∨ m.port ≠ (link s d k).partnerPort) :
    identReceive s d k m = linkFault s d k 6 := by
  rcases hst with h | h | h <;>
  · simp only [identReceive, h]
    exact if_pos hdiff

end

/-! ### A received SHELF flit (R393) -/

section

variable {m : ShelfFlit}

/-- The key of the mark that a SHELF flit on a link judges. -/
abbrev shelfKey (k : Nat) (m : ShelfFlit) : Nat := 8 * k + m.dom % 8

/-- The mark that a SHELF flit judges. -/
abbrev shelfMark (s : State) (d : Die) (k : Nat) (m : ShelfFlit) : Mark := tget {} (die s d).epc.marks (shelfKey k m)

/-- The state with that mark changed. -/
abbrev onShelfMark (s : State) (d : Die) (k : Nat) (m : ShelfFlit) (f : Mark → Mark) : State :=
  onEpc s d fun e => { e with marks := tmod {} e.marks (shelfKey k m) f }

/-- Source 1,894 of a die follows its marks. -/
abbrev shelfLevel (s : State) (d : Die) : State := setLevel s d 1894 ((die s d).epc.marks.any fun (_, m) => m.marked)

/-- A flit of a compared domain differs from the die's own, and neither side's activation excuses it. -/
structure ShelfMismatch (s : State) (d : Die) (m : ShelfFlit) : Prop where
  compared : m.dom % 8 ∉ [3, 6, 7]
  differs : m.epoch ≠ (dom s d (m.dom % 8)).epoch ∨ m.tag ≠ (dom s d (m.dom % 8)).tag
  settledHere : ∀ t, (dom s d (m.dom % 8)).actAt = some t → t + 1000000 ≤ s.now
  settledThere : m.pending = false ∨ s.time.ns < m.actTime

/-- EV_SHELF_MISMATCH, with the number that reports give the link or the bridges. -/
def shelfEvent (s : State) (d : Die) (k : Nat) (m : ShelfFlit) : State :=
  postMgmt s d 0x70 (evb 8 d.idx + evb 9 k + evb 10 (m.dom % 8) + evb 12 m.epoch + evb 16 m.tag)

theorem exec_shelfReceive_of_not_forerunner (hfore : (link s d k).forerunner = false) :
    exec (.shelfReceive d k m) s = .next (shelfReceive s d k m) := if_neg (Bool.eq_false_iff.mp hfore)

theorem shelfReceive_agrees (hcmp : m.dom % 8 ∉ [3, 6, 7]) (hepoch : m.epoch = (dom s d (m.dom % 8)).epoch)
    (htag : m.tag = (dom s d (m.dom % 8)).tag) :
    shelfReceive s d k m = shelfLevel (onShelfMark s d k m fun x => { x with last := false, marked := false }) d := by
  have hsame : (!decide (m.epoch ≠ (dom s d (m.dom % 8)).epoch ∨ m.tag ≠ (dom s d (m.dom % 8)).tag)) = true := by
    simp [hepoch, htag]
  exact (if_neg hcmp).trans (if_pos hsame)

/-- A mismatch on a link is posted: not again within 1 s, and on the bridges or a link in use. -/
def shelfPosts (s : State) (d : Die) (k : Nat) (m : ShelfFlit) : Bool :=
  periodPassed s.now 1000000000 (shelfMark s d k m).postedAt &&
    (k == 64 || decide ((link s d k).st ≠ .quarantine ∧ (link s d k).st ≠ .training))

/-- The state in which a second mismatch in a row has marked the domain. -/
def shelfMarked (s : State) (d : Die) (k : Nat) (m : ShelfFlit) : State :=
  shelfLevel (onShelfMark s d k m fun x =>
    { x with marked := true, postedAt := if shelfPosts s d k m then some s.now else x.postedAt }) d

/-- The flit is compared, differs and is not exempt: what is left depends on the mark. -/
theorem shelfReceive_mismatch (h : ShelfMismatch s d m) :
    shelfReceive s d k m =
      if !(shelfMark s d k m).last then onShelfMark s d k m fun x => { x with last := true }
      else if shelfPosts s d k m then shelfEvent (shelfMarked s d k m) d (if k = 64 then 0x7E else k) m
      else shelfMarked s d k m := by
  obtain ⟨hcmp, hdiff, hhere, hthere⟩ := h
  have hdiffers : ¬ (!decide (m.epoch ≠ (dom s d (m.dom % 8)).epoch ∨ m.tag ≠ (dom s d (m.dom % 8)).tag)) = true := by
    rw [decide_eq_true hdiff]
    decide
  have hahead : ¬ (m.pending && decide (m.actTime ≤ s.time.ns)) = true := by
    rcases hthere with hp | ht
    · simp [hp]
    · simp [ht]
  refine (if_neg hcmp).trans ((if_neg hdiffers).trans (if_neg ?_))
  rw [Bool.or_eq_true, not_or]
  exact ⟨Bool.eq_false_iff.mp (periodRuns_of_le hhere), hahead⟩

theorem shelfReceive_first (h : ShelfMismatch s d m) (hlast : (shelfMark s d k m).last = false) :
    shelfReceive s d k m = onShelfMark s d k m fun x => { x with last := true } := by
  rw [shelfReceive_mismatch h, hlast]
  rfl

/-- A second mismatch in a row on a link in use, none posted in the last second: the domain is marked and the event posted. -/
theorem shelfReceive_second (h : ShelfMismatch s d m) (hlast : (shelfMark s d k m).last = true)
    (hquiet : ∀ t, (shelfMark s d k m).postedAt = some t → t + 1000000000 ≤ s.now) (hk : k < 64)
    (hq : (link s d k).st ≠ .quarantine) (ht : (link s d k).st ≠ .training) :
    shelfReceive s d k m = shelfEvent (shelfLevel (onShelfMark s d k m fun x => { x with marked := true, postedAt := some s.now }) d) d k m := by
  have hlink : decide ((link s d k).st ≠ .quarantine ∧ (link s d k).st ≠ .training) = true := decide_eq_true ⟨hq, ht⟩
  have hposts : shelfPosts s d k m = true := by rw [shelfPosts, periodPassed_of_le hquiet, hlink, Bool.or_true, Bool.and_true]
  rw [shelfReceive_mismatch h, hlast, if_neg (by decide), if_pos hposts, if_neg hk.ne, shelfMarked]
  simp only [hposts, if_true]

end

/-- Settles O33: each row where its flit is due or its condition holds; a SHELF flit by whether the domain agrees and by its mark. -/
theorem linkFlitsAndShelvesAct : Obligations.LinkFlitsAndShelvesAct := by
  unfold Obligations.LinkFlitsAndShelvesAct
  refine ⟨?ident, ?trainFault, ?admission, ?partner, ?off, ?onoff, ?shelf, ?bridgeShelf, ?time, ?agrees, ?first, ?second⟩
  case ident => exact fun s d k => exec_identSend_due
  case trainFault =>
    intro s d k m l hst htrain hdiff
    exact congrArg Host.Outcome.next (identReceive_disagrees hst htrain hdiff)
  case admission =>
    intro s d k m l hst htrain hrate hsplit hgen
    exact congrArg Host.Outcome.next (identReceive_agrees hst htrain hrate hsplit hgen)
  case partner =>
    intro s d k m l hst hdiff
    exact congrArg Host.Outcome.next (identReceive_other_partner hst hdiff)
  case off => exact fun s d k m hfore => if_pos hfore
  case onoff => exact fun s d k a => exec_onoffSend_due
  case shelf => exact fun s d k => exec_shelfSend_link
  case bridgeShelf => exact fun s d => exec_shelfSend_bridges
  case time => exact fun s d k => exec_timeSend_due
  case agrees =>
    intro s d k m n x key mark u hfore hcmp hepoch htag
    rw [exec_shelfReceive_of_not_forerunner hfore, shelfReceive_agrees hcmp hepoch htag]
  case first =>
    intro s d k m n x key mark hfore hcmp hdiff hhere hthere hlast
    rw [exec_shelfReceive_of_not_forerunner hfore, shelfReceive_first ⟨hcmp, hdiff, hhere, hthere⟩ hlast]
  case second =>
    intro s d k m n x key mark u hfore hcmp hdiff hhere hthere hlast hquiet hk hq ht
    rw [exec_shelfReceive_of_not_forerunner hfore, shelfReceive_second ⟨hcmp, hdiff, hhere, hthere⟩ hlast hquiet hk hq ht]
    rfl

end Sys2Proof.Proofs
end

section
/-! PROOF. A received frame (R282, R284, R289, R292, R293, R295, R296, R301): what makes it bad, and what a good frame with packets
does by its distance from the expected one. -/

namespace Sys2Proof.Proofs

open Sys2Proof Sys2Proof.Machine

variable {s v : State} {d : Die} {k : Nat} {f : Frame} {g : RxFrame}

/-! ### A good frame and a bad one (R282, R289, R295) -/

/-- The state in which a received frame is judged: its symbols and its lanes' runs have been counted, and the loss of lock that the
runs give (R282). -/
abbrev frameCounted (s : State) (d : Die) (k : Nat) (f : Frame) : State :=
  countRuns (pmcAt (corrected s d k f.corrSym) d (8 * (k / 2) + 4) f.corrSym (egCtx (kPort d k) 0)) d k f

/-- The CRC-32 that a frame's content has (R289). -/
abbrev frameSum (f : Frame) : BitVec 32 :=
  frameCrc (f.slots.map (·.1)) (f.slots.map (·.2)) (frameCtl f.fsn f.ackFsn f.nakMap.toNat f.retx f.empty f.crCh f.crCount)

/-- The state after a good frame's acknowledgement, NAK and credit fields have acted. -/
abbrev frameAcked (s : State) (d : Die) (k : Nat) (f : Frame) : State := frameControl (frameCounted s d k f) d k f

/-- How far a frame lies beyond the next expected one. -/
abbrev frameDist (v : State) (d : Die) (k : Nat) (f : Frame) : Nat := (f.fsn + 4096 - (link v d k).expectFsn) % 4096

/-- A frame as it is held or delivered. -/
abbrev frameHeld (v : State) (f : Frame) : RxFrame := { fsn := f.fsn, retx := f.retx, at_ := v.time.ns, slots := f.slots }

theorem exec_frameReceive_carried (hc : carriesFrames (link s d k) = true) :
    exec (.frameReceive d k f) s = .next (frameReceive s d k f) := if_pos hc

theorem exec_frameReceive_uncorrectable (hc : carriesFrames (link s d k) = true) (hbad : f.uncorr = true) :
    exec (.frameReceive d k f) s
      = .next (badFrame (pmcAt (frameCounted s d k f) d (8 * (k / 2) + 5) 1 (egCtx (kPort d k) 0)) d k) := by
  rw [exec_frameReceive_carried hc, frameReceive, if_pos hbad]

theorem exec_frameReceive_crcDiffers (hc : carriesFrames (link s d k) = true) (hcor : f.uncorr = false) (hcrc : frameSum f ≠ f.crc) :
    exec (.frameReceive d k f) s
      = .next (badFrame (pmcAt (frameCounted s d k f) d (8 * (k / 2) + 2) 1 (egCtx (kPort d k) 0)) d k) := by
  rw [exec_frameReceive_carried hc, frameReceive, if_neg (Bool.eq_false_iff.mp hcor), if_pos hcrc]

/-- A frame that comes on a link that carries frames, with every codeword corrected and the CRC-32 of its content. -/
structure GoodFrame (s : State) (d : Die) (k : Nat) (f : Frame) : Prop where
  carried : carriesFrames (link s d k) = true
  corrected : f.uncorr = false
  crcHolds : frameSum f = f.crc

theorem exec_frameReceive_empty (h : GoodFrame s d k f) (hempty : f.empty = true) :
    exec (.frameReceive d k f) s = .next (frameAcked s d k f) := by
  obtain ⟨hc, hcor, hcrc⟩ := h
  rw [exec_frameReceive_carried hc, frameReceive, if_neg (Bool.eq_false_iff.mp hcor), if_neg (not_not_intro hcrc)]
  exact congrArg Host.Outcome.next (if_pos (by rw [hempty, Bool.true_or]))

/-! ### A frame with a sequence number (R292, R293, R296, R301) -/

/-- A good frame that is not EMPTY, on a link that its frame control leaves carrying frames. -/
structure SequencedFrame (s : State) (d : Die) (k : Nat) (f : Frame) : Prop extends GoodFrame s d k f where
  notEmpty : f.empty = false
  stillCarried : carriesFrames (link (frameAcked s d k f) d k) = true

/-- What the next expected frame does: it is delivered, and if it was not dropped so are the held frames that follow it. -/
def frameExpected (v : State) (d : Die) (k : Nat) (f : Frame) : State :=
  if (deliverFrame v d k (frameHeld v f)).2 then drainFrames 32 (deliverFrame v d k (frameHeld v f)).1 d k
  else (deliverFrame v d k (frameHeld v f)).1

/-- What a sequenced frame does by its distance from the next expected one. -/
def frameByDist (v : State) (d : Die) (k : Nat) (f : Frame) : State :=
  if frameDist v d k f = 0 then frameExpected v d k f
  else if frameDist v d k f < 32 then frameAhead v d k (frameHeld v f)
  else if frameDist v d k f < 2048 then offence v d k
  else v

theorem exec_frameReceive_sequenced (h : SequencedFrame s d k f) :
    exec (.frameReceive d k f) s = .next (frameByDist (frameAcked s d k f) d k f) := by
  obtain ⟨⟨hc, hcor, hcrc⟩, hfull, hstill⟩ := h
  rw [exec_frameReceive_carried hc, frameReceive, if_neg (Bool.eq_false_iff.mp hcor), if_neg (not_not_intro hcrc)]
  exact congrArg Host.Outcome.next (if_neg (by rw [hfull, hstill]; decide))

theorem exec_frameReceive_expected (h : SequencedFrame s d k f) (hn : frameDist (frameAcked s d k f) d k f = 0) :
    exec (.frameReceive d k f) s = .next (frameExpected (frameAcked s d k f) d k f) := by
  rw [exec_frameReceive_sequenced h, frameByDist, if_pos hn]

theorem exec_frameReceive_ahead (h : SequencedFrame s d k f) (hpos : 0 < frameDist (frameAcked s d k f) d k f)
    (hnear : frameDist (frameAcked s d k f) d k f < 32) :
    exec (.frameReceive d k f) s
      = .next (frameAhead (frameAcked s d k f) d k (frameHeld (frameAcked s d k f) f)) := by
  rw [exec_frameReceive_sequenced h, frameByDist, if_neg hpos.ne', if_pos hnear]

theorem exec_frameReceive_beyond (h : SequencedFrame s d k f) (hfar : 32 ≤ frameDist (frameAcked s d k f) d k f)
    (hhalf : frameDist (frameAcked s d k f) d k f < 2048) :
    exec (.frameReceive d k f) s = .next (offence (frameAcked s d k f) d k) := by
  rw [exec_frameReceive_sequenced h, frameByDist, if_neg (by omega), if_neg (by omega), if_pos hhalf]

theorem exec_frameReceive_behind (h : SequencedFrame s d k f) (hbehind : 2048 ≤ frameDist (frameAcked s d k f) d k f) :
    exec (.frameReceive d k f) s = .next (frameAcked s d k f) := by
  rw [exec_frameReceive_sequenced h, frameByDist, if_neg (by omega), if_neg (by omega), if_neg (by omega)]

/-! ### A frame ahead of the expected one (R292, R301) -/

/-- It is held; with RETX = 0 the gap before it is missing. -/
theorem frameAhead_new (hfore : (link v d k).forerunner = false)
    (hnew : (link v d k).rxHeld.any (fun e => decide (e.fsn = g.fsn)) = false) :
    frameAhead v d k g = modLink v d k fun l =>
      { l with rxHeld := l.rxHeld ++ [g]
               missing := (if g.retx then l.missing else (gapOf l g.fsn).foldl addNew l.missing).filter fun n => decide (n ≠ g.fsn) } := by
  rw [frameAhead, if_neg (Bool.eq_false_iff.mp hfore), if_neg (Bool.eq_false_iff.mp hnew)]

theorem frameAhead_again (hfore : (link v d k).forerunner = false)
    (hnew : (link v d k).rxHeld.any (fun e => decide (e.fsn = g.fsn)) = false) (hretx : g.retx = true) :
    frameAhead v d k g = modLink v d k fun l =>
      { l with rxHeld := l.rxHeld ++ [g], missing := l.missing.filter fun n => decide (n ≠ g.fsn) } := by
  simp only [frameAhead_new hfore hnew, hretx, if_true]

theorem frameAhead_first (hfore : (link v d k).forerunner = false)
    (hnew : (link v d k).rxHeld.any (fun e => decide (e.fsn = g.fsn)) = false) (hretx : g.retx = false) :
    frameAhead v d k g = modLink v d k fun l =>
      { l with rxHeld := l.rxHeld ++ [g], missing := ((gapOf l g.fsn).foldl addNew l.missing).filter fun n => decide (n ≠ g.fsn) } := by
  simp only [frameAhead_new hfore hnew, hretx, Bool.false_eq_true, if_false]

theorem frameAhead_duplicate (hfore : (link v d k).forerunner = false)
    (hheld : (link v d k).rxHeld.any (fun e => decide (e.fsn = g.fsn)) = true) : frameAhead v d k g = v := by
  rw [frameAhead, if_neg (Bool.eq_false_iff.mp hfore), if_pos hheld]

theorem frameAhead_forerunner (hfore : (link v d k).forerunner = true) (hretx : g.retx = false) :
    frameAhead v d k g = modLink v d k fun l => { l with missing := addNew l.missing l.expectFsn } := by
  rw [frameAhead, if_pos hfore, if_neg (Bool.eq_false_iff.mp hretx)]

/-- Settles O31: a good frame that is not EMPTY acts by its distance from the expected one. The half of the number space as the bound
of what counts as ahead is the model's own reading of R292. -/
theorem framesAreReceivedInOrder : Obligations.FramesAreReceivedInOrder := by
  unfold Obligations.FramesAreReceivedInOrder
  refine ⟨?uncorrectable, ?crc, ?empty, ?delivered, ?dropped, ?again, ?ahead, ?forerunner, ?duplicate, ?beyond, ?behind⟩
  case uncorrectable => exact fun s d k f => exec_frameReceive_uncorrectable
  case crc => exact fun s d k f => exec_frameReceive_crcDiffers
  case empty =>
    intro s d k f q u v hc hcor hcrc hempty
    exact exec_frameReceive_empty ⟨hc, hcor, hcrc⟩ hempty
  case delivered =>
    intro s d k f q u v l n g r hc hcor hcrc hfull hstill hn hdone
    rw [exec_frameReceive_expected ⟨⟨hc, hcor, hcrc⟩, hfull, hstill⟩ hn, frameExpected, if_pos hdone]
  case dropped =>
    intro s d k f q u v l n g r hc hcor hcrc hfull hstill hn hdrop
    rw [exec_frameReceive_expected ⟨⟨hc, hcor, hcrc⟩, hfull, hstill⟩ hn, frameExpected, if_neg (Bool.eq_false_iff.mp hdrop)]
  case again =>
    intro s d k f q u v l n g hc hcor hcrc hfull hstill hpos hnear hfore hretx hnew
    rw [exec_frameReceive_ahead ⟨⟨hc, hcor, hcrc⟩, hfull, hstill⟩ hpos hnear, frameAhead_again hfore hnew hretx]
  case ahead =>
    intro s d k f q u v l n g hc hcor hcrc hfull hstill hpos hnear hfore hretx hnew
    rw [exec_frameReceive_ahead ⟨⟨hc, hcor, hcrc⟩, hfull, hstill⟩ hpos hnear, frameAhead_first hfore hnew hretx]
  case forerunner =>
    intro s d k f q u v l n g hc hcor hcrc hfull hstill hpos hnear hfore hretx
    rw [exec_frameReceive_ahead ⟨⟨hc, hcor, hcrc⟩, hfull, hstill⟩ hpos hnear, frameAhead_forerunner hfore hretx]
  case duplicate =>
    intro s d k f q u v l n g hc hcor hcrc hfull hstill hpos hnear hfore hheld
    rw [exec_frameReceive_ahead ⟨⟨hc, hcor, hcrc⟩, hfull, hstill⟩ hpos hnear, frameAhead_duplicate hfore hheld]
  case beyond =>
    intro s d k f q u v l n g hc hcor hcrc hfull hstill hfar hhalf
    exact exec_frameReceive_beyond ⟨⟨hc, hcor, hcrc⟩, hfull, hstill⟩ hfar hhalf
  case behind =>
    intro s d k f q u v l n g hc hcor hcrc hfull hstill hbehind
    exact exec_frameReceive_behind ⟨⟨hc, hcor, hcrc⟩, hfull, hstill⟩ hbehind

end Sys2Proof.Proofs
end

section
/-! PROOF. Links and bridges move (R281, R282, R291, R298, R300, R303 to R305): the rows of a link by its state and time, and the rows
of a bridge by its state on both dies. -/

namespace Sys2Proof.Proofs

open Sys2Proof Sys2Proof.Machine

variable {s : State} {d : Die} {k : Nat} {b : Bridge}

/-! ### Unacknowledged frames (R291) -/

/-- The held frames of a link that have waited for an acknowledgement longer than TIMEOUT. -/
abbrev overdue (s : State) (d : Die) (k : Nat) : List TxFrame :=
  (link s d k).txHeld.filter fun g => decide (g.sentAt + 10 * bits (regVal s d 0x1201008) 0 16 ≤ s.now)

/-- A link with an overdue frame has work for the row. -/
theorem overdue_acts (hc : carriesFrames (link s d k) = true) (hdue : overdue s d k ≠ []) :
    ¬ (!(carriesFrames (link s d k)) || (overdue s d k).isEmpty) = true := by
  simpa [hc] using hdue

/-- Frames resent each because of its own timeout: the row asks for it by number among those that are due. -/
theorem resend_each (l : List TxFrame) :
    l.foldl (fun s g => resendFrame s d k g (l.any fun x => decide (x.fsn = g.fsn))) s
      = l.foldl (fun s g => resendFrame s d k g true) s :=
  List.foldl_ext _ _ _ fun a _ hg => congrArg (resendFrame a d k _) (List.any_of_mem hg (decide_eq_true rfl))

theorem exec_linkRetxTimeout_resends (hc : carriesFrames (link s d k) = true) (hdue : overdue s d k ≠ [])
    (hfew : ∀ g ∈ overdue s d k, g.timeouts < 7) (hfore : (link s d k).forerunner = false) :
    exec (.linkRetxTimeout d k) s = .next ((overdue s d k).foldl (fun s g => resendFrame s d k g true) s) := by
  have hnone : ¬ ((overdue s d k).any fun g => decide (g.timeouts ≥ 7)) = true := by
    rw [List.any_eq_true]
    rintro ⟨g, hg, hmany⟩
    exact (hfew g hg).not_ge (of_decide_eq_true hmany)
  refine (if_neg (overdue_acts hc hdue)).trans ((if_neg hnone).trans ?_)
  rw [hfore]
  exact congrArg Host.Outcome.next (resend_each _)

theorem exec_linkRetxTimeout_down {g : TxFrame} (hc : carriesFrames (link s d k) = true) (hg : g ∈ overdue s d k)
    (hmany : 7 ≤ g.timeouts) : exec (.linkRetxTimeout d k) s = .next (linkFault s d k 5) :=
  (if_neg (overdue_acts hc (List.ne_nil_of_mem hg))).trans (if_pos (List.any_of_mem hg (decide_eq_true hmany)))

/-! ### Lanes and training (R281, R282, R298, R300) -/

theorem exec_laneSignalLoss_fault {n : Nat} {lock : Bool}
    (h : carriesFrames (link s d k) = true ∨ (link s d k).st = .training ∧ (link s d k).train ≠ .waitSignal ∧ lock = false) :
    exec (.laneSignalLoss d k n lock) s = .next (linkFault (modLink s d k fun l =>
      { l with lanes := setAt l.lanes n (l.lanes.getD n 0 ||| (if lock then 2 else 1)) }) d k (if lock then 3 else 2)) := by
  by_cases hc : carriesFrames (link s d k) = true
  · exact if_pos hc
  · have htrain := h.resolve_left hc
    obtain rfl : lock = false := htrain.2.2
    exact (if_neg hc).trans (if_pos htrain)

/-- A link's change is known by what it makes of the link as it is. -/
theorem modLink_congr {f g : Link → Link} (h : f (link s d k) = g (link s d k)) : modLink s d k f = modLink s d k g := by
  have hset (f : Link → Link) : modLink s d k f = onDie s d fun x => { x with links := tset {} x.links k (f (link s d k)) } := by
    cases d <;> rfl
  rw [hset f, hset g, h]

/-- Each direction is precoded as its receiver asks, always at RATE 0 (R279). -/
def precodes (l : Link) (asked : Bool) : Bool := decide (l.rate = 0) || (decide (l.rate = 1) && asked)

theorem exec_linkRxReady_adapted {r : RxReady} (hst : (link s d k).st = .training) (htrain : (link s d k).train = .adapting) :
    exec (.linkRxReady d k r) s = .next (emit (modLink s d k fun y =>
      { y with train := .countdown, precode := precodes (link s d k) r.dfeHigh, txPrecode := precodes (link s d k) r.asked
               lanes := laneWords (link s d k).split r.lanes }) (.rxReady d k)) := by
  change execLinkRxReady d k r s = _
  rw [execLinkRxReady, if_pos ⟨hst, htrain⟩]
  exact congrArg (fun u => Host.Outcome.next (emit u (.rxReady d k))) (modLink_congr rfl)

theorem exec_trainTimeout_due {t : Nat} (hsig : (link s d k).signalAt = some t) (hst : (link s d k).st = .training)
    (hdue : t + 500000000 ≤ s.now) : exec (.trainTimeout d k) s = .next (linkFault s d k 8) := by
  change execTrainTimeout d k s = _
  simp only [execTrainTimeout, hsig]
  exact if_pos ⟨hst, hdue⟩

/-- A link whose macro is in use trains. -/
theorem linkTrain_of_macro_up (h : macroDown s d k = false) : linkTrain s d k = linkGo s d k .training 0 :=
  if_neg (Bool.eq_false_iff.mp h)

theorem exec_linkDrainEnd_ends (hst : (link s d k).st = .draining)
    (hend : (queuedAt s d k = [] ∧ (∀ g ∈ (tget {} (die s d).sch.egress k).stage, g.q.chan = 16) ∧ (link s d k).susp = [] ∧
      (link s d k).txHeld = []) ∨ (link s d k).stAt + 1000000 ≤ s.now) :
    exec (.linkDrainEnd d k) s = .next (linkGo s d k .quarantine 0) := by
  refine if_pos ⟨hst, hend.imp_left ?_⟩
  rintro ⟨hqueue, hstage, hsusp, hheld⟩
  exact ⟨hqueue, List.all_eq_true.mpr fun g hg => decide_eq_true (hstage g hg), hsusp, hheld⟩

/-! ### Bridges (R303 to R305) -/

theorem bridgeTrained_up {we ew : List Nat} (hwest : (brg s .west b).st = .training) (heast : (brg s .east b).st = .training)
    (hwe : lanesOk we = true) (hew : lanesOk ew = true) :
    bridgeTrained s b we ew =
      let f (s : State) (d : Die) :=
        brgGo (modBrg s d b fun x => { x with sparesWe := we.length, sparesEw := ew.length, room := bridgeRooms, used := [] }) d b .up 0
      brgAfter (f (f s .west) .east) :=
  (if_pos ⟨hwest, heast⟩).trans (if_pos (Bool.and_eq_true_iff.mpr ⟨hwe, hew⟩))

theorem bridgeTrained_down {we ew : List Nat} (hwest : (brg s .west b).st = .training) (heast : (brg s .east b).st = .training)
    (hbad : lanesOk we = false ∨ lanesOk ew = false) :
    bridgeTrained s b we ew =
      let f (s : State) (d : Die) := brgRecover (brgGo s d b .down 3) d b
      brgAfter (f (f s .west) .east) :=
  (if_pos ⟨hwest, heast⟩).trans (if_neg (Bool.eq_false_iff.mp (Bool.and_eq_false_iff.mpr hbad)))

/-- A die has waited its quiet period of a bridge that is enabled and DOWN. -/
def BridgeReady (s : State) (b : Bridge) (d : Die) : Prop :=
  (brg s d b).st = .down ∧ (brg s d b).adminEn = true ∧ (brg s d b).downAt + quietNs s d ≤ s.now

theorem BridgeReady.judged (h : BridgeReady s b d) :
    (decide ((brg s d b).st = .down ∧ s.now ≥ (brg s d b).downAt + quietNs s d) && (brg s d b).adminEn) = true := by
  obtain ⟨hst, hen, hdue⟩ := h
  rw [decide_eq_true ⟨hst, hdue⟩, hen]
  rfl

theorem exec_bridgeQuietEnd_trains (h : ∀ d, BridgeReady s b d) (hmode : s.sys.mode ≠ .standby) :
    exec (.bridgeQuietEnd b) s = .next (brgGo (brgGo s .west b .training 0) .east b .training 0) :=
  if_pos (Bool.and_eq_true_iff.mpr
    ⟨Bool.and_eq_true_iff.mpr ⟨(h .west).judged, (h .east).judged⟩, decide_eq_true hmode⟩)

/-- Settles O32: each row where its condition holds. How much credit a bridge's channels
get, and that lanes with a larger skew are not deskewed, is the model's own choice, log entries 192 and 220. -/
theorem linksAndBridgesMove : Obligations.LinksAndBridgesMove := by
  unfold Obligations.LinksAndBridgesMove
  refine ⟨?resent, ?timedOut, ?lost, ?signal, ?ready, ?aligned, ?trainTime, ?noSignal, ?retry, ?quiet, ?drained, ?parity, ?clock,
    ?bridgeUp, ?bridgeDown, ?bridgeAgain⟩
  case resent => exact fun s d k => exec_linkRetxTimeout_resends
  case timedOut => exact fun s d k g => exec_linkRetxTimeout_down
  case lost => exact fun s d k n lock => exec_laneSignalLoss_fault
  case signal => exact fun s d k hst htrain hgrant => if_pos ⟨hst, htrain, hgrant⟩
  case ready => exact fun s d k dfe asked m => exec_linkRxReady_adapted
  case aligned =>
    intro s d k a l hst htrain hskew
    have hdeskews : deskews l a = true :=
      List.all_eq_true.mpr fun x hx => List.all_eq_true.mpr fun y hy => decide_eq_true (hskew x hx y hy)
    exact if_pos ⟨hst, htrain, hdeskews⟩
  case trainTime => exact fun s d k t => exec_trainTimeout_due
  case noSignal => exact fun s d k hst htrain hgrant hdue => if_pos ⟨hst, htrain, hgrant, hdue⟩
  case retry =>
    intro s d k l hst hen hcause hdue hup
    rw [← linkTrain_of_macro_up hup]
    exact if_pos ⟨hst, hen, hcause, hdue⟩
  case quiet =>
    intro s d k l hst hen hcause hdue hup
    rw [← linkTrain_of_macro_up hup]
    exact if_pos ⟨hst, hen, hcause, hdue⟩
  case drained => exact fun s d k => exec_linkDrainEnd_ends
  case parity => exact fun s d b ew n hst => congrArg Host.Outcome.next (if_pos (decide_eq_true hst))
  case clock => exact fun s d b hst => if_pos (decide_eq_true hst)
  case bridgeUp =>
    intro s b we ew u hwest heast hwe hew
    exact congrArg Host.Outcome.next (bridgeTrained_up hwest heast hwe hew)
  case bridgeDown =>
    intro s b we ew hwest heast hbad
    exact congrArg Host.Outcome.next (bridgeTrained_down hwest heast hbad)
  case bridgeAgain => exact fun s b => exec_bridgeQuietEnd_trains

end Sys2Proof.Proofs
end

section
/-! PROOF. Admission by the protection regions (R342, R343): a doubleword lies in one page, so its bytes stand in the same regions. -/

namespace Sys2Proof.Proofs

open Sys2Proof Sys2Proof.Machine

variable {s : State} {cls off len a b : Nat} {wr : Bool}

/-- Regions are of whole pages of 4 KiB. -/
theorem regionsAt_congr {off' : Nat} (h : off' / 4096 = off / 4096) : regionsAt s off' = regionsAt s off := by
  simp only [regionsAt, h]

theorem regionsAt_within_doubleword (hin : off % 8 + len ≤ 8) {k : Nat} (hk : k < len) : regionsAt s (off + k) = regionsAt s off :=
  regionsAt_congr (by omega)

theorem regionsAt_last_byte (hlen : 0 < len) (hin : off % 8 + len ≤ 8) : regionsAt s (off + len - 1) = regionsAt s off :=
  regionsAt_congr (by omega)

/-- Within a doubleword the regions of the first byte are those of each. -/
theorem regionsAt_each_byte_iff (hlen : 0 < len) (hin : off % 8 + len ≤ 8) {l : List Nat} :
    (∀ k, k < len → regionsAt s (off + k) = l) ↔ regionsAt s off = l :=
  ⟨fun h => h 0 hlen, fun h _ hk => (regionsAt_within_doubleword hin hk).trans h⟩

theorem aclAdmits_no_region (hfirst : regionsAt s off = []) (hlast : regionsAt s (off + len - 1) = []) :
    aclAdmits s cls wr off len = (cls == 2 || cls == 4) := by
  simp only [aclAdmits, hfirst, hlast]

theorem aclAdmits_one_region (hfirst : regionsAt s off = [a]) (hlast : regionsAt s (off + len - 1) = [a]) :
    aclAdmits s cls wr off len = bit (aclRegion s a) ((if wr then 40 else 32) + cls) := by
  simp only [aclAdmits, hfirst, hlast, decide_true, Bool.true_and]

theorem aclAdmits_two_regions {l : List Nat} (hfirst : regionsAt s off = a :: b :: l) : aclAdmits s cls wr off len = false := by
  simp only [aclAdmits, hfirst]

/-- Two members make a list of two or more. -/
theorem exists_two_of_mem_ne {l : List Nat} (ha : a ∈ l) (hb : b ∈ l) (hne : a ≠ b) : ∃ x y m, l = x :: y :: m := by
  match l with
  | [x] => exact absurd ((List.mem_singleton.mp ha).trans (List.mem_singleton.mp hb).symm) hne
  | x :: y :: m => exact ⟨x, y, m, rfl⟩

/-- Settles O53: admission by the number of regions that hold the first byte, which are those of every byte of its doubleword. -/
theorem regionsAdmitOneMask : Obligations.RegionsAdmitOneMask := by
  unfold Obligations.RegionsAdmitOneMask
  refine ⟨?oneMask, ?twoRegions⟩
  case oneMask =>
    intro s cls wr off len hlen hin
    simp only [regionsAt_each_byte_iff hlen hin]
    have hlast := regionsAt_last_byte (s := s) hlen hin
    match hfirst : regionsAt s off with
    | [] => simp [aclAdmits_no_region hfirst (hlast.trans hfirst)]
    | [a] => simp [aclAdmits_one_region hfirst (hlast.trans hfirst)]
    | a :: b :: l => simp [aclAdmits_two_regions hfirst]
  case twoRegions =>
    intro s cls wr off len a b hlen ha hb hne
    obtain ⟨x, y, m, hfirst⟩ := exists_two_of_mem_ne ha hb hne
    exact aclAdmits_two_regions hfirst

end Sys2Proof.Proofs
end

section
/-! PROOF. MG_INSTANCE_CTL through the mailbox (R317 to R322): each action's answer, and the mailbox's path to it. -/

namespace Sys2Proof.Proofs

open Sys2Proof Sys2Proof.Machine

/-! ### What the rows offer -/

/-- The block of MG_INSTANCE_CTL with an action. -/
abbrev instanceBlk (b : Block) (a : Nat) : Block := rowBlk b 0xE6 [(22, 0, 3, a)]

section

variable (iss : Issuer) (b : Block) (c : List Block) (s : State)

theorem exec_instanceCreate : exec (.instanceCreate iss b c) s = .next (taxia s iss (instanceBlk b 0) c) := rfl
theorem exec_instanceStart : exec (.instanceStart iss b c) s = .next (taxia s iss (instanceBlk b 1) c) := rfl
theorem exec_instanceQuiesce : exec (.instanceQuiesce iss b c) s = .next (taxia s iss (instanceBlk b 2) c) := rfl
theorem exec_instanceResume : exec (.instanceResume iss b c) s = .next (taxia s iss (instanceBlk b 3) c) := rfl
theorem exec_instanceResize : exec (.instanceResize iss b c) s = .next (taxia s iss (instanceBlk b 4) c) := rfl
theorem exec_instanceRemove : exec (.instanceRemove iss b c) s = .next (taxia s iss (instanceBlk b 5) c) := rfl

end

variable {s t : State} {b B : Block} {c : List Block} {o a : Nat} {st : InstSt}

theorem action_instanceBlk (b : Block) (ha : a < 8) : fld (instanceBlk b a) 22 0 3 = a :=
  (fld_rowBlk_one b 0xE6 22 0 3 a (by omega)).trans (Nat.mod_eq_of_lt (by omega))

/-! ### CREATE (R319) -/

/-- The function that CREATE binds. -/
def createFn (B : Block) : FnId := { port := fld B 24 0 3, link := fld B 24 3 2, fn := fld B 25 0 9 }

/-- What CREATE names is ABSENT, and its function exists, is free, is not the management function and has its die's memory. -/
structure Creatable (s : State) (B : Block) : Prop where
  absent : (inst s (fld B 20 0 10)).st = .absent
  notMgmt : createFn B ≠ mgmtFn s
  free : (fnOf s (createFn B)).inst = none
  there : fnExists s (createFn B) = true
  memory : s.sys.hbmLost.contains (portDie (createFn B).port).idx = false

/-- CREATE's outcome: CONFIGURING, bound to the function, with its limits and its key. -/
def created (s : State) (B : Block) : State :=
  setInstSt (modFn (modInst (keyDraw s (fld B 20 0 10)) (fld B 20 0 10) fun x => loadLimits B { fn := createFn B, wins := x.wins }) (createFn B)
    fun x => { x with inst := some (fld B 20 0 10) }) (fld B 20 0 10) .configuring 0

theorem instCreate_creatable (h : Creatable s B) : instCreate s B = .ok (created s B) 0 := by
  obtain ⟨habsent, hmgmt, hfree, hthere, hmem⟩ := h
  have hno : ¬ ((inst s (fld B 20 0 10)).st ≠ .absent ∨ createFn B = mgmtFn s ∨ (fnOf s (createFn B)).inst.isSome = true ∨
      fnExists s (createFn B) = false ∨ s.sys.hbmLost.contains (portDie (createFn B).port).idx = true) := by
    simp only [habsent, hmgmt, hfree, hthere, hmem, ne_eq, not_true_eq_false, Option.isSome_none, Bool.false_eq_true, Bool.true_eq_false,
      or_self, not_false_eq_true]
  exact if_neg hno

theorem mgInstanceCtl_creates (hform : instCtlForm s B = true) (ha : fld B 22 0 3 = 0) (h : Creatable s B) :
    mgInstanceCtl s o B = .ok (created s B) 0 := by
  simp only [mgInstanceCtl, hform, ha, instCreate_creatable h, Bool.not_true, Bool.false_eq_true, if_false, if_true]

/-! ### START, RESUME, RESIZE and REMOVE (R319, R321, R322) -/

/-- Action `a` of MG_INSTANCE_CTL, its body in form, to one of the addressed die's instances, which stands in `st`. -/
structure InstanceAct (s : State) (B : Block) (a : Nat) (st : InstSt) : Prop where
  action : fld B 22 0 3 = a
  form : instCtlForm s B = true
  home : instDie s (fld B 20 0 10) = tgtDie B
  state : (inst s (fld B 20 0 10)).st = st

theorem mgInstanceCtl_starts (h : InstanceAct s B 1 .configuring) :
    mgInstanceCtl s o B = .ok (setInstSt s (fld B 20 0 10) .running 0) 0 := by
  simp [mgInstanceCtl, h.action, h.form, h.home, h.state]

/-- The rings of `i` leave PAUSED. -/
abbrev ringsResumed (s : State) (i : Nat) : State := (instRings s (instDie s i) i).foldl (fun s n => ringResume s (instDie s i) n) s

theorem mgInstanceCtl_resumes (h : InstanceAct s B 3 .quiesced) :
    mgInstanceCtl s o B = .ok (ringsResumed (setInstSt s (fld B 20 0 10) .running 0) (fld B 20 0 10)) 0 := by
  simp [mgInstanceCtl, h.action, h.form, h.home, h.state]

theorem mgInstanceCtl_resizes (h : InstanceAct s B 4 .quiesced) :
    mgInstanceCtl s o B = .ok (setInstSt (modInst s (fld B 20 0 10) (loadLimits B)) (fld B 20 0 10) .quiesced 0) 0 := by
  simp [mgInstanceCtl, h.action, h.form, h.home, h.state]

theorem mgInstanceCtl_removes (h : InstanceAct s B 5 .quiesced) : mgInstanceCtl s o B = .ok (instRemove s (fld B 20 0 10)) 0 := by
  simp [mgInstanceCtl, h.action, h.form, h.home, h.state]

/-! ### QUIESCE (R319, R320) -/

theorem mgInstanceCtl_quiesces (h : InstanceAct s B 2 st) (hst : st ≠ .absent) : mgInstanceCtl s o B = instQuiesce s o (fld B 20 0 10) := by
  simp [mgInstanceCtl, h.action, h.form, h.home, h.state, hst]

/-- The rings of `i` pause. -/
abbrev ringsPaused (s : State) (i : Nat) : State := (instRings s (instDie s i) i).foldl (fun t n => ringPause t (instDie s i) n) s

theorem mgInstanceCtl_quiesces_configuring (h : InstanceAct s B 2 .configuring) :
    mgInstanceCtl s o B = .ok (setInstSt (ringsPaused s (fld B 20 0 10)) (fld B 20 0 10) .quiesced 0) 0 := by
  rw [mgInstanceCtl_quiesces h (by decide)]
  simp only [instQuiesce, h.state]

/-- The work of R320 begins, and the record waits for its end. -/
theorem mgInstanceCtl_quiesces_running (h : InstanceAct s B 2 .running) :
    mgInstanceCtl s o B = .hold (quiesceWork (setInstSt (modOp (modInst s (fld B 20 0 10) fun x => { x with quiesceOps := [o] }) o fun x =>
      { x with phase := .quiesce }) (fld B 20 0 10) .quiescing 0) (tgtDie B) (fld B 20 0 10)) := by
  rw [mgInstanceCtl_quiesces h (by decide)]
  simp only [instQuiesce, h.state, h.home]

/-! ### The mailbox's path -/

/-- The mailbox's offer changes nothing that an action observes. -/
theorem instanceAct_mbxOffer (ha : a < 8) (hform : instCtlForm s (instanceBlk b a) = true)
    (hhome : instDie s (fld (instanceBlk b a) 20 0 10) = tgtDie (instanceBlk b a)) (hst : (inst s (fld (instanceBlk b a) 20 0 10)).st = st) :
    InstanceAct (mbxOffer s (instanceBlk b a)).1 (instanceBlk b a) a st where
  action := action_instanceBlk b ha
  form := by rw [instCtlForm_mbxOffer]; exact hform
  home := by rw [instDie_mbxOffer]; exact hhome
  state := by rw [inst_mbxOffer]; exact hst

theorem Creatable.mbxOffer (h : Creatable s B) (b : Block) : Creatable (mbxOffer s b).1 B where
  absent := by rw [inst_mbxOffer]; exact h.absent
  notMgmt := by rw [mgmtFn_mbxOffer]; exact h.notMgmt
  free := by rw [fnOf_mbxOffer]; exact h.free
  there := by rw [fnExists_mbxOffer]; exact h.there
  memory := by rw [mbxOffer_sys]; exact h.memory

theorem mailbox_instanceCtl (hr : mbxReady s (instanceBlk b a) = true)
    (h : mgInstanceCtl (mbxOffer s (instanceBlk b a)).1 (mbxOffer s (instanceBlk b a)).2 (instanceBlk b a) = .ok t 0) :
    MailboxOk s (instanceBlk b a) c t := by
  have hop : fld (instanceBlk b a) 0 0 8 = 0xE6 := fld_rowBlk_op b 0xE6 _ (by simp)
  exact mailbox_ok hr (by omega) ((mgRun_E6 _ _ _ _ hop (mbxReady_target s _ hr)).trans h)

theorem mailbox_instanceCtl_hold (hr : mbxReady s (instanceBlk b a) = true)
    (h : mgInstanceCtl (mbxOffer s (instanceBlk b a)).1 (mbxOffer s (instanceBlk b a)).2 (instanceBlk b a) = .hold t) :
    taxia s .mailbox (instanceBlk b a) c = t := by
  have hop : fld (instanceBlk b a) 0 0 8 = 0xE6 := fld_rowBlk_op b 0xE6 _ (by simp)
  exact mbx_hold s _ c 0xE6 t hop (by decide) (by decide) hr ((mgRun_E6 _ _ _ _ hop (mbxReady_target s _ hr)).trans h)

/-- Settles O3: each action's answer on the state that the mailbox's offer leaves, whose instances and functions are those before it. That
QUIESCE in CONFIGURING pauses the rings is log entry 113 (R319 gives the completion alone); that the windows' nonces outlive
REMOVE and the next CREATE is log entry 116. Both are the model's own reading. -/
theorem instanceLifeActs : Obligations.InstanceLifeActs := by
  unfold Obligations.InstanceLifeActs
  refine ⟨?create, ?start, ?quiesceConfiguring, ?quiesceRunning, ?resume, ?resize, ?remove⟩
  case create =>
    intro s b c B p d i f hr hform habsent hmgmt hfree hthere hmem
    rw [exec_instanceCreate]
    rw [← instCtlForm_mbxOffer s B] at hform
    have h : Creatable s B := ⟨habsent, hmgmt, hfree, hthere, hmem⟩
    exact mailbox_instanceCtl hr (mgInstanceCtl_creates hform (action_instanceBlk b (by decide)) (h.mbxOffer B))
  case start =>
    intro s b c B p d i hr hform hhome hst
    rw [exec_instanceStart]
    exact mailbox_instanceCtl hr (mgInstanceCtl_starts (instanceAct_mbxOffer (by decide) hform hhome hst))
  case quiesceConfiguring =>
    intro s b c B p d i hr hform hhome hst
    rw [exec_instanceQuiesce, ← instDie_mbxOffer s B]
    exact mailbox_instanceCtl hr (mgInstanceCtl_quiesces_configuring (instanceAct_mbxOffer (by decide) hform hhome hst))
  case quiesceRunning =>
    intro s b c B p d i hr hform hhome hst
    rw [exec_instanceQuiesce]
    exact congrArg Host.Outcome.next
      (mailbox_instanceCtl_hold hr (mgInstanceCtl_quiesces_running (instanceAct_mbxOffer (by decide) hform hhome hst)))
  case resume =>
    intro s b c B p d i t hr hform hhome hst
    rw [exec_instanceResume]
    exact mailbox_instanceCtl hr (mgInstanceCtl_resumes (instanceAct_mbxOffer (by decide) hform hhome hst))
  case resize =>
    intro s b c B p d i hr hform hhome hst
    rw [exec_instanceResize]
    exact mailbox_instanceCtl hr (mgInstanceCtl_resizes (instanceAct_mbxOffer (by decide) hform hhome hst))
  case remove =>
    intro s b c B p d i hr hform hhome hst
    rw [exec_instanceRemove]
    exact mailbox_instanceCtl hr (mgInstanceCtl_removes (instanceAct_mbxOffer (by decide) hform hhome hst))

end Sys2Proof.Proofs
end

section
/-! PROOF. Resets of functions, host links and ports, the return from them, and the hosts' configuration requests (R311, R312, R319, R323,
R337, R415, R439, R451). -/

namespace Sys2Proof.Proofs

open Sys2Proof Sys2Proof.Machine

variable {s : State} {f : FnId} {p l n i : Nat}

/-! ### Resets (R323, R324, R451) -/

theorem flrFn_tenant (hne : f ≠ mgmtFn s) : flrFn s f = fnReset s f 1 := if_neg fun h => hne h.1

/-- With no management ring there is nothing to drain. -/
theorem flrFn_management (hm : f = mgmtFn s) (hno : mgmtRings (fnReset s f 1) = false) :
    flrFn s f = modFn (fnReset s f 1) f fun x => { x with inReset := false } := if_pos ⟨hm, hno⟩

theorem exec_flr_there (hex : fnExists s f = true) : exec (.flr f) s = .next (flrFn s f) := congrArg Host.Outcome.next (if_pos hex)

/-- A port's PERST_N low. -/
abbrev perstLow (s : State) (p : Nat) : State := onHst s (portDie p) fun h => { h with perst := addNew h.perst (p % 4) }

/-- A port's PERST_N high. -/
abbrev perstHigh (s : State) (p : Nat) : State := onHst s (portDie p) fun h => { h with perst := without h.perst (p % 4) }

theorem onHst_sys (s : State) (d : Die) (g : Hst → Hst) : (onHst s d g).sys = s.sys := onDie_sys s d _

theorem perstAssert_running (h : s.sys.inReset = false) : perstAssert s p =
    (List.range 4).foldl (fun s l => if linkExists s p l then hostLinkDown s p l 3 else s) (perstLow s p) := by
  simp only [perstAssert, onHst_sys, h, Bool.false_eq_true, if_false]

theorem perstAssert_inReset (h : s.sys.inReset = true) : perstAssert s p = perstLow s p := by
  simp only [perstAssert, onHst_sys, h, if_true]

theorem perstDeassert_silent (h : s.sys.mode ≠ .standby ∨ s.sys.inReset = true) : perstDeassert s p = perstHigh s p := by
  have hno : ¬ (s.sys.mode = .standby ∧ s.sys.inReset = false) := by
    rintro ⟨hmode, hreset⟩
    rcases h with h | h
    · exact h hmode
    · rw [hreset] at h; cases h
  simp only [perstDeassert, onHst_sys, if_neg hno]

theorem perstDeassert_standby (hreset : s.sys.inReset = false) (hmode : s.sys.mode = .standby) :
    perstDeassert s p = raiseLocal (perstHigh s p) (portDie p) (1987 + p % 4) := by
  simp only [perstDeassert, onHst_sys, hmode, hreset, and_self, if_true]

/-! ### A link that has trained (R415, R451) -/

theorem exec_hostLinkTrained_up (hex : linkExists s p l = true) (hreset : s.sys.inReset = false)
    (hperst : p % 4 ∉ (die s (portDie p)).hst.perst) (hunit : unitDown s (portDie p) 0x08 (p % 4) = false) (hmode : s.sys.mode ≠ .standby) :
    exec (.hostLinkTrained p l) s = .next (archiveCopyBegin (hostTrained s p l)) :=
  if_pos (by simp [hex, hreset, hperst, hunit, hmode])

/-! ### Configuration requests (R311, R312, R314, R337, R415) -/

/-- The request is answered. -/
abbrev cfgDone (s : State) (p l : Nat) : State := emit s (.cfgDone p l)

theorem exec_hostConfigRequest_bringup {r : HostReq} (hmode : s.sys.mode = .bringup) : exec (.hostConfigRequest p { link := l, what := r }) s =
    .next (emit s (if r = .atomicToBar then .unsupported p l else .cfgRetry p l)) := congrArg Host.Outcome.next (if_pos hmode)

theorem exec_hostConfigRequest_up {r : HostReq} (hmode : s.sys.mode ≠ .bringup) (hup : (hlink s p l).up = true) :
    exec (.hostConfigRequest p { link := l, what := r }) s = .next (hostRequest s p l r) :=
  congrArg Host.Outcome.next ((if_neg hmode).trans (if_pos hup))

theorem hostRequest_atsEnable {on : Bool} (hex : fnExists s { port := p, link := l, fn := n } = true) :
    hostRequest s p l (.atsEnable n on) = cfgDone (modFn s { port := p, link := l, fn := n } fun x => { x with atsEn := on }) p l := by
  simp only [hostRequest, hex, if_true]

theorem hostRequest_msixOn (hex : fnExists s { port := p, link := l, fn := n } = true) :
    hostRequest s p l (.msixEnable n true) = cfgDone (modFn s { port := p, link := l, fn := n } fun x => { x with msixEn := true }) p l := by
  simp only [hostRequest, hex, Bool.not_true, Bool.false_eq_true, if_false, if_true]

theorem hostRequest_msixOff (hex : fnExists s { port := p, link := l, fn := n } = true) :
    hostRequest s p l (.msixEnable n false) =
      cfgDone (msixDrop (modFn s { port := p, link := l, fn := n } fun x => { x with msixEn := false }) { port := p, link := l, fn := n }) p l := by
  simp only [hostRequest, hex, Bool.not_true, Bool.false_eq_true, if_false]

theorem hostRequest_cplTimeout {off : Bool} (hlo : 50000 ≤ n) (hhi : n ≤ 64000000000) :
    hostRequest s p l (.cplTimeout n off) = cfgDone (modHlink s p l fun h => { h with cplTimeout := n, cplOff := off }) p l := by
  simp only [hostRequest, hlo, hhi, and_self, if_true]

/-- Settles O35: each row where its condition holds. The share of NumVFs and the settings that a request makes are R311, R312, R314, R337 and
R375, the always-on source of a deassertion R439; that an edge of PERST_N during a reset still sets the pin's level is log entry 157,
and the management function's return at once log entry 125: the model's own reading. -/
theorem resetsReachInstances : Obligations.ResetsReachInstances := by
  unfold Obligations.ResetsReachInstances
  refine ⟨?flr, ?flrManagement, ?linkReset, ?perst, ?perstInReset, ?perstEnd, ?perstEndStandby, ?d3hot, ?resetDone, ?quiesceDone, ?trained,
    ?retry, ?atomic, ?read, ?numVfs, ?ats, ?msixOn, ?msixOff, ?timeout⟩
  case flr => exact fun s f hex hne => (exec_flr_there hex).trans (congrArg Host.Outcome.next (flrFn_tenant hne))
  case flrManagement => exact fun s f hex hm hno => (exec_flr_there hex).trans (congrArg Host.Outcome.next (flrFn_management hm hno))
  case linkReset => exact fun s p l hex => congrArg Host.Outcome.next (if_pos hex)
  case perst => exact fun s p hp hreset => congrArg Host.Outcome.next ((if_pos hp).trans (perstAssert_running hreset))
  case perstInReset => exact fun s p hp hreset => congrArg Host.Outcome.next ((if_pos hp).trans (perstAssert_inReset hreset))
  case perstEnd => exact fun s p hp h => congrArg Host.Outcome.next ((if_pos hp).trans (perstDeassert_silent h))
  case perstEndStandby =>
    exact fun s p hp hreset hmode => congrArg Host.Outcome.next ((if_pos hp).trans (perstDeassert_standby hreset hmode))
  case d3hot => exact fun s f hex => if_pos hex
  case resetDone => exact fun s i hst hup hdrained => if_pos ⟨hst, hup, hdrained⟩
  case quiesceDone => exact fun s i hst hnone => if_pos ⟨hst, hnone⟩
  case trained => exact fun s p l => exec_hostLinkTrained_up
  case retry =>
    intro s p l r hmode hr
    rw [exec_hostConfigRequest_bringup hmode, if_neg hr]
  case atomic =>
    intro s p l h
    by_cases hmode : s.sys.mode = .bringup
    · exact exec_hostConfigRequest_bringup hmode
    · exact exec_hostConfigRequest_up hmode (h.resolve_left hmode)
  case read => exact fun s p l => exec_hostConfigRequest_up
  case numVfs => exact fun s p l n => exec_hostConfigRequest_up
  case ats =>
    intro s p l n on f hmode hup hex
    rw [exec_hostConfigRequest_up hmode hup, hostRequest_atsEnable hex]
  case msixOn =>
    intro s p l n f hmode hup hex
    rw [exec_hostConfigRequest_up hmode hup, hostRequest_msixOn hex]
  case msixOff =>
    intro s p l n f hmode hup hex
    rw [exec_hostConfigRequest_up hmode hup, hostRequest_msixOff hex]
  case timeout =>
    intro s p l n off hmode hup hlo hhi
    rw [exec_hostConfigRequest_up hmode hup, hostRequest_cplTimeout hlo hhi]

end Sys2Proof.Proofs
end

section
/-! PROOF. Host reads, table walks, ATS answers and ATS invalidations complete (R333 to R339, R477). -/

namespace Sys2Proof.Proofs

open Sys2Proof Sys2Proof.Machine

variable {s t : State} {o : Nat} {parts : List ReadPart}

/-! ### A host read of an operation (R477) -/

theorem exec_hostReadComplete_whole (h : takeReads s (.op o) (anyTimeout parts) = some (true, t)) :
    exec (.hostReadComplete o parts) s = .next (afterReads (hostReadComplete t o parts)) := congrArg Host.Outcome.next (readReturns_whole h)

/-- With every byte there, or after a failure, the read is done. -/
theorem hostReadComplete_done (hw : opWalking s (opOf s o).die o = false)
    (hlen : (readOutcome parts).fail = none → (readOutcome parts).bytes.length = readLength (opOf s o)) :
    hostReadComplete s o parts = readDone s o (readOutcome parts) := by
  cases hf : (readOutcome parts).fail with
  | none => simp only [hostReadComplete, hw, hf, hlen hf, Option.isNone_none, ne_eq, not_true_eq_false, decide_false, Bool.and_false,
      Bool.or_self, Bool.false_eq_true, if_false]
  | some f => simp only [hostReadComplete, hw, hf, Option.isNone_some, Bool.false_and, Bool.or_self, Bool.false_eq_true, if_false]

variable {r : ReadDone} {c : Nat}

theorem readDone_stride (hx : (opOf s o).phase = .long .running) (hb : (opOf s o).begun = true) (hr : (opOf s o).read = none)
    (hf : r.fail = none) : readDone s o r = modOp s o fun x => { x with read := some r } := by
  simp only [readDone, hx, hb, hr, hf, Option.isNone_none, Bool.and_self, if_true]

theorem readDone_eager (hx : (opOf s o).phase = .reading) (hc : (opOf s o).conn = some c) (hf : r.fail = none) :
    readDone s o r = sendEager s o c r.bytes := by
  simp only [readDone, hx, hc, hf]

theorem readDone_eager_fails {f : ReadFail} (hx : (opOf s o).phase = .reading) (hc : (opOf s o).conn = some c) (hf : r.fail = some f) :
    readDone s o r = failOp s o (readFailCode f) 0x01 := by
  simp only [readDone, hx, hc, hf]

/-! ### Table walks (R334, R335) -/

variable {d : Die} {n v : Nat} {w : Walk}

theorem exec_tableWalkComplete_whole {q : WordRead} {late : Bool} (hlate : decide (q = .fail .timeout) = late)
    (h : takeReads s (.walk d n) late = some (true, t)) :
    exec (.tableWalkComplete d n q) s = .next (afterReads (tableWalkComplete t d n q)) := by
  change execTableWalkComplete d n q s = _
  simp only [execTableWalkComplete, hlate, h]

theorem tableWalkComplete_read {x : Word} (hw : tget none (die s d).hst.walks n = some w) (hl : w.level = 1 ∨ w.level = 2) :
    tableWalkComplete s d n (.ok x) = walkStep s d n w x.toNat := by
  simp only [tableWalkComplete, hw, if_pos hl]

theorem tableWalkComplete_failed {f : ReadFail} (hw : tget none (die s d).hst.walks n = some w) (hl : w.level = 1 ∨ w.level = 2) :
    tableWalkComplete s d n (.fail f) = walkFails s d n w 0x04 := by
  simp only [tableWalkComplete, hw, if_pos hl]

/-- A word read for a walk at level 1 or 2 is judged as that level's entry. -/
theorem exec_tableWalkComplete_read {x : Word} (h : takeReads s (.walk d n) false = some (true, t))
    (hw : tget none (die t d).hst.walks n = some w) (hl : w.level = 1 ∨ w.level = 2) :
    exec (.tableWalkComplete d n (.ok x)) s = .next (afterReads (walkStep t d n w x.toNat)) := by
  rw [exec_tableWalkComplete_whole (decide_eq_false (by simp)) h, tableWalkComplete_read hw hl]

/-- The level-2 table that a level-1 entry names. -/
abbrev tableAt (v : Nat) (w : Walk) : Nat := bits v 16 48 * 65536 + 8 * (w.page % 8192)

theorem walkStep_level1_descends (hl : w.level = 1) (hv : bit v 0 = true) (hrsv : bits v 2 14 = 0)
    (hap : inAperture s (inst s w.inst).fn.port (tableAt v w) = false) : walkStep s d n w v =
      issueWalk (onHst s d fun h => { h with walks := tset none h.walks n (some { w with level := 2, addr := tableAt v w, e1 := v }) }) n
        { w with level := 2, addr := tableAt v w, e1 := v } := by
  rw [tableAt] at hap
  simp only [walkStep, hl, hv, hrsv, hap, Bool.not_true, bne_self_eq_false, Bool.or_self, Bool.false_eq_true, if_false, if_true]

theorem walkStep_level1_aperture (hl : w.level = 1) (hv : bit v 0 = true) (hrsv : bits v 2 14 = 0)
    (hap : inAperture s (inst s w.inst).fn.port (tableAt v w) = true) : walkStep s d n w v = walkFails s d n w 0x05 := by
  rw [tableAt] at hap
  simp only [walkStep, hl, hv, hrsv, hap, Bool.not_true, bne_self_eq_false, Bool.or_self, Bool.false_eq_true, if_false, if_true]

/-- The translation that a level-2 entry gives. -/
abbrev walkedEnt (v : Nat) (w : Walk) : TlbEnt :=
  { inst := w.inst, win := w.win, page := w.page, bus := v / 2 ^ pageShift w.snap * 2 ^ pageShift w.snap
    noWrite := bit w.e1 1 || bit v 1, ats := none }

theorem walkStep_level2_fills (hl : w.level = 2) (hv : bit v 0 = true) (hrsv : bits v 2 (pageShift w.snap - 2) = 0) :
    walkStep s d n w v = walkOver (walkGone (if w.stale then s else tlbFill s d (walkedEnt v w)) d n) d w (walkedEnt v w) := by
  simp [walkStep, hl, hv, hrsv]

theorem walkStep_invalid (hl : w.level = 1 ∨ w.level = 2) (hv : bit v 0 = false) : walkStep s d n w v = walkFails s d n w 0x04 := by
  rcases hl with hl | hl <;> simp [walkStep, hl, hv]

/-! ### ATS answers (R337) -/

theorem exec_atsTranslationComplete_refused (hw : tget none (die s d).hst.walks n = some w) (hl : w.level = 3) :
    exec (.atsTranslationComplete d n .refused) s = .next (afterReads (walkFails s d n w 0x04)) := by
  change execAtsTranslationComplete d n .refused s = _
  simp only [execAtsTranslationComplete, atsComplete, hw, hl, ne_eq, not_true_eq_false, if_false]

/-- The translation that an ATS answer gives. -/
abbrev atsEnt (a : Nat) (rd wr : Bool) (w : Walk) : TlbEnt :=
  { inst := w.inst, win := w.win, page := w.page, bus := a / 65536 * 65536, noWrite := false, ats := some (rd, wr) }

theorem exec_atsTranslationComplete_page {a : Nat} {rd wr : Bool} (hw : tget none (die s d).hst.walks n = some w) (hl : w.level = 3)
    (hs : w.stale = false) : exec (.atsTranslationComplete d n (.page a rd wr)) s =
      .next (afterReads (walkOver (walkGone (tlbFill s d (atsEnt a rd wr w)) d n) d w (atsEnt a rd wr w))) := by
  change execAtsTranslationComplete d n (.page a rd wr) s = _
  simp only [execAtsTranslationComplete, atsComplete, hw, hl, hs, ne_eq, not_true_eq_false, Bool.false_eq_true, if_false]

/-! ### ATS invalidations (R337, R338) -/

variable {f : FnId} {i a len : Nat}

/-- The window of a cached translation for the tenant `i`. -/
abbrev entWin (s : State) (i : Nat) (e : TlbEnt) : Win := tget {} (inst s i).wins e.win

/-- An invalidation of the `len` bytes from `a` covers a cached answer for the tenant `i`: each of a tabled window, and of another
window those whose page it meets. -/
def atsCovers (s : State) (i a len : Nat) (e : TlbEnt) : Bool :=
  let first := if (entWin s i e).tabled then 0 else (entWin s i e).target + 65536 * e.page
  decide (e.inst = i) && e.ats.isSome && ((entWin s i e).tabled || decide (first < a + len ∧ a < first + 65536))

/-- A host access issued under a cached answer for the tenant `i`. -/
def atsRead (i : Nat) (r : HostRead) : Bool := r.issued && r.ats && decide (r.who = i)

/-- The answers that an invalidation covers are gone. -/
def atsDropped (s : State) (i a len : Nat) : State :=
  onHst s (instDie s i) fun h => { h with tlb := h.tlb.filter fun e => !(atsCovers s i a len e) }

theorem atsInvalidate_tenantless (h : (fnOf s f).inst = none) : atsInvalidate s f a len = emit s (.atsInvDone f) := by
  simp only [atsInvalidate, h]

theorem atsInvalidate_tenant (h : (fnOf s f).inst = some i) : atsInvalidate s f a len =
    if (atsDropped s i a len).reads.any (atsRead i) then
      { atsDropped s i a len with
        reads := (atsDropped s i a len).reads.map fun r => if atsRead i r then { r with inv := true } else r
        atsInvs := (atsDropped s i a len).atsInvs ++ [f] }
    else emit (atsDropped s i a len) (.atsInvDone f) := by
  unfold atsInvalidate
  rw [h]
  rfl

theorem onHst_reads (s : State) (d : Die) (g : Hst → Hst) : (onHst s d g).reads = s.reads := onDie_reads s d _
theorem onHst_out (s : State) (d : Die) (g : Hst → Hst) : (onHst s d g).out = s.out := onDie_out s d _
theorem onHst_atsInvs (s : State) (d : Die) (g : Hst → Hst) : (onHst s d g).atsInvs = s.atsInvs := onDie_atsInvs s d _

theorem tlb_atsDropped : (die (atsDropped s i a len) (instDie s i)).hst.tlb =
    (die s (instDie s i)).hst.tlb.filter fun e => !(atsCovers s i a len e) := by
  simp only [atsDropped, onHst, die_onDie_same]

/-- The completion waits for the accesses outstanding; the rest of both outcomes is what the answers leave. -/
theorem atsInvalidate_completes_unless_used (h : (fnOf s f).inst = some i) :
    (if s.reads.any (atsRead i) then (atsInvalidate s f a len).out = s.out ∧ (atsInvalidate s f a len).atsInvs = s.atsInvs ++ [f]
      else (atsInvalidate s f a len).out = .atsInvDone f :: s.out ∧ (atsInvalidate s f a len).atsInvs = s.atsInvs) := by
  have hreads : (atsDropped s i a len).reads = s.reads := onHst_reads ..
  have hout : (atsDropped s i a len).out = s.out := onHst_out ..
  have hinvs : (atsDropped s i a len).atsInvs = s.atsInvs := onHst_atsInvs ..
  rw [atsInvalidate_tenant h, hreads, hinvs]
  split
  · exact ⟨hout, rfl⟩
  · exact ⟨(out_emit ..).trans (congrArg _ hout), hinvs⟩

theorem tlb_atsInvalidate (h : (fnOf s f).inst = some i) (d : Die) :
    (die (atsInvalidate s f a len) d).hst.tlb = (die (atsDropped s i a len) d).hst.tlb := by
  rw [atsInvalidate_tenant h]
  split <;> cases d <;> rfl

/-- A cached answer that is not covered is of a window without a table, and its page and the invalidated bytes are apart. -/
theorem apart_of_not_covered {e : TlbEnt} (hc : atsCovers s i a len e = false) (he : e.inst = i) (hats : e.ats.isSome = true) :
    (entWin s i e).tabled = false ∧
      (a + len ≤ (entWin s i e).target + 65536 * e.page ∨ (entWin s i e).target + 65536 * e.page + 65536 ≤ a) := by
  simp only [atsCovers, he, hats, decide_true, Bool.and_self, Bool.true_and, Bool.or_eq_false_iff, decide_eq_false_iff_not] at hc
  obtain ⟨htabled, hapart⟩ := hc
  rw [htabled, if_neg Bool.false_ne_true] at hapart
  exact ⟨htabled, by omega⟩

theorem not_covered_of_other {e : TlbEnt} (h : e.inst ≠ i ∨ e.ats = none) : atsCovers s i a len e = false := by
  rcases h with h | h <;> simp [atsCovers, h]

/-- Settles O18: each row on the state that its reads leave, by the phase of what waited or the level of the walk. ATS answers are R337, what
leaves the translation cache R338; that an invalidation drops every answer of a tabled window is log entry 118, the model's own
reading. -/
theorem hostTranslationsComplete : Obligations.HostTranslationsComplete := by
  unfold Obligations.HostTranslationsComplete
  refine ⟨?stride, ?eager, ?eagerFails, ?level1, ?level2, ?entryFails, ?aperture, ?refused, ?page, ?tenantless, ?tenant⟩
  case stride =>
    intro s o l t x rd htake hw hf hlen hx hb hr
    rw [exec_hostReadComplete_whole htake, hostReadComplete_done hw (fun _ => hlen), readDone_stride hx hb hr hf]
  case eager =>
    intro s o c l t x rd htake hw hf hlen hx hc
    rw [exec_hostReadComplete_whole htake, hostReadComplete_done hw (fun _ => hlen), readDone_eager hx hc hf]
  case eagerFails =>
    intro s o c l t f x rd htake hw hf hx hc
    rw [exec_hostReadComplete_whole htake, hostReadComplete_done hw (fun hno => absurd (hf.symm.trans hno) (by simp)),
      readDone_eager_fails hx hc hf]
  case level1 =>
    intro s d n v t w a w2 htake hw hl hv hrsv hap
    rw [exec_tableWalkComplete_read htake hw (.inl hl), walkStep_level1_descends hl hv hrsv hap]
  case level2 =>
    intro s d n v t w ps e htake hw hl hv hrsv
    rw [exec_tableWalkComplete_read htake hw (.inr hl), walkStep_level2_fills hl hv hrsv]
  case entryFails =>
    intro s d n r t w htake hw hl hbad
    rcases hbad with ⟨f, rfl⟩ | ⟨v, rfl, hv⟩
    · rw [exec_tableWalkComplete_whole rfl htake, tableWalkComplete_failed hw hl]
    · rw [exec_tableWalkComplete_read htake hw hl, walkStep_invalid hl hv]
  case aperture =>
    intro s d n v t w htake hw hl hv hrsv hap
    rw [exec_tableWalkComplete_read htake hw (.inl hl), walkStep_level1_aperture hl hv hrsv hap]
  case refused => exact fun s d n w => exec_atsTranslationComplete_refused
  case page => exact fun s d n a rd wr w => exec_atsTranslationComplete_page
  case tenantless => exact fun s f a n h => congrArg Host.Outcome.next (atsInvalidate_tenantless h)
  case tenant =>
    intro s f i a n h
    refine ⟨atsInvalidate s f a n, rfl, atsInvalidate_completes_unless_used h, ?_⟩
    rw [tlb_atsInvalidate h, tlb_atsDropped]
    refine ⟨List.filter_sublist, ?apart, ?kept⟩
    case apart =>
      intro e he hi hats
      obtain ⟨-, hnot⟩ := List.mem_filter.mp he
      rw [Bool.not_eq_true'] at hnot
      exact apart_of_not_covered hnot hi hats
    case kept =>
      intro e he hother
      exact List.mem_filter.mpr ⟨he, by rw [not_covered_of_other hother]; rfl⟩

end Sys2Proof.Proofs
end

section
/-! PROOF. What a step leaves as it was (R397, R449, R450, R459): every command but three keeps the queue, the clock, the flash and the
latch of THERMTRIP_N (`Keeps`). FLASH_ERASE and FLASH_PROGRAM change the flash and the answer over I3C alone, and the deassertion of
PWRGOOD is a command that keeps all but the latch. The queue, the clock that a step on an empty queue moves and the count of free
values are the model's own choices (log entries 1, 2, 6 and 7). -/

namespace Sys2Proof.Proofs

open Sys2Proof Sys2Proof.Machine Sys2Proof.Laws

/-! ### Every command -/

/-- Each command, by the law of its row. -/
theorem exec_keeps (c : Instr) (s : State) (herase : ∀ a, c ≠ .i3cFlashErase a) (hprogram : ∀ a l, c ≠ .i3cFlashProgram a l)
    (hlatch : ∀ w, c ≠ .pwrgoodDeassert w) : KeepsOut s (exec c s) :=
  match c with
  | .i3cFlashErase a => absurd rfl (herase a)
  | .i3cFlashProgram a l => absurd rfl (hprogram a l)
  | .pwrgoodDeassert w => absurd rfl (hlatch w)
  | .put iss blk chain => keeps_execPut iss blk chain s (.refl s)
  | .putInline iss blk chain => keeps_execPutInline iss blk chain s (.refl s)
  | .get iss blk chain => keeps_execGet iss blk chain s (.refl s)
  | .gather iss blk chain => keeps_execGather iss blk chain s (.refl s)
  | .scatter iss blk chain => keeps_execScatter iss blk chain s (.refl s)
  | .zero iss blk chain => keeps_execZero iss blk chain s (.refl s)
  | .send iss blk chain => keeps_execSend iss blk chain s (.refl s)
  | .sendInline iss blk chain => keeps_execSendInline iss blk chain s (.refl s)
  | .recvPost iss blk chain => keeps_execRecvPost iss blk chain s (.refl s)
  | .recvCancel iss blk chain => keeps_execRecvCancel iss blk chain s (.refl s)
  | .ctxOpen iss blk chain => keeps_execCtxOpen iss blk chain s (.refl s)
  | .ctxDrain iss blk chain => keeps_execCtxDrain iss blk chain s (.refl s)
  | .ctxClose iss blk chain => keeps_execCtxClose iss blk chain s (.refl s)
  | .collBarrier iss blk chain => keeps_execCollBarrier iss blk chain s (.refl s)
  | .collBcast iss blk chain => keeps_execCollBcast iss blk chain s (.refl s)
  | .collReduce iss blk chain => keeps_execCollReduce iss blk chain s (.refl s)
  | .collAllreduce iss blk chain => keeps_execCollAllreduce iss blk chain s (.refl s)
  | .collAllgather iss blk chain => keeps_execCollAllgather iss blk chain s (.refl s)
  | .nop iss blk chain => keeps_execNop iss blk chain s (.refl s)
  | .atomic iss blk chain => keeps_execAtomic iss blk chain s (.refl s)
  | .tallyWrite iss blk chain => keeps_execTallyWrite iss blk chain s (.refl s)
  | .tallyRead iss blk chain => keeps_execTallyRead iss blk chain s (.refl s)
  | .ringReset iss blk chain => keeps_execRingReset iss blk chain s (.refl s)
  | .trigArm iss blk chain => keeps_execTrigArm iss blk chain s (.refl s)
  | .trigDisarm iss blk chain => keeps_execTrigDisarm iss blk chain s (.refl s)
  | .mgIdentitySet iss blk chain => keeps_execMgIdentitySet iss blk chain s (.refl s)
  | .portEnable iss blk chain => keeps_execPortEnable iss blk chain s (.refl s)
  | .portDisable iss blk chain => keeps_execPortDisable iss blk chain s (.refl s)
  | .portDrain iss blk chain => keeps_execPortDrain iss blk chain s (.refl s)
  | .portRetrain iss blk chain => keeps_execPortRetrain iss blk chain s (.refl s)
  | .portRelease iss blk chain => keeps_execPortRelease iss blk chain s (.refl s)
  | .portConfigure iss blk chain => keeps_execPortConfigure iss blk chain s (.refl s)
  | .epochWriteClear iss blk chain => keeps_execEpochWriteClear iss blk chain s (.refl s)
  | .epochWriteCopyActive iss blk chain => keeps_execEpochWriteCopyActive iss blk chain s (.refl s)
  | .epochWritePut iss blk chain => keeps_execEpochWritePut iss blk chain s (.refl s)
  | .epochWriteRemove iss blk chain => keeps_execEpochWriteRemove iss blk chain s (.refl s)
  | .epochActivate iss blk chain => keeps_execEpochActivate iss blk chain s (.refl s)
  | .epochWithdraw iss blk chain => keeps_execEpochWithdraw iss blk chain s (.refl s)
  | .mgGateStage iss blk chain => keeps_execMgGateStage iss blk chain s (.refl s)
  | .gateActivate iss blk chain => keeps_execGateActivate iss blk chain s (.refl s)
  | .gateWithdraw iss blk chain => keeps_execGateWithdraw iss blk chain s (.refl s)
  | .gateClear iss blk chain => keeps_execGateClear iss blk chain s (.refl s)
  | .instanceCreate iss blk chain => keeps_execInstanceCreate iss blk chain s (.refl s)
  | .instanceStart iss blk chain => keeps_execInstanceStart iss blk chain s (.refl s)
  | .instanceQuiesce iss blk chain => keeps_execInstanceQuiesce iss blk chain s (.refl s)
  | .instanceResume iss blk chain => keeps_execInstanceResume iss blk chain s (.refl s)
  | .instanceResize iss blk chain => keeps_execInstanceResize iss blk chain s (.refl s)
  | .instanceRemove iss blk chain => keeps_execInstanceRemove iss blk chain s (.refl s)
  | .grantConnection iss blk chain => keeps_execGrantConnection iss blk chain s (.refl s)
  | .revokeConnection iss blk chain => keeps_execRevokeConnection iss blk chain s (.refl s)
  | .grantMatching iss blk chain => keeps_execGrantMatching iss blk chain s (.refl s)
  | .grantCollective iss blk chain => keeps_execGrantCollective iss blk chain s (.refl s)
  | .revokeCollective iss blk chain => keeps_execRevokeCollective iss blk chain s (.refl s)
  | .grantCounter iss blk chain => keeps_execGrantCounter iss blk chain s (.refl s)
  | .revokeCounter iss blk chain => keeps_execRevokeCounter iss blk chain s (.refl s)
  | .grantTally iss blk chain => keeps_execGrantTally iss blk chain s (.refl s)
  | .revokeTally iss blk chain => keeps_execRevokeTally iss blk chain s (.refl s)
  | .grantVstation iss blk chain => keeps_execGrantVstation iss blk chain s (.refl s)
  | .revokeVstation iss blk chain => keeps_execRevokeVstation iss blk chain s (.refl s)
  | .grantWindow iss blk chain => keeps_execGrantWindow iss blk chain s (.refl s)
  | .modeSetDrain iss blk chain => keeps_execModeSetDrain iss blk chain s (.refl s)
  | .modeSetResume iss blk chain => keeps_execModeSetResume iss blk chain s (.refl s)
  | .modeSetStandby iss blk chain => keeps_execModeSetStandby iss blk chain s (.refl s)
  | .modeSetReset iss blk chain => keeps_execModeSetReset iss blk chain s (.refl s)
  | .modeSetForensic iss blk chain => keeps_execModeSetForensic iss blk chain s (.refl s)
  | .mgRegRead iss blk chain => keeps_execMgRegRead iss blk chain s (.refl s)
  | .mgRegWrite iss blk chain => keeps_execMgRegWrite iss blk chain s (.refl s)
  | .cruisePushNow iss blk chain => keeps_execCruisePushNow iss blk chain s (.refl s)
  | .cruiseSetPush iss blk chain => keeps_execCruiseSetPush iss blk chain s (.refl s)
  | .cruiseSetReceive iss blk chain => keeps_execCruiseSetReceive iss blk chain s (.refl s)
  | .mgShelfCollect iss blk chain => keeps_execMgShelfCollect iss blk chain s (.refl s)
  | .mgFaultRelease iss blk chain => keeps_execMgFaultRelease iss blk chain s (.refl s)
  | .mgSemBankReset iss blk chain => keeps_execMgSemBankReset iss blk chain s (.refl s)
  | .timeCtlSet iss blk chain => keeps_execTimeCtlSet iss blk chain s (.refl s)
  | .timeCtlStep iss blk chain => keeps_execTimeCtlStep iss blk chain s (.refl s)
  | .timeCtlReselect iss blk chain => keeps_execTimeCtlReselect iss blk chain s (.refl s)
  | .archiveDesignate iss blk chain => keeps_execArchiveDesignate iss blk chain s (.refl s)
  | .archiveClear iss blk chain => keeps_execArchiveClear iss blk chain s (.refl s)
  | .archiveCopy iss blk chain => keeps_execArchiveCopy iss blk chain s (.refl s)
  | .ringConfigureCmd iss blk chain => keeps_execRingConfigureCmd iss blk chain s (.refl s)
  | .ringConfigureCq iss blk chain => keeps_execRingConfigureCq iss blk chain s (.refl s)
  | .ringPause iss blk chain => keeps_execRingPause iss blk chain s (.refl s)
  | .ringResume iss blk chain => keeps_execRingResume iss blk chain s (.refl s)
  | .ringCtlReset iss blk chain => keeps_execRingCtlReset iss blk chain s (.refl s)
  | .ringReleaseCmd iss blk chain => keeps_execRingReleaseCmd iss blk chain s (.refl s)
  | .ringReleaseCq iss blk chain => keeps_execRingReleaseCq iss blk chain s (.refl s)
  | .doorbell who idx => keeps_execDoorbell who idx s (.refl s)
  | .ringEntryFetch d n r => keeps_execRingEntryFetch d n r s (.refl s)
  | .ringConsumeRetry d n r => keeps_execRingConsumeRetry d n r s (.refl s)
  | .ringResetDone d n => keeps_execRingResetDone d n s (.refl s)
  | .ringResetSlotTimeout d n => keeps_execRingResetSlotTimeout d n s (.refl s)
  | .shadowTimer d n => keeps_execShadowTimer d n s (.refl s)
  | .commandDispatch d => keeps_execCommandDispatch d s (.refl s)
  | .ringAgeExpiry d n => keeps_execRingAgeExpiry d n s (.refl s)
  | .cqHeadWrite who idx val => keeps_execCqHeadWrite who idx val s (.refl s)
  | .extBlockFetch op r => keeps_execExtBlockFetch op r s (.refl s)
  | .trigSlotTimeout op => keeps_execTrigSlotTimeout op s (.refl s)
  | .connCacheWaitTimeout op => keeps_execConnCacheWaitTimeout op s (.refl s)
  | .opsSlotWaitTimeout op => keeps_execOpsSlotWaitTimeout op s (.refl s)
  | .maxOpsWaitTimeout op => keeps_execMaxOpsWaitTimeout op s (.refl s)
  | .ctxOpenWaitTimeout op => keeps_execCtxOpenWaitTimeout op s (.refl s)
  | .recvPostWaitTimeout op => keeps_execRecvPostWaitTimeout op s (.refl s)
  | .strideBoundary op => keeps_execStrideBoundary op s (.refl s)
  | .longCommandResume op => keeps_execLongCommandResume op s (.refl s)
  | .dataPacketArrive d p hr => keeps_execDataPacketArrive d p hr s (.refl s)
  | .ackTimer d c => keeps_execAckTimer d c s (.refl s)
  | .ackReceive d p => keeps_execAckReceive d p s (.refl s)
  | .flushTimer d c => keeps_execFlushTimer d c s (.refl s)
  | .flushComplete d c fail => keeps_execFlushComplete d c fail s (.refl s)
  | .rtoExpiry d c => keeps_execRtoExpiry d c s (.refl s)
  | .getResponseArrive d p => keeps_execGetResponseArrive d p s (.refl s)
  | .pacedSend d c => keeps_execPacedSend d c s (.refl s)
  | .connectReceive d p => keeps_execConnectReceive d p s (.refl s)
  | .connectResend d c => keeps_execConnectResend d c s (.refl s)
  | .teardownReceive d p => keeps_execTeardownReceive d p s (.refl s)
  | .connDrainDone d c => keeps_execConnDrainDone d c s (.refl s)
  | .progressTimeout d c => keeps_execProgressTimeout d c s (.refl s)
  | .rnrResend d c => keeps_execRnrResend d c s (.refl s)
  | .rnrLimitExpiry d c => keeps_execRnrLimitExpiry d c s (.refl s)
  | .pullRequest d p hr => keeps_execPullRequest d p hr s (.refl s)
  | .finishPacket d p => keeps_execFinishPacket d p s (.refl s)
  | .ctxDrainDone op => keeps_execCtxDrainDone op s (.refl s)
  | .bndContribution d p => keeps_execBndContribution d p s (.refl s)
  | .bndResult d p => keeps_execBndResult d p s (.refl s)
  | .bndAck d p => keeps_execBndAck d p s (.refl s)
  | .bndResend d cctx seq seg => keeps_execBndResend d cctx seq seg s (.refl s)
  | .bndRelayPacket d p => keeps_execBndRelayPacket d p s (.refl s)
  | .bndAbortReceive d p => keeps_execBndAbortReceive d p s (.refl s)
  | .bndBackupTimeout d cctx => keeps_execBndBackupTimeout d cctx s (.refl s)
  | .tokenRequest d u => keeps_execTokenRequest d u s (.refl s)
  | .tokenGrant d => keeps_execTokenGrant d s (.refl s)
  | .tokenRelease d u => keeps_execTokenRelease d u s (.refl s)
  | .packetRouteSource d p => keeps_execPacketRouteSource d p s (.refl s)
  | .packetForward d from_ p => keeps_execPacketForward d from_ p s (.refl s)
  | .boomArrival d p => keeps_execBoomArrival d p s (.refl s)
  | .boomHoldTimeout d src tc => keeps_execBoomHoldTimeout d src tc s (.refl s)
  | .boomEntryIdle d src tc => keeps_execBoomEntryIdle d src tc s (.refl s)
  | .boomNoticeReceive d p => keeps_execBoomNoticeReceive d p s (.refl s)
  | .cooldownExpiry d f => keeps_execCooldownExpiry d f s (.refl s)
  | .flowStateRetire d f => keeps_execFlowStateRetire d f s (.refl s)
  | .egressServe d eg => keeps_execEgressServe d eg s (.refl s)
  | .injectionServe d port => keeps_execInjectionServe d port s (.refl s)
  | .agePromotion d q => keeps_execAgePromotion d q s (.refl s)
  | .semBoostApply d n => keeps_execSemBoostApply d n s (.refl s)
  | .gateEntryBoundary d port => keeps_execGateEntryBoundary d port s (.refl s)
  | .gateActivation d port => keeps_execGateActivation d port s (.refl s)
  | .flumeRequest d from_ p => keeps_execFlumeRequest d from_ p s (.refl s)
  | .flumePartialDiscard d src reqDie reqSeq => keeps_execFlumePartialDiscard d src reqDie reqSeq s (.refl s)
  | .flumeResend op => keeps_execFlumeResend op s (.refl s)
  | .flumeAnswerTimeout op => keeps_execFlumeAnswerTimeout op s (.refl s)
  | .flumeAnswer d p => keeps_execFlumeAnswer d p s (.refl s)
  | .flumeRelay d from_ p => keeps_execFlumeRelay d from_ p s (.refl s)
  | .flumeEventReceive d p => keeps_execFlumeEventReceive d p s (.refl s)
  | .cruiseSample d => keeps_execCruiseSample d s (.refl s)
  | .summarySend d => keeps_execSummarySend d s (.refl s)
  | .summaryReceive d from_ m => keeps_execSummaryReceive d from_ m s (.refl s)
  | .summaryForward d => keeps_execSummaryForward d s (.refl s)
  | .summaryStale d r => keeps_execSummaryStale d r s (.refl s)
  | .mapPush d => keeps_execMapPush d s (.refl s)
  | .mapPartReceive d p => keeps_execMapPartReceive d p s (.refl s)
  | .mapCloseTimeout d slot => keeps_execMapCloseTimeout d slot s (.refl s)
  | .counterWrapSample d idx part addr => keeps_execCounterWrapSample d idx part addr s (.refl s)
  | .pmcSnap d => keeps_execPmcSnap d s (.refl s)
  | .frameReceive d k f => keeps_execFrameReceive d k f s (.refl s)
  | .linkRetxTimeout d k => keeps_execLinkRetxTimeout d k s (.refl s)
  | .identReceive d k m => keeps_execIdentReceive d k m s (.refl s)
  | .identSend d k => keeps_execIdentSend d k s (.refl s)
  | .shelfSend d k => keeps_execShelfSend d k s (.refl s)
  | .shelfReceive d k m => keeps_execShelfReceive d k m s (.refl s)
  | .timeSend d k => keeps_execTimeSend d k s (.refl s)
  | .timeReceive d k m => keeps_execTimeReceive d k m s (.refl s)
  | .onoffReceive d k mask => keeps_execOnoffReceive d k mask s (.refl s)
  | .onoffSend d k waits => keeps_execOnoffSend d k waits s (.refl s)
  | .laneSignalLoss d k lane lock => keeps_execLaneSignalLoss d k lane lock s (.refl s)
  | .laneSignalDetect d k => keeps_execLaneSignalDetect d k s (.refl s)
  | .linkRxReady d k r => keeps_execLinkRxReady d k r s (.refl s)
  | .linkAlignDone d k starts => keeps_execLinkAlignDone d k starts s (.refl s)
  | .trainTimeout d k => keeps_execTrainTimeout d k s (.refl s)
  | .noSignalTimeout d k => keeps_execNoSignalTimeout d k s (.refl s)
  | .noSignalRetry d k => keeps_execNoSignalRetry d k s (.refl s)
  | .linkQuietEnd d k => keeps_execLinkQuietEnd d k s (.refl s)
  | .linkDrainEnd d k => keeps_execLinkDrainEnd d k s (.refl s)
  | .bridgeParityError d b ew lane => keeps_execBridgeParityError d b ew lane s (.refl s)
  | .bridgeClockLoss d b => keeps_execBridgeClockLoss d b s (.refl s)
  | .bridgeTrainDone b we ew => keeps_execBridgeTrainDone b we ew s (.refl s)
  | .bridgeQuietEnd b => keeps_execBridgeQuietEnd b s (.refl s)
  | .flr f => keeps_execFlr f s (.refl s)
  | .hostLinkReset port link => keeps_execHostLinkReset port link s (.refl s)
  | .perstNAssert port => keeps_execPerstNAssert port s (.refl s)
  | .perstNDeassert port => keeps_execPerstNDeassert port s (.refl s)
  | .d3hotEntry f => keeps_execD3hotEntry f s (.refl s)
  | .instanceResetDone idx => keeps_execInstanceResetDone idx s (.refl s)
  | .instanceQuiesceDone idx => keeps_execInstanceQuiesceDone idx s (.refl s)
  | .hostReadComplete op parts => keeps_execHostReadComplete op parts s (.refl s)
  | .tableWalkComplete d walk r => keeps_execTableWalkComplete d walk r s (.refl s)
  | .atsTranslationComplete d walk ans => keeps_execAtsTranslationComplete d walk ans s (.refl s)
  | .atsInvalidation f addr len => keeps_execAtsInvalidation f addr len s (.refl s)
  | .hostConfigRequest port r => keeps_execHostConfigRequest port r s (.refl s)
  | .mbxGo val => keeps_execMbxGo val s (.refl s)
  | .mbxCommandDone => keeps_execMbxCommandDone s (.refl s)
  | .lockstepMismatch d pair => keeps_execLockstepMismatch d pair s (.refl s)
  | .pairReexecute d pair => keeps_execPairReexecute d pair s (.refl s)
  | .pairRetest d pair pass => keeps_execPairRetest d pair pass s (.refl s)
  | .cacheRead d pair home line => keeps_execCacheRead d pair home line s (.refl s)
  | .cacheWrite d pair home line => keeps_execCacheWrite d pair home line s (.refl s)
  | .cacheEvict d pair home line => keeps_execCacheEvict d pair home line s (.refl s)
  | .directoryEvict home line => keeps_execDirectoryEvict home line s (.refl s)
  | .scrubUnit d u e => keeps_execScrubUnit d u e s (.refl s)
  | .scrubFull d => keeps_execScrubFull d s (.refl s)
  | .semAcquire m d n => keeps_execSemAcquire m d n s (.refl s)
  | .semRelease m d n => keeps_execSemRelease m d n s (.refl s)
  | .semArm m d n level source => keeps_execSemArm m d n level source s (.refl s)
  | .semDisarm m d n => keeps_execSemDisarm m d n s (.refl s)
  | .intSourceRaise d src => keeps_execIntSourceRaise d src s (.refl s)
  | .intRaiseWrite d src => keeps_execIntRaiseWrite d src s (.refl s)
  | .intDelivery d src => keeps_execIntDelivery d src s (.refl s)
  | .msixMessageWritten d src => keeps_execMsixMessageWritten d src s (.refl s)
  | .intClaim d c => keeps_execIntClaim d c s (.refl s)
  | .intComplete d c val => keeps_execIntComplete d c val s (.refl s)
  | .holdoffExpiry d g => keeps_execHoldoffExpiry d g s (.refl s)
  | .epochActivation d dom => keeps_execEpochActivation d dom s (.refl s)
  | .timeSourceTimeout => keeps_execTimeSourceTimeout s (.refl s)
  | .ppsInEdge => keeps_execPpsInEdge s (.refl s)
  | .holdoverExpiry => keeps_execHoldoverExpiry s (.refl s)
  | .timeStepApply => keeps_execTimeStepApply s (.refl s)
  | .sysResetAssert lowNs => keeps_execSysResetAssert lowNs s (.refl s)
  | .resetRelease straps => keeps_execResetRelease straps s (.refl s)
  | .pwrgoodAssert => keeps_execPwrgoodAssert s (.refl s)
  | .internalDeviceReset => keeps_execInternalDeviceReset s (.refl s)
  | .imageAuthenticated slot westOk eastOk sha => keeps_execImageAuthenticated slot westOk eastOk sha s (.refl s)
  | .bringupComplete => keeps_execBringupComplete s (.refl s)
  | .archiveComplete => keeps_execArchiveComplete s (.refl s)
  | .archiveHostCopyDone => keeps_execArchiveHostCopyDone s (.refl s)
  | .standbyEntry => keeps_execStandbyEntry s (.refl s)
  | .standbyWake src => keeps_execStandbyWake src s (.refl s)
  | .wakeTimerExpiry => keeps_execWakeTimerExpiry s (.refl s)
  | .mgtWakeWrite => keeps_execMgtWakeWrite s (.refl s)
  | .lookoutReport d blk unit cls code => keeps_execLookoutReport d blk unit cls code s (.refl s)
  | .lookoutWireBroken d blk cls => keeps_execLookoutWireBroken d blk cls s (.refl s)
  | .lookoutPoll d p => keeps_execLookoutPoll d p s (.refl s)
  | .faultQuietEnd d blk unit pass => keeps_execFaultQuietEnd d blk unit pass s (.refl s)
  | .heartbeatMissed d => keeps_execHeartbeatMissed d s (.refl s)
  | .thermalSample d sensor val => keeps_execThermalSample d sensor val s (.refl s)
  | .voltageSample d mon mv band => keeps_execVoltageSample d mon mv band s (.refl s)
  | .throttleStep d => keeps_execThrottleStep d s (.refl s)
  | .avsRequestChange westMv eastMv => keeps_execAvsRequestChange westMv eastMv s (.refl s)
  | .i3cRegRead addr size => keeps_execI3cRegRead addr size s (.refl s)
  | .i3cRegWrite addr size data => keeps_execI3cRegWrite addr size data s (.refl s)
  | .i3cFlashRead addr len => keeps_execI3cFlashRead addr len s (.refl s)
  | .i3cStatusRead => keeps_execI3cStatusRead s (.refl s)
  | .i3cEntdaa addr => keeps_execI3cEntdaa addr s (.refl s)
  | .i3cBusReset rstdaa => keeps_execI3cBusReset rstdaa s (.refl s)
  | .jtagRegAccess write addr size data => keeps_execJtagRegAccess write addr size data s (.refl s)
  | .tapReset => keeps_execTapReset s (.refl s)
  | .eventHeadWrite idx val => keeps_execEventHeadWrite idx val s (.refl s)
  | .mgtEvtHeadWrite d val => keeps_execMgtEvtHeadWrite d val s (.refl s)
  | .mgtEvtEnable d => keeps_execMgtEvtEnable d s (.refl s)
  | .catSpecFlush d => keeps_execCatSpecFlush d s (.refl s)
  | .aclRegionWrite n val => keeps_execAclRegionWrite n val s (.refl s)
  | .globalImageWrite m off size data => keeps_execGlobalImageWrite m off size data s (.refl s)
  | .lowHalfReadLatch m off => keeps_execLowHalfReadLatch m off s (.refl s)
  | .lowHalfWriteHold m off data => keeps_execLowHalfWriteHold m off data s (.refl s)
  | .viewSnapshotRead m off => keeps_execViewSnapshotRead m off s (.refl s)
  | .crzQViewRead m d => keeps_execCrzQViewRead m d s (.refl s)
  | .registerWrite m off size data => keeps_execRegisterWrite m off size data s (.refl s)
  | .hostLinkTrained port link => keeps_execHostLinkTrained port link s (.refl s)
  | .msixEnableCleared f => keeps_execMsixEnableCleared f s (.refl s)
  | .extest lane => keeps_execExtest lane s (.refl s)

/-- What a command that may act on the flash or the latch still keeps. -/
structure KeepsRest (s t : State) : Prop where
  pending : t.pending = s.pending
  now : t.now = s.now
  free : s.freeCtr ≤ t.freeCtr
  tidy : tablesTidy s → tablesTidy t

/-! ### The deassertion of PWRGOOD (R449, R450) -/

/-- The state with the latch let go. -/
def latchReleased (s : State) : State := onSys s fun y => { y with thermtrip := false }

theorem latchReleased_keeps (s : State) : Keeps (latchReleased s) s := ⟨rfl, rfl, rfl, Nat.le_refl _, id, fun h => absurd h Bool.false_ne_true⟩

/-- It keeps what the other commands keep, from the state with the latch let go on. -/
theorem keeps_execPwrgoodDeassert (w : Nat) (s : State) : KeepsOut (latchReleased s) (execPwrgoodDeassert w s) := by
  have hreset : Keeps s (resetPins (deviceReset s false)) := keeps_resetPins _ (keeps_deviceReset s false (.refl s))
  unfold execPwrgoodDeassert
  split
  · exact latchReleased_keeps s
  · exact keeps_emit _ _ ⟨hreset.pending, hreset.now, hreset.flash, hreset.free, hreset.tidy, fun h => absurd h Bool.false_ne_true⟩

theorem keeps_of_exec_pwrgoodDeassert {w : Nat} {s t : State} (h : exec (.pwrgoodDeassert w) s = .next t) : Keeps (latchReleased s) t := by
  have hk := keeps_execPwrgoodDeassert w s
  rwa [show execPwrgoodDeassert w s = .next t from h] at hk

/-! ### The two commands that write the flash (R459) -/

/-- Only the flash and the answer over I3C differ. -/
def FlashOnly (s t : State) : Prop := ∃ f p, t = { s with flash := f, i3c := p }

theorem keepsRest_of_flashOnly {s t : State} (h : FlashOnly s t) (hf : twf 0xFF s.flash = true → twf 0xFF t.flash = true) : KeepsRest s t := by
  obtain ⟨f, p, rfl⟩ := h
  exact ⟨rfl, rfl, Nat.le_refl _, fun ⟨hflash, hrest⟩ => ⟨hf hflash, hrest⟩⟩

theorem sys_of_flashOnly {s t : State} (h : FlashOnly s t) : t.sys = s.sys := by
  obtain ⟨f, p, rfl⟩ := h
  rfl

/-- A filter by key leaves what the table reads at the keys it keeps. -/
theorem tget_filter_key {α : Type} [DecidableEq α] (dflt : α) (p : Nat → Bool) (t : Tab α) {lo k : Nat}
    (h : twfFrom dflt lo t = true) (hk : p k = true) : tget dflt (t.filter fun x => p x.1) k = tget dflt t k := by
  induction t generalizing lo with
  | nil => rfl
  | cons x t ih =>
    obtain ⟨j, v⟩ := x
    simp only [twfFrom, Bool.and_eq_true] at h
    obtain ⟨-, ht⟩ := h
    have hj : p j = false → j ≠ k := fun hp e => by rw [e, hk] at hp; cases hp
    by_cases hp : p j = true
    · simp only [List.filter_cons, hp, if_true, tget, ih ht]
    · simp only [List.filter_cons, hp, Bool.false_eq_true, if_false, tget, if_neg (hj (Bool.not_eq_true _ ▸ hp)), ih ht]
      split
      · next hlt => exact tget_below dflt t ht (by omega)
      · rfl

/-- What FLASH_ERASE and FLASH_PROGRAM do to the flash of `s`, with what `R` says of each byte before and after. -/
structure FlashStep (R : Nat → Byte → Byte → Prop) (s t : State) : Prop where
  only : FlashOnly s t
  wf : twf 0xFF s.flash = true → twf 0xFF t.flash = true
  byte : twf 0xFF s.flash = true → ∀ k, R k (flashByte s k) (flashByte t k)

theorem flashStep_answer {R : Nat → Byte → Byte → Prop} {s t : State} {n : Nat} {l : List Byte} (h : FlashStep R s t) :
    FlashStep R s (i3cAnswer t n l) := by
  obtain ⟨⟨f, p, rfl⟩, hwf, hbyte⟩ := h
  exact ⟨⟨f, _, rfl⟩, hwf, hbyte⟩

theorem flashStep_refl {R : Nat → Byte → Byte → Prop} (hR : ∀ k b, R k b b) (s : State) : FlashStep R s s :=
  ⟨⟨s.flash, s.i3c, rfl⟩, id, fun _ k => hR k _⟩

theorem flashStep_trans {R : Nat → Byte → Byte → Prop} (hR : ∀ k a b c, R k a b → R k b c → R k a c) {s t u : State} (h : FlashStep R s t)
    (h' : FlashStep R t u) : FlashStep R s u := by
  obtain ⟨⟨f, p, rfl⟩, hwf, hbyte⟩ := h
  obtain ⟨⟨f', p', rfl⟩, hwf', hbyte'⟩ := h'
  exact ⟨⟨f', p', rfl⟩, fun w => hwf' (hwf w), fun w k => hR k _ _ _ (hbyte w k) (hbyte' (hwf w) k)⟩

/-- Nothing outside the sector of `a` changes. -/
def KeepsOutside (a : Nat) (k : Nat) (before after : Byte) : Prop := k / 65536 ≠ a / 65536 → after = before

/-- Bits are cleared and none set. -/
def ClearsBits (_k : Nat) (before after : Byte) : Prop := after &&& before = after

theorem clearsBits_refl (k : Nat) (b : Byte) : ClearsBits k b b := BitVec.and_self

theorem clearsBits_trans (k : Nat) (a b c : Byte) (h : ClearsBits k a b) (h' : ClearsBits k b c) : ClearsBits k a c := by
  unfold ClearsBits at *
  calc c &&& a = c &&& b &&& a := by rw [h']
    _ = c &&& (b &&& a) := BitVec.and_assoc ..
    _ = c := by rw [h, h']

theorem i3cFlashErase_flashStep (s : State) (a : Nat) : FlashStep (KeepsOutside a) s (i3cFlashErase s a) := by
  have hstill := flashStep_refl (R := KeepsOutside a) (fun _ _ _ => rfl) s
  unfold i3cFlashErase
  split
  · exact flashStep_answer hstill
  · split
    · exact flashStep_answer hstill
    · exact flashStep_answer ⟨⟨_, s.i3c, rfl⟩, fun w => twfFrom_filter 0xFF _ s.flash w,
        fun w k hk => tget_filter_key 0xFF (fun b => decide (b / 65536 ≠ a / 65536)) s.flash w (decide_eq_true hk)⟩

/-- Programming one byte. -/
theorem flashPut_flashStep (s : State) (a : Nat) (v : Byte) : FlashStep ClearsBits s (flashPut s a v) := by
  refine ⟨⟨_, s.i3c, rfl⟩, flashPut_tidy s a v, fun w k => ?_⟩
  have hread : flashByte (flashPut s a v) k = if k = a then flashByte s a &&& v else flashByte s k := tget_tset 0xFF s.flash a k _ w
  unfold ClearsBits
  rw [hread]
  split
  · next hk => rw [hk, BitVec.and_assoc, BitVec.and_comm v, ← BitVec.and_assoc, BitVec.and_self]
  · exact BitVec.and_self

/-- Programming a page, byte by byte. -/
theorem flashPuts_flashStep (l : List (Byte × Nat)) (a : Nat) (s : State) :
    FlashStep ClearsBits s (l.foldl (fun s (v, j) => flashPut s (a + j) v) s) := by
  induction l generalizing s with
  | nil => exact flashStep_refl clearsBits_refl s
  | cons x l ih => exact flashStep_trans clearsBits_trans (flashPut_flashStep s _ _) (ih _)

theorem i3cFlashProgram_flashStep (s : State) (a : Nat) (l : List Byte) : FlashStep ClearsBits s (i3cFlashProgram s a l) := by
  have hstill := flashStep_refl clearsBits_refl s
  unfold i3cFlashProgram
  repeat' split
  · exact flashStep_answer hstill
  · exact flashStep_answer hstill
  · exact flashStep_answer hstill
  · exact flashStep_answer (flashPuts_flashStep _ a s)

/-- A command that acts only with an address over I3C. -/
theorem flashStep_there {R : Nat → Byte → Byte → Prop} (hR : ∀ k b, R k b b) {s t u : State} {p : Bool} (h : FlashStep R s t)
    (hu : Host.Outcome.next (φ := Fault) (ρ := Refusal) (if p then t else s) = .next u) : FlashStep R s u := by
  cases hu
  split
  · exact h
  · exact flashStep_refl hR s

theorem flashStep_of_exec_erase {a : Nat} {s t : State} (h : exec (.i3cFlashErase a) s = .next t) : FlashStep (KeepsOutside (a % 2 ^ 32)) s t :=
  flashStep_there (fun _ _ _ => rfl) (i3cFlashErase_flashStep s _) h

theorem flashStep_of_exec_program {a : Nat} {l : List Byte} {s t : State} (h : exec (.i3cFlashProgram a l) s = .next t) : FlashStep ClearsBits s t :=
  flashStep_there clearsBits_refl (i3cFlashProgram_flashStep s _ l) h

/-! ### Every command and every step -/

/-- What a command does: two write the flash, one lets the latch go, and every other keeps all. -/
theorem exec_cases {c : Instr} {s t : State} (h : exec c s = .next t) :
    (∃ a, c = .i3cFlashErase a ∧ FlashStep (KeepsOutside (a % 2 ^ 32)) s t) ∨
    (∃ a l, c = .i3cFlashProgram a l ∧ FlashStep ClearsBits s t) ∨
    (∃ w, c = .pwrgoodDeassert w ∧ Keeps (latchReleased s) t) ∨ Keeps s t := by
  by_cases herase : ∃ a, c = .i3cFlashErase a
  · obtain ⟨a, rfl⟩ := herase
    exact .inl ⟨a, rfl, flashStep_of_exec_erase h⟩
  by_cases hprogram : ∃ a l, c = .i3cFlashProgram a l
  · obtain ⟨a, l, rfl⟩ := hprogram
    exact .inr (.inl ⟨a, l, rfl, flashStep_of_exec_program h⟩)
  by_cases hlatch : ∃ w, c = .pwrgoodDeassert w
  · obtain ⟨w, rfl⟩ := hlatch
    exact .inr (.inr (.inl ⟨w, rfl, keeps_of_exec_pwrgoodDeassert h⟩))
  have hk := exec_keeps c s (fun a e => herase ⟨a, e⟩) (fun a l e => hprogram ⟨a, l, e⟩) fun w e => hlatch ⟨w, e⟩
  rw [h] at hk
  exact .inr (.inr (.inr hk))

/-- What every command keeps. -/
theorem keepsRest_of_exec {c : Instr} {s t : State} (h : exec c s = .next t) : KeepsRest s t := by
  obtain ⟨a, -, hs⟩ | ⟨a, l, -, hs⟩ | ⟨w, -, hk⟩ | hk := exec_cases h
  · exact keepsRest_of_flashOnly hs.only hs.wf
  · exact keepsRest_of_flashOnly hs.only hs.wf
  · exact ⟨hk.pending, hk.now, hk.free, hk.tidy⟩
  · exact ⟨hk.pending, hk.now, hk.free, hk.tidy⟩

/-- Only the deassertion of PWRGOOD lets the latch go. -/
theorem thermtrip_of_exec {c : Instr} {s t : State} (h : exec c s = .next t) (hlatch : ∀ w, c ≠ .pwrgoodDeassert w)
    (hs : s.sys.thermtrip = true) : t.sys.thermtrip = true := by
  obtain ⟨a, -, hstep⟩ | ⟨a, l, -, hstep⟩ | ⟨w, rfl, -⟩ | hk := exec_cases h
  · rwa [sys_of_flashOnly hstep.only]
  · rwa [sys_of_flashOnly hstep.only]
  · exact absurd rfl (hlatch w)
  · exact hk.therm hs

/-- Only FLASH_ERASE and FLASH_PROGRAM write the flash. -/
theorem flash_of_exec {c : Instr} {s t : State} (h : exec c s = .next t) (herase : ∀ a, c ≠ .i3cFlashErase a)
    (hprogram : ∀ a l, c ≠ .i3cFlashProgram a l) : t.flash = s.flash := by
  obtain ⟨a, rfl, -⟩ | ⟨a, l, rfl, -⟩ | ⟨w, -, hk⟩ | hk := exec_cases h
  · exact absurd rfl (herase a)
  · exact absurd rfl (hprogram a l)
  · exact hk.flash
  · exact hk.flash

theorem step_of_empty {s : State} (h : s.pending = []) : step s = .next (tick s) := by
  rw [step, h]

theorem step_of_front {s : State} {c : Instr} {q : List Instr} (h : s.pending = c :: q) : step s = exec c { s with pending := q } := by
  rw [step, h]

/-- Settles O55: a command by `keepsRest_of_exec`, the step on an empty queue by what the clock's tick keeps. -/
theorem commandsLeaveTheQueueAndTheClock : Obligations.CommandsLeaveTheQueueAndTheClock := by
  unfold Obligations.CommandsLeaveTheQueueAndTheClock
  refine ⟨?command, ?step⟩
  case command =>
    intro c s t h
    have hk := keepsRest_of_exec h
    exact ⟨hk.pending, hk.now, hk.free⟩
  case step =>
    intro s t h
    cases hq : s.pending with
    | nil =>
      rw [step_of_empty hq] at h
      cases h
      have hk := keeps_tick s
      exact ⟨hk.pending.trans hq, hk.now, hk.free⟩
    | cons c q =>
      rw [step_of_front hq] at h
      have hk := keepsRest_of_exec h
      exact ⟨hk.pending, hk.now, hk.free⟩

/-- Settles O56: a step that is no deassertion of PWRGOOD by `thermtrip_of_exec`; the deassertion by the state that it leaves. -/
theorem theThermtripLatchStands : Obligations.TheThermtripLatchStands := by
  unfold Obligations.TheThermtripLatchStands
  refine ⟨?stands, ?clears⟩
  case stands =>
    intro s t h hset hno
    cases hq : s.pending with
    | nil =>
      rw [step_of_empty hq] at h
      cases h
      exact (keeps_tick s).therm hset
    | cons c q =>
      rw [step_of_front hq] at h
      exact thermtrip_of_exec h (fun w e => hno w q (e ▸ hq)) hset
  case clears =>
    exact fun w s hw => ⟨_, if_neg (by omega), rfl, rfl, rfl⟩

/-- Settles O57: the commands by `flash_of_exec`, the two that write the flash by their `FlashStep`. That programming clears bits and
sets none is log entry 172, the model's own choice: R460 only names a NOR device. -/
theorem flashChangesOnlyOverI3c : Obligations.FlashChangesOnlyOverI3c := by
  unfold Obligations.FlashChangesOnlyOverI3c
  refine ⟨fun c s t h => flash_of_exec h, ?tick, fun a l s t w h k => (flashStep_of_exec_program h).byte w k,
    fun a s t w h k => (flashStep_of_exec_erase h).byte w k⟩
  case tick =>
    intro s t hq h
    rw [step_of_empty hq] at h
    cases h
    exact (keeps_tick s).flash

/-- Settles O58: what every command and the clock's tick keep. -/
theorem everyStepKeepsTheTablesCanonical : Obligations.EveryStepKeepsTheTablesCanonical := by
  unfold Obligations.EveryStepKeepsTheTablesCanonical
  intro s t hs h
  cases hq : s.pending with
  | nil =>
    rw [step_of_empty hq] at h
    cases h
    exact (keeps_tick s).tidy hs
  | cons c q =>
    rw [step_of_front hq] at h
    exact (keepsRest_of_exec h).tidy hs

/-- Settles O44: the two branches of a step. That 2 ns pass on an empty queue is log entry 2, the model's own choice, as are the queue
(log entry 1) and that no word spells a command (log entry 3). -/
theorem aStepRunsTheFrontCommand : Obligations.AStepRunsTheFrontCommand := by
  unfold Obligations.AStepRunsTheFrontCommand
  refine ⟨fun s c q h => step_of_front h, ?empty, fun s nbits w => ⟨rfl, rfl⟩⟩
  case empty =>
    intro s hq
    have hk := keeps_tick s
    exact ⟨step_of_empty hq, hk.now, hk.pending.trans hq, hk.flash⟩

end Sys2Proof.Proofs
end

section
/-! PROOF. The board's ports (R371, R458 to R461): a request over I3C needs the target's address, a flash request a flash that neither
the ROMs nor the running image hold; the test access port acts as a master and takes the link of a tested lane down. -/

namespace Sys2Proof.Proofs

open Sys2Proof Sys2Proof.Machine Sys2Proof.Laws

variable {s u : State} {a b n v : Nat} {l : List Byte} {x : Word}

/-! ### The target with an address (R458) -/

section

variable (hreset : s.sys.inReset = false) (haddr : s.i3c.dynAddr ≠ 0)
include hreset haddr

theorem i3cThere_addressed : i3cThere s = true := by
  rw [i3cThere, hreset, decide_eq_true haddr]
  rfl

theorem exec_i3cRegRead : exec (.i3cRegRead a n) s = .next (i3cRegRead s a n) :=
  congrArg Host.Outcome.next (if_pos (i3cThere_addressed hreset haddr))

theorem exec_i3cRegWrite : exec (.i3cRegWrite a n x) s = .next (i3cRegWrite s a n x.toNat) :=
  congrArg Host.Outcome.next (if_pos (i3cThere_addressed hreset haddr))

theorem exec_i3cFlashRead : exec (.i3cFlashRead a n) s = .next (i3cFlashRead s (a % 2 ^ 32) n) :=
  congrArg Host.Outcome.next (if_pos (i3cThere_addressed hreset haddr))

theorem exec_i3cFlashErase : exec (.i3cFlashErase a) s = .next (i3cFlashErase s (a % 2 ^ 32)) :=
  congrArg Host.Outcome.next (if_pos (i3cThere_addressed hreset haddr))

theorem exec_i3cFlashProgram : exec (.i3cFlashProgram a l) s = .next (i3cFlashProgram s (a % 2 ^ 32) l) :=
  congrArg Host.Outcome.next (if_pos (i3cThere_addressed hreset haddr))

end

/-! ### Registers over I3C -/

theorem i3cRegRead_malformed (h4 : n ≠ 4) (h8 : n ≠ 8) : i3cRegRead s a n = i3cAnswer s 3 [] := if_pos ⟨h4, h8⟩

theorem i3cRegRead_done (hsize : n = 4 ∨ n = 8) (hrom : romHold s = false) (h : regReadAs s .i3c true a n = (u, .done v)) :
    i3cRegRead s a n = i3cAnswer u 0 (leBytes n v) := by
  rw [i3cRegRead, if_neg (by omega), hrom, h]
  rfl

theorem i3cRegWrite_done (hsize : n = 4 ∨ n = 8) (hrom : romHold s = false) (h : regWriteAs s .i3c true .west a n b = (u, .done v)) :
    i3cRegWrite s a n b = i3cAnswer u 0 [] := by
  rw [i3cRegWrite, if_neg (by omega), hrom, h]
  rfl

/-! ### The flash (R459, R460) -/

theorem flashBusy_in_bringup (hmode : s.sys.mode = .bringup) (hstatus : s.sys.bootStatus = 0) (hstage : s.sys.bootStage < 4) :
    flashBusy s = true :=
  decide_eq_true ⟨hmode, hstatus, hstage⟩

theorem flashBusy_after_roms (h : s.sys.mode ≠ .bringup ∨ s.sys.bootStatus ≠ 0 ∨ 4 ≤ s.sys.bootStage) : flashBusy s = false := by
  refine decide_eq_false fun ⟨hmode, hstatus, hstage⟩ => ?_
  rcases h with h | h | h
  · exact h hmode
  · exact h hstatus
  · omega

theorem i3cFlashRead_bytes (hbusy : flashBusy s = false) (hpos : 1 ≤ n) (hmax : n ≤ 256) :
    i3cFlashRead s a n = i3cAnswer s 0 ((List.range n).map fun j => flashByte s (a + j)) := by
  rw [i3cFlashRead, hbusy, if_neg Bool.false_ne_true, if_neg (by omega)]

theorem i3cFlashErase_busy (hbusy : flashBusy s = true) : i3cFlashErase s a = i3cAnswer s 1 [] := if_pos hbusy

theorem i3cFlashErase_erases (hbusy : flashBusy s = false) (hfree : flashGuarded s a = false) :
    i3cFlashErase s a = i3cAnswer { s with flash := s.flash.filter fun (b, _) => decide (b / 65536 ≠ a / 65536) } 0 [] := by
  rw [i3cFlashErase, hbusy, hfree, if_neg Bool.false_ne_true, if_neg Bool.false_ne_true]

theorem i3cFlashProgram_programs (hbusy : flashBusy s = false) (hfree : flashGuarded s a = false) (hl : l ≠ [])
    (hpage : a % 256 + l.length ≤ 256) :
    i3cFlashProgram s a l = i3cAnswer ((l.zip (List.range l.length)).foldl (fun s (v, j) => flashPut s (a + j) v) s) 0 [] := by
  have hlen : l.length ≠ 0 := fun h => hl (List.length_eq_zero_iff.mp h)
  rw [i3cFlashProgram, hbusy, hfree, if_neg Bool.false_ne_true, if_neg (by omega), if_neg Bool.false_ne_true]

/-- A filter by key drops the keys that it refuses. -/
theorem tget_filter_key_refused {α : Type} (dflt : α) (p : Nat → Bool) (t : Tab α) {k : Nat} (hk : p k = false) :
    tget dflt (t.filter fun y => p y.1) k = dflt := by
  induction t with
  | nil => rfl
  | cons y t ih =>
    obtain ⟨j, w⟩ := y
    by_cases hp : p j = true
    · have hj : j ≠ k := fun e => by rw [e, hk] at hp; cases hp
      simp only [List.filter_cons, hp, if_true, tget, if_neg hj, ih, ite_self]
    · simp only [List.filter_cons, hp, Bool.false_eq_true, if_false, ih]

/-- An erased sector reads 0xFF in every byte. -/
theorem flashByte_erased (hbusy : flashBusy s = false) (hfree : flashGuarded s a = false) (hsector : b / 65536 = a / 65536) :
    flashByte (i3cFlashErase s a) b = 0xFF := by
  rw [i3cFlashErase_erases hbusy hfree]
  exact tget_filter_key_refused 0xFF (fun b => decide (b / 65536 ≠ a / 65536)) s.flash (decide_eq_false (not_not_intro hsector))

/-- The erasure of a sector of the slot that does not run, byte for byte. -/
theorem exec_i3cFlashErase_bytes (hwf : twf 0xFF s.flash = true) (halign : a % 65536 = 0) (ha : a < 2 ^ 32) (hreset : s.sys.inReset = false)
    (haddr : s.i3c.dynAddr ≠ 0) (hbusy : flashBusy s = false) (hslot : a / 0x2000000 ≠ s.sys.bootSlot) :
    ∃ t, exec (.i3cFlashErase a) s = .next t ∧ (a ≤ b → b < a + 65536 → flashByte t b = 0xFF) ∧
      (b < a ∨ a + 65536 ≤ b → flashByte t b = flashByte s b) := by
  have hmod : a % 2 ^ 32 = a := Nat.mod_eq_of_lt ha
  have hfree : flashGuarded s a = false := decide_eq_false fun ⟨_, _, h⟩ => hslot h
  have hexec : exec (.i3cFlashErase a) s = .next (i3cFlashErase s a) := by rw [exec_i3cFlashErase hreset haddr, hmod]
  refine ⟨_, hexec, fun hlo hhi => flashByte_erased hbusy hfree (by omega), fun hout => ?_⟩
  exact (flashStep_of_exec_erase hexec).byte hwf b (by rw [hmod]; omega)

/-! ### The test access port (R461) -/

theorem masterThere_jtag (hreset : s.sys.inReset = false) (hrom : romHold s = false) : masterThere s .jtag = true := by
  simp only [masterThere, hreset, hrom, Bool.not_false, Bool.and_self]

theorem exec_jtagRegAccess_read : exec (.jtagRegAccess false a n x) s = .next (accessRead s .jtag a n) := rfl
theorem exec_jtagRegAccess_write : exec (.jtagRegAccess true a n x) s = .next (accessWrite s .jtag a n x.toNat) := rfl

/-- A row of a port that a device in reset ignores. -/
theorem next_unless_reset {t : State} (h : s.sys.inReset = false) :
    Host.Outcome.next (φ := Fault) (ρ := Refusal) (if s.sys.inReset then s else t) = .next t := by
  rw [h, if_neg Bool.false_ne_true]

/-- Settles O43: each request by what the port needs, then what it answers. That programming ANDs a byte is log entry 172, and that
the ROMs keep the flash up to step 5 of bring-up log entry 173. -/
theorem peripheralPortsAct : Obligations.PeripheralPortsAct := by
  unfold Obligations.PeripheralPortsAct
  refine ⟨?malformed, ?read, ?write, ?flashRead, ?erase, ?program, ?busy, ?status, ?entdaa, ?bus, ?rstdaa, ?jtagRead, ?jtagWrite, ?tap,
    ?network, ?host, ?sector⟩
  case malformed =>
    intro s a n hreset haddr h4 h8
    rw [exec_i3cRegRead hreset haddr, i3cRegRead_malformed h4 h8]
  case read =>
    intro s a u v hreset haddr hrom h
    rw [exec_i3cRegRead hreset haddr, i3cRegRead_done (.inl rfl) hrom h]
  case write =>
    intro s a x u v hreset haddr hrom h
    rw [exec_i3cRegWrite hreset haddr, i3cRegWrite_done (.inr rfl) hrom h]
  case flashRead =>
    intro s a n hreset haddr hroms hpos hmax
    rw [exec_i3cFlashRead hreset haddr, i3cFlashRead_bytes (flashBusy_after_roms hroms) hpos hmax]
  case erase =>
    intro s a hreset haddr hroms hfree
    rw [exec_i3cFlashErase hreset haddr, i3cFlashErase_erases (flashBusy_after_roms hroms) hfree]
  case program =>
    intro s a l hreset haddr hroms hfree hl hpage
    rw [exec_i3cFlashProgram hreset haddr, i3cFlashProgram_programs (flashBusy_after_roms hroms) hfree hl (by omega)]
  case busy =>
    intro s a hreset haddr hmode hstatus hstage
    rw [exec_i3cFlashErase hreset haddr, i3cFlashErase_busy (flashBusy_in_bringup hmode hstatus hstage)]
  case status =>
    intro s hreset haddr
    exact congrArg Host.Outcome.next (if_pos (i3cThere_addressed hreset haddr))
  case entdaa =>
    intro s a hreset hnone hpos hmax
    refine congrArg Host.Outcome.next (if_pos ?_)
    rw [hreset, decide_eq_true ⟨hnone, Nat.pos_iff_ne_zero.mp hpos, hmax⟩]
    rfl
  case bus => exact fun s hreset => next_unless_reset hreset
  case rstdaa =>
    intro s u hreset
    exact next_unless_reset hreset
  case jtagRead =>
    intro s a n x u v hreset hrom h
    rw [exec_jtagRegAccess_read, accessRead_done (masterThere_jtag hreset hrom) (fun _ => nofun) h]
  case jtagWrite =>
    intro s a n x u v hreset hrom h
    rw [exec_jtagRegAccess_write, accessWrite_done (masterThere_jtag hreset hrom) (fun _ => nofun) h]
  case tap => exact fun s hreset => next_unless_reset hreset
  case network => exact fun s d k hreset => next_unless_reset hreset
  case host =>
    intro s p l hreset hex
    exact (next_unless_reset hreset).trans (congrArg Host.Outcome.next (if_pos hex))
  case sector =>
    intro s a b hwf halign hreset haddr hmode _ ha hslot
    exact exec_i3cFlashErase_bytes hwf halign ha hreset haddr (flashBusy_after_roms (.inl (by rw [hmode]; nofun))) hslot

end Sys2Proof.Proofs
end

section
/-! PROOF. Reset, bring-up, Standby and the Archive (R409, R412 to R414, R429 to R432, R437 to R439, R449, R450): each row where its
condition holds, and the wake sequence by what its pins and its bridges leave of the device's own state. -/

namespace Sys2Proof.Proofs

open Sys2Proof Sys2Proof.Machine

variable {s : State} {d : Die} {n : Nat}

/-! ### What emissions, sources and events leave of the device's own state -/

theorem sys_emit (s : State) (o : Out) : (emit s o).sys = s.sys := by
  obtain ⟨d, h⟩ := counted_countOut s o
  show (countOut s o).sys = s.sys
  rw [h.frame]

theorem arch_emit (s : State) (o : Out) : (emit s o).arch = s.arch := by
  obtain ⟨d, h⟩ := counted_countOut s o
  show (countOut s o).arch = s.arch
  rw [h.frame]

theorem sys_writeRecord (s : State) (port link addr rec : Nat) : (writeRecord s port link addr rec).sys = s.sys := by
  unfold writeRecord
  split <;> simp only [sys_emit]

theorem sys_raiseLocal (s : State) (d : Die) (n : Nat) : (raiseLocal s d n).sys = s.sys := by
  unfold raiseLocal
  split
  · rfl
  · exact onDie_sys s d _

theorem sys_raiseSource (s : State) (d : Die) (n : Nat) : (raiseSource s d n).sys = s.sys := by
  unfold raiseSource
  split
  · rfl
  · exact sys_raiseLocal s _ _

theorem sys_mgmtRing (s : State) (d : Die) (time data code source : Nat) : (mgmtRing s d time data code source).sys = s.sys := by
  have hput (x : EvtRing) : (onDie s d fun y => { y with evt := x }).sys = s.sys := onDie_sys s d _
  unfold mgmtRing
  extract_lets cfg x put
  split
  · exact hput _
  · split
    · exact hput _
    · extract_lets fire noted written
      have hwritten : written.sys = s.sys := (sys_writeRecord ..).trans (hput _)
      split
      · rw [sys_raiseSource, hwritten]
      · exact hwritten

theorem sys_postMgmt (s : State) (d : Die) (code data : Nat) : (postMgmt s d code data).sys = s.sys := by
  unfold postMgmt
  extract_lets t noted posted fwd
  have hposted : posted.sys = s.sys := (sys_mgmtRing ..).trans (onDie_sys s d _)
  split
  · rw [sys_emit, hposted]
  · exact hposted

theorem sys_bridgeTrain (s : State) (b : Bridge) : (bridgeTrain s b).sys = s.sys := by
  have hgo (s : State) (d : Die) : (brgGo s d b .training 0).sys = s.sys := by
    rw [brgGo, sys_raiseLocal, sys_postMgmt]
    exact onDie_sys s d _
  rw [bridgeTrain, hgo, hgo]

theorem sys_wakePins (s : State) (d : Die) : (wakePins s d).sys = s.sys := by
  unfold wakePins
  extract_lets ports
  have hfold (l : List Nat) (s : State) : (l.foldl (fun s p => emit s (.pin "WAKE_HST_N" (4 * d.idx + p))) s).sys = s.sys := by
    induction l generalizing s with
    | nil => rfl
    | cons p l ih => exact (ih _).trans (sys_emit ..)
  exact (hfold ports _).trans (onDie_sys s d _)

/-! ### Reset, images and bring-up -/

theorem imageChecked_good (h : List Byte) : imageChecked s n true h =
    let u := onSys s fun y =>
      { y with bootStage := 4, bootStatus := if n = 1 then 3 else 0, bootSlot := n, imageSha := h.take 48, heartbeat := .hz500 }
    if s.sys.wakeLinks then u else aclDefault u := rfl

/-- The image of the slot that the ROMs read is checked. -/
theorem exec_imageAuthenticated_read {a e : Bool} {h : List Byte} (hwant : imageWanted s = true) (hslot : n = s.sys.bootSlot) :
    exec (.imageAuthenticated n a e h) s = .next (imageChecked s n (a && e) h) := by
  refine congrArg Host.Outcome.next (if_pos ?_)
  rw [hwant, decide_eq_true hslot]
  rfl

/-- The two dies' ROMs agree only where both accept. -/
theorem both_false {a e : Bool} (h : a = false ∨ e = false) : (a && e) = false := by
  rcases h with rfl | rfl
  · rfl
  · exact Bool.and_false a

theorem exec_bringupComplete_tested (hmode : s.sys.mode = .bringup) (hlo : 4 ≤ s.sys.bootStage) (hhi : s.sys.bootStage < 7)
    (hreset : s.sys.inReset = false) : exec .bringupComplete s = .next (bringupDone (selfTests s).2 (selfTests s).1) :=
  if_pos ⟨hmode, hlo, hhi, hreset⟩

/-- What bring-up's steps 6 to 9 leave once every record is collected, before the mode is entered. -/
def bringupTested (s : State) (t : SelfTest) : State :=
  let u := brgAfter (bridgeSettled (bridgeSettled (selfTested (selfTested s .west t.westPairs t.westHbm) .east t.eastPairs t.eastHbm) .north) .south)
  collectAll (onSys u fun y => { y with bootStage := 7, armed := true, wakeLinks := false })

theorem bringupDone_fresh {t : SelfTest} (h : s.sys.wakeLinks = false) : bringupDone s t = serviceBegins (bringupTested s t) false := by
  rw [bringupDone, h]
  exact if_neg Bool.false_ne_true

theorem bringupDone_waking {t : SelfTest} (h : s.sys.wakeLinks = true) : bringupDone s t =
    wakeTrain (wakeTrain (treesBack (treesBack (serviceBegins (bringupTested s t) true) .west) .east) .west) .east := by
  rw [bringupDone, h]
  exact if_pos rfl

/-! ### Standby and wake (R437 to R439) -/

theorem wakes_iff (s : State) (n : Nat) :
    (n < 4096 ∧ 1984 ≤ n % 2048 ∧ n % 2048 ≤ 2046 ∧ bit (die s (Die.ofCode (n / 2048))).eng.intWatch (n % 2048 - 1984) = true ∧
      (src s (Die.ofCode (n / 2048)) (n % 2048)).st ≠ .idle) ↔ wakes s n = true := by
  simp only [wakes, Bool.and_eq_true, decide_eq_true_eq]
  tauto

/-- The wake sequence begins as bring-up step 1, with the source noted and the links to train. -/
theorem sys_standbyWake (s : State) (n : Nat) : (standbyWake s n).sys =
    { s.sys with mode := .bringup, wakeSource := n, bootStage := 1, bootStatus := 0, bootSlot := 0, heartbeat := .low, wakeAt := none
                 wakeLinks := true } := by
  have hbridge (s : State) (b : Bridge) : (if (brg s .west b).adminEn then bridgeTrain s b else s).sys = s.sys := by
    split
    · exact sys_bridgeTrain s b
    · rfl
  unfold standbyWake
  rw [hbridge, hbridge, sys_wakePins, sys_wakePins]
  rfl

theorem exec_wakeTimerExpiry_due {t : Nat} (hat : s.sys.wakeAt = some t) (hdue : t ≤ s.now) (hmode : s.sys.mode = .standby) :
    exec .wakeTimerExpiry s = .next (raiseAon (onSys s fun y => { y with wakeAt := none }) 1991) := by
  simp only [exec, execWakeTimerExpiry, hat, if_pos (And.intro hdue hmode)]

theorem exec_internalDeviceReset_due {t : Nat} (hat : s.sys.resetDue = some t) (hdue : t ≤ s.now) :
    exec .internalDeviceReset s = .next (resetPins (deviceReset s true)) := by
  simp only [exec, execInternalDeviceReset, hat, if_pos hdue]

theorem archiveCopied_designated {a : Nat} (hdest : s.arch.dest = some a) :
    archiveCopied s = s.arch.copyOps.foldl (fun s o => completeOp s o { code := 0 })
      { archiveWrites s a with arch := { (archiveWrites s a).arch with copying := false, copied := true, copyOps := [] } } := by
  have harch : (archiveWrites s a).arch = s.arch := by rw [archiveWrites, arch_emit, arch_emit]
  simp only [archiveCopied, hdest, harch]

/-- Settles O40: each row where its condition holds. That the always-on sources are raised on both dies is log entry 155, what the
self-tests find the free values of log entry 151, and that the wake sequence begins at step 1 log entry 154: the model's own readings. -/
theorem resetsBringUpAndModesAct : Obligations.ResetsBringUpAndModesAct := by
  unfold Obligations.ResetsBringUpAndModesAct
  refine ⟨?reset, ?short, ?powerGood, ?powerLost, ?internal, ?release, ?image, ?wakeImage, ?slotA, ?slotB, ?bringup, ?wakeBringup, ?kept,
    ?standby, ?wake, ?timer, ?mgtWake, ?archive, ?copied, ?woken⟩
  case reset => exact fun s n hn => (if_neg (by omega)).trans (if_pos hn)
  case short => exact fun s n hn => if_pos hn
  case powerGood => exact fun s hlow => congrArg Host.Outcome.next (if_neg (by rw [hlow]; nofun))
  case powerLost => exact fun s n hn => if_neg (by omega)
  case internal => exact fun s t hat hdue => exec_internalDeviceReset_due hat hdue
  case release =>
    intro s w hreset hgood hdue
    refine congrArg Host.Outcome.next (if_pos ?_)
    rw [hreset, hgood, decide_eq_true hdue]
    rfl
  case image =>
    intro s n h hwant hslot hfresh
    rw [exec_imageAuthenticated_read hwant hslot, Bool.and_self, imageChecked_good, hfresh]
    rfl
  case wakeImage =>
    intro s n h hwant hslot hwaking
    rw [exec_imageAuthenticated_read hwant hslot, Bool.and_self, imageChecked_good, hwaking]
    rfl
  case slotA =>
    intro s a e h hwant hslot hbad
    rw [exec_imageAuthenticated_read hwant hslot.symm, both_false hbad]
    rfl
  case slotB =>
    intro s a e h hwant hslot hbad
    rw [exec_imageAuthenticated_read hwant hslot.symm, both_false hbad]
    rfl
  case bringup =>
    intro s b u v hmode hlo hhi hreset hfresh
    rw [exec_bringupComplete_tested hmode hlo hhi hreset, bringupDone_fresh (show (selfTests s).2.sys.wakeLinks = false from hfresh), serviceBegins]
    rfl
  case wakeBringup =>
    intro s b u v w hmode hlo hhi hreset hwaking
    rw [exec_bringupComplete_tested hmode hlo hhi hreset, bringupDone_waking (show (selfTests s).2.sys.wakeLinks = true from hwaking), serviceBegins]
    rfl
  case kept => exact fun s k => ⟨rfl, rfl, rfl, rfl, rfl, rfl, rfl, rfl, rfl, rfl, rfl⟩
  case standby =>
    intro s hdue hmode
    refine congrArg Host.Outcome.next (if_pos ?_)
    rw [hdue, decide_eq_true hmode]
    rfl
  case wake => exact fun s n hmode hwake => congrArg Host.Outcome.next (if_pos ⟨hmode, hwake⟩)
  case timer => exact fun s t hat hdue hmode => exec_wakeTimerExpiry_due hat hdue hmode
  case mgtWake => exact fun s hreset => congrArg Host.Outcome.next (if_neg (by rw [hreset]; nofun))
  case archive =>
    intro s hf hno
    refine congrArg Host.Outcome.next (if_pos ?_)
    rw [hf, hno]
    rfl
  case copied =>
    intro s a u hcopy hup hdest
    have hdone : exec .archiveHostCopyDone s = .next (archiveCopied s) :=
      congrArg Host.Outcome.next (if_pos (by rw [hcopy, hup]; rfl))
    rw [hdone, archiveCopied_designated hdest]
  case woken =>
    intro s n t
    have hsys : t.sys = _ := sys_standbyWake s n
    exact ⟨wakes_iff s n, by rw [hsys], by rw [hsys], by rw [hsys], by rw [hsys]⟩

end Sys2Proof.Proofs
end

section
/-! PROOF. Device time (R389, R399 to R405, R455): a TIME flit or a PPS edge that is used, a source that is gone, a step at its moment, the
end of HOLDOVER and a domain's due activation, each by the branch that its condition takes. -/

namespace Sys2Proof.Proofs

open Sys2Proof Sys2Proof.Machine

variable {s : State} {d : Die} {k n b v t : Nat} {m : TimeFlit} {e : Int} {p : Pend}

/-! ### TIME flits (R398 to R401) -/

/-- The flit kept on its link, for the echo and as a source. -/
def flitKept (s : State) (d : Die) (k : Nat) (m : TimeFlit) : State :=
  modLink s d k fun l => { l with timeTx := m.tTx, timeRx := m.arrival, timeFlit := some m, timeSeen := s.now }

theorem time_flitKept : (flitKept s d k m).time = s.time := onDie_time s d _
theorem now_flitKept : (flitKept s d k m).now = s.now := onDie_now s d _

/-- What a fresh flit does while the device has a source that stands. -/
theorem timeReceive_sourced (hretx : m.retx = false) (hstratum : m.stratum ≠ 15) (hstands : sourceGone (flitKept s d k m) = false)
    (hsrc : s.time.src ≠ .none) :
    timeReceive s d k m =
      if s.time.src = .link d k then
        let u := onTime (flitKept s d k m) fun t => { t with sourceAt := s.now }
        if m.tEcho = 0 then u
        else measured u (Int.tdiv ((Int.ofNat m.tRx - Int.ofNat m.tEcho) + (Int.ofNat m.tTx - Int.ofNat m.arrival)) 2)
      else flitKept s d k m := by
  have hfresh : ¬ (m.retx = true ∨ m.stratum = 15) := by
    rw [hretx]
    exact not_or.mpr ⟨nofun, hstratum⟩
  rw [timeReceive, if_neg hfresh]
  extract_lets kept judged sourced noted
  have hjudged : judged = flitKept s d k m := if_neg (by rw [show sourceGone kept = false from hstands]; nofun)
  have hsourced : sourced = flitKept s d k m := by
    show (if judged.time.src = .none then takeSource judged else judged) = _
    rw [hjudged, time_flitKept, if_neg hsrc]
  have hnoted : noted = onTime (flitKept s d k m) fun t => { t with sourceAt := s.now } := by
    show onTime sourced (fun t => { t with sourceAt := sourced.now }) = _
    rw [hsourced, now_flitKept]
  rw [hnoted, hsourced, time_flitKept]

/-! ### PPS edges (R455) -/

theorem ppsEdge_loads (hused : ∀ t, s.time.ppsAt = some t → ppsPresent s = false ∨ t + 999000000 ≤ s.now ∧ s.now ≤ t + 1001000000)
    (hset : s.time.setAtPps = some v) : ppsEdge s = timeLoad (onTime s fun t => { t with ppsAt := some s.now }) v := by
  unfold ppsEdge
  extract_lets used noted
  have hact : used = true := by
    cases hat : s.time.ppsAt with
    | none => simp only [used, hat]
    | some t =>
      simp only [used, hat]
      rcases hused t hat with habsent | hwindow
      · rw [habsent]
        rfl
      · rw [decide_eq_true hwindow, Bool.or_true]
  have hnoted : noted.time.setAtPps = some v := hset
  rw [hact, hnoted]
  rfl

/-- An edge less than 999 ms after the last one used is ignored. -/
theorem ppsEdge_early (hat : s.time.ppsAt = some t) (hearly : s.now < t + 999000000) : ppsEdge s = s := by
  have hpresent : ppsPresent s = true := by
    simp only [ppsPresent, hat]
    exact decide_eq_true (by omega)
  have hno : ¬ (t + 999000000 ≤ s.now ∧ s.now ≤ t + 1001000000) := by omega
  simp only [ppsEdge, hat, hpresent, decide_eq_false hno, Bool.not_true, Bool.or_false, Bool.not_false, if_true]

/-! ### Steps (R404, R405) -/

theorem stepApply_allowed (hstep : s.time.step = some (b, e)) (hdue : b ≤ s.time.ns) (hok : stepAllowed s b e = true) :
    stepApply s = postBoth (onTime (ppsOut s) fun t => { t with ns := ((Int.ofNat t.ns + e) % 18446744073709551616).toNat, step := none }) 0x72
      (evb 8 ((e % 18446744073709551616).toNat) + evb 16 b) := by
  simp only [stepApply, hstep, if_neg (Nat.not_lt.mpr hdue), hok, if_true]

theorem stepApply_refused (hstep : s.time.step = some (b, e)) (hdue : b ≤ s.time.ns) (hno : stepAllowed s b e = false) :
    stepApply s = slewBy (onTime s fun t => { t with step := none, refusedStep := true }) e := by
  simp only [stepApply, hstep, if_neg (Nat.not_lt.mpr hdue), hno, Bool.false_eq_true, if_false]

/-- A domain's activation at its moment, with no earlier one of the die due (R389). -/
theorem epochSettle_due (hpend : (dom s d n).pend = some p) (hdue : p.actTime ≤ s.time.ns) (hfirst : dueBefore s d n p = false) :
    epochSettle s d n = if n = 5 then timeReselect (domActivate s d n p) else domActivate s d n p := by
  simp only [epochSettle, hpend, hdue, hfirst, and_self, if_true]

/-- Settles O34: each row by the branch that its condition takes. That a step is judged again at its moment and slews when it is not
allowed then is log entry 145, and that a source lost in ACQUIRING may lead to HOLDOVER log entry 140: the model's own readings. -/
theorem timeFollowsItsSource : Obligations.TimeFollowsItsSource := by
  unfold Obligations.TimeFollowsItsSource
  refine ⟨?measured, ?kept, ?lost, ?pps, ?early, ?step, ?refused, ?expiry, ?activation⟩
  case measured =>
    intro s d k m u hretx hstratum hstands hsrc hecho
    exact congrArg Host.Outcome.next
      ((timeReceive_sourced hretx hstratum hstands (by rw [hsrc]; nofun)).trans ((if_pos hsrc).trans (if_neg hecho)))
  case kept =>
    intro s d k m u hretx hstratum hstands hsome hother
    exact congrArg Host.Outcome.next ((timeReceive_sourced hretx hstratum hstands hsome).trans (if_neg hother))
  case lost => exact fun s h => if_pos h
  case pps => exact fun s v hused hset => congrArg Host.Outcome.next (ppsEdge_loads hused hset)
  case early => exact fun s t hat hearly => congrArg Host.Outcome.next (ppsEdge_early hat hearly)
  case step => exact fun s b e hstep hdue hok => congrArg Host.Outcome.next (stepApply_allowed hstep hdue hok)
  case refused => exact fun s b e hstep hdue hno => congrArg Host.Outcome.next (stepApply_refused hstep hdue hno)
  case expiry => exact fun s hst hend => if_pos ⟨hst, hend⟩
  case activation => exact fun s d n p hpend hdue hfirst => congrArg Host.Outcome.next (epochSettle_due hpend hdue hfirst)

end Sys2Proof.Proofs
end

section
/-! PROOF. Semaphores (R365 to R368): a master that is there and within whose reach the semaphore lies reads it or writes its control, and
the holder and the arms decide what that does. -/

namespace Sys2Proof.Proofs

open Sys2Proof Sys2Proof.Machine

variable {s : State} {m k : Master} {d : Die} {n l q : Nat}

/-! ### Reading (R366) -/

theorem exec_semAcquire_there (hthere : masterThere s m = true) : exec (.semAcquire m d n) s = .next (semAcquire s m d n) :=
  congrArg Host.Outcome.next (if_pos hthere)

theorem semAcquire_reached (hreach : semReach s m d n (0x500000 + 16 * n) false = .ok) :
    semAcquire s m d n = emit (semRead s m d n).1 (.regData m (regOff d (0x500000 + 16 * n)) (semRead s m d n).2) := by
  simp only [semAcquire, hreach]

theorem semAcquire_ungranted (hreach : semReach s m d n (0x500000 + 16 * n) false = .ungranted) :
    semAcquire s m d n = emit s (.regData m (regOff d (0x500000 + 16 * n)) (2 ^ 64 - 1)) := by
  simp only [semAcquire, hreach]

theorem semRead_free (hfree : (sem s d n).holder = none) :
    semRead s m d n = (modSem (pmc s d 716 1) d n fun x => { x with holder := some m }, 0) := by
  rw [semRead, hfree]

theorem semRead_held (hheld : (sem s d n).holder ≠ none) : semRead s m d n = (pmc s d 717 1, semWord s d n) := by
  obtain ⟨k, hk⟩ := Option.ne_none_iff_exists'.mp hheld
  rw [semRead, hk]

/-! ### Writing the control register (R367) -/

/-- A control write of a master that is there, within its reach. -/
theorem next_semWrite {f : State → State} (hthere : masterThere s m = true) (hreach : semReach s m d n (0x500008 + 16 * n) true = .ok) :
    Host.Outcome.next (φ := Fault) (ρ := Refusal) (if masterThere s m then semWrite s m d n f else s) = .next (f s) := by
  rw [if_pos hthere, semWrite, hreach]

theorem semReleaseOp_holder (hholder : (sem s d n).holder = some m) (hlive : (sem s d n).orphaned = false) :
    semReleaseOp s m d n = semFree s d n := if_pos ⟨hholder, hlive⟩

/-- A release by another is logged and, 1 ms after the last one posted, posted. -/
theorem semReleaseOp_other (hother : (sem s d n).holder ≠ some m ∨ (sem s d n).orphaned = true)
    (hdue : ∀ t, (die (semFault s d n 1 m) d).eng.semBadAt = some t → t + 1000000 ≤ (semFault s d n 1 m).now) :
    semReleaseOp s m d n =
      postMgmt (onEng (semFault s d n 1 m) d fun e => { e with semBadAt := some (semFault s d n 1 m).now }) d 0x63
        (evb 8 (regVal (semFault s d n 1 m) d 0x502000) + evb 16 d.idx) := by
  have hno : ¬ ((sem s d n).holder = some m ∧ (sem s d n).orphaned = false) := by
    rintro ⟨hholder, hlive⟩
    rcases hother with h | h
    · exact h hholder
    · rw [hlive] at h
      cases h
  unfold semReleaseOp
  extract_lets x logged due
  have hpost : due = true := by
    cases hat : (die (semFault s d n 1 m) d).eng.semBadAt with
    | none => simp only [due, logged, hat]
    | some t =>
      simp only [due, logged, hat]
      exact decide_eq_true (hdue t hat)
  rw [if_neg hno, hpost]
  rfl

/-- The arms of the others. -/
def otherArms (s : State) (d : Die) (n : Nat) (m : Master) : List SemArm := (sem s d n).arms.filter fun a => decide (a.who ≠ m)

/-- A master that can wait: JTAG and the Flume cannot. -/
def MayWait (m : Master) : Prop := m ≠ .jtag ∧ ∀ r, m ≠ .flume r

/-- Arming by a master that can wait and does not hold the semaphore, with room for its arm. -/
theorem semArmOp_waits (hwait : MayWait m) (hother : (sem s d n).holder ≠ some m) (hroom : (otherArms s d n m).length < 16) :
    semArmOp s m d n l q =
      if (sem s d n).holder = none then semNotify s d n { who := m, level := l, source := q }
      else semBoost (modSem s d n fun x => { x with arms := otherArms s d n m ++ [{ who := m, level := l, source := q }] }) d n := by
  obtain ⟨hjtag, hflume⟩ := hwait
  have hlen : decide ((otherArms s d n m).length ≥ 16) = false := decide_eq_false (by omega)
  unfold semArmOp
  extract_lets x others barred a
  have hbarred : barred = false := by
    cases m with
    | jtag => exact absurd rfl hjtag
    | flume r => exact absurd rfl (hflume r)
    | host | carrel | cp | i3c => rfl
  rw [hbarred, decide_eq_false hother, show decide (others.length ≥ 16) = false from hlen]
  rfl

/-- Arming by the holder is a fault. -/
theorem semArmOp_holder (hholder : (sem s d n).holder = some m) : semArmOp s m d n l q = semFault s d n 2 m := by
  unfold semArmOp
  extract_lets x others barred a
  rw [decide_eq_true (show x.holder = some m from hholder), Bool.or_true, Bool.true_or]
  exact if_pos rfl

/-- Settles O37: a read by whether the semaphore is free, a control write by what its holder and its arms are. -/
theorem semaphoresAct : Obligations.SemaphoresAct := by
  unfold Obligations.SemaphoresAct
  refine ⟨?acquire, ?held, ?ungranted, ?release, ?other, ?arm, ?armFree, ?armHolder, ?disarm⟩
  case acquire =>
    intro s m d n hthere hreach hfree
    rw [exec_semAcquire_there hthere, semAcquire_reached hreach, semRead_free hfree]
  case held =>
    intro s m d n hthere hreach hheld
    rw [exec_semAcquire_there hthere, semAcquire_reached hreach, semRead_held hheld]
  case ungranted =>
    intro s m d n hthere hreach
    rw [exec_semAcquire_there hthere, semAcquire_ungranted hreach]
  case release =>
    intro s m d n x hthere hreach hholder hlive
    exact (next_semWrite hthere hreach).trans (congrArg Host.Outcome.next (semReleaseOp_holder hholder hlive))
  case other =>
    intro s m d n x u hthere hreach hother hdue
    exact (next_semWrite hthere hreach).trans (congrArg Host.Outcome.next (semReleaseOp_other hother hdue))
  case arm =>
    intro s m d n l q x y hthere hreach hjtag hflume hheld hroom
    obtain ⟨k, hk, hne⟩ := hheld
    have hother : (sem s d n).holder ≠ some m := fun h => hne (Option.some.inj (hk.symm.trans h))
    have hsome : (sem s d n).holder ≠ none := fun h => by cases hk.symm.trans h
    exact (next_semWrite hthere hreach).trans
      (congrArg Host.Outcome.next ((semArmOp_waits ⟨hjtag, hflume⟩ hother hroom).trans (if_neg hsome)))
  case armFree =>
    intro s m d n l q x hthere hreach hjtag hflume hfree hroom
    have hother : (sem s d n).holder ≠ some m := fun h => by cases hfree.symm.trans h
    exact (next_semWrite hthere hreach).trans
      (congrArg Host.Outcome.next ((semArmOp_waits ⟨hjtag, hflume⟩ hother hroom).trans (if_pos hfree)))
  case armHolder =>
    intro s m d n l q x hthere hreach hholder
    exact (next_semWrite hthere hreach).trans (congrArg Host.Outcome.next (semArmOp_holder hholder))
  case disarm => exact fun s m d n hthere hreach => next_semWrite hthere hreach

end Sys2Proof.Proofs
end

section
/-! PROOF. Power tokens, throttling, adaptive voltage and the monitors (R354, R433 to R436): each row where its condition holds, and a
sample within its limits by what the levels that it drives leave of the monitors. -/

namespace Sys2Proof.Proofs

open Sys2Proof Sys2Proof.Machine

variable {s : State} {d e : Die} {n v w k : Nat} {t : Token} {l : List Token} {u : TokenUnit}

/-! ### Tokens (R354, R433) -/

theorem exec_tokenRequest_wanted (hwant : tokenWanted s d u = true) (hnone : tokenHeld s d u = false) :
    exec (.tokenRequest d u) s =
      .next (onPwr (pmc s d 711 1) d fun p => { p with queue := p.queue ++ [{ unit := u, n := tokenCount s d u, at_ := s.now }] }) :=
  if_pos (by rw [hwant, hnone]; rfl)

theorem tokenGrant_unwanted (hq : (die s d).pwr.queue = t :: l) (hno : tokenWanted s d t.unit = false) :
    tokenGrant s d = onPwr s d fun p => { p with queue := l } := by
  rw [tokenGrant, hq]
  exact if_pos (by rw [hno]; rfl)

/-- The head of the queue, whose unit still wants its tokens. -/
theorem tokenGrant_wanted (hq : (die s d).pwr.queue = t :: l) (hwant : tokenWanted s d t.unit = true) :
    tokenGrant s d =
      if (die s d).pwr.eighths = 0 ∧ (die s d).pwr.est + tokensOut s d + t.n ≤ pwrLimit s d then
        tokenStart (onPwr s d fun p => { p with queue := l, granted := p.granted ++ [{ t with at_ := s.now }] }) d t.unit
      else s := by
  rw [tokenGrant, hq]
  exact if_neg (by rw [hwant]; nofun)

theorem tokenRelease_adapt (hfind : ((die s d).pwr.granted.find? fun t => decide (t.unit = .adapt k)) = some t) (hdone : tokenDone s d t = true) :
    tokenRelease s d (.adapt k) = onPwr s d fun p => { p with granted := p.granted.filter fun x => decide (x.unit ≠ .adapt k) } := by
  rw [tokenRelease, hfind]
  exact if_pos hdone

/-! ### What a level leaves as it was -/

theorem pwr_setLevel (s : State) (d : Die) (n : Nat) (on : Bool) (e : Die) : (die (setLevel s d n on) e).pwr = (die s e).pwr := by
  cases d <;> cases e <;> rfl

theorem sys_setLevel (s : State) (d : Die) (n : Nat) (on : Bool) : (setLevel s d n on).sys = s.sys := onDie_sys s d _

theorem warnAt_setLevel (s : State) (d : Die) (n : Nat) (on : Bool) (e : Die) : warnAt (setLevel s d n on) e = warnAt s e := by
  unfold warnAt pwrCfg
  rw [setLevel, modSrc, onEng, regVal_onDie]

theorem warnAt_onPwr (s : State) (d : Die) (f : Pwr → Pwr) (e : Die) : warnAt (onPwr s d f) e = warnAt s e := by
  unfold warnAt pwrCfg
  rw [onPwr, regVal_onDie]

theorem pwr_onPwr (s : State) (d : Die) (f : Pwr → Pwr) : (die (onPwr s d f) d).pwr = f (die s d).pwr := by
  rw [onPwr, die_onDie_same]

theorem sys_onPwr (s : State) (d : Die) (f : Pwr → Pwr) : (onPwr s d f).sys = s.sys := onDie_sys s d _

/-- Only what a change makes of the die's own power manager counts. -/
theorem onPwr_congr {f g : Pwr → Pwr} (h : f (die s d).pwr = g (die s d).pwr) : onPwr s d f = onPwr s d g := by
  have hset (f : Pwr → Pwr) : onPwr s d f = onPwr s d fun _ => f (die s d).pwr := by cases d <;> rfl
  rw [hset f, hset g, h]

/-! ### Samples within their limits (R435) -/

/-- A thermal sample of sensor `n`, up to CRITICAL, kept. -/
def thermalKept (s : State) (d : Die) (n v : Nat) : State :=
  onPwr s d fun p => { p with thermal := tset 0 p.thermal n v, critSince := tdel p.critSince n }

/-- A level of an always-on source and one of the core, each on `on`. -/
def levelPair (s : State) (d : Die) (aon core : Nat) (on : Bool) : State := setLevel (setLevel s d aon on) d core on

theorem pwr_levelPair (s : State) (d : Die) (aon core : Nat) (on : Bool) : (die (levelPair s d aon core on) d).pwr = (die s d).pwr :=
  (pwr_setLevel ..).trans (pwr_setLevel ..)

theorem thermalSample_calm (hmax : v ≤ 1000) (hreset : s.sys.inReset = false) (hmode : s.sys.mode ≠ .standby) (hcrit : v ≤ criticalAt s d)
    (hwarn : v ≤ warnAt s d) (hsince : tget 0 (tdel (die s d).pwr.critSince n) n = 0) :
    thermalSample s d n v = levelPair (thermalKept s d n v) d 1985 1895
      ((die (thermalKept s d n v) d).pwr.thermal.any fun (_, t) => decide (warnAt (thermalKept s d n v) d < t)) := by
  unfold thermalSample
  extract_lets tripped hot kept warm aon levels post posted since
  have htripped : tripped = s := if_neg (by omega)
  have hkept : kept = thermalKept s d n v := by
    have hcold : hot = false := decide_eq_false (by rw [htripped]; omega)
    simp only [kept, hcold, htripped, Bool.false_eq_true, if_false]
    rfl
  have hlevels : levels = levelPair kept d 1985 1895 warm := if_neg (by
    show (setLevel kept d 1985 warm).sys.mode ≠ .standby
    rwa [sys_setLevel, hkept, thermalKept, sys_onPwr])
  have hpost : post = false := by
    have hcool : ¬ v > warnAt levels d := by
      rw [hlevels, levelPair, warnAt_setLevel, warnAt_setLevel, hkept, thermalKept, warnAt_onPwr]
      omega
    simp only [post, decide_eq_false hcool, Bool.false_and]
  have hposted : posted = levels := if_neg (by rw [hpost]; nofun)
  have hcalm : since = 0 := by
    show tget 0 (die posted d).pwr.critSince n = 0
    rwa [hposted, hlevels, pwr_levelPair, hkept, thermalKept, pwr_onPwr]
  rw [if_neg (by rw [htripped, hreset]; nofun), if_neg fun ⟨hne, _⟩ => hne hcalm, hposted, hlevels]
  simp only [warm, hkept]

/-- Since when monitor `n` has been out of its normal band, with `n` back in it. -/
def bandsCleared (s : State) (d : Die) (n : Nat) : Tab Nat :=
  sinceTab (sinceTab (die s d).pwr.bandSince (2 * n) false s.now) (2 * n + 1) false s.now

/-- A voltage sample of monitor `n` in its normal band, kept. -/
def voltageKept (s : State) (d : Die) (n v : Nat) : State :=
  onPwr s d fun p => { p with volts := tset 0 p.volts n v, voltBand := tset 0 p.voltBand n 0, bandSince := bandsCleared s d n }

theorem voltageSample_normal (hreset : s.sys.inReset = false) (hmode : s.sys.mode ≠ .standby)
    (halarm : tget 0 (bandsCleared s d n) (2 * n) = 0) (hfault : tget 0 (bandsCleared s d n) (2 * n + 1) = 0) :
    voltageSample s d n v .normal = levelPair (voltageKept s d n v) d 1986 1896
      ((die (voltageKept s d n v) d).pwr.voltBand.any fun (_, b) => decide (b ≠ 0)) := by
  unfold voltageSample
  rw [if_neg (by rw [hreset]; nofun)]
  extract_lets c kept out aon levels p held last posted
  have hkept : kept = voltageKept s d n v := onPwr_congr rfl
  have hlevels : levels = levelPair kept d 1986 1896 out := if_neg (by
    show (setLevel kept d 1986 out).sys.mode ≠ .standby
    rwa [sys_setLevel, hkept, voltageKept, sys_onPwr])
  have hsince : p.bandSince = bandsCleared s d n := by
    show (die levels d).pwr.bandSince = _
    rw [hlevels, pwr_levelPair, hkept, voltageKept, pwr_onPwr]
  have hheld (k ns : Nat) (hk : tget 0 p.bandSince k = 0) : held k ns = false := decide_eq_false fun ⟨hne, _⟩ => hne hk
  have hposted : posted = levels := if_neg (by rw [hheld _ _ (by rw [hsince]; exact halarm)]; nofun)
  rw [hheld _ _ (by rw [hsince]; exact hfault), Bool.false_and, if_neg Bool.false_ne_true, hposted, hlevels]
  simp only [out, hkept]

theorem avsRequest_new (hw : avsForm v = true) (he : avsForm w = true) (hnew : max v w ≠ (die s .west).pwr.avsWant)
    (hreset : s.sys.inReset = false) :
    avsRequest s v w =
      emit (onPwr (onPwr (takeFree s).2 .west fun p => { p with avsWant := max v w, appliedMv := bits (takeFree s).1.toNat 0 16 }) .east
        fun p => { p with avsWant := max v w, appliedMv := bits (takeFree s).1.toNat 16 16 }) (.ibi [0xA5]) :=
  if_pos (by rw [hw, he, hreset, decide_eq_true hnew]; rfl)

/-- Settles O42: each row where its condition holds. That the always-on levels of the monitors are driven with the core's is log entry
156, the model's own reading. -/
theorem powerIsManaged : Obligations.PowerIsManaged := by
  unfold Obligations.PowerIsManaged
  refine ⟨?request, ?grant, ?wait, ?drop, ?release, ?throttle, ?avs, ?thermal, ?voltage⟩
  case request => exact fun s d u hwant hnone => exec_tokenRequest_wanted hwant hnone
  case grant =>
    exact fun s d t l hq hwant hfull hroom => congrArg Host.Outcome.next ((tokenGrant_wanted hq hwant).trans (if_pos ⟨hfull, hroom⟩))
  case wait =>
    intro s d t l hq hwant hno
    exact congrArg Host.Outcome.next ((tokenGrant_wanted hq hwant).trans (if_neg (by omega)))
  case drop => exact fun s d t l hq hno => congrArg Host.Outcome.next (tokenGrant_unwanted hq hno)
  case release => exact fun s d k t hfind hdone => congrArg Host.Outcome.next (tokenRelease_adapt hfind hdone)
  case throttle =>
    intro s d u hdue
    exact congrArg Host.Outcome.next (if_neg (by omega))
  case avs =>
    intro s w e r hw he hnew hreset
    exact congrArg Host.Outcome.next (avsRequest_new hw he hnew hreset)
  case thermal =>
    intro s d n v u w y z hn hmax hreset hmode hcrit hwarn hsince
    exact congrArg Host.Outcome.next ((if_pos ⟨hn, by omega⟩).trans (thermalSample_calm hmax hreset hmode hcrit hwarn hsince))
  case voltage =>
    intro s d n mv b u w y z hn hmv hreset hmode halarm hfault
    exact congrArg Host.Outcome.next ((if_pos ⟨hn, hmv⟩).trans (voltageSample_normal hreset hmode halarm hfault))

end Sys2Proof.Proofs
end

section
/-! PROOF. The Lookout (R416 to R418, R420, R423, R426): a report, a broken wire and its polls, the self-test at the end of a quiet period
and a missed heartbeat, each where its condition holds. -/

namespace Sys2Proof.Proofs

open Sys2Proof Sys2Proof.Machine

variable {s : State} {d : Die} {b u k : Nat} {c : FaultClass}

/-- A report that does not take a die's last pair is one fault. -/
theorem report_one (h : b ≠ 0x15 ∨ pairsGone s d = true) : report s d b u c k = reportOne s d b u c k := by
  unfold report
  refine if_neg fun ⟨hb, hgone, _⟩ => ?_
  rcases h with hne | hlost
  · exact hne hb
  · cases hgone.symm.trans hlost

/-! ### Broken wires (R418) -/

/-- The wire of class `c` of block `b` marked as broken. -/
def wireMarked (s : State) (d : Die) (b : Nat) (c : FaultClass) : State :=
  modErr s d b fun e => { e with wireBroken := addNew e.wireBroken (classCode c) }

/-- Within 1 s of the last event of its pair a broken wire is marked and reported, not posted. -/
theorem wireBroken_silent (hlast : tget 0 (errRec s d b).wireEvAt (classCode c) ≠ 0)
    (hsoon : s.now + 1 < tget 0 (errRec s d b).wireEvAt (classCode c) + 1000000000) :
    wireBroken s d b c = reportOwn (wireMarked s d b c) d 0x01 0xFFFF .corrected := by
  unfold wireBroken
  extract_lets x last post marked posted
  have hpost : post = false := decide_eq_false (not_or.mpr ⟨hlast, Nat.not_le.mpr hsoon⟩)
  simp only [posted, marked, hpost, Bool.false_eq_true, if_false]
  rfl

theorem wireBroken_posts (hdue : tget 0 (errRec s d b).wireEvAt (classCode c) = 0 ∨
      tget 0 (errRec s d b).wireEvAt (classCode c) + 1000000000 ≤ s.now + 1) :
    wireBroken s d b c =
      reportOwn (postMgmt (modErr s d b fun e =>
          { e with wireBroken := addNew e.wireBroken (classCode c), wireEvAt := tset 0 e.wireEvAt (classCode c) (s.now + 1) })
        d 0x03 (evb 8 d.idx + evb 9 b + evb 10 (classCode c))) d 0x01 0xFFFF .corrected := by
  unfold wireBroken
  extract_lets x last post marked posted
  have hpost : post = true := decide_eq_true hdue
  simp only [posted, marked, hpost, if_true]
  rfl

/-- The block has been polled, and its wires agree again or not. -/
def polled (s : State) (d : Die) (b : Nat) (agree : Bool) : State :=
  modErr s d b fun e => { e with pollAt := s.now, wireBroken := if agree then [] else e.wireBroken }

/-- A block with a broken wire is polled 1 µs after its last poll. -/
theorem lookoutPoll_due {a : Bool} (hcollect : collecting s = true) (hbroken : (errRec s d b).wireBroken ≠ [])
    (hdue : (errRec s d b).pollAt + 1000 ≤ s.now) :
    lookoutPoll s d b a = if recovering (polled s d b a) d b then polled s d b a else collect (polled s d b a) d b := by
  refine if_pos ?_
  rw [hcollect, decide_eq_true hdue, List.isEmpty_eq_false_iff.mpr hbroken]
  rfl

/-! ### Self-tests (R361, R423) -/

theorem quietOver_due (hst : (unitOf s d b u).st = .fault) (hdue : (unitOf s d b u).quietEnd ≤ s.now) : quietOver s d b u = true :=
  decide_eq_true ⟨hst, hdue⟩

/-- Settles O41: each row where its condition holds. That HEARTBEAT is missed at 500 Hz alone is log entry 168. -/
theorem theLookoutActs : Obligations.TheLookoutActs := by
  unfold Obligations.TheLookoutActs
  refine ⟨?report, ?silent, ?posted, ?collected, ?recovering, ?unit, ?pair, ?heartbeat⟩
  case report =>
    intro s d b u c k hreset hpairs
    refine congrArg Host.Outcome.next ((if_neg ?_).trans (report_one hpairs))
    rw [hreset]
    exact Bool.false_ne_true
  case silent =>
    intro s d b c l hcollect hlast hsoon
    exact congrArg Host.Outcome.next ((if_pos hcollect).trans (wireBroken_silent hlast hsoon))
  case posted =>
    intro s d b c l hcollect hdue
    exact congrArg Host.Outcome.next ((if_pos hcollect).trans (wireBroken_posts hdue))
  case collected =>
    intro s d b a u hcollect hbroken hdue hidle
    refine congrArg Host.Outcome.next ((lookoutPoll_due hcollect hbroken hdue).trans (if_neg ?_))
    rw [show recovering (polled s d b a) d b = false from hidle]
    exact Bool.false_ne_true
  case recovering =>
    intro s d b a u hcollect hbroken hdue hbusy
    exact congrArg Host.Outcome.next ((lookoutPoll_due hcollect hbroken hdue).trans (if_pos hbusy))
  case unit =>
    intro s d b u p hst hdue hno
    refine congrArg Host.Outcome.next (if_pos ?_)
    rw [quietOver_due hst hdue, decide_eq_false (by omega)]
    rfl
  case pair =>
    intro s d n p hst hdue hn
    refine congrArg Host.Outcome.next (if_pos ?_)
    rw [quietOver_due hst hdue, decide_eq_true hn]
    rfl
  case heartbeat => exact fun s d h => congrArg Host.Outcome.next (if_pos h)

end Sys2Proof.Proofs
end

section
/-! PROOF. Carrel pairs and memory (R354 to R363, R421): an access by an active pair that the split does not bar, the commands of a dead pair,
a lockstep mismatch and the scrubber. -/

namespace Sys2Proof.Proofs

open Sys2Proof Sys2Proof.Machine

variable {s : State} {d home : Die} {p q a : Nat} {f : State → State}

/-! ### Lines (R355 to R358) -/

theorem lineAccess_within (hst : (pairOf s d p).st = .active) (hnear : splitNow s = false ∨ home = d) : lineAccess s d p home f = f s := by
  have hbar : (splitNow s && decide (home ≠ d)) = false := by
    rcases hnear with hwhole | hsame
    · rw [hwhole, Bool.false_and]
    · rw [decide_eq_false (not_not_intro hsame), Bool.and_false]
  refine (if_neg (not_not_intro hst)).trans (if_neg ?_)
  rw [hbar]
  exact Bool.false_ne_true

theorem cacheWrite_barred (hst : (pairOf s d p).st = .active) (hsplit : splitNow s = true) (hfar : home ≠ d) :
    cacheWrite s d p home a = emit s (.exception d p) := by
  refine (if_neg (not_not_intro hst)).trans (if_pos ?_)
  rw [hsplit, decide_eq_true hfar]
  rfl

theorem cacheRead_hit (hst : (pairOf s d p).st = .active) (hnear : splitNow s = false ∨ home = d)
    (hhit : holds (lineAt s home a) (pairKey d p) ≠ .i) : cacheRead s d p home a = pmcAt s d 640 1 (engCtx p 0) := by
  rw [cacheRead, lineAccess_within hst hnear]
  exact if_pos hhit

theorem cacheRead_miss (hst : (pairOf s d p).st = .active) (hnear : splitNow s = false ∨ home = d)
    (hmiss : holds (lineAt s home a) (pairKey d p) = .i) :
    cacheRead s d p home a = setLine (lineMiss s d p home a) home a (readLine (lineAt (lineMiss s d p home a) home a) (pairKey d p)) := by
  rw [cacheRead, lineAccess_within hst hnear]
  exact if_neg (not_not_intro hmiss)

theorem cacheWrite_hit (hst : (pairOf s d p).st = .active) (hnear : splitNow s = false ∨ home = d)
    (hhit : holds (lineAt s home a) (pairKey d p) ≠ .i) :
    cacheWrite s d p home a = setLine (pmcAt s d 640 1 (engCtx p 0)) home a { holders := [(pairKey d p, .m)] } := by
  rw [cacheWrite, lineAccess_within hst hnear]
  exact congrArg (setLine · home a _) (if_pos hhit)

theorem cacheWrite_miss (hst : (pairOf s d p).st = .active) (hnear : splitNow s = false ∨ home = d)
    (hmiss : holds (lineAt s home a) (pairKey d p) = .i) :
    cacheWrite s d p home a = setLine (lineMiss s d p home a) home a { holders := [(pairKey d p, .m)] } := by
  rw [cacheWrite, lineAccess_within hst hnear]
  exact congrArg (setLine · home a _) (if_neg (not_not_intro hmiss))

/-! ### The commands of a dead pair (R359, R361) -/

/-- The commands of the pair that still live. -/
def deadLive (s : State) (d : Die) (p : Nat) : List Nat := (pairOf s d p).deadOps.filter fun o => liveOp s o

/-- The commands put on the threads, from `s`, and taken from what waits for pair `p`. -/
def movedTo (s : State) (d : Die) (p : Nat) (ops : List Nat) (threads : List (Nat × Nat)) : State :=
  let l := ops.zip threads
  let t := l.foldl (fun s m => putThread (modOp s m.1 fun x => { x with read := none, begun := false }) d m.1 m.2) s
  modPair (pmcAt t d 644 l.length (match l.getLast? with | some m => engCtx m.2.1 m.2.2 | none => 0)) d p fun x =>
    { x with deadOps := ops.drop l.length }

/-- With 30 active pairs or no spare one the commands go to the threads that are free. -/
theorem reexecute_free (hdead : (pairOf s d p).st = .failed ∨ (pairOf s d p).deadOps ≠ [])
    (hnone : 30 ≤ (pairsIn s d .active).length ∨ pairsIn s d .spare = []) :
    reexecute s d p = movedTo s d p (deadLive s d p) (freeThreads s d) := by
  have hspare : (if (pairsIn s d .active).length < 30 then (pairsIn s d .spare).head? else none) = none := by
    rcases hnone with hfull | hempty
    · exact if_neg (by omega)
    · rw [hempty, List.head?_nil, ite_self]
  unfold reexecute
  rw [if_neg (by tauto), hspare]
  rfl

/-- A spare pair is made active for them. -/
theorem reexecute_spare (hdead : (pairOf s d p).st = .failed ∨ (pairOf s d p).deadOps ≠ []) (hroom : (pairsIn s d .active).length < 30)
    (hq : (pairsIn s d .spare).head? = some q) :
    reexecute s d p = movedTo (pairGo s d q .active (deadLive s d p).length) d p (deadLive s d p)
      ((freeThreads (pairGo s d q .active (deadLive s d p).length) d).filter fun x => decide (x.1 = q)) := by
  unfold reexecute
  rw [if_neg (by tauto), if_pos hroom, hq]
  rfl

/-! ### The scrubber (R363) -/

theorem exec_scrubUnit_running {w : MemUnit} {e : UnitError} (hreset : s.sys.inReset = false) (hmode : s.sys.mode ≠ .standby) :
    exec (.scrubUnit d w e) s = .next (scrubUnit s d w e) := by
  refine congrArg Host.Outcome.next (if_neg ?_)
  rw [hreset, decide_eq_false hmode]
  exact Bool.false_ne_true

theorem lockstep_live (hfailed : (pairOf s d p).st ≠ .failed) (htested : (pairOf s d p).st ≠ .untested) :
    lockstep s d p =
      let u := reportOwn s d 0x15 p .blockFatal
      if (pairOf u d p).st = .failed then u else killPair (unitFault u d 0x15 p) d p :=
  if_neg (not_or.mpr ⟨hfailed, htested⟩)

/-- Settles O39: an access by whether the pair holds the line, the commands of a dead pair by whether a spare one takes them. That an
error which the scrubber finds is a fault of the HBM block is log entry 133. -/
theorem enginesAndMemoryAct : Obligations.EnginesAndMemoryAct := by
  unfold Obligations.EnginesAndMemoryAct
  refine ⟨?readHit, ?readMiss, ?writeMiss, ?writeHit, ?evict, ?barred, ?directory, ?free, ?spare, ?mismatch, ?corrected, ?uncorrectable, ?full⟩
  case readHit => exact fun s d p home a hst hnear hhit => congrArg Host.Outcome.next (cacheRead_hit hst hnear hhit)
  case readMiss =>
    intro s d p home a u v hst hnear hmiss
    exact congrArg Host.Outcome.next (cacheRead_miss hst hnear hmiss)
  case writeMiss =>
    intro s d p home a u v hst hnear hmiss
    exact congrArg Host.Outcome.next (cacheWrite_miss hst hnear hmiss)
  case writeHit => exact fun s d p home a hst hnear hhit => congrArg Host.Outcome.next (cacheWrite_hit hst hnear hhit)
  case evict => exact fun s d p home a hst hnear => congrArg Host.Outcome.next (lineAccess_within hst hnear)
  case barred => exact fun s d p home a hst hsplit hfar => congrArg Host.Outcome.next (cacheWrite_barred hst hsplit hfar)
  case directory => exact fun s home a hheld => congrArg Host.Outcome.next (if_neg hheld)
  case free =>
    intro s d p o u l t hdead hnone
    exact congrArg Host.Outcome.next (reexecute_free hdead hnone)
  case spare =>
    intro s d p q o u l t hdead hroom hq
    exact congrArg Host.Outcome.next (reexecute_spare hdead hroom hq)
  case mismatch =>
    intro s d p u hp hfailed htested
    exact congrArg Host.Outcome.next ((if_pos hp).trans (lockstep_live hfailed htested))
  case corrected =>
    intro s d w v u hreset hmode
    rw [exec_scrubUnit_running hreset hmode]
    rfl
  case uncorrectable =>
    intro s d w h v u x u r hreset hmode
    rw [exec_scrubUnit_running hreset hmode]
    rfl
  case full => exact fun s d => rfl

end Sys2Proof.Proofs
end

section
/-! PROOF. MG_SHELF_COLLECT, MG_FAULT_RELEASE, MG_SEM_BANK_RESET, MG_TIME_CTL and MG_ARCHIVE_CTL through the mailbox (R372, R394, R407, R425,
R431): each operation's answer where its body is in form, and the mailbox's path to it. -/

namespace Sys2Proof.Proofs

open Sys2Proof Sys2Proof.Machine

variable {s t : State} {b B : Block} {c : List Block} {o a v : Nat}

/-! ### What the rows offer -/

/-- The blocks of MG_TIME_CTL and MG_ARCHIVE_CTL with an action. -/
abbrev timeBlk (b : Block) (a : Nat) : Block := rowBlk b 0xEF [(20, 0, 2, a)]
abbrev archiveBlk (b : Block) (a : Nat) : Block := rowBlk b 0xF0 [(20, 0, 2, a)]

section

variable (iss : Issuer) (b : Block) (c : List Block) (s : State)

theorem exec_mgShelfCollect : exec (.mgShelfCollect iss b c) s = .next (taxia s iss (rowBlk b 0xEC []) c) := rfl
theorem exec_mgFaultRelease : exec (.mgFaultRelease iss b c) s = .next (taxia s iss (rowBlk b 0xED []) c) := rfl
theorem exec_mgSemBankReset : exec (.mgSemBankReset iss b c) s = .next (taxia s iss (rowBlk b 0xEE []) c) := rfl
theorem exec_timeCtlSet : exec (.timeCtlSet iss b c) s = .next (taxia s iss (timeBlk b 0) c) := rfl
theorem exec_timeCtlStep : exec (.timeCtlStep iss b c) s = .next (taxia s iss (timeBlk b 1) c) := rfl
theorem exec_timeCtlReselect : exec (.timeCtlReselect iss b c) s = .next (taxia s iss (timeBlk b 2) c) := rfl
theorem exec_archiveDesignate : exec (.archiveDesignate iss b c) s = .next (taxia s iss (archiveBlk b 0) c) := rfl
theorem exec_archiveClear : exec (.archiveClear iss b c) s = .next (taxia s iss (archiveBlk b 1) c) := rfl
theorem exec_archiveCopy : exec (.archiveCopy iss b c) s = .next (taxia s iss (archiveBlk b 2) c) := rfl

end

/-! ### MG_SHELF_COLLECT (R394) -/

/-- What it returns of a domain, by SEL. -/
def shelfValue (s : State) (d : Die) (n sel : Nat) : Nat :=
  if sel = 0 then activeDigest s d n else if sel = 1 then (dom s d n).tag else if sel = 2 then stagedDigest s d n
  else (dom s d n).epoch + b2n (dom s d n).pend.isSome * 2 ^ 32 + b2n (dom s d n).stagedValid * 2 ^ 33 + b2n (mismatched s d n) * 2 ^ 34

theorem mgShelfCollect_ok (hz : zeros B [(20, 3, 5), (21, 2, 6)] = true) (ht : zeroFrom B 22 = true) (hdie : bothDies B = false) :
    mgShelfCollect s B = .ok s (shelfValue s (tgtDie B) (fld B 20 0 3) (fld B 21 0 2)) := by
  simp only [mgShelfCollect, hz, ht, hdie, Bool.not_false, Bool.and_self, if_true, shelfValue]
  generalize fld B 21 0 2 = sel
  match sel with
  | 0 | 1 | 2 => rfl
  | n + 3 => simp only [Nat.add_eq_zero_iff, Nat.reduceEqDiff, and_false, if_false]

theorem shelfValue_mbxOffer (s : State) (B : Block) (d : Die) (n sel : Nat) : shelfValue (mbxOffer s B).1 d n sel = shelfValue s d n sel := by
  simp only [shelfValue, activeDigest_mbxOffer, stagedDigest_mbxOffer, dom_mbxOffer, mismatched_mbxOffer]

/-! ### MG_FAULT_RELEASE (R425) -/

/-- A held unit begins its self-test at once, with no recoveries counted. -/
def unitReleased (s : State) (d : Die) (k u : Nat) : State :=
  modUnit s d k u fun x => { x with st := .fault, recoveries := [], quietEnd := s.now }

/-- MG_FAULT_RELEASE for one die, its body in form. -/
structure FaultRelease (B : Block) : Prop where
  reserved : fld B 21 0 8 = 0
  rest : zeroFrom B 24 = true
  die : bothDies B = false
  block : fld B 20 0 8 ≤ 0x18
  notLinks : fld B 20 0 8 ≠ 0x12 ∧ fld B 20 0 8 ≠ 0x14

theorem mgFaultRelease_unit (h : FaultRelease B) (hunit : fld B 20 0 8 = 0x13 → fld B 22 0 16 ≤ 7)
    (hst : (unitOf s (tgtDie B) (fld B 20 0 8) (fld B 22 0 16)).st = .heldFailed) :
    mgFaultRelease s B = .ok (unitReleased s (tgtDie B) (fld B 20 0 8) (fld B 22 0 16)) 0 := by
  obtain ⟨hres, hrest, hdie, hblk, hport, hbridge⟩ := h
  unfold mgFaultRelease
  extract_lets d k u form us held
  have hform : form = true := by
    have hok : k ≤ 0x18 ∧ k ≠ 0x12 ∧ k ≠ 0x14 ∧ (k = 0x13 → u ≤ 7 ∨ u = 0xFFFF) :=
      ⟨hblk, hport, hbridge, fun hk => .inl (hunit hk)⟩
    simp only [form, hres, hrest, hdie, decide_eq_true hok, beq_self_eq_true, Bool.not_false, Bool.and_self]
  have hus : us = [u] := if_neg fun ⟨hk, hu⟩ => absurd (hunit hk) (show ¬ u ≤ 7 by omega)
  have hheld : held = [u] := by
    simp only [held, hus, List.filter_cons, decide_eq_true (show (unitOf s d k u).st = .heldFailed from hst), if_true, List.filter_nil]
  rw [hform, hheld]
  rfl

/-- The units of block 0x13 that are HELD_FAILED. -/
def heldUnits (s : State) (d : Die) : List Nat :=
  (addNew ((List.range 8).filter fun m => decide ((unitOf s d 0x13 m).st = .heldFailed)) 0xFFFF).filter fun u =>
    decide ((unitOf s d 0x13 u).st = .heldFailed)

theorem heldUnits_mbxOffer (s : State) (B : Block) (d : Die) : heldUnits (mbxOffer s B).1 d = heldUnits s d := rfl

theorem mgFaultRelease_all (hblk : fld B 20 0 8 = 0x13) (hunit : fld B 22 0 16 = 0xFFFF) (hres : fld B 21 0 8 = 0) (hrest : zeroFrom B 24 = true)
    (hdie : bothDies B = false) (hsome : heldUnits s (tgtDie B) ≠ []) :
    mgFaultRelease s B = .ok ((heldUnits s (tgtDie B)).foldl (fun s u => unitReleased s (tgtDie B) 0x13 u) s) 0 := by
  have hsome' : (heldUnits s (tgtDie B)).isEmpty = false := List.isEmpty_eq_false_iff.mpr hsome
  unfold heldUnits at hsome' ⊢
  simp [mgFaultRelease, hblk, hunit, hres, hrest, hdie, hsome', unitReleased]

/-! ### MG_SEM_BANK_RESET (R372) -/

theorem mgSemBankReset_idle (hz : zeros B [(20, 3, 5)] = true) (ht : zeroFrom B 21 = true) (hdie : bothDies B = false)
    (hidle : bankIdle s (tgtDie B) (fld B 20 0 3) = true) :
    mgSemBankReset s B = .ok (bankReset s (tgtDie B) (fld B 20 0 3)) 0 := by
  simp only [mgSemBankReset, hz, ht, hdie, hidle, Bool.not_false, Bool.and_self, if_true]

/-! ### MG_TIME_CTL (R407) -/

/-- MG_TIME_CTL or MG_ARCHIVE_CTL of action `a`, its reserved bytes zero. -/
structure ActionForm (B : Block) (a : Nat) : Prop where
  action : fld B 20 0 2 = a
  zero : zeros B [(20, 2, 6), (21, 0, 24)] = true
  rest : zeroFrom B 32 = true

theorem actionForm_rowBlk {op : Nat} (ha : a < 4) (hz : zeros (rowBlk b op [(20, 0, 2, a)]) [(20, 2, 6), (21, 0, 24)] = true)
    (ht : zeroFrom (rowBlk b op [(20, 0, 2, a)]) 32 = true) : ActionForm (rowBlk b op [(20, 0, 2, a)]) a :=
  ⟨(fld_rowBlk_one b op 20 0 2 a (by omega)).trans (Nat.mod_eq_of_lt (by omega)), hz, ht⟩

theorem mgTimeCtl_sets (h : ActionForm B 0) (hsec : fld B 24 0 64 % secNs = 0) (hpend : pendingAny s = false) (hst : s.time.st ≠ .locked) :
    mgTimeCtl s B = .ok (if anyGrandmaster s && ppsPresent s then onTime s fun t => { t with setAtPps := some (fld B 24 0 64), step := none }
      else timeLoad s (fld B 24 0 64)) 0 := by
  obtain ⟨hact, hz, ht⟩ := h
  cases hpps : anyGrandmaster s && ppsPresent s <;> simp [mgTimeCtl, hact, hz, ht, hsec, hpend, hst, hpps]

theorem mgTimeCtl_steps (h : ActionForm B 1) (hsmall : Int.ofNat (signed64 (fld B 24 0 64)).natAbs < halfSec) (hpend : pendingAny s = false)
    (hnone : s.time.step = none) :
    mgTimeCtl s B = .ok (onTime s fun t => { t with step := some (nextSecond s, signed64 (fld B 24 0 64)) }) 0 := by
  obtain ⟨hact, hz, ht⟩ := h
  have hform : decide (Int.ofNat (signed64 (fld B 24 0 64)).natAbs < halfSec) = true := decide_eq_true hsmall
  simp only [mgTimeCtl, hact, hz, ht, hform, hpend, hnone, Bool.false_eq_true, if_false, Option.isSome_none]
  rfl

theorem mgTimeCtl_reselects (h : ActionForm B 2) (hzero : fld B 24 0 64 = 0) : mgTimeCtl s B = .ok (timeReselect s) 0 := by
  obtain ⟨hact, hz, ht⟩ := h
  simp [mgTimeCtl, hact, hz, ht, hzero]

/-! ### MG_ARCHIVE_CTL (R431) -/

theorem mgArchiveCtl_designates (h : ActionForm B 0) (hpage : fld B 24 0 64 % 4096 = 0) :
    mgArchiveCtl s o B = .ok (archiveCopyBegin { s with arch := { s.arch with dest := some (fld B 24 0 64) } }) 0 := by
  obtain ⟨hact, hz, ht⟩ := h
  simp [mgArchiveCtl, hact, hz, ht, hpage]

theorem mgArchiveCtl_clears (h : ActionForm B 1) (hpage : fld B 24 0 64 % 4096 = 0) :
    mgArchiveCtl s o B = .ok { s with arch := { s.arch with dest := none } } 0 := by
  obtain ⟨hact, hz, ht⟩ := h
  simp [mgArchiveCtl, hact, hz, ht, hpage]

theorem mgArchiveCtl_copies {l : List Nat} (h : ActionForm B 2) (hpage : fld B 24 0 64 % 4096 = 0) (hvalid : s.arch.valid = true)
    (hdest : s.arch.dest.isSome = true) (hops : s.arch.copyOps = l) :
    mgArchiveCtl s o B =
      .hold (modOp { s with arch := { s.arch with copying := true, copyOps := l ++ [o] } } o fun x => { x with phase := .archive }) := by
  obtain ⟨hact, hz, ht⟩ := h
  simp [mgArchiveCtl, hact, hz, ht, hpage, hvalid, hdest, hops]

/-! ### The mailbox's path -/

theorem mailbox_shelfCollect (hr : mbxReady s (rowBlk b 0xEC []) = true)
    (h : mgShelfCollect (mbxOffer s (rowBlk b 0xEC [])).1 (rowBlk b 0xEC []) = .ok t v) : MailboxResult s (rowBlk b 0xEC []) c t v := by
  have hop : fld (rowBlk b 0xEC []) 0 0 8 = 0xEC := fld_rowBlk_op b 0xEC [] (by simp)
  exact mailbox_result hr hop (by decide) (by decide) ((mgRun_EC _ _ _ _ hop (mbxReady_target s _ hr)).trans h)

theorem mailbox_faultRelease (hr : mbxReady s (rowBlk b 0xED []) = true)
    (h : mgFaultRelease (mbxOffer s (rowBlk b 0xED [])).1 (rowBlk b 0xED []) = .ok t v) : MailboxResult s (rowBlk b 0xED []) c t v := by
  have hop : fld (rowBlk b 0xED []) 0 0 8 = 0xED := fld_rowBlk_op b 0xED [] (by simp)
  exact mailbox_result hr hop (by decide) (by decide) ((mgRun_ED _ _ _ _ hop (mbxReady_target s _ hr)).trans h)

theorem mailbox_semBankReset (hr : mbxReady s (rowBlk b 0xEE []) = true)
    (h : mgSemBankReset (mbxOffer s (rowBlk b 0xEE [])).1 (rowBlk b 0xEE []) = .ok t v) : MailboxResult s (rowBlk b 0xEE []) c t v := by
  have hop : fld (rowBlk b 0xEE []) 0 0 8 = 0xEE := fld_rowBlk_op b 0xEE [] (by simp)
  exact mailbox_result hr hop (by decide) (by decide) ((mgRun_EE _ _ _ _ hop (mbxReady_target s _ hr)).trans h)

theorem mailbox_timeCtl (hr : mbxReady s (timeBlk b a) = true) (h : mgTimeCtl (mbxOffer s (timeBlk b a)).1 (timeBlk b a) = .ok t v) :
    MailboxResult s (timeBlk b a) c t v := by
  have hop : fld (timeBlk b a) 0 0 8 = 0xEF := fld_rowBlk_op b 0xEF _ (by simp)
  exact mailbox_result hr hop (by decide) (by decide) ((mgRun_EF _ _ _ _ hop (mbxReady_target s _ hr)).trans h)

theorem mailbox_archiveCtl (hr : mbxReady s (archiveBlk b a) = true)
    (h : mgArchiveCtl (mbxOffer s (archiveBlk b a)).1 (mbxOffer s (archiveBlk b a)).2 (archiveBlk b a) = .ok t v) :
    MailboxResult s (archiveBlk b a) c t v := by
  have hop : fld (archiveBlk b a) 0 0 8 = 0xF0 := fld_rowBlk_op b 0xF0 _ (by simp)
  exact mailbox_result hr hop (by decide) (by decide) ((mgRun_F0 _ _ _ _ hop (mbxReady_target s _ hr)).trans h)

theorem mailbox_archiveCtl_hold (hr : mbxReady s (archiveBlk b a) = true)
    (h : mgArchiveCtl (mbxOffer s (archiveBlk b a)).1 (mbxOffer s (archiveBlk b a)).2 (archiveBlk b a) = .hold t) :
    Host.Outcome.next (taxia s .mailbox (archiveBlk b a) c) = (.next t : Host.Outcome State Fault Refusal) := by
  have hop : fld (archiveBlk b a) 0 0 8 = 0xF0 := fld_rowBlk_op b 0xF0 _ (by simp)
  exact congrArg Host.Outcome.next
    (mbx_hold s _ c 0xF0 t hop (by decide) (by decide) hr ((mgRun_F0 _ _ _ _ hop (mbxReady_target s _ hr)).trans h))

/-- Settles O6: each operation's answer on the state that the mailbox's offer leaves, whose domains, units, semaphores, device time and
Archive are those before it. That SET waits for PPS_IN without limit is log entry 142, what RESELECT leaves log entry 141. -/
theorem auditFaultTimeCommandsAct : Obligations.AuditFaultTimeCommandsAct := by
  unfold Obligations.AuditFaultTimeCommandsAct
  refine ⟨?shelf, ?unit, ?units, ?bank, ?set, ?step, ?reselect, ?designate, ?clear, ?copy⟩
  case shelf =>
    intro s b c B p d n hr hz ht hdie
    have h := mgShelfCollect_ok (s := p.1) hz ht hdie
    rw [shelfValue_mbxOffer] at h
    rw [exec_mgShelfCollect]
    exact mailbox_shelfCollect hr h
  case unit =>
    intro s b c B p d k u hr hres hrest hdie hblk hlinks hunit hst
    have hne : k ≠ 0x12 ∧ k ≠ 0x14 := by simpa using hlinks
    rw [← unitOf_mbxOffer s B] at hst
    rw [exec_mgFaultRelease]
    exact mailbox_faultRelease hr (mgFaultRelease_unit ⟨hres, hrest, hdie, hblk, hne⟩ hunit hst)
  case units =>
    intro s b c B p d held hr hblk hunit hres hrest hdie (hsome : heldUnits s d ≠ [])
    rw [← heldUnits_mbxOffer s B] at hsome
    have h := mgFaultRelease_all (s := p.1) hblk hunit hres hrest hdie hsome
    rw [heldUnits_mbxOffer] at h
    rw [exec_mgFaultRelease]
    exact mailbox_faultRelease hr h
  case bank =>
    intro s b c B p d hr hz ht hdie hidle
    rw [← bankIdle_mbxOffer s B] at hidle
    rw [exec_mgSemBankReset]
    exact mailbox_semBankReset hr (mgSemBankReset_idle hz ht hdie hidle)
  case set =>
    intro s b c B p hr hz ht hsec hpend hst
    rw [← pendingAny_mbxOffer s B] at hpend
    rw [← mbxOffer_time s B] at hst
    have h := mgTimeCtl_sets (s := p.1) (actionForm_rowBlk (by decide) hz ht) hsec hpend hst
    rw [anyGrandmaster_mbxOffer, ppsPresent_mbxOffer] at h
    rw [exec_timeCtlSet]
    exact mailbox_timeCtl hr h
  case step =>
    intro s b c B p hr hz ht hsmall hpend hnone
    rw [← pendingAny_mbxOffer s B] at hpend
    rw [← mbxOffer_time s B] at hnone
    have h := mgTimeCtl_steps (s := p.1) (actionForm_rowBlk (by decide) hz ht) hsmall hpend hnone
    rw [nextSecond_mbxOffer] at h
    rw [exec_timeCtlStep]
    exact mailbox_timeCtl hr h
  case reselect =>
    intro s b c B p hr hz ht hzero
    rw [exec_timeCtlReselect]
    exact mailbox_timeCtl hr (mgTimeCtl_reselects (actionForm_rowBlk (by decide) hz ht) hzero)
  case designate =>
    intro s b c B p hr hz ht hpage
    rw [exec_archiveDesignate]
    exact mailbox_archiveCtl hr (mgArchiveCtl_designates (actionForm_rowBlk (by decide) hz ht) hpage)
  case clear =>
    intro s b c B p hr hz ht hpage
    rw [exec_archiveClear]
    exact mailbox_archiveCtl hr (mgArchiveCtl_clears (actionForm_rowBlk (by decide) hz ht) hpage)
  case copy =>
    intro s b c B p hr hz ht hpage hvalid hdest
    rw [← mbxOffer_arch s B] at hvalid hdest
    rw [exec_archiveCopy]
    exact mailbox_archiveCtl_hold hr
      (mgArchiveCtl_copies (actionForm_rowBlk (by decide) hz ht) hpage hvalid hdest (congrArg Archive.copyOps (mbxOffer_arch s B)))

end Sys2Proof.Proofs
end
